-- ==== Sys2Proof/Word.lean ====
section
/-! DEFINITION. The word types of the X1 and their plainest reading (R2, R20). -/

namespace Sys2Proof

/-- A scalar register, an address or a bundle number: 64 bits (R20, R358). -/
abbrev Word := BitVec 64

/-- A slot word (R32). -/
abbrev Slot32 := BitVec 32

/-- A byte of memory. -/
abbrev Byte := BitVec 8

/-- A vector of 128 lanes of 32 bits, lane `i` in bits `[32i+31:32i]` (R20). -/
abbrev Lanes := BitVec 4096

/-- A lane mask, one bit per lane (R20). -/
abbrev LaneMask := BitVec 128

/-- One row of an accumulator tile: 64 elements of 32 bits (R20). -/
abbrev TileRow := BitVec 2048

/-- A 64-byte block, record or line read as one little-endian quantity. -/
abbrev Block := BitVec 512

/-- An account handle (R266). -/
abbrev Handle := BitVec 32

/-- A map from numbers to values, held as a list whose keys strictly rise. -/
abbrev NatMap (α : Type) := List (Nat × α)

end Sys2Proof
end

