-- ==== Sys2Proof/Types.lean ====
section
/-! DEFINITION. The names and records that the syntax and the state are made of: operand codes, element types, trap
causes, tokens, messages, packets, frames and events. Each follows a field map of the spec. -/

namespace Sys2Proof

/-- The slot classes of a bundle (R32). -/
inductive SlotClass where
  | S | V | F | M | X | K
deriving DecidableEq, Repr

/-- The classes of an operand field (R39). -/
inductive Cls where
  | s | v | m | p | a | g | q
deriving DecidableEq, Repr

/-- The operand codes 0 to 127 of a source field (R39). -/
inductive Src where
  | reg (n : BitVec 6)      -- 0 to 63
  | latch (n : BitVec 3)    -- 64 to 71
  | pop (n : BitVec 3)      -- 72 to 79
  | peek (n : BitVec 3)     -- 80 to 87
  | special (n : BitVec 3)  -- 88 to 95 (R40)
  | imm (n : BitVec 5)      -- 96 to 127: the value is the code less 112
deriving DecidableEq, Repr

/-- The vector element types in the order of their codes (R59). -/
inductive VType where
  | f32 | bf16 | f16 | i32 | n32 | i16 | n16 | i8
deriving DecidableEq, Repr

/-- The scalar floating formats (R58). -/
inductive FFmt where
  | f32 | f64
deriving DecidableEq, Repr

/-- The special-function formats (R61). -/
inductive FTy where
  | f32 | bf16
deriving DecidableEq, Repr

/-- The rounding codes of a conversion selector (R60). -/
inductive Round where
  | near | zero | up | down | stoch
deriving DecidableEq, Repr

/-- The integer types of scalar conversions in the order of their codes (R122). -/
inductive IType where
  | i64 | n64 | i32 | n32
deriving DecidableEq, Repr

/-- The sub-operations of VCVTX (R59). -/
inductive XType where
  | toE4m3 | toE5m2 | toN8 | fromE4m3 | fromE5m2 | fromN8
deriving DecidableEq, Repr

/-- The types of LDQ (R63). -/
inductive LdTy where
  | i8 | n8 | i16 | n16 | i32 | n32 | i64
deriving DecidableEq, Repr

/-- The types of GATHER (R63). -/
inductive GaTy where
  | n32 | n16 | n8
deriving DecidableEq, Repr

/-- The types of ST, opcode bits `[2:1]` (R63). -/
inductive StTy where
  | n8 | n16 | n32 | n64
deriving DecidableEq, Repr

/-- The GANG field (R36, R170). -/
inductive Gang where
  | g88 | g84 | g66 | g44
deriving DecidableEq, Repr

/-- The trap causes and events of R430, by the names of the manual. -/
inductive Cause where
  | illegal | align | translation | attr | arithException | fetchRange | privilege | userTrap
  | latchLost | queueEarly | queueClass | queueFull | queueUndeclared | queueRetain | withholdFull
  | scratchRange | stashUnmapped | loopStack | streamInvalid | ringEarly | matrixFormat | matrixEmpty
  | matrixEarly | sixQueue | fenceUntracked | waitRange | waitNever | recordInvalid | postRange
  | ckboundOver | qboundOver | carryFull | sysregReadonly | tretInvalid | opreqInvalid | accUndeclared
  | accountStale | accountClosed | accountOp | accountBusy | spawnInvalid | trigBusy | trigInvalid
  | barTree | weightSaturated | weightNone | glBusy | glState | glRange
  | placeRefused | noAccount | capacity | glStatic | glNopath | landRefused | glBroken
  | weightNegative | engineRz | recordChanged | ringOversize | sixFormat | barOverrun | barTimeout
  | artInvalid | partInvalid | linkMismatch | trapOverflow | capPreempt | allowEmpty | thermalCrit
  | capRaised | unachievable | rangerHalt | evacFault | trapForward | eventDropped | lightLoss
  | restriped | linkLost | linkReplay | heaterSat | ringSpared | eccCorrected | eccUncorrected
  | crcRetry | leaseConflict | xlinvReplay
deriving DecidableEq, Repr

/-- A token of weight: the account it belongs to, the package that account is in, and its exponent (R268). -/
structure Tok where
  acct : Handle
  pkg  : BitVec 16
  exp  : BitVec 7
deriving DecidableEq, Repr

/-- A return of weight on its way home (R274, R275), with the pts it carries (R303). -/
structure Ret where
  acct  : Handle
  pkg   : BitVec 16
  value : Nat
  taint : Bool
  pts   : Word
deriving DecidableEq, Repr

/-- A message of SEND in flight (R299, R316) with the unit that sent it, numbered in the order of sending (R300). -/
structure Message where
  label   : BitVec 16
  dcore   : BitVec 8
  remote  : Bool
  dpkg    : BitVec 16
  payload : Block
  srcCore : Nat
  unit    : Nat
  srcPkg  : BitVec 16
  part    : Nat
  podid   : BitVec 16
  tok     : Tok
  pts     : Word
  seq     : Nat
deriving DecidableEq, Repr

/-- A command frame of the host port (R449). -/
structure Frame where
  op      : BitVec 16
  tag     : BitVec 16
  status  : BitVec 16
  ver     : BitVec 16
  len     : BitVec 32
  rz      : BitVec 32
  arg0    : Word
  arg1    : Word
  payload : List Byte
deriving DecidableEq, Repr

/-- An event record as its fields (R429); TIME is written when the hub detects it. -/
structure EventRec where
  code  : Cause
  src   : BitVec 4
  srcid : BitVec 12
  part  : Option (BitVec 3)
  time  : Word
  addr  : Word
  acct  : Handle
  tid   : BitVec 32
  arg0  : Word
  arg1  : Word
deriving DecidableEq, Repr

/-- A barrier named by a transfer or a circuit: in device memory, or in the raw region of a unit (R246, R258). -/
inductive BarLoc where
  | mem (pa : Nat)
  | raw (unit : Nat) (off : Nat)
deriving DecidableEq, Repr

/-- A request that a packet carries to or from another package (R255, R316, R351). -/
inductive PktBody where
  | message (m : Message)
  | chunk (xfer : Nat) (rec : Block) (lo : Nat) (chan : Nat) (tid : BitVec 32) (data : List Byte)
  | chunkAck (xfer : Nat) (lo : Nat) (wts : Word) (landed : Bool)
  | chunkFault (xfer : Nat) (lo : Nat) (k : Cause) (addr : Word)
  | read (xfer : Nat) (va : Nat) (lo : Nat) (n : Nat)
  | readData (xfer : Nat) (lo : Nat) (data : List Byte)
  | readFault (xfer : Nat) (lo : Nat) (k : Option Cause) (addr : Word)
  | ret (r : Ret)
  | borrow (acct : Handle) (core : Nat)
  | borrowReply (acct : Handle) (core : Nat) (refused : Option Cause)
  | glOpen (key : Nat) (block : Block) (slot : Nat)
  | glOpened (key : Nat) (refused : Option Cause)
  | glFlit (key : Nat) (pos : Nat) (data : List Byte)
  | glAck (key : Nat) (words : Nat) (wts : Word)
  | glFault (key : Nat) (k : Option Cause) (addr : Word)
  | glEnd (key : Nat)
  | glFinal (key : Nat) (words : Nat)
  | cancelled (acct : Handle)
  | retired (xfer : Nat) (faulted : Bool)
  | flowMark (last : Bool)
  | podUp (tree : Nat) (v : BitVec 64) (broken : Bool)
  | podDown (tree : Nat) (v : BitVec 64) (broken : Bool)
deriving DecidableEq, Repr

/-- A trail packet (R316), numbered in the order of sending (R318), with the Ibaskov port that it came in by. -/
structure Packet where
  cls   : BitVec 3
  spkg  : BitVec 16
  score : Nat
  dpkg  : BitVec 16
  dcore : Nat
  label : BitVec 16
  podid : BitVec 16
  tok   : Option Tok
  body  : PktBody
  seq   : Nat := 0
  via   : Nat := 0
deriving DecidableEq, Repr

/-- What a link flit carries (R433): KIND 0 to 3, or a value that is none of these. -/
inductive FlitKind where
  | idle | trail | circuit | control
  | other (k : BitVec 4)
deriving DecidableEq, Repr

/-- A flit on an Ibaskov link (R433): sequence number, acknowledgement, kind, data and CRC; with it, the packet that it ends, when it ends one,
and how often it has been resent (R436). -/
structure Flit where
  seq  : BitVec 12
  ack  : BitVec 12
  kind : FlitKind
  data : BitVec 256
  crc  : BitVec 32
  pkt  : Option Packet
  again : Nat := 0
deriving DecidableEq, Repr

/-- The readings of one control interval of a quadrant (R380, R381, R383 to R386): the energy of its two domains and the shares
of its cores in nanojoules, its temperature, and whether its current stayed below 90 % of ILIM. -/
structure Reading where
  quad      : Nat
  energyNj  : Nat
  coreNj    : List Nat
  tempC     : Nat
  currentOk : Bool
deriving DecidableEq, Repr

end Sys2Proof
end

