-- ==== Sys2Proof/Syntax.lean ====
section
/-! DEFINITION. The instructions and device actions of the X1: one constructor per row of the opcode table, in its order.
A row with an encoding carries its fields by the names of the table: `p` predicate or lane mask, `w` NOWB, `d` destination,
`a` and `b` sources. A row without one is a device action; what it acts on stands in the action at hand (Sys2Proof.Action). -/

namespace Sys2Proof

/-- Every instruction and device action of the opcode table. -/
inductive Instr where
  /-- NOP (R36): An all-zero slot word issues and does nothing in its slot. -/
  | nop
  /-- ADD (R110): Scalar 64-bit wrapping addition. -/
  | add (p : BitVec 3) (w : Bool) (d : BitVec 6) (a : Src) (b : Src)
  /-- SUB (R110): Scalar 64-bit wrapping subtraction. -/
  | sub (p : BitVec 3) (w : Bool) (d : BitVec 6) (a : Src) (b : Src)
  /-- AND (R110): Scalar bitwise AND. -/
  | and (p : BitVec 3) (w : Bool) (d : BitVec 6) (a : Src) (b : Src)
  /-- OR (R110): Scalar bitwise OR. -/
  | or (p : BitVec 3) (w : Bool) (d : BitVec 6) (a : Src) (b : Src)
  /-- XOR (R110): Scalar bitwise XOR. -/
  | xor (p : BitVec 3) (w : Bool) (d : BitVec 6) (a : Src) (b : Src)
  /-- ANDN (R110): Scalar a AND NOT b. -/
  | andn (p : BitVec 3) (w : Bool) (d : BitVec 6) (a : Src) (b : Src)
  /-- SHL (R110): Scalar shift left by b[5:0]. -/
  | shl (p : BitVec 3) (w : Bool) (d : BitVec 6) (a : Src) (b : Src)
  /-- SHR (R110): Scalar logical shift right by b[5:0]. -/
  | shr (p : BitVec 3) (w : Bool) (d : BitVec 6) (a : Src) (b : Src)
  /-- SRA (R110): Scalar arithmetic shift right by b[5:0]. -/
  | sra (p : BitVec 3) (w : Bool) (d : BitVec 6) (a : Src) (b : Src)
  /-- ROTR (R110): Scalar rotate right by b[5:0]. -/
  | rotr (p : BitVec 3) (w : Bool) (d : BitVec 6) (a : Src) (b : Src)
  /-- MIN (R110): Scalar signed minimum. -/
  | min (p : BitVec 3) (w : Bool) (d : BitVec 6) (a : Src) (b : Src)
  /-- MINN (R110): Scalar unsigned minimum. -/
  | minn (p : BitVec 3) (w : Bool) (d : BitVec 6) (a : Src) (b : Src)
  /-- MAX (R110): Scalar signed maximum. -/
  | max (p : BitVec 3) (w : Bool) (d : BitVec 6) (a : Src) (b : Src)
  /-- MAXN (R110): Scalar unsigned maximum. -/
  | maxn (p : BitVec 3) (w : Bool) (d : BitVec 6) (a : Src) (b : Src)
  /-- SEL (R110): Scalar select: d := a if old d is non-zero, else b. -/
  | sel (p : BitVec 3) (w : Bool) (d : BitVec 6) (a : Src) (b : Src)
  /-- MUL (R111): Scalar multiply, low 64 bits, latency 3. -/
  | mul (p : BitVec 3) (w : Bool) (d : BitVec 6) (a : Src) (b : Src)
  /-- MULH (R111): Scalar signed multiply, high 64 bits. -/
  | mulh (p : BitVec 3) (w : Bool) (d : BitVec 6) (a : Src) (b : Src)
  /-- MULHN (R111): Scalar unsigned multiply, high 64 bits. -/
  | mulhn (p : BitVec 3) (w : Bool) (d : BitVec 6) (a : Src) (b : Src)
  /-- CLZ (R112): Count leading zero bits. -/
  | clz (p : BitVec 3) (w : Bool) (d : BitVec 6) (a : Src)
  /-- POPC (R112): Count one bits. -/
  | popc (p : BitVec 3) (w : Bool) (d : BitVec 6) (a : Src)
  /-- BFX (R113): Extract a bit field, signed or unsigned. -/
  | bfx (p : BitVec 3) (w : Bool) (d : BitVec 6) (a : Src) (b : Src)
  /-- BFI (R114): Insert low bits of a into a field of d. -/
  | bfi (p : BitVec 3) (w : Bool) (d : BitVec 6) (a : Src) (b : Src)
  /-- CMPEQ (R118): Scalar equality compare into a predicate. -/
  | cmpeq (p : BitVec 3) (w : Bool) (d : BitVec 6) (a : Src) (b : Src)
  /-- CMPNE (R118): Scalar inequality compare into a predicate. -/
  | cmpne (p : BitVec 3) (w : Bool) (d : BitVec 6) (a : Src) (b : Src)
  /-- CMPLT (R118): Scalar signed less-than into a predicate. -/
  | cmplt (p : BitVec 3) (w : Bool) (d : BitVec 6) (a : Src) (b : Src)
  /-- CMPLTN (R118): Scalar unsigned less-than into a predicate. -/
  | cmpltn (p : BitVec 3) (w : Bool) (d : BitVec 6) (a : Src) (b : Src)
  /-- CMPLE (R118): Scalar signed less-or-equal into a predicate. -/
  | cmple (p : BitVec 3) (w : Bool) (d : BitVec 6) (a : Src) (b : Src)
  /-- CMPLEN (R118): Scalar unsigned less-or-equal into a predicate. -/
  | cmplen (p : BitVec 3) (w : Bool) (d : BitVec 6) (a : Src) (b : Src)
  /-- PAND (R119): Predicate AND. -/
  | pand (p : BitVec 3) (w : Bool) (d : BitVec 6) (a : Src) (b : Src)
  /-- POR (R119): Predicate OR. -/
  | por (p : BitVec 3) (w : Bool) (d : BitVec 6) (a : Src) (b : Src)
  /-- PXOR (R119): Predicate XOR. -/
  | pxor (p : BitVec 3) (w : Bool) (d : BitVec 6) (a : Src) (b : Src)
  /-- ADDS2 (R115): Address scaling a + (b << 2). -/
  | adds2 (p : BitVec 3) (w : Bool) (d : BitVec 6) (a : Src) (b : Src)
  /-- ADDS3 (R115): Address scaling a + (b << 3). -/
  | adds3 (p : BitVec 3) (w : Bool) (d : BitVec 6) (a : Src) (b : Src)
  /-- ADDS6 (R115): Address scaling a + (b << 6). -/
  | adds6 (p : BitVec 3) (w : Bool) (d : BitVec 6) (a : Src) (b : Src)
  /-- ADDS10 (R115): Address scaling a + (b << 10). -/
  | adds10 (p : BitVec 3) (w : Bool) (d : BitVec 6) (a : Src) (b : Src)
  /-- MOV (R110): Scalar move. -/
  | mov (p : BitVec 3) (w : Bool) (d : BitVec 6) (a : Src)
  /-- ADDI (R116): Add a signed 14-bit immediate to d. -/
  | addi (p : BitVec 3) (w : Bool) (d : BitVec 6) (i : BitVec 14)
  /-- ANDI (R116): AND d with a sign-extended immediate. -/
  | andi (p : BitVec 3) (w : Bool) (d : BitVec 6) (i : BitVec 14)
  /-- ORI (R116): OR d with a sign-extended immediate. -/
  | ori (p : BitVec 3) (w : Bool) (d : BitVec 6) (i : BitVec 14)
  /-- XORI (R116): XOR d with a sign-extended immediate. -/
  | xori (p : BitVec 3) (w : Bool) (d : BitVec 6) (i : BitVec 14)
  /-- SHLI (R116): Shift d left by an immediate count. -/
  | shli (p : BitVec 3) (w : Bool) (d : BitVec 6) (i : BitVec 6)
  /-- SHRI (R116): Shift d logically right by an immediate count. -/
  | shri (p : BitVec 3) (w : Bool) (d : BitVec 6) (i : BitVec 6)
  /-- SRAI (R116): Shift d arithmetically right by an immediate count. -/
  | srai (p : BitVec 3) (w : Bool) (d : BitVec 6) (i : BitVec 6)
  /-- CMPEQI (R117): Compare a scalar register with an 11-bit immediate for equality into a predicate. -/
  | cmpeqi (p : BitVec 3) (w : Bool) (a : BitVec 6) (d : BitVec 3) (i : BitVec 11)
  /-- CMPLTI (R117): Signed less-than of a scalar register against an immediate into a predicate. -/
  | cmplti (p : BitVec 3) (w : Bool) (a : BitVec 6) (d : BitVec 3) (i : BitVec 11)
  /-- MOVI (R116): Load a sign-extended immediate into d. -/
  | movi (p : BitVec 3) (w : Bool) (d : BitVec 6) (i : BitVec 14)
  /-- FADD (R120): Scalar FP32 or FP64 addition, rounded once under ARITH.RM. -/
  | fadd (f : FFmt) (p : BitVec 3) (w : Bool) (d : BitVec 6) (a : Src) (b : Src)
  /-- FSUB (R120): Scalar floating subtraction. -/
  | fsub (f : FFmt) (p : BitVec 3) (w : Bool) (d : BitVec 6) (a : Src) (b : Src)
  /-- FMUL (R120): Scalar floating multiplication. -/
  | fmul (f : FFmt) (p : BitVec 3) (w : Bool) (d : BitVec 6) (a : Src) (b : Src)
  /-- FFMA (R120): Scalar fused multiply-add with one rounding. -/
  | ffma (f : FFmt) (p : BitVec 3) (w : Bool) (d : BitVec 6) (a : Src) (b : Src)
  /-- FMIN (R121): Scalar floating minimum under R84. -/
  | fmin (f : FFmt) (p : BitVec 3) (w : Bool) (d : BitVec 6) (a : Src) (b : Src)
  /-- FMAX (R121): Scalar floating maximum under R84. -/
  | fmax (f : FFmt) (p : BitVec 3) (w : Bool) (d : BitVec 6) (a : Src) (b : Src)
  /-- FCMPEQ (R121): Scalar floating equality into a predicate. -/
  | fcmpeq (f : FFmt) (p : BitVec 3) (w : Bool) (d : BitVec 6) (a : Src) (b : Src)
  /-- FCMPLT (R121): Scalar floating less-than into a predicate. -/
  | fcmplt (f : FFmt) (p : BitVec 3) (w : Bool) (d : BitVec 6) (a : Src) (b : Src)
  /-- FCMPLE (R121): Scalar floating less-or-equal into a predicate. -/
  | fcmple (f : FFmt) (p : BitVec 3) (w : Bool) (d : BitVec 6) (a : Src) (b : Src)
  /-- FCVTS (R125): Convert between the scalar floating formats. -/
  | fcvts (f : FFmt) (p : BitVec 3) (w : Bool) (d : BitVec 6) (a : Src) (r : Round)
  /-- FCVTI (R123): Convert a scalar float to an integer type with saturation at the bounds. -/
  | fcvti (f : FFmt) (p : BitVec 3) (w : Bool) (d : BitVec 6) (a : Src) (t : IType) (r : Round)
  /-- FCVTF (R124): Convert a scalar integer to a floating format. -/
  | fcvtf (f : FFmt) (p : BitVec 3) (w : Bool) (d : BitVec 6) (a : Src) (t : IType) (r : Round)
  /-- VADD (R146): Vector addition per active element. -/
  | vadd (t : VType) (p : BitVec 3) (w : Bool) (d : BitVec 6) (a : Src) (b : Src)
  /-- VSUB (R146): Vector subtraction per active element. -/
  | vsub (t : VType) (p : BitVec 3) (w : Bool) (d : BitVec 6) (a : Src) (b : Src)
  /-- VMUL (R146): Vector multiplication per active element. -/
  | vmul (t : VType) (p : BitVec 3) (w : Bool) (d : BitVec 6) (a : Src) (b : Src)
  /-- VFMA (R146): Vector fused multiply-add into the destination. -/
  | vfma (t : VType) (p : BitVec 3) (w : Bool) (d : BitVec 6) (a : Src) (b : Src)
  /-- VFMS (R146): Vector fused multiply-subtract from the destination. -/
  | vfms (t : VType) (p : BitVec 3) (w : Bool) (d : BitVec 6) (a : Src) (b : Src)
  /-- VMIN (R147): Vector minimum. -/
  | vmin (t : VType) (p : BitVec 3) (w : Bool) (d : BitVec 6) (a : Src) (b : Src)
  /-- VMAX (R147): Vector maximum. -/
  | vmax (t : VType) (p : BitVec 3) (w : Bool) (d : BitVec 6) (a : Src) (b : Src)
  /-- VADDS (R146): Vector saturating integer addition. -/
  | vadds (t : VType) (p : BitVec 3) (w : Bool) (d : BitVec 6) (a : Src) (b : Src)
  /-- VSUBS (R146): Vector saturating integer subtraction. -/
  | vsubs (t : VType) (p : BitVec 3) (w : Bool) (d : BitVec 6) (a : Src) (b : Src)
  /-- VCMPEQ (R149): Vector equality compare into a mask. -/
  | vcmpeq (t : VType) (p : BitVec 3) (w : Bool) (d : BitVec 6) (a : Src) (b : Src)
  /-- VCMPLT (R149): Vector less-than compare into a mask. -/
  | vcmplt (t : VType) (p : BitVec 3) (w : Bool) (d : BitVec 6) (a : Src) (b : Src)
  /-- VCMPLE (R149): Vector less-or-equal compare into a mask. -/
  | vcmple (t : VType) (p : BitVec 3) (w : Bool) (d : BitVec 6) (a : Src) (b : Src)
  /-- VABS (R147): Vector absolute value. -/
  | vabs (t : VType) (p : BitVec 3) (w : Bool) (d : BitVec 6) (a : Src)
  /-- VNEG (R147): Vector negation. -/
  | vneg (t : VType) (p : BitVec 3) (w : Bool) (d : BitVec 6) (a : Src)
  /-- VAND (R148): Vector lane AND. -/
  | vand (p : BitVec 3) (w : Bool) (d : BitVec 6) (a : Src) (b : Src)
  /-- VOR (R148): Vector lane OR. -/
  | vor (p : BitVec 3) (w : Bool) (d : BitVec 6) (a : Src) (b : Src)
  /-- VXOR (R148): Vector lane XOR. -/
  | vxor (p : BitVec 3) (w : Bool) (d : BitVec 6) (a : Src) (b : Src)
  /-- VANDN (R148): Vector lane a AND NOT b. -/
  | vandn (p : BitVec 3) (w : Bool) (d : BitVec 6) (a : Src) (b : Src)
  /-- VSHL (R148): Vector shift left per element. -/
  | vshl (t : VType) (p : BitVec 3) (w : Bool) (d : BitVec 6) (a : Src) (b : Src)
  /-- VSHR (R148): Vector shift right, arithmetic or logical by type. -/
  | vshr (t : VType) (p : BitVec 3) (w : Bool) (d : BitVec 6) (a : Src) (b : Src)
  /-- VSEL (R151): Vector select of whole lanes by the slot mask. -/
  | vsel (p : BitVec 3) (w : Bool) (d : BitVec 6) (a : Src) (b : Src)
  /-- VMOV (R152): Vector move of active lanes. -/
  | vmov (p : BitVec 3) (w : Bool) (d : BitVec 6) (a : Src)
  /-- VSPLAT (R152): Broadcast a scalar into every active lane. -/
  | vsplat (p : BitVec 3) (w : Bool) (d : BitVec 6) (a : Src)
  /-- VINS (R152): Insert a scalar into one lane of d. -/
  | vins (p : BitVec 3) (w : Bool) (d : BitVec 6) (a : Src) (b : Src)
  /-- VXTR (R152): Extract one lane into a scalar register. -/
  | vxtr (w : Bool) (d : BitVec 6) (a : Src) (b : Src)
  /-- VCVT (R154): Vector conversion between element types under a selector. -/
  | vcvt (t : VType) (p : BitVec 3) (w : Bool) (d : BitVec 6) (a : Src) (s : VType) (r : Round)
  /-- VCVTX (R155): Vector conversion between a wide type and an 8-bit type. -/
  | vcvtx (x : XType) (p : BitVec 3) (w : Bool) (d : BitVec 6) (a : Src) (s : VType) (r : Round) (n : Bool)
  /-- VFXADD (R156): Vector FX64 addition with absorbing bounds. -/
  | vfxadd (p : BitVec 3) (w : Bool) (d : BitVec 6) (a : Src) (b : Src)
  /-- VFXCVT (R156): Convert FP32 even lanes to FX64 elements. -/
  | vfxcvt (p : BitVec 3) (w : Bool) (d : BitVec 6) (a : Src) (b : Src)
  /-- VFXCVTF (R156): Convert FX64 elements to FP32. -/
  | vfxcvtf (p : BitVec 3) (w : Bool) (d : BitVec 6) (a : Src) (b : Src)
  /-- VPERM (R158): In-cluster permute by lane index. -/
  | vperm (p : BitVec 3) (w : Bool) (d : BitVec 6) (a : Src) (b : Src)
  /-- VROT (R158): In-cluster rotate. -/
  | vrot (p : BitVec 3) (w : Bool) (d : BitVec 6) (a : Src) (b : Src)
  /-- VBCL (R158): In-cluster broadcast of one lane. -/
  | vbcl (p : BitVec 3) (w : Bool) (d : BitVec 6) (a : Src) (b : Src)
  /-- VREDADD (R160): In-cluster tree reduction by addition into lane 0 of each cluster. -/
  | vredadd (t : VType) (p : BitVec 3) (w : Bool) (d : BitVec 6) (a : Src)
  /-- VREDMIN (R160): In-cluster tree reduction by minimum. -/
  | vredmin (t : VType) (p : BitVec 3) (w : Bool) (d : BitVec 6) (a : Src)
  /-- VREDMAX (R160): In-cluster tree reduction by maximum. -/
  | vredmax (t : VType) (p : BitVec 3) (w : Bool) (d : BitVec 6) (a : Src)
  /-- VSCAN (R161): In-cluster inclusive prefix sums by doubling steps. -/
  | vscan (t : VType) (p : BitVec 3) (w : Bool) (d : BitVec 6) (a : Src)
  /-- VXCOPY (R159): Cross-cluster copy from a named cluster. -/
  | vxcopy (p : BitVec 3) (w : Bool) (d : BitVec 6) (a : Src) (b : Src)
  /-- VXROT (R159): Cross-cluster rotation. -/
  | vxrot (p : BitVec 3) (w : Bool) (d : BitVec 6) (a : Src) (b : Src)
  /-- VMAND (R150): Mask AND. -/
  | vmand (p : BitVec 3) (w : Bool) (d : BitVec 6) (a : Src) (b : Src)
  /-- VMOR (R150): Mask OR. -/
  | vmor (p : BitVec 3) (w : Bool) (d : BitVec 6) (a : Src) (b : Src)
  /-- VMXOR (R150): Mask XOR. -/
  | vmxor (p : BitVec 3) (w : Bool) (d : BitVec 6) (a : Src) (b : Src)
  /-- VMANDN (R150): Mask x AND NOT y. -/
  | vmandn (p : BitVec 3) (w : Bool) (d : BitVec 6) (a : Src) (b : Src)
  /-- VMNOT (R150): Mask complement. -/
  | vmnot (p : BitVec 3) (w : Bool) (d : BitVec 6) (a : Src)
  /-- VMPOP (R150): Count set bits of a mask into a scalar. -/
  | vmpop (w : Bool) (d : BitVec 6) (a : Src)
  /-- EXP2 (R190): Special function 2^x, FP32 or BF16. -/
  | exp2 (t : FTy) (p : BitVec 3) (w : Bool) (d : BitVec 6) (a : Src)
  /-- LOG2 (R190): Special function log2 x. -/
  | log2 (t : FTy) (p : BitVec 3) (w : Bool) (d : BitVec 6) (a : Src)
  /-- EXP (R190): Special function e^x. -/
  | exp (t : FTy) (p : BitVec 3) (w : Bool) (d : BitVec 6) (a : Src)
  /-- LOG (R190): Special function ln x. -/
  | log (t : FTy) (p : BitVec 3) (w : Bool) (d : BitVec 6) (a : Src)
  /-- RCP (R190): Special function 1/x. -/
  | rcp (t : FTy) (p : BitVec 3) (w : Bool) (d : BitVec 6) (a : Src)
  /-- RSQRT (R190): Special function 1/sqrt x. -/
  | rsqrt (t : FTy) (p : BitVec 3) (w : Bool) (d : BitVec 6) (a : Src)
  /-- SQRT (R190): Square root, rounded under ARITH.RM. -/
  | sqrt (t : FTy) (p : BitVec 3) (w : Bool) (d : BitVec 6) (a : Src)
  /-- TANH (R190): Special function tanh. -/
  | tanh (t : FTy) (p : BitVec 3) (w : Bool) (d : BitVec 6) (a : Src)
  /-- SIGMOID (R190): Special function sigmoid. -/
  | sigmoid (t : FTy) (p : BitVec 3) (w : Bool) (d : BitVec 6) (a : Src)
  /-- ERF (R190): Special function erf. -/
  | erf (t : FTy) (p : BitVec 3) (w : Bool) (d : BitVec 6) (a : Src)
  /-- SIN (R190): Special function sine. -/
  | sin (t : FTy) (p : BitVec 3) (w : Bool) (d : BitVec 6) (a : Src)
  /-- COS (R190): Special function cosine. -/
  | cos (t : FTy) (p : BitVec 3) (w : Bool) (d : BitVec 6) (a : Src)
  /-- DIV (R191): FP32 division rounded under ARITH.RM. -/
  | div (p : BitVec 3) (w : Bool) (d : BitVec 6) (a : Src) (b : Src)
  /-- MXPUSH (R176): Pop a B-tile ring entry and load it into a stationary plane. -/
  | mxpush (p : BitVec 3) (g : Gang) (d : BitVec 5) (a : Src)
  /-- MXSHIFT (R177): Pop one K-row and shift it into a plane. -/
  | mxshift (p : BitVec 3) (d : BitVec 5) (a : Src)
  /-- MXACC (R180): One matrix beat: pop an A row and accumulate its exact sums into a tile row. -/
  | mxacc (p : BitVec 3) (g : Gang) (d : BitVec 5) (a : Src) (b : Src)
  /-- MXACCX (R180): One matrix beat accumulating into an FX64 tile pair. -/
  | mxaccx (p : BitVec 3) (g : Gang) (d : BitVec 5) (a : Src) (b : Src)
  /-- MXDRAIN (R181): Push one or two tile rows as a vector queue entry, optionally clearing them. -/
  | mxdrain (p : BitVec 3) (d : BitVec 5) (a : Src) (b : Src)
  /-- MXZERO (R179): Set every element of a tile to zero. -/
  | mxzero (p : BitVec 3) (d : BitVec 5)
  /-- MXSWAP (R178): Make the other stationary plane active. -/
  | mxswap (p : BitVec 3)
  /-- LDQ (R240): Reserve a queue entry and load a scalar from device memory into it. -/
  | ldq (t : LdTy) (p : BitVec 3) (d : BitVec 6) (a : Src) (b : Src)
  /-- LDQV (R240): Load 512 bytes into a vector queue entry. -/
  | ldqv (p : BitVec 3) (d : BitVec 6) (a : Src) (b : Src)
  /-- GATHER (R240): Load one element per lane at base plus lane offset into a vector queue entry. -/
  | gather (t : GaTy) (p : BitVec 3) (d : BitVec 6) (a : Src) (b : Src)
  /-- LDS (R242): Load 512 bytes of raw scratchpad or stash into a vector register. -/
  | lds (p : BitVec 3) (d : BitVec 6) (a : Src) (b : Src)
  /-- LDSS (R242): Load 8 bytes of scratchpad into a scalar register. -/
  | ldss (p : BitVec 3) (d : BitVec 6) (a : Src) (b : Src)
  /-- STS (R242): Store a vector to raw scratchpad or withhold it to a stash row. -/
  | sts (p : BitVec 3) (d : BitVec 6) (a : Src) (b : Src)
  /-- STSS (R242): Store 8 bytes to scratchpad. -/
  | stss (p : BitVec 3) (d : BitVec 6) (a : Src) (b : Src)
  /-- ST (R243): Withhold a 1, 2, 4 or 8-byte store to device memory. -/
  | st (t : StTy) (p : BitVec 3) (d : BitVec 6) (a : Src) (b : Src)
  /-- STV (R243): Withhold a 512-byte vector store. -/
  | stv (p : BitVec 3) (d : BitVec 6) (a : Src) (b : Src)
  /-- SCATTER (R243): Withhold one store per lane at base plus lane offset. -/
  | scatter (p : BitVec 3) (d : BitVec 6) (a : Src) (b : Src)
  /-- PREF (R244): Ask the home slice to bring a line in from HBM. -/
  | pref (p : BitVec 3) (a : Src) (b : Src)
  /-- PREFS (R244): Start fills of every Invalid line of a stash row. -/
  | prefs (p : BitVec 3) (a : Src) (b : Src)
  /-- SMAP (R245): Write back and bind a stash row to a virtual address. -/
  | smap (p : BitVec 3) (a : Src) (b : Src)
  /-- SUNMAP (R245): Write back and unbind a stash row. -/
  | sunmap (p : BitVec 3) (a : Src)
  /-- SWB (R245): Write back Engine-dirty lines of a stash row. -/
  | swb (p : BitVec 3) (a : Src)
  /-- SINV (R245): Write back and invalidate every line of a stash row. -/
  | sinv (p : BitVec 3) (a : Src)
  /-- PUT (R255): Perform one transfer record read from the raw region as a weak write. -/
  | put (p : BitVec 3) (a : Src) (b : Src)
  /-- GET (R255): Reserve a queue entry and read remote memory by a transfer record. -/
  | get (p : BitVec 3) (w : Bool) (d : BitVec 6) (a : Src) (b : Src)
  /-- AADD (R256): Atomic 64-bit add, returning the old value. -/
  | aadd (p : BitVec 3) (w : Bool) (d : BitVec 6) (a : Src) (b : Src)
  /-- AFXADD (R256): Atomic FX64 add with absorbing bounds. -/
  | afxadd (p : BitVec 3) (w : Bool) (d : BitVec 6) (a : Src) (b : Src)
  /-- AFADD (R256): Atomic FP32 add rounded to nearest even. -/
  | afadd (p : BitVec 3) (w : Bool) (d : BitVec 6) (a : Src) (b : Src)
  /-- AMIN (R256): Atomic signed minimum. -/
  | amin (p : BitVec 3) (w : Bool) (d : BitVec 6) (a : Src) (b : Src)
  /-- AMAX (R256): Atomic signed maximum. -/
  | amax (p : BitVec 3) (w : Bool) (d : BitVec 6) (a : Src) (b : Src)
  /-- AMINN (R256): Atomic unsigned minimum. -/
  | aminn (p : BitVec 3) (w : Bool) (d : BitVec 6) (a : Src) (b : Src)
  /-- AMAXN (R256): Atomic unsigned maximum. -/
  | amaxn (p : BitVec 3) (w : Bool) (d : BitVec 6) (a : Src) (b : Src)
  /-- AINCB (R256): Atomic increment bounded by b. -/
  | aincb (p : BitVec 3) (w : Bool) (d : BitVec 6) (a : Src) (b : Src)
  /-- ACAS (R256): Atomic compare-and-swap with an even register pair. -/
  | acas (p : BitVec 3) (w : Bool) (d : BitVec 6) (a : Src) (b : BitVec 5)
  /-- ASWAP (R256): Atomic swap. -/
  | aswap (p : BitVec 3) (w : Bool) (d : BitVec 6) (a : Src) (b : Src)
  /-- AAND (R256): Atomic AND. -/
  | aand (p : BitVec 3) (w : Bool) (d : BitVec 6) (a : Src) (b : Src)
  /-- AOR (R256): Atomic OR. -/
  | aor (p : BitVec 3) (w : Bool) (d : BitVec 6) (a : Src) (b : Src)
  /-- AXOR (R256): Atomic XOR. -/
  | axor (p : BitVec 3) (w : Bool) (d : BitVec 6) (a : Src) (b : Src)
  /-- POST (R259): Reset a finished barrier if needed, add the expected count and test completion. -/
  | post (p : BitVec 3) (s : Bool) (a : Src) (b : Src)
  /-- BR (R127): Branch by displacement when the predicate holds. -/
  | br (p : BitVec 3) (d : BitVec 21)
  /-- CALL (R128): Write the return bundle into s63 and branch. -/
  | call (p : BitVec 3) (d : BitVec 21)
  /-- RET (R129): Transfer control to bundle s63. -/
  | ret (p : BitVec 3)
  /-- JR (R129): Transfer control to a computed bundle. -/
  | jr (p : BitVec 3) (a : Src)
  /-- LOOP (R131): Push a loop-stack entry or skip the body when the count is not positive. -/
  | loop (p : BitVec 3) (c : Src) (l : BitVec 14)
  /-- LEAVE (R134): Pop k loop entries and exit past the last one's end. -/
  | leave (p : BitVec 3) (a : Src)
  /-- QWAIT (R241): Stall until a queue has n ready entries at its head. -/
  | qwait (p : BitVec 3) (q : BitVec 3) (a : Src)
  /-- CPYWAIT (R254): Stall until a channel's DONE passes an id, or it errors or parks. -/
  | cpywait (p : BitVec 3) (q : BitVec 3) (a : Src)
  /-- CWAIT (R262): Stall until OUTLD or OUTST is at most n. -/
  | cwait (p : BitVec 3) (c : Bool) (a : Src)
  /-- FENCE (R261): Hold later bundles until every weak operation of the named colours is performed. -/
  | fence (p : BitVec 3) (m : BitVec 8)
  /-- FENCE_COMPLETE (R228): A fence completes once its colours' operations are performed and raises pts. -/
  | fenceComplete
  /-- BWAIT (R260): Stall until a barrier is complete or overrun, then raise pts. -/
  | bwait (p : BitVec 3) (s : Bool) (a : Src)
  /-- SPAWN_LAUNCH (R296): Create a launch account and its units from a descriptor, splitting the caller's token. -/
  | spawnLaunch (p : BitVec 3) (w : Bool) (d : BitVec 6) (a : Src) (b : Src)
  /-- SPAWN_UNIT (R296): Create one unit in the caller's home account holding half the caller's token. -/
  | spawnUnit (p : BitVec 3) (w : Bool) (d : BitVec 6) (a : Src) (b : Src)
  /-- SEND (R299): Send a 64-byte message carrying a split token on trail class 0. -/
  | send (p : BitVec 3) (a : Src) (b : Src)
  /-- TRIG (R301): Register an arrival trigger holding a split token. -/
  | trig (p : BitVec 3) (a : Src) (b : Src)
  /-- UNTRIG (R302): Remove a trigger and return its token. -/
  | untrig (p : BitVec 3) (a : Src)
  /-- QUIET (R303): Stall until an account's outstanding weight equals what the unit holds, then write the status. -/
  | quiet (p : BitVec 3) (w : Bool) (d : BitVec 6) (a : Src)
  /-- BAR (R308): Contribute a value to the next episode of a pod-barrier tree. -/
  | bar (p : BitVec 3) (w : Bool) (d : BitVec 6) (a : Src) (b : Src)
  /-- PHASE_OPENG (R306): Open a graph account under a phase or job. -/
  | phaseOpeng (p : BitVec 3) (w : Bool) (d : BitVec 6) (a : Src) (b : Src)
  /-- PHASE_OPENP (R306): Open a phase account under a job. -/
  | phaseOpenp (p : BitVec 3) (w : Bool) (d : BitVec 6) (a : Src) (b : Src)
  /-- PHASE_ADDL (R306): Add a launch with up to eight predecessors to a graph. -/
  | phaseAddl (p : BitVec 3) (w : Bool) (d : BitVec 6) (a : Src) (b : Src)
  /-- PHASE_CLOSE (R306): Close a graph or phase by returning its owner token. -/
  | phaseClose (p : BitVec 3) (w : Bool) (d : BitVec 6) (a : Src) (b : Src)
  /-- PHASE_RELEASE (R306): Free a DONE account and its released descendants. -/
  | phaseRelease (p : BitVec 3) (w : Bool) (d : BitVec 6) (a : Src) (b : Src)
  /-- CANCEL (R307): Cancel an account and every descendant. -/
  | cancel (p : BitVec 3) (a : Src)
  /-- YIELD (R309): Set a yield request taken at the next Q bundle. -/
  | yield (p : BitVec 3)
  /-- EXIT (R310): End the unit, releasing stores, closing circuits, stopping channels and returning tokens. -/
  | exit (p : BitVec 3)
  /-- ACCQ (R305): Read one word of an account record. -/
  | accq (p : BitVec 3) (w : Bool) (d : BitVec 6) (a : Src) (b : Src)
  /-- GLOPEN (R333): Start opening a program circuit from an open block, splitting a token. -/
  | glopen (p : BitVec 3) (w : Bool) (d : BitVec 6) (a : Src) (b : Src)
  /-- GLHOLD (R336): Set a circuit's lease. -/
  | glhold (p : BitVec 3) (a : Src) (b : Src)
  /-- GLSEND (R334): Append raw-region words to a circuit's stream. -/
  | glsend (p : BitVec 3) (a : Src) (b : Src)
  /-- GLSTAT (R337): Read a handle's resume point, state, cause and final bit. -/
  | glstat (p : BitVec 3) (w : Bool) (d : BitVec 6) (a : Src)
  /-- GLCLOSE (R338): Close a circuit once pending words are acknowledged. -/
  | glclose (p : BitVec 3) (a : Src)
  /-- ENGWR (R163): Write two scalars into an engine register. -/
  | engwr (p : BitVec 3) (e : BitVec 8) (a : BitVec 6) (b : BitVec 6)
  /-- CH_ERRCLR (R253): A write of ERRCLR to CHnCTL clears ERROR and resumes the faulted record. -/
  | chErrclr (p : BitVec 3) (n : BitVec 3) (a : BitVec 6) (b : BitVec 6)
  /-- CH_RESUME (R250): A write of RESUME to CHnCTL makes a parked channel reread the record at HEAD. -/
  | chResume (p : BitVec 3) (n : BitVec 3) (a : BitVec 6) (b : BitVec 6)
  /-- ENGRD (R164): Read an engine register into two scalars. -/
  | engrd (p : BitVec 3) (e : BitVec 8) (a : BitVec 6) (b : BitVec 6)
  /-- CPYGO (R251): Start a copy chain on a channel or place it in the shadow set. -/
  | cpygo (p : BitVec 3) (n : BitVec 3) (a : BitVec 6) (b : BitVec 6)
  /-- SIXGO (R184): Place a sparse-index operation in the shadow set. -/
  | sixgo (p : BitVec 3) (a : BitVec 6) (b : BitVec 6)
  /-- SYSRD (R397): Read a system register. -/
  | sysrd (p : BitVec 3) (w : Bool) (d : BitVec 6) (n : BitVec 7)
  /-- SYSWR (R398): Write a system register that has no row of its own. -/
  | syswr (p : BitVec 3) (n : BitVec 7) (b : Src)
  /-- SYSWR_CKBOUND (R394): Write the clamped checkpoint spacing, effective at each core's next checkpoint. -/
  | syswrCkbound (p : BitVec 3) (b : Src)
  /-- SYSWR_QBOUND (R394): Write the clamped quiet-point spacing. -/
  | syswrQbound (p : BitVec 3) (b : Src)
  /-- SYSWR_ARITH (R85): Write ARITH, clearing flags where ones are written. -/
  | syswrArith (p : BitVec 3) (b : Src)
  /-- SYSWR_SRSEED (R91): Seed all 128 lane generators from one value. -/
  | syswrSrseed (p : BitVec 3) (b : Src)
  /-- SYSWR_MODE (R396): Change the device mode, taking effect at checkpoints and interval boundaries. -/
  | syswrMode (p : BitVec 3) (b : Src)
  /-- TRAP (R399): Confirm a checkpoint and take USER_TRAP. -/
  | trap (p : BitVec 3) (a : Src)
  /-- TRET_RETRY (R400): Return the trapped unit to its queue to resume from its saved context. -/
  | tretRetry (p : BitVec 3) (a : Src)
  /-- TRET_SKIPK (R400): Resume the trapped unit with its TRAP bundle's K slot as a NOP. -/
  | tretSkipk (p : BitVec 3) (a : Src)
  /-- TRET_END (R400): End the trapped unit and return its tokens. -/
  | tretEnd (p : BitVec 3) (a : Src)
  /-- XLINV (R401): Invalidate translation leaves and wait for every holder to acknowledge. -/
  | xlinv (p : BitVec 3) (a : Src) (b : Src)
  /-- OPREQ (R403): Request an operating point for a logic or SRAM domain. -/
  | opreq (p : BitVec 3) (a : Src) (b : Src)
  /-- EVAC (R404): Announce, fit, compact and evacuate an SRAM domain toward a lower point. -/
  | evac (p : BitVec 3) (w : Bool) (d : BitVec 6) (a : Src) (b : Src)
  /-- PARTQ (R402): Push one word of a partition descriptor. -/
  | partq (p : BitVec 3) (w : Bool) (d : BitVec 6) (a : Src) (b : Src)
  /-- RVSET (R405): Set a domain's operating point, refused while data sits above the target floor. -/
  | rvset (p : BitVec 3) (w : Bool) (d : BitVec 6) (a : Src) (b : Src)
  /-- RFLOOR (R406): Read row or way floors and mappings. -/
  | rfloor (p : BitVec 3) (w : Bool) (d : BitVec 6) (a : Src) (b : Src)
  /-- RHEAT (R407): Set or read a ring heater. -/
  | rheat (p : BitVec 3) (w : Bool) (d : BitVec 6) (a : Src) (b : Src)
  /-- RWAVE_READ (R407): Read a wavelength's state. -/
  | rwaveRead (p : BitVec 3) (w : Bool) (d : BitVec 6) (a : Src) (b : Src)
  /-- RWAVE_PARK (R444): Park a wavelength, restriping without loss. -/
  | rwavePark (p : BitVec 3) (w : Bool) (d : BitVec 6) (a : Src) (b : Src)
  /-- RWAVE_WAKE (R444): Wake a wavelength, restriping without loss. -/
  | rwaveWake (p : BitVec 3) (w : Bool) (d : BitVec 6) (a : Src) (b : Src)
  /-- RWAVE_MOVE (R443): Move a wavelength to a spare ring. -/
  | rwaveMove (p : BitVec 3) (w : Bool) (d : BitVec 6) (a : Src) (b : Src)
  /-- REVPOST (R407): Queue an event record to the host, stalling while the host queue is full. -/
  | revpost (p : BitVec 3) (a : Src)
  /-- RHFRAME_SEND (R407): Send one host command frame. -/
  | rhframeSend (p : BitVec 3) (w : Bool) (d : BitVec 6) (a : Src) (b : Src)
  /-- RHFRAME_RECV (R407): Receive one host command frame. -/
  | rhframeRecv (p : BitVec 3) (w : Bool) (d : BitVec 6) (a : Src) (b : Src)
  /-- RSIGCHK (R407): Verify an Ed25519 signature over a message. -/
  | rsigchk (p : BitVec 3) (w : Bool) (d : BitVec 6) (a : Src)
  /-- RACCT_CREATE (R407): Create a job account with an energy allowance. -/
  | racctCreate (p : BitVec 3) (w : Bool) (d : BitVec 6) (a : Src) (b : Src)
  /-- RACCT_ADD (R407): Add a saturating amount to a job's ALLOW. -/
  | racctAdd (p : BitVec 3) (w : Bool) (d : BitVec 6) (a : Src) (b : Src)
  /-- RACCT_RELEASE (R407): Release a job, returning its owner token. -/
  | racctRelease (p : BitVec 3) (w : Bool) (d : BitVec 6) (a : Src) (b : Src)
  /-- RACCT_CANCEL (R407): Cancel a job account. -/
  | racctCancel (p : BitVec 3) (w : Bool) (d : BitVec 6) (a : Src) (b : Src)
  /-- CHECKPOINT_CONFIRM (R411): Before a C bundle issues, checks settle, withheld stores commit and the shadow set is taken. -/
  | checkpointConfirm
  /-- ANCHOR_TOKEN_GRANT (R224): The hub grants the anchor token to the next requester, which replays holding its loads. -/
  | anchorTokenGrant
  /-- ANCHOR_HOLD_EXPIRY (R224): After 16,384 cycles the anchored holds drop and the token returns. -/
  | anchorHoldExpiry
  /-- ROLLBACK (R415): Issue stops, later results are discarded, state returns to the checkpoint and the trap is handled. -/
  | rollback
  /-- PREEMPTION (R421): Before a Q bundle the unit's context is saved and it becomes SUSPENDED. -/
  | preemption
  /-- RESUME (R423): A suspended unit resumes with a checkpoint and its late writes as the carry list. -/
  | resumeUnit
  /-- QBOUND_STALL_LIMIT (R419): A stall without Q exceeding QBOUND x 64 cycles under pending pre-emption or cancel traps or ends the unit. -/
  | qboundStallLimit
  /-- UNIT_PLACE (R286): The dispatcher creates a unit into a core queue when one has room. -/
  | unitPlace
  /-- UNIT_ADMIT (R290): The selected queued unit passes capacity and energy tests and moves to STANDBY. -/
  | unitAdmit
  /-- UNIT_START (R284): The standby unit issues its entry bundle or resume point within 40 cycles. -/
  | unitStart
  /-- UNIT_AGE (R288): Every 2^AGE issued bundles a queued unit's effective priority rises. -/
  | unitAge
  /-- UNIT_CANCEL_STOP (R282): A running unit of a cancelling account stops before its next Q bundle and its tokens return. -/
  | unitCancelStop
  /-- BORROW_REQUEST (R272): The home account grants 2^63 of new weight or refuses the borrow. -/
  | borrowRequest
  /-- BORROW_REPLY (R272): The borrower receives a token and splits, or ends or traps on refusal. -/
  | borrowReply
  /-- COMBINER_ADD (R274): A return adds into a combiner entry, flushing the oldest when full. -/
  | combinerAdd
  /-- COMBINER_FLUSH_PERIOD (R274): Every 256 cycles combiner entries flush as returns. -/
  | combinerFlushPeriod
  /-- FLUSH_REQUEST (R278): A flush request arriving at a combiner flushes its account's entry within 64 cycles. -/
  | flushRequest
  /-- RETURN_ARRIVE (R275): A return reaches its account and decrements OUT. -/
  | returnArrive
  /-- MESSAGE_ARRIVE (R300): A message reaching a core is consumed, delivered, buffered or refused. -/
  | messageArrive
  /-- MESSAGE_TIMEOUT (R300): A message that waited 2^20 cycles is refused with its token returned. -/
  | messageTimeout
  /-- CHANNEL_TAKE_RECORD (R252): A channel reads the record at HEAD, takes it with an id and starts it, or parks. -/
  | channelTakeRecord
  /-- CHANNEL_SHADOW_START (R251): A shadow chain starts when the current chain ends and ERROR is clear. -/
  | channelShadowStart
  /-- RING_RESERVE (R198): A producer reserves its transfer at the ring tail once free space allows. -/
  | ringReserve
  /-- CHUNK_PERFORM (R249): A 256-byte chunk is written or reduced at its home as a weak write. -/
  | chunkPerform
  /-- RECORD_COMPLETE (R252): A record whose chunks are all performed writes TID and OWN and advances DONE. -/
  | recordComplete
  /-- CHANNEL_FAULT (R253): A translation or attribute fault stops the channel with ERROR and a weak trap record. -/
  | channelFault
  /-- PUT_GET_REMOTE_FAULT (R255): A remote fault finishes a PUT or GET with its unperformed chunks dropped. -/
  | putGetRemoteFault
  /-- GET_COMPLETE (R255): A GET's entry becomes ready with its byte count once every chunk is performed or refused. -/
  | getComplete
  /-- SIX_OP_START (R184): A sparse-index operation starts when no operation runs. -/
  | sixOpStart
  /-- SIX_PUSH (R186): The engine pushes an entry of offsets at its rate when the queue has room. -/
  | sixPush
  /-- SIX_FAULT (R188): A metadata fault ends the operation with a weak trap record. -/
  | sixFault
  /-- QUEUE_LOAD_FILL (R203): Load data arrives into a reserved queue entry, which becomes ready in order. -/
  | queueLoadFill
  /-- STASH_FILL (R201): A stash line arrives with a read lease and becomes Valid. -/
  | stashFill
  /-- STASH_WRITEBACK (R202): Engine-dirty stash bytes are written back to home under their colour. -/
  | stashWriteback
  /-- BARRIER_ARRIVAL (R232): Counted bytes subtract from a barrier, which completes or overruns. -/
  | barrierArrival
  /-- PTS_TICK (R220): Every 64 cycles a sequencer's logical time rises by one. -/
  | ptsTick
  /-- REGION_FT_TIMEOUT (R212): After 65,536 hub cycles an FT region returns to DP or RS. -/
  | regionFtTimeout
  /-- ART_UPDATE_EFFECT (R209): A changed address-range entry takes effect after slices drop the affected lines. -/
  | artUpdateEffect
  /-- TRANSLATION_WALK (R359): A stack walker completes a walk and installs the leaf, or faults. -/
  | translationWalk
  /-- XLINV_ACK (R364): A holder acknowledges an invalidation once its conditions hold. -/
  | xlinvAck
  /-- TRAIL_PACKET_DELIVER (R316): A trail packet is delivered at its destination. -/
  | trailPacketDeliver
  /-- FLOW_WINDOW_BOUNDARY (R325): Every 4,096 cycles flow counts reset and thresholds are judged. -/
  | flowWindowBoundary
  /-- FLOW_PROMOTE_PROBE (R327): A probe reserves a slot path hop by hop with backtracking, succeeding or abandoning. -/
  | flowPromoteProbe
  /-- GLOPEN_COMPLETE (R333): A circuit open ends OPEN or REFUSED and its entry becomes ready. -/
  | glopenComplete
  /-- GUYLINE_SLOT_SEND (R320): A ready flit is placed in its circuit slot as the wheel turns. -/
  | guylineSlotSend
  /-- GUYLINE_FLIT_LAND (R335): The receiver lands a flit's words as weak writes and acknowledges in order. -/
  | guylineFlitLand
  /-- GUYLINE_ACK_ARRIVE (R335): An acknowledgement reaches the source and advances RESUME. -/
  | guylineAckArrive
  /-- GUYLINE_LEASE_EXPIRE (R336): LEASE reaching zero ends the circuit EXPIRED. -/
  | guylineLeaseExpire
  /-- GUYLINE_FINAL_COUNT (R339): The final count arrives; the handle ends and the token returns. -/
  | guylineFinalCount
  /-- GUYLINE_FINAL_TIMEOUT (R339): With no final count in 2^20 cycles the handle ends with FINAL 0. -/
  | guylineFinalTimeout
  /-- POD_BARRIER_COMBINE (R343): A lightport die combines contributions and child values and sends toward the root. -/
  | podBarrierCombine
  /-- POD_BARRIER_RESULT (R343): The episode's result arrives at a member and its BAR entry becomes ready. -/
  | podBarrierResult
  /-- BAR_TIMEOUT (R343): An episode not complete within TMO completes BROKEN at the root. -/
  | barTimeout
  /-- LINK_TRAINING (R314): Link ends exchange identities, package numbers and versions and come up or stay down. -/
  | linkTraining
  /-- FLIT_RECEIVE (R434): A flit is accepted in sequence or discarded with a replay request. -/
  | flitReceive
  /-- REPLAY_REQUEST (R434): A replay request makes the transmitter resend held flits from the named SEQ. -/
  | replayRequest
  /-- LINK_RETRAIN (R436): Sixteen replays or 2^16 cycles without a good flit start a retrain, ending crossing circuits. -/
  | linkRetrain
  /-- RETRAIN_END (R436): A retrain succeeds and replays, or fails; a third failure loses the link. -/
  | retrainEnd
  /-- LIGHT_LOSS (R437): Loss of light on a laser quad is detected and restriping starts. -/
  | lightLoss
  /-- RESTRIPE_COMPLETE (R438): Both ends agree the new live mask and replay from the expected SEQ. -/
  | restripeComplete
  /-- RECONCILE (R440): The peer's last accepted SEQ arrives and held flits are resent or discarded. -/
  | reconcile
  /-- RECONCILE_TIMEOUT (R440): Without reconciliation in 2^20 cycles held flits are given up and weight returns tainted. -/
  | reconcileTimeout
  /-- LASER_WAKE_REQUEST (R444): A port with over 64 waiting flits raises a wake request to firmware. -/
  | laserWakeRequest
  /-- SCRUB (R445): The ranger core scrubs every HBM and slice line within 24 hours. -/
  | scrub
  /-- CONTROL_INTERVAL (R383): Every 10 µs energy is charged and power, thermal and boost limits are applied. -/
  | controlInterval
  /-- CURRENT_LIMIT_ENGAGE (R384): Regulator current above ILIM splits bundles into sub-bundles. -/
  | currentLimitEngage
  /-- CURRENT_LIMIT_LEVEL2 (R384): Current still above ILIM 2 µs later moves to level 2. -/
  | currentLimitLevel2
  /-- THERMAL_CRIT (R386): A junction at 105 °C drops the quadrant to OP0 at once. -/
  | thermalCrit
  /-- LOGIC_STEP (R370): A logic domain changes voltage and relocks its clock, freezing issue. -/
  | logicStep
  /-- SRAM_UPSTEP (R375): After the voltage rises CAPROWS grows and queued units and launches are retested. -/
  | sramUpstep
  /-- STEPWAIT_EXPIRE (R376): After STEPWAIT the running unit is pre-empted to fit the step. -/
  | stepwaitExpire
  /-- EVAC_ROW_MOVE (R377): The evacuation engine moves one row and updates the remap table. -/
  | evacRowMove
  /-- STEP_SETTLE (R376): The SRAM voltage settles at the target and CAPROWS reads C'. -/
  | stepSettle
  /-- DRAIN_COMPLETE (R350): A draining resource is zeroed, reset and granted to its new owner. -/
  | drainComplete
  /-- EVENT_RECORD_ARRIVE (R478): An event record is placed in the hub event buffer. -/
  | eventRecordArrive
  /-- BOOT (R454): After power-on or reset the blob, floors, HBM and firmware are verified and partition 0 comes up. -/
  | boot
  /-- HELLO (R450): Open a session and negotiate version and features. -/
  | hostHello
  /-- GOODBYE (R450): End the session. -/
  | hostGoodbye
  /-- SESSION_TIMEOUT (R450): A session ends after 1 s without a host frame. -/
  | sessionTimeout
  /-- LOAD (R456): Read an image by RoCEv2, check it in order and install it or refuse it. -/
  | hostLoad
  /-- START (R458): Check the start vector and create one pinned launch under a job. -/
  | hostStart
  /-- LAUNCH (R453): Spawn a launch from a physical descriptor under a job. -/
  | hostLaunch
  /-- JOB_CREATE (R407): Host command creating a job account. -/
  | hostJobCreate
  /-- JOB_ADD (R407): Host command adding to a job's allowance. -/
  | hostJobAdd
  /-- JOB_RELEASE (R407): Host command releasing a job. -/
  | hostJobRelease
  /-- JOB_CANCEL (R407): Host command cancelling a job. -/
  | hostJobCancel
  /-- ACCTRD (R453): Return an account record to the host. -/
  | hostAcctrd
  /-- PART (R348): Write a partition descriptor or refuse it. -/
  | hostPart
  /-- PODMAP (R314): Set the pod map and retrain the links. -/
  | hostPodmap
  /-- CAP (R389): Set the module power cap and return requested and effective caps. -/
  | hostCap
  /-- HOST_MODE (R453): Host command writing MODE in every partition. -/
  | hostMode
  /-- EVENTS (R453): Return up to 64 queued event records. -/
  | hostEvents
  /-- COUNTERS (R453): Return one counted-event counter. -/
  | hostCounters
  /-- ATTEST (R455): Return a signed attestation report over a nonce. -/
  | hostAttest
  /-- SAFECKPT (R447): Stop admission, pre-empt and spill units, drain and stream device memory to targets. -/
  | hostSafeckpt
  /-- CKPT_BLOCK_ACK (R447): A target acknowledges a 2 MiB block, or it is resent over another port. -/
  | ckptBlockAck
  /-- CKPTSTAT (R453): Return safe-tier checkpoint progress. -/
  | hostCkptstat
  /-- RESET (R453): End every unit and reboot. -/
  | hostReset
  /-- ROCEV2_BULK_DATA (R448): A RoCEv2 reliable-connected transfer moves bulk data between host memory and device memory over the host port. -/
  | rocev2BulkData
  /-- FREED_ROWS_ZEROED (R285): The quadrant's evacuation engine finishes zeroing rows freed by an ended, spilled or moved unit, and only then do they count as free for admission. -/
  | freedRowsZeroed
deriving DecidableEq, Repr

end Sys2Proof
end

