-- ==== Sys2Proof/Config.lean ====
section
/-! DEFINITION. What an implementation fixes and what the spec leaves open. The opaque constants are free values: nothing
in Lean can evaluate them, and a statement holds whatever they are. The counter they are applied to is the field `free`
of State (log entry 1). -/

namespace Sys2Proof.Config

/-- Which of several agents acts next (R217, R264): DESIGN CHOICE, a free choice (log entry 2). -/
opaque choose : Nat → Nat

/-- The route hash of a lightport die (R315): not architected. -/
opaque routeHash : Nat → Nat → Nat → Nat → Nat → Nat

/-- The home lightport die of an export entry (R442): a fixed function of the key. -/
opaque exportHome : Nat → Nat → Nat

/-- What a sensor shows, or an agent outside the package supplies, at a moment (log entry 19): by moment and channel. -/
opaque sense : Nat → Nat → Nat

/-- The header flit of a trail packet (R316): the spec names its fields and not their places. -/
opaque flitHeader : Packet → BitVec 256

/-- The state code of a wavelength in RWAVE's entry (R407): live, parked, on a spare ring. The spec gives no codes. -/
opaque waveCode : Bool → Bool → Bool → BitVec 4

/-- The monitor photodiode reading of a ring (R407). -/
opaque photodiode : Nat → BitVec 16

/-- Whether the configuration blob carries a good signature of the Welith root key (R454): the key is not in the spec. -/
opaque blobSigned : List (BitVec 8) → Bool

/-- The floor of physical row `r` of core `c` that a blob gives (R371): the blob's layout is not in the spec. -/
opaque blobFloor : List (BitVec 8) → Nat → Nat → Nat

/-- The physical row that the remap table of a blob gives logical row `r` of core `c` (R373, R454): the blob's layout is not in the
spec (log entry 11). -/
opaque blobRow : List (BitVec 8) → Nat → Nat → Nat

/-- The floor of way `w` of slice `s` that a blob gives (R371, R374). -/
opaque blobWayFloor : List (BitVec 8) → Nat → Nat → Nat

/-- The idle floor IDLEW in watts that a blob gives (R389). -/
opaque blobIdleW : List (BitVec 8) → Nat

/-- The firmware key of index `i` that a blob gives (R454, R457): 32 bytes of an Ed25519 public key. -/
opaque blobKey : List (BitVec 8) → Nat → List (BitVec 8)

/-- The module identity that a blob gives (R371). -/
opaque blobIdentity : List (BitVec 8) → BitVec 64

/-- The 256-byte attestation report (R455): what it holds, the module identity, the digests of the blob, of the firmware and of each
image, ISAFL, the protocol version and the nonce, in a layout and under a signature that the spec does not give. -/
opaque attestReport : BitVec 64 → List (List (BitVec 8)) → Nat → Nat → List (BitVec 8) → List (BitVec 8)

end Sys2Proof.Config
end

