-- ==== Sys2Proof/Action.lean ====
section
/-! DEFINITION. The device actions of the opcode table with what each acts on. State holds a list of those that are due;
the constructor of Instr with the same name says what performing one does to the action at hand. -/

namespace Sys2Proof

/-- A device action with its arguments. -/
inductive Action where
  /-- FENCE_COMPLETE (R228): A fence completes once its colours' operations are performed and raises pts. -/
  | fenceComplete (c : Nat)
  /-- CHECKPOINT_CONFIRM (R411): Before a C bundle issues, checks settle, withheld stores commit and the shadow set is taken. -/
  | checkpointConfirm (c : Nat)
  /-- ANCHOR_TOKEN_GRANT (R224): The hub grants the anchor token to the next requester, which replays holding its loads. -/
  | anchorTokenGrant (c : Nat)
  /-- ANCHOR_HOLD_EXPIRY (R224): After 16,384 cycles the anchored holds drop and the token returns. -/
  | anchorHoldExpiry (c : Nat)
  /-- ROLLBACK (R415): Issue stops, later results are discarded, state returns to the checkpoint and the trap is handled. -/
  | rollback (c : Nat) (k : Cause) (addr : Word)
  /-- PREEMPTION (R421): Before a Q bundle the unit's context is saved and it becomes SUSPENDED. -/
  | preemption (c : Nat)
  /-- RESUME (R423): A suspended unit resumes with a checkpoint and its late writes as the carry list. -/
  | resumeUnit (c : Nat)
  /-- QBOUND_STALL_LIMIT (R419): A stall without Q exceeding QBOUND x 64 cycles under pending pre-emption or cancel traps or ends the unit. -/
  | qboundStallLimit (c : Nat)
  /-- UNIT_PLACE (R286): The dispatcher creates a unit into a core queue when one has room. -/
  | unitPlace (l stack : Nat)
  /-- UNIT_ADMIT (R290): The selected queued unit passes capacity and energy tests and moves to STANDBY. -/
  | unitAdmit (c : Nat)
  /-- UNIT_START (R284): The standby unit issues its entry bundle or resume point within 40 cycles. -/
  | unitStart (c : Nat)
  /-- UNIT_AGE (R288): Every 2^AGE issued bundles a queued unit's effective priority rises. -/
  | unitAge (c : Nat)
  /-- UNIT_CANCEL_STOP (R282): A running unit of a cancelling account stops before its next Q bundle and its tokens return. -/
  | unitCancelStop (u : Nat)
  /-- BORROW_REQUEST (R272): The home account grants 2^63 of new weight or refuses the borrow. -/
  | borrowRequest (acct : Handle) (c : Nat)
  /-- BORROW_REPLY (R272): The borrower receives a token and splits, or ends or traps on refusal. -/
  | borrowReply (c : Nat) (acct : Handle) (pkg : BitVec 16) (refused : Option Cause)
  /-- COMBINER_ADD (R274): A return adds into a combiner entry, flushing the oldest when full. -/
  | combinerAdd (site : Nat) (r : Ret)
  /-- COMBINER_FLUSH_PERIOD (R274): Every 256 cycles combiner entries flush as returns. -/
  | combinerFlushPeriod (site : Nat)
  /-- FLUSH_REQUEST (R278): A flush request arriving at a combiner flushes its account's entry within 64 cycles. -/
  | flushRequest (acct : Handle)
  /-- RETURN_ARRIVE (R275): A return reaches its account and decrements OUT. -/
  | returnArrive (r : Ret)
  /-- MESSAGE_ARRIVE (R300): A message reaching a core is consumed, delivered, buffered or refused. -/
  | messageArrive (m : Message)
  /-- MESSAGE_TIMEOUT (R300): A message that waited 2^20 cycles is refused with its token returned. -/
  | messageTimeout (c : Nat)
  /-- CHANNEL_TAKE_RECORD (R252): A channel reads the record at HEAD, takes it with an id and starts it, or parks. -/
  | channelTakeRecord (u : Nat) (n : Nat)
  /-- CHANNEL_SHADOW_START (R251): A shadow chain starts when the current chain ends and ERROR is clear. -/
  | channelShadowStart (u : Nat) (n : Nat)
  /-- RING_RESERVE (R198): A producer reserves its transfer at the ring tail once free space allows. -/
  | ringReserve (x : Nat)
  /-- CHUNK_PERFORM (R249): A 256-byte chunk is written or reduced at its home as a weak write. -/
  | chunkPerform (x : Nat) (lo : Nat)
  /-- RECORD_COMPLETE (R252): A record whose chunks are all performed writes TID and OWN and advances DONE. -/
  | recordComplete (x : Nat)
  /-- CHANNEL_FAULT (R253): A translation or attribute fault stops the channel with ERROR and a weak trap record. -/
  | channelFault (x : Nat) (k : Cause) (addr : Word)
  /-- PUT_GET_REMOTE_FAULT (R255): A remote fault finishes a PUT or GET with its unperformed chunks dropped. -/
  | putGetRemoteFault (x : Nat) (k : Cause) (addr : Word)
  /-- GET_COMPLETE (R255): A GET's entry becomes ready with its byte count once every chunk is performed or refused. -/
  | getComplete (x : Nat)
  /-- SIX_OP_START (R184): A sparse-index operation starts when no operation runs. -/
  | sixOpStart (u : Nat)
  /-- SIX_PUSH (R186): The engine pushes an entry of offsets at its rate when the queue has room. -/
  | sixPush (u : Nat)
  /-- SIX_FAULT (R188): A metadata fault ends the operation with a weak trap record. -/
  | sixFault (u : Nat) (k : Cause) (addr : Word)
  /-- QUEUE_LOAD_FILL (R203): Load data arrives into a reserved queue entry, which becomes ready in order. -/
  | queueLoadFill (c : Nat)
  /-- STASH_FILL (R201): A stash line arrives with a read lease and becomes Valid. -/
  | stashFill (c : Nat) (row : Nat) (line : Nat)
  /-- STASH_WRITEBACK (R202): Engine-dirty stash bytes are written back to home under their colour. -/
  | stashWriteback (u : Nat) (row : Nat)
  /-- BARRIER_ARRIVAL (R232): Counted bytes subtract from a barrier, which completes or overruns. -/
  | barrierArrival (loc : BarLoc) (bytes : Nat) (wts : Word)
  /-- PTS_TICK (R220): Every 64 cycles a sequencer's logical time rises by one. -/
  | ptsTick
  /-- REGION_FT_TIMEOUT (R212): After 65,536 hub cycles an FT region returns to DP or RS. -/
  | regionFtTimeout (r : Nat)
  /-- ART_UPDATE_EFFECT (R209): A changed address-range entry takes effect after slices drop the affected lines. -/
  | artUpdateEffect (i : Nat) (e : BitVec 256)
  /-- TRANSLATION_WALK (R359): A stack walker completes a walk and installs the leaf, or faults. -/
  | translationWalk (c : Nat) (va : Word)
  /-- XLINV_ACK (R364): A holder acknowledges an invalidation once its conditions hold. -/
  | xlinvAck (holder : Nat)
  /-- TRAIL_PACKET_DELIVER (R316): A trail packet is delivered at its destination. -/
  | trailPacketDeliver (k : Packet)
  /-- FLOW_WINDOW_BOUNDARY (R325): Every 4,096 cycles flow counts reset and thresholds are judged. -/
  | flowWindowBoundary
  /-- FLOW_PROMOTE_PROBE (R327): A probe reserves a slot path hop by hop with backtracking, succeeding or abandoning. -/
  | flowPromoteProbe (c : Nat) (key : Nat)
  /-- GLOPEN_COMPLETE (R333): A circuit open ends OPEN or REFUSED and its entry becomes ready. -/
  | glopenComplete (u : Nat) (h : Nat)
  /-- GUYLINE_SLOT_SEND (R320): A ready flit is placed in its circuit slot as the wheel turns. -/
  | guylineSlotSend (u : Nat) (h : Nat)
  /-- GUYLINE_FLIT_LAND (R335): The receiver lands a flit's words as weak writes and acknowledges in order. -/
  | guylineFlitLand (u : Nat) (h : Nat) (pos : Nat) (data : List Byte)
  /-- GUYLINE_ACK_ARRIVE (R335): An acknowledgement reaches the source and advances RESUME. -/
  | guylineAckArrive (u : Nat) (h : Nat) (words : Nat)
  /-- GUYLINE_LEASE_EXPIRE (R336): LEASE reaching zero ends the circuit EXPIRED. -/
  | guylineLeaseExpire (u : Nat) (h : Nat)
  /-- GUYLINE_FINAL_COUNT (R339): The final count arrives; the handle ends and the token returns. -/
  | guylineFinalCount (u : Nat) (h : Nat) (words : Nat)
  /-- GUYLINE_FINAL_TIMEOUT (R339): With no final count in 2^20 cycles the handle ends with FINAL 0. -/
  | guylineFinalTimeout (u : Nat) (h : Nat)
  /-- POD_BARRIER_COMBINE (R343): A lightport die combines contributions and child values and sends toward the root. -/
  | podBarrierCombine (tree : Nat) (part : Option Nat) (v : Word) (broken : Bool)
  /-- POD_BARRIER_RESULT (R343): The episode's result arrives at a member and its BAR entry becomes ready. -/
  | podBarrierResult (tree : Nat) (v : Word) (broken : Bool)
  /-- BAR_TIMEOUT (R343): An episode not complete within TMO completes BROKEN at the root. -/
  | barTimeout (tree : Nat)
  /-- LINK_TRAINING (R314): Link ends exchange identities, package numbers and versions and come up or stay down. -/
  | linkTraining (port : Nat) (ident : Word) (num : BitVec 16) (ver : BitVec 16) (mask : BitVec 16) (flight : Nat)
  /-- FLIT_RECEIVE (R434): A flit is accepted in sequence or discarded with a replay request. -/
  | flitReceive (port : Nat) (f : Flit)
  /-- REPLAY_REQUEST (R434): A replay request makes the transmitter resend held flits from the named SEQ. -/
  | replayRequest (port : Nat) (seq : BitVec 12)
  /-- LINK_RETRAIN (R436): Sixteen replays or 2^16 cycles without a good flit start a retrain, ending crossing circuits. -/
  | linkRetrain (port : Nat)
  /-- RETRAIN_END (R436): A retrain succeeds and replays, or fails; a third failure loses the link. -/
  | retrainEnd (port : Nat) (ok : Bool) (flight : Nat) (seq : BitVec 12)
  /-- LIGHT_LOSS (R437): Loss of light on a laser quad is detected and restriping starts. -/
  | lightLoss (port : Nat) (rx : Bool) (lost : BitVec 16)
  /-- RESTRIPE_COMPLETE (R438): Both ends agree the new live mask and replay from the expected SEQ. -/
  | restripeComplete (port : Nat) (rx : Bool) (seq : BitVec 12)
  /-- RECONCILE (R440): The peer's last accepted SEQ arrives and held flits are resent or discarded. -/
  | reconcile (port : Nat) (last : BitVec 12)
  /-- RECONCILE_TIMEOUT (R440): Without reconciliation in 2^20 cycles held flits are given up and weight returns tainted. -/
  | reconcileTimeout (port : Nat)
  /-- LASER_WAKE_REQUEST (R444): A port with over 64 waiting flits raises a wake request to firmware. -/
  | laserWakeRequest (port : Nat)
  /-- SCRUB (R445): The ranger core scrubs every HBM and slice line within 24 hours. -/
  | scrub (line : Nat) (slice : Bool) (bad : Nat) (syndrome : Word)
  /-- CONTROL_INTERVAL (R383): Every 10 µs energy is charged and power, thermal and boost limits are applied. -/
  | controlInterval (rs : List Reading) (shared : Nat)
  /-- CURRENT_LIMIT_ENGAGE (R384): Regulator current above ILIM splits bundles into sub-bundles. -/
  | currentLimitEngage (q : Nat)
  /-- CURRENT_LIMIT_LEVEL2 (R384): Current still above ILIM 2 µs later moves to level 2. -/
  | currentLimitLevel2 (q : Nat)
  /-- THERMAL_CRIT (R386): A junction at 105 °C drops the quadrant to OP0 at once. -/
  | thermalCrit (q : Nat)
  /-- LOGIC_STEP (R370): A logic domain changes voltage and relocks its clock, freezing issue. -/
  | logicStep (d : Nat) (k : Nat)
  /-- SRAM_UPSTEP (R375): After the voltage rises CAPROWS grows and queued units and launches are retested. -/
  | sramUpstep (d : Nat) (k : Nat)
  /-- STEPWAIT_EXPIRE (R376): After STEPWAIT the running unit is pre-empted to fit the step. -/
  | stepwaitExpire (d : Nat)
  /-- EVAC_ROW_MOVE (R377): The evacuation engine moves one row and updates the remap table. -/
  | evacRowMove (c : Nat) (row : Nat)
  /-- STEP_SETTLE (R376): The SRAM voltage settles at the target and CAPROWS reads C'. -/
  | stepSettle (d : Nat)
  /-- DRAIN_COMPLETE (R350): A draining resource is zeroed, reset and granted to its new owner. -/
  | drainComplete (part : Nat)
  /-- EVENT_RECORD_ARRIVE (R478): An event record is placed in the hub event buffer. -/
  | eventRecordArrive (r : EventRec)
  /-- BOOT (R454): After power-on or reset the blob, floors, HBM and firmware are verified and partition 0 comes up. -/
  | boot
  /-- HELLO (R450): Open a session and negotiate version and features. -/
  | hostHello (f : Frame)
  /-- GOODBYE (R450): End the session. -/
  | hostGoodbye (f : Frame)
  /-- SESSION_TIMEOUT (R450): A session ends after 1 s without a host frame. -/
  | sessionTimeout
  /-- LOAD (R456): Read an image by RoCEv2, check it in order and install it or refuse it. -/
  | hostLoad (f : Frame)
  /-- START (R458): Check the start vector and create one pinned launch under a job. -/
  | hostStart (f : Frame)
  /-- LAUNCH (R453): Spawn a launch from a physical descriptor under a job. -/
  | hostLaunch (f : Frame)
  /-- JOB_CREATE (R407): Host command creating a job account. -/
  | hostJobCreate (f : Frame)
  /-- JOB_ADD (R407): Host command adding to a job's allowance. -/
  | hostJobAdd (f : Frame)
  /-- JOB_RELEASE (R407): Host command releasing a job. -/
  | hostJobRelease (f : Frame)
  /-- JOB_CANCEL (R407): Host command cancelling a job. -/
  | hostJobCancel (f : Frame)
  /-- ACCTRD (R453): Return an account record to the host. -/
  | hostAcctrd (f : Frame)
  /-- PART (R348): Write a partition descriptor or refuse it. -/
  | hostPart (f : Frame)
  /-- PODMAP (R314): Set the pod map and retrain the links. -/
  | hostPodmap (f : Frame)
  /-- CAP (R389): Set the module power cap and return requested and effective caps. -/
  | hostCap (f : Frame)
  /-- HOST_MODE (R453): Host command writing MODE in every partition. -/
  | hostMode (f : Frame)
  /-- EVENTS (R453): Return up to 64 queued event records. -/
  | hostEvents (f : Frame)
  /-- COUNTERS (R453): Return one counted-event counter. -/
  | hostCounters (f : Frame)
  /-- ATTEST (R455): Return a signed attestation report over a nonce. -/
  | hostAttest (f : Frame)
  /-- SAFECKPT (R447): Stop admission, pre-empt and spill units, drain and stream device memory to targets. -/
  | hostSafeckpt (f : Frame)
  /-- CKPT_BLOCK_ACK (R447): A target acknowledges a 2 MiB block, or it is resent over another port. -/
  | ckptBlockAck (block : Nat)
  /-- CKPTSTAT (R453): Return safe-tier checkpoint progress. -/
  | hostCkptstat (f : Frame)
  /-- RESET (R453): End every unit and reboot. -/
  | hostReset (f : Frame)
  /-- ROCEV2_BULK_DATA (R448): A RoCEv2 reliable-connected transfer moves bulk data between host memory and device memory over the host port. -/
  | rocev2BulkData (toDevice : Bool) (device host len : Nat)
  /-- FREED_ROWS_ZEROED (R285): The quadrant's evacuation engine finishes zeroing rows freed by an ended, spilled or moved unit, and only then do they count as free for admission. -/
  | freedRowsZeroed (c : Nat) (rows : Nat)
deriving DecidableEq, Repr

/-- The row of the opcode table that an action is an instance of. -/
def Action.instr : Action → Instr
  | .fenceComplete _ => .fenceComplete
  | .checkpointConfirm _ => .checkpointConfirm
  | .anchorTokenGrant _ => .anchorTokenGrant
  | .anchorHoldExpiry _ => .anchorHoldExpiry
  | .rollback _ _ _ => .rollback
  | .preemption _ => .preemption
  | .resumeUnit _ => .resumeUnit
  | .qboundStallLimit _ => .qboundStallLimit
  | .unitPlace _ _ => .unitPlace
  | .unitAdmit _ => .unitAdmit
  | .unitStart _ => .unitStart
  | .unitAge _ => .unitAge
  | .unitCancelStop _ => .unitCancelStop
  | .borrowRequest _ _ => .borrowRequest
  | .borrowReply _ _ _ _ => .borrowReply
  | .combinerAdd _ _ => .combinerAdd
  | .combinerFlushPeriod _ => .combinerFlushPeriod
  | .flushRequest _ => .flushRequest
  | .returnArrive _ => .returnArrive
  | .messageArrive _ => .messageArrive
  | .messageTimeout _ => .messageTimeout
  | .channelTakeRecord _ _ => .channelTakeRecord
  | .channelShadowStart _ _ => .channelShadowStart
  | .ringReserve _ => .ringReserve
  | .chunkPerform _ _ => .chunkPerform
  | .recordComplete _ => .recordComplete
  | .channelFault _ _ _ => .channelFault
  | .putGetRemoteFault _ _ _ => .putGetRemoteFault
  | .getComplete _ => .getComplete
  | .sixOpStart _ => .sixOpStart
  | .sixPush _ => .sixPush
  | .sixFault _ _ _ => .sixFault
  | .queueLoadFill _ => .queueLoadFill
  | .stashFill _ _ _ => .stashFill
  | .stashWriteback _ _ => .stashWriteback
  | .barrierArrival _ _ _ => .barrierArrival
  | .ptsTick => .ptsTick
  | .regionFtTimeout _ => .regionFtTimeout
  | .artUpdateEffect _ _ => .artUpdateEffect
  | .translationWalk _ _ => .translationWalk
  | .xlinvAck _ => .xlinvAck
  | .trailPacketDeliver _ => .trailPacketDeliver
  | .flowWindowBoundary => .flowWindowBoundary
  | .flowPromoteProbe _ _ => .flowPromoteProbe
  | .glopenComplete _ _ => .glopenComplete
  | .guylineSlotSend _ _ => .guylineSlotSend
  | .guylineFlitLand _ _ _ _ => .guylineFlitLand
  | .guylineAckArrive _ _ _ => .guylineAckArrive
  | .guylineLeaseExpire _ _ => .guylineLeaseExpire
  | .guylineFinalCount _ _ _ => .guylineFinalCount
  | .guylineFinalTimeout _ _ => .guylineFinalTimeout
  | .podBarrierCombine _ _ _ _ => .podBarrierCombine
  | .podBarrierResult _ _ _ => .podBarrierResult
  | .barTimeout _ => .barTimeout
  | .linkTraining _ _ _ _ _ _ => .linkTraining
  | .flitReceive _ _ => .flitReceive
  | .replayRequest _ _ => .replayRequest
  | .linkRetrain _ => .linkRetrain
  | .retrainEnd _ _ _ _ => .retrainEnd
  | .lightLoss _ _ _ => .lightLoss
  | .restripeComplete _ _ _ => .restripeComplete
  | .reconcile _ _ => .reconcile
  | .reconcileTimeout _ => .reconcileTimeout
  | .laserWakeRequest _ => .laserWakeRequest
  | .scrub _ _ _ _ => .scrub
  | .controlInterval _ _ => .controlInterval
  | .currentLimitEngage _ => .currentLimitEngage
  | .currentLimitLevel2 _ => .currentLimitLevel2
  | .thermalCrit _ => .thermalCrit
  | .logicStep _ _ => .logicStep
  | .sramUpstep _ _ => .sramUpstep
  | .stepwaitExpire _ => .stepwaitExpire
  | .evacRowMove _ _ => .evacRowMove
  | .stepSettle _ => .stepSettle
  | .drainComplete _ => .drainComplete
  | .eventRecordArrive _ => .eventRecordArrive
  | .boot => .boot
  | .hostHello _ => .hostHello
  | .hostGoodbye _ => .hostGoodbye
  | .sessionTimeout => .sessionTimeout
  | .hostLoad _ => .hostLoad
  | .hostStart _ => .hostStart
  | .hostLaunch _ => .hostLaunch
  | .hostJobCreate _ => .hostJobCreate
  | .hostJobAdd _ => .hostJobAdd
  | .hostJobRelease _ => .hostJobRelease
  | .hostJobCancel _ => .hostJobCancel
  | .hostAcctrd _ => .hostAcctrd
  | .hostPart _ => .hostPart
  | .hostPodmap _ => .hostPodmap
  | .hostCap _ => .hostCap
  | .hostMode _ => .hostMode
  | .hostEvents _ => .hostEvents
  | .hostCounters _ => .hostCounters
  | .hostAttest _ => .hostAttest
  | .hostSafeckpt _ => .hostSafeckpt
  | .ckptBlockAck _ => .ckptBlockAck
  | .hostCkptstat _ => .hostCkptstat
  | .hostReset _ => .hostReset
  | .rocev2BulkData _ _ _ _ => .rocev2BulkData
  | .freedRowsZeroed _ _ => .freedRowsZeroed

end Sys2Proof
end

