-- ==== Sys2Proof/Machine/Bits.lean ====
section
/-! DEFINITION. Helpers on bits, bytes, lanes and maps: fields, sign extension, little-endian bytes (R32, R74), the lanes of
a vector (R20), and maps held as sorted lists. -/

namespace Sys2Proof.Machine

/-! ### Fields -/

/-- Bits `[lo+n-1:lo]` of a number. -/
def bits (x lo n : Nat) : Nat := x / 2 ^ lo % 2 ^ n

/-- A field of a bit vector, as a number. -/
def fld {w : Nat} (x : BitVec w) (lo n : Nat) : Nat := bits x.toNat lo n

/-- Bit `i` of a bit vector. -/
def bitAt {w : Nat} (x : BitVec w) (i : Nat) : Bool := x.getLsbD i

/-- `b` as 1 or 0. -/
def b2n (b : Bool) : Nat := if b then 1 else 0

/-- `x` with its field `[lo+n-1:lo]` set to `v`. -/
def setField {w : Nat} (x : BitVec w) (lo n v : Nat) : BitVec w :=
  (x &&& ~~~(BitVec.ofNat w ((2 ^ n - 1) * 2 ^ lo))) ||| BitVec.ofNat w (v % 2 ^ n * 2 ^ lo)

/-- The value of the low `n` bits of `x` read as signed, on 64 bits. -/
def sext (n : Nat) (x : Nat) : Word :=
  if x % 2 ^ n < 2 ^ (n - 1) then BitVec.ofNat 64 (x % 2 ^ n) else BitVec.ofInt 64 ((x % 2 ^ n : Nat) - (2 ^ n : Nat) : Int)

/-! ### Bytes -/

/-- `n` bytes of a number, the lowest first. -/
def toBytes : Nat → Nat → List Byte
  | 0, _ => []
  | n + 1, x => BitVec.ofNat 8 x :: toBytes n (x / 256)

/-- The number of bytes given lowest first. -/
def ofBytes : List Byte → Nat
  | [] => 0
  | b :: bs => b.toNat + 256 * ofBytes bs

/-! ### Counting -/

/-- `[lo, lo+1, …]`, `n` numbers. -/
def upFrom (lo : Nat) : Nat → List Nat
  | 0 => []
  | n + 1 => lo :: upFrom (lo + 1) n

/-- The number whose digits in base `2^w` are given by `f` at positions `i` to `i + n - 1`, lowest first. -/
def digits (w : Nat) (f : Nat → Nat) : Nat → Nat → Nat
  | 0, _ => 0
  | n + 1, i => f i % 2 ^ w + 2 ^ w * digits w f n (i + 1)

/-! ### Lanes (R20) -/

/-- The vector whose lane `i` is `f i`. -/
def laneTab (f : Nat → BitVec 32) : Lanes := BitVec.ofNat 4096 (digits 32 (fun i => (f i).toNat) 128 0)

/-- Lane `i` of a vector. -/
def lane (x : Lanes) (i : Nat) : BitVec 32 := BitVec.ofNat 32 (x.toNat / 2 ^ (32 * i))

/-- The mask whose bit `i` is `f i`. -/
def maskTab (f : Nat → Bool) : LaneMask := BitVec.ofNat 128 (digits 1 (fun i => b2n (f i)) 128 0)

/-- The tile row whose element `j` is `f j`. -/
def rowTab (f : Nat → BitVec 32) : TileRow := BitVec.ofNat 2048 (digits 32 (fun i => (f i).toNat) 64 0)

/-- Element `j` of a tile row. -/
def rowElem (x : TileRow) (j : Nat) : BitVec 32 := BitVec.ofNat 32 (x.toNat / 2 ^ (32 * j))

/-- The lanes of `new` where the mask is 1 and of `old` where it is 0 (R46). -/
def mergeLanes (mask : LaneMask) (new old : Lanes) : Lanes :=
  let wide := laneTab (fun i => if mask.getLsbD i then 0xFFFFFFFF#32 else 0#32)
  (new &&& wide) ||| (old &&& ~~~wide)

/-- The bits of `new` where the mask is 1 and of `old` where it is 0. -/
def mergeMask (mask new old : LaneMask) : LaneMask := (new &&& mask) ||| (old &&& ~~~mask)

/-- The generator states that a write of `s` to SRSEED gives (R91). -/
def seedGens (s : BitVec 32) : Lanes :=
  laneTab fun i =>
    let g := s ^^^ BitVec.ofNat 32 (i * 0x9E3779B9)
    if g = 0#32 then 0x6D2B79F5#32 else g

/-! ### Maps with numbers as keys, held as lists whose keys strictly rise -/

variable {α : Type}

/-- The value at a key. -/
def NatMap.find (k : Nat) : NatMap α → Option α
  | [] => none
  | x :: xs => if x.1 = k then some x.2 else NatMap.find k xs

/-- The value at a key, or a default. -/
def NatMap.findD (d : α) (k : Nat) (m : NatMap α) : α := (NatMap.find k m).getD d

/-- The map without a key. -/
def NatMap.del (k : Nat) : NatMap α → NatMap α
  | [] => []
  | x :: xs => if x.1 = k then xs else if k < x.1 then x :: xs else x :: NatMap.del k xs

/-- The map with a value at a key. -/
def NatMap.put (k : Nat) (v : α) : NatMap α → NatMap α
  | [] => [(k, v)]
  | x :: xs => if x.1 = k then (k, v) :: xs else if k < x.1 then (k, v) :: x :: xs else x :: NatMap.put k v xs

/-- The map with a value at a key, where no key holds the default. -/
def NatMap.putD [DecidableEq α] (d : α) (k : Nat) (v : α) (m : NatMap α) : NatMap α :=
  if v = d then NatMap.del k m else NatMap.put k v m

/-! ### Byte memories: sparse, canonical, an unlisted byte reads 0 (log entry 6) -/

/-- The byte at an address. -/
def cellAt (m : List Host.Cell) (a : Nat) : Byte := NatMap.findD 0#8 a m

/-- The memory with one byte written. -/
def cellSet (m : List Host.Cell) (a : Nat) (b : Byte) : List Host.Cell := NatMap.putD 0#8 a b m

/-- `n` bytes from an address up. -/
def cellsAt (m : List Host.Cell) (a : Nat) : Nat → List Byte
  | 0 => []
  | n + 1 => cellAt m a :: cellsAt m (a + 1) n

/-- The memory with bytes written from an address up. -/
def cellsSet (m : List Host.Cell) (a : Nat) : List Byte → List Host.Cell
  | [] => m
  | b :: bs => cellsSet (cellSet m a b) (a + 1) bs

/-- The memory with a list of byte writes applied in order. -/
def cellsPut (m : List Host.Cell) : List Host.Cell → List Host.Cell
  | [] => m
  | c :: cs => cellsPut (cellSet m c.1 c.2) cs

/-- The entries of a memory in `[lo, lo + n)`, moved to start at `to`. -/
def cellsMove (lo n dst : Nat) : List Host.Cell → List Host.Cell
  | [] => []
  | c :: cs => if lo ≤ c.1 ∧ c.1 < lo + n then (c.1 - lo + dst, c.2) :: cellsMove lo n dst cs else cellsMove lo n dst cs

/-- The memory without its entries in `[lo, lo + n)`. -/
def cellsDrop (lo n : Nat) (m : List Host.Cell) : List Host.Cell := m.filter fun c => !(decide (lo ≤ c.1) && decide (c.1 < lo + n))

/-- A number of `n` bytes at an address, little-endian. -/
def loadNat (m : List Host.Cell) (a n : Nat) : Nat := ofBytes (cellsAt m a n)

/-- The canonical form: addresses strictly rising, no entry equal to what an unlisted address reads as. -/
def cellsWf : List Host.Cell → Bool
  | [] => true
  | [c] => decide (c.2 ≠ 0#8)
  | c :: c' :: cs => decide (c.2 ≠ 0#8) && decide (c.1 < c'.1) && cellsWf (c' :: cs)

/-! ### Lists -/

/-- Element `i` replaced by what `f` gives. -/
def modifyAt (f : α → α) : Nat → List α → List α
  | _, [] => []
  | 0, x :: xs => f x :: xs
  | n + 1, x :: xs => x :: modifyAt f n xs

/-- The first `n` of `xs`, padded with `d`. -/
def padTo (d : α) : Nat → List α → List α
  | 0, _ => []
  | n + 1, [] => d :: padTo d n []
  | n + 1, x :: xs => x :: padTo d n xs

/-- The sum of what `f` gives over a list. -/
def sumOf (f : α → Nat) : List α → Nat
  | [] => 0
  | x :: xs => f x + sumOf f xs

end Sys2Proof.Machine
end

