-- ==== Sys2Proof/Machine/State.lean ====
section
/-! DEFINITION. The state of the X1: everything the spec gives the machine, as plain data, and the state after reset.
INVENTORY.md lists each piece with the rule that names it. -/

namespace Sys2Proof.Machine

/-- Why the machine stops with a fault. -/
inductive Fault where
  /-- A bundle lies outside device memory (R33, R358). Raised by the fetch when a code section was placed there; an image
  that LOAD accepted never is (R456). Safe: the spec gives such a fetch no effect. -/
  | fetchOutside (addr : Nat)
deriving DecidableEq, Repr

/-- Why an instruction has no meaning. -/
inductive Refusal where
  /-- The instruction is not modelled yet; raised by its arm of `exec`. Safe. -/
  | notModelled (mnemonic : String)
deriving DecidableEq, Repr

/-! ### Values, results in flight and queues -/

/-- A value of scalar, vector, mask or predicate class (R39). -/
inductive Val where
  | scalar (x : Word)
  | vector (x : Lanes)
  | mask (x : LaneMask)
  | pred (b : Bool)
deriving DecidableEq, Repr

/-- Where a result lands (R49, R143, R242). -/
inductive Dest where
  | none
  | s (n : BitVec 6)
  | v (n : BitVec 6)
  | m (n : BitVec 3)
  | p (n : BitVec 3)
  | queue (q : BitVec 3)
  | raw (cells : List Host.Cell)
  | latchV (n : BitVec 6)
deriving DecidableEq, Repr

/-- A result in flight (R49, R412, R422): the bundles left until it lands, what it writes under which mask, the flags it
raises, the latch it sets, and the bundle, slot and words that issued it. -/
structure Flight where
  left     : Nat
  dest     : Dest
  val      : Val
  mask     : LaneMask
  flags    : BitVec 6
  latch    : Option (BitVec 3)
  pc       : Word
  slot     : Nat
  slotWord : BitVec 32
  header   : BitVec 32
  old      : Bool
deriving DecidableEq, Repr

/-- How a queue load makes its entry from the bytes it reads (R240). -/
inductive LoadFmt where
  | scalar (signed : Bool)
  | lanes
  | gather (size : Nat)
deriving DecidableEq, Repr

/-- A queue load waiting to be performed: the physical address of each byte, with the byte where forwarding supplied it
(R206), and whether it follows the first store of its interval (R222). -/
structure LoadReq where
  bytes : List (Nat × Option Byte)
  fmt   : LoadFmt
  after : Bool
deriving DecidableEq, Repr

/-- What fills a queue entry (R203, R205, R241, R295). -/
inductive QKind where
  | result | load | work | six
deriving DecidableEq, Repr

/-- A queue entry (R203): its value and carried mask, whether its data has arrived, what fills it, the number its answer
names, whether it was reserved before the checkpoint, and its load. -/
structure QEntry where
  val    : Val
  mask   : LaneMask
  filled : Bool
  kind   : QKind
  id     : Nat
  old    : Bool
  req    : Option LoadReq
deriving DecidableEq, Repr

/-- A decoupling queue with the entries popped since the checkpoint (R203, R204). -/
structure Queue where
  entries  : List QEntry := []
  retained : List QEntry := []
deriving DecidableEq, Repr

/-! ### The registers a checkpoint copies -/

/-- A loop-stack entry (R130). -/
structure LoopEntry where
  start     : Word
  last      : Word
  remaining : Word
deriving DecidableEq, Repr

/-- A K-row of a stationary plane: 64 element codes and, where scaled, 64 scales (R171, R172). -/
structure KRow where
  elems  : List (BitVec 16)
  scales : List (BitVec 16)
deriving DecidableEq, Repr

/-- A stationary plane (R172): FMT, GANG, the scale flag, and its K-rows; an empty list is an empty plane. -/
structure Plane where
  fmt  : BitVec 4 := 0#4
  gang : Gang := .g88
  rows : List (Option KRow) := []
deriving DecidableEq, Repr

/-- A load of a plane still within its four bundles (R173, R176, R177). -/
structure PlaneLoad where
  left  : Nat
  plane : Bool
  shift : Bool
  fmt   : BitVec 4
  gang  : Gang
  rows  : List KRow
deriving DecidableEq, Repr

/-- A landing that an issued slot has reserved (R53, R54, R55): the bundles left until it, and the register or queue. -/
structure Claim where
  left : Nat
  cls  : Cls
  num  : Nat
deriving DecidableEq, Repr

/-- The elements of state that rollback restores from the checkpoint (R416), with the counts that the rules of issue read
back over earlier bundles: bundles since the last beat of each tile (R181), bundles for which F is taken (R53), bundles
since the last Q bundle and the bound of their span (R419), landings reserved (R54, R55). -/
structure Arch where
  pc     : Word := 0#64
  s      : Vector Word 64 := Vector.replicate 64 0#64
  v      : Vector Lanes 64 := Vector.replicate 64 0#4096
  m      : Vector LaneMask 8 := Vector.replicate 8 0#128
  p      : Vector Bool 8 := Vector.replicate 8 false
  a      : Vector (Vector TileRow 64) 8 := Vector.replicate 8 (Vector.replicate 64 0#2048)
  loops  : List LoopEntry := []
  g      : Vector Block 16 := Vector.replicate 16 0#512
  snap   : Vector Block 16 := Vector.replicate 16 0#512
  snapOk : Vector Bool 16 := Vector.replicate 16 false
  planes : Vector Plane 2 := Vector.replicate 2 {}
  loads  : List PlaneLoad := []
  active : Bool := false
  arith  : Word := 0#64
  qbind  : Word := 0#64
  srseed : BitVec 32 := 0#32
  gens   : Lanes := seedGens 0#32
  bound  : NatMap Word := []
  sixsrc : BitVec 128 := 0#128
  sixcfg : BitVec 128 := 0#128
  sinceBeat : Vector Nat 8 := Vector.replicate 8 8
  fBusy  : Nat := 0
  sinceQ : Nat := 0
  qSpan  : Nat := 8192
  claims : List Claim := []
deriving DecidableEq, Repr

/-! ### Scratchpad -/

/-- A reservation in a ring (R197, R198): the producer, its bytes, how many from its start count as ready, and the pieces
(offset, bytes) that have come beyond them. -/
structure Resv where
  id   : Nat
  len  : Nat
  pos  : Nat := 0
  got  : List (Nat × Nat) := []
deriving DecidableEq, Repr

/-- A reservation named from outside (R198): the unit and ring it is in, its number, and the logical offset of the ring at
which it starts. -/
structure RingAt where
  unit : Nat
  ring : Nat
  resv : Nat
  base : Nat
deriving DecidableEq, Repr

/-- The counts of a ring (R197); RESV is the sum of the reservations. `kept` is what HELD held at the checkpoint of a resume: those bytes
were popped before it, and a rollback to it leaves them popped (R199, R423). `line` names the producers that have started and wait for room,
first come first, by package and number (R198). -/
structure Ring where
  head  : Nat := 0
  ready : Nat := 0
  held  : Nat := 0
  kept  : Nat := 0
  resv  : List Resv := []
  line  : List (BitVec 16 × Nat) := []
deriving DecidableEq, Repr

/-- A stash line that is not Invalid (R200, R201, R202): its physical line, whether it has been filled, with the version and lease of that
fill, and the bytes that weak agents wrote, by the colour of their writes; any such byte makes it Engine-dirty. -/
structure StashLine where
  pa     : Nat
  filled : Bool
  wts    : Word
  lease  : Word
  dirty  : Vector (BitVec 64) 8
deriving DecidableEq, Repr

/-- The scratchpad of a unit: its bytes by offset, its rings, and its stash lines by row × 16 + line (R194 to R202). -/
structure Spad where
  bytes : List Host.Cell := []
  rings : Vector Ring 8 := Vector.replicate 8 {}
  lines : NatMap StashLine := []
deriving DecidableEq, Repr

/-! ### Engines -/

/-- A copy channel (R250 to R253): its registers, whether its chain goes on, the transfers it owns oldest first, the ids
performed ahead of an earlier one, its shadow chain, the transfers that faulted, and the tokens its chains hold. -/
structure Chan where
  head    : Word := 0#64
  limit   : BitVec 32 := 0#32
  limited : Bool := false
  done    : BitVec 32 := 0#32
  issued  : BitVec 32 := 0#32
  walking : Bool := false
  owned   : List Nat := []
  ahead   : List (BitVec 32) := []
  pending : Option (Word × BitVec 32) := none
  error   : Bool := false
  parked  : Bool := false
  errTid  : BitVec 32 := 0#32
  errCause : BitVec 16 := 0#16
  errAddr : Word := 0#64
  faulted : List Nat := []
  toks    : List Tok := []
deriving DecidableEq, Repr

/-- An operation of the sparse-index engine as it runs (R184 to R186). -/
structure SixOp where
  src     : BitVec 128
  cfg     : BitVec 128
  pos     : Nat
  bytePos : Nat
  runLeft : Nat
  lanes   : List (BitVec 32)
deriving DecidableEq, Repr

/-- The sparse-index engine (R183 to R188). `since` counts the bundles issued since its last push, up to 128, the most that a push waits
for. -/
structure Six where
  emitted  : BitVec 32 := 0#32
  consumed : BitVec 32 := 0#32
  error    : Bool := false
  run      : Option SixOp := none
  shadow   : Option (BitVec 128 × BitVec 128) := none
  since    : Nat := 128
deriving DecidableEq, Repr

/-- The state of a guyline handle (R330). -/
inductive GlSt where
  | free | opening | opn | closing | ended
deriving DecidableEq, Repr

/-- Why a circuit ended (R330). -/
inductive GlCause where
  | none | closed | expired | preempted | failed | refused | narrowed | faulted
deriving DecidableEq, Repr

/-- A GLSEND not wholly sent: its raw offset, its words, and the words already placed (R334). -/
structure GlSend where
  off   : Nat
  count : Nat
  sent  : Nat
deriving DecidableEq, Repr

/-- A guyline handle with its circuit (R330 to R340). `lease` is the time of expiry; `entry` the queue entry still to fill;
`path` the slots held as (wheel, slot); `dest` and `ring` the landing in this package with the words that have `landed`;
`closeWith` what ends the circuit as soon as it opens; `ending` and `told` that it ends and that its slots are free and its
receiver told, since `endAt`; `why` the fault that ends it; `asked` that another package has been asked to open; `score` the core it was opened on;
`misses` how often the other package found no path on. -/
structure GlHandle where
  st      : GlSt := .free
  cause   : GlCause := .none
  final   : Bool := false
  tainted : Bool := false
  width   : Nat := 0
  sent    : Nat := 0
  resumeW : Nat := 0
  lease   : Nat := 0
  block   : Block := 0#512
  pend    : List GlSend := []
  tok     : Option Tok := none
  path    : List (Nat × Nat) := []
  entry   : Option Nat := none
  ring    : Option RingAt := none
  landed  : Nat := 0
  dest    : Option Nat := none
  closeWith : GlCause := .none
  ending  : Bool := false
  told    : Bool := false
  endAt   : Nat := 0
  why     : Option Cause := none
  asked   : Bool := false
  score   : Nat := 0
  misses  : Nat := 0
deriving DecidableEq, Repr

/-- A transfer taken by an engine: a copy record, a PUT or a GET (R246 to R255). `todo` lists the chunks not yet performed
by their first byte, `sentOut` those of them on their way to or from another package, with whether their data has been read;
`ring` is its reservation; `dropAll` says that every chunk is dropped; `bytes` counts what has been performed; `home` is the account that its
unit works for and the package of that account (R279), and `land` the unit of this package in whose rows it lands (R248). -/
structure Xfer where
  unit    : Nat
  core    : Nat
  part    : Nat
  chan    : Nat
  isGet   : Bool
  tid     : BitVec 32
  raddr   : Word
  record  : Block
  todo    : List Nat
  sentOut : List (Nat × Bool) := []
  started : Bool := false
  ring    : Option RingAt := none
  dropAll : Bool := false
  heldGet : Bool := false
  bytes   : Nat := 0
  bad     : Bool := false
  entry   : Option Nat := none
  tok     : Option Tok := none
  maxWts  : Word := 0#64
  faulted : Bool := false
  home    : Handle × BitVec 16 := (0#32, 0#16)
  land    : Option Nat := none
deriving DecidableEq, Repr

/-! ### Units and accounts -/

/-- A unit table entry (R76). -/
structure UnitDecl where
  entry   : BitVec 32 := 0#32
  nacc    : Nat := 0
  qmask   : BitVec 8 := 0#8
  stash   : Nat := 0
  spbytes : Nat := 0
  rings   : List (Nat × Nat) := []
deriving DecidableEq, Repr

/-- The weight a unit holds: WSHARE (R271). -/
structure Hold where
  exp   : BitVec 7 := 0#7
  valid : Bool := false
  pair  : Bool := false
  acct  : Handle := 0#32
  pkg   : BitVec 16 := 0#16
deriving DecidableEq, Repr

/-- The states of a unit (R284). -/
inductive UnitSt where
  | created | queued | standby | running | suspended | ended
deriving DecidableEq, Repr

/-- The kinds of saved context (R426). -/
inductive CtxKind where
  | preempted | yielded | trapped
deriving DecidableEq, Repr

/-- The engines of a unit that is off its core (R250, R187, R341), and the largest wts that its weak writes of each colour
have taken (R228). -/
structure Engines where
  chans : Vector Chan 8 := Vector.replicate 8 {}
  six   : Six := {}
  gl    : Vector GlHandle 16 := Vector.replicate 16 {}
  weak  : Vector Word 8 := Vector.replicate 8 0#64
deriving DecidableEq, Repr

/-- What the core keeps of a suspended unit beside its context image (R172, R416, R422): the planes, the counts of issue,
and what the entries of the image stand for: the late writes and the queue entries; and a FENCE still to complete. -/
structure Saved where
  planes : Vector Plane 2 := Vector.replicate 2 {}
  loads  : List PlaneLoad := []
  active : Bool := false
  sinceBeat : Vector Nat 8 := Vector.replicate 8 8
  fBusy  : Nat := 0
  claims : List Claim := []
  late   : List Flight := []
  queues : Vector (List QEntry) 8 := Vector.replicate 8 []
  bound  : NatMap Word := []
  fence  : Option (BitVec 8 × List Nat) := none
deriving DecidableEq, Repr

/-- A trap waiting for, or being handled by, the handler of a core (R356, R357): the trapped unit where one was rolled
back, the unit whose trap it is, its home account, the record's physical address, the context's, and the cause. -/
structure TrapWait where
  unit  : Option Nat
  owner : Nat
  acct  : Handle
  recAt : Nat
  ctxAt : Nat
  cause : Cause
  part  : Nat
deriving DecidableEq, Repr

/-- Where a unit may be placed (R78, R286, R287): PLACE, PIN and the salt, and whether it still waits for capacity (R291). -/
structure Placing where
  place : Nat := 1
  pin   : Nat := 0
  salt  : Word := 0#64
  wait  : Bool := false
deriving DecidableEq, Repr

/-- A unit (R265, R284, R285). `stamp` is the count of bundles of its core when it was last queued, and `aged` the bundles that issued while it
was queued before that (R288). -/
structure Uni where
  index   : Nat := 0
  part    : Nat := 0
  decl    : UnitDecl := {}
  hold    : Hold := {}
  prio    : Nat := 0
  st      : UnitSt := .created
  core    : Nat := 0
  spot    : Placing := {}
  args    : Option Word := none
  argv    : Option Block := none
  s8      : Word := 0#64
  s9      : Word := 0#64
  s10     : Word := 0#64
  evac    : Word := 0#64
  pts     : Word := 0#64
  started : Bool := false
  stamp   : Nat := 0
  aged    : Nat := 0
  rank    : Option Nat := none
  admitN  : Nat := 0
  argFault : Option (Cause × Word) := none
  ctx     : Option CtxKind := none
  skipK   : Bool := false
  spilled : Bool := false
  handler : Option TrapWait := none
  rows    : Nat := 0
  rowBase : Nat := 0
  pad     : Spad := {}
  eng     : Engines := {}
  saved   : Saved := {}
  trees   : List Nat := []
deriving DecidableEq, Repr

/-- The states of an account (R267). -/
inductive AccSt where
  | free | deferred | opn | cancelling | done
deriving DecidableEq, Repr

/-- The levels of work that have an account (R267). -/
inductive Level where
  | launch | graph | phase | job
deriving DecidableEq, Repr

/-- What a launch account creates its units from (R78, R77, R286, R424): `nexts` is the first index that each of the eight stack dispatchers has
still to look at, `given` the value of the tokens of the units created, and `quads` the quadrants by which its units are divided. -/
structure LaunchInfo where
  unit    : Nat
  prio    : Nat
  place   : Nat
  policy  : Bool
  argshare : Bool
  pin     : Nat
  args    : Word
  ext0    : Nat
  ext1    : Nat
  ext2    : Nat
  salt    : Word
  evac    : Word
  nexts   : List Nat
  given   : Nat
  quads   : List Nat
  waiting : Bool
  starts  : Option (List (Nat × Nat × Nat × Word))
  slotSize : Nat
  nBase   : Nat
  pts     : Word
deriving DecidableEq, Repr

/-- An account record (R267) with what the hub keeps beside it: the owner token (R306), the launch, the accounts that wait
for it, its released flag, the pts its returns carried (R303), and whether the admission of a job's units has stopped until an interval ends with
its allowance positive (R382). -/
structure Account where
  out     : Nat := 0
  st      : AccSt := .free
  level   : Level := .launch
  taint   : Bool := false
  cancel  : Bool := false
  fault   : Bool := false
  part    : Nat := 0
  parentV : Bool := false
  pexp    : BitVec 7 := 0#7
  parent  : Handle := 0#32
  parentPkg : BitVec 16 := 0#16
  gen     : BitVec 18 := 0#18
  npred   : Nat := 0
  created : Word := 0#64
  ended   : Word := 0#64
  allow   : Word := 0#64
  owner   : Option Hold := none
  preds   : List Handle := []
  launch  : Option LaunchInfo := none
  released : Bool := false
  pts     : Word := 0#64
  flushAt : Option Nat := none
  stopped : Bool := false
deriving DecidableEq, Repr

/-- An entry of a return combiner (R274). -/
structure CombEntry where
  acct  : Handle
  pkg   : BitVec 16
  sum   : Nat
  taint : Bool
  pts   : Word
deriving DecidableEq, Repr

/-- An arrival trigger (R292, R301) with its token, whether it also keeps one of exponent 127 from a borrow (R475), and the records of the
completions whose borrow another package has still to answer. -/
structure Trigger where
  label : BitVec 16
  unit  : Nat
  prio  : Nat
  bar   : Option BarLoc
  tok   : Tok
  pair  : Bool
  part  : Nat
  pts   : Word
  asked : List Block := []
deriving DecidableEq, Repr

/-! ### A sequencer -/

/-- A line of the store-withhold buffer: its virtual and its physical line, its bytes with their mask (R206). A context image holds the virtual
one, so that stores restored from it go by the tables of the resume (R364, R423). -/
structure WLine where
  va   : Nat
  pa   : Nat
  data : Block
  mask : BitVec 64
deriving DecidableEq, Repr

/-- A cached leaf (R361). -/
structure Leaf where
  part  : Nat
  va    : Nat
  size  : Nat
  pa    : Nat
  attr  : BitVec 2
  stack : Nat
deriving DecidableEq, Repr

/-- How far a borrow has come (R272). -/
inductive Borrow where
  | idle | asked | granted | cancelled | saturated
deriving DecidableEq, Repr

/-- Why a unit is to leave its core before its next Q bundle (R420). -/
inductive PreKind where
  | priority | capacity | safeTier
deriving DecidableEq, Repr

/-- How far the bundle at the program counter has come. -/
inductive Phase where
  /-- It has not begun: its results have not landed and its checkpoint is not taken. -/
  | fresh
  /-- It has begun and its slots issue. -/
  | begun
  /-- A slot of it waits (R49). -/
  | stalled
  /-- The sequencer left it: a trap was taken, the unit ended or left the core. -/
  | left
deriving DecidableEq, Repr

/-- A code section (R33, R75). -/
structure Code where
  base  : Nat := 0
  count : Nat := 0
deriving DecidableEq, Repr

/-- A sequencer: a core or the ranger core (R20, R25). -/
structure Core where
  arch     : Arch := {}
  q        : Vector Queue 8 := Vector.replicate 8 {}
  latches  : Vector (Option Val) 8 := Vector.replicate 8 none
  flights  : List Flight := []
  -- the checkpoint (R409, R412, R413)
  shadow   : Arch := {}
  carry    : List Flight := []
  done     : BitVec 3 := 0#3
  sinceCk  : Nat := 0
  ckBound  : Nat := 4096
  qBound   : Nat := 8192
  -- the bundle being issued (log entry 4)
  phase    : Phase := .fresh
  slot     : Nat := 0
  word     : BitVec 32 := 0#32
  header   : BitVec 32 := 0#32
  literal  : BitVec 32 := 0#32
  popped   : BitVec 8 := 0#8
  pushed   : BitVec 8 := 0#8
  next     : Option Word := none
  raised   : Option (Cause × Word) := none
  words    : List (BitVec 32) := []
  atCk     : Bool := false
  resumes  : Option (BitVec 3) := none
  want     : List Action := []
  stallFrom : Option Nat := none
  remap    : List (Nat × Option Word) := []
  -- memory side
  withheld : List WLine := []
  saved    : List WLine := []
  firstStore : Bool := false
  reads    : List (Nat × Word) := []
  conflicts : Nat := 0
  anchored : Bool := false
  tlb      : List Leaf := []
  used     : List Leaf := []
  xlinvHit : Bool := false
  pts      : Word := 0#64
  fence    : Option (BitVec 8 × List Nat) := none
  weak     : Vector Word 8 := Vector.replicate 8 0#64
  -- unit side
  unit     : Option Nat := none
  standby  : Option Nat := none
  shadowS  : List Word := []
  decl     : UnitDecl := {}
  hold     : Hold := {}
  part     : Nat := 0
  isHandler : Bool := false
  code     : Code := {}
  yieldReq : Bool := false
  yieldCk  : Bool := false
  preempt  : Option PreKind := none
  borrow   : Borrow := .idle
  issuedN  : Nat := 0
  pad      : Spad := {}
  chans    : Vector Chan 8 := Vector.replicate 8 {}
  six      : Six := {}
  gl       : Vector GlHandle 16 := Vector.replicate 16 {}
  nextPg   : Nat := 0
  queue    : List Nat := []
  trigs    : Vector (Option Trigger) 16 := Vector.replicate 16 none
  arrivals : List (Message × Nat) := []
  held     : List (Message × Nat) := []
  handling : Option TrapWait := none
  trapq    : List TrapWait := []
  joined   : List Nat := []
  trapRec  : Word := 0#64
  rtrap    : Word := 0#64
  inTrap   : Bool := false
  trapDone : BitVec 3 := 0#3
  halted   : Bool := false
  mode     : BitVec 2 := 1#2
deriving DecidableEq, Repr

/-! ### The hub -/

/-- The timestamps of a line (R218). -/
structure LineTs where
  wts : Word := 0#64
  rts : Word := 0#64
deriving DecidableEq, Repr

/-- The directory state of a 2 MiB region (R211); DP with no owner is a region never touched; FT counts who touched and
wrote it since a time. -/
inductive Region where
  | dp (owner : Option Nat) (w : Bool)
  | rs (lease : Word)
  | ft (touched : List Nat) (wrote : Bool) (since : Nat)
deriving DecidableEq, Repr

/-- A partition descriptor (R347). -/
structure PartDesc where
  st       : BitVec 2 := 0#2
  age      : Nat := 16
  podid    : BitVec 16 := 0#16
  quads    : BitVec 32 := 0#32
  root     : Word := 0#64
  acctBase : Nat := 0
  acctCnt  : Nat := 0
  glQuota  : Nat := 0
  handler  : BitVec 16 := 0xFFFF#16
  pfloor   : BitVec 32 := 0#32
  windows  : List (Nat × Nat) := List.replicate 8 (0xFFFFFFFF, 0)
deriving DecidableEq, Repr

/-- A pod-barrier tree record of an image (R342). -/
structure Tree where
  num     : Nat
  op      : BitVec 3
  root    : Bool
  up      : Nat
  down    : BitVec 32
  tmo     : Nat
  members : BitVec 256
  uslot   : Nat
deriving DecidableEq, Repr

/-- A static wheel entry of an image (R324). -/
structure WheelEntry where
  slot  : Nat
  xpt   : Nat
  inp   : Nat
  outp  : Nat
  score : Nat
  dcore : Nat
deriving DecidableEq, Repr

/-- A loaded image (R74 to R77, R324, R342, R456). -/
structure Image where
  code   : Code := {}
  isareq : Nat := 0
  units  : List UnitDecl := []
  wheels : List WheelEntry := []
  trees  : List Tree := []
  starts : List (Nat × Nat × Nat × Word) := []
  bytes  : List Byte := []
deriving DecidableEq, Repr

/-- An applied-bitmap entry (R231): its key and the chunks applied. -/
structure Applied where
  slice  : Nat
  spkg   : BitVec 16
  score  : Nat
  chan   : Nat
  tid    : BitVec 32
  xfer   : Nat
  chunks : List Nat
deriving DecidableEq, Repr

/-- A chunk of a copy of which some words have been written (R230): the package of its transfer, the transfer and the chunk, the words by their
number in the 256-byte block, and the largest wts they took. -/
structure HalfChunk where
  spkg  : BitVec 16
  xfer  : Nat
  lo    : Nat
  words : BitVec 64
  wts   : Word
deriving DecidableEq, Repr

/-- The landing in a ring of a transfer that comes from another package (R248, R255): its reservation, none where it is
refused, and the bytes still to come. -/
structure RingIn where
  spkg : BitVec 16
  xfer : Nat
  ring : Option RingAt
  left : Nat
deriving DecidableEq, Repr

/-- A record of the translation directory (R363): partition, page, and the stacks and lightport dies that hold it. -/
structure TRec where
  part    : Nat
  va      : Nat
  size    : Nat
  holders : List Nat
deriving DecidableEq, Repr

/-- An XLINV waiting for its holders (R364, R401): stacks, and 8 and a lightport die. -/
structure Inval where
  core    : Nat
  part    : Nat
  va      : Option Nat
  holders : List Nat
deriving DecidableEq, Repr

/-- An episode of a pod barrier in this package (R343): the contributions by participant and the waiting entries. -/
structure Episode where
  tree   : Nat
  num    : Nat
  value  : Option Word
  joined : List Nat
  broken : Bool
  since  : Nat
deriving DecidableEq, Repr

/-- A BAR waiting for its episode (R308): tree, episode, core, entry. -/
structure BarWait where
  tree : Nat
  num  : Nat
  core : Nat
  unit : Nat
  id   : Nat
deriving DecidableEq, Repr

/-- A token that a byte-counting barrier holds for a PUT (R268): the package of the transfer and its number there, and the
barrier. -/
structure BarTok where
  spkg : BitVec 16
  xfer : Nat
  loc  : BarLoc
  tok  : Tok
deriving DecidableEq, Repr

/-- The hub: directory, accounts, dispatch, translation, partitions and counters; descriptors granted that wait for their
resources (R350); the 32-byte words of memory with an uncorrectable error (R446); the leaves that the lightport dies
hold (R363); the PODID under which tokens of other packages' accounts came here, by package × 2^32 and handle (R351); and the periods begun of logical time (R220), of the flow meters (R325) and, by site, of the return combiners (R274). -/
structure Hub where
  ts       : NatMap LineTs := []
  regions  : NatMap Region := []
  art      : Vector (BitVec 256) 64 := Vector.replicate 64 0#256
  applied  : List Applied := []
  anchor   : Option (Nat × Nat × List Nat) := none
  anchorQ  : List Nat := []
  accounts : NatMap Account := []
  parts    : Vector PartDesc 8 := Vector.replicate 8 {}
  ckBound  : Vector Nat 9 := Vector.replicate 9 4096
  qBound   : Vector Nat 9 := Vector.replicate 9 8192
  mode     : BitVec 2 := 1#2
  modeDisp : BitVec 2 := 1#2
  units    : NatMap Uni := []
  nextUnit : Nat := 1
  nextRank : Nat := 0
  xfers    : NatMap Xfer := []
  nextXfer : Nat := 1
  nextEntry : Nat := 1
  combs    : NatMap (List CombEntry) := []
  tdir     : List TRec := []
  walkerMem : List (Nat × Nat × Word) := []
  inval    : List Inval := []
  images   : NatMap Image := []
  firmware : Image := {}
  meter    : BitVec 32 := 65536#32
  stepwait : Word := 1048576#64
  counters : NatMap (BitVec 32) := []
  episodes : List Episode := []
  barWaits : List BarWait := []
  barNext  : NatMap Nat := []
  job      : Option Handle := none
  noAdmit  : Bool := false
  freedRows : NatMap Nat := []
  pendingRet : List Ret := []
  barToks  : List BarTok := []
  ringIns  : List RingIn := []
  halves   : List HalfChunk := []
  farCancel : List (BitVec 16 × Handle) := []
  grants   : List (Nat × PartDesc) := []
  bad      : List Nat := []
  dies     : List (Nat × Leaf) := []
  farPods  : NatMap (BitVec 16) := []
  ticks    : Nat := 0
  windows  : Nat := 0
  epochs   : NatMap Nat := []
  placed   : Nat := 0
deriving DecidableEq, Repr

/-! ### Power and capacity -/

/-- A point asked for by RVSET, with the entries that wait for it as (unit, entry); or by an EVAC that is held (R379). -/
structure Nudge where
  point   : Nat
  entries : List (Nat × Nat)
  evac    : Bool := false
deriving DecidableEq, Repr

/-- A pending down-step of an SRAM domain (R376, R404): its target, when it was announced, the counts of EVAC's entry, the
EVAC entries that wait as (unit, entry), whether steps 2 to 4 are done, and the RVSET whose voltage settles. -/
structure Step where
  target    : Nat
  since     : Nat
  moved     : Nat := 0
  spilled   : Nat := 0
  preempted : Nat := 0
  evacs     : List (Nat × Nat) := []
  fitted    : Bool := false
  out       : Bool := false
  settling  : Option Nudge := none
deriving DecidableEq, Repr

/-- The state of power control (R369 to R390); maps hold only what differs from a default: points, requests, levels and counts
0, memory caps 0 (64 requests), allowances 7, ceilings 8 (boost). Points, requests, pending steps, up-steps under way and
RVSETs held are by domain; allowances, caps and energies by partition; ceilings, cool intervals and current levels by
quadrant; fractions of charges by partition, or 16 and a job's account id. -/
structure Power where
  op       : NatMap Nat := []
  boost    : List Nat := []
  deferred : List Nat := []
  req      : NatMap Nat := []
  allow    : NatMap Nat := []
  ceil     : NatMap Nat := []
  cool     : NatMap Nat := []
  ilevel   : NatMap Nat := []
  cap      : NatMap Nat := []
  held     : NatMap Nat := []
  steps    : NatMap Step := []
  ups      : NatMap Nudge := []
  waiting  : NatMap Nudge := []
  logicWait : NatMap (List (Nat × Nat)) := []
  blob     : List Byte := []
  remap    : NatMap Nat := []
  energy   : NatMap Word := []
  carryNj  : NatMap Nat := []
  capReq   : Nat := 2600
  capEff   : Nat := 2600
  idleW    : Nat := 0
deriving DecidableEq, Repr

/-! ### Fabric and links -/

/-- An Ibaskov port (R433 to R444). -/
structure Port where
  up        : Bool := false
  peer      : BitVec 16 := 0#16
  flight    : Nat := 0
  txMask    : BitVec 16 := 0xFFFF#16
  rxMask    : BitVec 16 := 0xFFFF#16
  parkedTx  : BitVec 16 := 0#16
  parkedRx  : BitVec 16 := 0#16
  sparesTx  : BitVec 4 := 0#4
  sparesRx  : BitVec 4 := 0#4
  seqOut    : BitVec 12 := 0#12
  seqIn     : BitVec 12 := 0#12
  replay    : List Flit := []
  fails     : Nat := 0
  training  : Bool := false
  restripeTx : Option (BitVec 16 × BitVec 16) := none
  restripeRx : Option (BitVec 16 × BitVec 16) := none
  asked     : Option (BitVec 12) := none
  lastGood  : Nat := 0
  wakeReq   : Bool := false
  lost      : Bool := false
  lostAt    : Nat := 0
deriving DecidableEq, Repr

/-- A flow of a meter (R325): its key and the bytes counted in the window. -/
structure Flow where
  spkg  : BitVec 16
  score : Nat
  dpkg  : BitVec 16
  dcore : Nat
  label : BitVec 16
  count : Nat
deriving DecidableEq, Repr

/-- A promoted circuit (R326 to R329), with the number of the packet that is its switch marker. -/
structure Promoted where
  key     : Nat
  flow    : Flow
  part    : Nat
  width   : Nat
  path    : List (Nat × Nat)
  mark    : Nat
deriving DecidableEq, Repr

/-- The landing of a circuit that comes from another package (R331, R335), by source package and key: its block, its
partition, the words landed, its ring reservation, the unit it lands in, the slots it holds, and the port it comes in by. -/
structure GlIn where
  block  : Block
  part   : Nat
  landed : Nat
  ring   : Option RingAt
  dest   : Option Nat
  path   : List (Nat × Nat)
  port   : Nat
deriving DecidableEq, Repr

/-- The fabric: the partition that holds each slot, by wheel × 64 + slot; the static sets in use; meters by core, or 256 and a
port; promoted circuits; pod map, routes, ports, circuits from other packages, and the export table by die. -/
structure Fabric where
  wheels   : NatMap Nat := []
  inUse    : List (Nat × Nat) := []
  meters   : NatMap (List Flow) := []
  promoted : List Promoted := []
  probedAt : NatMap Nat := []
  podmap   : List (Word × BitVec 16) := []
  num      : BitVec 16 := 0#16
  routes   : NatMap (List Nat) := []
  ports    : NatMap Port := []
  nextPkt  : Nat := 1
  incoming : NatMap GlIn := []
  exports  : List (Nat × Handle × BitVec 16 × Nat × Bool) := []
  heaters  : NatMap (BitVec 16) := []
deriving DecidableEq, Repr

/-! ### The host port -/

/-- How far boot has come (R454). -/
inductive Boot where
  | off | running | halted (code : BitVec 16)
deriving DecidableEq, Repr

/-- A safe-tier checkpoint (R447). -/
structure SafeCk where
  acked   : List Nat
  total   : Nat
  targets : List Byte
deriving DecidableEq, Repr

/-- The host port: session with the time of its last frame, firmware that takes over at the next frame, queues, memory of the host as RoCEv2 reaches it, flash, and the safe-tier checkpoint. -/
structure HostPort where
  session  : Option (BitVec 16 × BitVec 32) := none
  heard    : Nat := 0
  events   : List Block := []
  frames   : List Frame := []
  sent     : List Frame := []
  mem      : List Host.Cell := []
  blob     : List Byte := []
  flashFw  : List Byte := []
  boot     : Boot := .off
  nextFw   : Option Image := none
  ckpt     : Option SafeCk := none
  lastCkpt : Nat × Nat := (0, 0)
deriving DecidableEq, Repr

/-! ### The machine -/

/-- The whole machine. `cur` is the number of the sequencer in focus, held in `core`; `others` holds every other sequencer
that is not as at reset (log entry 2). `due` lists the device actions due and `act` is the one at hand; `time` counts steps (log entry 3); `free` is
the counter of the free values (log entry 1). -/
structure State where
  cur    : Nat
  core   : Core
  others : NatMap Core
  mem    : List Host.Cell
  hub    : Hub
  power  : Power
  fabric : Fabric
  port   : HostPort
  act    : Option Action
  due    : List Action
  time   : Nat
  free   : Nat
deriving DecidableEq, Repr

/-- Memory in its canonical form. -/
def Memory.wf (m : List Host.Cell) : Bool := cellsWf m

/-- The machine right after power-on (R454): BOOT is due and nothing else has happened. The values no rule gives are those
of log entries 5 and 6. -/
def State.reset : State where
  cur := 0
  core := {}
  others := []
  mem := []
  hub := {}
  power := {}
  fabric := {}
  port := {}
  act := none
  due := [.boot]
  time := 0
  free := 0

end Sys2Proof.Machine
end

