-- ==== Sys2Proof/Machine/Access.lean ====
section
/-! DEFINITION. Reaching the parts of the state: sequencers by number, accounts, units, event records and counters, the
codes of R430, and the constants of the package (R9 to R14, R358, R454, R478). -/

namespace Sys2Proof.Machine

/-- The ranger core's sequencer number (R33, R40). -/
def rangerId : Nat := 256

/-- The first address past physical device memory (R358). -/
def memTop : Nat := 2 ^ 39

/-- The start of the ranger core's reserved HBM (R454). -/
def reservedBase : Nat := 2 ^ 39 - 2 ^ 20

/-- The compute stack of a core (R10). -/
def stackOf (c : Nat) : Nat := c / 32

/-- The quadrant of a core, stack × 4 + quadrant (R10, R312). -/
def quadOf (c : Nat) : Nat := c / 8

/-- The logic domain of a quadrant (R12). -/
def logicDomain (q : Nat) : Nat := q / 4 * 8 + q % 4

/-- The SRAM domain of a quadrant (R12). -/
def sramDomain (q : Nat) : Nat := q / 4 * 8 + 4 + q % 4

/-- The quadrant of a compute domain 0 to 63 (R12). -/
def quadOfDomain (d : Nat) : Nat := d / 8 * 4 + d % 4

/-- The code of a cause or event (R430). -/
def causeCode : Cause → BitVec 16
  | .illegal => 0x0001#16
  | .align => 0x0002#16
  | .translation => 0x0003#16
  | .attr => 0x0004#16
  | .arithException => 0x0005#16
  | .fetchRange => 0x0006#16
  | .privilege => 0x0007#16
  | .userTrap => 0x0008#16
  | .latchLost => 0x0010#16
  | .queueEarly => 0x0011#16
  | .queueClass => 0x0012#16
  | .queueFull => 0x0013#16
  | .queueUndeclared => 0x0014#16
  | .queueRetain => 0x0015#16
  | .withholdFull => 0x0016#16
  | .scratchRange => 0x0017#16
  | .stashUnmapped => 0x0018#16
  | .loopStack => 0x0019#16
  | .streamInvalid => 0x001A#16
  | .ringEarly => 0x001B#16
  | .matrixFormat => 0x001C#16
  | .matrixEmpty => 0x001D#16
  | .matrixEarly => 0x001E#16
  | .sixQueue => 0x001F#16
  | .fenceUntracked => 0x0020#16
  | .waitRange => 0x0021#16
  | .waitNever => 0x0022#16
  | .recordInvalid => 0x0023#16
  | .postRange => 0x0024#16
  | .ckboundOver => 0x0025#16
  | .qboundOver => 0x0026#16
  | .carryFull => 0x0027#16
  | .sysregReadonly => 0x0028#16
  | .tretInvalid => 0x0029#16
  | .opreqInvalid => 0x002A#16
  | .accUndeclared => 0x002B#16
  | .accountStale => 0x0030#16
  | .accountClosed => 0x0031#16
  | .accountOp => 0x0032#16
  | .accountBusy => 0x0033#16
  | .spawnInvalid => 0x0034#16
  | .trigBusy => 0x0035#16
  | .trigInvalid => 0x0036#16
  | .barTree => 0x0037#16
  | .weightSaturated => 0x0038#16
  | .weightNone => 0x0039#16
  | .glBusy => 0x003A#16
  | .glState => 0x003B#16
  | .glRange => 0x003C#16
  | .placeRefused => 0x0040#16
  | .noAccount => 0x0041#16
  | .capacity => 0x0042#16
  | .glStatic => 0x0043#16
  | .glNopath => 0x0044#16
  | .landRefused => 0x0045#16
  | .glBroken => 0x0050#16
  | .weightNegative => 0x0080#16
  | .engineRz => 0x0081#16
  | .recordChanged => 0x0082#16
  | .ringOversize => 0x0083#16
  | .sixFormat => 0x0084#16
  | .barOverrun => 0x0085#16
  | .barTimeout => 0x0086#16
  | .artInvalid => 0x0087#16
  | .partInvalid => 0x0088#16
  | .linkMismatch => 0x0089#16
  | .trapOverflow => 0x008A#16
  | .capPreempt => 0x008B#16
  | .allowEmpty => 0x008C#16
  | .thermalCrit => 0x008D#16
  | .capRaised => 0x008E#16
  | .unachievable => 0x008F#16
  | .rangerHalt => 0x0090#16
  | .evacFault => 0x0091#16
  | .trapForward => 0x0092#16
  | .eventDropped => 0x0093#16
  | .lightLoss => 0x00A0#16
  | .restriped => 0x00A1#16
  | .linkLost => 0x00A2#16
  | .linkReplay => 0x00A3#16
  | .heaterSat => 0x00A4#16
  | .ringSpared => 0x00A5#16
  | .eccCorrected => 0x00A6#16
  | .eccUncorrected => 0x00A7#16
  | .crcRetry => 0x00A8#16
  | .leaseConflict => 0x00C0#16
  | .xlinvReplay => 0x00C1#16

/-! ### Registers by number -/

/-- Element `i` of a vector, or a default past its end. -/
def vget {α : Type} {n : Nat} (d : α) (v : Vector α n) (i : Nat) : α := if h : i < n then v[i] else d

/-- A vector with element `i` replaced; past its end nothing changes. -/
def vput {α : Type} {n : Nat} (v : Vector α n) (i : Nat) (x : α) : Vector α n := if h : i < n then v.set i x else v

/-- A vector with `f` applied to each element. -/
def vmap {α β : Type} {n : Nat} (f : α → β) (v : Vector α n) : Vector β n := Vector.ofFn fun i => f v[i]

/-! ### Sequencers -/

/-- The sequencer of a number. -/
def State.coreAt (s : State) (c : Nat) : Core := if c = s.cur then s.core else NatMap.findD {} c s.others

/-- The state with a sequencer replaced. -/
def State.setCore (s : State) (c : Nat) (x : Core) : State :=
  if c = s.cur then { s with core := x } else { s with others := NatMap.putD {} c x s.others }

/-- The state with the sequencer in focus replaced. -/
def State.withCore (s : State) (x : Core) : State := { s with core := x }

/-- The state with another sequencer in focus. -/
def State.focus (s : State) (c : Nat) : State :=
  if c = s.cur then s
  else { s with cur := c, core := NatMap.findD {} c s.others, others := NatMap.del c (NatMap.putD {} s.cur s.core s.others) }

/-- A change of one sequencer. -/
def State.modCore (s : State) (c : Nat) (f : Core → Core) : State := s.setCore c (f (s.coreAt c))

/-- The state with the hub replaced. -/
def State.withHub (s : State) (h : Hub) : State := { s with hub := h }

/-- The state with device actions made due, after those already due. -/
def State.addDue (s : State) (xs : List Action) : State := { s with due := s.due ++ xs }

/-- A packet sent (R316), numbered in the order of sending (R318). -/
def State.post (s : State) (k : Packet) : State :=
  let n := s.fabric.nextPkt
  { s with fabric := { s.fabric with nextPkt := n + 1 } }.addDue [.trailPacketDeliver { k with seq := n }]

/-- The counter of free values advanced. -/
def State.tickFree (s : State) : State := { s with free := s.free + 1 }

/-! ### Units, accounts, partitions -/

/-- A unit by its number. -/
def State.unitAt (s : State) (u : Nat) : Option Uni := NatMap.find u s.hub.units

/-- The state with a unit replaced. -/
def State.setUnit (s : State) (u : Nat) (x : Uni) : State := s.withHub { s.hub with units := NatMap.put u x s.hub.units }

/-- A change of one unit, where it exists. -/
def State.modUnit (s : State) (u : Nat) (f : Uni → Uni) : State :=
  match s.unitAt u with
  | some x => s.setUnit u (f x)
  | none => s

/-- The account id of a handle (R266). -/
def accId (h : Handle) : Nat := fld h 0 14

/-- The account record of an id (R267). -/
def State.accAt (s : State) (i : Nat) : Account := NatMap.findD {} i s.hub.accounts

/-- The state with an account record replaced. -/
def State.setAcc (s : State) (i : Nat) (a : Account) : State :=
  s.withHub { s.hub with accounts := NatMap.putD {} i a s.hub.accounts }

/-- The handle of an account, with its current generation (R266). -/
def accHandle (i : Nat) (a : Account) : Handle := BitVec.ofNat 32 (i + a.gen.toNat * 2 ^ 14)

/-- Whether a handle names an account of the current generation that is not free (R266). -/
def State.live (s : State) (h : Handle) : Bool :=
  let a := s.accAt (accId h)
  decide (accHandle (accId h) a = h) && decide (a.st ≠ .free)

/-- A partition descriptor (R347). -/
def State.partAt (s : State) (p : Nat) : PartDesc := if h : p < 8 then s.hub.parts[p] else {}

/-- The state with a partition descriptor replaced. -/
def State.setPart (s : State) (p : Nat) (d : PartDesc) : State :=
  if h : p < 8 then s.withHub { s.hub with parts := s.hub.parts.set p d } else s

/-- The partition that owns a quadrant: the ACTIVE or DRAINING partition whose QUADS holds it (R346). -/
def State.ownerOfQuad (s : State) (q : Nat) : Option Nat :=
  (upFrom 0 8).find? fun p => decide ((s.partAt p).st ≠ 0#2) && (s.partAt p).quads.getLsbD q

/-- The quadrants of a partition, in increasing order (R286). -/
def PartDesc.quadList (d : PartDesc) : List Nat := (upFrom 0 32).filter fun q => d.quads.getLsbD q

/-- A transfer by its number. -/
def State.xferAt (s : State) (x : Nat) : Option Xfer := NatMap.find x s.hub.xfers

/-- The state with a transfer replaced. -/
def State.setXfer (s : State) (x : Nat) (t : Xfer) : State := s.withHub { s.hub with xfers := NatMap.put x t s.hub.xfers }

/-- The image of a partition (R346, R456). -/
def State.imageOf (s : State) (p : Nat) : Option Image := NatMap.find p s.hub.images

/-! ### Events (R429, R478) -/

/-- The fields of an event record as its 64 bytes (R429). -/
def eventBits (e : EventRec) : Block :=
  BitVec.ofNat 512
    ((causeCode e.code).toNat + e.src.toNat * 2 ^ 16 + e.srcid.toNat * 2 ^ 20
      + (match e.part with | some p => p.toNat * 2 ^ 32 + 2 ^ 35 | none => 0)
      + e.time.toNat * 2 ^ 64 + e.addr.toNat * 2 ^ 128 + e.acct.toNat * 2 ^ 192 + e.tid.toNat * 2 ^ 224
      + e.arg0.toNat * 2 ^ 256 + e.arg1.toNat * 2 ^ 320)

/-- An event sent on class 4 to the ranger core (R316, R429): its record becomes due. TIME is the step count (log entry 3). -/
def State.event (s : State) (code : Cause) (src srcid : Nat) (part : Option Nat := none) (addr : Word := 0#64)
    (acct : Handle := 0#32) (tid : BitVec 32 := 0#32) (arg0 arg1 : Word := 0#64) : State :=
  s.addDue [.eventRecordArrive
    { code := code, src := BitVec.ofNat 4 src, srcid := BitVec.ofNat 12 srcid, part := part.map (BitVec.ofNat 3),
      time := BitVec.ofNat 64 s.time, addr := addr, acct := acct, tid := tid, arg0 := arg0, arg1 := arg1 }]

/-- The key of an event counter: code, source kind and source number (R429, R477). -/
def counterKey (code : BitVec 16) (src srcid : Nat) : Nat := code.toNat * 2 ^ 16 + src * 2 ^ 12 + srcid

/-- A counted event: the 32-bit counter of its source rises, saturating (R429). -/
def State.count (s : State) (code : Cause) (src srcid : Nat) : State :=
  let k := counterKey (causeCode code) src srcid
  let v := NatMap.findD 0#32 k s.hub.counters
  s.withHub { s.hub with counters := NatMap.putD 0#32 k (if v = 0xFFFFFFFF#32 then v else v + 1) s.hub.counters }

end Sys2Proof.Machine
end

