-- ==== Sys2Proof/Machine/Frames.lean ====
section
/-! DEFINITION. Command frames of the host port (R448 to R453, R457, R477): the refusals made of every frame before its
command, the command a frame asks for, and responses. -/

namespace Sys2Proof.Machine

/-- The status codes of R457. -/
inductive Status where
  | done | frame | version | feature | sessionBusy | opcode | magic | fmtver | isa | sect | signature | placement | unitTable
  | wheel | tree | window | busy | noImage | startVec | jobState | noAccount | saturated | blobSig | blobFloor | bootSig
deriving DecidableEq, Repr

/-- The code of a status (R457). -/
def Status.code : Status → BitVec 16
  | .done => 0#16
  | .frame => 1#16
  | .version => 2#16
  | .feature => 3#16
  | .sessionBusy => 4#16
  | .opcode => 5#16
  | .magic => 0x10#16
  | .fmtver => 0x11#16
  | .isa => 0x12#16
  | .sect => 0x13#16
  | .signature => 0x14#16
  | .placement => 0x15#16
  | .unitTable => 0x16#16
  | .wheel => 0x17#16
  | .tree => 0x18#16
  | .window => 0x19#16
  | .busy => 0x1A#16
  | .noImage => 0x1B#16
  | .startVec => 0x1C#16
  | .jobState => 0x1D#16
  | .noAccount => 0x1E#16
  | .saturated => 0x1F#16
  | .blobSig => 0x20#16
  | .blobFloor => 0x21#16
  | .bootSig => 0x22#16

/-- A response sent: the OP and TAG of its request, the version of the session, arguments and payload (R448, R449, R477). -/
def State.respond (s : State) (f : Frame) (code : BitVec 16) (arg0 arg1 : Word := 0#64) (payload : List Byte := []) : State :=
  let r : Frame :=
    { op := f.op, tag := f.tag, status := code, ver := (s.port.session.map (·.1)).getD 0#16,
      len := BitVec.ofNat 32 payload.length, rz := 0#32, arg0 := arg0, arg1 := arg1, payload := payload }
  { s with port := { s.port with sent := s.port.sent ++ [r] } }

/-- A response with a status alone. -/
def State.answerFrame (s : State) (f : Frame) (k : Status) : State := s.respond f k.code

/-- The command that a frame asks for, none where the OP is unassigned (R453). -/
def frameCommand (f : Frame) : Option Action :=
  match f.op.toNat with
  | 0x01 => some (.hostHello f)
  | 0x02 => some (.hostGoodbye f)
  | 0x10 => some (.hostLoad f)
  | 0x11 => some (.hostStart f)
  | 0x12 => some (.hostLaunch f)
  | 0x20 =>
    match fld f.arg0 0 2 with
    | 0 => some (.hostJobCreate f)
    | 1 => some (.hostJobAdd f)
    | 2 => some (.hostJobRelease f)
    | _ => some (.hostJobCancel f)
  | 0x21 => some (.hostAcctrd f)
  | 0x30 => some (.hostPart f)
  | 0x31 => some (.hostPodmap f)
  | 0x32 => some (.hostCap f)
  | 0x33 => some (.hostMode f)
  | 0x40 => some (.hostEvents f)
  | 0x41 => some (.hostCounters f)
  | 0x50 => some (.hostAttest f)
  | 0x60 => some (.hostSafeckpt f)
  | 0x61 => some (.hostCkptstat f)
  | 0x70 => some (.hostReset f)
  | _ => none

/-- The feature that a command needs (R450): RoCEv2 for LOAD, the safe-tier checkpoint, attestation. -/
def frameFeature (f : Frame) : Option Nat :=
  match f.op.toNat with
  | 0x10 => some 0
  | 0x60 | 0x61 => some 1
  | 0x50 => some 2
  | _ => none

/-- The declaration of the ranger core: its scratchpad of 1 MiB, all raw, and every queue (R20, R25). -/
def rangerDecl : UnitDecl := { qmask := 0xFF#8, spbytes := 2 ^ 20 }

/-- The ranger core started at bundle 0 of a firmware's code (R72, R454). -/
def State.startRanger (s : State) (i : Image) : State :=
  let x : Core := { ({} : Core) with
    arch := { qSpan := vget 8192 s.hub.qBound 8 }, shadow := { qSpan := vget 8192 s.hub.qBound 8 }, code := i.code, decl := rangerDecl,
    pts := (s.coreAt rangerId).pts, ckBound := vget 4096 s.hub.ckBound 8, qBound := vget 8192 s.hub.qBound 8, mode := s.hub.mode }
  (s.withHub { s.hub with firmware := i }).setCore rangerId x

/-- Queued records sent as unsolicited responses, while a session with event streaming is open (R450, R453). -/
def State.streamEvents (s : State) : State :=
  match s.port.session with
  | some (v, fs) =>
    if fs.getLsbD 3 then
      let sent := s.port.events.map fun e =>
        ({ op := 0x40#16, tag := 0xFFFF#16, status := 0#16, ver := v, len := 64#32, rz := 0#32, arg0 := 1#64, arg1 := 0#64,
           payload := toBytes 64 e.toNat } : Frame)
      { s with port := { s.port with events := [], sent := s.port.sent ++ sent } }
    else s
  | none => s

/-- A record put in the host's queue of 256, and sent where events are streamed; none where the queue is full (R453). -/
def State.postHost (s : State) (r : Block) : Option State :=
  if 256 ≤ s.port.events.length then none else some { s with port := { s.port with events := s.port.events ++ [r] } }.streamEvents

/-- A frame comes in: the session's clock starts anew, and firmware that waits takes over (R450, R456). -/
def State.frameIn (s : State) : State :=
  let s1 : State := { s with port := { s.port with heard := s.time, nextFw := none } }
  match s.port.nextFw with
  | some i => s1.startRanger i
  | none => s1

/-- What becomes of a frame that the port takes: the command to perform, or the state after its refusal (R449, R450, R453,
R454). -/
def State.screenFrame (s : State) (f : Frame) : Except State Action :=
  match s.port.boot with
  | .off => .error s
  | .halted code => if f.op = 0x70#16 then .ok (.hostReset f) else .error (s.respond f code)
  | .running =>
    let hello := decide (f.op = 1#16)
    let ver := s.port.session.map (·.1)
    if f.rz ≠ 0#32 ∨ 8192 < f.len.toNat ∨ (!hello ∧ ver ≠ some f.ver) then .error (s.answerFrame f .frame)
    else
      match frameCommand f with
      | none => .error (s.answerFrame f .opcode)
      | some a =>
        match frameFeature f, s.port.session with
        | some k, some (_, fs) => if fs.getLsbD k then .ok a else .error (s.answerFrame f .feature)
        | _, _ => .ok a

end Sys2Proof.Machine
end

