-- ==== Sys2Proof/Machine/Flags.lean ====
section
/-! DEFINITION. The arithmetic control register and its flags (R85 to R87): the six flags in the order IV, DZ, OF, UF, NX,
SAT from bit 0. -/

namespace Sys2Proof.Machine

/-- A set of flags (R86). -/
abbrev FlagSet := BitVec 6

/-- No flag. -/
def noFlags : FlagSet := 0#6
/-- IV, an invalid operation. -/
def fIV : FlagSet := 1#6
/-- DZ, a division by zero. -/
def fDZ : FlagSet := 2#6
/-- OF, overflow. -/
def fOF : FlagSet := 4#6
/-- UF, underflow. -/
def fUF : FlagSet := 8#6
/-- NX, inexact. -/
def fNX : FlagSet := 16#6
/-- SAT, a clamp changed the value. -/
def fSAT : FlagSet := 32#6

/-- A flag when a condition holds. -/
def flagIf (b : Bool) (f : FlagSet) : FlagSet := if b then f else noFlags

/-- The bits of ARITH that hold something; the others are RZ (R85). -/
def arithMask : Word := 0x3F3F07#64

/-- The bits of ARITH that a write stores as they are: RM, FTZ and TE (R85). -/
def arithRW : Word := 0x3F07#64

/-- RM (R85, R88). -/
def arithRM (a : Word) : Round :=
  match fld a 0 2 with
  | 0 => .near
  | 1 => .zero
  | 2 => .up
  | _ => .down

/-- FTZ (R90). -/
def arithFTZ (a : Word) : Bool := bitAt a 2

/-- TE (R87). -/
def arithTE (a : Word) : FlagSet := BitVec.ofNat 6 (fld a 8 6)

/-- FLAGS (R85). -/
def arithFlags (a : Word) : FlagSet := BitVec.ofNat 6 (fld a 16 6)

/-- Flags ORed into FLAGS (R86). -/
def arithRaise (a : Word) (f : FlagSet) : Word := a ||| (f.setWidth 64 <<< 16)

/-- Whether a set of flags holds one whose trap is enabled (R87). -/
def arithTraps (a : Word) (f : FlagSet) : Bool := decide (f &&& arithTE a ≠ 0#6)

/-- A SYSWR of ARITH: RW fields take the value, FLAGS clear where it holds 1, RZ bits stay zero (R85, R398). -/
def arithWrite (old new : Word) : Word :=
  (new &&& arithRW) ||| (old &&& 0x3F0000#64 &&& ~~~new)

end Sys2Proof.Machine
end

