-- ==== Sys2Proof/Machine/Numbers.lean ====
section
/-! DEFINITION. Formats, exact values, the one rounding, and the sums of the manual (R80 to R84, R88 to R101). An exact
value is `m × 2^e` with `m` a natural number, its sign apart; `sticky` stands for a further amount below every bit of `m`. -/

namespace Sys2Proof.Machine

/-! ### Formats (R82) -/

/-- A floating format: the width of its exponent and fraction, its bias, and whether it is E4M3, which has no infinity. -/
structure Fmt where
  eb : Nat
  fb : Nat
  bias : Int
  e4m3 : Bool := false
deriving DecidableEq, Repr

/-- FP64. -/
def fp64 : Fmt := { eb := 11, fb := 52, bias := 1023 }
/-- FP32. -/
def fp32 : Fmt := { eb := 8, fb := 23, bias := 127 }
/-- FP16. -/
def fp16 : Fmt := { eb := 5, fb := 10, bias := 15 }
/-- BF16. -/
def bf16 : Fmt := { eb := 8, fb := 7, bias := 127 }
/-- FP8 E5M2. -/
def e5m2 : Fmt := { eb := 5, fb := 2, bias := 15 }
/-- FP8 E4M3. -/
def e4m3 : Fmt := { eb := 4, fb := 3, bias := 7, e4m3 := true }

/-- The width of a format. -/
def Fmt.width (f : Fmt) : Nat := 1 + f.eb + f.fb

/-- The exponent of the smallest normal. -/
def Fmt.emin (f : Fmt) : Int := 1 - f.bias

/-- The sign bit of a format. -/
def Fmt.signBit (f : Fmt) : Nat := 2 ^ (f.eb + f.fb)

/-- The largest finite magnitude as bits. -/
def Fmt.maxBits (f : Fmt) : Nat := if f.e4m3 then 0x7E else (2 ^ f.eb - 1) * 2 ^ f.fb - 1

/-- The infinity as bits; E4M3 has none and takes its NaN. -/
def Fmt.infBits (f : Fmt) : Nat := if f.e4m3 then 0x7F else (2 ^ f.eb - 1) * 2 ^ f.fb

/-- The canonical NaN (R83). -/
def Fmt.nanBits (f : Fmt) : Nat := if f.e4m3 then 0x7F else (2 ^ f.eb - 1) * 2 ^ f.fb + 2 ^ (f.fb - 1)

/-- The magnitude bits with a sign. -/
def Fmt.signed (f : Fmt) (neg : Bool) (mag : Nat) : Nat := if neg then mag + f.signBit else mag

/-! ### Values -/

/-- The value of a floating pattern: NaN, an infinity, or `± m × 2^e`. -/
inductive Num where
  | nan
  | inf (neg : Bool)
  | fin (neg : Bool) (m : Nat) (e : Int)
deriving DecidableEq, Repr

/-- The value of a pattern (R82); with `ftz` a subnormal reads as a zero of its sign (R90). -/
def Fmt.decode (f : Fmt) (ftz : Bool) (x : Nat) : Num :=
  let neg := x.testBit (f.eb + f.fb)
  let ef := bits x f.fb f.eb
  let fr := bits x 0 f.fb
  if f.e4m3 then
    if ef = 15 ∧ fr = 7 then .nan
    else if ef = 0 then .fin neg (if ftz then 0 else fr) (f.emin - f.fb)
    else .fin neg (2 ^ f.fb + fr) ((ef : Int) - f.bias - f.fb)
  else if ef = 2 ^ f.eb - 1 then (if fr = 0 then .inf neg else .nan)
  else if ef = 0 then .fin neg (if ftz then 0 else fr) (f.emin - f.fb)
  else .fin neg (2 ^ f.fb + fr) ((ef : Int) - f.bias - f.fb)

/-- A pattern as an arithmetic form reads it: with `ftz` a subnormal is a zero of its sign (R90). -/
def Fmt.flushed (f : Fmt) (ftz : Bool) (x : Nat) : Nat :=
  if ftz && decide (bits x f.fb f.eb = 0) then f.signed (x.testBit (f.eb + f.fb)) 0 else x

/-- The value with its sign changed. -/
def Num.neg : Num → Num
  | .nan => .nan
  | .inf s => .inf (!s)
  | .fin s m e => .fin (!s) m e

/-- Whether a value is a NaN. -/
def Num.isNan : Num → Bool
  | .nan => true
  | .inf _ | .fin _ _ _ => false

/-- Whether a value is a zero. -/
def Num.isZero : Num → Bool
  | .fin _ m _ => decide (m = 0)
  | .nan | .inf _ => false

/-- Whether a value is an infinity. -/
def Num.isInf : Num → Bool
  | .inf _ => true
  | .nan | .fin _ _ _ => false

/-- The sign of a value. -/
def Num.isNeg : Num → Bool
  | .inf s => s
  | .fin s _ _ => s
  | .nan => false

/-! ### Rounding (R88, R89) -/

/-- The number of bits of a natural number. -/
def bitLen (n : Nat) : Nat := if n = 0 then 0 else Nat.log2 n + 1

/-- Whether rounding away from zero is due, by the mode, the sign, the last bit kept, and whether the part cut off is
nothing, and how it compares with a half. -/
def roundsUp (mode : Round) (neg odd : Bool) (exact : Bool) (half : Ordering) : Bool :=
  match mode with
  | .near => match half with
    | .gt => true
    | .eq => odd
    | .lt => false
  | .zero | .stoch => false
  | .up => !neg && !exact
  | .down => neg && !exact

/-- `m × 2^e` (and a little more when `sticky`) as a multiple of `2^q`: the multiple, rounded, and whether it is exact. -/
def roundAt (mode : Round) (neg : Bool) (m : Nat) (e : Int) (sticky : Bool) (q : Int) : Nat × Bool :=
  if q ≤ e then
    let n := m * 2 ^ (e - q).toNat
    (if roundsUp mode neg (n % 2 = 1) (!sticky) .lt then n + 1 else n, !sticky)
  else
    let k := (q - e).toNat
    let n := m / 2 ^ k
    let r := m % 2 ^ k
    let exact := decide (r = 0) && !sticky
    let half := 2 ^ (k - 1)
    let ord := if r < half then Ordering.lt else if r = half then (if sticky then .gt else .eq) else .gt
    (if roundsUp mode neg (n % 2 = 1) exact ord then n + 1 else n, exact)

/-- The bits of a magnitude `n × 2^q` on the grid of a format, `n` of at most `fb + 1` bits. -/
def Fmt.pack (f : Fmt) (n : Nat) (q : Int) : Nat :=
  if n < 2 ^ f.fb then n
  else (q + f.fb + f.bias).toNat * 2 ^ f.fb + (n - 2 ^ f.fb)

/-- What overflow delivers (R89). -/
def Fmt.overflow (f : Fmt) (mode : Round) (neg : Bool) : Nat :=
  f.signed neg (match mode with
    | .near | .stoch => f.infBits
    | .zero => f.maxBits
    | .up => if neg then f.maxBits else f.infBits
    | .down => if neg then f.infBits else f.maxBits)

/-- round(x, fmt, mode) of a non-zero `± m × 2^e` with its flags (R88 to R90). -/
def Fmt.round (f : Fmt) (mode : Round) (ftz neg : Bool) (m : Nat) (e : Int) (sticky : Bool := false) : Nat × FlagSet :=
  let top := e + bitLen m - 1
  let q := top - f.fb
  let r := roundAt mode neg m e sticky q
  -- a carry out of the fraction moves to the next binade
  let n := if r.1 = 2 ^ (f.fb + 1) then 2 ^ f.fb else r.1
  let q' := if r.1 = 2 ^ (f.fb + 1) then q + 1 else q
  if q' + f.fb < f.emin then
    -- tiny: on the subnormal grid
    if ftz then (f.signed neg 0, fUF ||| fNX)
    else
      let t := roundAt mode neg m e sticky (f.emin - f.fb)
      (f.signed neg (f.pack t.1 (f.emin - f.fb)), if t.2 then noFlags else fUF ||| fNX)
  else
    let bits := f.pack n q'
    if bits > f.maxBits then (f.overflow mode neg, fOF ||| fNX)
    else (f.signed neg bits, flagIf (!r.2) fNX)

/-! ### Exact sums and their rounding (R100, R101) -/

/-- An exact dyadic number `m × 2^e`. -/
structure Dyad where
  m : Int
  e : Int
deriving DecidableEq, Repr

/-- The exact sum of two dyadic numbers. -/
def Dyad.add (a b : Dyad) : Dyad :=
  if a.e ≤ b.e then { m := a.m + b.m * 2 ^ (b.e - a.e).toNat, e := a.e }
  else { m := a.m * 2 ^ (a.e - b.e).toNat + b.m, e := b.e }

/-- A finite value as a dyadic number; NaN and infinities count as nothing here. -/
def Num.dyad : Num → Dyad
  | .fin s m e => { m := if s then -(m : Int) else m, e := e }
  | .nan | .inf _ => { m := 0, e := 0 }

/-- A product, and whether it is 0 × ∞ (R100). -/
def Num.mul (a b : Num) : Num × Bool :=
  match a, b with
  | .nan, _ => (.nan, false)
  | _, .nan => (.nan, false)
  | .inf s, .inf t => (.inf (s != t), false)
  | .inf s, .fin t m _ => if m = 0 then (.nan, true) else (.inf (s != t), false)
  | .fin s m _, .inf t => if m = 0 then (.nan, true) else (.inf (s != t), false)
  | .fin s m e, .fin t n g => (.fin (s != t) (m * n) (e + g), false)

/-- What a sum needs to know of its terms, gathered in one pass. -/
structure Terms where
  nan : Bool := false
  iv : Bool := false
  pinf : Bool := false
  ninf : Bool := false
  allNegZero : Bool := true
  sum : Dyad := { m := 0, e := 0 }
deriving DecidableEq, Repr

/-- One more term, with whether it is a product 0 × ∞. -/
def Terms.push (t : Terms) (x : Num) (iv : Bool) : Terms :=
  match x with
  | .nan => { t with nan := true, iv := t.iv || iv, allNegZero := false }
  | .inf s => { t with pinf := t.pinf || !s, ninf := t.ninf || s, allNegZero := false }
  | .fin s m _ =>
    { t with sum := if m = 0 then t.sum else t.sum.add x.dyad, allNegZero := t.allNegZero && s && decide (m = 0) }

/-- round(x, fmt, mode) of a dyadic number that is not zero. -/
def Fmt.roundDyad (f : Fmt) (mode : Round) (ftz : Bool) (d : Dyad) : Nat × FlagSet :=
  f.round mode ftz (decide (d.m < 0)) d.m.natAbs d.e

/-- The zero of a format with the sign that R101 gives. -/
def Fmt.zeroSign (f : Fmt) (allNegZero : Bool) (mode : Round) : Nat :=
  f.signed (allNegZero || (match mode with | .down => true | .near | .zero | .up | .stoch => false)) 0

/-- The result of a sum in a floating format (R100). -/
def Fmt.sum (f : Fmt) (mode : Round) (ftz : Bool) (t : Terms) : Nat × FlagSet :=
  if t.nan then (f.nanBits, flagIf (t.iv || (t.pinf && t.ninf)) fIV)
  else if t.pinf && t.ninf then (f.nanBits, fIV)
  else if t.pinf then (f.signed false f.infBits, noFlags)
  else if t.ninf then (f.signed true f.infBits, noFlags)
  else if t.sum.m = 0 then (f.zeroSign t.allNegZero mode, noFlags)
  else f.roundDyad mode ftz t.sum

/-- round(a + b) (R101 for its zero). -/
def Fmt.add (f : Fmt) (mode : Round) (ftz : Bool) (a b : Nat) : Nat × FlagSet :=
  f.sum mode ftz ((({} : Terms).push (f.decode ftz a) false).push (f.decode ftz b) false)

/-- round(a − b), the subtrahend negated first. -/
def Fmt.sub (f : Fmt) (mode : Round) (ftz : Bool) (a b : Nat) : Nat × FlagSet :=
  f.sum mode ftz ((({} : Terms).push (f.decode ftz a) false).push (f.decode ftz b).neg false)

/-- round(exact_sum(± a × b, c)). -/
def Fmt.fma (f : Fmt) (mode : Round) (ftz negate : Bool) (a b c : Nat) : Nat × FlagSet :=
  let p := (f.decode ftz a).mul (f.decode ftz b)
  f.sum mode ftz ((({} : Terms).push (if negate then p.1.neg else p.1) p.2).push (f.decode ftz c) false)

/-- round(a × b): a zero product keeps the sign of its factors. -/
def Fmt.mul (f : Fmt) (mode : Round) (ftz : Bool) (a b : Nat) : Nat × FlagSet :=
  match (f.decode ftz a).mul (f.decode ftz b) with
  | (.nan, iv) => (f.nanBits, flagIf iv fIV)
  | (.inf s, _) => (f.signed s f.infBits, noFlags)
  | (.fin s m e, _) => if m = 0 then (f.signed s 0, noFlags) else f.round mode ftz s m e

/-! ### Comparison, minimum and maximum (R84) -/

/-- `a < b` on values that are not NaN; −0 and +0 are equal. -/
def Num.lt (a b : Num) : Bool :=
  match a, b with
  | .nan, _ | _, .nan => false
  | .inf s, .inf t => s && !t
  | .inf s, .fin _ _ _ => s
  | .fin _ _ _, .inf t => !t
  | .fin _ _ _, .fin _ _ _ => decide ((a.dyad.add b.neg.dyad).m < 0)

/-- `a = b` on values that are not NaN. -/
def Num.eq (a b : Num) : Bool :=
  match a, b with
  | .nan, _ | _, .nan => false
  | _, _ => !a.lt b && !b.lt a

/-- The minimum or maximum form: the operand that is not NaN, −0 below +0, the canonical NaN of two NaNs; what is delivered
is the operand as read. -/
def Fmt.minMax (f : Fmt) (ftz wantMax : Bool) (a b : Nat) : Nat :=
  let x := f.decode ftz a
  let y := f.decode ftz b
  let bitsOf (v : Num) (raw : Nat) : Nat :=
    match v with
    | .fin s 0 _ => f.signed s 0
    | .fin _ (_ + 1) _ | .inf _ | .nan => raw
  if x.isNan && y.isNan then f.nanBits
  else if x.isNan then bitsOf y b
  else if y.isNan then bitsOf x a
  else
    let less := x.lt y || (x.eq y && x.isNeg && !y.isNeg)
    if less != wantMax then bitsOf x a else bitsOf y b

/-! ### Integers (R81) -/

/-- A pattern of width `w` as a number of its type. -/
def intOf (w : Nat) (signed : Bool) (x : Nat) : Int :=
  let v := x % 2 ^ w
  if signed && x.testBit (w - 1) then (v : Int) - (2 ^ w : Nat) else v

/-- A number as a pattern of width `w`: modulo `2^w`. -/
def wrapTo (w : Nat) (v : Int) : Nat := (v % (2 ^ w : Nat)).toNat

/-- The least number of a type. -/
def intMin (w : Nat) (signed : Bool) : Int := if signed then -(2 ^ (w - 1) : Nat) else 0

/-- The greatest number of a type. -/
def intMax (w : Nat) (signed : Bool) : Int := if signed then (2 ^ (w - 1) : Nat) - 1 else (2 ^ w : Nat) - 1

/-- sat(v, type), and whether the clamp acted (R81). -/
def satTo (w : Nat) (signed : Bool) (v : Int) : Int × Bool :=
  if v < intMin w signed then (intMin w signed, true)
  else if v > intMax w signed then (intMax w signed, true) else (v, false)

/-! ### Conversions (R93 to R95) -/

/-- A finite value rounded to an integer, and whether it is exact. -/
def Num.toInt (mode : Round) : Num → Int × Bool
  | .fin s m e =>
    let r := roundAt mode s m e false 0
    (if s then -(r.1 : Int) else r.1, r.2)
  | .nan | .inf _ => (0, true)

/-- A conversion to an integer type (R95). -/
def Num.toIntTy (mode : Round) (w : Nat) (signed : Bool) (x : Num) : Nat × FlagSet :=
  match x with
  | .nan => (0, fIV)
  | .inf s => (wrapTo w (if s then intMin w signed else intMax w signed), fIV)
  | .fin _ _ _ =>
    let r := x.toInt mode
    let t := satTo w signed r.1
    (wrapTo w t.1, if t.2 then fIV else flagIf (!r.2) fNX)

/-- A conversion between floating formats that never saturates (R93). -/
def Fmt.ofNum (f : Fmt) (mode : Round) (ftz : Bool) (x : Num) : Nat × FlagSet :=
  match x with
  | .nan => (f.nanBits, noFlags)
  | .inf s => (f.signed s f.infBits, noFlags)
  | .fin s m e => if m = 0 then (f.signed s 0, noFlags) else f.round mode ftz s m e

/-- A conversion from an integer (R93). -/
def Fmt.ofInt (f : Fmt) (mode : Round) (ftz : Bool) (v : Int) : Nat × FlagSet :=
  f.ofNum mode ftz (.fin (decide (v < 0)) v.natAbs 0)

/-- A conversion to E4M3 or E5M2 (R94). -/
def Fmt.ofNum8 (f : Fmt) (mode : Round) (ftz nosat : Bool) (x : Num) : Nat × FlagSet :=
  let clamp (s : Bool) : Nat × FlagSet :=
    (if nosat then (if f.e4m3 then f.nanBits else f.overflow mode s) else f.signed s f.maxBits, fOF ||| fNX)
  match x with
  | .nan => (f.nanBits, noFlags)
  | .inf s => if nosat && !f.e4m3 then (f.signed s f.infBits, noFlags) else clamp s
  | .fin s m e =>
    if m = 0 then (f.signed s 0, noFlags)
    else
      let r := f.round mode ftz s m e
      if r.2 &&& fOF ≠ 0#6 then clamp s else r

/-! ### Stochastic rounding (R91, R92) -/

/-- One advance of a lane's generator. -/
def genNext (g0 : BitVec 32) : BitVec 32 :=
  let g1 := g0 ^^^ (g0 <<< 13)
  let g2 := g1 ^^^ (g1 >>> 17)
  g2 ^^^ (g2 <<< 5)

/-- Stochastic rounding of a finite non-zero value under drawn bits (R92): the magnitude on the format's grid, with the
exponent unbounded above, as bits, whether it overflows, and the flags. -/
def Fmt.roundStoch (f : Fmt) (ftz neg : Bool) (m : Nat) (e : Int) (g : BitVec 32) : Nat × Bool × FlagSet :=
  let top := e + bitLen m - 1
  let q := max (top - f.fb) (f.emin - f.fb)
  let scaled (k : Int) : Nat × Nat := -- floor of m × 2^e / 2^k, and the rest over 2^16 with what remains
    if k ≤ e then (m * 2 ^ (e - k).toNat, 0) else (m / 2 ^ (k - e).toNat, m % 2 ^ (k - e).toNat)
  let t := scaled q
  let d := if q ≤ e then 0 else t.2 * 2 ^ 16 / 2 ^ (q - e).toNat
  let up := decide (2 ^ 16 ≤ d + fld g 16 16)
  let n := if up then t.1 + 1 else t.1
  let exact := decide (t.2 = 0) && !up
  let n' := if n = 2 ^ (f.fb + 1) then 2 ^ f.fb else n
  let q' := if n = 2 ^ (f.fb + 1) then q + 1 else q
  let bits := f.pack n' q'
  let tiny := decide (n' < 2 ^ f.fb)
  if bits > f.maxBits then (f.maxBits, true, fOF ||| fNX)
  else if tiny && ftz then (f.signed neg 0, false, fUF ||| fNX)
  else (f.signed neg bits, false, if exact then noFlags else if tiny then fUF ||| fNX else fNX)

/-- A stochastic conversion to BF16 or FP16, or to an 8-bit format with its NOSAT (R92, R94). -/
def Fmt.ofNumStoch (f : Fmt) (ftz nosat : Bool) (x : Num) (g : BitVec 32) : Nat × FlagSet :=
  let eight := decide (f.width = 8)
  let clamp (s : Bool) : Nat :=
    if eight then (if nosat then (if f.e4m3 then f.nanBits else f.signed s f.infBits) else f.signed s f.maxBits)
    else f.signed s f.infBits
  match x with
  | .nan => (f.nanBits, noFlags)
  | .inf s => if eight && !(nosat && !f.e4m3) then (clamp s, fOF ||| fNX) else (f.signed s f.infBits, noFlags)
  | .fin s m e =>
    if m = 0 then (f.signed s 0, noFlags)
    else
      let r := f.roundStoch ftz s m e g
      if r.2.1 then (clamp s, r.2.2) else (r.1, r.2.2)

/-! ### FX64 (R99) -/

/-- The two bounds of I64. -/
def fxBound (n : Int) : Bool := decide (n = intMin 64 true) || decide (n = intMax 64 true)

/-- An FX64 addition onto a receiving operand (R99). -/
def fxAdd (recv addend : Int) : Int × FlagSet :=
  if fxBound recv then (recv, fSAT)
  else
    let r := (satTo 64 true (recv + addend)).1
    (r, flagIf (fxBound r) fSAT)

/-- sat(round(x × 2^p, integer, to nearest even)) of a finite value, whether the clamp acted, and whether it is exact. -/
def Num.toFx (x : Num) (p : Nat) : Int × Bool × Bool :=
  match x with
  | .nan | .inf _ => (0, false, true)
  | .fin s m e =>
    let r := roundAt .near s m (e + p) false 0
    let t := satTo 64 true (if s then -(r.1 : Int) else r.1)
    (t.1, t.2, r.2)

end Sys2Proof.Machine
end

