-- ==== Sys2Proof/Machine/Capacity.lean ====
section
/-! DEFINITION. Operating points, row floors, capacity and the rows that units hold (R12, R371 to R373, R376, R194, R290), and
the cap of a core's memory requests (R385). -/

namespace Sys2Proof.Machine

/-- The state with the power part changed. -/
def State.withPower (s : State) (p : Power) : State := { s with power := p }

/-- The operating point of a voltage domain (R369); OP0 until it is raised (R454). -/
def State.opOf (s : State) (d : Nat) : Nat := NatMap.findD 0 d s.power.op

/-- The state with an operating point replaced. -/
def State.setOp (s : State) (d k : Nat) : State := { s with power := { s.power with op := NatMap.putD 0 d k s.power.op } }

/-- The floor of a physical row, as the loaded blob gives it (R371). -/
def State.floorOf (s : State) (c row : Nat) : Nat := Config.blobFloor s.power.blob c row % 8

/-- How many of `n` rows from `lo` have a floor of at most `k`. -/
def State.rowsUpTo (s : State) (c k lo : Nat) : Nat → Nat
  | 0 => 0
  | n + 1 => b2n (decide (s.floorOf c lo ≤ k)) + State.rowsUpTo s c k (lo + 1) n

/-- CAPROWS(k) of a core (R372). -/
def State.capRowsAt (s : State) (c k : Nat) : Nat := min 8192 (s.rowsUpTo c k 0 8704)

/-- The pending step of an SRAM domain (R376). -/
def State.stepOf (s : State) (d : Nat) : Option Step := NatMap.find d s.power.steps

/-- The pending step of an SRAM domain changed. -/
def State.modStep (s : State) (d : Nat) (f : Step → Step) : State :=
  match s.stepOf d with
  | some t => { s with power := { s.power with steps := NatMap.put d (f t) s.power.steps } }
  | none => s

/-- CAPROWS of a core at its domain's current point (R372). -/
def State.capRows (s : State) (c : Nat) : Nat := s.capRowsAt c (s.opOf (sramDomain (quadOf c)))

/-- The rows that admission counts on: C' while a step is pending (R376). -/
def State.admitRows (s : State) (c : Nat) : Nat :=
  match s.stepOf (sramDomain (quadOf c)) with
  | some t => s.capRowsAt c t.target
  | none => s.capRows c

/-- The physical row that the blob's table gives a logical row (R454). -/
def State.blobRow (s : State) (c i : Nat) : Nat := Config.blobRow s.power.blob c i % 8704

/-- Whether the blob's table is one that R373 allows: the physical rows are distinct, and at every point the rows below CAPROWS lie on rows that
hold data there. -/
def State.tableGood (s : State) (c : Nat) : Bool :=
  decide ((upFrom 0 8192).map (s.blobRow c)).Nodup
    && (upFrom 0 8).all fun k => (upFrom 0 (s.capRowsAt c k)).all fun i => decide (s.floorOf c (s.blobRow c i) ≤ k)

/-- The physical rows of a core in the order of their floors. -/
def State.rowsByFloor (s : State) (c : Nat) : List Nat :=
  (upFrom 0 8).flatMap fun k => (upFrom 0 8704).filter fun r => decide (s.floorOf c r = k)

/-- The physical row that a logical row maps to (R373): as the blob's table has it, or by floors where that table is none that R373 allows (R454;
log entry 11), unless the evacuation engine has moved it. -/
def State.physRow (s : State) (c i : Nat) : Nat :=
  (NatMap.find (c * 8192 + i) s.power.remap).getD (if s.tableGood c then s.blobRow c i else (s.rowsByFloor c).getD i 0)

/-! ### Rows (R194, R290, R310) -/

/-- The units that hold rows on a core. -/
def State.holders (s : State) (c : Nat) : List (Nat × Uni) :=
  s.hub.units.filter fun u => decide (u.2.core = c) && decide (0 < u.2.rows)

/-- The rows of a core that units hold. -/
def State.rowsHeld (s : State) (c : Nat) : Nat := sumOf (fun u => u.2.rows) (s.holders c)

/-- The rows of a core free for admission: freed rows count once they are zeroed (R285, R290). -/
def State.rowsFree (s : State) (c : Nat) : Nat := s.admitRows c - s.rowsHeld c - NatMap.findD 0 c s.hub.freedRows

/-- The lowest base at which `n` rows fit beside the rows held, tried at 0 and after each holder. -/
def State.rowGap (s : State) (c n : Nat) : Option Nat :=
  let hs := s.holders c
  let tops := 0 :: hs.map fun u => u.2.rowBase + u.2.rows
  tops.find? fun b =>
    decide (b + n ≤ s.admitRows c) && hs.all fun u => decide (b + n ≤ u.2.rowBase) || decide (u.2.rowBase + u.2.rows ≤ b)

/-- The allocations of a core moved together from row 0 up (R194: no offset and no value changes). -/
def State.compact (s : State) (c : Nat) : List (Nat × Uni) → Nat → State
  | [], _ => s
  | u :: us, b => State.compact (s.setUnit u.1 { u.2 with rowBase := b }) c us (b + u.2.rows)

/-- The logical rows of a core that units hold. -/
def State.rowsInUse (s : State) (c : Nat) : List Nat := (s.holders c).flatMap fun u => upFrom u.2.rowBase u.2.rows

/-- A physical row of a core with a floor of at most `k` that no row in use maps to (R373). -/
def State.freePhys (s : State) (c k : Nat) : Option Nat :=
  let used := (s.rowsInUse c).map fun r => s.physRow c r
  (upFrom 0 8704).find? fun r => decide (s.floorOf c r ≤ k) && !used.contains r

/-- A logical row remapped to a free physical row; the logical row that held that one takes the old one (R373, R377). -/
def State.remapRow (s : State) (c row r : Nat) : State :=
  let old := s.physRow c row
  let other := (upFrom 0 8192).find? fun i => decide (s.physRow c i = r)
  let m := NatMap.put (c * 8192 + row) r s.power.remap
  s.withPower { s.power with remap := match other with | some i => NatMap.put (c * 8192 + i) old m | none => m }

/-- Rows of a core mapped to physical rows that hold data at a point (R373). -/
def State.sinkRows (s : State) (c k : Nat) : List Nat → State
  | [] => s
  | r :: rs =>
    let t := if s.floorOf c (s.physRow c r) ≤ k then s else match s.freePhys c k with
      | some p => s.remapRow c r p
      | none => s
    State.sinkRows t c k rs

/-- Rows allocated while a step is pending mapped to rows at or below its target (R373). -/
def State.sinkPending (s : State) (c : Nat) (rs : List Nat) : State :=
  match s.stepOf (sramDomain (quadOf c)) with
  | some t => s.sinkRows c t.target rs
  | none => s

/-- Rows given to a unit on a core (R194, R373). -/
def State.giveRows (s : State) (u c n : Nat) : State :=
  if n = 0 then s.modUnit u fun x => { x with core := c, rows := 0, rowBase := 0 }
  else
    match s.rowGap c n with
    | some b => (s.modUnit u fun x => { x with core := c, rows := n, rowBase := b }).sinkPending c (upFrom b n)
    | none =>
      let s1 := s.compact c (s.holders c) 0
      let s2 := s1.modUnit u fun x => { x with core := c, rows := n, rowBase := s1.rowsHeld c }
      s2.sinkPending c (s2.rowsInUse c)

/-- Rows taken back from a unit: the evacuation engine zeroes them before they count as free (R285). -/
def State.freeRows (s : State) (u : Nat) : State :=
  match s.unitAt u with
  | some x =>
    if x.rows = 0 then s
    else
      let s1 := s.setUnit u { x with rows := 0, rowBase := 0 }
      let n := NatMap.findD 0 x.core s1.hub.freedRows + x.rows
      (s1.withHub { s1.hub with freedRows := NatMap.putD 0 x.core n s1.hub.freedRows }).addDue [.freedRowsZeroed x.core x.rows]
  | none => s

/-! ### Memory requests (R385) -/

/-- The memory-request cap of a partition, as the tightenings from 64 (R385). -/
def State.capOf (s : State) (p : Nat) : Nat := NatMap.findD 0 p s.power.cap

/-- The largest number of memory requests that a core may have outstanding (R385); the ranger core belongs to no partition and has no cap. -/
def State.requestCap (s : State) (c : Nat) : Option Nat := (s.ownerOfQuad (quadOf c)).bind fun p => if c < 256 then some (64 / 2 ^ s.capOf p) else none

/-- The entries of a queue that are reserved and not ready: those from the first without its data on (R203). -/
def Queue.unready (q : Queue) : List QEntry := q.entries.dropWhile QEntry.filled

/-- Whether an entry stands for a memory request: one of a queue load, GATHER, GET, SPAWN, BAR or PHASE, and so none of GLOPEN (R385). -/
def Core.isRequest (x : Core) (e : QEntry) : Bool :=
  decide (e.kind = .load ∨ e.kind = .work) && !x.gl.toList.any fun g => decide (g.entry = some e.id)

/-- The chunks of a core's records and PUTs that are on their way. -/
def State.chunksOut (s : State) (c : Nat) : Nat :=
  sumOf (fun x => if x.2.core = c ∧ ¬ x.2.isGet then x.2.sentOut.length else 0) s.hub.xfers

/-- The memory requests that a core has outstanding (R385): entries, fills of stash lines, and chunks. An atomic is performed as it issues. -/
def State.outstanding (s : State) (c : Nat) : Nat :=
  let x := s.coreAt c
  sumOf (fun q => (q.unready.filter x.isRequest).length) x.q.toList
    + (s.due.filter fun a => match a with | .stashFill d _ _ => decide (d = c) | _ => false).length + s.chunksOut c

/-- Whether a core may have one more request outstanding. -/
def State.requestRoom (s : State) (c : Nat) : Bool :=
  match s.requestCap c with
  | some k => decide (s.outstanding c < k)
  | none => true

/-- Whether what a bundle of the sequencer in focus adds to a state passes the cap. -/
def State.overCap (s t : State) : Bool :=
  match s.requestCap s.cur with
  | some k => decide (s.outstanding s.cur < t.outstanding s.cur) && decide (k < t.outstanding s.cur)
  | none => false

end Sys2Proof.Machine
end

