-- ==== Sys2Proof/Machine/Memory.lean ====
section
/-! DEFINITION. Device memory with the timestamps of its lines (R208, R209, R211, R212, R217 to R219, R222, R227): the home
slice of an address, loads, commits and weak writes as the home slices perform them. -/

namespace Sys2Proof.Machine

/-- The 64-byte line of a physical address. -/
def lineOf (pa : Nat) : Nat := pa / 64

/-! ### Homes (R208, R209) -/

/-- Whether an address-range entry is valid: V set, a stride below 14, slices named, LIMIT not below BASE (R208). -/
def artValid (e : BitVec 256) : Bool :=
  e.getLsbD 0 && decide (fld e 1 4 < 14) && decide (fld e 128 64 ≠ 0) && decide (fld e 16 48 * 2 ^ 16 ≤ fld e 64 64)

/-- Whether the range of an entry holds an address. -/
def artHolds (e : BitVec 256) (a : Nat) : Bool :=
  artValid e && decide (fld e 16 48 * 2 ^ 16 ≤ a) && decide (a ≤ fld e 64 64)

/-- The lowest-numbered valid entry that holds an address (R208). -/
def State.artOf (s : State) (a : Nat) : Option (BitVec 256) := s.hub.art.toList.find? fun e => artHolds e a

/-- The slices of an entry in increasing order. -/
def artSlices (e : BitVec 256) : List Nat := (upFrom 0 64).filter fun i => e.getLsbD (128 + i)

/-- The default hash (R209). -/
def defaultHome (a : Nat) : Nat :=
  bits a 8 6 ^^^ bits a 14 6 ^^^ bits a 20 6 ^^^ bits a 26 6 ^^^ bits a 32 6 ^^^ bits a 38 6

/-- The home slice of a physical address (R208, R209). -/
def State.homeOf (s : State) (a : Nat) : Nat :=
  match s.artOf a with
  | some e =>
    let ts := artSlices e
    ts.getD ((a - fld e 16 48 * 2 ^ 16) / 2 ^ (fld e 1 4 + 8) % ts.length) 0
  | none => defaultHome a

/-- The HBM stack of a physical address (R209). -/
def hbmStack (p : Nat) : Nat := bits p 12 3 ^^^ bits p 21 3

/-! ### Timestamps (R218) -/

/-- The larger of two times. -/
def wmax (a b : Word) : Word := if a.toNat ≤ b.toNat then b else a

/-- The timestamps of a line. -/
def State.tsAt (s : State) (line : Nat) : LineTs := NatMap.findD {} line s.hub.ts

/-- The state with the timestamps of a line replaced. -/
def State.setTs (s : State) (line : Nat) (t : LineTs) : State := s.withHub { s.hub with ts := NatMap.putD {} line t s.hub.ts }

/-- A load performed at the home slice at the reader's `pts`: the line's rts rises to the load's time, and that time is
the reader's new pts (R219). -/
def State.loadTs (s : State) (pts : Word) (line : Nat) : State × Word :=
  let t := s.tsAt line
  let now := wmax pts t.wts
  (s.setTs line { t with rts := wmax t.rts now }, now)

/-- Loads performed on a list of lines in order. -/
def State.loadTsAll (s : State) (pts : Word) : List Nat → State × Word
  | [] => (s, pts)
  | l :: ls =>
    let r := s.loadTs pts l
    State.loadTsAll r.1 r.2 ls

/-- The distinct neighbours of a list of lines. -/
def squeeze : List Nat → List Nat
  | [] => []
  | x :: xs =>
    match squeeze xs with
    | [] => [x]
    | y :: ys => if x = y then y :: ys else x :: y :: ys

/-- The lines of a run of bytes. -/
def linesOf (pa n : Nat) : List Nat := if n = 0 then [] else upFrom (lineOf pa) (lineOf (pa + n - 1) - lineOf pa + 1)

/-! ### Regions (R211, R212) -/

/-- The 2 MiB region of a physical address. -/
def regionOf (pa : Nat) : Nat := pa / 2 ^ 21

/-- The region's state after an access by a stack at a time, by the table of R212. The line timestamps stand at
the home slices in every state, those that leases gave among them, so a transition has none to set: it changes no value and no order (R212; log
entry 117). -/
def regionStep (r : Region) (stack : Nat) (write : Bool) (t : Word) (now : Nat) : Region :=
  match r with
  | .dp none _ => .dp (some stack) write
  | .dp (some o) w =>
    if o = stack then .dp (some o) (w || write)
    else if w || write then .ft [stack] write now
    else .rs t
  | .rs lease => if write then .ft [stack] true now else .rs (wmax lease t)
  | .ft touched wrote since => .ft (if touched.contains stack then touched else touched ++ [stack]) (wrote || write) since

/-- Whether a region is in state FT. -/
def Region.isFt : Region → Bool
  | .ft _ _ _ => true
  | .dp _ _ | .rs _ => false

/-- A region's state changed on demand, before an access is performed (R212): an access through a coherent page (R211). -/
def State.touch (s : State) (coherent : Bool) (pa stack : Nat) (write : Bool) (t : Word) : State :=
  if !coherent then s else
  let k := regionOf pa
  let old := NatMap.findD (.dp none false) k s.hub.regions
  let new := regionStep old stack write t s.time
  let s1 := s.withHub { s.hub with regions := NatMap.put k new s.hub.regions }
  if new.isFt && !old.isFt then s1.addDue [.regionFtTimeout k] else s1

/-! ### Bytes -/

/-- `n` bytes at a physical address: the current value (R226). -/
def State.readMem (s : State) (pa n : Nat) : List Byte := cellsAt s.mem pa n

/-- A number of `n` bytes at a physical address. -/
def State.readNat (s : State) (pa n : Nat) : Nat := loadNat s.mem pa n

/-- The first of some addresses that lies in a word with an uncorrectable error (R446). -/
def State.struck (s : State) (pas : List Nat) : Option Nat := if s.hub.bad.isEmpty then none else pas.find? fun a => s.hub.bad.contains (a / 32)

/-- Memory with cells written: a write of every byte of a protected word clears its error (R446). -/
def State.putCells (s : State) (cs : List Host.Cell) : State :=
  let whole (w : Nat) : Bool := (upFrom (32 * w) 32).all fun a => cs.any fun c => decide (c.1 = a)
  { s with mem := cellsPut s.mem cs, hub := { s.hub with bad := s.hub.bad.filter fun w => !whole w } }

/-- The state with bytes written, timestamps left alone. -/
def State.poke (s : State) (pa : Nat) (bs : List Byte) : State := { s with mem := cellsSet s.mem pa bs }

/-- A weak write on one line: its timestamps rise as R227 gives. -/
def weakTs (t : LineTs) : LineTs :=
  let w := wmax (t.rts + 1#64) t.wts
  { wts := w, rts := w }

/-- Weak timestamps on a list of lines, with the largest wts. -/
def State.weakTsAll (s : State) (top : Word) : List Nat → State × Word
  | [] => (s, top)
  | l :: ls =>
    let t := weakTs (s.tsAt l)
    State.weakTsAll (s.setTs l t) (wmax top t.wts) ls

/-- A weak write of a run of bytes (R227), with the largest wts it takes. -/
def State.weakWrite (s : State) (pa : Nat) (bs : List Byte) : State × Word :=
  let r := s.weakTsAll 0#64 (linesOf pa bs.length)
  (r.1.poke pa bs, r.2)

/-- A weak write whose time is not wanted. -/
def State.weakPoke (s : State) (pa : Nat) (bs : List Byte) : State := (s.weakWrite pa bs).1

/-- A weak write of `n` bytes that hold a number: the range is cleared and the bytes that are not zero are listed. -/
def putNz (m : List Host.Cell) (pa v : Nat) : Nat → List Host.Cell
  | 0 => m
  | n + 1 => if v = 0 then m else putNz (cellSet m pa (BitVec.ofNat 8 v)) (pa + 1) (v / 256) n

/-- Weak timestamps on `n` lines from `lo`, on a list that holds no line below `lo`. -/
def tsRun : Nat → Nat → NatMap LineTs → NatMap LineTs
  | 0, _, m => m
  | n + 1, lo, [] => (lo, weakTs {}) :: tsRun n (lo + 1) []
  | n + 1, lo, x :: xs =>
    if x.1 = lo then (lo, weakTs x.2) :: tsRun n (lo + 1) xs else (lo, weakTs {}) :: tsRun n (lo + 1) (x :: xs)

/-- Weak timestamps on `n` lines from `lo`. -/
def tsSpan (lo n : Nat) (m : NatMap LineTs) : NatMap LineTs :=
  (m.takeWhile fun x => decide (x.1 < lo)) ++ tsRun n lo (m.dropWhile fun x => decide (x.1 < lo))

/-- A weak write of the `n` low bytes of a number (R227). -/
def State.weakNat (s : State) (pa n v : Nat) : State :=
  if n = 0 then s
  else
    let ts := tsSpan (lineOf pa) (lineOf (pa + n - 1) - lineOf pa + 1) s.hub.ts
    { s with mem := putNz (cellsDrop pa n s.mem) pa v n, hub := { s.hub with ts := ts } }

end Sys2Proof.Machine
end

