-- ==== Sys2Proof/Machine/Translate.lean ====
section
/-! DEFINITION. Translation and page attributes: the walk (R359, R360), windows and address-range ownership, the translation
caches and the directory (R361 to R363), and the check of an access (R210, R238, R366). -/

namespace Sys2Proof.Machine

/-! ### Windows (R347, R359) -/

/-- Whether the bytes from `lo` up to `hi` are covered by ranges given as first and last byte; `fuel` bounds the chain. -/
def coveredBy (rs : List (Nat × Nat)) (lo hi : Nat) : Nat → Bool
  | 0 => decide (hi ≤ lo)
  | n + 1 =>
    if hi ≤ lo then true
    else
      match rs.find? fun r => decide (r.1 ≤ lo) && decide (lo ≤ r.2) with
      | some r => coveredBy rs (r.2 + 1) hi n
      | none => false

/-- The windows of a partition as first and last byte. -/
def PartDesc.ranges (d : PartDesc) : List (Nat × Nat) := d.windows.map fun w => (w.1 * 2 ^ 16, w.2 * 2 ^ 16 + 65535)

/-- Whether a range of bytes lies within the partition's windows. -/
def State.inWindows (s : State) (p lo n : Nat) : Bool := coveredBy (s.partAt p).ranges lo (lo + n) 9

/-- Whether an entry of another partition holds some byte of the range: an entry that no lower-numbered valid entry hides
there (R208, R359). -/
def foreignArt (p lo hi : Nat) (hide : List (Nat × Nat)) : List (BitVec 256) → Bool
  | [] => false
  | e :: es =>
    if artValid e then
      let b := max lo (fld e 16 48 * 2 ^ 16)
      let t := min hi (fld e 64 64 + 1)
      (decide (fld e 5 3 ≠ p) && decide (b < t) && !coveredBy hide b t 65)
        || foreignArt p lo hi ((fld e 16 48 * 2 ^ 16, fld e 64 64) :: hide) es
    else foreignArt p lo hi hide es

/-- Whether partition `p` may use the range: inside its windows, and no other partition's address-range entry holds it. -/
def State.owns (s : State) (p lo n : Nat) : Bool :=
  s.inWindows p lo n && decide (lo + n ≤ memTop) && !foreignArt p lo (lo + n) [] s.hub.art.toList

/-! ### The walk (R359) -/

/-- The index of a level in a virtual address. -/
def walkIndex (va lvl : Nat) : Nat :=
  match lvl with
  | 3 => bits va 39 9
  | 2 => bits va 30 9
  | 1 => bits va 21 9
  | _ => bits va 16 5

/-- The page size of a leaf at a level. -/
def leafSize (lvl : Nat) : Nat :=
  match lvl with
  | 2 => 2 ^ 30
  | 1 => 2 ^ 21
  | _ => 2 ^ 16

/-- The alignment of the table of a level. -/
def tableAlign (lvl : Nat) : Nat := if lvl = 0 then 256 else 4096

/-- One step of a walk at the table `a` of level `lvl`: none is a fault, otherwise the leaf or the next table. -/
def State.walkStep (s : State) (p va a lvl : Nat) : Option (Leaf ⊕ Nat) :=
  if !s.owns p (a + 8 * walkIndex va lvl) 8 then none
  else
    let e := s.readNat (a + 8 * walkIndex va lvl) 8
    if bits e 0 1 = 0 ∨ bits e 7 1 = 1 ∨ bits e 48 16 ≠ 0 then none
    else
      let pa := bits e 8 40 * 256
      if lvl = 0 ∨ bits e 1 1 = 1 then
        if lvl = 3 ∨ bits e 2 2 = 3 then none
        else if pa % leafSize lvl ≠ 0 then none
        else if !s.owns p pa (leafSize lvl) then none
        else some (.inl { part := p, va := va / leafSize lvl * leafSize lvl, size := leafSize lvl, pa := pa,
                          attr := BitVec.ofNat 2 (bits e 2 2), stack := bits e 4 3 })
      else if pa % tableAlign (lvl - 1) ≠ 0 then none
      else some (.inr pa)

/-- The walk from the table `a` of a level down. -/
def State.walkFrom (s : State) (p va : Nat) : Nat → Nat → Option Leaf
  | 0, a =>
    match s.walkStep p va a 0 with
    | some (.inl l) => some l
    | some (.inr _) | none => none
  | lvl + 1, a =>
    match s.walkStep p va a (lvl + 1) with
    | some (.inl l) => some l
    | some (.inr b) => State.walkFrom s p va lvl b
    | none => none

/-- The walk of a virtual address under a partition's tables (R358, R359). -/
def State.walk (s : State) (p : Nat) (va : Word) : Option Leaf :=
  if fld va 48 16 ≠ 0 then none else s.walkFrom p va.toNat 3 (s.partAt p).root.toNat

/-! ### Caches and directory (R361, R363) -/

/-- Whether a leaf covers an address of a partition. -/
def Leaf.covers (l : Leaf) (p va : Nat) : Bool := decide (l.part = p) && decide (l.va ≤ va) && decide (va < l.va + l.size)

/-- The cached leaf of the smallest page that covers an address (R361). -/
def cachedLeaf (ls : List Leaf) (p va : Nat) : Option Leaf :=
  (ls.find? fun l => l.covers p va && decide (l.size = 2 ^ 16)).or
    ((ls.find? fun l => l.covers p va && decide (l.size = 2 ^ 21)).or (ls.find? fun l => l.covers p va))

/-- The directory with a holder added to the record of a leaf (R363). -/
def addHolder (l : Leaf) (h : Nat) : List TRec → List TRec
  | [] => [{ part := l.part, va := l.va, size := l.size, holders := [h] }]
  | r :: rs =>
    if r.part = l.part ∧ r.va = l.va ∧ r.size = l.size then
      { r with holders := if r.holders.contains h then r.holders else r.holders ++ [h] } :: rs
    else r :: addHolder l h rs

/-- Whether a leaf is the one that a directory record is for. -/
def TRec.names (r : TRec) (l : Leaf) : Bool := decide (l.part = r.part) && decide (l.va = r.va) && decide (l.size = r.size)

/-- The cores of a list told to drop a leaf. -/
def State.dropLeaf (s : State) (r : TRec) : List Nat → State
  | [] => s
  | c :: cs => State.dropLeaf (s.modCore c fun x => { x with tlb := x.tlb.filter fun l => !r.names l }) r cs

/-- The lightport dies that hold a record's leaf told to drop it. -/
def State.dropDies (s : State) (r : TRec) : State :=
  s.withHub { s.hub with dies := s.hub.dies.filter fun e => !(r.holders.contains (8 + e.1) && r.names e.2) }

/-- A full directory drops its oldest record, telling its holders (R363). -/
def State.trimDir (s : State) : State :=
  if s.hub.tdir.length ≤ 65536 then s
  else
    match s.hub.tdir with
    | [] => s
    | r :: rs =>
      ((s.withHub { s.hub with tdir := rs }).dropLeaf r ((upFrom 0 256).filter fun c => r.holders.contains (stackOf c))).dropDies r

/-- The addresses of the table entries of levels 3 to 1 that a walk reads. -/
def State.walkTrail (s : State) (p va : Nat) : Nat → Nat → List Nat
  | 0, _ => []
  | lvl + 1, a =>
    let e := a + 8 * walkIndex va (lvl + 1)
    match s.walkStep p va a (lvl + 1) with
    | some (.inr b) => e :: State.walkTrail s p va lvl b
    | some (.inl _) | none => [e]

/-- Whether a walk reads a table entry that lies in a word with an uncorrectable error (R446). -/
def State.walkStruck (s : State) (p : Nat) (va : Word) : Option Nat :=
  if s.hub.bad.isEmpty then none
  else
    let a := (s.partAt p).root.toNat
    let es := s.walkTrail p va.toNat 3 a
    let last := match es.length, es.getLast? with
      | 3, some e => [bits (s.readNat e 8) 8 40 * 256 + 8 * walkIndex va.toNat 0]
      | _, _ => []
    s.struck (es ++ last)

/-- The table entries that a stack walker keeps after a walk: the 32 most recent (R362). They change no walk, since every
table read is of the current value (R359). -/
def State.noteWalk (s : State) (stack p va : Nat) : State :=
  let new := (s.walkTrail p va 3 (s.partAt p).root.toNat).map fun a => (stack, p, BitVec.ofNat 64 a)
  let mine := (s.hub.walkerMem.filter fun e => decide (e.1 = stack) && !new.contains e) ++ new
  s.withHub { s.hub with walkerMem := (s.hub.walkerMem.filter fun e => decide (e.1 ≠ stack)) ++ mine.drop (mine.length - 32) }

/-- A leaf installed in a core's cache, the oldest of 256 giving way, and its holder recorded (R361, R363). -/
def State.installLeaf (s : State) (c : Nat) (l : Leaf) : State :=
  let x := s.coreAt c
  let tlb := (if 256 ≤ x.tlb.length then x.tlb.drop 1 else x.tlb) ++ [l]
  State.trimDir ((s.setCore c { x with tlb := tlb }).withHub { s.hub with tdir := addHolder l (stackOf c) s.hub.tdir })

/-- The leaf that a core uses for an address, from its cache or by a walk that installs it; none is a TRANSLATION fault. -/
def State.leafFor (s : State) (c p : Nat) (va : Word) : Option (Leaf × State) :=
  if fld va 48 16 ≠ 0 then none
  else
    match cachedLeaf (s.coreAt c).tlb p va.toNat with
    | some l => some (l, s)
    | none => (s.walk p va).map fun l => (l, (s.installLeaf c l).noteWalk (stackOf c) p va.toNat)

/-! ### Checking an access (R210, R238, R360, R366) -/

/-- Whether the attribute of a leaf forbids an access by an agent of a stack (R210, R366). -/
def attrForbids (l : Leaf) (stack : Nat) (write : Bool) : Bool :=
  match l.attr with
  | 0#2 => decide (l.stack ≠ stack)
  | 1#2 => write
  | _ => false

/-- The physical address of an access by a sequencer or an engine of core `c`, or its fault. The ranger core does not
translate (R360). The leaf used is noted for XLINV when a sequencer makes the access (R364). -/
def State.access (s : State) (c : Nat) (va : Word) (write seq : Bool) : Except Cause (Nat × State) :=
  if c = rangerId then
    if va.toNat < memTop then .ok (va.toNat, s) else .error .translation
  else
    match s.leafFor c (s.coreAt c).part va with
    | none => .error (if (s.walkStruck (s.coreAt c).part va).isSome then .eccUncorrected else .translation)
    | some (l, s1) =>
      if (cachedLeaf (s.coreAt c).tlb (s.coreAt c).part va.toNat).isNone && (s.walkStruck (s.coreAt c).part va).isSome then .error .eccUncorrected
      else if attrForbids l (stackOf c) write then .error .attr
      else
        let s2 := if seq then s1.modCore c fun x => { x with used := if x.used.contains l then x.used else x.used ++ [l] } else s1
        .ok (l.pa + (va.toNat - l.va), s2)

/-- The stack that an agent counts as: the ranger core and the lightport dies are of none of the eight (R211, R366). -/
def agentStack (a : Nat) : Nat := if a < 256 then stackOf a else 8

/-- The agent that a lightport die is for what it translates: numbers past the ranger core's. -/
def dieAgent (k : Nat) : Nat := 257 + k

/-- The leaves that an agent holds: its core's, which its engines share, or its die's (R361, R363). -/
def State.leavesOf (s : State) (a : Nat) : List Leaf :=
  if a < 256 then (s.coreAt a).tlb else (s.hub.dies.filter fun e => decide (dieAgent e.1 = a)).map (·.2)

/-- The leaf by which an engine or a lightport die translates: one it holds, else that of a walk. -/
def State.weakLeaf (s : State) (a p : Nat) (va : Word) : Option Leaf :=
  if fld va 48 16 ≠ 0 then none else (cachedLeaf (s.leavesOf a) p va.toNat).or (s.walk p va)

/-- The leaf of an access by an engine or a die taken into its cache, with its directory record, after the walk of a miss (R361, R363). -/
def State.cacheLeaf (s : State) (a p : Nat) (va : Word) : State :=
  if a = rangerId ∨ fld va 48 16 ≠ 0 ∨ (cachedLeaf (s.leavesOf a) p va.toNat).isSome then s
  else
    match s.walk p va with
    | none => s
    | some l =>
      if a < 256 then (s.installLeaf a l).noteWalk (stackOf a) p va.toNat
      else
        let k := a - 257
        State.trimDir (s.withHub { s.hub with dies := s.hub.dies ++ [(k, l)], tdir := addHolder l (8 + k) s.hub.tdir })

/-- Whether a sequencer's access to a physical address is one to a coherent page, by the leaves it has used; the ranger core's accesses are
treated as coherent (R211, R360). -/
def State.coherentFor (s : State) (c pa : Nat) : Bool :=
  decide (c = rangerId) || ((s.coreAt c).used ++ (s.coreAt c).tlb).any fun l => decide (l.pa ≤ pa) && decide (pa < l.pa + l.size) && decide (l.attr = 2#2)

/-- The physical address of a partition's virtual address, for the hub and the dispatchers, which keep no cache; a private page of another stack, or a write to a read-shared page, is forbidden. -/
def State.hubAccess (s : State) (p : Nat) (stack : Nat) (va : Word) (write : Bool) : Except Cause Nat :=
  if (s.walkStruck p va).isSome then .error .eccUncorrected
  else
    match s.walk p va with
    | none => .error .translation
    | some l => if attrForbids l stack write then .error .attr else .ok (l.pa + (va.toNat - l.va))

/-- The physical addresses of a run of at most a page's bytes that the hub reads for a partition, page by page, or the fault. -/
def State.hubSpan (s : State) (p stack : Nat) (va : Word) (n : Nat) : Except (Cause × Word) (List Nat) :=
  let room := 2 ^ 16 - fld va 0 16
  let vb := va + BitVec.ofNat 64 room
  match s.hubAccess p stack va false with
  | .error k => .error (k, va)
  | .ok pa =>
    if n ≤ room then .ok (upFrom pa n)
    else
      match s.hubAccess p stack vb false with
      | .error k => .error (k, vb)
      | .ok pb => .ok (upFrom pa room ++ upFrom pb (n - room))

end Sys2Proof.Machine
end

