-- ==== Sys2Proof/Machine/Weight.lean ====
section
/-! DEFINITION. Weight and accounts: tokens, splits, returns and their combiners, retirement, creation, cancellation and
release of accounts (R265 to R283, R475). -/

namespace Sys2Proof.Machine

/-! ### Tokens (R268, R270, R271, R273) -/

/-- The value of a token of an exponent (R268). -/
def tokValue (e : BitVec 7) : Nat := 2 ^ (127 - e.toNat)

/-- The value a unit holds (R271). -/
def Hold.value (h : Hold) : Nat := (if h.valid then tokValue h.exp else 0) + b2n h.pair

/-- A split (R270): the kept holding and the token that goes to the new holder. A token of exponent 127 splits only once
its borrow was granted: it is kept as PAIR and the borrowed token of exponent 64 splits (R272). -/
def Hold.split (h : Hold) : Hold × Tok :=
  if h.exp = 127#7 ∨ (h.pair ∧ h.exp = 64#7) then ({ h with exp := 65#7, pair := true }, { acct := h.acct, pkg := h.pkg, exp := 65#7 })
  else ({ h with exp := h.exp + 1, pair := false }, { acct := h.acct, pkg := h.pkg, exp := h.exp + 1 })

/-- The weight that a split sends home: the token of exponent 127 kept from a borrow (R273). -/
def Hold.splitReturn (h : Hold) : Nat := if h.exp = 127#7 ∨ h.exp = 64#7 then 0 else b2n h.pair

/-! ### Returns and combiners (R274) -/

/-- The combiner site of a slice. -/
def sliceSite (s : Nat) : Nat := 257 + s
/-- The combiner site of a lightport die. -/
def dieSite (k : Nat) : Nat := 321 + k

/-- Weight on its way to a combiner. -/
def State.giveBack (s : State) (site : Nat) (acct : Handle) (pkg : BitVec 16) (value : Nat) (taint : Bool) (pts : Word) : State :=
  s.addDue [.combinerAdd site { acct := acct, pkg := pkg, value := value, taint := taint, pts := pts }]

/-- A token on its way home. -/
def State.giveTok (s : State) (site : Nat) (t : Tok) (taint : Bool) (pts : Word) : State :=
  s.giveBack site t.acct t.pkg (tokValue t.exp) taint pts

/-- A token that may be absent on its way home. -/
def State.giveTok? (s : State) (site : Nat) (t : Option Tok) (taint : Bool) (pts : Word) : State :=
  match t with
  | some x => s.giveTok site x taint pts
  | none => s

/-- A whole holding on its way home. -/
def State.giveHold (s : State) (site : Nat) (h : Hold) (taint : Bool) (pts : Word) : State :=
  if h.value = 0 then s else s.giveBack site h.acct h.pkg h.value taint pts

/-- A combiner entry as a return. -/
def CombEntry.ret (e : CombEntry) : Ret := { acct := e.acct, pkg := e.pkg, value := e.sum, taint := e.taint, pts := e.pts }

/-- A return added to a combiner's entries; a 33rd account flushes the oldest entry (R274). -/
def combAdd (r : Ret) (es : List CombEntry) : List CombEntry × List Ret :=
  if es.any fun e => decide (e.acct = r.acct) && decide (e.pkg = r.pkg) then
    (es.map fun e =>
      if e.acct = r.acct ∧ e.pkg = r.pkg then
        { e with sum := e.sum + r.value, taint := e.taint || r.taint, pts := wmax e.pts r.pts }
      else e, [])
  else
    let new : CombEntry := { acct := r.acct, pkg := r.pkg, sum := r.value, taint := r.taint, pts := r.pts }
    if es.length < 32 then (es ++ [new], [])
    else
      match es with
      | [] => ([new], [])
      | e :: rest => (rest ++ [new], [e.ret])

/-- The entries of a combiner. -/
def State.combAt (s : State) (site : Nat) : List CombEntry := NatMap.findD [] site s.hub.combs

/-- The state with a combiner's entries replaced. -/
def State.setComb (s : State) (site : Nat) (es : List CombEntry) : State :=
  s.withHub { s.hub with combs := NatMap.putD [] site es s.hub.combs }

/-! ### Accounts -/

/-- The accounts whose record is not as at reset, with their ids. -/
def State.accList (s : State) : NatMap Account := s.hub.accounts

/-- Whether account `i` has `top` on its parent chain; `fuel` bounds the five levels and nested launches. -/
def State.under (s : State) (top i : Nat) : Nat → Bool
  | 0 => false
  | n + 1 =>
    let a := s.accAt i
    if a.parentV && decide (a.parentPkg = s.fabric.num) then decide (accId a.parent = top) || State.under s top (accId a.parent) n else false

/-- The descendants of an account. -/
def State.descendants (s : State) (top : Nat) : List Nat :=
  (s.accList.map (·.1)).filter fun i => decide ((s.accAt i).st ≠ .free) && s.under top i 16384

/-- The job account an account belongs to: the end of its parent chain. -/
def State.jobOf (s : State) (i : Nat) : Nat → Nat
  | 0 => i
  | n + 1 => if (s.accAt i).parentV && decide ((s.accAt i).parentPkg = s.fabric.num) then State.jobOf s (accId (s.accAt i).parent) n else i

/-- Freeing an account: the generation rises and every field resets (R266, R283). -/
def State.freeAcc (s : State) (i : Nat) : State := s.setAcc i { gen := (s.accAt i).gen + 1 }

/-- Freeing a list of accounts. -/
def State.freeAll (s : State) : List Nat → State
  | [] => s
  | i :: is => State.freeAll (s.freeAcc i) is

/-- The least exponent `k` with `2^k ≥ n`, found below `fuel` (R269). -/
def log2Up (n : Nat) : Nat → Nat
  | 0 => 0
  | f + 1 => if 2 ^ (log2Up n f) ≥ n then log2Up n f else log2Up n f + 1

/-- The exponent of unit `i` of a launch of `n` units (R269). -/
def unitExp (n i : Nat) : BitVec 7 :=
  let k := log2Up n 49
  if i < 2 * n - 2 ^ k then BitVec.ofNat 7 k else BitVec.ofNat 7 (k - 1)

/-- The number of units a launch makes (R78, R77). -/
def LaunchInfo.count (l : LaunchInfo) : Nat :=
  match l.starts with
  | some es => es.length
  | none => l.ext0 * l.ext1 * l.ext2

/-- The weight that a launch's owner holds for its units, all of them together (R269). -/
def launchValue : Nat := 2 ^ 127

/-- A launch with every unit created, or with none to create any more. -/
def LaunchInfo.spent (l : LaunchInfo) : LaunchInfo := { l with nexts := List.replicate 8 l.count, given := launchValue, waiting := false }

/-- The eight stack dispatchers that create the units of a launch told to go on (R286). -/
def placers (i : Nat) : List Action := (upFrom 0 8).map (Action.unitPlace i)

/-- A deferred launch's predecessor has retired (R283), one named `n` times among those that it waits for. -/
def deferStep (taint cancel : Bool) (n : Nat) (a : Account) : Account :=
  if cancel then { a with st := .cancelling, cancel := true, launch := a.launch.map LaunchInfo.spent }
  else
    { a with
      npred := a.npred - n, taint := a.taint || taint, st := if a.npred ≤ n then .opn else .deferred,
      launch := a.launch.map fun l => { l with waiting := true } }

/-- What one deferred launch does when the account of handle `h` retires: it steps, and then it opens and creates its
units, or is cancelled and its owner token goes home (R283). -/
def State.wakeOne (s : State) (h : Handle) (taint cancel : Bool) (i : Nat) : State :=
  let a := s.accAt i
  if a.st = .deferred ∧ a.preds.contains h then
    let b := deferStep taint cancel (a.preds.count h) a
    let s1 := s.setAcc i { b with preds := b.preds.filter fun k => decide (k ≠ h) }
    if b.st = .cancelling then
      s1.addDue [.returnArrive { acct := accHandle i a, pkg := s.fabric.num, value := launchValue, taint := false, pts := 0#64 }]
    else if b.st = .opn then s1.addDue (placers i)
    else s1
  else s

/-- Every deferred launch that waits for handle `h`. -/
def State.wakeAll (s : State) (h : Handle) (taint cancel : Bool) : List Nat → State
  | [] => s
  | i :: is => State.wakeAll (s.wakeOne h taint cancel i) h taint cancel is

/-- Retirement of an account whose OUT is 0 (R283): DONE, its parent token returns with its taint, its successors step; a
released job becomes free (R407). -/
def State.retire (s : State) (i : Nat) : State :=
  let a := s.accAt i
  let h := accHandle i a
  let s1 := s.setAcc i { a with st := .done }
  let s2 :=
    if a.parentV then
      s1.addDue [.returnArrive { acct := a.parent, pkg := a.parentPkg, value := tokValue a.pexp, taint := a.taint, pts := a.pts }]
    else s1
  let s3 := s2.wakeAll h a.taint a.cancel (s2.accList.map (·.1))
  if a.released then (s3.freeAll (s3.descendants i)).freeAcc i else s3

/-- The arrival of a return at its account (R275). -/
def State.returnAt (s : State) (r : Ret) : State :=
  let i := accId r.acct
  let a := s.accAt i
  if ¬ s.live r.acct then s.event .weightNegative 5 0 none 0#64 r.acct
  else if a.st = .done then s.event .weightNegative 5 0 (some a.part) 0#64 r.acct
  else
    let b : Account :=
      if r.value > a.out then { a with out := 0, taint := true, fault := true, pts := wmax a.pts r.pts }
      else { a with out := a.out - r.value, taint := a.taint || r.taint, pts := wmax a.pts r.pts }
    let s1 := s.setAcc i b
    let s2 := if r.value > a.out then s1.event .weightNegative 5 0 (some a.part) 0#64 r.acct else s1
    if b.out = 0 then s2.retire i else s2

/-- The ids a partition may create accounts from, while it is ACTIVE (R346, R350). -/
def State.freeId (s : State) (p : Nat) : Option Nat :=
  let d := s.partAt p
  if d.st = 1#2 then (upFrom d.acctBase d.acctCnt).find? fun i => decide ((s.accAt i).st = .free) else none

/-- A new account in a partition (R269, R283): OUT is 2^127 and it holds the parent's token of exponent `pexp`. The lowest
free id is taken: the spec gives no order (log entry 9). -/
def State.newAcc (s : State) (p : Nat) (lvl : Level) (parent : Option (Handle × BitVec 16 × BitVec 7)) (a : Account) : Option (Nat × State) :=
  (s.freeId p).map fun i =>
    (i, s.setAcc i
      { a with
        out := 2 ^ 127
        level := lvl
        part := p
        gen := (s.accAt i).gen
        parentV := parent.isSome
        pexp := (parent.map (·.2.2)).getD 0#7
        parent := (parent.map (·.1)).getD 0#32
        parentPkg := (parent.map (·.2.1)).getD 0#16 })

/-- A borrow at the home account (R272, R475): whether it is granted, and, when refused, whether OUT was saturated. -/
def State.borrow (s : State) (h : Handle) : State × Borrow :=
  let i := accId h
  let a := s.accAt i
  if ¬ s.live h ∨ a.st = .cancelling ∨ a.st = .done then (s, .cancelled)
  else if a.out + 2 ^ 63 > 2 ^ 128 - 1 then
    ((s.setAcc i { a with fault := true }).event .weightSaturated 5 0 (some a.part) 0#64 h, .saturated)
  else (s.setAcc i { a with out := a.out + 2 ^ 63 }, .granted)

/-- A split of the owner token that the hub holds for an account, borrowing where it must without a stall (R306, R475):
the new token, or why none was made. -/
def State.splitOwner (s : State) (i : Nat) : Except Cause Tok × State :=
  let a := s.accAt i
  match a.owner with
  | none => (.error .accountClosed, s)
  | some h =>
    let go (s : State) : Except Cause Tok × State :=
      let r := h.split
      let s1 := s.setAcc i { (s.accAt i) with owner := some r.1 }
      (.ok r.2, if h.splitReturn = 0 then s1
        else s1.addDue [.returnArrive { acct := accHandle i a, pkg := s.fabric.num, value := h.splitReturn, taint := false, pts := 0#64 }])
    if h.exp = 127#7 then
      match s.borrow (accHandle i a) with
      | (s1, .granted) => go s1
      | (s1, .saturated) => (.error .weightSaturated, s1)
      | (s1, _) => (.error .accountClosed, s1)
    else go s

/-! ### Cancellation (R282) -/

/-- What cancelling one account does: its state, and the tokens the hub or a dispatcher holds for it go home. -/
def State.cancelOne (s : State) (i : Nat) : State :=
  let a := s.accAt i
  let h := accHandle i a
  if a.st = .done ∨ a.st = .free then s
  else
    let back (s : State) (v : Nat) : State :=
      if v = 0 then s else s.addDue [.returnArrive { acct := h, pkg := s.fabric.num, value := v, taint := false, pts := 0#64 }]
    let unmade := match a.launch with
      | some l => launchValue - l.given
      | none => 0
    let s1 := s.setAcc i { a with st := .cancelling, cancel := true, owner := none, launch := a.launch.map LaunchInfo.spent }
    back (back s1 unmade) ((a.owner.map Hold.value).getD 0)

/-- Cancelling a list of accounts. -/
def State.cancelAll (s : State) : List Nat → State
  | [] => s
  | i :: is => State.cancelAll (s.cancelOne i) is

/-- The units whose home account is one of a list and that a dispatcher discards at once. -/
def State.unitsOf (s : State) (ids : List Nat) : List Nat :=
  (s.hub.units.filter fun u => u.2.hold.valid && decide (u.2.hold.pkg = s.fabric.num) && ids.contains (accId u.2.hold.acct) && decide (u.2.st ≠ .ended) && decide (u.2.st ≠ .running)).map (·.1)

/-- What a trigger holds (R475). -/
def Trigger.held (t : Trigger) : Hold := { exp := t.tok.exp, valid := true, pair := t.pair, acct := t.tok.acct, pkg := t.tok.pkg }

/-- The triggers of one sequencer whose token belongs to one of the accounts, removed, their tokens on their way home. -/
def State.dropTriggers (s : State) (ids : List Nat) (c : Nat) : State :=
  let x := s.coreAt c
  let hit (u : Trigger) : Bool := decide (u.tok.pkg = s.fabric.num) && ids.contains (accId u.tok.acct)
  let dead := x.trigs.toList.filterMap fun t => t.bind fun u => if hit u then some u else none
  if dead.isEmpty then s
  else
    let s1 := s.setCore c { x with trigs := vmap (fun t => t.bind fun u => if hit u then none else some u) x.trigs }
    dead.foldl (fun s u => s.giveHold c u.held false 0#64) s1

/-- `f` applied for each of a list of numbers in turn. -/
def State.each (s : State) (f : State → Nat → State) : List Nat → State
  | [] => s
  | i :: is => State.each (f s i) f is

/-- The PODID that packets of a partition carry (R351). -/
def State.podOf (s : State) (p : Nat) : BitVec 16 := (s.partAt p).podid

/-- Notices of a cancellation to the packages that hold tokens of an account (R316, class 5). -/
def State.noticeAll (s : State) (h : Handle) : List (Nat × Handle × BitVec 16 × Nat × Bool) → State
  | [] => s
  | e :: es =>
    State.noticeAll (if e.2.1 = h ∧ ¬ e.2.2.2.2 then
      s.post { cls := 5#3, spkg := s.fabric.num, score := 0, dpkg := e.2.2.1, dcore := 0, label := 0#16,
               podid := s.podOf (s.accAt (accId h)).part, tok := none, body := .cancelled h } else s) h es

/-- CANCEL of a list of accounts: their records, the units that a dispatcher discards, and their triggers (R282). -/
def State.cancelList (s : State) (ids : List Nat) : State :=
  let s1 := s.cancelAll ids
  let s2 := s1.addDue ((s1.unitsOf ids).map fun u => Action.unitCancelStop u)
  s2.each (fun s c => s.dropTriggers ids c) (upFrom 0 256)

/-- CANCEL of an account: it and every descendant, with the packages that hold their tokens told (R282). -/
def State.cancelAcc (s : State) (i : Nat) : State :=
  if (s.accAt i).st = .done then s
  else
    let ids := i :: s.descendants i
    (s.cancelList ids).each (fun s j => s.noticeAll (accHandle j (s.accAt j)) s.fabric.exports) ids

/-- Whether the home account of a unit's holding is being cancelled, here or by a notice from its package (R282, R316). -/
def State.cancelling (s : State) (h : Hold) : Bool :=
  h.valid && (if h.pkg = s.fabric.num then decide ((s.accAt (accId h.acct)).st = .cancelling) && s.live h.acct
    else s.hub.farCancel.contains (h.pkg, h.acct))

/-! ### The record as words (R267) -/

/-- The account record as its 64 bytes. -/
def accountBits (i : Nat) (a : Account) : Block :=
  let st := match a.st with | .free => 0 | .deferred => 1 | .opn => 2 | .cancelling => 3 | .done => 4
  let lv := match a.level with | .launch => 0 | .graph => 1 | .phase => 2 | .job => 3
  BitVec.ofNat 512
    (a.out + st * 2 ^ 128 + lv * 2 ^ 131 + b2n a.taint * 2 ^ 133 + b2n a.cancel * 2 ^ 134 + b2n a.fault * 2 ^ 135
      + a.part * 2 ^ 136 + b2n a.parentV * 2 ^ 139 + a.pexp.toNat * 2 ^ 140 + a.parent.toNat * 2 ^ 160
      + (accHandle i a).toNat * 2 ^ 192 + a.npred * 2 ^ 224 + a.created.toNat * 2 ^ 256 + a.ended.toNat * 2 ^ 320
      + a.allow.toNat * 2 ^ 384)

end Sys2Proof.Machine
end

