-- ==== Sys2Proof/Machine/Context.lean ====
section
/-! DEFINITION. The evacuation slot of a unit and the context image in it (R424 to R427): what a save writes there and what
a resume reads back. Where R425 names the contents of a section without their bits, log entry 10 fixes them. -/

namespace Sys2Proof.Machine

/-! ### The evacuation slot (R424) -/

/-- The offset of the context image in a slot. -/
def ctxOff : Nat := 2 ^ 16

/-- The offset of the spilled scratchpad in a slot. -/
def spillOff : Nat := 6 * 2 ^ 16

/-- The physical 64 KiB pages of `n` pages of a slot, from page `i` up, or the address that does not translate. -/
def State.slotPages (s : State) (p stack : Nat) (base : Word) : Nat → Nat → Except Word (List Nat)
  | _, 0 => .ok []
  | i, n + 1 =>
    let va := base + BitVec.ofNat 64 (i * 2 ^ 16)
    match s.hubAccess p stack va true with
    | .error _ => .error va
    | .ok pa =>
      match State.slotPages s p stack base (i + 1) n with
      | .ok ps => .ok (pa :: ps)
      | .error e => .error e

/-- A weak write of `n` bytes at an offset of a slot whose pages are given; the run may cross one page boundary. -/
def State.slotWrite (s : State) (pages : List Nat) (off n v : Nat) : State :=
  let room := 2 ^ 16 - off % 2 ^ 16
  let at' (o : Nat) : Nat := pages.getD (o / 2 ^ 16) 0 + o % 2 ^ 16
  if n ≤ room then s.weakNat (at' off) n v
  else (s.weakNat (at' off) room (v % 256 ^ room)).weakNat (at' (off + room)) (n - room) (v / 256 ^ room)

/-- `n` bytes at an offset of a slot. -/
def State.slotRead (s : State) (pages : List Nat) (off n : Nat) : Nat :=
  let room := 2 ^ 16 - off % 2 ^ 16
  let at' (o : Nat) : Nat := pages.getD (o / 2 ^ 16) 0 + o % 2 ^ 16
  if n ≤ room then s.readNat (at' off) n
  else s.readNat (at' off) room + 256 ^ room * s.readNat (at' (off + room)) (n - room)

/-- A list of pieces (offset, bytes, value) written to a slot. -/
def State.slotWriteAll (s : State) (pages : List Nat) : List (Nat × Nat × Nat) → State
  | [] => s
  | x :: xs => State.slotWriteAll (s.slotWrite pages x.1 x.2.1 x.2.2) pages xs

/-- The pages of a slot reached in their regions by the agents of a stack (R212). -/
def State.touchSlot (s : State) (p stack : Nat) (base : Word) (write : Bool) : Nat → Nat → State
  | _, 0 => s
  | i, n + 1 =>
    let va := base + BitVec.ofNat 64 (i * 2 ^ 16)
    State.touchSlot (match s.walk p va with
      | some l => s.touch (decide (l.attr = 2#2)) (l.pa + (va.toNat - l.va)) stack write 0#64
      | none => s) p stack base write (i + 1) n

/-! ### The registers as the image holds them (R426) -/

/-- WSHARE (R271). -/
def Hold.wshare (h : Hold) : Word :=
  BitVec.ofNat 64 (h.exp.toNat + b2n h.valid * 2 ^ 7 + b2n h.pair * 2 ^ 8 + h.acct.toNat * 2 ^ 16)

/-- The bytes reserved in a ring (R197). -/
def Ring.resvBytes (r : Ring) : Nat := sumOf (fun v => v.len - v.pos) r.resv

/-- CHnSTAT (R250). -/
def Chan.stat (c : Chan) : BitVec 128 :=
  BitVec.ofNat 128 (c.done.toNat + c.issued.toNat * 2 ^ 32 + b2n ((c.walking && !c.error) || !c.owned.isEmpty) * 2 ^ 64
    + b2n c.pending.isSome * 2 ^ 65 + b2n c.error * 2 ^ 66 + b2n c.parked * 2 ^ 67)

/-- CHnHEAD, CHnSTAT, CHnERR and CHnCTL, which reads zero (R250). -/
def Chan.reg (c : Chan) (k : Nat) : BitVec 128 :=
  match k with
  | 0 => BitVec.ofNat 128 (c.head.toNat + c.limit.toNat * 2 ^ 64)
  | 1 => c.stat
  | 2 => BitVec.ofNat 128 (c.errTid.toNat + c.errCause.toNat * 2 ^ 32 + c.errAddr.toNat * 2 ^ 64)
  | _ => 0#128

/-- SIXSTAT (R183). -/
def Six.stat (x : Six) : BitVec 128 :=
  BitVec.ofNat 128 (x.emitted.toNat + b2n x.run.isSome * 2 ^ 32 + b2n x.shadow.isSome * 2 ^ 33 + b2n x.error * 2 ^ 34
    + x.consumed.toNat * 2 ^ 64)

/-- The code of a handle's state (R330). -/
def GlSt.code : GlSt → Nat
  | .free => 0
  | .opening => 1
  | .opn => 2
  | .closing => 3
  | .ended => 4

/-- The code of a handle's cause (R330). -/
def GlCause.code : GlCause → Nat
  | .none => 0
  | .closed => 1
  | .expired => 2
  | .preempted => 3
  | .failed => 4
  | .refused => 5
  | .narrowed => 6
  | .faulted => 7

/-- A guyline handle as a register (R330) at time `now`: LEASE is what is left until the time of expiry that the handle
holds (log entry 3). -/
def GlHandle.reg (h : GlHandle) (now : Nat) : BitVec 128 :=
  BitVec.ofNat 128 (h.st.code + h.cause.code * 2 ^ 3 + b2n h.final * 2 ^ 6 + b2n h.tainted * 2 ^ 7 + h.width % 64 * 2 ^ 8
    + h.pend.length % 8 * 2 ^ 14 + h.sent % 2 ^ 32 * 2 ^ 32 + h.resumeW % 2 ^ 32 * 2 ^ 64
    + (if h.st = .opn ∨ h.st = .closing then h.lease - now else 0) % 2 ^ 24 * 2 ^ 96)
/-- One queue or late-write entry (R427): its value and its 32 further bytes. -/
def entryBits (val : Val) (mask : LaneMask) (cls num left : Nat) (flags : BitVec 6) (ready : Bool) : Nat × Nat :=
  let v := match val with
    | .scalar x => x.toNat
    | .vector x => x.toNat
    | .mask x => x.toNat
    | .pred b => b2n b
  (v, mask.toNat + cls * 2 ^ 128 + num * 2 ^ 131 + left * 2 ^ 137 + flags.toNat * 2 ^ 141 + b2n ready * 2 ^ 147)

/-- A queue entry as the image holds it. -/
def QEntry.image (q : Nat) (e : QEntry) : Nat × Nat :=
  entryBits e.val e.mask (match e.val with | .vector _ => 1 | _ => 0) q 0 0#6 e.filled

/-- A late write as the image holds it; one that writes no register holds its flags under an empty mask (log entry 10). -/
def Flight.image (f : Flight) : Nat × Nat :=
  match f.dest with
  | .s n => entryBits f.val f.mask 0 n.toNat f.left f.flags false
  | .v n => entryBits f.val f.mask 1 n.toNat f.left f.flags false
  | .m n => entryBits f.val f.mask 2 n.toNat f.left f.flags false
  | .p n => entryBits f.val f.mask 3 n.toNat f.left f.flags false
  | .queue q => entryBits f.val f.mask 4 q.toNat f.left f.flags false
  | .none | .raw _ | .latchV _ => entryBits (.vector 0#4096) 0#128 1 0 f.left f.flags false

/-- Whether a flight is kept as a late write: one that only sets a latch is not (R422: no latch becomes valid). -/
def Flight.late (f : Flight) : Bool :=
  match f.dest with
  | .s _ | .v _ | .m _ | .p _ | .queue _ => true
  | .none | .raw _ | .latchV _ => decide (f.flags ≠ 0#6)

/-- The code of KIND (R426). -/
def CtxKind.code : CtxKind → Nat
  | .preempted => 0
  | .yielded => 1
  | .trapped => 2

/-- The bytes of a stash line that weak agents wrote under the colours of a mask (R202). -/
def StashLine.weak (l : StashLine) (colours : BitVec 8) : BitVec 64 :=
  (upFrom 0 8).foldl (fun m k => if colours.getLsbD k then m ||| vget 0#64 l.dirty k else m) 0#64

/-- The bytes that weak agents wrote under any colour. -/
def StashLine.mask (l : StashLine) : BitVec 64 := l.weak 0xFF#8

/-- A stash line with some bytes no longer weak. -/
def StashLine.clean (l : StashLine) (m : BitVec 64) : StashLine := { l with dirty := vmap (fun d => d &&& ~~~m) l.dirty }

/-- The state of one stash line in 2 bits of the image: 0 Invalid, 1 Valid, 2 Engine-dirty (log entry 10). -/
def StashLine.code (l : StashLine) : Nat := if l.mask = 0#64 then 1 else 2

/-- A stash line as the image has its state: one that it calls Invalid is gone, and one that it calls Valid has no weak bytes. -/
def StashLine.fromCode (l : StashLine) (k : Nat) : Option StashLine :=
  match k with
  | 1 => if l.filled then some (l.clean l.mask) else none
  | 2 => some l
  | _ => none

/-! ### Writing the image (R425) -/

/-- Pieces of entries laid one after another. -/
def entryPieces (off : Nat) : List (Nat × Nat) → List (Nat × Nat × Nat)
  | [] => []
  | e :: es => (off, 512, e.1) :: (off + 512, 32, e.2) :: entryPieces (off + 544) es

/-- Pieces of withheld stores: the line address is the virtual one (log entry 10). -/
def storePieces (off : Nat) : List WLine → List (Nat × Nat × Nat)
  | [] => []
  | w :: ws => (off, 64, w.data.toNat) :: (off + 64, 16, w.va * 64 + w.mask.toNat * 2 ^ 64) :: storePieces (off + 80) ws

/-- What a save takes from a core: the architectural state, the queues, the late writes, the withheld stores and DONE. -/
structure Taken where
  arch : Arch
  queues : Vector (List QEntry) 8
  late : List Flight
  stores : List WLine
  done : BitVec 3

/-- Queue entries as the image holds them, q0 first. -/
def Taken.entries (t : Taken) : List (Nat × Nat) :=
  (upFrom 0 8).flatMap fun q => (vget [] t.queues q).map (QEntry.image q)

/-- The header (R426). -/
def Taken.header (t : Taken) (kind : CtxKind) (h : Hold) (pts : Word) : Nat :=
  1 + kind.code * 2 ^ 8 + t.arch.loops.length * 2 ^ 10 + t.done.toNat * 2 ^ 13 + t.stores.length * 2 ^ 16
    + (t.late.filter Flight.late).length * 2 ^ 32 + t.arch.pc.toNat * 2 ^ 64 + pts.toNat * 2 ^ 128 + h.wshare.toNat * 2 ^ 192
    + t.arch.arith.toNat * 2 ^ 256 + t.arch.qbind.toNat * 2 ^ 320 + t.arch.srseed.toNat * 2 ^ 384
    + digits 8 (fun q => (vget [] t.queues q).length) 8 0 * 2 ^ 448

/-- Predicates, with p0 as it reads. -/
def predByte (a : Arch) : Nat := digits 1 (fun i => b2n (decide (i = 0) || vget false a.p i)) 8 0

/-- The loop stack, bottom entry first. -/
def loopBits (ls : List LoopEntry) : Nat :=
  digits 128 (fun i => match ls[i]? with
    | some e => e.start.toNat % 2 ^ 32 + e.last.toNat % 2 ^ 32 * 2 ^ 32 + e.remaining.toNat * 2 ^ 64
    | none => 0) ls.length 0

/-- The sparse-index section: SIXSRC, SIXCFG, SIXSTAT, the shadow operation, the position, the partial entry. The running operation stands
with its position: its source, its configuration without the RZ bits, the next position, the next metadata byte, what is left of the run, and the
bundles since the last push; then the count of the partial entry and its lanes (log entry 10). -/
def sixBits (a : Arch) (x : Six) : Nat :=
  let sh := x.shadow.getD (0#128, 0#128)
  let r : SixOp := x.run.getD { src := 0#128, cfg := 0#128, pos := 0, bytePos := 0, runLeft := 0, lanes := [] }
  a.sixsrc.toNat + a.sixcfg.toNat * 2 ^ 128 + x.stat.toNat * 2 ^ 256 + sh.1.toNat * 2 ^ 384 + sh.2.toNat * 2 ^ 512
    + r.src.toNat * 2 ^ 640 + fld r.cfg 0 9 * 2 ^ 768 + fld r.cfg 64 64 * 2 ^ 784 + r.pos % 2 ^ 64 * 2 ^ 848 + r.bytePos % 2 ^ 64 * 2 ^ 912
    + r.runLeft % 2 ^ 16 * 2 ^ 976 + r.lanes.length % 2 ^ 8 * 2 ^ 992 + x.since % 2 ^ 8 * 2 ^ 1000
    + digits 32 (fun i => ((r.lanes[i]?).getD 0#32).toNat) r.lanes.length 0 * 2 ^ 1024

/-- The stash map: 8 bytes per bound row, then the states of its lines, 4 bytes per row. -/
def stashPieces (off : Nat) (a : Arch) (p : Spad) : List (Nat × Nat × Nat) :=
  (off, 4096, digits 64 (fun k => (NatMap.findD 0#64 k a.bound).toNat) 512 0) ::
  [(off + 4096, 2048, digits 2 (fun i => ((NatMap.find i p.lines).map StashLine.code).getD 0) 8192 0)]

/-- A channel's section of the image: its four registers, then its shadow chain. -/
def Chan.section (c : Chan) : Nat :=
  let sh := c.pending.getD (0#64, 0#32)
  digits 128 (fun k => (c.reg k).toNat) 4 0 + sh.1.toNat * 2 ^ 512 + sh.2.toNat * 2 ^ 576

/-- The whole image as pieces at offsets of the slot. -/
def Taken.pieces (t : Taken) (kind : CtxKind) (h : Hold) (pts : Word) (pad : Spad) (e : Engines) (now : Nat) : List (Nat × Nat × Nat) :=
  let a := t.arch
  let o := ctxOff
  [(o, 512, t.header kind h pts),
   (o + 0x200, 512, digits 64 (fun i => (vget 0#64 a.s i).toNat) 64 0),
   (o + 0x400, 128, digits 128 (fun i => if i = 0 then 2 ^ 128 - 1 else (vget 0#128 a.m i).toNat) 8 0),
   (o + 0x480, 16, predByte a), (o + 0x490, 112, loopBits a.loops),
   (o + 0x500, 512, a.gens.toNat),
   (o + 0x700, 1024, digits 512 (fun i => (vget 0#512 a.g i).toNat) 16 0),
   (o + 0xB00, 128, digits 128 (fun i => let r := vget {} pad.rings i
      r.head + r.ready * 2 ^ 32 + r.held * 2 ^ 64 + r.resvBytes * 2 ^ 96) 8 0),
   (o + 0xB80, 256, digits 128 (fun i => ((vget {} e.gl i).reg now).toNat) 16 0),
   (o + 0xC80, 1024, digits 1024 (fun i => (vget {} e.chans i).section) 8 0),
   (o + 0x1080, 640, sixBits a e.six)]
  ++ stashPieces (o + 0x1300) a pad
  ++ ((upFrom 0 64).map fun i => (o + 0x3000 + 512 * i, 512, (vget 0#4096 a.v i).toNat))
  ++ ((upFrom 0 512).map fun i => (o + 0xB000 + 256 * i, 256, (vget 0#2048 (vget (Vector.replicate 64 0#2048) a.a (i / 64)) (i % 64)).toNat))
  ++ entryPieces (o + 0x2B000) t.entries
  ++ storePieces (o + 0x3C000) t.stores
  ++ entryPieces (o + 0x41000) ((t.late.filter Flight.late).take 64 |>.map Flight.image)

/-! ### Reading the image back (R423, R427) -/

/-- A late write with what the image holds of it. -/
def Flight.fromImage (f : Flight) (v w : Nat) : Flight :=
  let flags := BitVec.ofNat 6 (bits w 141 6)
  let mask := BitVec.ofNat 128 w
  match f.val with
  | .scalar _ => { f with val := .scalar (BitVec.ofNat 64 v), mask := mask, flags := flags }
  | .vector _ =>
    match f.dest with
    | .v _ | .queue _ => { f with val := .vector (BitVec.ofNat 4096 v), mask := mask, flags := flags }
    | .none | .s _ | .m _ | .p _ | .raw _ | .latchV _ => { f with flags := flags }
  | .mask _ => { f with val := .mask (BitVec.ofNat 128 v), mask := mask, flags := flags }
  | .pred _ => { f with val := .pred (v % 2 = 1), flags := flags }

/-- The late writes that the image holds, read back entry by entry. -/
def State.lateFrom (s : State) (pages : List Nat) (off : Nat) : List Flight → List Flight
  | [] => []
  | f :: fs => f.fromImage (s.slotRead pages off 512) (s.slotRead pages (off + 512) 32) :: State.lateFrom s pages (off + 544) fs

/-- A queue entry with what the image holds of it. -/
def QEntry.fromImage (e : QEntry) (v w : Nat) : QEntry :=
  { e with
    val := match e.val with
      | .vector _ => .vector (BitVec.ofNat 4096 v)
      | .scalar _ | .mask _ | .pred _ => .scalar (BitVec.ofNat 64 v)
    mask := BitVec.ofNat 128 w
    filled := w.testBit 147 }

/-- The entries of one queue that the image holds: they stand from before the checkpoint of the resume (R205). -/
def State.queueFrom (s : State) (pages : List Nat) (off : Nat) : List QEntry → List QEntry
  | [] => []
  | e :: es => { e.fromImage (s.slotRead pages off 512) (s.slotRead pages (off + 512) 32) with old := true } :: State.queueFrom s pages (off + 544) es

/-- The entries of all queues, from queue `q` up, the image's entries in order. -/
def State.queuesFrom (s : State) (pages : List Nat) (qs : Vector (List QEntry) 8) : Nat → Nat → List (List QEntry)
  | 0, _ => []
  | n + 1, off =>
    let es := vget [] qs (7 - n)
    s.queueFrom pages off es :: State.queuesFrom s pages qs n (off + 544 * es.length)

/-- The withheld stores that the image holds, by their virtual lines, still to be translated. -/
def State.storesFrom (s : State) (pages : List Nat) (off : Nat) : Nat → List WLine
  | 0 => []
  | n + 1 =>
    let w := s.slotRead pages (off + 64) 16
    { va := bits w 6 58, pa := bits w 6 58, data := BitVec.ofNat 512 (s.slotRead pages off 64), mask := BitVec.ofNat 64 (w / 2 ^ 64) }
      :: State.storesFrom s pages (off + 80) n

/-- The loop stack that the image holds. -/
def loopsFrom (x : Nat) : Nat → List LoopEntry
  | 0 => []
  | n + 1 =>
    { start := BitVec.ofNat 64 (bits x 0 32), last := BitVec.ofNat 64 (bits x 32 32), remaining := BitVec.ofNat 64 (bits x 64 64) }
      :: loopsFrom (x / 2 ^ 128) n

/-- The bindings of the stash map that the image holds: an address of 0 in a row that was unbound is no binding. -/
def boundFrom (x : Nat) (old : NatMap Word) : NatMap Word := old.map fun r => (r.1, BitVec.ofNat 64 (bits x (64 * r.1) 64))

/-- The writable bits of word `w` of a stream register (R165). -/
def streamMask (w : Nat) : BitVec 128 := if w = 0 then BitVec.ofNat 128 0x1FF3F00FFFFFF01FF3F07 else 0#128

/-- The writable bits of a whole stream register. -/
def streamBits : Block := (streamMask 0).setWidth 512

/-- The writable bits of SIXCFG (R183). -/
def sixMask : BitVec 128 := BitVec.ofNat 128 (0x1FF + (2 ^ 64 - 1) * 2 ^ 64)

/-- The sparse-index engine that the image holds (R187). -/
def sixFrom (x : Nat) : Six :=
  let st := bits x 256 128
  let n := min 128 (bits x 992 8)
  { emitted := BitVec.ofNat 32 st, consumed := BitVec.ofNat 32 (bits st 64 32), error := st.testBit 34
    run := if st.testBit 32 then
        some { src := BitVec.ofNat 128 (bits x 640 128), cfg := BitVec.ofNat 128 (bits x 768 9 + bits x 784 64 * 2 ^ 64), pos := bits x 848 64,
               bytePos := bits x 912 64, runLeft := bits x 976 16, lanes := (upFrom 0 n).map fun i => BitVec.ofNat 32 (bits x (1024 + 32 * i) 32) }
      else none
    shadow := if st.testBit 33 then some (BitVec.ofNat 128 (bits x 384 128), BitVec.ofNat 128 (bits x 512 128) &&& sixMask) else none
    since := min 128 (bits x 1000 8) }

/-- A channel with the registers that the image holds (R250); what those do not show stays as the engine kept it. -/
def Chan.fromImage (c : Chan) (x : Nat) : Chan :=
  { c with
    head := BitVec.ofNat 64 x, limit := BitVec.ofNat 32 (bits x 64 32), done := BitVec.ofNat 32 (bits x 128 32),
    issued := BitVec.ofNat 32 (bits x 160 32), error := x.testBit 194, parked := x.testBit 195,
    pending := if x.testBit 193 then some (BitVec.ofNat 64 (bits x 512 64), BitVec.ofNat 32 (bits x 576 32)) else none,
    errTid := BitVec.ofNat 32 (bits x 256 32), errCause := BitVec.ofNat 16 (bits x 288 16), errAddr := BitVec.ofNat 64 (bits x 320 64) }

/-- A guyline handle with the register that the image holds (R330). -/
def GlHandle.fromImage (h : GlHandle) (x : Nat) : GlHandle :=
  let cause : GlCause := match bits x 3 3 with
    | 1 => .closed | 2 => .expired | 3 => .preempted | 4 => .failed | 5 => .refused | 6 => .narrowed | 7 => .faulted | _ => .none
  let st : GlSt := match bits x 0 3 with | 0 => .free | 4 => .ended | _ => h.st
  { h with st := st, cause := cause, final := x.testBit 6, tainted := x.testBit 7, width := bits x 8 6, sent := bits x 32 32, resumeW := bits x 64 32 }

/-- The stash lines that the image holds. -/
def linesFrom (x : Nat) (ls : NatMap StashLine) : NatMap StashLine :=
  ls.filterMap fun l => (l.2.fromCode (bits x (2 * l.1) 2)).map fun k => (l.1, k)

/-- Whether an RZ bit of the image is set (R427): in the stream registers, SIXCFG, or the configuration that waits. -/
def imageRz (gs : List Nat) (six : Nat) : Bool :=
  (gs.any fun g => decide (BitVec.ofNat 512 g &&& ~~~streamBits ≠ 0#512)) || decide (BitVec.ofNat 128 (six / 2 ^ 128) &&& ~~~sixMask ≠ 0#128)
    || decide (BitVec.ofNat 128 (six / 2 ^ 512) &&& ~~~sixMask ≠ 0#128)

/-- Whether an RZ bit of `n` queue or late-write entries is set (R427). -/
def State.entriesRz (s : State) (pages : List Nat) (off : Nat) : Nat → Bool
  | 0 => false
  | n + 1 => decide (bits (s.slotRead pages (off + 512) 32) 148 108 ≠ 0) || State.entriesRz s pages (off + 544) n

/-- The architectural state that the image holds; the planes and the counts of issue come from what the core kept, and RZ bits stay zero
(R5, R85, R427). -/
def State.archFrom (s : State) (pages : List Nat) (k : Saved) (bound : NatMap Word) : Arch :=
  let o := ctxOff
  let rd (off n : Nat) : Nat := s.slotRead pages (o + off) n
  let h := rd 0 512
  let six := rd 0x1080 32
  { pc := BitVec.ofNat 64 (bits h 64 64)
    s := Vector.ofFn fun i => BitVec.ofNat 64 (rd (0x200 + 8 * i.val) 8)
    v := Vector.ofFn fun i => BitVec.ofNat 4096 (rd (0x3000 + 512 * i.val) 512)
    m := Vector.ofFn fun i => BitVec.ofNat 128 (rd (0x400 + 16 * i.val) 16)
    p := Vector.ofFn fun i => (rd 0x480 1).testBit i.val
    a := Vector.ofFn fun t => Vector.ofFn fun r => BitVec.ofNat 2048 (rd (0xB000 + 16384 * t.val + 256 * r.val) 256)
    loops := loopsFrom (rd 0x490 112) (min 6 (bits h 10 3))
    g := Vector.ofFn fun i => BitVec.ofNat 512 (rd (0x700 + 64 * i.val) 64) &&& streamBits
    snap := Vector.replicate 16 0#512
    snapOk := Vector.replicate 16 false
    planes := k.planes
    loads := k.loads
    active := k.active
    arith := BitVec.ofNat 64 (bits h 256 64) &&& 0x3F3F07#64
    qbind := BitVec.ofNat 64 (bits h 320 64)
    srseed := BitVec.ofNat 32 (bits h 384 32)
    gens := BitVec.ofNat 4096 (rd 0x500 512)
    bound := boundFrom (rd 0x1300 4096) bound
    sixsrc := BitVec.ofNat 128 six
    sixcfg := BitVec.ofNat 128 (six / 2 ^ 128) &&& sixMask
    sinceBeat := k.sinceBeat
    fBusy := k.fBusy
    sinceQ := 0
    claims := k.claims }

/-- Whether an RZ field of the image's header is not zero (R427). -/
def headerRz (h : Nat) : Bool := decide (bits h 25 7 ≠ 0) || decide (bits h 39 25 ≠ 0) || decide (bits h 512 3584 ≠ 0)

end Sys2Proof.Machine
end

