-- ==== Sys2Proof/Machine/Units.lean ====
section
/-! DEFINITION. The life of a unit as every family sees it (R284, R285, R355 to R357, R423, R424): its scratchpad, queueing,
start, suspension, resume, end, and the handler that a trap creates. -/

namespace Sys2Proof.Machine

/-! ### The division of a scratchpad (R194) -/

/-- The rows of the ring region. -/
def UnitDecl.ringRows (d : UnitDecl) : Nat := d.rings.foldl (fun m r => if r.2 = 0 then m else max m (r.1 + r.2)) 0

/-- The rows a unit declares. -/
def UnitDecl.rows (d : UnitDecl) : Nat := d.spbytes / 1024

/-- The bytes of the raw region. -/
def UnitDecl.rawBytes (d : UnitDecl) : Nat := 1024 * (d.rows - d.ringRows - d.stash)

/-- The first offset of the stash. -/
def UnitDecl.stashBase (d : UnitDecl) : Nat := 1024 * (d.rows - d.stash)

/-- The length in bytes of ring `k`, 0 when it is not declared (R197). -/
def UnitDecl.ringLen (d : UnitDecl) (k : Nat) : Nat := 1024 * (d.rings.getD k (0, 0)).2

/-- The first offset of ring `k`. -/
def UnitDecl.ringBase (d : UnitDecl) (k : Nat) : Nat := d.rawBytes + 1024 * (d.rings.getD k (0, 0)).1

/-- The core on which a unit runs now; number 0 stands for the ranger core's own transfers. -/
def State.runsOn (s : State) (u : Nat) : Option Nat :=
  if u = 0 then some rangerId else
  match s.unitAt u with
  | some x => if (s.coreAt x.core).unit = some u then some x.core else none
  | none => none

/-- The scratchpad of a unit, on its core or kept. -/
def State.padOf (s : State) (u : Nat) : Spad :=
  match s.runsOn u with
  | some c => (s.coreAt c).pad
  | none => ((s.unitAt u).map Uni.pad).getD {}

/-- A change of a unit's scratchpad. -/
def State.modPad (s : State) (u : Nat) (f : Spad → Spad) : State :=
  match s.runsOn u with
  | some c => s.modCore c fun x => { x with pad := f x.pad }
  | none => s.modUnit u fun x => { x with pad := f x.pad }

/-- The engines of a sequencer. -/
def Core.engines (x : Core) : Engines := { chans := x.chans, six := x.six, gl := x.gl, weak := x.weak }

/-- The engines of a unit, on its core or kept. -/
def State.engOf (s : State) (u : Nat) : Engines :=
  match s.runsOn u with
  | some c => (s.coreAt c).engines
  | none => ((s.unitAt u).map Uni.eng).getD {}

/-- The largest of eight times. -/
def maxOf (v : Vector Word 8) : Word := v.toList.foldl wmax 0#64

/-- Logical time with every weak write of the unit counted (R303). -/
def Core.allPts (x : Core) : Word := wmax x.pts (maxOf x.weak)

/-- The registers of a suspended unit's engines in its context image that a change alters: channels (R250) and handles (R341). -/
def engPieces (old new : Engines) (now : Nat) : List (Nat × Nat × Nat) :=
  ((upFrom 0 8).filterMap fun n =>
      let v := (vget {} new.chans n).section
      if (vget {} old.chans n).section = v then none else some (ctxOff + 0xC80 + 128 * n, 128, v))
    ++ (upFrom 0 16).filterMap fun h =>
      let v := (vget {} new.gl h).reg now
      if (vget {} old.gl h).reg now = v then none else some (ctxOff + 0xB80 + 16 * h, 16, v.toNat)

/-- A change of a unit's engines: on its core, or kept with its context, whose image follows (R250, R341, R423). -/
def State.modEng (s : State) (u : Nat) (f : Engines → Engines) : State :=
  match s.runsOn u with
  | some c => s.modCore c fun x => let e := f x.engines; { x with chans := e.chans, six := e.six, gl := e.gl, weak := e.weak }
  | none =>
    match s.unitAt u with
    | none => s
    | some x =>
      let s1 := s.setUnit u { x with eng := f x.eng }
      let ps := if x.ctx.isSome then engPieces x.eng (f x.eng) s.time else []
      if ps.isEmpty then s1
      else
        match s1.slotPages x.part (stackOf x.core) x.evac 0 6 with
        | .ok pages => s1.slotWriteAll pages ps
        | .error _ => s1

/-- The largest wts of the unit's weak writes of a colour, raised (R228). -/
def State.raiseWeak (s : State) (u colour : Nat) (w : Word) : State :=
  s.modEng u fun e => { e with weak := vput e.weak colour (wmax (vget 0#64 e.weak colour) w) }

/-! ### Queueing (R284, R288) -/

/-- A unit put in the queue of a core, at its head or its tail, and the dispatcher told. -/
def State.enqueue (s : State) (u c : Nat) (front : Bool) : State :=
  let s1 := s.modUnit u fun x => { x with st := .queued, core := c, stamp := (s.coreAt c).issuedN, aged := 0 }
  (s1.modCore c fun x => { x with queue := if front then u :: x.queue else x.queue ++ [u] }).addDue [.unitAdmit c]

/-- A unit taken out of its core's queue and standby position. -/
def State.dequeue (s : State) (u : Nat) : State :=
  match s.unitAt u with
  | some x => s.modCore x.core fun k => { k with queue := k.queue.erase u, standby := if k.standby = some u then none else k.standby }
  | none => s

/-- A new unit in the hub's list, CREATED counts it; one whose home account is already cancelling is discarded at once (R282, R284). -/
def State.newUnit (s : State) (x : Uni) : Nat × State :=
  let u := s.hub.nextUnit
  let s1 := s.withHub { s.hub with nextUnit := u + 1, units := NatMap.put u x s.hub.units }
  let s2 := if x.hold.valid && decide (x.hold.pkg = s.fabric.num) then let i := accId x.hold.acct; let a := s1.accAt i; s1.setAcc i { a with created := a.created + 1#64 } else s1
  (u, if s.cancelling x.hold then s2.addDue [.unitCancelStop u] else s2)

/-- A new unit queued on a core (R284). -/
def State.addUnit (s : State) (x : Uni) (c : Nat) (front : Bool) : Nat × State :=
  let r := s.newUnit x
  (r.1, r.2.enqueue r.1 c front)

/-! ### Evacuation slots (R424) -/

/-- The launch that an account was created for. -/
def State.launchOf (s : State) (h : Handle) : Option LaunchInfo := (s.accAt (accId h)).launch

/-- The bytes of an extra slot. -/
def extraSlot : Nat := 8576 * 1024

/-- The base slot size S_L for a scratchpad of `sp` bytes. -/
def baseSlot (sp : Nat) : Nat := (384 * 1024 + sp + 65535) / 65536 * 65536

/-- The address of extra slot `i` of a launch's area. -/
def LaunchInfo.extra (l : LaunchInfo) (i : Nat) : Word := l.evac + BitVec.ofNat 64 (l.nBase * l.slotSize + i * extraSlot)

/-- The address of base slot `i`. -/
def LaunchInfo.slot (l : LaunchInfo) (i : Nat) : Word := l.evac + BitVec.ofNat 64 (i * l.slotSize)

/-- The lowest extra slot that no live unit holds. -/
def State.freeExtra (s : State) (l : LaunchInfo) (part : Nat) : Word :=
  let used := (s.hub.units.filter fun u => decide (u.2.st ≠ .ended) && decide (u.2.part = part)).map fun u => u.2.evac
  l.extra (((upFrom 0 (used.length + 1)).find? fun i => !used.contains (l.extra i)).getD 0)

/-! ### Leaving a core -/

/-- What stays on a core when its unit leaves: the queue and its candidates, triggers and messages, the handler's place,
logical time, the translation cache and the counters; the bounds and the mode are taken anew (R395). -/
def Core.vacated (x : Core) (ck qb : Nat) (mode : BitVec 2) : Core :=
  { phase := .left, raised := x.raised, standby := x.standby, shadowS := x.shadowS, queue := x.queue, trigs := x.trigs,
    arrivals := x.arrivals, held := x.held, handling := x.handling, trapq := x.trapq, pts := x.pts, tlb := x.tlb,
    issuedN := x.issuedN, conflicts := 0, nextPg := x.nextPg, part := x.part,
    ckBound := ck, qBound := qb, mode := mode, rtrap := x.rtrap }

/-- A core left by its unit, whose scratchpad, engines and holding the hub keeps. -/
def State.detach (s : State) (c : Nat) : State :=
  let x := s.coreAt c
  match x.unit with
  | none => s
  | some u =>
    let s1 := s.modUnit u fun y => { y with pad := x.pad, eng := x.engines, hold := x.hold, pts := x.pts, trees := x.joined }
    (s1.setCore c (x.vacated (vget 4096 s.hub.ckBound x.part) (vget 8192 s.hub.qBound x.part) s.hub.mode)).addDue [.unitAdmit c, .unitStart c]

/-! ### Handlers (R355 to R357) -/

/-- The unit table entry of a partition's handler, where it has one. -/
def State.handlerDecl (s : State) (p : Nat) : Option UnitDecl :=
  let h := (s.partAt p).handler
  if h = 0xFFFF#16 then none else (s.imageOf p).bind fun i => i.units[h.toNat]?

/-- The STANDBY unit back at the head of its priority, its rows given up where it had none before (R284); what the core issues until it is
QUEUED again does not age it (R288). -/
def State.demote (s : State) (c : Nat) : State :=
  match (s.coreAt c).standby with
  | none => s
  | some u =>
    match s.unitAt u with
    | none => s
    | some x =>
      let s1 := if x.ctx.isSome then s else s.freeRows u
      let s2 := s1.modUnit u fun y => { y with st := .queued, argFault := none, stamp := (s1.coreAt c).issuedN }
      s2.modCore c fun k => { k with standby := none, shadowS := [], queue := u :: k.queue }

/-- The handler unit created on a core for a trap (R356): priority 3, ahead of the STANDBY unit and of every QUEUED one, with s0 to s2 as its
block. -/
def State.createHandler (s : State) (c : Nat) (w : TrapWait) (d : UnitDecl) : State :=
  let here := match w.unit.bind s.unitAt with
    | some y => decide (y.hold.pkg = s.fabric.num)
    | none => true
  let evac := match (if here then s.launchOf w.acct else none) with
    | some l => s.freeExtra l w.part
    | none => 0#64
  let x : Uni :=
    { index := (s.partAt w.part).handler.toNat, part := w.part, decl := d, prio := 3, core := c, spot := { pin := c },
      argv := some (BitVec.ofNat 512 (w.recAt + w.ctxAt * 2 ^ 64 + w.acct.toNat * 2 ^ 128)), evac := evac, handler := some w }
  (((s.demote c).modCore c fun k => { k with handling := some w }).addUnit x c true).2

/-- TRAP_FORWARD: a trap record passed to the host (R355). -/
def State.forward (s : State) (c part : Nat) (addr : Word) (acct : Handle) : State :=
  s.event .trapForward 0 c (some part) addr acct

/-! ### The end of a unit (R282, R284, R310) -/

/-- Whether a channel holds nothing back. -/
def Chan.idle (c : Chan) : Bool := !c.walking && c.owned.isEmpty && c.pending.isNone

/-- Whether a circuit is over or never began. -/
def GlHandle.over (h : GlHandle) : Bool :=
  match h.st with
  | .free | .ended => true
  | .opening | .opn | .closing => false

/-- Whether a circuit of some unit of this package, or of another package, still lands in the rows of a unit. -/
def State.circuitsInto (s : State) (u : Nat) : Bool :=
  (s.hub.units.any fun y => (y.2.eng.gl.toList.any fun h => decide (h.dest = some u) && !h.over)
      || (decide ((s.coreAt y.2.core).unit = some y.1) && (s.coreAt y.2.core).gl.toList.any fun h => decide (h.dest = some u) && !h.over))
    || s.fabric.incoming.any fun g => decide (g.2.dest = some u)

/-- Whether nothing still reads or lands in a unit's rows: what it started, and the records, PUTs, GETs and circuits of others (R310). -/
def State.enginesIdle (s : State) (u : Nat) (x : Uni) : Bool :=
  x.eng.chans.toList.all Chan.idle && x.eng.gl.toList.all GlHandle.over
    && (s.hub.xfers.all fun t => t.2.faulted || (decide (t.2.unit ≠ u) && decide (t.2.land ≠ some u)))
    && (s.hub.ringIns.all fun r => decide (r.ring.map RingAt.unit ≠ some u)) && !s.circuitsInto u

/-- An ended unit whose engines have come to rest gives up its rows and is forgotten (R310). -/
def State.reap (s : State) (u : Nat) : State :=
  match s.unitAt u with
  | some x =>
    if x.st = .ended ∧ s.enginesIdle u x then
      let s1 := s.freeRows u
      s1.withHub { s1.hub with units := NatMap.del u s1.hub.units }
    else s
  | none => s

/-- Every ended unit that may now be forgotten. -/
def State.reapAll (s : State) : State := s.each State.reap ((s.hub.units.filter fun u => decide (u.2.st = UnitSt.ended)).map (·.1))

/-- A unit that is at its end: off the queues, its tokens on their way home from a combiner, ENDED counted (R284). -/
def State.retireUnit (s : State) (u : Nat) (x : Uni) (taint : Bool) (site : Nat) (pts : Word) : State :=
  let s1 := (s.dequeue u).giveHold site x.hold taint pts
  let s2 := if x.hold.valid && decide (x.hold.pkg = s.fabric.num) then let i := accId x.hold.acct; let a := s1.accAt i; s1.setAcc i { a with ended := a.ended + 1#64 } else s1
  (s2.modUnit u fun y => { y with st := .ended, hold := { x.hold with valid := false, pair := false }, ctx := none }).reap u

/-- The BROKEN contributions that a unit ended by cancellation makes (R308). -/
def State.breakTrees (s : State) (c : Nat) (trees : List Nat) : State :=
  s.addDue (trees.map fun t => Action.podBarrierCombine t (some c) 0#64 true)

/-- Channels that take no further record, their shadow chains dropped (R310); a record that faulted is not resumed. -/
def Chan.quit (c : Chan) : Chan :=
  { c with walking := false, pending := none, parked := false, faulted := [], owned := c.owned.filter fun x => !c.faulted.contains x }

/-- Whether a channel has no use for its tokens: its chain has ended and every record it owned is done (R268). -/
def Chan.spent (c : Chan) : Bool := !c.walking && c.owned.isEmpty && c.pending.isNone && !c.error && !c.toks.isEmpty

/-- The tokens of a list on their way home. -/
def State.giveToks (s : State) (site : Nat) (pts : Word) : List Tok → State
  | [] => s
  | t :: ts => State.giveToks (s.giveTok site t false pts) site pts ts

/-- The tokens of a channel that is done with them, on their way home. -/
def State.settleChan (s : State) (u site n : Nat) (pts : Word) : State :=
  let c := vget {} (s.engOf u).chans n
  if c.spent then (s.modEng u fun e => { e with chans := vput e.chans n { c with toks := [] } }).giveToks site pts c.toks
  else s

/-- The channels of a unit settled. -/
def State.dropChanToks (s : State) (u site : Nat) (pts : Word) : List Nat → State
  | [] => s
  | n :: ns => State.dropChanToks (s.settleChan u site n pts) u site pts ns

/-- Transfers that a fault stopped given up: nothing resumes them. -/
def State.dropFaulted (s : State) (u : Nat) : State :=
  let dead := (s.engOf u).chans.toList.flatMap Chan.faulted
  s.withHub { s.hub with xfers := s.hub.xfers.filter fun t => !dead.contains t.1 }

/-- The engines of a unit that leaves for good (R310): channels take no further record, the sparse-index operation ends. -/
def State.quitEngines (s : State) (u site : Nat) (pts : Word) : State :=
  let s1 := (s.dropFaulted u).modEng u fun e =>
    { e with chans := vmap (fun c => { c.quit with error := false }) e.chans, six := { e.six with run := none, shadow := none } }
  s1.dropChanToks u site pts (upFrom 0 8)

/-- The engines of a unit ended by cancellation (R268, R282): its channels run to completion, but for those in ERROR, which nothing resumes;
the sparse-index operation ends. -/
def State.quitBroken (s : State) (u site : Nat) (pts : Word) : State :=
  let s1 := (s.dropFaulted u).modEng u fun e =>
    { e with chans := vmap (fun c => if c.error then { c.quit with error := false } else c) e.chans, six := { e.six with run := none, shadow := none } }
  s1.dropChanToks u site pts (upFrom 0 8)

/-- The unit of a trap that no handler will take ends, wherever it is (R355). -/
def State.quitTrapped (s : State) (c : Nat) (w : TrapWait) : State :=
  match s.unitAt w.owner with
  | none => s
  | some y =>
    if y.st = .ended then s
    else
      let pts := match s.runsOn w.owner with | some d => (s.coreAt d).allPts | none => wmax y.pts (maxOf y.eng.weak)
      let s1 := s.quitEngines w.owner c pts
      let s2 := match s.runsOn w.owner with | some d => s1.detach d | none => s1
      s2.retireUnit w.owner ((s2.unitAt w.owner).getD y) false c pts

/-- The next trap that waits behind a handler (R357). A trap whose partition has no handler any more ends its unit and is forwarded (R355). -/
def State.nextTrap (s : State) (c : Nat) : List TrapWait → State
  | [] => s.modCore c fun x => { x with handling := none, trapq := [] }
  | w :: ws =>
    match s.handlerDecl w.part with
    | some d => (s.modCore c fun x => { x with handling := none, trapq := ws }).createHandler c w d
    | none =>
      State.nextTrap ((s.quitTrapped c w).forward c w.part (BitVec.ofNat 64 w.recAt) w.acct) c ws

/-- A unit that ends; a handler makes room for the next trap of its core (R284, R357). -/
def State.endUnit (s : State) (u : Nat) (taint : Bool) (site : Nat) (pts : Word) : State :=
  match s.unitAt u with
  | none => s
  | some x =>
    if x.st = .ended then s
    else
      let s1 := s.retireUnit u x taint site pts
      if x.handler.isSome then s1.nextTrap x.core (s1.coreAt x.core).trapq else s1

/-- The unit running on a core ends there: by EXIT, by cancellation or by a trap. -/
def State.endRunning (s : State) (c : Nat) (taint cancel : Bool) : State :=
  let x := s.coreAt c
  match x.unit with
  | none => s
  | some u =>
    let pts := x.allPts
    let s1 := if cancel then (s.breakTrees c x.joined).quitBroken u c pts else s.quitEngines u c pts
    (s1.detach c).endUnit u taint c pts

/-- A unit that is not running and whose home account is cancelling, discarded by the dispatcher (R282). -/
def State.discard (s : State) (u : Nat) : State :=
  match s.unitAt u with
  | none => s
  | some x =>
    if x.st = .ended ∨ x.st = .running then s
    else
      let pts := wmax x.pts (maxOf x.eng.weak)
      let s1 := (if x.trees.isEmpty then s else s.breakTrees x.core x.trees).quitBroken u x.core pts
      (s1.endUnit u false x.core pts).addDue [.unitAdmit x.core]

/-- A unit that traps of a weak agent or a full queue of traps end, on its core or off it (R355, R357). -/
def State.endAny (s : State) (u : Nat) (taint : Bool) : State :=
  match s.runsOn u, s.unitAt u with
  | some c, _ => s.endRunning c taint false
  | none, some x => let pts := wmax x.pts (maxOf x.eng.weak); (s.quitEngines u x.core pts).endUnit u taint x.core pts
  | none, none => s

/-! ### Circuits that land in a unit (R339) -/

/-- The end of a circuit begun (R339): nothing more is sent, and one still opening ends as soon as it opens. -/
def GlHandle.finish (h : GlHandle) (k : GlCause) (now : Nat) : GlHandle :=
  match h.st with
  | .free | .ended => h
  | .opening => if h.closeWith = .none then { h with closeWith := k } else h
  | .opn | .closing => if h.ending then h else { h with st := .closing, cause := k, ending := true, pend := [], endAt := now }

/-- The units that may hold circuits, the ranger core excepted. -/
def State.unitIds (s : State) : List Nat := s.hub.units.map (·.1)

/-- The circuits of a unit that land in the scratchpad of unit `d` end PREEMPTED. -/
def State.endLandingsOf (s : State) (d u : Nat) : State :=
  let hs := (upFrom 0 16).filter fun h =>
    let x := vget {} (s.engOf u).gl h
    decide (x.dest = some d) && decide (fld x.block 9 2 ≠ 0) && !x.over && !x.ending
  if hs.isEmpty then s
  else
    (s.modEng u fun e => { e with gl := Vector.ofFn fun i => let x := vget {} e.gl i.val; if hs.contains i.val then x.finish .preempted s.time else x }).addDue
      (hs.map fun h => Action.guylineSlotSend u h)

/-- The sources of circuits from other packages that land in a unit told that it is off its core. -/
def State.stopIncoming (s : State) (d : Nat) : List (Nat × GlIn) → State
  | [] => s
  | (k, g) :: rest =>
    if g.dest = some d ∧ fld g.block 9 2 ≠ 0 then
      State.stopIncoming (s.post { cls := 3#3, spkg := s.fabric.num, score := 0, dpkg := BitVec.ofNat 16 (k / 2 ^ 32), dcore := 0, label := 0#16,
                                   podid := (s.partAt g.part).podid, tok := none, body := .glFault (k % 2 ^ 32) none 0#64 }) d rest
    else State.stopIncoming s d rest

/-- Circuits that land in the raw region or a ring of a unit that is pre-empted or spilled end PREEMPTED (R339). -/
def State.endLandings (s : State) (d : Nat) : State := (s.each (fun s u => s.endLandingsOf d u) s.unitIds).stopIncoming d s.fabric.incoming

/-! ### Spilling (R199, R290, R377) -/

/-- Bytes landed in a unit's scratchpad, in the rows or in the spilled image (R199, R377). -/
def State.padWrite (s : State) (u off : Nat) (bs : List Byte) : State :=
  match s.unitAt u with
  | none => if u = 0 then s.modPad 0 fun p => { p with bytes := cellsSet p.bytes off bs } else s
  | some x =>
    if x.spilled then
      match s.slotPages x.part (stackOf x.core) x.evac 0 (6 + (x.decl.rows * 1024 + 65535) / 65536) with
      | .error _ => s
      | .ok ps => s.slotWrite ps (spillOff + off) bs.length (ofBytes bs)
    else s.modPad u fun p => { p with bytes := cellsSet p.bytes off bs }

/-- Bytes read from a unit's scratchpad. -/
def State.padRead (s : State) (u off n : Nat) : List Byte :=
  match s.unitAt u with
  | none => if u = 0 then cellsAt (s.padOf 0).bytes off n else List.replicate n 0#8
  | some x =>
    if x.spilled then
      match s.slotPages x.part (stackOf x.core) x.evac 0 (6 + (x.decl.rows * 1024 + 65535) / 65536) with
      | .error _ => List.replicate n 0#8
      | .ok ps => toBytes n (s.slotRead ps (spillOff + off) n)
    else cellsAt (s.padOf u).bytes off n

/-- Memory cells of a scratchpad written to the pages of a slot, page `i` up. -/
def State.spillPages (s : State) (pad : List Host.Cell) : Nat → List Nat → State
  | _, [] => s
  | i, pa :: ps =>
    let m := cellsPut (cellsDrop pa (2 ^ 16) s.mem) (cellsMove (i * 2 ^ 16) (2 ^ 16) pa pad)
    State.spillPages { s with mem := m, hub := { s.hub with ts := tsSpan (lineOf pa) 1024 s.hub.ts } } pad (i + 1) ps

/-- The declaration of a unit; number 0 is the ranger core. -/
def State.declOf (s : State) (u : Nat) : UnitDecl :=
  if u = 0 then (s.coreAt rangerId).decl else ((s.unitAt u).map Uni.decl).getD {}

/-- A stash line once its weak bytes `m` have gone home at the times `t`: a copy of the version that the home slice then held is one of the new
version; a line never filled holds nothing more once no weak byte is left (R201, R202). -/
def StashLine.wrote (l : StashLine) (m : BitVec 64) (before t : LineTs) : Option StashLine :=
  let k := l.clean m
  if l.filled then some (if l.wts = before.wts then { k with wts := t.wts, lease := t.rts } else k)
  else if k.mask = 0#64 then none else some k

/-- The stash lines of a scratchpad with one replaced or removed. -/
def Spad.setLine (p : Spad) (k : Nat) (l : Option StashLine) : Spad :=
  { p with lines := match l with | some x => NatMap.put k x p.lines | none => NatMap.del k p.lines }

/-- Engine-dirty lines written back: the bytes that weak agents wrote under some colours go home as weak writes of those colours (R202, R226,
R227, R228). -/
def State.writeBack (s : State) (u : Nat) (colours : BitVec 8) : List (Nat × StashLine) → State
  | [] => s
  | (k, l) :: ks =>
    let m := l.weak colours
    if m = 0#64 then State.writeBack s u colours ks
    else
      let bs := s.padRead u ((s.declOf u).stashBase + 64 * k) 64
      let cells := (upFrom 0 64).filterMap fun i => if m.getLsbD i then some (l.pa * 64 + i, bs.getD i 0#8) else none
      let before := s.tsAt l.pa
      let t := weakTs before
      let c := ((s.unitAt u).map Uni.core).getD rangerId
      let s1 := ((s.touch (s.coherentFor c (64 * l.pa)) (64 * l.pa) (agentStack c) true t.wts).setTs l.pa t).modPad u fun p =>
        p.setLine k (l.wrote m before t)
      let s2 := (upFrom 0 8).foldl (fun s c => if vget 0#64 l.dirty c &&& m ≠ 0#64 then s.raiseWeak u c t.wts else s) s1
      State.writeBack (s2.putCells cells) u colours ks

/-- Every Engine-dirty line of a unit written back. -/
def State.writeBackAll (s : State) (u : Nat) : State := s.writeBack u 0xFF#8 (s.padOf u).lines

/-- A suspended unit's scratchpad written to its slot, its Engine-dirty lines home, and its rows given up; a slot that does not translate ends the unit
(R424). -/
def State.spill (s : State) (u : Nat) : State :=
  match (s.writeBackAll u).unitAt u with
  | none => s
  | some x =>
    let s := (s.writeBackAll u).endLandings u
    match s.slotPages x.part (stackOf x.core) x.evac 6 ((x.rows * 1024 + 65535) / 65536) with
    | .error va =>
      (s.event .evacFault 0 x.core (some x.part) va x.hold.acct).endUnit u true x.core x.pts
    | .ok ps =>
      let s1 := s.spillPages x.pad.bytes 0 ps
      (s1.modUnit u fun y => { y with spilled := true, pad := { y.pad with bytes := [], lines := [] } }).freeRows u

/-- A unit whose context was spilled leaves the queue for its place to be chosen again (R284). -/
def State.respot (s : State) (u : Nat) : State :=
  match s.unitAt u with
  | none => s
  | some x =>
    if x.spot.place = 1 ∨ ¬ x.spilled then s
    else ((s.dequeue u).modUnit u fun y => { y with st := .created }).addDue [.unitPlace (16384 + u) 0]

/-- The bytes of the pages of a slot, page `i` up, as scratchpad cells. -/
def State.unspillPages (s : State) : Nat → List Nat → List Host.Cell
  | _, [] => []
  | i, pa :: ps => cellsMove pa (2 ^ 16) (i * 2 ^ 16) s.mem ++ State.unspillPages s (i + 1) ps

/-- A spilled unit's scratchpad read back from its slot. -/
def State.unspill (s : State) (u : Nat) : State :=
  match s.unitAt u with
  | none => s
  | some x =>
    if !x.spilled then s
    else
      match s.slotPages x.part (stackOf x.core) x.evac 6 ((x.decl.rows * 1024 + 65535) / 65536) with
      | .error va => (s.event .evacFault 0 x.core (some x.part) va x.hold.acct).endUnit u true x.core x.pts
      | .ok ps => s.modUnit u fun y => { y with spilled := false, pad := { y.pad with bytes := s.unspillPages 0 ps } }

/-! ### Saving and resuming (R421 to R423) -/

/-- A unit's context written to its slot and the unit off its core, SUSPENDED; or the address that did not translate. -/
def State.suspend (s : State) (c : Nat) (kind : CtxKind) (t : Taken) : Except Word State :=
  let x := s.coreAt c
  match x.unit with
  | none => .ok s
  | some u =>
    match s.unitAt u with
    | none => .ok s
    | some y =>
      match s.slotPages x.part (stackOf c) y.evac 0 6 with
      | .error va => .error va
      | .ok ps =>
        let s1 := (s.slotWriteAll ps (t.pieces kind x.hold x.pts x.pad x.engines s.time)).touchSlot x.part (stackOf c) y.evac true 0 6
        let k : Saved :=
          { planes := t.arch.planes, loads := t.arch.loads, active := t.arch.active, sinceBeat := t.arch.sinceBeat,
            fBusy := t.arch.fBusy, claims := t.arch.claims, late := t.late.filter Flight.late, queues := t.queues,
            bound := t.arch.bound, fence := x.fence }
        .ok ((s1.detach c).modUnit u fun z => { z with st := .suspended, ctx := some kind, saved := k, skipK := false })

/-- The state of a core at the entry of a unit (R285, R409). -/
def Core.entry (x : Core) (u : Nat) (y : Uni) (code : Code) (s07 : Block) (ck qb : Nat) (mode : BitVec 2) : Core :=
  let regs : Vector Word 64 := Vector.ofFn fun i =>
    if i.val < 8 then BitVec.ofNat 64 (fld s07 (64 * i.val) 64)
    else if i.val = 8 then y.s8 else if i.val = 9 then y.s9 else if i.val = 10 then y.s10 else 0#64
  let a : Arch := { pc := y.decl.entry.setWidth 64, s := regs, qSpan := qb }
  { x.vacated ck qb mode with
    arch := a, shadow := a, atCk := true, phase := .fresh, raised := none, unit := some u, standby := none, shadowS := [], decl := y.decl,
    hold := y.hold, part := y.part, isHandler := y.handler.isSome, code := code, pts := wmax x.pts y.pts,
    trapRec := match y.handler with | some w => BitVec.ofNat 64 w.recAt | none => 0#64 }

/-- The standby unit of a core starts (R284): its entry bundle is the next to issue. -/
def State.startFresh (s : State) (c u : Nat) (y : Uni) : State :=
  let x := s.coreAt c
  let img := (s.imageOf y.part).getD {}
  let s07 := BitVec.ofNat 512 (digits 64 (fun i => (x.shadowS.getD i 0#64).toNat) 8 0)
  let k := x.entry u y img.code s07 (vget 4096 s.hub.ckBound y.part) (vget 8192 s.hub.qBound y.part) s.hub.mode
  (s.setCore c k).modUnit u fun z => { z with st := .running, started := true }

/-- Withheld stores of a context translated again, since their interval commits under the tables of the resume (R364, R423); or the first
that does not translate. -/
def State.retranslate (s : State) (c : Nat) : List WLine → Except (Cause × Word) (List WLine × State)
  | [] => .ok ([], s)
  | w :: ws =>
    let va := BitVec.ofNat 64 (64 * w.va)
    match s.access c va true true with
    | .error k => .error (k, va)
    | .ok (pa, s1) =>
      match State.retranslate s1 c ws with
      | .ok (vs, t) => .ok ({ w with pa := lineOf pa } :: vs, t)
      | .error e => .error e

/-- Withheld stores as a checkpoint has them, translated again in a sequencer; one that does not translate traps before the first bundle
issues. -/
def State.keepStores (s : State) (c : Nat) (ws : List WLine) : State :=
  match s.retranslate c ws, (s.coreAt c).unit with
  | .ok (vs, t), _ => t.modCore c fun x => { x with withheld := vs, saved := vs, firstStore := !vs.isEmpty }
  | .error f, some u => s.modUnit u fun z => { z with argFault := some f }
  | .error _, none => s

/-- The engines that a context image holds (R187, R250, R330). -/
def State.enginesFrom (s : State) (pages : List Nat) (e : Engines) : Engines :=
  { e with
    chans := Vector.ofFn fun n => (vget {} e.chans n.val).fromImage (s.slotRead pages (ctxOff + 0xC80 + 128 * n.val) 128)
    six := sixFrom (s.slotRead pages (ctxOff + 0x1080) 640)
    gl := Vector.ofFn fun h => (vget {} e.gl h.val).fromImage (s.slotRead pages (ctxOff + 0xB80 + 16 * h.val) 16) }

/-- The scratchpad with what a context image says of its stash lines; HELD bytes stand from before the checkpoint of the resume (R199). -/
def State.padFrom (s : State) (pages : List Nat) (p : Spad) : Spad :=
  { p with lines := linesFrom (s.slotRead pages (ctxOff + 0x2300) 2048) p.lines, rings := vmap (fun r => { r with kept := r.held }) p.rings }

/-- A suspended unit resumes on a core from its context image (R423). -/
def State.resumeOn (s : State) (c u : Nat) (y : Uni) : State :=
  let x := s.coreAt c
  match s.slotPages y.part (stackOf c) y.evac 0 6 with
  | .error va =>
    ((s.setCore c { x with standby := none }).event .evacFault 0 c (some y.part) va y.hold.acct).endUnit u true c y.pts
  | .ok ps =>
    let img := (s.imageOf y.part).getD {}
    let h := s.slotRead ps ctxOff 512
    let qb := vget 8192 s.hub.qBound y.part
    let a := { s.archFrom ps y.saved y.saved.bound with qSpan := qb }
    let late := (s.lateFrom ps (ctxOff + 0x41000) y.saved.late).map fun f => { f with latch := none, old := true }
    let qs := s.queuesFrom ps y.saved.queues 8 (ctxOff + 0x2B000)
    let stores := s.storesFrom ps (ctxOff + 0x3C000) (min 256 (bits h 16 9))
    let e := s.enginesFrom ps y.eng
    let rz := headerRz h || imageRz ((upFrom 0 16).map fun i => s.slotRead ps (ctxOff + 0x700 + 64 * i) 64) (s.slotRead ps (ctxOff + 0x1080) 80)
      || s.entriesRz ps (ctxOff + 0x2B000) (sumOf List.length y.saved.queues.toList) || s.entriesRz ps (ctxOff + 0x41000) y.saved.late.length
    let k : Core :=
      { x.vacated (vget 4096 s.hub.ckBound y.part) qb s.hub.mode with
        arch := a, shadow := a, phase := .fresh, raised := none, unit := some u, standby := none, shadowS := [],
        q := Vector.ofFn fun i => { entries := qs.getD i.val [], retained := [] },
        flights := late, carry := late, atCk := true, done := BitVec.ofNat 3 (bits h 13 3) ||| (if y.skipK then 4#3 else 0#3),
        withheld := stores, saved := stores, firstStore := !stores.isEmpty, decl := y.decl, hold := y.hold, part := y.part,
        isHandler := y.handler.isSome, code := img.code, pts := wmax x.pts (BitVec.ofNat 64 (bits h 128 64)), pad := s.padFrom ps y.pad,
        chans := e.chans, six := e.six, gl := e.gl, weak := e.weak, fence := y.saved.fence, joined := y.trees,
        trapRec := match y.handler with | some w => BitVec.ofNat 64 w.recAt | none => 0#64 }
    let s1 := (((s.setCore c k).modUnit u fun z => { z with st := .running, ctx := none, skipK := false, pad := {}, eng := {}, saved := {} }).touchSlot
      y.part (stackOf c) y.evac false 0 6).keepStores c stores
    if rz then s1.event .engineRz 0 c (some y.part) (y.evac + BitVec.ofNat 64 ctxOff) y.hold.acct else s1

end Sys2Proof.Machine
end

