-- ==== Sys2Proof/Machine/Operands.lean ====
section
/-! DEFINITION. Every operand form (R39 to R43, R45, R138): what a source field of each class delivers, the traps of a field
in the order of R479, and the pops it makes. Reads see the registers and queues as the bundle found them. -/

namespace Sys2Proof.Machine

/-! ### Immediates and specials in the element type of the field (R41, R138) -/

/-- The type in which a scalar field is read. -/
inductive STy where
  | int | f32 | f64
deriving DecidableEq, Repr

/-- The type in which a vector field is read: an element type, the 8-bit types of VCVTX, whole lanes, or FX64. -/
inductive VTy where
  | ty (t : VType)
  | e4m3 | e5m2 | n8 | raw | fx
deriving DecidableEq, Repr

/-- A small integer in a floating format, rounded to nearest even (R41). -/
def Fmt.small (f : Fmt) (v : Int) : Nat := (f.ofInt .near false v).1

/-- A small integer delivered to a scalar field. -/
def STy.small (t : STy) (v : Int) : Word :=
  match t with
  | .int => BitVec.ofInt 64 v
  | .f32 => BitVec.ofNat 64 (fp32.small v)
  | .f64 => BitVec.ofNat 64 (fp64.small v)

/-- Two copies of a 16-bit element. -/
def twice16 (x : Nat) : BitVec 32 := BitVec.ofNat 32 (x % 2 ^ 16 * 0x10001)

/-- Four copies of an 8-bit element. -/
def four8 (x : Nat) : BitVec 32 := BitVec.ofNat 32 (x % 2 ^ 8 * 0x1010101)

/-- A small integer in one lane of a vector field. -/
def VTy.small (t : VTy) (v : Int) (i : Nat) : BitVec 32 :=
  match t with
  | .ty .f32 => BitVec.ofNat 32 (fp32.small v)
  | .ty .bf16 => twice16 (bf16.small v)
  | .ty .f16 => twice16 (fp16.small v)
  | .ty .i32 | .ty .n32 | .raw => BitVec.ofInt 32 v
  | .ty .i16 | .ty .n16 => twice16 (wrapTo 16 v)
  | .ty .i8 | .n8 => four8 (wrapTo 8 v)
  | .e4m3 => four8 (Sys2Proof.Machine.e4m3.small v)
  | .e5m2 => four8 (Sys2Proof.Machine.e5m2.small v)
  | .fx => if i % 2 = 0 then BitVec.ofInt 32 v else (if v < 0 then 0xFFFFFFFF#32 else 0#32)

/-- DIEID (R11). -/
def State.dieId (s : State) : Nat := if s.cur = rangerId then 8 else stackOf s.cur

/-- Whether the literal word is readable: header bit L (R34, R35). -/
def Core.lit (x : Core) : Bool := bitAt x.header 28

/-! ### Registers -/

/-- A scalar register. -/
def Arch.sreg (a : Arch) (n : BitVec 6) : Word := vget 0#64 a.s n.toNat

/-- A vector register. -/
def Arch.vreg (a : Arch) (n : BitVec 6) : Lanes := vget 0#4096 a.v n.toNat

/-- A mask register; m0 reads as all ones (R20). -/
def Arch.mreg (a : Arch) (n : Nat) : LaneMask := if n = 0 then BitVec.allOnes 128 else vget 0#128 a.m n

/-- A predicate; p0 reads as true (R20). -/
def Arch.preg (a : Arch) (n : Nat) : Bool := if n = 0 then true else vget false a.p n

/-! ### Queues (R43, R203) -/

/-- A declared queue. -/
def Core.hasQueue (x : Core) (q : BitVec 3) : Bool := x.decl.qmask.getLsbD q.toNat

/-- A queue. -/
def Core.queueAt (x : Core) (q : BitVec 3) : Queue := vget {} x.q q.toNat

/-- The head entry as a field of class v (`vec`) or s reads it, with the carried mask, or the field's trap. -/
def Core.head (x : Core) (q : BitVec 3) (vec : Bool) : Except Cause (Val × LaneMask) :=
  if !x.hasQueue q then .error .queueUndeclared
  else
    match (x.queueAt q).entries with
    | [] => .error .queueEarly
    | e :: _ =>
      let isVec := match e.val with | .vector _ => true | .scalar _ | .mask _ | .pred _ => false
      if isVec != vec then .error .queueClass
      else if !e.filled then .error .queueEarly
      else .ok (e.val, e.mask)

/-- A latch (R42). -/
def Core.latchAt (x : Core) (n : BitVec 3) : Option Val := vget none x.latches n.toNat

/-! ### Source fields -/

/-- A scalar source field (R39, R40). -/
def State.readS (s : State) (t : STy) (a : Src) : Except Cause Word :=
  let x := s.core
  match a with
  | .reg n => .ok (x.arch.sreg n)
  | .latch n =>
    match x.latchAt n with
    | some (.scalar v) => .ok v
    | some (.vector _) | some (.mask _) | some (.pred _) | none => .error .latchLost
  | .pop q | .peek q =>
    match x.head q false with
    | .ok (.scalar v, _) => .ok v
    | .ok _ => .error .queueClass
    | .error k => .error k
  | .special n =>
    match n with
    | 0#3 => .ok (t.small 0)
    | 1#3 => .ok (t.small 1)
    | 4#3 => .ok (BitVec.ofNat 64 s.cur)
    | 5#3 => .ok (BitVec.ofNat 64 s.dieId)
    | 6#3 => if x.lit then .ok (x.literal.signExtend 64) else .error .illegal
    | 7#3 => if x.lit then .ok (x.literal.setWidth 64) else .error .illegal
    | _ => .error .illegal
  | .imm n => .ok (t.small n.toInt)

/-- A vector source field with the mask that a queue entry carries; any other operand counts as all ones (R39, R40,
R243). -/
def State.readVM (s : State) (t : VTy) (a : Src) : Except Cause (Lanes × LaneMask) :=
  let x := s.core
  let all (v : Lanes) : Except Cause (Lanes × LaneMask) := .ok (v, BitVec.allOnes 128)
  match a with
  | .reg n => all (x.arch.vreg n)
  | .latch n =>
    match x.latchAt n with
    | some (.vector v) => all v
    | some (.scalar _) | some (.mask _) | some (.pred _) | none => .error .latchLost
  | .pop q | .peek q =>
    match x.head q true with
    | .ok (.vector v, m) => .ok (v, m)
    | .ok _ => .error .queueClass
    | .error k => .error k
  | .special n =>
    match n with
    | 0#3 => all (laneTab (t.small 0))
    | 1#3 => all (laneTab (t.small 1))
    | 2#3 => all (laneTab fun i => BitVec.ofNat 32 i)
    | 3#3 => all (laneTab fun i => BitVec.ofNat 32 (i / 16))
    | 4#3 => all (laneTab fun _ => BitVec.ofNat 32 s.cur)
    | 5#3 => all (laneTab fun _ => BitVec.ofNat 32 s.dieId)
    | 6#3 => if x.lit then all (x.literal.setWidth 4096) else .error .illegal
    | _ => if x.lit then all (laneTab fun _ => x.literal) else .error .illegal
  | .imm n => all (laneTab (t.small n.toInt))

/-- A vector source field. -/
def State.readV (s : State) (t : VTy) (a : Src) : Except Cause Lanes := (s.readVM t a).map (·.1)

/-- A mask source field (R39). -/
def State.readM (s : State) (a : Src) : Except Cause LaneMask :=
  match a with
  | .reg n => if n.toNat < 8 then .ok (s.core.arch.mreg n.toNat) else .error .illegal
  | .special n => if n = 0#3 then .ok 0#128 else if n = 1#3 then .ok (BitVec.allOnes 128) else .error .illegal
  | .latch _ | .pop _ | .peek _ | .imm _ => .error .illegal

/-- A predicate source field (R39). -/
def State.readP (s : State) (a : Src) : Except Cause Bool :=
  match a with
  | .reg n => if n.toNat < 8 then .ok (s.core.arch.preg n.toNat) else .error .illegal
  | .special n => if n = 0#3 then .ok false else if n = 1#3 then .ok true else .error .illegal
  | .latch _ | .pop _ | .peek _ | .imm _ => .error .illegal

/-- The number in an accumulator or stream field (R39). -/
def Src.number (a : Src) : Nat :=
  match a with
  | .reg n => n.toNat
  | .latch _ | .pop _ | .peek _ | .special _ | .imm _ => 0

/-- The pops of a list of source fields noted: they take effect after every read of the bundle (R43, R48). -/
def Core.notePops (x : Core) : List Src → Core
  | [] => x
  | .pop q :: as => Core.notePops { x with popped := x.popped ||| (1#8 <<< q.toNat) } as
  | _ :: as => Core.notePops x as

end Sys2Proof.Machine
end

