-- ==== Sys2Proof/Machine/Ops.lean ====
section
/-! DEFINITION. The operations that the meanings share: results in flight and their landing (R49 to R52), queues, performed
loads (R219), checkpoints (R409 to R413), rollback (R415, R416), taking a trap (R355 to R357, R400) and returning from one,
and the issue of one slot. -/

namespace Sys2Proof.Machine

/-- Why a slot does not issue: a cause with its address, or a wait for what `want` says. -/
inductive Stop where
  | trap (k : Cause) (addr : Word)
  | wait (want : List Action)
deriving DecidableEq, Repr

/-- A trap with no address. -/
def Stop.cause (k : Cause) : Stop := .trap k 0#64

/-- A result or a cause, as a result or a stop. -/
def liftC {α : Type} : Except Cause α → Except Stop α
  | .ok x => .ok x
  | .error k => .error (.trap k 0#64)

/-- Goes on when a condition holds, else traps. -/
def need (b : Bool) (k : Cause) (addr : Word := 0#64) : Except Stop Unit := if b then .ok () else .error (.trap k addr)

/-! ### Results (R46, R47, R49, R142) -/

/-- The latch of a slot: words 1 to 8 set b0 to b7 (R42). -/
def slotLatch (slot : Nat) : Option (BitVec 3) := if 1 ≤ slot ∧ slot ≤ 8 then some (BitVec.ofNat 3 (slot - 1)) else none

/-- The state with a result of the slot in issue put in flight. -/
def State.fly (s : State) (lat : Nat) (dest : Dest) (v : Val) (mask : LaneMask) (flags : FlagSet) : State :=
  let x := s.core
  s.withCore { x with flights := x.flights ++ [
    { left := lat, dest := dest, val := v, mask := mask, flags := flags, latch := slotLatch x.slot, pc := x.arch.pc,
      slot := x.slot, slotWord := x.word, header := x.header, old := false }] }

/-- The queue that QBIND binds a register of class v or s to, for a slot of S, V or F (R142). -/
def Core.boundQueue (x : Core) (vec : Bool) (n : BitVec 6) : Option (BitVec 3) :=
  if 1 ≤ x.slot ∧ x.slot ≤ 6 then
    ((upFrom 0 8).find? fun q =>
      bitAt x.arch.qbind (8 * q + 7) && decide (bitAt x.arch.qbind (8 * q + 6) = vec)
        && decide (fld x.arch.qbind (8 * q) 6 = n.toNat)).map (BitVec.ofNat 3)
  else none

/-- A push of the slot in issue noted. -/
def Core.notePush (x : Core) (q : BitVec 3) : Core := { x with pushed := x.pushed ||| (1#8 <<< q.toNat) }

/-- A scalar result: to its register, to the queue bound to it, or with NOWB to the latch alone. -/
def State.resultS (s : State) (nowb : Bool) (d : BitVec 6) (lat : Nat) (v : Word) (flags : FlagSet := noFlags) : Except Stop State :=
  let all := BitVec.allOnes 128
  if nowb then .ok (s.fly lat .none (.scalar v) all flags)
  else
    match s.core.boundQueue false d with
    | some q =>
      if s.core.hasQueue q then .ok ((s.fly lat (.queue q) (.scalar v) all flags).withCore ((s.fly lat (.queue q) (.scalar v) all flags).core.notePush q))
      else .error (.cause .queueUndeclared)
    | none => .ok (s.fly lat (.s d) (.scalar v) all flags)

/-- A vector result. `wmask` are the lanes written; a pushed entry holds zero in the others and carries `carry`; with NOWB
the latch takes the value merged with the register that the destination field names (R46, R47, R143). -/
def State.resultV (s : State) (nowb : Bool) (d : BitVec 6) (lat : Nat) (v : Lanes) (wmask carry : LaneMask)
    (flags : FlagSet := noFlags) : Except Stop State :=
  if nowb then .ok (s.fly lat (.latchV d) (.vector v) wmask flags)
  else
    match s.core.boundQueue true d with
    | some q =>
      let t := s.fly lat (.queue q) (.vector (mergeLanes wmask v 0#4096)) carry flags
      if s.core.hasQueue q then .ok (t.withCore (t.core.notePush q)) else .error (.cause .queueUndeclared)
    | none => .ok (s.fly lat (.v d) (.vector v) wmask flags)

/-- A mask result. -/
def State.resultM (s : State) (nowb : Bool) (d : BitVec 6) (lat : Nat) (v wmask : LaneMask) : State :=
  s.fly lat (if nowb then .none else .m (d.setWidth 3)) (.mask v) wmask noFlags

/-- A predicate result. -/
def State.resultP (s : State) (nowb : Bool) (d : BitVec 6) (lat : Nat) (v : Bool) : State :=
  s.fly lat (if nowb then .none else .p (d.setWidth 3)) (.pred v) (BitVec.allOnes 128) noFlags

/-- A form with no result: it leaves its slot's latch lost at the next bundle (R42, DEDUCED, log entry 12). -/
def State.noResult (s : State) : State := s.fly 1 .none (.pred false) (BitVec.allOnes 128) noFlags

/-! ### Landing (R48, R51, R86) -/

/-- What a landing result leaves in its latch: a scalar or vector value, else the latch is lost. -/
def landedLatch (x : Core) (f : Flight) : Option Val :=
  match f.val with
  | .scalar v => some (.scalar v)
  | .vector v =>
    match f.dest with
    | .v n | .latchV n => some (.vector (mergeLanes f.mask v (x.arch.vreg n)))
    | .queue _ | .none | .s _ | .m _ | .p _ | .raw _ => some (.vector v)
  | .mask _ | .pred _ => none

/-- An entry pushed at the tail of a queue. -/
def Core.pushEntry (x : Core) (q : BitVec 3) (e : QEntry) : Core :=
  let y := x.queueAt q
  { x with q := vput x.q q.toNat { y with entries := y.entries ++ [e] } }

/-- What a landing result writes. -/
def landedDest (x : Core) (f : Flight) : Core :=
  let a := x.arch
  match f.dest, f.val with
  | .s n, .scalar v => { x with arch := { a with s := vput a.s n.toNat v } }
  | .v n, .vector v => { x with arch := { a with v := vput a.v n.toNat (mergeLanes f.mask v (a.vreg n)) } }
  | .m n, .mask v => if n = 0#3 then x else { x with arch := { a with m := vput a.m n.toNat (mergeMask f.mask v (a.mreg n.toNat)) } }
  | .p n, .pred b => if n = 0#3 then x else { x with arch := { a with p := vput a.p n.toNat b } }
  | .queue q, v =>
    x.pushEntry q { val := v, mask := f.mask, filled := true, kind := .result, id := 0, old := false, req := none }
  | .raw cs, _ => { x with pad := { x.pad with bytes := cellsPut x.pad.bytes cs } }
  | _, _ => x

/-- One result lands: its destination, its latch, its flags. -/
def Core.land (x : Core) (f : Flight) : Core :=
  let l := landedLatch x f
  let y := landedDest x f
  let z := { y with arch := { y.arch with arith := arithRaise y.arch.arith f.flags } }
  match f.latch with
  | some k => { z with latches := vput z.latches k.toNat l }
  | none => z

/-- A list of results lands in order. -/
def Core.landAll (x : Core) : List Flight → Core
  | [] => x
  | f :: fs => Core.landAll (x.land f) fs

/-- A plane with a load applied (R176, R177). -/
def Plane.load (p : Plane) (l : PlaneLoad) : Plane :=
  if l.shift then
    let old := padTo none 64 p.rows
    if p.rows.isEmpty then { fmt := l.fmt, gang := .g88, rows := padTo none 64 (l.rows.map some) }
    else { p with rows := (l.rows.map some ++ old).take 64 }
  else { fmt := l.fmt, gang := l.gang, rows := l.rows.map some }

/-- The planes with a list of loads applied in order: a load of plane 1 or 0. -/
def loadPlanes (ps : Vector Plane 2) : List PlaneLoad → Vector Plane 2
  | [] => ps
  | l :: ls => let i := b2n l.plane; loadPlanes (vput ps i ((vget {} ps i).load l)) ls

/-- The counts of issue one bundle on: loads of planes that are due apply (R176), the spacings of R53 and R181 shrink, the
reserved landings come nearer. -/
def Arch.tick (a : Arch) : Arch :=
  let ls := a.loads.map fun l => { l with left := l.left - 1 }
  let cs := a.claims.map fun c => { c with left := c.left - 1 }
  { a with
    planes := loadPlanes a.planes (ls.filter fun l => decide (l.left = 0)), loads := ls.filter fun l => decide (l.left ≠ 0),
    sinceBeat := vmap (fun n => min 8 (n + 1)) a.sinceBeat, fBusy := a.fBusy - 1,
    claims := cs.filter fun c => decide (c.left ≠ 0) }

/-- The results in flight one bundle on; at a checkpoint bundle that is replayed or resumed they stand as its carry list
counts them (R412, R415, R422). -/
def Core.nearer (x : Core) : List Flight := if x.atCk then x.flights else x.flights.map fun f => { f with left := f.left - 1 }

/-- The results that land at the bundle about to begin. -/
def Core.due (x : Core) : List Flight := x.nearer.filter fun f => decide (f.left = 0)

/-- A bundle begins: every result in flight comes one bundle nearer, and those that are due land (R49, R51). -/
def Core.advance (x : Core) : Core :=
  let a := if x.atCk then x.arch else x.arch.tick
  Core.landAll { x with arch := a, flights := x.nearer.filter fun f => decide (f.left ≠ 0) } x.due

/-- A group switch: every latch is lost, and results in flight make none valid (R52). -/
def Core.groupSwitch (x : Core) : Core :=
  { x with latches := Vector.replicate 8 none, flights := x.flights.map fun f => { f with latch := none } }

/-! ### Loads performed at home (R203, R219, R222) -/

/-- The distinct lines, neighbour by neighbour, that a load reads at home: bytes supplied by forwarding need none. -/
def LoadReq.lines (r : LoadReq) : List Nat :=
  squeeze (r.bytes.filterMap fun b => match b.2 with | none => some (lineOf b.1) | some _ => none)

/-- The bytes of a load as performed now. -/
def State.loadValue (s : State) (r : LoadReq) : List Byte := r.bytes.map fun b => b.2.getD (cellAt s.mem b.1)

/-- A line held for the anchored interval of a sequencer (R224). -/
def State.holdLine (s : State) (c line : Nat) : State :=
  if (s.coreAt c).anchored then
    match s.hub.anchor with
    | some (o, g, ls) => if o = c then s.withHub { s.hub with anchor := some (o, g, line :: ls) } else s
    | none => s
  else s

/-- One line read by a sequencer: the region's state, the timestamps, the version kept for renewal where the load follows
a store of its interval, and the hold of an anchored interval (R212, R219, R222, R224). -/
def State.readLine (s : State) (c line : Nat) (after : Bool) : State :=
  let x := s.coreAt c
  let t := s.tsAt line
  let r := s.loadTs x.pts line
  let s1 := r.1.touch (s.coherentFor c (line * 64)) (line * 64) (agentStack c) false r.2
  (s1.modCore c fun y => { y with pts := r.2, reads := if after then y.reads ++ [(line, t.wts)] else y.reads }).holdLine c line

/-- A list of lines read in order. -/
def State.readLines (s : State) (c : Nat) (after : Bool) : List Nat → State
  | [] => s
  | l :: ls => State.readLines (s.readLine c l after) c after ls

/-- The value that a queue load makes of its bytes (R240). -/
def LoadFmt.value (f : LoadFmt) (bs : List Byte) : Val :=
  match f with
  | .scalar signed => .scalar (if signed then sext (8 * bs.length) (ofBytes bs) else BitVec.ofNat 64 (ofBytes bs))
  | .lanes => .vector (BitVec.ofNat 4096 (ofBytes bs))
  | .gather n => .vector (laneTab fun i => BitVec.ofNat 32 (ofBytes ((bs.drop (n * i)).take n)))

/-- The entries of a queue with the first load among them that waits, if any. -/
def firstWaiting : List QEntry → Option LoadReq
  | [] => none
  | e :: es => match e.req with
    | some r => some r
    | none => firstWaiting es

/-- The entries of a queue with the value of the first load that waits filled in. -/
def fillFirst (v : Val) : List QEntry → List QEntry
  | [] => []
  | e :: es => match e.req with
    | some _ => { e with val := v, filled := true, req := none } :: es
    | none => e :: fillFirst v es

/-- The load of a core that was issued first among those waiting: the one of the lowest id. -/
def Core.oldestLoad (x : Core) : Option (Nat × LoadReq) :=
  let cands := (upFrom 0 8).filterMap fun q =>
    ((vget {} x.q q).entries.find? fun e => e.req.isSome).bind fun e => e.req.map fun r => (q, e.id, r)
  match cands with
  | [] => none
  | k :: ks =>
    let best := ks.foldl (fun b n => if n.2.1 < b.2.1 then n else b) k
    some (best.1, best.2.2)

/-- The entries of a queue with the first load among them that waits given up: it never completes (R446). -/
def dropFirst : List QEntry → List QEntry
  | [] => []
  | e :: es => match e.req with
    | some _ => { e with req := none } :: es
    | none => e :: dropFirst es

/-- The ranger core halted, and the host told (R400, R446). -/
def State.haltRanger (s : State) : State := (s.modCore rangerId fun x => { x with halted := true }).event .rangerHalt 6 0

/-- The job of an access that met an uncorrectable error is cancelled, and the error recorded (R432, R446). -/
def State.eccStop (s : State) (h : Hold) (part pa : Nat) : State :=
  let i := s.jobOf (accId h.acct) 16384
  let home := h.valid && decide (h.pkg = s.fabric.num)
  let s1 := s.event .eccUncorrected 5 (hbmStack pa) (some part) (BitVec.ofNat 64 pa) (if home then accHandle i (s.accAt i) else 0#32) 0#32 1#64
  if home then s1.cancelAcc i else s1

/-- An access of a sequencer that met an uncorrectable error: its job is cancelled; the ranger core, which works for its job and whose own state
the access would have entered, halts (R446; log entry 94). -/
def State.eccAt (s : State) (c pa : Nat) : State :=
  let x := s.coreAt c
  if c = rangerId then
    match s.hub.job with
    | some h => (s.eccStop { acct := h, pkg := s.fabric.num, valid := true } (s.accAt (accId h)).part pa).haltRanger
    | none => (s.event .eccUncorrected 5 (hbmStack pa) none (BitVec.ofNat 64 pa) 0#32 0#32 1#64).haltRanger
  else s.eccStop x.hold x.part pa

/-- Whether a line holds a word with an uncorrectable error. -/
def State.badLine (s : State) (l : Nat) : Bool := s.hub.bad.any fun w => decide (w / 2 = l)

/-- The oldest outstanding load of a core performed and its entry filled (R203); one that meets an uncorrectable error does not
complete (R446). -/
def State.fillLoad (s : State) (c : Nat) : State :=
  match (s.coreAt c).oldestLoad with
  | none => s
  | some (q, r) =>
    if r.lines.any s.badLine then
      let x := s.coreAt c
      let y := vget {} x.q q
      (s.setCore c { x with q := vput x.q q { y with entries := dropFirst y.entries } }).eccAt c (64 * ((r.lines.find? s.badLine).getD 0))
    else
    let s1 := s.readLines c r.after r.lines
    s1.modCore c fun x =>
      let y := vget {} x.q q
      { x with q := vput x.q q { y with entries := fillFirst (r.fmt.value (s.loadValue r)) y.entries } }

/-- At most `n` outstanding loads performed in order. -/
def State.fillLoads (s : State) (c : Nat) : Nat → State
  | 0 => s
  | n + 1 => if (s.coreAt c).oldestLoad.isSome then State.fillLoads (s.fillLoad c) c n else s

/-! ### Checkpoints (R409 to R413, R416) -/

/-- The shadow set takes a copy: the restored elements, the results in flight as the carry list, DONE clear, every queue
entry counted as from before the checkpoint; retained entries and HELD bytes are released (R199, R204, R411). -/
def Core.checkpoint (x : Core) : Core :=
  let fs := x.flights.map fun f => { f with old := true }
  { x with
    shadow := x.arch, carry := fs, flights := fs, done := 0#3, sinceCk := 0,
    q := vmap (fun y => { entries := y.entries.map fun e => { e with old := true }, retained := [] }) x.q,
    pad := { x.pad with rings := vmap (fun r => { r with held := 0, kept := 0 }) x.pad.rings }, yieldCk := x.yieldReq,
    withheld := [], saved := [], firstStore := false, reads := [], used := [], conflicts := 0 }

/-- What a rollback leaves of a queue (R205): popped entries return to the head, entries of performed irrevocable forms and
of the sparse-index engine stay, every other entry from after the checkpoint goes. -/
def Queue.rollback (y : Queue) : Queue :=
  { entries := (y.retained ++ y.entries).filter fun e =>
      e.old || (match e.kind with | .work | .six => true | .result | .load => false)
    retained := [] }

/-- The ring counts after a rollback: the bytes popped since the checkpoint move back out of HELD before the READY ones (R199). -/
def Ring.rollback (r : Ring) (len : Nat) : Ring :=
  let n := r.held - r.kept
  { r with head := if len = 0 then 0 else (r.head + len - n % len) % len, ready := r.ready + n, held := r.held - n }

/-- The scratchpad after a rollback: raw bytes stay, rings take their counts back, stash lines become Invalid (R196, R199,
R245). -/
def Spad.rollback (p : Spad) (d : UnitDecl) : Spad :=
  { p with rings := Vector.ofFn fun i => (vget {} p.rings i.val).rollback (d.ringLen i.val), lines := [] }

/-- The core as a rollback leaves it (R415, R416): the restored elements from the shadow set, the carry list in flight
again, everything issued since gone. -/
def Core.rollback (x : Core) : Core :=
  { x with
    arch := { x.shadow with snapOk := Vector.replicate 16 false },
    q := vmap Queue.rollback x.q, latches := Vector.replicate 8 none,
    flights := x.carry.map fun f => { f with latch := none },
    sinceCk := 0, phase := .left, popped := 0#8, pushed := 0#8, next := none, want := [], stallFrom := none, remap := [],
    withheld := x.saved, firstStore := !x.saved.isEmpty, reads := [], anchored := false, used := [], xlinvHit := false,
    fence := none, borrow := .idle, yieldReq := x.yieldCk, pad := x.pad.rollback x.decl, atCk := true }

/-- The number under which the running unit's transfers stand; the ranger core's stand under 0. -/
def Core.self (x : Core) : Nat := x.unit.getD 0

/-- GETs not yet started leave with their reservations (R255). -/
def State.dropGets (s : State) (c : Nat) : State :=
  let u := (s.coreAt c).self
  s.withHub { s.hub with xfers := s.hub.xfers.filter fun t => !(decide (t.2.unit = u) && t.2.heldGet) }

/-- The anchor token returned by a sequencer that holds it, and its requests withdrawn (R224). -/
def State.dropAnchor (s : State) (c : Nat) : State :=
  match s.hub.anchor with
  | some (o, _, _) =>
    if o = c then
      (s.withHub { s.hub with anchor := none }).addDue (match s.hub.anchorQ with | n :: _ => [.anchorTokenGrant n] | [] => [])
    else s
  | none => s

/-- The sequencer in focus rolled back to its checkpoint (R415). -/
def State.rollback (s : State) : State :=
  let s0 := match s.core.unit with
    | some u => s.writeBackAll u
    | none => s
  let s1 := (s0.dropGets s0.cur).dropAnchor s0.cur
  s1.withCore s1.core.rollback

/-- A replay with no record: LEASE_CONFLICT or XLINV_REPLAY (R223, R364, R415). Stores that came with a context go by the tables of now, and
from the fourth failed renewal in a row on the anchor token is asked for at once (R224). -/
def State.replay (s : State) (k : Cause) : State :=
  let n := s.core.conflicts + (if k = .leaseConflict then 1 else 0)
  let s1 := s.rollback.keepStores s.cur s.core.saved
  let s2 := (s1.withCore { s1.core with conflicts := n, raised := some (k, 0#64) }).addDue
    (if k = .leaseConflict ∧ 4 ≤ n then [.anchorTokenGrant s.cur] else [])
  s2.count k (if s.cur = rangerId then 6 else 0) (if s.cur = rangerId then 0 else s.cur)

/-! ### Trap records (R428) -/

/-- What a trap record says beside what the core gives it. -/
structure TrapInfo where
  cause : Cause
  addr : Word := 0#64
  mask : BitVec 12 := 0#12
  faultb : Word := 0#64
  flags : FlagSet := noFlags
  slotWord : BitVec 32 := 0#32
  header : BitVec 32 := 0#32
  engine : Nat := 0
  weak : Bool := false
  chan : Nat := 0
  glh : Nat := 0
  tid : BitVec 32 := 0#32
  resume : Nat := 0
  sent : Nat := 0
deriving DecidableEq, Repr

/-- The 128 bytes of a trap record. -/
def TrapInfo.record (t : TrapInfo) (core part pl : Nat) (ckptb : Word) (acct : Handle) (pts : Word) : Nat :=
  (causeCode t.cause).toNat + t.mask.toNat * 2 ^ 16 + t.engine * 2 ^ 28 + b2n t.weak * 2 ^ 31 + t.chan * 2 ^ 32 + t.glh * 2 ^ 36
    + core * 2 ^ 40 + part * 2 ^ 49 + pl * 2 ^ 52 + t.faultb.toNat * 2 ^ 64 + ckptb.toNat * 2 ^ 128 + t.addr.toNat * 2 ^ 192
    + t.tid.toNat * 2 ^ 256 + t.resume % 2 ^ 32 * 2 ^ 288 + t.sent % 2 ^ 32 * 2 ^ 320 + acct.toNat * 2 ^ 352 + pts.toNat * 2 ^ 384
    + t.flags.toNat * 2 ^ 448 + t.slotWord.toNat * 2 ^ 512 + t.header.toNat * 2 ^ 544

/-- The place of the bounds that govern a sequencer: its partition's, or the ranger core's own, 8 (R392, R395; log entry 131). -/
def State.boundKey (s : State) (c : Nat) : Nat := if c = rangerId then 8 else (s.coreAt c).part

/-- The privilege level of the sequencer in focus (R353). -/
def State.level (s : State) : Nat := if s.cur = rangerId then 2 else if s.core.isHandler then 1 else 0

/-- Where the ranger core's own trap records stand: in its reserved HBM (R392, R454; DESIGN CHOICE, log entry 13). -/
def rangerRecord : Nat := reservedBase + 0x20000

/-! ### Taking a trap -/

/-- A trap of the ranger core (R400): its record at TRAPREC and control to RTRAP; before TRET, the ranger core halts. -/
def State.rangerTrap (s : State) (t : TrapInfo) : State :=
  let x := s.core
  if x.inTrap then s.haltRanger
  else
    let bits := t.record rangerId 0 2 x.shadow.pc (s.hub.job.getD 0#32) x.pts
    let s1 := s.weakNat rangerRecord 128 bits
    let a := { x.arch with pc := x.rtrap }
    s1.withCore { x with arch := a, shadow := a, inTrap := true, trapDone := x.done, done := 0#3, trapRec := BitVec.ofNat 64 rangerRecord }

/-- The handler is created, or waits behind the one that runs, or the trap ends its unit (R355 to R357). -/
def State.handleTrap (s : State) (c : Nat) (u : Nat) (w : TrapWait) (handlerUnit : Bool) (t : TrapInfo) : State :=
  let finish (s : State) : State := (s.endAny u false).forward c w.part t.addr w.acct
  match s.handlerDecl w.part with
  | none => finish s
  | some d =>
    if handlerUnit then finish s
    else
      let x := s.coreAt c
      match x.handling with
      | none => s.createHandler c w d
      | some _ =>
        if x.trapq.length < 16 then s.setCore c { x with trapq := x.trapq ++ [w] }
        else (finish s).event .trapOverflow 0 c (some w.part) t.addr w.acct

/-- A trap of a core's unit, rolled back already: its context and record go to its slot, and it leaves the core (R356);
a slot that does not translate ends it (R424). -/
def State.coreTrap (s : State) (t : TrapInfo) : State :=
  let c := s.cur
  match s.core.unit with
  | none => s
  | some u =>
    let s0 := s.fillLoads c 128
    let x := s0.core
    let taken : Taken :=
      { arch := x.arch, queues := vmap Queue.entries x.q, late := x.carry, stores := x.saved, done := x.done }
    let evac := ((s0.unitAt u).map Uni.evac).getD 0#64
    match s0.slotPages x.part (stackOf c) evac 0 2, s0.suspend c .trapped taken with
    | .ok ps, .ok s1 =>
      let bits := t.record c x.part (b2n x.isHandler) x.shadow.pc x.hold.acct x.pts
      let s2 := s1.slotWrite ps 0 128 bits
      let w : TrapWait :=
        { unit := some u, owner := u, acct := x.hold.acct, recAt := ps.getD 0 0, ctxAt := ps.getD 1 0, cause := t.cause, part := x.part }
      s2.handleTrap c u w x.isHandler t
    | .error va, _ | _, .error va => (s0.event .evacFault 0 c (some x.part) va x.hold.acct).endRunning c true false

/-- An access of the sequencer in focus met an uncorrectable error, in a table entry of its walk or at its address: it is reported, its job is
cancelled, and the access does not complete (R446). -/
def State.stopHere (s : State) (addr : Word) : State :=
  let s1 := s.eccAt s.cur ((s.walkStruck s.core.part addr).getD addr.toNat)
  s1.withCore { s1.core with raised := some (.eccUncorrected, addr), phase := .left, want := [] }

/-- Taking a trap in the sequencer in focus: rollback, then the ranger core's entry (R400), the end of a unit whose account
is cancelling (R414), or the record, the saved context and the handler (R355, R356). -/
def State.takeTrap (s : State) (t : TrapInfo) : State :=
  if t.cause = .eccUncorrected then s.stopHere t.addr else
  let s1 := s.rollback
  let s2 := s1.withCore { s1.core with raised := some (t.cause, t.addr) }
  if s2.cur = rangerId then s2.rangerTrap t
  else if s2.cancelling s2.core.hold then s2.endRunning s2.cur false true
  else s2.coreTrap t

/-- A trap record of a weak agent: its unit is not rolled back and the handler receives no context (R253, R356). -/
def State.weakTrap (s : State) (u : Nat) (t : TrapInfo) : State :=
  match s.unitAt u with
  | none => s
  | some x =>
    let c := x.core
    let running := decide ((s.coreAt c).unit = some u)
    let pts := if running then (s.coreAt c).pts else x.pts
    match s.slotPages x.part (stackOf c) x.evac 0 1 with
    | .error va =>
      (s.event .evacFault 0 c (some x.part) va x.hold.acct).endAny u true
    | .ok ps =>
      let bits := { t with weak := true }.record c x.part (b2n x.handler.isSome) 0#64 x.hold.acct pts
      let s1 := s.slotWrite ps 0 128 bits
      s1.handleTrap c u { unit := none, owner := u, acct := x.hold.acct, recAt := ps.getD 0 0, ctxAt := 0, cause := t.cause, part := x.part }
        x.handler.isSome t

/-! ### Returning from a trap (R400) -/

/-- The trapped unit goes back to the head of its base priority, the first bundle it resumes without its K slot when
`skip`; or it ends, and its tokens are returned. -/
def State.releaseTrapped (s : State) (u : Nat) (skip finish : Bool) : State :=
  match s.unitAt u with
  | none => s
  | some x =>
    if x.st = .ended then s
    else if finish then (s.quitEngines u x.core x.pts).endUnit u false x.core x.pts
    else
      let s1 := s.modUnit u fun y => if y.started then { y with skipK := skip } else { y with ctx := none }
      if s.cancelling x.hold then s1.discard u else s1.enqueue u x.core true

/-- The return of the ranger core: it resumes at its record's checkpoint bundle, where a checkpoint is taken with the DONE of the trap; SKIPK has
its K slot marked done (R399, R400, R423). -/
def State.rangerReturn (s : State) (skip : Bool) : State :=
  let pc := BitVec.ofNat 64 (bits (s.readNat rangerRecord 32) 128 64)
  let x := s.core
  s.withCore { x with inTrap := false, trapRec := 0#64, trapDone := 0#3, next := some pc, resumes := some (x.trapDone ||| (if skip then 4#3 else 0#3)) }

/-- The return from a trap: the ranger core's, or a handler's, which then ends as EXIT ends it (R310, R400). -/
def State.returnTrap (s : State) (skip finish : Bool) : State :=
  if s.cur = rangerId then s.rangerReturn skip
  else
    let c := s.cur
    let s1 := match s.core.handling with
      | some w => match w.unit with
        | some u => s.releaseTrapped u skip finish
        | none => s
      | none => s
    s1.endRunning c false false

/-! ### The issue of one slot -/

/-- The trap of the slot in issue (R44, R56). -/
def State.trapSlot (s : State) (k : Cause) (addr : Word) : State :=
  let x := s.core
  s.takeTrap { cause := k, addr := addr, mask := BitVec.ofNat 12 (2 ^ x.slot), faultb := x.arch.pc, slotWord := x.word, header := x.header }

/-- A slot that waits: its bundle stalls, with the actions it waits for (R49). -/
def State.stall (s : State) (want : List Action) : State :=
  s.withCore { s.core with phase := .stalled, want := want }

/-- What an attempt to issue a slot comes to. -/
def State.settle (s : State) : Except Stop State → State
  | .ok t => t
  | .error (.trap k a) => s.trapSlot k a
  | .error (.wait w) => s.stall w

/-- The pops of a slot's fields noted on a state. -/
def State.pops (s : State) (as : List Src) : State := s.withCore (s.core.notePops as)

/-- A slot with a predicate and the source fields `as`: a false predicate makes it a NOP in full (R45); what its fields pop
is noted, and leaves the queues at the end of the bundle (R48). -/
def State.issue (s : State) (p : BitVec 3) (as : List Src) (k : State → Except Stop State) : Host.Outcome State Fault Refusal :=
  .next (if s.core.arch.preg p.toNat then s.settle (k (s.pops as)) else s)

/-- A slot of V or F, whose predicate field names a lane mask (R46). -/
def State.issueV (s : State) (m : BitVec 3) (as : List Src) (k : State → LaneMask → Except Stop State) :
    Host.Outcome State Fault Refusal :=
  .next (s.settle (k (s.pops as) (s.core.arch.mreg m.toNat)))

/-- A scalar operand of an issuing slot. -/
def State.getS (s : State) (a : Src) (t : STy := .int) : Except Stop Word := liftC (s.readS t a)

/-- A vector operand of an issuing slot. -/
def State.getV (s : State) (t : VTy) (a : Src) : Except Stop Lanes := liftC (s.readV t a)

/-- A declared queue as a destination (R203). -/
def State.needQueue (s : State) (q : BitVec 6) : Except Stop Unit := need (s.core.hasQueue (q.setWidth 3)) .queueUndeclared

/-- An entry reserved at the tail of a queue by the slot in issue (R203, R295), with the number its answer will name. -/
def State.reserve (s : State) (q : BitVec 6) (kind : QKind) (req : Option LoadReq) (vec : Bool) : Nat × State :=
  let id := s.hub.nextEntry
  let k := q.setWidth 3
  let e : QEntry :=
    { val := if vec then .vector 0#4096 else .scalar 0#64, mask := BitVec.allOnes 128, filled := false, kind := kind, id := id,
      old := false, req := req }
  let s1 := s.withHub { s.hub with nextEntry := id + 1 }
  (id, s1.withCore ((s1.core.pushEntry k e).notePush k))

/-- An entry filled in a list. -/
def fillId (id : Nat) (v : Word) (es : List QEntry) : List QEntry :=
  es.map fun e => if e.id = id ∧ !e.filled ∧ e.id ≠ 0 then { e with val := .scalar v, filled := true, req := none } else e

/-- Where an entry stands among the saved entries of a unit: its place in the image's order. -/
def Saved.place (k : Saved) (id : Nat) : Option Nat :=
  ((upFrom 0 8).flatMap fun q => (vget [] k.queues q)).findIdx? fun e => decide (e.id = id) && !e.filled

/-- The answer to a reserved entry arrives: in the core's queue, or in the saved context (R295). -/
def State.answer (s : State) (u : Nat) (id : Nat) (v : Word) : State :=
  match s.runsOn u with
  | some c => s.modCore c fun x => { x with q := vmap (fun y => { entries := fillId id v y.entries, retained := fillId id v y.retained }) x.q }
  | none =>
    match s.unitAt u with
    | none => s
    | some x =>
      match x.saved.place id, s.slotPages x.part (stackOf x.core) x.evac 0 6 with
      | some i, .ok ps =>
        let o := ctxOff + 0x2B000 + 544 * i
        let w := s.slotRead ps (o + 512) 32
        let s1 := (s.slotWrite ps o 512 v.toNat).slotWrite ps (o + 512) 32 (if w.testBit 147 then w else w + 2 ^ 147)
        s1.modUnit u fun y => { y with saved := { y.saved with queues := vmap (fillId id v) y.saved.queues } }
      | _, _ => s

/-- The answer for the ranger core's or a core's running unit, whichever issued the form. -/
def State.answerHere (s : State) (id : Nat) (v : Word) : State :=
  s.withCore { s.core with q := vmap (fun y => { entries := fillId id v y.entries, retained := fillId id v y.retained }) s.core.q }

end Sys2Proof.Machine
end

