-- ==== Sys2Proof/Machine/Confirm.lean ====
section
/-! DEFINITION. The confirmation of a checkpoint (R411): the renewal and commit of withheld stores (R222, R223), the release
of what the interval kept, the pending bounds and mode (R395), the copy of the shadow set, the start of GETs (R255); and
pre-emption (R421) and the end of a cancelled unit (R282) before a Q bundle. -/

namespace Sys2Proof.Machine

/-! ### Fetch (R33) -/

/-- The byte address of the bundle at the program counter. -/
def State.bundleAddr (s : State) : Nat := s.core.code.base + 48 * s.core.arch.pc.toNat

/-- The twelve words of the bundle at the program counter, where they lie in memory. -/
def State.fetchWords (s : State) : Option (List (BitVec 32)) :=
  let a := s.bundleAddr
  if a + 48 ≤ memTop then some ((upFrom 0 12).map fun i => BitVec.ofNat 32 (s.readNat (a + 4 * i) 4)) else none

/-- The header of the bundle at the program counter. -/
def State.nextHeader (s : State) : BitVec 32 := (s.fetchWords.bind List.head?).getD 0#32

/-! ### The commit of an interval (R222) -/

/-- The bytes of a withheld line that its mask names. -/
def WLine.cells (w : WLine) : List Host.Cell :=
  (upFrom 0 64).filterMap fun i => if w.mask.getLsbD i then some (w.pa * 64 + i, BitVec.ofNat 8 (fld w.data (8 * i) 8)) else none

/-- The timestamp of a commit: not below pts, and past every lease on a stored line. -/
def State.commitTime (s : State) (pts : Word) : List WLine → Word
  | [] => pts
  | w :: ws => State.commitTime s (wmax pts ((s.tsAt w.pa).rts + 1#64)) ws

/-- Whether the version of every line read is still the current one. -/
def State.renewable (s : State) (reads : List (Nat × Word)) : Bool := reads.all fun r => decide ((s.tsAt r.1).wts = r.2)

/-- Renewed lines: their leases reach the commit's time. -/
def State.renew (s : State) (t : Word) : List (Nat × Word) → State
  | [] => s
  | r :: rs =>
    let x := s.tsAt r.1
    State.renew (s.setTs r.1 { x with rts := wmax x.rts t }) t rs

/-- Stored lines at the commit's time, in program order. -/
def State.commit (s : State) (stack : Nat) (t : Word) : List WLine → State
  | [] => s
  | w :: ws =>
    let s1 := (s.touch (s.coherentFor s.cur (w.pa * 64)) (w.pa * 64) stack true t).setTs w.pa { wts := t, rts := t }
    State.commit (s1.putCells w.cells) stack t ws

/-- A stash line whose stored bytes committed at time `t` (R201, R202): they leave the weak bytes, and a copy of the version that the home slice
held before is one of the new version. An older copy keeps its own lease, which lies before `t`, and one never filled holds its weak bytes only. -/
def StashLine.merged (l : StashLine) (w : WLine) (before : LineTs) (t : Word) : Option StashLine :=
  let k := l.clean w.mask
  if l.filled then some (if l.wts = before.wts then { k with wts := t, lease := t } else k)
  else if k.mask = 0#64 then none else some k

/-- The stash copy of a line just committed takes the stored bytes (R201, R202). -/
def Spad.merge (p : Spad) (d : UnitDecl) (t : Word) (c : WLine × LineTs) : Spad :=
  let hit := p.lines.filter fun l => decide (l.2.pa = c.1.pa)
  let bytes := hit.foldl (fun m l => cellsPut m (c.1.cells.map fun b => (d.stashBase + 64 * l.1 + b.1 % 64, b.2))) p.bytes
  let lines := p.lines.filterMap fun l => if l.2.pa = c.1.pa then (l.2.merged c.1 c.2 t).map fun k => (l.1, k) else some l
  { p with bytes := bytes, lines := lines }

/-- Withheld stores of the sequencer in focus released (R207, R222). -/
def State.release (s : State) : State :=
  let x := s.core
  if x.withheld.isEmpty then s
  else
    let t := s.commitTime x.pts x.withheld
    let s1 := (s.renew t x.reads).commit (agentStack s.cur) t x.withheld
    let p := (x.withheld.map fun w => (w, s.tsAt w.pa)).foldl (fun p c => p.merge x.decl t c) s1.core.pad
    s1.withCore { s1.core with pts := t, withheld := [], saved := [], firstStore := false, reads := [], pad := p }

/-- The lines that a confirmation locks: those it stores and those it renews. -/
def Core.locks (x : Core) : List Nat := if x.withheld.isEmpty then [] else x.withheld.map WLine.pa ++ x.reads.map (·.1)

/-- Whether another sequencer's anchored interval holds a line that a confirmation would lock (R224). -/
def State.heldOff (s : State) : Bool :=
  match s.hub.anchor with
  | some (o, _, ls) => decide (o ≠ s.cur) && s.core.locks.any ls.contains
  | none => false

/-- GETs whose starting confirmation this is begin, on the core that their unit now runs on (R255). -/
def State.startGets (s : State) : State :=
  let u := s.core.self
  let mine := s.hub.xfers.filter fun t => decide (t.2.unit = u) && t.2.heldGet
  let s1 := s.withHub { s.hub with
    xfers := s.hub.xfers.map fun t => if t.2.unit = u ∧ t.2.heldGet then (t.1, { t.2 with heldGet := false, core := s.cur }) else t }
  s1.addDue (mine.map fun t => Action.ringReserve t.1)

/-- The bounds and the mode that take effect at a checkpoint (R395). -/
def State.takeBounds (s : State) : State :=
  let p := s.boundKey s.cur
  s.withCore { s.core with ckBound := vget 4096 s.hub.ckBound p, qBound := vget 8192 s.hub.qBound p, mode := s.hub.mode }

/-- What a confirmation comes to: it is made, it waits for another sequencer's hold, or the interval is replayed. -/
inductive Confirmed where
  | made (s : State)
  | waits
  | replayed (s : State)

/-- The confirmation of a checkpoint by the sequencer in focus (R411). Its loads still outstanding are performed first; a
changed translation or a failed renewal replays the interval (R223, R364). -/
def State.confirm (s : State) : Confirmed :=
  let s1 := s.fillLoads s.cur 128
  if s1.core.xlinvHit then .replayed (s1.replay .xlinvReplay)
  else if s1.heldOff then .waits
  else if !s1.core.withheld.isEmpty && !s1.renewable s1.core.reads then .replayed (s1.replay .leaseConflict)
  else
    let s2 := (s1.release.dropAnchor s.cur).takeBounds
    .made (s2.withCore { s2.core.checkpoint with anchored := false }).startGets

/-- The confirmation as a slot makes it: it goes on, waits, or leaves the replay as the outcome. -/
def State.confirmThen (s : State) (k : State → Except Stop State) : Except Stop State :=
  match s.confirm with
  | .made t => k t
  | .waits => .error (.wait [])
  | .replayed t => .ok t

/-! ### Leaving before a Q bundle (R420 to R422, R282) -/

/-- What a pre-emption saves: the state after the last issued bundle, with every count one bundle on, since the Q bundle is
index 0 at resume; the planes are emptied by the Q bundle, and the checkpoint of the resume
has performed nothing but what a replayed checkpoint bundle had. -/
def Core.taken (x : Core) : Taken :=
  let a := if x.atCk then x.arch else x.arch.tick
  { arch := { a with planes := Vector.replicate 2 {}, loads := [], snapOk := Vector.replicate 16 false }
    queues := vmap Queue.entries x.q
    late := x.nearer
    stores := x.withheld
    done := if x.atCk then x.done else 0#3 }

/-- Raw stores in flight land before the unit leaves: they are due at the bundle it leaves before (R242). -/
def Core.landRaw (x : Core) : Core :=
  x.flights.foldl (fun y f => match f.dest with
    | .raw cs => { y with pad := { y.pad with bytes := cellsPut y.pad.bytes cs } }
    | .none | .s _ | .v _ | .m _ | .p _ | .queue _ | .latchV _ => y) x

/-- The writes to registers and queues in flight (R418). -/
def Core.writesInFlight (x : Core) : Nat :=
  (x.flights.filter fun f => match f.dest with
    | .s _ | .v _ | .m _ | .p _ | .queue _ => true
    | .none | .raw _ | .latchV _ => false).length

/-- Guyline handles of a unit that leaves its core end PREEMPTED (R339, R421): the circuits' ends become due. -/
def State.preemptCircuits (s : State) (u : Nat) : State :=
  let live := (upFrom 0 16).filter fun h => !(vget {} (s.engOf u).gl h).over
  let s1 := s.modEng u fun e =>
    { e with gl := vmap (fun h => if h.over then h else h.finish .preempted s.time) e.gl }
  (s1.addDue (live.map fun h => Action.guylineSlotSend u h)).endLandings u

/-- A unit pre-empted for a voltage step is spilled, and CAP_PREEMPT recorded (R376). -/
def State.capSpill (s : State) (c u part : Nat) (acct : Handle) : State :=
  let s1 := (s.spill u).respot u
  (s1.event .capPreempt 0 c (some part) 0#64 acct).modStep (sramDomain (quadOf c)) fun t =>
    { t with spilled := t.spilled + 1, preempted := t.preempted + 1 }

/-- A pre-emption before the Q bundle at the program counter (R421): outstanding loads fill; an interval whose load follows
its first store confirms first, and waits for the next Q bundle when that fails; the context is saved and the unit queued
again, after a YIELD at the tail of its base priority and else at its head (R284, R309). -/
def State.preemptNow (s : State) : State :=
  let s1 := s.fillLoads s.cur 128
  match s1.core.unit with
  | none => s
  | some u =>
    if s1.core.xlinvHit then s1.replay .xlinvReplay
    else
      let go (t : State) : State :=
        let x := t.core
        let tail := x.yieldReq && x.preempt.isNone
        let t0 := t.withCore t.core.landRaw
        let t1 := (t0.preemptCircuits u).dropAnchor t.cur
        match t1.suspend t1.cur (if tail then .yielded else .preempted) t1.core.taken with
        | .error va => (t1.event .evacFault 0 t1.cur (some x.part) va x.hold.acct).endRunning t1.cur true false
        | .ok t2 =>
          let t3 := t2.enqueue u t2.cur (!tail)
          if x.preempt = some .capacity then t3.capSpill t.cur u x.part x.hold.acct else t3
      if s1.core.reads.isEmpty then go s1
      else
        match s1.confirm with
        | .made t => go t
        | .waits => s
        | .replayed t => t

/-- A pre-emption of a Q bundle that has begun and waits (R263): it is as yet not issued, its results have landed, and the
wait is evaluated afresh at resume. -/
def State.preemptStalled (s : State) : State :=
  let x := s.core
  State.preemptNow (s.withCore { x with atCk := true, done := if x.atCk then x.done else 0#3 })

/-- Whether the running unit leaves before its next Q bundle. -/
def State.leaves (s : State) : Bool := s.core.yieldReq || s.core.preempt.isSome

/-- The end of a cancelled unit before a Q bundle (R282): withheld stores and late writes are dropped. -/
def State.cancelNow (s : State) : State := ((s.dropGets s.cur).dropAnchor s.cur).endRunning s.cur false true

end Sys2Proof.Machine
end

