-- ==== Sys2Proof/Machine/Barriers.lean ====
section
/-! DEFINITION. Byte-counting barriers (R232, R233, R258, R259), the tokens they hold (R268), and the units that arrival
triggers spawn (R292, R301, R475). -/

namespace Sys2Proof.Machine

/-! ### Triggers (R292) -/

/-- A unit spawned by a trigger on its core, pinned there, with its arguments and its token. Where the unit queue of the core is full it waits
for room as any pinned unit does (R288, R292). -/
def State.spawnTriggered (s : State) (c : Nat) (t : Trigger) (argv : Block) (s8 s9 : Word) (h : Hold) (pts : Word) : State :=
  let d := ((s.imageOf t.part).bind fun i => i.units[t.unit]?).getD {}
  let evac := match (if t.tok.pkg = s.fabric.num then s.launchOf t.tok.acct else none) with
    | some l => s.freeExtra l t.part
    | none => 0#64
  let x : Uni :=
    { index := t.unit, part := t.part, decl := d, hold := h, prio := t.prio, core := c, spot := { pin := c }, argv := some argv,
      s8 := s8, s9 := s9, s10 := t.label.setWidth 64, evac := evac, pts := pts }
  if (s.coreAt c).queue.length < 64 then (s.addUnit x c false).2
  else let r := s.newUnit x; r.2.addDue [.unitPlace (16384 + r.1) (stackOf c)]

/-- A trigger of a core replaced or removed. -/
def State.setTrig (s : State) (c k : Nat) (t : Option Trigger) : State := s.modCore c fun x => { x with trigs := vput x.trigs k t }

/-- A holding with a token of its account. -/
def Tok.hold (t : Tok) : Hold := { exp := t.exp, valid := true, pair := false, acct := t.acct, pkg := t.pkg }

/-- A trigger's token split for a unit it spawns, and the trigger with what it keeps (R270, R273). -/
def State.splitTrigger (s : State) (c k : Nat) (t : Trigger) : Tok × State :=
  let r := t.held.split
  let s1 := s.setTrig c k (some { t with tok := { t.tok with exp := r.1.exp }, pair := r.1.pair })
  (r.2, if t.held.splitReturn = 0 then s1 else s1.giveBack c t.tok.acct t.tok.pkg t.held.splitReturn false 0#64)

/-- A barrier trigger that holds a token to split spawns its unit for one completion: the record as it stood then is the unit's argument
block (R292). -/
def State.spawnBarrier (s : State) (c k : Nat) (t : Trigger) (rec : Block) : State :=
  let r := s.splitTrigger c k t
  r.2.spawnTriggered c t rec (BitVec.ofNat 64 c) 0#64 (Tok.hold r.1) (BitVec.ofNat 64 (fld rec 128 64))

/-- The number under which trigger `k` of a core asks another package for a borrow: past those of the sequencers. -/
def trigBorrower (c k : Nat) : Nat := 512 + 16 * c + k

/-- A borrow asked of the home account of a trigger in another package (R272, R475). -/
def State.askForTrigger (s : State) (c k : Nat) (t : Trigger) : State :=
  s.post { cls := 1#3, spkg := s.fabric.num, score := c, dpkg := t.tok.pkg, dcore := 0, label := 0#16, podid := s.podOf t.part,
           tok := none, body := .borrow t.tok.acct (trigBorrower c k) }

/-- A barrier trigger at a completion of its barrier (R292, R475). A token of exponent 127 borrows first: at the account where that is of this
package, else by a request to its package, and completions until the answer wait in order. -/
def State.fireBarrier (s : State) (c k : Nat) (t : Trigger) (rec : Block) : State :=
  if t.tok.exp = 127#7 ∧ ¬ t.pair then
    if t.tok.pkg = s.fabric.num then
      match s.borrow t.tok.acct with
      | (s1, .granted) => s1.spawnBarrier c k t rec
      | (s1, .cancelled) => (s1.setTrig c k none).giveHold c t.held false 0#64
      | (s1, _) => s1
    else
      let s1 := s.setTrig c k (some { t with asked := t.asked ++ [rec] })
      if t.asked.isEmpty then s1.askForTrigger c k t else s1
  else s.spawnBarrier c k t rec

/-- The completions of a list that a trigger with a token to split answers, in order; one that comes to exponent 127 asks again. -/
def State.fireAsked (s : State) (c k : Nat) : List Block → State
  | [] => s
  | r :: rs =>
    match vget none (s.coreAt c).trigs k with
    | some t => State.fireAsked (s.fireBarrier c k t r) c k rs
    | none => s

/-- The answer of another package to a trigger's borrow (R272, R475): a grant spawns the units that waited for it, a saturated account drops
the first of them, and a cancelled one removes the trigger; a grant that no trigger waits for goes home. -/
def State.trigBorrowed (s : State) (c k : Nat) (h : Handle) (pkg : BitVec 16) (refused : Option Cause) : State :=
  match vget none (s.coreAt c).trigs k with
  | some t =>
    if t.asked.isEmpty ∨ t.tok.acct ≠ h ∨ t.tok.pkg ≠ pkg then (if refused.isNone then s.giveBack c h pkg (2 ^ 63) false 0#64 else s)
    else
      match refused with
      | none => (s.setTrig c k (some { t with tok := { t.tok with exp := 64#7 }, pair := true, asked := [] })).fireAsked c k t.asked
      | some e =>
        if e = .weightSaturated then (s.setTrig c k (some { t with asked := [] })).fireAsked c k (t.asked.drop 1)
        else (s.setTrig c k none).giveHold c t.held false 0#64
  | none => if refused.isNone then s.giveBack c h pkg (2 ^ 63) false 0#64 else s

/-- The barrier trigger of a slot of a core, where it names a barrier. -/
def State.trigAt (s : State) (loc : BarLoc) (k c : Nat) : Option (Nat × Nat × Trigger) :=
  (vget none (s.coreAt c).trigs k).bind fun t => if t.bar = some loc then some (c, k, t) else none

/-- The lowest-numbered trigger that names a barrier (R301): the lowest slot, and of one slot on several cores the lowest core (log entry 120). -/
def State.trigFor (s : State) (loc : BarLoc) : Option (Nat × Nat × Trigger) :=
  (upFrom 0 16).findSome? fun k => (upFrom 0 256).findSome? (s.trigAt loc k)

/-! ### The record (R258) -/

/-- A barrier's record. -/
def State.barAt (s : State) (loc : BarLoc) : Block :=
  match loc with
  | .mem pa => BitVec.ofNat 512 (s.readNat pa 64)
  | .raw u off => BitVec.ofNat 512 (ofBytes (s.padRead u off 64))

/-- The state with a barrier's record written. -/
def State.setBar (s : State) (loc : BarLoc) (b : Block) : State :=
  match loc with
  | .mem pa => s.weakNat pa 64 b.toNat
  | .raw u off => s.padWrite u off (toBytes 64 b.toNat)

/-- The address of a barrier for an event. -/
def barAddr (l : BarLoc) : Word :=
  match l with
  | .mem pa => BitVec.ofNat 64 pa
  | .raw _ off => BitVec.ofNat 64 off

/-- COUNT. -/
def barCount (b : Block) : Int := (BitVec.ofNat 64 (fld b 0 64)).toInt
/-- POSTED. -/
def barPosted (b : Block) : Bool := bitAt b 64
/-- STATE, where 11 is treated as 00. -/
def barState (b : Block) : Nat := if fld b 65 2 = 3 then 0 else fld b 65 2
/-- HIGHTS. -/
def barHigh (b : Block) : Word := BitVec.ofNat 64 (fld b 128 64)
/-- ARRIVED. -/
def barArrived (b : Block) : Nat := fld b 192 64

/-- A record with its fields set; the RZ bits stay as they are. -/
def barWith (b : Block) (count : Int) (posted : Bool) (st : Nat) (high : Word) (arrived : Nat) : Block :=
  setField (setField (setField (setField (setField b 0 64 (BitVec.ofInt 64 count).toNat) 64 1 (b2n posted)) 65 2 st) 128 64 high.toNat)
    192 64 arrived

/-- A barrier with a STATE of 11 or a bit set that is RZ (R258). -/
def barOdd (b : Block) : Bool := decide (fld b 65 2 = 3 ∨ fld b 67 61 ≠ 0 ∨ fld b 256 256 ≠ 0)

/-- The ENGINE_RZ record of a barrier with a STATE of 11 or a bit set that is RZ (R5, R258). -/
def State.barWarn (s : State) (loc : BarLoc) (b : Block) : List Action :=
  if barOdd b then
    [.eventRecordArrive
      { code := .engineRz, src := 5#4, srcid := 0#12, part := none, time := BitVec.ofNat 64 s.time, addr := barAddr loc, acct := 0#32, tid := 0#32
        arg0 := 0#64, arg1 := 0#64 }]
  else []

/-- The state with that record on its way. -/
def State.barRz (s : State) (loc : BarLoc) (b : Block) : State := s.addDue (s.barWarn loc b)

/-- The combiner that returns what a barrier holds. -/
def State.barSite (s : State) (loc : BarLoc) : Nat :=
  match loc with
  | .mem pa => sliceSite (s.homeOf pa)
  | .raw u _ => ((s.unitAt u).map Uni.core).getD rangerId

/-- The completion or overrun of a barrier: the tokens it holds go home (R268), and at a completion its trigger fires. -/
def State.barDone (s : State) (loc : BarLoc) (b : Block) (complete : Bool) : State :=
  let hit := s.hub.barToks.filter fun t => decide (t.loc = loc)
  let s1 := s.withHub { s.hub with barToks := s.hub.barToks.filter fun t => decide (t.loc ≠ loc) }
  let s2 := s1.giveToks (s.barSite loc) (barHigh b) (hit.map BarTok.tok)
  if complete then
    match s2.trigFor loc with
    | some (c, k, t) => s2.fireBarrier c k t b
    | none => s2
  else s2

/-- Bytes performed that name a barrier arrive at it (R232, R233). -/
def State.barArrive (s : State) (loc : BarLoc) (n : Nat) (wts : Word) : State :=
  let b := s.barAt loc
  let s0 := s.barRz loc b
  let st := barState b
  let count := barCount b - n
  let high := wmax (barHigh b) wts
  let arrived := barArrived b + n
  if st ≠ 0 ∨ (barPosted b ∧ count < 0) then
    let b' := barWith b count (barPosted b) 2 high arrived
    let s1 := s0.setBar loc b'
    if st = 2 then s1 else (s1.event .barOverrun 5 0 none (barAddr loc)).barDone loc b' false
  else
    let complete := barPosted b && decide (count = 0)
    let b' := barWith b count (barPosted b) (b2n complete) high arrived
    let s1 := s0.setBar loc b'
    if complete then s1.barDone loc b' true else s1

/-- POST at a barrier (R259): a complete or overrun barrier is reset first. -/
def State.barPost (s : State) (loc : BarLoc) (n : Nat) : State :=
  let b := s.barAt loc
  let s0 := s.barRz loc b
  let fresh := decide (barState b ≠ 0)
  let count := (if fresh then 0 else barCount b) + n
  let b' := barWith b count true (b2n (decide (count = 0))) (if fresh then 0#64 else barHigh b) (if fresh then 0 else barArrived b)
  let s1 := s0.setBar loc b'
  if count = 0 then s1.barDone loc b' true else s1

end Sys2Proof.Machine
end

