-- ==== Sys2Proof/Machine/Splits.lean ====
section
/-! DEFINITION. The split that a form of the running unit makes (R270 to R273, R357), and packets on their way between
packages (R315, R316). -/

namespace Sys2Proof.Machine

/-- What a sequencer splits from (R271): what its unit holds, or for the ranger core the token of the job that it works for, which the hub holds
until its account is closed or cancelled. -/
def State.weightOf (s : State) (c : Nat) : Hold :=
  if c = rangerId then
    match s.hub.job with
    | some h => if s.live h then ((s.accAt (accId h)).owner.getD { acct := h, pkg := s.fabric.num }) else {}
    | none => {}
  else (s.coreAt c).hold

/-- What a sequencer splits from, replaced. -/
def State.setWeight (s : State) (c : Nat) (h : Hold) : State :=
  if c = rangerId then
    match s.hub.job with
    | some j => s.setAcc (accId j) { (s.accAt (accId j)) with owner := some h }
    | none => s
  else s.modCore c fun x => { x with hold := h }

/-- A split by the form in issue (R270): the token of the new holder. It waits for a borrow where the exponent is
127, and takes the traps of a holder without weight and of a refused borrow (R272, R357, R475). -/
def State.splitHere (s : State) : Except Stop (Tok × State) :=
  let h := s.weightOf s.cur
  if ¬ h.valid then .error (.cause .weightNone)
  else if h.exp = 127#7 then
    match s.core.borrow with
    | .saturated => .error (.cause .weightSaturated)
    | .cancelled => .error (.cause .weightNone)
    | .idle => .error (.wait [.borrowRequest h.acct s.cur])
    | .asked | .granted => .error (.wait [])
  else
    let r := h.split
    let s1 := s.setWeight s.cur r.1
    .ok (r.2, if h.splitReturn = 0 then s1 else s1.giveBack s.cur h.acct h.pkg h.splitReturn false s.core.pts)

/-- ENGINE_RZ recorded by the sequencer in focus, where what it wrote or named has an RZ bit set (R5). -/
def State.engineRz (s : State) (bad : Bool) : State :=
  if bad then s.event .engineRz (if s.cur = rangerId then 6 else 0) (if s.cur = rangerId then 0 else s.cur) (some s.core.part) else s

/-! ### Packets -/

/-- Whether a package can be reached: its route set is not empty (R315). -/
def State.reachable (s : State) (d : BitVec 16) : Bool :=
  decide (d = s.fabric.num) || !(NatMap.findD [] d.toNat s.fabric.routes).isEmpty

/-- The ACTIVE partition whose PODID a packet names (R351). -/
def State.partOfPod (s : State) (pod : BitVec 16) : Option Nat :=
  (upFrom 0 8).find? fun p => decide ((s.partAt p).st = 1#2) && decide ((s.partAt p).podid = pod)

end Sys2Proof.Machine
end

