-- ==== Sys2Proof/Machine/Creation.lean ====
section
/-! DEFINITION. The creation of launches and units, and their placement (R76, R78, R269, R284, R286, R287, R291, R296 to
R298, R424). -/

namespace Sys2Proof.Machine

/-! ### The launch descriptor (R78) -/

/-- UNIT. -/
def descUnit (r : Block) : Nat := fld r 0 16
/-- PRIO. -/
def descPrio (r : Block) : Nat := fld r 16 2
/-- PLACE. -/
def descPlace (r : Block) : Nat := fld r 18 2
/-- POLICY. -/
def descPolicy (r : Block) : Bool := bitAt r 20
/-- ARGSHARE. -/
def descShare (r : Block) : Bool := bitAt r 21
/-- PIN. -/
def descPin (r : Block) : Nat := fld r 32 8
/-- ARGS. -/
def descArgs (r : Block) : Word := BitVec.ofNat 64 (fld r 64 64)
/-- An extent. -/
def descExt (r : Block) (k : Nat) : Nat := fld r (128 + 16 * k) 16
/-- SALT. -/
def descSalt (r : Block) : Word := BitVec.ofNat 64 (fld r 192 64)
/-- EVAC. -/
def descEvac (r : Block) : Word := BitVec.ofNat 64 (fld r 256 64)

/-- Whether an RZ bit of a descriptor is set. -/
def descRz (r : Block) : Bool :=
  decide (fld r 22 10 ≠ 0) || decide (fld r 40 24 ≠ 0) || decide (fld r 176 16 ≠ 0) || decide (fld r 320 192 ≠ 0)

/-- The unit table of a partition (R76). -/
def State.unitTable (s : State) (p : Nat) : List UnitDecl := ((s.imageOf p).map Image.units).getD []

/-! ### Where units may go (R286, R287, R290, R291) -/

/-- The cores of a quadrant. -/
def coresOf (q : Nat) : List Nat := upFrom (8 * q) 8

/-- The cores eligible under PLACE and PIN. -/
def State.eligible (s : State) (p place pin : Nat) : List Nat :=
  match place with
  | 0 => (s.partAt p).quadList.flatMap coresOf
  | 1 => [pin]
  | _ => coresOf pin

/-- Whether some eligible core could hold the rows, regardless of occupancy (R291); under a pending step, at its target (R376). -/
def State.hasCapacity (s : State) (p place pin rows : Nat) : Bool :=
  (s.eligible p place pin).any fun c => decide (rows ≤ s.admitRows c)

/-- Whether a core's unit queue has room (R288). -/
def State.queueRoom (s : State) (c : Nat) : Bool := decide ((s.coreAt c).queue.length < 64)

/-- Whether a core passes the capacity test of R290 now. -/
def State.rowsFit (s : State) (c rows : Nat) : Bool := decide (rows ≤ s.rowsFree c)

/-- The units QUEUED, STANDBY and RUNNING on a core. -/
def Core.population (x : Core) : Nat := x.queue.length + b2n x.standby.isSome + b2n x.unit.isSome

/-- The core of fewest units in a list, the first among equals. -/
def State.emptiest (s : State) : List Nat → Option Nat
  | [] => none
  | c :: cs =>
    match State.emptiest s cs with
    | none => some c
    | some d => if (s.coreAt d).population < (s.coreAt c).population then some d else some c

/-- The cores of a quadrant in cyclic order from a position. -/
def cyclic (q k : Nat) : List Nat := (upFrom 0 8).map fun i => 8 * q + (k + i) % 8

/-- The placement hash (R287). -/
def placeHash (x y z salt : Word) : Nat :=
  let w (a : Word) (k : Nat) : BitVec 32 := a.setWidth 32 * BitVec.ofNat 32 k
  (w x 0x9E3779B1 ^^^ w y 0x85EBCA77 ^^^ w z 0xC2B2AE3D ^^^ salt.setWidth 32 ^^^ (salt >>> 32).setWidth 32).toNat

/-- The core among those of a quadrant that takes a unit: of those that pass the capacity test, and else of all, with queue
room (R287). -/
def State.coreIn (s : State) (q k rows : Nat) (fit : Bool) : Option Nat :=
  s.emptiest ((cyclic q k).filter fun c => s.queueRoom c && (!fit || s.rowsFit c rows))

/-- Where in a list of `n` quadrants the hash's first choice stands (R287). -/
def firstChoice (h n : Nat) : Nat := h * (2 * n) / 2 ^ 32 / 2

/-- The core of a unit under PLACE (R286, R287); none while it stays uncreated: without queue room, or when the partition has given up what
PIN names (R346). -/
def State.placeOf (s : State) (p : Nat) (g : Placing) (x y z : Word) (rows : Nat) : Option Nat :=
  let mine (q : Nat) : Bool := (s.partAt p).quads.getLsbD q
  match g.place with
  | 1 => if mine (quadOf g.pin) ∧ s.queueRoom g.pin then some g.pin else none
  | 0 =>
    let h := placeHash x y z g.salt
    let qs := (s.partAt p).quadList
    let n := qs.length
    let j := firstChoice h n
    if n = 0 then none else
    let ring := (upFrom 0 n).map fun i => qs.getD ((j + i) % n) 0
    match ring.find? fun q => (coresOf q).any fun c => s.rowsFit c rows with
    | some q => s.coreIn q (h % 8) rows true
    | none => s.coreIn (qs.getD j 0) (h % 8) rows false
  | _ =>
    if ¬ mine g.pin then none
    else if (coresOf g.pin).any fun c => s.rowsFit c rows then s.coreIn g.pin 0 rows true else s.coreIn g.pin 0 rows false

/-! ### Creating a unit of a launch (R284, R286) -/

/-- Unit `i` of a launch (R77, R78, R269, R424). -/
def State.unitOfLaunch (s : State) (a : Handle) (p : Nat) (l : LaunchInfo) (i : Nat) : Uni :=
  let hold : Hold := { exp := unitExp l.count i, valid := true, pair := false, acct := a, pkg := s.fabric.num }
  let table := s.unitTable p
  match l.starts with
  | some es =>
    let e := es.getD i (0, 0, 0, 0#64)
    { index := e.2.1, part := p, decl := table.getD e.2.1 {}, hold := hold, prio := e.2.2.1, spot := { place := 1, pin := e.1 },
      args := if e.2.2.2 = 0#64 then none else some e.2.2.2, s8 := BitVec.ofNat 64 e.1, evac := l.slot i, pts := l.pts }
  | none =>
    let x := i % l.ext0
    let y := i / l.ext0 % l.ext1
    let z := i / l.ext0 / l.ext1
    { index := l.unit, part := p, decl := table.getD l.unit {}, hold := hold, prio := l.prio,
      spot := { place := l.place, pin := l.pin, salt := l.salt },
      args := some (if l.argshare then l.args else l.args + BitVec.ofNat 64 (64 * i)),
      s8 := BitVec.ofNat 64 x, s9 := BitVec.ofNat 64 y, s10 := BitVec.ofNat 64 z, evac := l.slot i, pts := l.pts }

/-- The stack dispatcher that a unit of a launch falls to (R286): that of its first-choice quadrant, or of what PIN names. -/
def LaunchInfo.dispatcher (l : LaunchInfo) (x : Uni) : Nat :=
  match x.spot.place with
  | 0 => l.quads.getD (firstChoice (placeHash x.s8 x.s9 x.s10 x.spot.salt) l.quads.length) 0 / 4
  | 1 => stackOf x.spot.pin
  | _ => x.spot.pin / 4

/-- The first index that dispatcher `k` of a launch has still to look at. -/
def LaunchInfo.nextOf (l : LaunchInfo) (k : Nat) : Nat := l.nexts.getD k l.count

/-- A launch with dispatcher `k` past the index that it looked at. -/
def LaunchInfo.pass (l : LaunchInfo) (k : Nat) : LaunchInfo := { l with nexts := modifyAt (· + 1) k l.nexts }

/-- Dispatcher `k` of a launch at its next index (R286): a unit that falls to it is created where and when it has a place, in increasing
index; another's is passed over. A launch pinned elsewhere has none of its units there. -/
def State.placeNext (s : State) (i k : Nat) (a : Account) (l : LaunchInfo) : State :=
  let n := l.nextOf k
  let x := s.unitOfLaunch (accHandle i a) a.part l n
  if l.count ≤ n then s
  else if l.dispatcher x ≠ k then
    if l.starts.isNone ∧ l.place ≠ 0 then s else (s.setAcc i { a with launch := some (l.pass k) }).addDue [.unitPlace i k]
  else
    match s.placeOf a.part x.spot x.s8 x.s9 x.s10 x.decl.rows with
    | none => s.addDue [.unitPlace i k]
    | some c =>
      let s1 := s.setAcc i { a with launch := some { l.pass k with given := l.given + tokValue x.hold.exp } }
      let s2 := (s1.addUnit x c false).2
      if n + 1 < l.count then s2.addDue [.unitPlace i k] else s2

/-- The rows that a launch asks for (R291). -/
def State.launchRows (s : State) (p : Nat) (l : LaunchInfo) : Nat := ((s.unitTable p).getD l.unit {}).rows

/-- A launch refused for capacity (R291): its account retires with CANCEL set. -/
def State.refuseLaunch (s : State) (i : Nat) : State :=
  let a := s.accAt i
  (s.setAcc i { a with out := 0, cancel := true, launch := a.launch.map LaunchInfo.spent }).retire i

/-- A launch account given units to make, at dispatcher `k`: tested for capacity once when it opens (R291), then one unit at a time. -/
def State.placeLaunch (s : State) (i k : Nat) : State :=
  let a := s.accAt i
  match a.launch with
  | none => s
  | some l =>
    if a.st ≠ .opn then s
    else if l.waiting then
      if l.starts.isSome ∨ s.hasCapacity a.part l.place l.pin (s.launchRows a.part l) then
        State.placeNext (s.setAcc i { a with launch := some { l with waiting := false } }) i k a { l with waiting := false }
      else if l.policy then s.refuseLaunch i
      else s
    else s.placeNext i k a l

/-- A unit outside a launch, or one whose context was spilled, that waits for a place (R284, R296): one pre-empted re-enters at the head of its
base priority, one that yielded at the tail; one whose home account is cancelling is discarded (R282). -/
def State.placeUnit (s : State) (u : Nat) : State :=
  match s.unitAt u with
  | none => s
  | some x =>
    if x.st ≠ .created then s
    else if s.cancelling x.hold then s.discard u
    else if x.spot.wait && !s.hasCapacity x.part x.spot.place x.spot.pin x.decl.rows then s
    else
      match s.placeOf x.part x.spot x.s8 x.s9 x.s10 x.decl.rows with
      | none => s.addDue [.unitPlace (16384 + u) 0]
      | some c => (s.modUnit u fun y => { y with spot := { y.spot with wait := false } }).enqueue u c (x.ctx.isSome && decide (x.ctx ≠ some .yielded))

/-! ### SPAWN (R296 to R298) -/

/-- A refusal of a descriptor before an account is made (R297). -/
def State.descRefused (s : State) (p : Nat) (r : Block) (unit : Bool) : Option Cause :=
  if descPlace r = 3 ∨ (descPlace r = 2 ∧ 31 < descPin r) ∨ (s.unitTable p).length ≤ descUnit r
      ∨ (¬ unit ∧ (descExt r 0 = 0 ∨ descExt r 1 = 0 ∨ descExt r 2 = 0)) then some .spawnInvalid
  else
    let q := if descPlace r = 1 then quadOf (descPin r) else descPin r
    if descPlace r ≠ 0 ∧ ¬ (s.partAt p).quads.getLsbD q then some .placeRefused else none

/-- A descriptor as what its launch creates units from; ARGS and EVAC stand as they are (log entry 128). -/
def State.launchInfo (s : State) (p : Nat) (r : Block) (pts : Word) : LaunchInfo :=
  { unit := descUnit r, prio := descPrio r, place := descPlace r, policy := descPolicy r, argshare := descShare r,
    pin := descPin r, args := descArgs r, ext0 := descExt r 0, ext1 := descExt r 1, ext2 := descExt r 2, salt := descSalt r,
    evac := descEvac r, nexts := List.replicate 8 0, given := 0, quads := (s.partAt p).quadList, waiting := false, starts := none,
    slotSize := baseSlot ((s.unitTable p).getD (descUnit r) {}).spbytes,
    nBase := descExt r 0 * descExt r 1 * descExt r 2, pts := pts }

/-- A token that goes home at once. -/
def State.tokenHome (s : State) (acct : Handle) (pkg : BitVec 16) (e : BitVec 7) : State :=
  s.addDue [.returnArrive { acct := acct, pkg := pkg, value := tokValue e, taint := false, pts := 0#64 }]

/-- Predecessors of a launch still to retire, and what those that have retired bring (R283, R306). -/
def State.predsOf (s : State) (hs : List Handle) : List Handle × Bool × Bool :=
  let open' := hs.filter fun h => decide ((s.accAt (accId h)).st ≠ .done)
  let done := hs.filter fun h => decide ((s.accAt (accId h)).st = .done)
  (open', done.any (fun h => (s.accAt (accId h)).taint), done.any fun h => (s.accAt (accId h)).cancel)

/-- A launch made from a descriptor in partition `p` under a parent's token (R269, R283, R291, R296, R306): its handle, or
the cause of refusal, when the parent's token goes home. -/
def State.makeLaunch (s : State) (p : Nat) (t : Tok) (preds : List Handle) (pts : Word) (r : Block) : Except Cause Handle × State :=
  let home (s : State) : State := s.tokenHome t.acct t.pkg t.exp
  let s0 := if descRz r then s.event .engineRz 5 0 (some p) else s
  match s0.descRefused p r false with
  | some k => (.error k, home s0)
  | none =>
    let (wait, taint, dead) := s0.predsOf preds
    let l := s0.launchInfo p r pts
    let room := s0.hasCapacity p l.place l.pin (s0.launchRows p l)
    let st : AccSt := if wait.isEmpty then .opn else .deferred
    let a : Account :=
      { st := st, taint := taint, npred := wait.length, preds := wait,
        launch := some { l with waiting := decide (st = .deferred) || !room } }
    match s0.newAcc p .launch (some (t.acct, t.pkg, t.exp)) a with
    | none => (.error .noAccount, home s0)
    | some (i, s1) =>
      let h := accHandle i (s1.accAt i)
      if dead then (.ok h, s1.cancelOne i)
      else if st = .deferred then (.ok h, s1)
      else if room then (.ok h, s1.addDue (placers i))
      else if l.policy then (.error .capacity, s1.refuseLaunch i)
      else (.ok h, s1)

/-- A unit made outside a launch with a token split for it (R296): it takes an extra slot of its home launch's area. -/
def State.makeUnit (s : State) (p : Nat) (t : Tok) (pts : Word) (r : Block) : Except Cause Unit × State :=
  let home (s : State) : State := s.tokenHome t.acct t.pkg t.exp
  let s0 := if descRz r then s.event .engineRz 5 0 (some p) else s
  match s0.descRefused p r true with
  | some k => (.error k, home s0)
  | none =>
    let d := (s0.unitTable p).getD (descUnit r) {}
    let room := s0.hasCapacity p (descPlace r) (descPin r) d.rows
    if ¬ room ∧ descPolicy r then (.error .capacity, home s0)
    else
      let evac := match (if t.pkg = s0.fabric.num then s0.launchOf t.acct else none) with
        | some l => s0.freeExtra l p
        | none => 0#64
      let x : Uni :=
        { index := descUnit r, part := p, decl := d, hold := Tok.hold t, prio := descPrio r,
          spot := { place := descPlace r, pin := descPin r, salt := 0#64, wait := !room },
          args := some (descArgs r), evac := evac, pts := pts }
      let r := s0.newUnit x
      (.ok (), if room then r.2.addDue [.unitPlace (16384 + r.1) 0] else r.2)

/-- The entry that an answer of R297 makes. -/
def spawnEntry (h : Except Cause Handle) : Word :=
  match h with
  | .ok x => BitVec.ofNat 64 x.toNat
  | .error k => BitVec.ofNat 64 ((causeCode k).toNat * 2 ^ 32 + 2 ^ 63)

/-! ### Device action -/

/-- UNIT_PLACE (R286): number 16,384 and up name a unit that waits for a place, lower ones a launch's account. -/
def execUnitPlace (s : State) : Host.Outcome State Fault Refusal :=
  match s.act with
  | some (.unitPlace l k) => .next (if l < 16384 then s.placeLaunch l k else s.placeUnit (l - 16384))
  | _ => .next s

end Sys2Proof.Machine
end

