-- ==== Sys2Proof/Machine/Accounts.lean ====
section
/-! DEFINITION. The device actions of weight and of messages: borrows (R272), return combiners and returns (R274, R275, R278),
and messages at their destination core (R280, R282, R292, R300). -/

namespace Sys2Proof.Machine

/-! ### Borrows (R272) -/

/-- What the home account answers: none is a grant. -/
def Borrow.refusal : Borrow → Option Cause
  | .granted => none
  | .saturated => some .weightSaturated
  | .idle | .asked | .cancelled => some .accountClosed

/-- A request that a waiting sequencer sends to the home account of its unit. -/
def State.askBorrow (s : State) (h : Handle) (c : Nat) : State :=
  let x := s.coreAt c
  let w := s.weightOf c
  if x.phase = .stalled ∧ x.borrow = .idle ∧ w.valid ∧ w.acct = h ∧ w.exp = 127#7 then
    let s1 := s.setCore c { x with borrow := .asked }
    if w.pkg = s.fabric.num then
      let r := s1.borrow h
      r.1.addDue [.borrowReply c h w.pkg r.2.refusal]
    else
      s1.post { cls := 1#3, spkg := s.fabric.num, score := c, dpkg := w.pkg, dcore := 0, label := 0#16, podid := s.podOf x.part,
                tok := none, body := .borrow h c }
  else s

/-- The answer at the borrower: a token of exponent 64 beside the one kept, the end of its unit, or a trap of the form that
waits; a grant that nobody waits for goes home. The ranger core has no unit to end: its form finds no weight. Numbers past the sequencers' are
those of triggers (R475). -/
def State.takeBorrow (s : State) (c : Nat) (h : Handle) (pkg : BitVec 16) (refused : Option Cause) : State :=
  if 512 ≤ c then s.trigBorrowed ((c - 512) / 16) ((c - 512) % 16) h pkg refused
  else
    let x := s.coreAt c
    let w := s.weightOf c
    let mine := decide (x.borrow = .asked) && decide (w.acct = h) && decide (w.pkg = pkg)
    match refused with
    | none =>
      if mine && w.valid then (s.setWeight c { w with exp := 64#7, pair := true }).modCore c fun y => { y with borrow := .idle }
      else s.giveBack c h pkg (2 ^ 63) false 0#64
    | some k =>
      if !mine then s
      else if k = .weightSaturated then s.setCore c { x with borrow := .saturated }
      else if c = rangerId then s.setCore c { x with borrow := .cancelled }
      else (s.focus c).cancelNow

/-- BORROW_REQUEST (R272). -/
def execBorrowRequest (s : State) : Host.Outcome State Fault Refusal :=
  match s.act with
  | some (.borrowRequest h c) => .next (s.askBorrow h c)
  | _ => .next s

/-- BORROW_REPLY (R272). -/
def execBorrowReply (s : State) : Host.Outcome State Fault Refusal :=
  match s.act with
  | some (.borrowReply c h pkg refused) => .next (s.takeBorrow c h pkg refused)
  | _ => .next s

/-! ### Combiners (R274, R278) -/

/-- COMBINER_ADD (R274). -/
def execCombinerAdd (s : State) : Host.Outcome State Fault Refusal :=
  match s.act with
  | some (.combinerAdd site r) =>
    let p := combAdd r (s.combAt site)
    let s1 := (s.setComb site p.1).addDue (p.2.map Action.returnArrive)
    .next (if s1.due.contains (.combinerFlushPeriod site) then s1
      else (s1.withHub { s1.hub with epochs := NatMap.putD 0 site (s.time / 256) s1.hub.epochs }).addDue [.combinerFlushPeriod site])
  | _ => .next s

/-- The entries of a combiner all on their way as returns (R274). -/
def State.flushComb (s : State) (site : Nat) : State :=
  (s.setComb site []).addDue ((s.combAt site).map fun e => Action.returnArrive e.ret)

/-- COMBINER_FLUSH_PERIOD (R274): once the period of 256 cycles in which the first of them came is over, every entry leaves as one return. -/
def execCombinerFlushPeriod (s : State) : Host.Outcome State Fault Refusal :=
  match s.act with
  | some (.combinerFlushPeriod site) =>
    .next (if s.time / 256 ≤ NatMap.findD 0 site s.hub.epochs then s.addDue [.combinerFlushPeriod site] else s.flushComb site)
  | _ => .next s

/-- The entries of an account of this package flushed at a list of combiners. -/
def State.flushAt (s : State) (h : Handle) : List Nat → State
  | [] => s
  | site :: rest =>
    let mine (e : CombEntry) : Bool := decide (e.acct = h) && decide (e.pkg = s.fabric.num)
    let es := s.combAt site
    let s1 := (s.setComb site (es.filter fun e => !mine e)).addDue ((es.filter mine).map fun e => Action.returnArrive e.ret)
    State.flushAt s1 h rest

/-- FLUSH_REQUEST (R278): every combiner flushes the account's entry; the time of the request is kept. -/
def execFlushRequest (s : State) : Host.Outcome State Fault Refusal :=
  match s.act with
  | some (.flushRequest h) =>
    if ¬ s.live h then .next s
    else
      let a := s.accAt (accId h)
      .next ((s.setAcc (accId h) { a with flushAt := some s.time }).flushAt h (s.hub.combs.map (·.1)))
  | _ => .next s

/-! ### Returns (R275) -/

/-- The key of an account of another package. -/
def farKey (pkg : BitVec 16) (h : Handle) : Nat := pkg.toNat * 2 ^ 32 + h.toNat

/-- A return of an account of another package, on its way there, under the PODID with which its tokens came (R351). -/
def State.sendReturn (s : State) (r : Ret) : State :=
  s.post { cls := 4#3, spkg := s.fabric.num, score := 0, dpkg := r.pkg, dcore := 0, label := 0#16, podid := NatMap.findD 0#16 (farKey r.pkg r.acct) s.hub.farPods, tok := none, body := .ret r }

/-- RETURN_ARRIVE (R275): at its account, or sent to the package that the account is in. -/
def execReturnArrive (s : State) : Host.Outcome State Fault Refusal :=
  match s.act with
  | some (.returnArrive r) => .next (if r.pkg = s.fabric.num then s.returnAt r else s.sendReturn r)
  | _ => .next s

/-! ### Cancellation (R282) -/

/-- A notice that another package cancelled an account: its units here end, its triggers go, and the accounts of this package whose parent it is
are cancelled with their descendants (R282). -/
def State.takeNotice (s : State) (pkg : BitVec 16) (h : Handle) : State :=
  if s.hub.farCancel.contains (pkg, h) then s
  else
    let s1 := s.withHub { s.hub with farCancel := s.hub.farCancel ++ [(pkg, h)] }
    let us := (s1.hub.units.filter fun u => u.2.hold.valid && decide (u.2.hold.pkg = pkg) && decide (u.2.hold.acct = h) && decide (u.2.st ≠ .ended)
      && decide (u.2.st ≠ .running)).map (·.1)
    let drop (s : State) (c : Nat) : State :=
      let x := s.coreAt c
      let hit (t : Trigger) : Bool := decide (t.tok.pkg = pkg) && decide (t.tok.acct = h)
      let dead := x.trigs.toList.filterMap fun t => t.bind fun u => if hit u then some u else none
      if dead.isEmpty then s
      else
        dead.foldl (fun s u => s.giveHold c u.held false 0#64)
          (s.setCore c { x with trigs := vmap (fun t => t.bind fun u => if hit u then none else some u) x.trigs })
    let kids := (s1.accList.filter fun a => a.2.parentV && decide (a.2.parentPkg = pkg) && decide (a.2.parent = h) && decide (a.2.st ≠ .free)).map (·.1)
    ((s1.addDue (us.map Action.unitCancelStop)).each drop (upFrom 0 256)).each State.cancelAcc kids

/-! ### Messages (R280, R292, R300) -/

/-- Whether two messages are of one unit to one core with one label (R300). -/
def sameStream (a b : Message) : Bool :=
  decide (a.unit = b.unit) && decide (a.srcPkg = b.srcPkg) && decide (a.dcore = b.dcore) && decide (a.label = b.label)

/-- Whether a message must wait for an earlier one of its stream. -/
def comesAfter (m n : Message) : Bool := sameStream m n && decide (n.seq < m.seq)

/-- Whether an earlier message of a stream is still on its way. -/
def State.overtakes (s : State) (m : Message) : Bool :=
  s.due.any fun a => match a with
    | .messageArrive n => comesAfter m n
    | _ => false

/-- A message's token on its way home from the combiner of its destination core. -/
def State.dropMessage (s : State) (m : Message) : State := s.giveTok m.dcore.toNat m.tok false m.pts

/-- A message refused by its destination (R280). -/
def State.refuseMessage (s : State) (m : Message) : State :=
  (s.dropMessage m).event .landRefused 0 m.dcore.toNat (some m.part) 0#64 m.tok.acct

/-- The lowest-numbered trigger of a core that a message matches. -/
def Core.trigOf (x : Core) (m : Message) : Option Trigger :=
  (upFrom 0 16).findSome? fun k => (vget none x.trigs k).bind fun t => if t.bar.isNone ∧ t.label = m.label then some t else none

/-- A message handled at its core, none where it must wait. -/
def State.offer (s : State) (m : Message) : Option State :=
  let c := m.dcore.toNat
  if m.label = 0xFFFF#16 then some (s.dropMessage m)
  else
    match (s.coreAt c).trigOf m with
    | none => none
    | some t =>
      if s.cancelling (Tok.hold m.tok) then some (s.dropMessage m)
      else if s.queueRoom c then
        some (s.spawnTriggered c t m.payload (BitVec.ofNat 64 m.srcCore) (m.srcPkg.setWidth 64) (Tok.hold m.tok) m.pts)
      else none

/-- Waiting messages offered in order; one of a stream waits for those before it. -/
def State.offerAll (s : State) (kept : List (Message × Nat)) : List (Message × Nat) → State × List (Message × Nat)
  | [] => (s, kept)
  | e :: es =>
    if kept.any fun k => sameStream e.1 k.1 then State.offerAll s (kept ++ [e]) es
    else
      match s.offer e.1 with
      | some t => State.offerAll t kept es
      | none => State.offerAll s (kept ++ [e]) es

/-- The messages that wait at a core: the arrival buffer, and those held back behind it (R292). -/
def Core.waitingMsgs (x : Core) : List (Message × Nat) := x.arrivals ++ x.held

/-- The messages that wait at a core replaced: 16 in the arrival buffer, the rest held back. -/
def State.setMsgs (s : State) (c : Nat) (ms : List (Message × Nat)) : State :=
  s.modCore c fun x => { x with arrivals := ms.take 16, held := ms.drop 16 }

/-- The messages that wait at a core offered again: a trigger was registered or its unit queue has room. -/
def State.drainMsgs (s : State) (c : Nat) : State :=
  let ms := (s.coreAt c).waitingMsgs
  if ms.isEmpty then s
  else
    let r := s.offerAll [] ms
    r.1.setMsgs c r.2

/-- A message that waits at its core, and its time limit. -/
def State.parkMessage (s : State) (m : Message) : State :=
  let c := m.dcore.toNat
  let s1 := s.setMsgs c ((s.coreAt c).waitingMsgs ++ [(m, s.time)])
  if s1.due.contains (.messageTimeout c) then s1 else s1.addDue [.messageTimeout c]

/-- The partition that a message may reach (R351, R352). -/
def State.messagePart (s : State) (m : Message) : Option Nat := if m.srcPkg = s.fabric.num then some m.part else s.partOfPod m.podid

/-- MESSAGE_ARRIVE (R300). -/
def State.takeMessage (s : State) (m : Message) : State :=
  let c := m.dcore.toNat
  if s.overtakes m then s.addDue [.messageArrive m]
  else if s.messagePart m = none ∨ s.ownerOfQuad (quadOf c) ≠ s.messagePart m then s.refuseMessage m
  else if (s.coreAt c).waitingMsgs.any fun k => sameStream m k.1 then s.parkMessage m
  else
    match s.offer m with
    | some t => t
    | none => s.parkMessage m

/-- MESSAGE_ARRIVE (R300). -/
def execMessageArrive (s : State) : Host.Outcome State Fault Refusal :=
  match s.act with
  | some (.messageArrive m) => .next (s.takeMessage m)
  | _ => .next s

/-- MESSAGE_TIMEOUT (R300): messages that have waited 2^20 cycles are refused. -/
def State.expireMsgs (s : State) (c : Nat) : State :=
  let ms := (s.coreAt c).waitingMsgs
  let old (e : Message × Nat) : Bool := decide (e.2 + 2 ^ 20 ≤ s.time)
  let s1 := s.setMsgs c (ms.filter fun e => !old e)
  let s2 := (ms.filter old).foldl (fun s e => s.refuseMessage e.1) s1
  if ms.all old then s2 else s2.addDue [.messageTimeout c]

/-- MESSAGE_TIMEOUT (R300). -/
def execMessageTimeout (s : State) : Host.Outcome State Fault Refusal :=
  match s.act with
  | some (.messageTimeout c) => .next (s.expireMsgs c)
  | _ => .next s

end Sys2Proof.Machine
end

