-- ==== Sys2Proof/Machine/Traffic.lean ====
section
/-! DEFINITION. The operations that the memory forms share: addresses that a form reaches, bytes forwarded and withheld
(R206), the anchor of an interval (R224), and the stash rows of the running unit (R200 to R202). -/

namespace Sys2Proof.Machine

/-! ### Addresses (R237, R238) -/

/-- The physical addresses of pieces of memory by virtual address, none of which crosses a page, or the first fault. -/
def State.reach (s : State) (write : Bool) : List Word → Except Stop (List Nat × State)
  | [] => .ok ([], s)
  | va :: vs =>
    match s.access s.cur va write true with
    | .error k => .error (.trap k va)
    | .ok (pa, s1) =>
      match State.reach s1 write vs with
      | .ok (ps, t) => .ok (pa :: ps, t)
      | .error e => .error e

/-- The first address of a list that is not aligned takes ALIGN (R238). -/
def aligned (n : Nat) : List Word → Except Stop Unit
  | [] => .ok ()
  | va :: vs => if va.toNat % n = 0 then aligned n vs else .error (.trap .align va)

/-- The addresses of `n` pieces of `k` bytes from `va` up. -/
def pieces (va : Word) (k n : Nat) : List Word := (upFrom 0 n).map fun i => va + BitVec.ofNat 64 (k * i)

/-- The bytes of pieces of `k` bytes at physical addresses. -/
def spread (k : Nat) (ps : List Nat) : List Nat := ps.flatMap fun p => upFrom p k

/-! ### The store-withhold buffer (R206) -/

/-- The withheld byte at a physical address. -/
def Core.forwarded (x : Core) (pa : Nat) : Option Byte :=
  (x.withheld.find? fun w => decide (w.pa = lineOf pa)).bind fun w =>
    if w.mask.getLsbD (pa % 64) then some (BitVec.ofNat 8 (fld w.data (8 * (pa % 64)) 8)) else none

/-- A withheld line with one byte stored. -/
def WLine.put (w : WLine) (i : Nat) (b : Byte) : WLine :=
  { w with data := setField w.data (8 * i) 8 b.toNat, mask := w.mask ||| BitVec.ofNat 64 (2 ^ i) }

/-- One byte withheld, at a virtual and a physical address: stores to one line share its entry. -/
def withholdByte (ws : List WLine) (c : Nat × Nat × Byte) : List WLine :=
  match ws with
  | [] => [({ va := lineOf c.1, pa := lineOf c.2.1, data := 0#512, mask := 0#64 } : WLine).put (c.2.1 % 64) c.2.2]
  | w :: rest => if w.pa = lineOf c.2.1 then w.put (c.2.1 % 64) c.2.2 :: rest else w :: withholdByte rest c

/-- Bytes withheld in order, and the interval's first store noted (R222). -/
def Core.withhold (x : Core) (cs : List (Nat × Nat × Byte)) : Core :=
  if cs.isEmpty then x else { x with withheld := cs.foldl withholdByte x.withheld, firstStore := true }

/-- Stores withheld by the form in issue. -/
def State.withhold (s : State) (cs : List (Nat × Nat × Byte)) : State := s.withCore (s.core.withhold cs)

/-! ### Loads -/

/-- Before the first load of an interval that failed renewal four times in a row, the anchor token is taken (R224). -/
def State.needAnchor (s : State) : Except Stop Unit :=
  if 4 ≤ s.core.conflicts ∧ ¬ s.core.anchored then .error (.wait [.anchorTokenGrant s.cur]) else .ok ()

/-- A queue load issued: its entry is reserved and its data is due (R203, R240). -/
def State.queueLoad (s : State) (q : BitVec 6) (pas : List Nat) (fmt : LoadFmt) (vec : Bool) : State :=
  let req : LoadReq := { bytes := pas.map fun a => (a, s.core.forwarded a), fmt := fmt, after := s.core.firstStore }
  (s.reserve q .load (some req) vec).2.addDue [.queueLoadFill s.cur]

/-- A value that the home slice returns to the form in issue: an entry whose bytes are known already (R239, R256). -/
def State.returned (s : State) (q : BitVec 6) (v n : Nat) : State :=
  let req : LoadReq := { bytes := (toBytes n v).map fun b => (0, some b), fmt := .scalar false, after := false }
  (s.reserve q .work (some req) false).2.addDue [.queueLoadFill s.cur]

/-! ### The stash of the running unit (R194, R200, R201) -/

/-- The stash row and the offset in it that an offset of the allocation has. -/
def UnitDecl.stashPlace (d : UnitDecl) (off : Nat) : Option (Nat × Nat) :=
  if d.stashBase ≤ off ∧ off < 1024 * d.rows then some ((off - d.stashBase) / 1024, (off - d.stashBase) % 1024) else none

/-- Whether a byte of the allocation may be addressed by LDS and STS: raw region or stash (R195). -/
def UnitDecl.direct (d : UnitDecl) (off : Nat) : Bool := decide (off < d.rawBytes) || (d.stashPlace off).isSome

/-- The virtual address that a stash row and offset stand for, none where the row is unbound. -/
def Core.stashVa (x : Core) (row o : Nat) : Option Word := (NatMap.find row x.arch.bound).map fun a => a + BitVec.ofNat 64 o

/-- The offsets of an access all addressable, and every stash row among them bound (R195, R200). -/
def State.directOk (s : State) (off n : Nat) : Except Stop Unit := do
  let d := s.core.decl
  need ((upFrom off n).all d.direct) .scratchRange (BitVec.ofNat 64 off)
  need ((upFrom off n).all fun o => match d.stashPlace o with
    | some (r, i) => (s.core.stashVa r i).isSome
    | none => true) .stashUnmapped (BitVec.ofNat 64 off)

/-- The stash lines of a run of offsets as (row, line), neighbours once. -/
def UnitDecl.stashLines (d : UnitDecl) (off n : Nat) : List (Nat × Nat) :=
  (squeeze ((upFrom off n).filterMap fun o => (d.stashPlace o).map fun p => p.1 * 16 + p.2 / 64)).map fun k => (k / 16, k % 16)

/-- The first offset of a stash line. -/
def UnitDecl.lineBase (d : UnitDecl) (k : Nat) : Nat := d.stashBase + 64 * k

/-- Whether the bytes of an access in a stash line may be read where it is: filled, and its lease not passed, unless weak agents
wrote every one of them (R201, R202, R219). -/
def StashLine.serves (l : StashLine) (pts : Word) (off n : Nat) (base : Nat) : Bool :=
  (l.filled && decide (pts.toNat ≤ l.lease.toNat))
    || (upFrom 0 64).all fun i => l.mask.getLsbD i || decide (base + i < off) || decide (off + n ≤ base + i)


/-- The lines of a load that must first be filled. -/
def Core.linesToFill (x : Core) (off n : Nat) : List (Nat × Nat) :=
  (x.decl.stashLines off n).filter fun r =>
    match NatMap.find (r.1 * 16 + r.2) x.pad.lines with
    | some l => !l.serves x.pts off n (x.decl.lineBase (r.1 * 16 + r.2))
    | none => true

/-- One byte of the allocation as a load of the sequencer reads it: forwarding comes first in the stash (R206, R242). -/
def Core.directByte (x : Core) (off : Nat) : Byte :=
  let b := cellAt x.pad.bytes off
  match x.decl.stashPlace off with
  | none => b
  | some (r, i) =>
    match NatMap.find (r * 16 + i / 64) x.pad.lines with
    | some l => (x.forwarded (l.pa * 64 + i % 64)).getD b
    | none => b

/-- A line read at the stash: its version is kept for renewal after a store of the interval, unless forwarding or weak bytes
supplied all of it, and an anchored interval holds it (R219, R222, R224). -/
def State.readStash (s : State) (off n : Nat) (k : Nat) : State :=
  let x := s.core
  match NatMap.find k x.pad.lines with
  | none => s
  | some l =>
    let base := x.decl.lineBase k
    let own := (upFrom 0 64).all fun i =>
      decide (base + i < off) || decide (off + n ≤ base + i) || l.mask.getLsbD i || (x.forwarded (l.pa * 64 + i)).isSome
    (if x.firstStore && !own then s.withCore { x with reads := x.reads ++ [(l.pa, l.wts)] } else s).holdLine s.cur l.pa

/-- Several lines read at the stash. -/
def State.readStashAll (s : State) (off n : Nat) : List (Nat × Nat) → State
  | [] => s
  | r :: rs => State.readStashAll (s.readStash off n (r.1 * 16 + r.2)) off n rs

/-- A stash line filled from its home slice under a read lease, and held there for an anchored interval; bytes that weak agents wrote stay (R201,
R202, R219, R224). -/
def State.fillStash (s : State) (c row line : Nat) : State :=
  let x := s.coreAt c
  let k := row * 16 + line
  match (NatMap.find row x.arch.bound).map fun a => a + BitVec.ofNat 64 (64 * line) with
  | none => s
  | some va =>
    match s.access c va false true with
    | .error _ => s
    | .ok (pa, s1) =>
      let ln := lineOf pa
      if s1.badLine ln then s1.eccAt c pa
      else
      let r := s1.loadTs x.pts ln
      let t := r.1.tsAt ln
      let lease := wmax t.rts (r.2 + 64#64)
      let s2 := ((r.1.setTs ln { t with rts := lease }).touch (s1.coherentFor c pa) pa (agentStack c) false r.2).holdLine c ln
      s2.modCore c fun y =>
        let old := (NatMap.find k y.pad.lines).getD { pa := ln, filled := true, wts := 0#64, lease := 0#64, dirty := Vector.replicate 8 0#64 }
        let cells := (upFrom 0 64).filterMap fun i =>
          if old.mask.getLsbD i then none else some (y.decl.lineBase k + i, cellAt s2.mem (ln * 64 + i))
        { y with
          pts := r.2
          pad := { y.pad with
            bytes := cellsPut y.pad.bytes cells
            lines := NatMap.put k { old with pa := ln, filled := true, wts := t.wts, lease := r.2 + 64#64 } y.pad.lines } }

/-- Lines of the stash of the sequencer in focus filled one after another. -/
def State.fillStashAll (s : State) : List (Nat × Nat) → State
  | [] => s
  | r :: rs => State.fillStashAll (s.fillStash s.cur r.1 r.2) rs

/-- The sequencer in focus with its queue loads performed that come before a load at the stash in program order (R193, R216), and the lines of
that load that their times leave past their leases fetched again (R201, R219). -/
def State.loadsBefore (s : State) (off n : Nat) : State :=
  let t := s.fillLoads s.cur 128
  t.fillStashAll (t.core.linesToFill off n)

/-- A direct load of `n` bytes at an offset: it waits until the lines it touches have been filled (R195, R201, R242). -/
def State.directLoad (s : State) (va : Word) (n al : Nat) : Except Stop (List Byte × State) := do
  let off := va.toNat
  s.directOk off n
  aligned al [va]
  let fill := s.core.linesToFill off n
  let lines := s.core.decl.stashLines off n
  if !lines.isEmpty then s.needAnchor
  if fill.isEmpty then
    let t := if lines.isEmpty then s else s.loadsBefore off n
    pure ((upFrom off n).map t.core.directByte, t.readStashAll off n lines)
  else do
    let vas := fill.filterMap fun r => s.core.stashVa r.1 (64 * r.2)
    let _ ← s.reach false vas
    .error (.wait (fill.map fun r => Action.stashFill s.cur r.1 r.2))

/-- A direct store of bytes at offsets: raw bytes land at the next bundle, stash bytes are withheld at the address of their
row (R201, R242). -/
def State.directStore (s : State) (va : Word) (n al : Nat) (bs : List Host.Cell) : Except Stop State := do
  s.directOk va.toNat n
  aligned al [va]
  let d := s.core.decl
  let raw := bs.filter fun c => (d.stashPlace c.1).isNone
  let far := bs.filterMap fun c => (d.stashPlace c.1).bind fun p => (s.core.stashVa p.1 p.2).map fun v => (v, c.2)
  let (ps, s1) ← s.reach true (far.map (·.1))
  let s2 := s1.withhold ((far.zip ps).map fun c => (c.1.1.toNat, c.2, c.1.2))
  pure (if raw.isEmpty then s2.noResult else s2.fly 1 (.raw raw) (.pred false) (BitVec.allOnes 128) noFlags)

/-- The lines of a stash row. -/
def Spad.rowLines (p : Spad) (row : Nat) : List (Nat × StashLine) := p.lines.filter fun l => decide (l.1 / 16 = row)

/-- The scratchpad with every line of a row Invalid. -/
def Spad.dropRow (p : Spad) (row : Nat) : Spad := { p with lines := p.lines.filter fun l => decide (l.1 / 16 ≠ row) }

/-- Engine-dirty lines of a row of the running unit written back; they become Valid (R202, R245). -/
def State.writeBackRow (s : State) (row : Nat) : State := s.writeBack s.core.self 0xFF#8 (s.core.pad.rowLines row)

/-- A stash row of the unit in issue to be written back, bound anew or unbound, and left with every line Invalid, as its bundle commits: the other
memory slot reads the binding and the lines in force at issue (R8, R242, R245). -/
def State.rebind (s : State) (row : Nat) (va : Option Word) : State := s.withCore { s.core with remap := s.core.remap ++ [(row, va)] }

/-- One stash row bound anew or unbound (R245). -/
def State.rebindRow (s : State) (row : Nat) (va : Option Word) : State :=
  let t := s.writeBackRow row
  let a := t.core.arch
  t.withCore { t.core with
    arch := { a with bound := match va with | some v => NatMap.put row v a.bound | none => NatMap.del row a.bound }, pad := t.core.pad.dropRow row }

/-- The stash rows that the slots of a committing bundle bind anew, in word order. -/
def State.remapAll (s : State) : List (Nat × Option Word) → State
  | [] => s.withCore { s.core with remap := [] }
  | r :: rs => State.remapAll (s.rebindRow r.1 r.2) rs

/-- The lanes that a vector store writes: those of the masks that its queue operands carry (R145, R243). -/
def maskLanes (m : LaneMask) : List Nat := (upFrom 0 128).filter fun i => m.getLsbD i

/-- The four bytes of a lane at an address. -/
def laneCells (v : Lanes) (p : Nat × Nat) : List Host.Cell := (toBytes 4 (lane v p.1).toNat).zipIdx.map fun b => (p.2 + b.2, b.1)

/-- The bytes of a piece stored at a virtual and a physical address. -/
def storeBytes (va : Word) (pa : Nat) (bs : List Byte) : List (Nat × Nat × Byte) := bs.zipIdx.map fun b => (va.toNat + b.2, pa + b.2, b.1)

/-- The four bytes of a lane stored, for a lane with its virtual and its physical address. -/
def laneStores (v : Lanes) (p : Nat × Word × Nat) : List (Nat × Nat × Byte) := storeBytes p.2.1 p.2.2 (toBytes 4 (lane v p.1).toNat)

/-- A vector operand of an issuing slot with its carried mask. -/
def State.getVM (s : State) (t : VTy) (a : Src) : Except Stop (Lanes × LaneMask) := liftC (s.readVM t a)

end Sys2Proof.Machine
end

