-- ==== Sys2Proof/Machine/Atomics.lean ====
section
/-! DEFINITION. The atomics (R222, R239, R256, R257) and POST (R259), with the arrival of bytes at a barrier (R232). -/

namespace Sys2Proof.Machine

/-! ### One atomic -/

/-- Whether another sequencer's anchored interval holds a line (R224). -/
def State.lineHeld (s : State) (line : Nat) : Bool :=
  match s.hub.anchor with
  | some (o, _, ls) => decide (o ≠ s.cur) && ls.contains line
  | none => false

/-- A word of `n` bytes replaced at its home slice as one event (R222, R256): earlier loads of the sequencer are performed
first, the line takes max(pts, rts + 1) and so does pts. The result is the old word. -/
def State.atomicAt (s : State) (pa n : Nat) (f : Nat → Nat) : Nat × State :=
  let s0 := s.fillLoads s.cur 128
  let line := lineOf pa
  let t := wmax s0.core.pts ((s0.tsAt line).rts + 1#64)
  let old := s0.readNat pa n
  let s1 := ((s0.touch (s0.coherentFor s0.cur pa) pa (agentStack s0.cur) true t).setTs line { wts := t, rts := t }).poke pa (toBytes n (f old))
  (old, s1.withCore { s1.core with pts := t })

/-- An atomic on `n` bytes at an address with the old word returned to a queue (R239, R256, R257). -/
def State.atomic (s : State) (w : Bool) (d : BitVec 6) (va : Word) (n : Nat) (f : Nat → Nat) : Except Stop State := do
  if !w then s.needQueue d
  aligned n [va]
  let (ps, s1) ← s.reach true [va]
  let pa := ps.headD 0
  if s1.lineHeld (lineOf pa) then .error (.wait [])
  need (s1.struck [pa]).isNone .eccUncorrected (BitVec.ofNat 64 pa)
  let r := s1.atomicAt pa n f
  pure (if w then r.2.noResult else (r.2.returned d r.1 n).noResult)

/-- An atomic on an 8-byte word with one operand. -/
def State.atomic8 (s : State) (p : BitVec 3) (w : Bool) (d : BitVec 6) (a b : Src) (f : Nat → Nat → Nat) : Host.Outcome State Fault Refusal :=
  s.issue p [a, b] fun s => do
    let x ← s.getS a
    let y ← s.getS b
    s.atomic w d x 8 fun o => f o y.toNat

/-- Signed order of 64-bit words. -/
def slt64 (x y : Nat) : Bool := decide (intOf 64 true x < intOf 64 true y)

/-- AADD (R256). -/
def execAadd (p : BitVec 3) (w : Bool) (d : BitVec 6) (a b : Src) (s : State) : Host.Outcome State Fault Refusal :=
  s.atomic8 p w d a b fun o x => (o + x) % 2 ^ 64

/-- AFXADD (R99, R256): bounds absorb, and no flag is raised. -/
def execAfxadd (p : BitVec 3) (w : Bool) (d : BitVec 6) (a b : Src) (s : State) : Host.Outcome State Fault Refusal :=
  s.atomic8 p w d a b fun o x => wrapTo 64 (fxAdd (intOf 64 true o) (intOf 64 true x)).1

/-- AFADD (R256): a 4-byte word, rounded to nearest even with subnormals kept, and no flag. -/
def execAfadd (p : BitVec 3) (w : Bool) (d : BitVec 6) (a b : Src) (s : State) : Host.Outcome State Fault Refusal :=
  s.issue p [a, b] fun s => do
    let x ← s.getS a
    let y ← s.getS b
    s.atomic w d x 4 fun o => (fp32.add .near false o (y.toNat % 2 ^ 32)).1

/-- AMIN (R256). -/
def execAmin (p : BitVec 3) (w : Bool) (d : BitVec 6) (a b : Src) (s : State) : Host.Outcome State Fault Refusal :=
  s.atomic8 p w d a b fun o x => if slt64 x o then x else o

/-- AMAX (R256). -/
def execAmax (p : BitVec 3) (w : Bool) (d : BitVec 6) (a b : Src) (s : State) : Host.Outcome State Fault Refusal :=
  s.atomic8 p w d a b fun o x => if slt64 o x then x else o

/-- AMINN (R256). -/
def execAminn (p : BitVec 3) (w : Bool) (d : BitVec 6) (a b : Src) (s : State) : Host.Outcome State Fault Refusal :=
  s.atomic8 p w d a b fun o x => min o x

/-- AMAXN (R256). -/
def execAmaxn (p : BitVec 3) (w : Bool) (d : BitVec 6) (a b : Src) (s : State) : Host.Outcome State Fault Refusal :=
  s.atomic8 p w d a b fun o x => max o x

/-- AINCB (R256). -/
def execAincb (p : BitVec 3) (w : Bool) (d : BitVec 6) (a b : Src) (s : State) : Host.Outcome State Fault Refusal :=
  s.atomic8 p w d a b fun o x => if o < x then o + 1 else o

/-- ACAS: compared with sk, replaced by s(k + 1) (R256). -/
def execAcas (p : BitVec 3) (w : Bool) (d : BitVec 6) (a : Src) (b : BitVec 5) (s : State) : Host.Outcome State Fault Refusal :=
  s.issue p [a] fun s => do
    let x ← s.getS a
    let k := (s.core.arch.sreg (b ++ 0#1)).toNat
    let v := (s.core.arch.sreg (b ++ 1#1)).toNat
    s.atomic w d x 8 fun o => if o = k then v else o

/-- ASWAP (R256). -/
def execAswap (p : BitVec 3) (w : Bool) (d : BitVec 6) (a b : Src) (s : State) : Host.Outcome State Fault Refusal :=
  s.atomic8 p w d a b fun _ x => x

/-- AAND (R256). -/
def execAand (p : BitVec 3) (w : Bool) (d : BitVec 6) (a b : Src) (s : State) : Host.Outcome State Fault Refusal :=
  s.atomic8 p w d a b fun o x => o &&& x

/-- AOR (R256). -/
def execAor (p : BitVec 3) (w : Bool) (d : BitVec 6) (a b : Src) (s : State) : Host.Outcome State Fault Refusal :=
  s.atomic8 p w d a b fun o x => o ||| x

/-- AXOR (R256). -/
def execAxor (p : BitVec 3) (w : Bool) (d : BitVec 6) (a b : Src) (s : State) : Host.Outcome State Fault Refusal :=
  s.atomic8 p w d a b fun o x => o ^^^ x

/-! ### Barriers -/

/-- The barrier that POST and BWAIT name: in the unit's own raw region, or in device memory (R259, R260). -/
def State.barHere (s : State) (raw write : Bool) (a : Word) : Except Stop (BarLoc × State) := do
  if raw then
    need (decide (a.toNat + 64 ≤ s.core.decl.rawBytes)) .scratchRange a
    aligned 64 [a]
    pure (.raw s.core.self a.toNat, s)
  else
    aligned 64 [a]
    let (ps, s1) ← s.reach write [a]
    pure (.mem (ps.headD 0), s1)

/-- POST (R259). -/
def execPost (p : BitVec 3) (sx : Bool) (a b : Src) (s : State) : Host.Outcome State Fault Refusal :=
  s.issue p [a, b] fun s => do
    let x ← s.getS a
    let n ← s.getS b
    need (decide (n.toNat ≤ 2 ^ 40)) .postRange n
    let (loc, s1) ← s.barHere sx true x
    pure (s1.barPost loc n.toNat).noResult

/-- BARRIER_ARRIVAL (R232): counted bytes reach a barrier. -/
def execBarrierArrival (s : State) : Host.Outcome State Fault Refusal :=
  match s.act with
  | some (.barrierArrival loc n w) => .next (s.barArrive loc n w)
  | _ => .next s

end Sys2Proof.Machine
end

