-- ==== Sys2Proof/Machine/Paths.lean ====
section
/-! DEFINITION. The crosspoints and routes of the package (R312, R313, R315), the slots of their wheels (R320, R323, R324), and
the probe that reserves a path (R327). -/

namespace Sys2Proof.Machine

/-! ### Routes (R312, R313, R315) -/

/-- The hop delay of a crosspoint (R312). -/
def hopDelay (x : Nat) : Nat := if x < 32 then 2 else if x = 32 then 6 else 4

/-- Whether a crosspoint has a port (R312). -/
def portExists (x port : Nat) : Bool :=
  if x < 32 then decide (port ≤ 10) else if x = 32 then decide (port ≤ 36) else decide (x ≤ 36) && decide (port ≤ 8)

/-- An Ibaskov port of the package. -/
def State.portAt (s : State) (p : Nat) : Port := NatMap.findD {} p s.fabric.ports

/-- The state with an Ibaskov port replaced. -/
def State.setPort (s : State) (p : Nat) (x : Port) : State :=
  { s with fabric := { s.fabric with ports := NatMap.putD {} p x s.fabric.ports } }

/-- The bits set in a mask. -/
def ones (m : BitVec 16) : Nat := sumOf (fun i => b2n (m.getLsbD i)) (upFrom 0 16)

/-- The live wavelengths of a direction (R433, R444). -/
def Port.live (x : Port) (rx : Bool) : BitVec 16 := if rx then x.rxMask &&& ~~~x.parkedRx else x.txMask &&& ~~~x.parkedTx

/-- Whether a port can carry a circuit (R321, R438). -/
def Port.carries (x : Port) : Bool := x.up && !x.lost && decide (12 ≤ ones (x.live false)) && decide (12 ≤ ones (x.live true))

/-- The live ports of a package's route set (R315, R439). -/
def State.routeSet (s : State) (d : BitVec 16) : List Nat :=
  (NatMap.findD [] d.toNat s.fabric.routes).filter fun p => (s.portAt p).up && !(s.portAt p).lost

/-- The port that a flow takes (R315): the hash is the lightport die's. -/
def State.routePort (s : State) (d : BitVec 16) (score dcore cls label : Nat) : Option Nat :=
  let ps := s.routeSet d
  if ps.isEmpty then none else ps[Config.routeHash s.fabric.num.toNat score dcore cls label % ps.length]?

/-- Where a path leads: to a core of the package, or out of it by a port of a lightport die. -/
inductive Goal where
  | core (c : Nat)
  | exit (die : Nat) (ports : List Nat)
  | die (k : Nat)
deriving DecidableEq, Repr

/-- The outputs of a crosspoint toward a goal, in the order in which a probe tries them (R313, R327). -/
def Goal.outs (g : Goal) (x : Nat) : List Nat :=
  match g with
  | .core c =>
    let q := quadOf c
    if x < 32 then
      if x = q then [c % 8]
      else if x / 4 = q / 4 then
        match (q % 4 + 4 - x % 4) % 4 with
        | 1 => [9]
        | 3 => [8]
        | _ => [9, 8]
      else [10]
    else if x = 32 then [q]
    else [0]
  | .exit k ps => if x < 32 then [10] else if x = 32 then [32 + k] else (ps.filter fun p => decide (p / 8 = k)).map fun p => 1 + p % 8
  | .die k => if x < 32 then [10] else if x = 32 then [32 + k] else []

/-- The crosspoint that an output leads to, none where it leaves the wheels of the package. -/
def nextXpt (x out : Nat) : Option Nat :=
  if x < 32 then
    if out = 9 then some (x / 4 * 4 + (x % 4 + 1) % 4)
    else if out = 8 then some (x / 4 * 4 + (x % 4 + 3) % 4)
    else if out = 10 then some 32
    else none
  else if x = 32 then (if out < 32 then some out else if out ≤ 35 then some (out + 1) else none)
  else (if out = 0 then some 32 else none)

/-! ### Slots (R320, R323, R324) -/

/-- The number of the wheel of an output port. -/
def wheelOf (x out : Nat) : Nat := 64 * x + out

/-- The slots of a width from a first one, on a wheel. -/
def slotSet (wheel first w : Nat) : List (Nat × Nat) := (upFrom 0 w).map fun i => (wheel, (first + i) % 64)

/-- The key of a slot. -/
def slotKey (k : Nat × Nat) : Nat := 64 * k.1 + k.2

/-- The slots of a wheel that a partition holds (R323). -/
def State.slotsHeld (s : State) (p wheel : Nat) : Nat :=
  sumOf (fun i => b2n (decide (NatMap.find (64 * wheel + i) s.fabric.wheels = some p))) (upFrom 0 64)

/-- Whether a set of slots of one wheel is free and within the partition's quota (R323). -/
def State.slotsFree (s : State) (p wheel : Nat) (set : List (Nat × Nat)) : Bool :=
  set.all (fun k => (NatMap.find (slotKey k) s.fabric.wheels).isNone) && decide (s.slotsHeld p wheel + set.length ≤ (s.partAt p).glQuota)

/-- Slots taken for a partition. -/
def State.takeSlots (s : State) (p : Nat) (ks : List (Nat × Nat)) : State :=
  { s with fabric := { s.fabric with wheels := ks.foldl (fun m k => NatMap.put (slotKey k) p m) s.fabric.wheels } }

/-- The slots that a tree uses on its ports. -/
def Tree.slots (t : Tree) : List (Nat × Nat) :=
  ((upFrom 0 32).filter fun p => t.down.getLsbD p || (!t.root && decide (t.up = p))).map fun p => (wheelOf (33 + p / 8) (1 + p % 8), t.uslot)

/-- The static slots of an image: those of its wheel entries and of its trees. -/
def Image.slots (i : Image) : List (Nat × Nat) := (i.wheels.map fun e => (wheelOf e.xpt e.outp, e.slot)) ++ i.trees.flatMap Tree.slots

/-- The partition whose image has a slot among its static ones, which stay reserved for the life of the image (R324). -/
def State.staticOwner (s : State) (k : Nat × Nat) : Option Nat := (s.hub.images.find? fun i => i.2.slots.contains k).map (·.1)

/-- Slots given up: those of a static set go back to it. -/
def State.dropSlots (s : State) (ks : List (Nat × Nat)) : State :=
  let give (m : NatMap Nat) (k : Nat × Nat) := match s.staticOwner k with
    | some p => NatMap.put (slotKey k) p m
    | none => NatMap.del (slotKey k) m
  { s with fabric := { s.fabric with wheels := ks.foldl give s.fabric.wheels } }

/-- A marker among the packets of a flow (R328, R329): a header and nothing else, in the flow's own class. -/
def State.markFlow (s : State) (f : Flow) (part : Nat) (last : Bool) : State :=
  s.post { cls := if 0xFF00 ≤ f.label.toNat then 1#3 else 0#3, spkg := f.spkg, score := f.score, dpkg := f.dpkg, dcore := f.dcore, label := f.label,
           podid := s.podOf part, tok := none, body := .flowMark last }

/-- The promoted circuits that a test picks end: the end marker of each follows what it carried, its slots are free, and its flow goes on by the
trail plane, where no packet passes an earlier one (R235, R329). -/
def State.endPromoted (s : State) (f : Promoted → Bool) : State :=
  let s1 := (s.fabric.promoted.filter f).foldl (fun s p => (s.dropSlots p.path).markFlow p.flow p.part true) s
  { s1 with fabric := { s1.fabric with promoted := s1.fabric.promoted.filter fun p => !f p } }

/-! ### The probe (R327) -/

/-- A hop of a probe: its crosspoint, its outputs, which is tried, and the shift of its slots from the first hop's. -/
structure Hop where
  xpt   : Nat
  outs  : List Nat
  idx   : Nat
  shift : Nat
deriving DecidableEq, Repr

/-- The slots that a hop asks for. -/
def Hop.slots (h : Hop) (first w : Nat) : List (Nat × Nat) := slotSet (wheelOf h.xpt (h.outs.getD h.idx 0)) (first + h.shift) w

/-- The hops below one whose outputs are spent, the top first, with the next output of the first that has one. -/
def nextOutput : List Hop → List Hop
  | [] => []
  | h :: hs => if h.idx + 1 < h.outs.length then { h with idx := h.idx + 1 } :: hs else nextOutput hs

/-- Whether the wheel of an output can carry a circuit: an Ibaskov port narrower than 12 wavelengths cannot (R321). -/
def State.wheelCarries (s : State) (x out : Nat) : Bool := decide (x < 33) || decide (out = 0) || (s.portAt (8 * (x - 33) + (out - 1))).carries

/-- The probe's search: hops given top first, the candidate of hop 0 (those below `lim` follow), and the backtracks so far; the
number bounds it. The first `miss` paths that it reaches failed beyond this package, each one backtrack (log entry 22). -/
def State.probeFrom (s : State) (g : Goal) (p w lim : Nat) (start : Hop) : Nat → List Hop → Nat → Nat → Nat → Option (Nat × List Hop)
  | 0, _, _, _, _ => none
  | _ + 1, [], _, _, _ => none
  | n + 1, h :: hs, first, backs, miss =>
    let out := h.outs.getD h.idx 0
    let free := decide (h.idx < h.outs.length) && s.wheelCarries h.xpt out && s.slotsFree p (wheelOf h.xpt out) (h.slots first w)
    if free && ((nextXpt h.xpt out).isSome || decide (miss = 0)) then
      match nextXpt h.xpt out with
      | none => some (first, h :: hs)
      | some x =>
        State.probeFrom s g p w lim start n ({ xpt := x, outs := g.outs x, idx := 0, shift := h.shift + hopDelay h.xpt } :: h :: hs) first backs miss
    else if 8 < backs + 1 then none
    else
      let left := if free then miss - 1 else miss
      match nextOutput (h :: hs) with
      | k :: ks => State.probeFrom s g p w lim start n (k :: ks) first (backs + 1) left
      | [] => if first + w < lim then State.probeFrom s g p w lim start n [start] (first + w) (backs + 1) left else none

/-- A path of `w` slots from a crosspoint toward a goal, the first candidate being `c0`: its slots, its last hop and the first
slot taken; none where the probe is abandoned. -/
def State.probe (s : State) (g : Goal) (p w x0 c0 lim : Nat) (miss : Nat := 0) : Option (List (Nat × Nat) × Hop × Nat) :=
  let start : Hop := { xpt := x0, outs := g.outs x0, idx := 0, shift := 0 }
  match s.probeFrom g p w lim start 200 [start] c0 0 miss with
  | none => none
  | some (first, hs) =>
    match hs with
    | [] => none
    | top :: _ => some (hs.reverse.flatMap fun h => h.slots first w, top, first)

/-! ### Flow meters (R325, R326) -/

/-- The key of a flow of a source core, for the probe. -/
def Flow.key (f : Flow) : Nat := f.dpkg.toNat * 2 ^ 32 + f.dcore * 2 ^ 16 + f.label.toNat

/-- Whether two meter entries have one key. -/
def Flow.same (f g : Flow) : Bool :=
  decide (f.spkg = g.spkg) && decide (f.score = g.score) && decide (f.dpkg = g.dpkg) && decide (f.dcore = g.dcore) && decide (f.label = g.label)

/-- The first position among the least counts of a meter. -/
def leastFlow (fs : List Flow) : Nat :=
  let m := fs.foldl (fun m f => min m f.count) (2 ^ 64)
  (fs.findIdx? fun f => decide (f.count = m)).getD 0

/-- Bytes of a flow counted at a meter: 256 entries, the least of the window giving way (R325). -/
def meterAdd (f : Flow) (fs : List Flow) : List Flow :=
  if fs.any (Flow.same f) then fs.map fun g => if f.same g then { g with count := g.count + f.count } else g
  else if fs.length < 256 then fs ++ [f]
  else modifyAt (fun _ => f) (leastFlow fs) fs

/-- Bytes of class 0, or of a chunk, passing the injection port of a core, or an Ibaskov port, meter 512 and up; a flow that
passes the threshold is to be promoted from its source core, in run mode (R325, R326, R396). -/
def State.meterAt (s : State) (site : Nat) (f : Flow) : State :=
  let fs := NatMap.findD [] site s.fabric.meters
  let old := ((fs.find? (Flow.same f)).map Flow.count).getD 0
  let s1 := { s with fabric := { s.fabric with meters := NatMap.put site (meterAdd f fs) s.fabric.meters } }
  let lim := s.hub.meter.toNat
  let busy := s.fabric.promoted.any fun p => f.same p.flow
  let a : Action := .flowPromoteProbe f.score f.key
  if lim = 0 ∨ old + f.count ≤ lim ∨ lim < old ∨ s.hub.modeDisp ≠ 0#2 ∨ busy ∨ s.due.contains a then s1 else s1.addDue [a]

/-- Bytes of a flow leaving a core. -/
def State.meter (s : State) (score : Nat) (dpkg : BitVec 16) (dcore : Nat) (label : BitVec 16) (n : Nat) : State :=
  s.meterAt score { spkg := s.fabric.num, score := score, dpkg := dpkg, dcore := dcore, label := label, count := n }

/-- The goal of a path toward another package: the die by which the flow leaves, and the live ports of the route set (R315, R327). -/
def State.exitGoal (s : State) (d : BitVec 16) (score dcore label : Nat) : Option Goal :=
  match s.routePort d score dcore 3 label with
  | none => none
  | some p => some (.exit (p / 8) (s.routeSet d))

end Sys2Proof.Machine
end

