-- ==== Sys2Proof/Machine/Records.lean ====
section
/-! DEFINITION. Transfer records (R246, R247), the chunks of a transfer (R249), the reduction of elements (R231, R249), and
where a chunk lands (R197, R198, R202, R248). -/

namespace Sys2Proof.Machine

/-! ### Fields (R246) -/

/-- OWN. -/
def recOwn (r : Block) : Bool := bitAt r 0
/-- OP. -/
def recOp (r : Block) : Nat := fld r 1 3
/-- ETYPE. -/
def recEtype (r : Block) : Nat := fld r 4 3
/-- SWZEN. -/
def recSwz (r : Block) : Bool := bitAt r 7
/-- COLOUR. -/
def recColour (r : Block) : Nat := fld r 8 3
/-- SRCSP. -/
def recSrcSp (r : Block) : Nat := fld r 11 2
/-- DSTSP. -/
def recDstSp (r : Block) : Nat := fld r 13 2
/-- DRING. -/
def recRing (r : Block) : Nat := fld r 15 3
/-- BAREN. -/
def recBarEn (r : Block) : Bool := bitAt r 18
/-- BARSP. -/
def recBarRaw (r : Block) : Bool := bitAt r 19
/-- SWZCH. -/
def recSwzCh (r : Block) : Nat := fld r 20 3
/-- SWZLO. -/
def recSwzLo (r : Block) : Nat := fld r 23 5
/-- DREM. -/
def recRem (r : Block) : Bool := bitAt r 28
/-- DSELF. -/
def recSelf (r : Block) : Bool := bitAt r 29
/-- LEN. -/
def recLen (r : Block) : Nat := fld r 32 32
/-- SRC. -/
def recSrc (r : Block) : Word := BitVec.ofNat 64 (fld r 64 64)
/-- DST. -/
def recDst (r : Block) : Word := BitVec.ofNat 64 (fld r 128 64)
/-- BAR. -/
def recBar (r : Block) : Word := BitVec.ofNat 64 (fld r 192 64)
/-- SPKG. -/
def recSpkg (r : Block) : BitVec 16 := BitVec.ofNat 16 (fld r 256 16)
/-- DPKG. -/
def recDpkg (r : Block) : BitVec 16 := BitVec.ofNat 16 (fld r 272 16)
/-- DCORE. -/
def recDcore (r : Block) : Nat := fld r 288 8
/-- DACCT. -/
def recDacct (r : Block) : Nat := fld r 296 14
/-- NEXT. -/
def recNext (r : Block) : Word := BitVec.ofNat 64 (fld r 320 64)

/-- Whether an RZ bit is set (R246). -/
def recRz (r : Block) : Bool := decide (fld r 30 2 ≠ 0) || decide (fld r 310 10 ≠ 0) || decide (fld r 416 96 ≠ 0)

/-- The element size of a reduction. -/
def recElem (r : Block) : Nat := if recOp r = 4 ∨ recEtype r = 3 ∨ recEtype r = 4 then 8 else 4

/-- The fields of a swizzle outside their limits (R247). -/
def recSwzBad (r : Block) : Bool :=
  recSwz r && (decide (recDstSp r ≠ 2) || decide (4 < recSwzCh r) || decide (recSwzLo r < 10) || decide (20 < recSwzLo r)
    || decide (recSwzLo r < 9 + recSwzCh r))

/-- Whether a record is invalid (R247); `raw` is the size of the initiating unit's raw region. NEXT counts in a chain only
(R255). -/
def recInvalid (r : Block) (raw : Nat) (chain : Bool) : Bool :=
  decide (4 < recOp r) || (decide (1 ≤ recOp r) && decide (recOp r ≤ 3) && decide (4 < recEtype r)) || decide (recSrcSp r = 3)
    || decide (recDstSp r = 3) || decide (recLen r = 0)
    || (decide (recOp r ≠ 0) && (decide (recDstSp r ≠ 0) || decide (recLen r % recElem r ≠ 0) || decide ((recDst r).toNat % recElem r ≠ 0)))
    || recSwzBad r || (recBarEn r && decide ((recBar r).toNat % 64 ≠ 0))
    || (decide (recSrcSp r = 1) && decide (raw < (recSrc r).toNat + recLen r))
    || (chain && decide ((recNext r).toNat % 64 ≠ 0))

/-- Whether a destination lies in another package (R246): a DSELF raw region or ring is always this unit's. -/
def State.recFar (s : State) (r : Block) : Bool :=
  recRem r && decide (recDpkg r ≠ s.fabric.num) && !(recSelf r && decide (recDstSp r ≠ 0))

/-- Whether a source lies in another package. -/
def State.recFarSrc (s : State) (r : Block) : Bool := decide (recSrcSp r = 2) && decide (recSpkg r ≠ s.fabric.num)

/-! ### Chunks (R249) -/

/-- The offset of the first byte in its 256-byte block of destination offsets; a ring's offsets count from the transfer. -/
def chunkBase (r : Block) : Nat := if recDstSp r = 2 then 0 else (recDst r).toNat % 256

/-- The first bytes of the chunks of a record. -/
def chunkStarts (r : Block) : List Nat :=
  let b := chunkBase r
  0 :: (upFrom 1 ((b + recLen r + 255) / 256 - 1)).map fun k => 256 * k - b

/-- The bytes of the chunk that starts at `lo`. -/
def chunkLen (r : Block) (lo : Nat) : Nat := min (256 - (chunkBase r + lo) % 256) (recLen r - lo)

/-! ### Reductions (R231, R249) -/

/-- One element reduced. -/
def reduceElem (r : Block) (old new : Nat) : Nat :=
  let w := 8 * recElem r
  let signed := decide (recEtype r = 0) || decide (recEtype r = 3)
  let less := decide (intOf w signed new < intOf w signed old)
  match recOp r with
  | 1 => if recEtype r = 2 then (fp32.add .near false old new).1 else (old + new) % 2 ^ w
  | 2 => if recEtype r = 2 then fp32.minMax false false old new else if less then new else old
  | 3 => if recEtype r = 2 then fp32.minMax false true old new else if less then old else new
  | _ => wrapTo 64 (fxAdd (intOf 64 true old) (intOf 64 true new)).1

/-- The elements of a chunk reduced, `n` of them. -/
def reduceAll (r : Block) (old new : List Byte) : Nat → List Byte
  | 0 => []
  | n + 1 =>
    let w := recElem r
    toBytes w (reduceElem r (ofBytes (old.take w)) (ofBytes (new.take w))) ++ reduceAll r (old.drop w) (new.drop w) n

/-! ### Addresses of weak agents (R210, R351, R360, R361) -/

/-- The physical address of an access by an engine of a core, or by a lightport die for another package, for a partition: the leaf is one that
the agent holds, or that of a walk. A table entry in a word with an uncorrectable error gives ECC_UNCORRECTED (R446). -/
def State.weakAccess (s : State) (a : Nat) (p : Nat) (va : Word) (write : Bool) : Except Cause Nat :=
  if a = rangerId then (if va.toNat < memTop then .ok va.toNat else .error .translation)
  else if (cachedLeaf (s.leavesOf a) p va.toNat).isNone && (s.walkStruck p va).isSome then .error .eccUncorrected
  else
    match s.weakLeaf a p va with
    | none => .error .translation
    | some l => if attrForbids l (agentStack a) write then .error .attr else .ok (l.pa + (va.toNat - l.va))

/-- Whether an agent's access to an address goes to a coherent page (R211). -/
def State.weakCoherent (s : State) (a p : Nat) (va : Word) : Bool :=
  decide (a = rangerId) || (s.weakLeaf a p va).any fun l => decide (l.attr = 2#2)

/-- The physical addresses of a run of at most a page's bytes, or its fault. -/
def State.weakSpan (s : State) (agent : Nat) (p : Nat) (va : Word) (n : Nat) (write : Bool) :
    Except (Cause × Word) (List Nat) :=
  let room := 2 ^ 16 - fld va 0 16
  let vb := va + BitVec.ofNat 64 room
  match s.weakAccess agent p va write with
  | .error k => .error (k, va)
  | .ok pa =>
    if n ≤ room then .ok (upFrom pa n)
    else
      match s.weakAccess agent p vb write with
      | .error k => .error (k, vb)
      | .ok pb => .ok (upFrom pa room ++ upFrom pb (n - room))

/-- The first of the bytes that an agent reads in a word with an uncorrectable error, or its fault (R446). -/
def State.weakRead (s : State) (agent : Nat) (p : Nat) (va : Word) (n : Nat) : Except (Cause × Word) (List Nat) :=
  match s.weakSpan agent p va n false with
  | .error e => .error e
  | .ok pas =>
    match s.struck pas with
    | some pa => .error (.eccUncorrected, BitVec.ofNat 64 pa)
    | none => .ok pas

/-- What reading bytes leaves of an agent's leaves and of their regions: the leaf of a miss is taken in, and the region notes the read (R211,
R212, R361). -/
def State.noteRead (s : State) (agent : Nat) (p : Nat) (va : Word) (pas : List Nat) : State :=
  let coh := s.weakCoherent agent p va
  (squeeze (pas.map regionOf)).foldl (fun s k => s.touch coh (k * 2 ^ 21) (agentStack agent) false 0#64) (s.cacheLeaf agent p va)

/-- Weak writes of bytes at physical addresses (R227), with the largest wts they take; `va` is the address by which the agent writes. -/
def State.weakCells (s : State) (agent : Nat) (p : Nat) (va : Word) (cs : List Host.Cell) : State × Word :=
  let coh := s.weakCoherent agent p va
  let ls := squeeze (cs.map fun c => lineOf c.1)
  let r := (s.cacheLeaf agent p va).weakTsAll 0#64 ls
  let t := ls.foldl (fun s l => s.touch coh (64 * l) (agentStack agent) true r.2) r.1
  (t.putCells cs, r.2)

/-! ### Scratchpads as destinations (R195, R198, R202, R248) -/

/-- Bytes put into a unit's scratchpad one by one, in its rows or in its spilled image. -/
def State.padPut (s : State) (u : Nat) (cs : List Host.Cell) : State :=
  match s.unitAt u with
  | some x => if x.spilled then cs.foldl (fun s c => s.padWrite u c.1 [c.2]) s else s.modPad u fun p => { p with bytes := cellsPut p.bytes cs }
  | none => if u = 0 then s.modPad 0 fun p => { p with bytes := cellsPut p.bytes cs } else s

/-- The bindings of a unit's stash rows, on its core or kept. -/
def State.boundOf (s : State) (u : Nat) : NatMap Word :=
  match s.runsOn u with
  | some c => (s.coreAt c).arch.bound
  | none => ((s.unitAt u).map fun x => x.saved.bound).getD []

/-- The unit of an account that lands on a core (R248): of those with an allocation there the one that left QUEUED first. -/
def State.landingOf (s : State) (p core acct : Nat) : Option Nat :=
  let us := s.hub.units.filter fun u =>
    decide (u.2.core = core) && decide (u.2.part = p) && decide (accId u.2.hold.acct = acct) && u.2.rank.isSome
      && decide (u.2.st ≠ .ended) && decide (u.2.decl.spbytes ≠ 0)
  match us with
  | [] => none
  | u :: rest => some (rest.foldl (fun b v => if v.2.rank.getD 0 < b.2.rank.getD 0 then v else b) u).1

/-- The unit that a record lands in; `self` is the initiating unit, where it is of this package. -/
def State.landingUnit (s : State) (p : Nat) (self : Option Nat) (r : Block) : Option Nat :=
  if recSelf r then self else s.landingOf p (recDcore r) (recDacct r)

/-- How far the pieces that have come reach from `pos` on; the number bounds the steps. -/
def reached (got : List (Nat × Nat)) (pos : Nat) : Nat → Nat
  | 0 => pos
  | n + 1 =>
    match got.find? fun g => decide (g.1 = pos) && decide (g.2 ≠ 0) with
    | some g => reached got (pos + g.2) n
    | none => pos

/-- Reservations settled in order: bytes count as ready once all before them are complete (R198). The result is the bytes
that became ready and the reservations left. -/
def settleResv : List Resv → Nat × List Resv
  | [] => (0, [])
  | v :: vs =>
    let pos := reached v.got v.pos (v.got.length + 1)
    if v.len ≤ pos then
      let r := settleResv vs
      (v.len - v.pos + r.1, r.2)
    else (pos - v.pos, { v with pos := pos, got := v.got.filter fun g => decide (pos ≤ g.1) } :: vs)

/-- A piece of a reservation complete. -/
def Ring.fill (r : Ring) (id lo n : Nat) : Ring :=
  let q := settleResv (r.resv.map fun v => if v.id = id then { v with got := v.got ++ [(lo, n)] } else v)
  { r with ready := r.ready + q.1, resv := q.2 }

/-- A piece of a reservation complete, in the ring where it stands. -/
def State.fillRing (s : State) (a : RingAt) (lo n : Nat) : State :=
  s.modPad a.unit fun p => { p with rings := vput p.rings a.ring ((vget {} p.rings a.ring).fill a.resv lo n) }

/-- Every byte of a reservation complete, in the ring where it stands. -/
def State.fillAll (s : State) (a : RingAt) : State :=
  s.modPad a.unit fun p =>
    let r := vget {} p.rings a.ring
    let q := settleResv (r.resv.map fun v => if v.id = a.resv then { v with got := [(v.pos, v.len - v.pos)] } else v)
    { p with rings := vput p.rings a.ring { r with ready := r.ready + q.1, resv := q.2 } }

/-- The number by which a circuit waits for room in a ring, past every transfer's. -/
def circuitTicket (key : Nat) : Nat := 2 ^ 40 + key

/-- Whether a producer that once waited for room in a ring still does: a transfer of this package that has not begun, an open, or a packet of
another package that waits here to be taken. -/
def State.awaitsRoom (s : State) (e : BitVec 16 × Nat) : Bool :=
  if e.1 = s.fabric.num then
    if e.2 < 2 ^ 40 then (match s.xferAt e.2 with | some t => !t.started && !t.faulted | none => false)
    else
      let key := e.2 - 2 ^ 40
      decide ((vget {} (s.engOf (key / 16)).gl (key % 16)).st = .opening)
  else
    s.due.any fun a => match a with
      | .trailPacketDeliver k => decide (k.spkg = e.1) && (match k.body with
        | .chunk x _ _ _ _ _ => decide (x = e.2)
        | .glOpen key _ _ => decide (circuitTicket key = e.2)
        | _ => false)
      | _ => false

/-- Bytes reserved at the tail of a ring for a producer, in the order in which producers started: where an earlier one still waits, or
the free space is too small, it waits in the ring's line (R197, R198). -/
def State.reserveRing (s : State) (u k : Nat) (who : BitVec 16 × Nat) (id n : Nat) : Except State (RingAt × State) :=
  let len := (s.declOf u).ringLen k
  let r := vget {} (s.padOf u).rings k
  let used := r.ready + r.held + r.resvBytes
  let ahead := (r.line.takeWhile fun e => decide (e ≠ who)).filter s.awaitsRoom
  if len < used + n ∨ ¬ ahead.isEmpty then
    .error (s.modPad u fun p => { p with rings := vput p.rings k { r with line := if r.line.contains who then r.line else r.line.filter s.awaitsRoom ++ [who] } })
  else
    let base := (r.head + used) % len
    .ok ({ unit := u, ring := k, resv := id, base := base },
      s.modPad u fun p => { p with rings := vput p.rings k { r with resv := r.resv ++ [{ id := id, len := n }], line := r.line.erase who } })

/-- Where byte `i` of a reservation stands in the scratchpad, under the swizzle (R169, R248). -/
def State.ringSpot (s : State) (a : RingAt) (swz : Option (Nat × Nat)) (i : Nat) : Nat :=
  let d := s.declOf a.unit
  let o := (a.base + i) % d.ringLen a.ring
  d.ringBase a.ring + (match swz with
    | some (ch, lo) => o ^^^ ((o / 2 ^ lo % 8) * 2 ^ (6 + ch))
    | none => o)

/-- The swizzle of a record. -/
def recSwizzle (r : Block) : Option (Nat × Nat) := if recSwz r then some (recSwzCh r, recSwzLo r) else none

/-- Whether the length of a ring does not fit a swizzle (R167, R248). -/
def swzMisfit (swz : Option (Nat × Nat)) (len : Nat) : Bool :=
  match swz with
  | some (ch, _) => decide (len % (8 * (64 * 2 ^ ch)) ≠ 0)
  | none => false

/-- What the landing of a chunk comes to: performed with the largest wts it takes, dropped, a fault, or a wait, in which some of its
words may have landed. -/
inductive Landing where
  | done (s : State) (wts : Word)
  | dropped (s : State)
  | fault (k : Cause) (addr : Word)
  | waits (s : State)

/-- Who lands a chunk: its record, the partition, the agent that translates, the initiating unit where it is of this package, the unit in
whose rows it lands, the key of applied bitmaps, and the ring reservation. -/
structure Lander where
  record : Block
  part   : Nat
  agent  : Nat
  self   : Option Nat
  land   : Option Nat
  key    : Applied
  ring   : Option RingAt

/-- LAND_REFUSED recorded for what is dropped (R248). -/
def State.landRefused (s : State) (p : Nat) (addr : Word) (tid : BitVec 32) : State :=
  s.event .landRefused 5 0 (some p) addr 0#32 tid

/-- One stash line with bytes that a weak agent wrote: each byte is of the colour of its last write (R202, R226). -/
def State.dirtyLine (s : State) (u k pa colour : Nat) (mask : BitVec 64) : State :=
  s.modPad u fun p =>
    let l := (NatMap.find k p.lines).getD { pa := lineOf pa, filled := false, wts := 0#64, lease := 0#64, dirty := Vector.replicate 8 0#64 }
    let rest := vmap (fun m => m &&& ~~~mask) l.dirty
    { p with lines := NatMap.put k { l with pa := lineOf pa, dirty := vput rest colour (vget 0#64 rest colour ||| mask) } p.lines }

/-- The stash lines that bytes from an offset touch marked Engine-dirty, or the fault of a row's page (R202, R210). -/
def State.dirtyLines (s : State) (l : Lander) (u : Nat) (offs : List Nat) : List (Nat × Nat) → Except (Cause × Word) State
  | [] => .ok s
  | (row, line) :: rest =>
    let k := row * 16 + line
    let va := NatMap.findD 0#64 row (s.boundOf u) + BitVec.ofNat 64 (64 * line)
    match s.weakAccess l.agent l.part va true with
    | .error c => .error (c, va)
    | .ok pa =>
      let base := (s.declOf u).stashBase + 64 * k
      let mask := (upFrom 0 64).foldl (fun m i => if offs.contains (base + i) then m ||| BitVec.ofNat 64 (2 ^ i) else m) 0#64
      State.dirtyLines ((s.cacheLeaf l.agent l.part va).dirtyLine u k pa (recColour l.record) mask) l u offs rest

/-- The words of a chunk that land now, of bytes with their offsets in the destination: those of a set (R230). -/
def inWords (words : BitVec 64) (cs : List (Nat × Byte)) : List (Nat × Byte) := cs.filter fun c => words.getLsbD (c.1 / 4 % 64)

/-- A chunk landing in a raw region; a DSELF destination may also be bound stash rows, whose lines become Engine-dirty
(R202, R230, R248). -/
def State.landPad (s : State) (l : Lander) (u off : Nat) (words : BitVec 64) (data : List Byte) : Landing :=
  let d := s.declOf u
  let n := data.length
  let cells := inWords words (data.zipIdx.map fun b => (off + b.2, b.1))
  let drop := Landing.dropped (s.landRefused l.part (BitVec.ofNat 64 off) l.key.tid)
  if off + n ≤ d.rawBytes then .done (s.padPut u cells) 0#64
  else if ¬ recSelf l.record then drop
  else
    let ok := (upFrom off n).all fun o =>
      decide (o < d.rawBytes) || (decide (d.stashBase ≤ o) && decide (o < 1024 * d.rows)
        && (NatMap.find ((o - d.stashBase) / 1024) (s.boundOf u)).isSome)
    if ¬ ok then drop
    else
      let far := (cells.map (·.1)).filter fun o => decide (d.stashBase ≤ o)
      let lines := (squeeze (far.map fun o => (o - d.stashBase) / 64)).map fun k => (k / 16, k % 16)
      match s.dirtyLines l u far lines with
      | .error e => .fault e.1 e.2
      | .ok t => .done (t.padPut u cells) 0#64

/-- The applied-bitmap entry of a chunk's slice. -/
def Applied.same (a b : Applied) : Bool :=
  decide (a.slice = b.slice) && decide (a.spkg = b.spkg) && decide (a.score = b.score) && decide (a.chan = b.chan)
    && decide (a.tid = b.tid) && decide (a.xfer = b.xfer)

/-- A chunk noted as applied at its slice: none where it had been, or where its slice has no free entry (R231). -/
def noteApplied (k : Applied) (lo : Nat) (as : List Applied) : Option (Bool × List Applied) :=
  match as.find? (Applied.same k) with
  | some a => if a.chunks.contains lo then some (false, as) else some (true, as.map fun b => if b.same k then { b with chunks := lo :: b.chunks } else b)
  | none =>
    if (as.filter fun b => decide (b.slice = k.slice)).length < 1024 then some (true, as ++ [{ k with chunks := [lo] }]) else none

/-- Why a chunk does not reach an address: the fault of its page, or, from another package to a private page, nothing but
LAND_REFUSED (R366). -/
def State.noLanding (s : State) (l : Lander) (k : Cause) (va : Word) : Landing :=
  if rangerId < l.agent ∧ (s.weakLeaf l.agent l.part va).any (fun leaf => decide (leaf.attr = 0#2)) then .dropped (s.landRefused l.part va l.key.tid)
  else .fault k va

/-- A chunk of a copy, or the words of it in a set, landing in device memory of this package (R227, R230). -/
def State.landCopy (s : State) (l : Lander) (lo : Nat) (words : BitVec 64) (data : List Byte) : Landing :=
  let va := recDst l.record + BitVec.ofNat 64 lo
  match s.weakSpan l.agent l.part va data.length true with
  | .error e => s.noLanding l e.1 e.2
  | .ok pas => let r := s.weakCells l.agent l.part va (inWords words (pas.zip data)); .done r.1 r.2

/-- A chunk of a reduction applied in device memory of this package, once (R231, R249); the result also says whether it was applied now. -/
def State.landReduce (s : State) (l : Lander) (lo : Nat) (data : List Byte) : Landing × Bool :=
  let va := recDst l.record + BitVec.ofNat 64 lo
  match s.weakSpan l.agent l.part va data.length true with
  | .error e => (s.noLanding l e.1 e.2, false)
  | .ok pas =>
    match s.struck pas, noteApplied { l.key with slice := s.homeOf (pas.headD 0) } lo s.hub.applied with
    | some pa, _ => (.fault .eccUncorrected (BitVec.ofNat 64 pa), false)
    | none, none => (.waits s, false)
    | none, some (false, _) => (.done s 0#64, false)
    | none, some (true, as) =>
      let old := pas.map (cellAt s.mem)
      let r := (s.withHub { s.hub with applied := as }).weakCells l.agent l.part va
        (pas.zip (reduceAll l.record old data (data.length / recElem l.record)))
      (.done r.1 r.2, true)

/-- The words of a copied chunk that are still to land. -/
def State.halfOf (s : State) (l : Lander) (lo : Nat) : Option HalfChunk :=
  s.hub.halves.find? fun h => decide (h.spkg = l.key.spkg) && decide (h.xfer = l.key.xfer) && decide (h.lo = lo)

/-- The state without the note of a chunk half landed. -/
def State.dropHalf (s : State) (l : Lander) (lo : Nat) : State :=
  s.withHub { s.hub with halves := s.hub.halves.filter fun h => !(decide (h.spkg = l.key.spkg) && decide (h.xfer = l.key.xfer) && decide (h.lo = lo)) }

/-- A copied chunk landing in two parts or in one: which of its words land first is free, so that a load meanwhile may find some words old
and some new, each of them whole (R230; log entry 121). -/
def State.inParts (s : State) (l : Lander) (lo : Nat) (land : State → BitVec 64 → Landing) : Landing :=
  match s.halfOf l lo with
  | some h =>
    match land (s.dropHalf l lo) (~~~h.words) with
    | .done t w => .done t (wmax h.wts w)
    | r => r
  | none =>
    let first := BitVec.ofNat 64 (Config.sense s.free 4)
    if first = 0#64 ∨ first = BitVec.allOnes 64 then land s.tickFree (BitVec.allOnes 64)
    else
      match land s.tickFree first with
      | .done t w => .waits (t.withHub { t.hub with halves := t.hub.halves ++ [{ spkg := l.key.spkg, xfer := l.key.xfer, lo := lo, words := first, wts := w }] })
      | r => r

/-- The barrier that a landing names, none where it names none, or why the chunk does not land (R246, R248, R253). -/
def State.landBar (s : State) (l : Lander) : Except Landing (Option BarLoc) :=
  if ¬ recBarEn l.record then .ok none
  else if recBarRaw l.record then
    match l.land with
    | none => .error (.dropped (s.landRefused l.part (recBar l.record) l.key.tid))
    | some u =>
      if (recBar l.record).toNat + 64 ≤ (s.declOf u).rawBytes then .ok (some (.raw u (recBar l.record).toNat))
      else .error (.dropped (s.landRefused l.part (recBar l.record) l.key.tid))
  else
    match s.weakAccess l.agent l.part (recBar l.record) true with
    | .error k => .error (s.noLanding l k (recBar l.record))
    | .ok pa => .ok (some (.mem pa))

/-- A chunk landing where its record says, and arriving at its barrier (R231, R232, R248, R249). -/
def State.landChunk (s : State) (l : Lander) (lo : Nat) (data : List Byte) : Landing :=
  match s.landBar l with
  | .error e => e
  | .ok bar =>
    let arrive (t : State) (w : Word) : Landing :=
      match bar with
      | some b => .done (t.barArrive b data.length w) w
      | none => .done t w
    match recDstSp l.record with
    | 0 =>
      if recOp l.record = 0 then
        match s.inParts l lo fun s words => s.landCopy l lo words data with
        | .done t w => arrive t w
        | r => r
      else
        match s.landReduce l lo data with
        | (.done t w, true) => arrive t w
        | (r, _) => r
    | 1 =>
      match l.land with
      | none => .dropped (s.landRefused l.part (recDst l.record) l.key.tid)
      | some u =>
        match s.inParts l lo fun s words => s.landPad l u ((recDst l.record).toNat + lo) words data with
        | .done t w => arrive t w
        | r => r
    | _ =>
      match l.ring with
      | none => .dropped s
      | some a =>
        let t := s.padPut a.unit (data.zipIdx.map fun b => (s.ringSpot a (recSwizzle l.record) (lo + b.2), b.1))
        arrive (t.fillRing a lo data.length) 0#64

end Sys2Proof.Machine
end

