-- ==== Sys2Proof/Machine/Transfer.lean ====
section
/-! DEFINITION. The life of a transfer (R198, R248 to R255, R268): its start, its chunks, its faults, its end, and the
counters OUTLD and OUTST (R229). -/

namespace Sys2Proof.Machine

/-! ### Making a transfer -/

/-- A new transfer in the hub's list. -/
def State.addXfer (s : State) (t : Xfer) : Nat × State :=
  let n := s.hub.nextXfer
  (n, s.withHub { s.hub with nextXfer := n + 1, xfers := NatMap.put n t s.hub.xfers })

/-- ENGINE_RZ for a record with an RZ bit set (R5, R247). -/
def State.recordRz (s : State) (c p : Nat) (r : Block) (addr : Word) : State :=
  if recRz r then s.event .engineRz (if c = rangerId then 6 else 0) (if c = rangerId then 0 else c) (some p) addr else s

/-- A record as a transfer of a unit whose holding is `h`. -/
def newXfer (h : Hold) (unit core part chan : Nat) (tid : BitVec 32) (raddr : Word) (r : Block) : Xfer :=
  { unit := unit, core := core, part := part, chan := chan, isGet := false, tid := tid, raddr := raddr, record := r,
    todo := chunkStarts r, home := (h.acct, h.pkg) }

/-- The weight that a unit holds, on its core or off it. -/
def State.holdOf (s : State) (u : Nat) : Hold :=
  match s.runsOn u with
  | some c => (s.coreAt c).hold
  | none => ((s.unitAt u).map Uni.hold).getD {}

/-! ### Counters (R229) -/

/-- Whether a transfer counts: begun, and not stopped by a fault. -/
def Xfer.live (t : Xfer) : Bool := !t.heldGet && !t.faulted

/-- Bytes of chunks not yet performed. -/
def Xfer.unwritten (t : Xfer) : Nat := sumOf (chunkLen t.record) t.todo

/-- Bytes of chunks not yet read. -/
def Xfer.unread (t : Xfer) : Nat := sumOf (chunkLen t.record) (t.todo.filter fun lo => !t.sentOut.contains (lo, true))

/-- The transfers that count at a core: those begun there, and those of the unit that runs there (R229). -/
def State.xfersOf (s : State) (c : Nat) : NatMap Xfer :=
  let u := (s.coreAt c).self
  s.hub.xfers.filter fun t => (decide (t.2.core = c) || decide (t.2.unit = u)) && t.2.live

/-- OUTST of a core, as far as transfers go. -/
def State.outst (s : State) (c : Nat) : Nat := sumOf (fun t => t.2.unwritten) (s.xfersOf c)

/-- OUTLD of a core. -/
def State.outld (s : State) (c : Nat) : Nat := sumOf (fun t => t.2.unread) (s.xfersOf c)

/-! ### Ends -/

/-- Whether a record of this package's destinations writes rows of a unit: its destination, or its barrier. -/
def recLands (r : Block) : Bool := decide (recDstSp r ≠ 0) || (recBarEn r && recBarRaw r)

/-- The unit in whose rows a record of this package lands, found at its start or, where none was there, now (R248). -/
def State.landOf (s : State) (t : Xfer) : Option Nat :=
  if recLands t.record && !s.recFar t.record then t.land.or (s.landingUnit t.part (some t.unit) t.record) else none

/-- The lander of a transfer of this package. -/
def State.landerOf (s : State) (x : Nat) (t : Xfer) : Lander :=
  { record := t.record, part := t.part, agent := t.core, self := some t.unit, land := s.landOf t,
    key := { slice := 0, spkg := s.fabric.num, score := t.core, chan := t.chan, tid := t.tid, xfer := x, chunks := [] },
    ring := t.ring }

/-- A packet of a transfer (R316). -/
def State.xferPacket (s : State) (t : Xfer) (dst : BitVec 16) (cls : Nat) (tok : Option Tok) (body : PktBody) : Packet :=
  { cls := BitVec.ofNat 3 cls, spkg := s.fabric.num, score := t.core, dpkg := dst, dcore := recDcore t.record,
    label := BitVec.ofNat 16 (0xFF00 + t.chan), podid := s.podOf t.part, tok := tok, body := body }

/-- What is kept of a transfer's chunks at its destination freed: its applied-bitmap entries (R231). -/
def Hub.retire (h : Hub) (spkg : BitVec 16) (x : Nat) : Hub :=
  { h with
    applied := h.applied.filter fun a => !(decide (a.xfer = x) && decide (a.spkg = spkg))
    halves := h.halves.filter fun a => !(decide (a.xfer = x) && decide (a.spkg = spkg)) }

/-- A transfer that has retired: its applied-bitmap entries are free, in the package of its destination too, it is forgotten, and the rows of an
ended unit may be given up (R231, R310). -/
def State.dropXfer (s : State) (x : Nat) : State :=
  match s.xferAt x with
  | none => s
  | some t =>
    let h := s.hub
    let s1 := s.withHub ({ h with xfers := NatMap.del x h.xfers }.retire s.fabric.num x)
    let s2 := if s.recFar t.record && s.reachable (recDpkg t.record) then s1.post (s1.xferPacket t (recDpkg t.record) 3 none (.retired x t.faulted)) else s1
    s2.reapAll

/-- Logical time of a unit with every weak write counted. -/
def State.unitPts (s : State) (u : Nat) : Word :=
  match s.runsOn u with
  | some c => (s.coreAt c).allPts
  | none => ((s.unitAt u).map fun x => wmax x.pts (maxOf x.eng.weak)).getD 0#64

/-- A PUT that is finished: its token goes home, from the barrier that holds it where a fault finished it (R255, R268). -/
def State.finishPut (s : State) (x : Nat) (t : Xfer) (fault : Bool) : State :=
  let at' (b : BarTok) : Bool := decide (b.xfer = x) && decide (b.spkg = s.fabric.num)
  let mine := if fault then s.hub.barToks.filter at' else []
  let s1 := if fault then s.withHub { s.hub with barToks := s.hub.barToks.filter fun b => !at' b } else s
  let s2 := (s1.giveTok? t.core t.tok false (s.unitPts t.unit)).giveToks t.core (s.unitPts t.unit) (mine.map BarTok.tok)
  s2.dropXfer x

/-- What becomes due when every chunk counts as performed. -/
def State.whenPerformed (s : State) (x : Nat) (t : Xfer) : State :=
  if t.chan < 8 then s.addDue [.recordComplete x]
  else if t.isGet then s.addDue [.getComplete x]
  else s.finishPut x t false

/-- A chunk that counts as performed: written with its time, or dropped, when its ring bytes are complete all the same. -/
def State.chunkOver (s : State) (x lo : Nat) (written : Option Word) : State :=
  match s.xferAt x with
  | none => s
  | some t =>
    let n := chunkLen t.record lo
    let t1 : Xfer :=
      { t with todo := t.todo.erase lo, sentOut := t.sentOut.filter fun p => decide (p.1 ≠ lo),
               bytes := if written.isSome then t.bytes + n else t.bytes, maxWts := wmax t.maxWts (written.getD 0#64) }
    let s1 := (s.setXfer x t1).raiseWeak t.unit (recColour t.record) (written.getD 0#64)
    let s2 := match written, t.ring with
      | none, some a => s1.fillRing a lo n
      | _, _ => s1
    if t1.todo.isEmpty && !t1.faulted then s2.whenPerformed x t1 else s2

/-- A read that a package refused, or that could not be sent: the chunk is dropped, and a GET ends with bit 63 set (R255,
R351). -/
def State.readRefused (s : State) (x lo : Nat) : State :=
  match s.xferAt x with
  | none => s
  | some t => ((s.landRefused t.part (recSrc t.record + BitVec.ofNat 64 lo) t.tid).setXfer x { t with bad := true }).chunkOver x lo none

/-- A fault of a transfer becomes due (R253, R255). -/
def State.xferFault (s : State) (x : Nat) (t : Xfer) (k : Cause) (addr : Word) : State :=
  s.addDue [if t.chan < 8 then .channelFault x k addr else .putGetRemoteFault x k addr]

/-- A fault of a chunk: an uncorrectable error cancels the unit's job, and the chunk, whose access does not complete, counts as dropped
(R446; log entry 94); any other is the transfer's. -/
def State.chunkFault (s : State) (x lo : Nat) (t : Xfer) (k : Cause) (addr : Word) : State :=
  if k = .eccUncorrected then ((s.eccStop (s.holdOf t.unit) t.part addr.toNat).setXfer x { t with bad := true }).chunkOver x lo none
  else s.xferFault x t k addr

/-! ### Start (R198, R252, R255) -/

/-- The token of a PUT whose barrier is of this package goes to the barrier (R268). -/
def State.placeBarTok (s : State) (x : Nat) (t : Xfer) : State :=
  match t.tok with
  | none => s
  | some k =>
    if t.chan < 8 ∨ ¬ recBarEn t.record ∨ s.recFar t.record then s
    else
      match s.landBar (s.landerOf x t) with
      | .ok (some loc) =>
        (s.setXfer x { t with tok := none }).withHub
          { (s.setXfer x { t with tok := none }).hub with barToks := s.hub.barToks ++ [{ spkg := s.fabric.num, xfer := x, loc := loc, tok := k }] }
      | .ok none | .error _ => s

/-- A transfer that has begun: its chunks become due. -/
def State.beginXfer (s : State) (x : Nat) (t : Xfer) : State :=
  (s.setXfer x { t with started := true }).addDue (t.todo.map fun lo => Action.chunkPerform x lo)

/-- Whether a transfer that began earlier still waits for the same ring (R198). -/
def State.behindAnother (s : State) (x u k : Nat) : Bool :=
  s.hub.xfers.any fun y =>
    decide (y.1 < x) && !y.2.started && !y.2.heldGet && !y.2.faulted && decide (recDstSp y.2.record = 2) && !s.recFar y.2.record
      && decide (recRing y.2.record = k) && decide (s.landingUnit y.2.part (some y.2.unit) y.2.record = some u)

/-- RING_RESERVE: a transfer reserves its bytes where its destination is a ring of this package, waiting while they do not
fit, and begins; one too large, or that no unit takes, is dropped whole (R198, R248). -/
def State.ringStart (s0 : State) (x : Nat) (t0 : Xfer) : State :=
  let t : Xfer := { t0 with land := s0.landOf t0 }
  let s := s0.setXfer x t
  if recDstSp t.record ≠ 2 ∨ s.recFar t.record then (s.placeBarTok x t).beginXfer x (((s.placeBarTok x t).xferAt x).getD t)
  else
    let s1 := s.placeBarTok x t
    let t1 := (s1.xferAt x).getD t
    let refuse (s : State) : State := s.beginXfer x { t1 with dropAll := true }
    match t1.land with
    | none => refuse (s1.landRefused t1.part 0#64 t1.tid)
    | some u =>
      let k := recRing t1.record
      let len := (s1.declOf u).ringLen k
      if len < recLen t1.record then refuse (s1.event .ringOversize 0 t1.core (some t1.part) t1.raddr 0#32 t1.tid)
      else if swzMisfit (recSwizzle t1.record) len then refuse (s1.landRefused t1.part 0#64 t1.tid)
      else if s1.behindAnother x u k then s1.addDue [.ringReserve x]
      else
        match s1.reserveRing u k (s.fabric.num, x) x (recLen t1.record) with
        | .ok (a, s2) => s2.beginXfer x { t1 with ring := some a }
        | .error s2 => s2.addDue [.ringReserve x]

/-! ### Chunks (R248, R249, R255) -/

/-- The bytes of a chunk counted at the injection port of its core (R325); a destination in device memory of this package counts
as number 256, the slices behind hub port 36. -/
def State.meterChunk (s : State) (t : Xfer) (n : Nat) : State :=
  let far := s.recFar t.record
  s.meter t.core (if far then recDpkg t.record else s.fabric.num) (if ¬ far ∧ recDstSp t.record = 0 then 256 else recDcore t.record)
    (BitVec.ofNat 16 (0xFF00 + t.chan)) n

/-- The data of a chunk on its way to its destination. -/
def State.deliver (s : State) (x lo : Nat) (t : Xfer) (data : List Byte) : State :=
  if s.recFar t.record then
    if ¬ s.reachable (recDpkg t.record) then (s.landRefused t.part (recDst t.record) t.tid).chunkOver x lo none
    else
      let ride := if t.chan = 8 ∧ recBarEn t.record then t.tok else none
      let k := s.xferPacket t (recDpkg t.record) 1 ride (.chunk x t.record lo t.chan t.tid data)
      let t1 : Xfer := { t with sentOut := (t.sentOut.filter fun p => decide (p.1 ≠ lo)) ++ [(lo, true)], tok := if ride.isSome then none else t.tok }
      ((s.setXfer x t1).meterChunk t data.length).post k
  else
    match s.landChunk (s.landerOf x t) lo data with
    | .done s1 w => (s1.meterChunk t data.length).chunkOver x lo (some w)
    | .dropped s1 => (s1.meterChunk t data.length).chunkOver x lo none
    | .fault k a => s.chunkFault x lo t k a
    | .waits s1 => s1.addDue [.chunkPerform x lo]

/-- The bytes of a chunk read at their source in this package, with what the read leaves of caches and regions. -/
def State.sourceBytes (s : State) (t : Xfer) (lo : Nat) : Except (Cause × Word) (List Byte × State) :=
  let n := chunkLen t.record lo
  let va := recSrc t.record + BitVec.ofNat 64 lo
  if recSrcSp t.record = 1 then .ok (s.padRead t.unit ((recSrc t.record).toNat + lo) n, s)
  else (s.weakRead t.core t.part va n).map fun pas => (pas.map (cellAt s.mem), s.noteRead t.core t.part va pas)

/-- CHUNK_PERFORM: a chunk read, and written or sent on; its read is sent where its source lies in another package. -/
def State.performChunk (s : State) (x lo : Nat) (t : Xfer) : State :=
  if t.dropAll then s.chunkOver x lo none
  else if s.recFarSrc t.record then
    if ¬ s.reachable (recSpkg t.record) then s.readRefused x lo
    else
      let va := recSrc t.record + BitVec.ofNat 64 lo
      let k := s.xferPacket t (recSpkg t.record) 1 none (.read x va.toNat lo (chunkLen t.record lo))
      (s.setXfer x { t with sentOut := t.sentOut ++ [(lo, false)] }).post k
  else
    match s.sourceBytes t lo with
    | .error e => s.chunkFault x lo t e.1 e.2
    | .ok (data, s1) => s1.deliver x lo t data

/-! ### Channels (R250 to R253) -/

/-- A channel of a unit. -/
def State.chanAt (s : State) (u n : Nat) : Chan := vget {} (s.engOf u).chans n

/-- A channel of a unit replaced. -/
def State.setChan (s : State) (u n : Nat) (c : Chan) : State := s.modEng u fun e => { e with chans := vput e.chans n c }

/-- DONE moved past every completed id (R252). -/
def Chan.advance (c : Chan) : Nat → Chan
  | 0 => c
  | n + 1 => if c.ahead.contains c.done then Chan.advance { c with ahead := c.ahead.erase c.done, done := c.done + 1 } n else c

/-- A channel stopped by an error on a record (R250, R253): CHnERR keeps the first. -/
def Chan.stop (c : Chan) (k : Cause) (tid : BitVec 32) (raddr : Word) : Chan :=
  if c.error then c else { c with error := true, errTid := tid, errCause := causeCode k, errAddr := raddr }

/-- The trap record of an engine of a unit; one that has ended has no handler to call and is forwarded (R253, R310). -/
def State.engineTrap (s : State) (u part : Nat) (t : TrapInfo) : State :=
  match s.unitAt u with
  | some x => if x.st = .ended then s.forward x.core part t.addr x.hold.acct else s.weakTrap u t
  | none => s

/-- A transfer that a fault stopped no longer holds back a fence, even once it resumes (R228). -/
def State.unfence (s : State) (u x : Nat) : State :=
  let drop (f : Option (BitVec 8 × List Nat)) := f.map fun m => (m.1, m.2.erase x)
  match s.runsOn u with
  | some c => s.modCore c fun k => { k with fence := drop k.fence }
  | none => s.modUnit u fun y => { y with saved := { y.saved with fence := drop y.saved.fence } }

/-- A record taken by a channel of a unit whose FENCE waits is one of those that it started before (R228). -/
def State.fenceToo (s : State) (u x : Nat) : State :=
  match s.runsOn u with
  | some c => s.modCore c fun k => { k with fence := k.fence.map fun m => (m.1, m.2 ++ [x]) }
  | none => s

/-- A record's fault stops its channel (R253); a channel of an ended unit gives the record up. -/
def State.chanFault (s : State) (x : Nat) (t : Xfer) (k : Cause) (addr : Word) : State :=
  let c := s.chanAt t.unit t.chan
  let gone := decide ((s.unitAt t.unit).map Uni.st = some .ended)
  let s1 := (s.setXfer x { t with faulted := true, sentOut := [] }).unfence t.unit x
  let info : TrapInfo := { cause := k, addr := addr, engine := 1, weak := true, chan := t.chan, tid := t.tid }
  if gone then
    let s2 := s1.setChan t.unit t.chan { c.quit with owned := c.owned.erase x, error := false }
    ((s2.settleChan t.unit t.core t.chan (s2.unitPts t.unit)).dropXfer x).engineTrap t.unit t.part info
  else
    (s1.setChan t.unit t.chan { c.stop k t.tid t.raddr with faulted := c.faulted ++ [x] }).engineTrap t.unit t.part info

/-- An error in taking the record at HEAD (R252): the id is the one that it would have had. -/
def State.takeFault (s : State) (u p n : Nat) (k : Cause) (addr : Word) : State :=
  let h := s.chanAt u n
  let gone := decide ((s.unitAt u).map Uni.st = some .ended)
  let s1 := s.setChan u n (if gone then h.quit else h.stop k h.issued h.head)
  let s2 := if gone then s1.settleChan u (((s.unitAt u).map Uni.core).getD 0) n (s1.unitPts u) else s1
  s2.engineTrap u p { cause := k, addr := addr, engine := 1, weak := true, chan := n, tid := h.issued }

/-- The core whose engine walks a unit's channels: the one it runs on, or for a unit ended by cancellation the one it left,
since its channels run to completion (R250, R282). -/
def State.walksOn (s : State) (u : Nat) : Option Nat :=
  match s.runsOn u with
  | some c => some c
  | none => (s.unitAt u).bind fun x => if x.st = .ended then some x.core else none

/-- The partition of a unit. -/
def State.unitPart (s : State) (u : Nat) : Nat := ((s.unitAt u).map Uni.part).getD (s.coreAt rangerId).part

/-- CHANNEL_TAKE_RECORD (R252): one record taken at HEAD, or the channel parks or stops. -/
def State.takeRecord (s : State) (u n : Nat) : State :=
  match s.walksOn u with
  | none => s
  | some c =>
    let p := s.unitPart u
    let h := s.chanAt u n
    if ¬ h.walking ∨ h.error ∨ 4 ≤ h.owned.length then s
    else if h.limited ∧ h.limit = 0#32 then
      (s.setChan u n { h with walking := false, parked := true }).settleChan u c n (s.unitPts u)
    else
      match s.weakRead c p h.head 64 with
      | .error e =>
        if e.1 = .eccUncorrected then
          let s1 := (s.eccStop (s.holdOf u) p e.2.toNat).setChan u n { h with walking := false, pending := none }
          s1.settleChan u c n (s1.unitPts u)
        else s.takeFault u p n e.1 h.head
      | .ok pas =>
        let s := s.noteRead c p h.head pas
        let r := BitVec.ofNat 512 (s.readNat (pas.headD 0) 64)
        if ¬ recOwn r then (s.setChan u n { h with walking := false, parked := true }).settleChan u c n (s.unitPts u)
        else if recInvalid r (s.declOf u).rawBytes true then s.takeFault u p n .recordInvalid h.head
        else
          let (x, s1) := (s.recordRz c p r h.head).addXfer (newXfer (s.holdOf u) u c p n h.issued h.head r)
          let more := decide (recNext r ≠ 0#64)
          let h1 : Chan :=
            { h with issued := h.issued + 1, owned := h.owned ++ [x], limit := if h.limited then h.limit - 1 else h.limit,
                     walking := more, head := if more then recNext r else h.head }
          ((s1.setChan u n h1).fenceToo u x).addDue (.ringReserve x :: (if more then [.channelTakeRecord u n]
            else if h.pending.isSome then [.channelShadowStart u n] else []))

/-- A chain begun on a channel (R251). -/
def Chan.startChain (h : Chan) (head : Word) (limit : BitVec 32) : Chan :=
  { h with head := head, limit := limit, limited := decide (limit ≠ 0#32), walking := true, parked := false }

/-- Whether the chain of a channel has ended, so that its shadow may start: a parked one has not (R251, R252). -/
def Chan.chainOver (h : Chan) : Bool := !h.walking && !h.error && !h.parked

/-- CHANNEL_SHADOW_START (R251). -/
def State.shadowStart (s : State) (u n : Nat) : State :=
  let h := s.chanAt u n
  match h.pending with
  | some (a, b) =>
    if h.chainOver && (s.walksOn u).isSome then
      (s.setChan u n { h.startChain a b with pending := none }).addDue [.channelTakeRecord u n]
    else s
  | none => s

/-- RECORD_COMPLETE (R252): the record is compared and given back, DONE moves on, and the channel goes on. -/
def State.completeRecord (s : State) (x : Nat) (t : Xfer) : State :=
  match s.weakAccess t.core t.part t.raddr true with
  | .error k => s.xferFault x t k t.raddr
  | .ok pa =>
    let now := BitVec.ofNat 512 (s.readNat pa 64)
    let struck := s.struck (upFrom pa 64)
    let same := struck.isSome || decide (setField now 384 32 0 = setField t.record 384 32 0)
    let s := match struck with | some a => s.eccStop (s.holdOf t.unit) t.part a | none => s
    let s1 := if same then s else s.event .recordChanged 0 t.core (some t.part) t.raddr 0#32 t.tid (BitVec.ofNat 64 t.chan)
    let own := (pa, BitVec.ofNat 8 (fld now 0 8 / 2 * 2))
    let tid := (toBytes 4 t.tid.toNat).zipIdx.map fun b => (pa + 48 + b.2, b.1)
    let r := s1.weakCells t.core t.part t.raddr (own :: tid)
    let s2 := r.1.raiseWeak t.unit (recColour t.record) r.2
    let h := s2.chanAt t.unit t.chan
    let h1 := Chan.advance { h with owned := h.owned.erase x, ahead := h.ahead ++ [t.tid] } (h.ahead.length + 1)
    let s3 := (s2.setChan t.unit t.chan h1).settleChan t.unit t.core t.chan (s2.unitPts t.unit)
    (s3.addDue ((if h1.walking then [.channelTakeRecord t.unit t.chan] else [])
      ++ (if h1.pending.isSome then [.channelShadowStart t.unit t.chan] else []))).dropXfer x

/-! ### PUT and GET (R255) -/

/-- The chunks of a list that count as dropped at a fault: their ring bytes are complete. -/
def State.dropChunks (s : State) (t : Xfer) : List Nat → State
  | [] => s
  | lo :: ls =>
    State.dropChunks (match t.ring with | some a => s.fillRing a lo (chunkLen t.record lo) | none => s) t ls

/-- A fault finishes a PUT or GET: its chunks not yet performed count as dropped (R255). -/
def State.putGetFault (s : State) (x : Nat) (t : Xfer) (k : Cause) (addr : Word) : State :=
  let s1 := (s.dropChunks t t.todo).setXfer x { t with todo := [], sentOut := [], bad := true, faulted := true }
  let s2 := s1.engineTrap t.unit t.part { cause := k, addr := addr, engine := 2, weak := true, chan := 8, tid := t.tid }
  if t.isGet then s2.addDue [.getComplete x] else s2.finishPut x t true

/-- GET_COMPLETE: the entry of a GET takes its byte count, with bit 63 set where it did not perform every chunk (R255). -/
def State.completeGet (s : State) (x : Nat) (t : Xfer) : State :=
  let v := if t.bad then BitVec.ofNat 64 (t.bytes + 2 ^ 63) else BitVec.ofNat 64 (recLen t.record)
  let s1 := match t.entry with
    | some id => s.answer t.unit id v
    | none => s
  s1.dropXfer x

/-! ### Device actions -/

/-- CHANNEL_TAKE_RECORD (R252). -/
def execChannelTakeRecord (s : State) : Host.Outcome State Fault Refusal :=
  match s.act with
  | some (.channelTakeRecord u n) => .next (s.takeRecord u n)
  | _ => .next s

/-- CHANNEL_SHADOW_START (R251). -/
def execChannelShadowStart (s : State) : Host.Outcome State Fault Refusal :=
  match s.act with
  | some (.channelShadowStart u n) => .next (s.shadowStart u n)
  | _ => .next s

/-- RING_RESERVE (R198). -/
def execRingReserve (s : State) : Host.Outcome State Fault Refusal :=
  match s.act with
  | some (.ringReserve x) =>
    match s.xferAt x with
    | some t => .next (if t.started || t.heldGet || t.faulted then s else s.ringStart x t)
    | none => .next s
  | _ => .next s

/-- CHUNK_PERFORM (R249): where its core's requests stand at their cap, the engine waits (R385). -/
def execChunkPerform (s : State) : Host.Outcome State Fault Refusal :=
  match s.act with
  | some (.chunkPerform x lo) =>
    match s.xferAt x with
    | some t =>
      .next (if !t.todo.contains lo || t.faulted || t.sentOut.any (fun p => decide (p.1 = lo)) then s
        else if t.isGet || s.requestRoom t.core then s.performChunk x lo t else s.addDue [.chunkPerform x lo])
    | none => .next s
  | _ => .next s

/-- RECORD_COMPLETE (R252). -/
def execRecordComplete (s : State) : Host.Outcome State Fault Refusal :=
  match s.act with
  | some (.recordComplete x) =>
    match s.xferAt x with
    | some t => .next (s.completeRecord x t)
    | none => .next s
  | _ => .next s

/-- CHANNEL_FAULT (R253). -/
def execChannelFault (s : State) : Host.Outcome State Fault Refusal :=
  match s.act with
  | some (.channelFault x k addr) =>
    match s.xferAt x with
    | some t => .next (if t.faulted then s else s.chanFault x t k addr)
    | none => .next s
  | _ => .next s

/-- PUT_GET_REMOTE_FAULT (R255). -/
def execPutGetRemoteFault (s : State) : Host.Outcome State Fault Refusal :=
  match s.act with
  | some (.putGetRemoteFault x k addr) =>
    match s.xferAt x with
    | some t => .next (if t.faulted then s else s.putGetFault x t k addr)
    | none => .next s
  | _ => .next s

/-- GET_COMPLETE (R255). -/
def execGetComplete (s : State) : Host.Outcome State Fault Refusal :=
  match s.act with
  | some (.getComplete x) =>
    match s.xferAt x with
    | some t => .next (s.completeGet x t)
    | none => .next s
  | _ => .next s

/-! ### The forms -/

/-- The transfer record of a PUT or GET in the raw region of the unit (R255). -/
def State.rawRecord (s : State) (off : Word) : Except Stop Block := do
  need (decide (off.toNat + 64 ≤ s.core.decl.rawBytes)) .scratchRange off
  aligned 64 [off]
  pure (BitVec.ofNat 512 (loadNat s.core.pad.bytes off.toNat 64))

/-- The next id of PUTs and GETs of the core in focus (R255). -/
def State.nextPut (s : State) : BitVec 32 × State :=
  (BitVec.ofNat 32 s.core.nextPg, s.withCore { s.core with nextPg := s.core.nextPg + 1 })

/-- PUT (R255, R268). -/
def execPut (p : BitVec 3) (a b : Src) (s : State) : Host.Outcome State Fault Refusal :=
  s.issue p [a, b] fun s => do
    let x ← s.getS a
    let y ← s.getS b
    let r ← s.rawRecord (x + y)
    need (!recInvalid r s.core.decl.rawBytes false && decide (recSrcSp r ≤ 1)) .recordInvalid (x + y)
    let (k, s1) ← s.splitHere
    let (tid, s2) := s1.nextPut
    let u := s.core.self
    let c := s.cur
    let t := newXfer s.core.hold u c s.core.part 8 tid (x + y) r
    let (n, s3) := (s2.recordRz c s.core.part r (x + y)).addXfer { t with tok := some k }
    pure (s3.addDue [.ringReserve n]).noResult

/-- GET (R255): in a C bundle its own confirmation has been made, and it starts. -/
def execGet (p : BitVec 3) (w : Bool) (d : BitVec 6) (a b : Src) (s : State) : Host.Outcome State Fault Refusal :=
  s.issue p [a, b] fun s => do
    let x ← s.getS a
    let y ← s.getS b
    if !w then s.needQueue d
    let r ← s.rawRecord (x + y)
    need (!recInvalid r s.core.decl.rawBytes false && decide (recSrcSp r = 2) && !recRem r) .recordInvalid (x + y)
    let (tid, s1) := s.nextPut
    let u := s.core.self
    let c := s.cur
    let (e, s2) := if w then (none, s1) else (some (s1.reserve d .load none false).1, (s1.reserve d .load none false).2)
    let held := !bitAt s.core.header 31
    let t := newXfer s.core.hold u c s.core.part 8 tid (x + y) r
    let (n, s3) := (s2.recordRz c s.core.part r (x + y)).addXfer { t with isGet := true, entry := e, heldGet := held }
    pure (if held then s3 else s3.addDue [.ringReserve n]).noResult

end Sys2Proof.Machine
end

