-- ==== Sys2Proof/Machine/Circuits.lean ====
section
/-! DEFINITION. Program circuits (R330 to R341): the five forms, and what the guyline plane does with a circuit from its open to
its end. A circuit of unit `u` and handle `h` has the key 16 u + h for other packages. -/

namespace Sys2Proof.Machine

/-! ### The open block (R331) -/

/-- DCORE. -/
def glCore (b : Block) : Nat := fld b 0 8
/-- DREM. -/
def glRem (b : Block) : Bool := bitAt b 8
/-- DSTSP. -/
def glDstSp (b : Block) : Nat := fld b 9 2
/-- DRING. -/
def glRing (b : Block) : Nat := fld b 11 3
/-- BAREN. -/
def glBarEn (b : Block) : Bool := bitAt b 14
/-- BARSP. -/
def glBarRaw (b : Block) : Bool := bitAt b 15
/-- COLOUR. -/
def glColour (b : Block) : Nat := fld b 16 3
/-- STATIC. -/
def glStatic (b : Block) : Bool := bitAt b 19
/-- WIDTH. -/
def glWidth (b : Block) : Nat := fld b 20 6
/-- DPKG. -/
def glPkg (b : Block) : BitVec 16 := BitVec.ofNat 16 (fld b 32 16)
/-- DACCT. -/
def glAcct (b : Block) : Nat := fld b 48 14
/-- DST. -/
def glDst (b : Block) : Word := BitVec.ofNat 64 (fld b 64 64)
/-- BAR. -/
def glBar (b : Block) : Word := BitVec.ofNat 64 (fld b 128 64)
/-- LEN. -/
def glLen (b : Block) : Nat := fld b 192 32
/-- LEASE. -/
def glLease (b : Block) : Nat := fld b 224 24

/-- Whether an RZ bit of the block is set. -/
def glRz (b : Block) : Bool := decide (fld b 26 6 ≠ 0) || decide (fld b 62 2 ≠ 0) || decide (fld b 248 264 ≠ 0)

/-- Whether the block is invalid for a caller on core `c` (R331). -/
def glInvalid (b : Block) (c : Nat) : Bool :=
  decide (glDstSp b = 3) || (!glStatic b && (decide (glWidth b = 0) || decide (32 < glWidth b))) || (glStatic b && glRem b)
    || decide (glLease b < 64) || (decide (glDstSp b ≠ 2) && decide ((glDst b).toNat % 4 ≠ 0))
    || decide ((glBar b).toNat % 64 ≠ 0) || (!glRem b && decide (glCore b = c))

/-- Whether a circuit leads to another package. -/
def State.glFar (s : State) (b : Block) : Bool := glRem b && decide (glPkg b ≠ s.fabric.num)

/-! ### Handles -/

/-- A handle of a unit. -/
def State.handleAt (s : State) (u h : Nat) : GlHandle := vget {} (s.engOf u).gl h

/-- A handle of a unit replaced. -/
def State.setHandle (s : State) (u h : Nat) (x : GlHandle) : State := s.modEng u fun e => { e with gl := vput e.gl h x }

/-- The core of a unit: where it runs, or where it was. -/
def State.coreOfUnit (s : State) (u : Nat) : Nat := (s.runsOn u).getD (((s.unitAt u).map Uni.core).getD rangerId)

/-- The key of a circuit. -/
def glKey (u h : Nat) : Nat := 16 * u + h

/-- A packet of a circuit to its other end; class 7 marks what travels in its slots (log entry 17). -/
def State.glPacket (s : State) (u : Nat) (d : BitVec 16) (dcore cls via : Nat) (body : PktBody) : Packet :=
  { cls := BitVec.ofNat 3 cls, spkg := s.fabric.num, score := s.coreOfUnit u, dpkg := d, dcore := dcore, label := 0#16,
    podid := s.podOf (s.unitPart u), tok := none, body := body, via := via }

/-- The Ibaskov port by which a path leaves the package, counted from 1; 0 where it does not. -/
def exitPort (path : List (Nat × Nat)) : Nat :=
  match path.getLast? with
  | some (w, _) => if 33 ≤ w / 64 then 8 * (w / 64 - 33) + w % 64 else 0
  | none => 0

/-! ### Ends (R339) -/

/-- A circuit that begins to end. -/
def State.endCircuit (s : State) (u h : Nat) (k : GlCause) : State :=
  (s.setHandle u h ((s.handleAt u h).finish k s.time)).addDue [.guylineSlotSend u h]

/-- The slots of a circuit free: a static set stays reserved and is no longer in use (R324). -/
def State.dropPath (s : State) (x : GlHandle) : State :=
  if glStatic x.block then
    { s with fabric := { s.fabric with inUse := s.fabric.inUse.filter fun k => decide (k ≠ (x.score, glCore x.block)) } }
  else s.dropSlots x.path

/-- The bytes of a ring reservation that no word will fill count as complete, as a dropped chunk's do (log entry 18). -/
def State.fillRest (s : State) (a : Option RingAt) (len landed : Nat) : State :=
  match a with
  | some r => if 4 * landed < len then s.fillRing r (4 * landed) (len - 4 * landed) else s
  | none => s

/-- The source stops: its slots are free, and the receiver names its final count. -/
def State.stopSource (s : State) (u h : Nat) (x : GlHandle) : State :=
  let s1 := (s.dropPath x).setHandle u h { x with path := [], told := true }
  let s2 := s1.addDue [.guylineFinalTimeout u h]
  if s.glFar x.block then s2.post (s2.glPacket u (glPkg x.block) (glCore x.block) 3 0 (.glEnd (glKey u h)))
  else (s2.fillRest x.ring (glLen x.block) x.landed).addDue [.guylineFinalCount u h x.landed]

/-- The trap record of a circuit that failed, narrowed or met a fault (R339). -/
def State.glRecord (s : State) (u h : Nat) (x : GlHandle) : State :=
  let c := s.coreOfUnit u
  let p := s.unitPart u
  let info (k : Cause) (addr : Word) : TrapInfo :=
    { cause := k, addr := addr, engine := 4, weak := true, glh := h, resume := x.resumeW, sent := x.sent }
  match x.cause with
  | .failed | .narrowed =>
    (s.event .glBroken 0 c (some p) 0#64 ((x.tok.map Tok.acct).getD 0#32)).engineTrap u p (info .glBroken 0#64)
  | .faulted => s.engineTrap u p (info (x.why.getD .translation) (glDst x.block + BitVec.ofNat 64 (4 * x.resumeW)))
  | .none | .closed | .expired | .preempted | .refused => s

/-- The handle ends (R339): ENDED, with RESUME final or not; its token goes home, tainted after a failed path. -/
def State.overCircuit (s : State) (u h : Nat) (final : Option Nat) : State :=
  let x := s.handleAt u h
  let bad := decide (x.cause = .failed) || decide (x.cause = .narrowed)
  let y : GlHandle :=
    { x with st := .ended, ending := false, final := final.isSome, resumeW := final.getD x.resumeW, tainted := bad, tok := none,
             ring := none, dest := none }
  let s1 := (s.setHandle u h y).giveTok? (s.coreOfUnit u) x.tok bad (s.unitPts u)
  (s1.glRecord u h { y with tok := x.tok }).reapAll

/-- A closing circuit whose words have all been sent and acknowledged ends CLOSED (R338). -/
def State.checkClosed (s : State) (u h : Nat) : State :=
  let x := s.handleAt u h
  if x.st = .closing ∧ ¬ x.ending ∧ x.pend.isEmpty ∧ x.resumeW = x.sent then s.endCircuit u h .closed else s

/-! ### Landings (R331, R335) -/

/-- Where a circuit lands in this package: nowhere, not yet, or a unit and a ring reservation. -/
inductive GlFound where
  | nowhere
  | waits (s : State)
  | at (dest : Option Nat) (ring : Option RingAt) (s : State)

/-- The landing of an open block in partition `p`; `who` is the circuit as it waits for room in a ring (R198, R248, R331, R352). -/
def State.findLanding (s : State) (p : Nat) (who : BitVec 16 × Nat) (b : Block) : GlFound :=
  let unit := s.landingOf p (glCore b) (glAcct b)
  if s.ownerOfQuad (quadOf (glCore b)) ≠ some p then .nowhere
  else
    let barOk := !(glBarEn b && glBarRaw b) || (match unit with
      | some u => decide ((glBar b).toNat + 64 ≤ (s.declOf u).rawBytes)
      | none => false)
    if !barOk then .nowhere
    else
      match glDstSp b, unit with
      | 0, _ => .at (if glBarEn b && glBarRaw b then unit else none) none s
      | 1, some u => if (glDst b).toNat + glLen b ≤ (s.declOf u).rawBytes then .at (some u) none s else .nowhere
      | 2, some u =>
        if (s.declOf u).ringLen (glRing b) < glLen b ∨ (s.declOf u).ringLen (glRing b) = 0 then .nowhere
        else
          let n := s.hub.nextXfer
          match s.reserveRing u (glRing b) who n (glLen b) with
          | .ok (a, t) => .at (some u) (some a) (t.withHub { t.hub with nextXfer := n + 1 })
          | .error t => .waits t
      | _, _ => .nowhere

/-- The words of a flit landed by its receiver and counted at the barrier, with the largest wts; or the fault that ends the
circuit (R335). -/
def State.landFlit (s : State) (agent : Nat) (p : Nat) (b : Block) (dest : Option Nat) (ring : Option RingAt) (pos : Nat)
    (data : List Byte) : Except Cause (State × Word) :=
  let bar : Except Cause (Option BarLoc) :=
    if !glBarEn b then .ok none
    else if glBarRaw b then .ok (dest.map fun u => BarLoc.raw u (glBar b).toNat)
    else (s.weakAccess agent p (glBar b) true).map fun a => some (.mem a)
  match bar with
  | .error k => .error k
  | .ok loc =>
    let arrive (t : State) (w : Word) : Except Cause (State × Word) :=
      match loc with
      | some l => .ok (t.barArrive l data.length w, w)
      | none => .ok (t, w)
    match glDstSp b with
    | 0 =>
      match s.weakSpan agent p (glDst b + BitVec.ofNat 64 (4 * pos)) data.length true with
      | .error e => .error e.1
      | .ok pas => let r := s.weakCells agent p (glDst b + BitVec.ofNat 64 (4 * pos)) (pas.zip data); arrive r.1 r.2
    | 1 =>
      match dest with
      | some u => arrive (s.padPut u (data.zipIdx.map fun c => ((glDst b).toNat + 4 * pos + c.2, c.1))) 0#64
      | none => .ok (s, 0#64)
    | _ =>
      match ring with
      | some a =>
        let t := s.padPut a.unit (data.zipIdx.map fun c => (s.ringSpot a none (4 * pos + c.2), c.1))
        arrive (t.fillRing a (4 * pos) data.length) 0#64
      | none => .ok (s, 0#64)

/-! ### Opening (R333) -/

/-- The entry of a GLOPEN (R333). -/
def glEntry (h : Nat) (refused : Option Cause) : Word :=
  match refused with
  | none => BitVec.ofNat 64 h
  | some k => BitVec.ofNat 64 (h + (causeCode k).toNat * 2 ^ 32 + 2 ^ 63)

/-- The entry of an open filled. -/
def State.answerOpen (s : State) (u : Nat) (x : GlHandle) (v : Word) : State :=
  match x.entry with
  | some id => s.answer u id v
  | none => s

/-- An open refused: the handle ends REFUSED and its token goes home untainted. -/
def State.refuseOpen (s : State) (u h : Nat) (k : Cause) : State :=
  let x := s.handleAt u h
  let s1 := (s.dropSlots x.path).setHandle u h { x with st := .ended, cause := .refused, tok := none, path := [], entry := none }
  ((s1.giveTok? (s.coreOfUnit u) x.tok false (s.unitPts u)).answerOpen u x (glEntry h (some k))).reapAll

/-- An open that succeeds: the circuit is OPEN, and ends at once where its unit left meanwhile (R310, R341). -/
def State.acceptOpen (s : State) (u h width : Nat) (path : List (Nat × Nat)) (dest : Option Nat) (ring : Option RingAt) : State :=
  let x := s.handleAt u h
  let y : GlHandle :=
    { x with st := .opn, width := width, lease := s.time + glLease x.block, path := path, dest := dest, ring := ring, entry := none }
  let s1 := ((s.setHandle u h y).answerOpen u x (glEntry h none)).addDue [.guylineLeaseExpire u h]
  if x.closeWith = .none then s1 else s1.endCircuit u h x.closeWith

/-- The static set of a source and a destination core in a partition's image, as wheel entries (R324). -/
def State.staticSet (s : State) (p c d : Nat) : List WheelEntry :=
  (((s.imageOf p).map Image.wheels).getD []).filter fun e => decide (e.score = c) && decide (e.dcore = d)

/-- A static set put to use: promoted circuits that hold one of its slots end (R329). -/
def State.useStatic (s : State) (c p : Nat) (b : Block) (set : List WheelEntry) : State :=
  let ks := set.map fun e => (wheelOf e.xpt e.outp, e.slot)
  let s1 := (s.endPromoted fun q => q.path.any ks.contains).takeSlots p ks
  { s1 with fabric := { s1.fabric with inUse := s1.fabric.inUse ++ [(c, glCore b)] } }

/-- GLOPEN_COMPLETE within the package: a path, then a landing. -/
def State.openHere (s : State) (u h : Nat) (x : GlHandle) (c p : Nat) : State :=
  let b := x.block
  let set := s.staticSet p c (glCore b)
  let path : Except Cause (Nat × List (Nat × Nat)) :=
    if glStatic b then
      if set.isEmpty || s.fabric.inUse.contains (c, glCore b) then .error .glStatic
      else .ok ((set.filter fun e => decide (e.xpt = quadOf c)).length, [])
    else
      match s.probe (.core (glCore b)) p (glWidth b) (quadOf c) 0 64 with
      | none => .error .glNopath
      | some r => .ok (glWidth b, r.1)
  match path with
  | .error k => s.refuseOpen u h k
  | .ok (w, ks) =>
    match s.findLanding p (s.fabric.num, circuitTicket (glKey u h)) b with
    | .nowhere => s.refuseOpen u h .landRefused
    | .waits t => t.addDue [.glopenComplete u h]
    | .at dest ring t =>
      let t1 := if glStatic b then t.useStatic c p b set else t.takeSlots p ks
      t1.acceptOpen u h w ks dest ring

/-- GLOPEN_COMPLETE toward another package: the path to the port is taken, and the peer is asked for the rest; after a failure there the probe goes
on with its next outputs (R327; log entry 22). -/
def State.openFar (s : State) (u h : Nat) (x : GlHandle) (c p : Nat) : State :=
  let b := x.block
  if x.asked then s
  else if 4096 ≤ (glPkg b).toNat then s.refuseOpen u h .landRefused
  else
    match s.exitGoal (glPkg b) c (glCore b) 0 with
    | none => s.refuseOpen u h .glNopath
    | some g =>
      match s.probe g p (glWidth b) (quadOf c) 0 64 x.misses with
      | none => s.refuseOpen u h .glNopath
      | some (ks, top, first) =>
        let port := exitPort ks
        let flight := (s.portAt (port - 1)).flight
        let s1 := (s.takeSlots p ks).setHandle u h { x with asked := true, path := ks }
        s1.post (s1.glPacket u (glPkg b) (glCore b) 3 port (.glOpen (glKey u h) b ((first + top.shift + hopDelay top.xpt + flight) % 64)))

/-- GLOPEN_COMPLETE (R333). -/
def execGlopenComplete (s : State) : Host.Outcome State Fault Refusal :=
  match s.act with
  | some (.glopenComplete u h) =>
    let x := s.handleAt u h
    if x.st ≠ .opening then .next s
    else
      let c := x.score
      .next (if s.glFar x.block then s.openFar u h x c (s.unitPart u) else s.openHere u h x c (s.unitPart u))
  | _ => .next s

/-! ### Sending (R320, R334, R335) -/

/-- GUYLINE_SLOT_SEND: one flit of the oldest GLSEND placed in a slot, its words read now; or the end told to the receiver. -/
def State.sendSlot (s : State) (u h : Nat) : State :=
  let x := s.handleAt u h
  match x.st with
  | .opn | .closing =>
    if x.ending then (if x.told then s else s.stopSource u h x)
    else
      match x.pend with
      | [] => s
      | g :: rest =>
        let n := min 8 (g.count - g.sent)
        let data := s.padRead u (g.off + 4 * g.sent) (4 * n)
        let pend := if g.sent + n = g.count then rest else { g with sent := g.sent + n } :: rest
        let s1 := s.setHandle u h { x with sent := x.sent + n, pend := pend }
        let s2 :=
          if s.glFar x.block then
            s1.post (s1.glPacket u (glPkg x.block) (glCore x.block) 7 (exitPort x.path) (.glFlit (glKey u h) x.sent data))
          else s1.addDue [.guylineFlitLand u h x.sent data]
        if pend.isEmpty then s2 else s2.addDue [.guylineSlotSend u h]
  | .free | .opening | .ended => s

/-- GUYLINE_SLOT_SEND (R320). -/
def execGuylineSlotSend (s : State) : Host.Outcome State Fault Refusal :=
  match s.act with
  | some (.guylineSlotSend u h) => .next (s.sendSlot u h)
  | _ => .next s

/-- GUYLINE_FLIT_LAND: the next flit of a circuit within the package lands and is acknowledged; a fault ends the circuit. -/
def State.takeFlit (s : State) (u h pos : Nat) (data : List Byte) : State :=
  let x := s.handleAt u h
  match x.st with
  | .opn | .closing =>
    if x.told || x.why.isSome || decide (pos < x.landed) then s
    else if x.landed < pos then s.addDue [.guylineFlitLand u h pos data]
    else
      match s.landFlit (s.coreOfUnit u) (s.unitPart u) x.block x.dest x.ring pos data with
      | .error k => (s.setHandle u h { x with why := some k }).endCircuit u h .faulted
      | .ok (t, w) =>
        let n := pos + data.length / 4
        let y := t.handleAt u h
        ((t.setHandle u h { y with landed := n }).raiseWeak u (glColour x.block) w).addDue [.guylineAckArrive u h n]
  | .free | .opening | .ended => s

/-- GUYLINE_FLIT_LAND (R335). -/
def execGuylineFlitLand (s : State) : Host.Outcome State Fault Refusal :=
  match s.act with
  | some (.guylineFlitLand u h pos data) => .next (s.takeFlit u h pos data)
  | _ => .next s

/-- GUYLINE_ACK_ARRIVE (R335): RESUME advances, and a closing circuit may be done. -/
def execGuylineAckArrive (s : State) : Host.Outcome State Fault Refusal :=
  match s.act with
  | some (.guylineAckArrive u h n) =>
    let x := s.handleAt u h
    if x.over then .next s else .next ((s.setHandle u h { x with resumeW := max x.resumeW n }).checkClosed u h)
  | _ => .next s

/-- GUYLINE_LEASE_EXPIRE (R336). -/
def execGuylineLeaseExpire (s : State) : Host.Outcome State Fault Refusal :=
  match s.act with
  | some (.guylineLeaseExpire u h) =>
    let x := s.handleAt u h
    match x.st with
    | .opn | .closing =>
      .next (if x.ending then s else if x.lease ≤ s.time then s.endCircuit u h .expired else s.addDue [.guylineLeaseExpire u h])
    | .free | .opening | .ended => .next s
  | _ => .next s

/-- GUYLINE_FINAL_COUNT (R339). -/
def execGuylineFinalCount (s : State) : Host.Outcome State Fault Refusal :=
  match s.act with
  | some (.guylineFinalCount u h n) =>
    let x := s.handleAt u h
    .next (if x.ending && x.told && !x.over then s.overCircuit u h (some n) else s)
  | _ => .next s

/-- GUYLINE_FINAL_TIMEOUT (R339): 2^20 cycles without a final count. -/
def execGuylineFinalTimeout (s : State) : Host.Outcome State Fault Refusal :=
  match s.act with
  | some (.guylineFinalTimeout u h) =>
    let x := s.handleAt u h
    .next (if !x.ending || x.over then s else if x.endAt + 2 ^ 20 ≤ s.time then s.overCircuit u h none else s.addDue [.guylineFinalTimeout u h])
  | _ => .next s

/-! ### The forms (R332) -/

/-- GLOPEN (R333). -/
def execGlopen (p : BitVec 3) (w : Bool) (d : BitVec 6) (a b : Src) (s : State) : Host.Outcome State Fault Refusal :=
  s.issue p [a, b] fun s => do
    let x ← s.getS a
    let y ← s.getS b
    if !w then s.needQueue d
    let r ← s.rawRecord x
    let h := fld y 0 4
    let old := vget {} s.core.gl h
    need old.over .glBusy
    need (!glInvalid r s.cur) .recordInvalid x
    let (t, s1) ← s.splitHere
    let s2 := if glRz r then s1.event .engineRz 0 s.cur (some s.core.part) x else s1
    let (e, s3) := if w then (none, s2) else (some (s2.reserve d .work none false).1, (s2.reserve d .work none false).2)
    let k : GlHandle := { st := .opening, block := r, tok := some t, entry := e, score := s.cur }
    pure ((s3.withCore { s3.core with gl := vput s3.core.gl h k }).addDue [.glopenComplete s3.core.self h])

/-- Whether a handle has a circuit that GLHOLD, GLSEND or GLCLOSE may name. -/
def needOpened (x : GlHandle) : Except Stop Unit := need (decide (x.st ≠ .free) && decide (x.st ≠ .opening)) .glState

/-- GLHOLD (R336). -/
def execGlhold (p : BitVec 3) (a b : Src) (s : State) : Host.Outcome State Fault Refusal :=
  s.issue p [a, b] fun s => do
    let x ← s.getS a
    let y ← s.getS b
    let h := fld x 0 4
    let k := vget {} s.core.gl h
    needOpened k
    pure (if k.st = .ended then s else s.withCore { s.core with gl := vput s.core.gl h { k with lease := s.time + min y.toNat 16777215 } })

/-- Words of a circuit sent or to be sent. -/
def GlHandle.taken (x : GlHandle) : Nat := x.sent + sumOf (fun g => g.count - g.sent) x.pend

/-- GLSEND (R334). A free or opening handle has no open block to hold COUNT against, so GL_STATE is tested before LEN (DEDUCED, log entry 25). -/
def execGlsend (p : BitVec 3) (a b : Src) (s : State) : Host.Outcome State Fault Refusal :=
  s.issue p [a, b] fun s => do
    let x ← s.getS a
    let y ← s.getS b
    let h := fld y 0 4
    let n := fld y 16 20
    let k := vget {} s.core.gl h
    need (decide (x.toNat + 4 * n ≤ s.core.decl.rawBytes)) .scratchRange x
    need (decide (n ≠ 0)) .glRange
    needOpened k
    need (decide (k.taken + n ≤ glLen k.block / 4)) .glRange
    aligned 4 [x]
    if k.st = .opn then
      if 4 ≤ k.pend.length then .error (.wait [.guylineSlotSend s.core.self h])
      else
        pure ((s.withCore { s.core with gl := vput s.core.gl h { k with pend := k.pend ++ [{ off := x.toNat, count := n, sent := 0 }] } }).addDue
          [.guylineSlotSend s.core.self h])
    else pure s

/-- The word that GLSTAT writes (R337). -/
def GlHandle.stat (x : GlHandle) : Word :=
  if x.st = .free then 0#64
  else BitVec.ofNat 64 (x.resumeW % 2 ^ 32 + x.st.code * 2 ^ 32 + x.cause.code * 2 ^ 35 + b2n x.final * 2 ^ 38)

/-- GLSTAT (R337). -/
def execGlstat (p : BitVec 3) (w : Bool) (d : BitVec 6) (a : Src) (s : State) : Host.Outcome State Fault Refusal :=
  s.issue p [a] fun s => do
    let x ← s.getS a
    s.resultS w d 4 (vget {} s.core.gl (fld x 0 4)).stat

/-- A circuit closed (R338). -/
def State.closeCircuit (s : State) (u h : Nat) : State :=
  let x := s.handleAt u h
  match x.st with
  | .opn => (s.setHandle u h { x with st := .closing }).checkClosed u h
  | .free | .opening | .closing | .ended => s

/-- GLCLOSE (R338). -/
def execGlclose (p : BitVec 3) (a : Src) (s : State) : Host.Outcome State Fault Refusal :=
  s.issue p [a] fun s => do
    let x ← s.getS a
    let h := fld x 0 4
    needOpened (vget {} s.core.gl h)
    pure (s.closeCircuit s.core.self h)

/-- The circuits of a unit that exits (R310): open ones close, opening ones close as soon as they open. -/
def State.exitCircuits (s : State) (u : Nat) : State :=
  let s1 := s.modEng u fun e =>
    { e with gl := vmap (fun x => if x.st = .opening ∧ x.closeWith = .none then { x with closeWith := .closed } else x) e.gl }
  s1.each (fun s h => s.closeCircuit u h) (upFrom 0 16)

end Sys2Proof.Machine
end

