-- ==== Sys2Proof/Machine/Control.lean ====
section
/-! DEFINITION. Transfers of control and the loop stack (R126 to R135). The successor of a bundle is settled when it has
issued (Sys2Proof.Machine.Issue): the forms here note a taken transfer in `next`. The last entry of `loops` is the top. -/

namespace Sys2Proof.Machine

/-- The state with a taken transfer noted. -/
def State.jump (s : State) (w : Word) : State := s.withCore { s.core with next := some w }

/-- The target of a branch: the bundle's number and a signed displacement. -/
def State.branchTo (s : State) (d : BitVec 21) : Word := s.core.arch.pc + d.signExtend 64

/-- BR (R127). -/
def execBr (p : BitVec 3) (d : BitVec 21) (s : State) : Host.Outcome State Fault Refusal :=
  s.issue p [] fun s => pure (s.jump (s.branchTo d))

/-- CALL (R128). -/
def execCall (p : BitVec 3) (d : BitVec 21) (s : State) : Host.Outcome State Fault Refusal :=
  s.issue p [] fun s => do
    let t ← s.resultS false 63#6 1 (s.core.arch.pc + 1#64)
    pure (t.jump (s.branchTo d))

/-- RET (R129). -/
def execRet (p : BitVec 3) (s : State) : Host.Outcome State Fault Refusal :=
  s.issue p [] fun s => pure (s.jump (s.core.arch.sreg 63#6))

/-- JR (R129). -/
def execJr (p : BitVec 3) (a : Src) (s : State) : Host.Outcome State Fault Refusal :=
  s.issue p [a] fun s => do
    let x ← s.getS a
    pure (s.jump x)

/-- LOOP (R131). -/
def execLoop (p : BitVec 3) (c : Src) (l : BitVec 14) (s : State) : Host.Outcome State Fault Refusal :=
  s.issue p [c] fun s => do
    let k ← s.getS c
    let x := s.core
    let n := x.arch.pc
    let last := n + l.setWidth 64
    let positive := decide (0 < k.toInt)
    need (!(positive && decide (x.arch.loops.getLast?.map LoopEntry.last = some n))) .loopStack
    if !positive then pure (s.jump (last + 1#64))
    else do
      need (decide (x.arch.loops.length < 6)) .loopStack
      pure (s.withCore { x with arch := { x.arch with loops := x.arch.loops ++ [{ start := n + 1#64, last := last, remaining := k }] } })

/-- LEAVE (R134). -/
def execLeave (p : BitVec 3) (a : Src) (s : State) : Host.Outcome State Fault Refusal :=
  s.issue p [a] fun s => do
    let k ← s.getS a
    let x := s.core
    let n := x.arch.loops.length
    need (decide (1 ≤ k.toInt) && decide (k.toInt ≤ n)) .loopStack
    let keep := n - k.toNat
    let out := x.arch.loops.getD keep { start := 0#64, last := 0#64, remaining := 0#64 }
    pure ((s.withCore { x with arch := { x.arch with loops := x.arch.loops.take keep } }).jump (out.last + 1#64))

end Sys2Proof.Machine
end

