-- ==== Sys2Proof/Machine/Scalar.lean ====
section
/-! DEFINITION. The scalar integer, compare, predicate and immediate forms (R104 to R119). -/

namespace Sys2Proof.Machine

/-! ### Shapes of the family -/

/-- A form with two scalar sources and a scalar result. -/
def State.alu2 (s : State) (p : BitVec 3) (w : Bool) (d : BitVec 6) (a b : Src) (lat : Nat) (f : Word → Word → Word) :
    Host.Outcome State Fault Refusal :=
  s.issue p [a, b] fun s => do
    let x ← s.getS a
    let y ← s.getS b
    s.resultS w d lat (f x y)

/-- A form with two scalar sources and its destination as third input (R108). -/
def State.alu3 (s : State) (p : BitVec 3) (w : Bool) (d : BitVec 6) (a b : Src) (f : Word → Word → Word → Word) : Host.Outcome State Fault Refusal :=
  s.issue p [a, b] fun s => do
    let x ← s.getS a
    let y ← s.getS b
    s.resultS w d 1 (f x y (s.core.arch.sreg d))

/-- A form with one scalar source and a scalar result. -/
def State.alu1 (s : State) (p : BitVec 3) (w : Bool) (d : BitVec 6) (a : Src) (f : Word → Word) : Host.Outcome State Fault Refusal :=
  s.issue p [a] fun s => do
    let x ← s.getS a
    s.resultS w d 1 (f x)

/-- An immediate form: the destination register is the first input (R37). -/
def State.aluI (s : State) (p : BitVec 3) (w : Bool) (d : BitVec 6) (f : Word → Word) : Host.Outcome State Fault Refusal :=
  s.issue p [] fun s => s.resultS w d 1 (f (s.core.arch.sreg d))

/-- A compare of two scalar sources into a predicate (R107). -/
def State.compare (s : State) (p : BitVec 3) (w : Bool) (d : BitVec 6) (a b : Src) (f : Word → Word → Bool) : Host.Outcome State Fault Refusal :=
  s.issue p [a, b] fun s => do
    let x ← s.getS a
    let y ← s.getS b
    pure (s.resultP w d 1 (f x y))

/-- A logic form on predicates (R119). -/
def State.predLogic (s : State) (p : BitVec 3) (w : Bool) (d : BitVec 6) (a b : Src) (f : Bool → Bool → Bool) : Host.Outcome State Fault Refusal :=
  s.issue p [a, b] fun s => do
    let x ← liftC (s.readP a)
    let y ← liftC (s.readP b)
    pure (s.resultP w d 1 (f x y))

/-! ### Operations -/

/-- The shift count of a scalar shift: `b[5:0]` (R110). -/
def shiftCount (b : Word) : Nat := fld b 0 6

/-- The lesser or greater of two words by an order. -/
def pick (b : Bool) (x y : Word) : Word := if b then x else y

/-- The number of leading zero bits (R112). -/
def leadingZeros (x : Word) : Word := BitVec.ofNat 64 (64 - bitLen x.toNat)

/-- The number of one bits (R112). -/
def oneBits {n : Nat} (x : BitVec n) : Nat := sumOf (fun i => b2n (x.getLsbD i)) (upFrom 0 n)

/-- BFX (R113). -/
def bitFieldExtract (a b : Word) : Word :=
  let lo := fld b 0 6
  let w := min (fld b 8 7) 64
  let x := a.toNat / 2 ^ lo % 2 ^ w
  let top := min w (64 - lo) - 1
  if bitAt b 15 && decide (0 < w) && x.testBit top then BitVec.ofInt 64 ((x : Int) - (2 ^ (top + 1) : Nat)) else BitVec.ofNat 64 x

/-- BFI (R114). -/
def bitFieldInsert (a b d : Word) : Word :=
  let lo := fld b 0 6
  let w := min (fld b 8 7) 64
  let field := BitVec.ofNat 64 ((2 ^ w - 1) * 2 ^ lo)
  (d &&& ~~~field) ||| ((a <<< lo) &&& field)

/-- The high word of the product as I64 (R111). -/
def mulHigh (a b : Word) : Word := ((a.signExtend 128) * (b.signExtend 128)).extractLsb' 64 64

/-- The high word of the product as N64 (R111). -/
def mulHighN (a b : Word) : Word := ((a.setWidth 128) * (b.setWidth 128)).extractLsb' 64 64

/-! ### Meanings -/

/-- ADD (R110). -/
def execAdd (p : BitVec 3) (w : Bool) (d : BitVec 6) (a b : Src) (s : State) : Host.Outcome State Fault Refusal :=
  s.alu2 p w d a b 1 fun x y => x + y

/-- SUB (R110). -/
def execSub (p : BitVec 3) (w : Bool) (d : BitVec 6) (a b : Src) (s : State) : Host.Outcome State Fault Refusal :=
  s.alu2 p w d a b 1 fun x y => x - y

/-- AND (R110). -/
def execAnd (p : BitVec 3) (w : Bool) (d : BitVec 6) (a b : Src) (s : State) : Host.Outcome State Fault Refusal :=
  s.alu2 p w d a b 1 fun x y => x &&& y

/-- OR (R110). -/
def execOr (p : BitVec 3) (w : Bool) (d : BitVec 6) (a b : Src) (s : State) : Host.Outcome State Fault Refusal :=
  s.alu2 p w d a b 1 fun x y => x ||| y

/-- XOR (R110). -/
def execXor (p : BitVec 3) (w : Bool) (d : BitVec 6) (a b : Src) (s : State) : Host.Outcome State Fault Refusal :=
  s.alu2 p w d a b 1 fun x y => x ^^^ y

/-- ANDN (R110). -/
def execAndn (p : BitVec 3) (w : Bool) (d : BitVec 6) (a b : Src) (s : State) : Host.Outcome State Fault Refusal :=
  s.alu2 p w d a b 1 fun x y => x &&& ~~~y

/-- SHL (R110). -/
def execShl (p : BitVec 3) (w : Bool) (d : BitVec 6) (a b : Src) (s : State) : Host.Outcome State Fault Refusal :=
  s.alu2 p w d a b 1 fun x y => x <<< shiftCount y

/-- SHR (R110). -/
def execShr (p : BitVec 3) (w : Bool) (d : BitVec 6) (a b : Src) (s : State) : Host.Outcome State Fault Refusal :=
  s.alu2 p w d a b 1 fun x y => x >>> shiftCount y

/-- SRA (R110). -/
def execSra (p : BitVec 3) (w : Bool) (d : BitVec 6) (a b : Src) (s : State) : Host.Outcome State Fault Refusal :=
  s.alu2 p w d a b 1 fun x y => x.sshiftRight (shiftCount y)

/-- ROTR (R110). -/
def execRotr (p : BitVec 3) (w : Bool) (d : BitVec 6) (a b : Src) (s : State) : Host.Outcome State Fault Refusal :=
  s.alu2 p w d a b 1 fun x y => (x >>> shiftCount y) ||| (x <<< (64 - shiftCount y))

/-- MIN (R110). -/
def execMin (p : BitVec 3) (w : Bool) (d : BitVec 6) (a b : Src) (s : State) : Host.Outcome State Fault Refusal :=
  s.alu2 p w d a b 1 fun x y => pick (x.slt y) x y

/-- MINN (R110). -/
def execMinn (p : BitVec 3) (w : Bool) (d : BitVec 6) (a b : Src) (s : State) : Host.Outcome State Fault Refusal :=
  s.alu2 p w d a b 1 fun x y => pick (x.ult y) x y

/-- MAX (R110). -/
def execMax (p : BitVec 3) (w : Bool) (d : BitVec 6) (a b : Src) (s : State) : Host.Outcome State Fault Refusal :=
  s.alu2 p w d a b 1 fun x y => pick (x.slt y) y x

/-- MAXN (R110). -/
def execMaxn (p : BitVec 3) (w : Bool) (d : BitVec 6) (a b : Src) (s : State) : Host.Outcome State Fault Refusal :=
  s.alu2 p w d a b 1 fun x y => pick (x.ult y) y x

/-- SEL: its destination is its third input (R108, R110). -/
def execSel (p : BitVec 3) (w : Bool) (d : BitVec 6) (a b : Src) (s : State) : Host.Outcome State Fault Refusal :=
  s.alu3 p w d a b fun x y z => if z ≠ 0#64 then x else y

/-- MUL (R111). -/
def execMul (p : BitVec 3) (w : Bool) (d : BitVec 6) (a b : Src) (s : State) : Host.Outcome State Fault Refusal :=
  s.alu2 p w d a b 3 fun x y => x * y

/-- MULH (R111). -/
def execMulh (p : BitVec 3) (w : Bool) (d : BitVec 6) (a b : Src) (s : State) : Host.Outcome State Fault Refusal :=
  s.alu2 p w d a b 3 mulHigh

/-- MULHN (R111). -/
def execMulhn (p : BitVec 3) (w : Bool) (d : BitVec 6) (a b : Src) (s : State) : Host.Outcome State Fault Refusal :=
  s.alu2 p w d a b 3 mulHighN

/-- CLZ (R112). -/
def execClz (p : BitVec 3) (w : Bool) (d : BitVec 6) (a : Src) (s : State) : Host.Outcome State Fault Refusal :=
  s.alu1 p w d a leadingZeros

/-- POPC (R112). -/
def execPopc (p : BitVec 3) (w : Bool) (d : BitVec 6) (a : Src) (s : State) : Host.Outcome State Fault Refusal :=
  s.alu1 p w d a fun x => BitVec.ofNat 64 (oneBits x)

/-- BFX (R113). -/
def execBfx (p : BitVec 3) (w : Bool) (d : BitVec 6) (a b : Src) (s : State) : Host.Outcome State Fault Refusal :=
  s.alu2 p w d a b 1 bitFieldExtract

/-- BFI (R114). -/
def execBfi (p : BitVec 3) (w : Bool) (d : BitVec 6) (a b : Src) (s : State) : Host.Outcome State Fault Refusal :=
  s.alu3 p w d a b bitFieldInsert

/-- CMPEQ (R118). -/
def execCmpeq (p : BitVec 3) (w : Bool) (d : BitVec 6) (a b : Src) (s : State) : Host.Outcome State Fault Refusal :=
  s.compare p w d a b fun x y => decide (x = y)

/-- CMPNE (R118). -/
def execCmpne (p : BitVec 3) (w : Bool) (d : BitVec 6) (a b : Src) (s : State) : Host.Outcome State Fault Refusal :=
  s.compare p w d a b fun x y => decide (x ≠ y)

/-- CMPLT (R118). -/
def execCmplt (p : BitVec 3) (w : Bool) (d : BitVec 6) (a b : Src) (s : State) : Host.Outcome State Fault Refusal :=
  s.compare p w d a b fun x y => x.slt y

/-- CMPLTN (R118). -/
def execCmpltn (p : BitVec 3) (w : Bool) (d : BitVec 6) (a b : Src) (s : State) : Host.Outcome State Fault Refusal :=
  s.compare p w d a b fun x y => x.ult y

/-- CMPLE (R118). -/
def execCmple (p : BitVec 3) (w : Bool) (d : BitVec 6) (a b : Src) (s : State) : Host.Outcome State Fault Refusal :=
  s.compare p w d a b fun x y => x.sle y

/-- CMPLEN (R118). -/
def execCmplen (p : BitVec 3) (w : Bool) (d : BitVec 6) (a b : Src) (s : State) : Host.Outcome State Fault Refusal :=
  s.compare p w d a b fun x y => x.ule y

/-- PAND (R119). -/
def execPand (p : BitVec 3) (w : Bool) (d : BitVec 6) (a b : Src) (s : State) : Host.Outcome State Fault Refusal :=
  s.predLogic p w d a b fun x y => x && y

/-- POR (R119). -/
def execPor (p : BitVec 3) (w : Bool) (d : BitVec 6) (a b : Src) (s : State) : Host.Outcome State Fault Refusal :=
  s.predLogic p w d a b fun x y => x || y

/-- PXOR (R119). -/
def execPxor (p : BitVec 3) (w : Bool) (d : BitVec 6) (a b : Src) (s : State) : Host.Outcome State Fault Refusal :=
  s.predLogic p w d a b fun x y => x != y

/-- ADDS2 (R115). -/
def execAdds2 (p : BitVec 3) (w : Bool) (d : BitVec 6) (a b : Src) (s : State) : Host.Outcome State Fault Refusal :=
  s.alu2 p w d a b 1 fun x y => x + (y <<< 2)

/-- ADDS3 (R115). -/
def execAdds3 (p : BitVec 3) (w : Bool) (d : BitVec 6) (a b : Src) (s : State) : Host.Outcome State Fault Refusal :=
  s.alu2 p w d a b 1 fun x y => x + (y <<< 3)

/-- ADDS6 (R115). -/
def execAdds6 (p : BitVec 3) (w : Bool) (d : BitVec 6) (a b : Src) (s : State) : Host.Outcome State Fault Refusal :=
  s.alu2 p w d a b 1 fun x y => x + (y <<< 6)

/-- ADDS10 (R115). -/
def execAdds10 (p : BitVec 3) (w : Bool) (d : BitVec 6) (a b : Src) (s : State) : Host.Outcome State Fault Refusal :=
  s.alu2 p w d a b 1 fun x y => x + (y <<< 10)

/-- MOV (R110). -/
def execMov (p : BitVec 3) (w : Bool) (d : BitVec 6) (a : Src) (s : State) : Host.Outcome State Fault Refusal :=
  s.alu1 p w d a fun x => x

/-- ADDI (R116). -/
def execAddi (p : BitVec 3) (w : Bool) (d : BitVec 6) (i : BitVec 14) (s : State) : Host.Outcome State Fault Refusal :=
  s.aluI p w d fun x => x + i.signExtend 64

/-- ANDI (R116). -/
def execAndi (p : BitVec 3) (w : Bool) (d : BitVec 6) (i : BitVec 14) (s : State) : Host.Outcome State Fault Refusal :=
  s.aluI p w d fun x => x &&& i.signExtend 64

/-- ORI (R116). -/
def execOri (p : BitVec 3) (w : Bool) (d : BitVec 6) (i : BitVec 14) (s : State) : Host.Outcome State Fault Refusal :=
  s.aluI p w d fun x => x ||| i.signExtend 64

/-- XORI (R116). -/
def execXori (p : BitVec 3) (w : Bool) (d : BitVec 6) (i : BitVec 14) (s : State) : Host.Outcome State Fault Refusal :=
  s.aluI p w d fun x => x ^^^ i.signExtend 64

/-- SHLI (R116). -/
def execShli (p : BitVec 3) (w : Bool) (d : BitVec 6) (i : BitVec 6) (s : State) : Host.Outcome State Fault Refusal :=
  s.aluI p w d fun x => x <<< i.toNat

/-- SHRI (R116). -/
def execShri (p : BitVec 3) (w : Bool) (d : BitVec 6) (i : BitVec 6) (s : State) : Host.Outcome State Fault Refusal :=
  s.aluI p w d fun x => x >>> i.toNat

/-- SRAI (R116). -/
def execSrai (p : BitVec 3) (w : Bool) (d : BitVec 6) (i : BitVec 6) (s : State) : Host.Outcome State Fault Refusal :=
  s.aluI p w d fun x => x.sshiftRight i.toNat

/-- CMPEQI (R116, R117). -/
def execCmpeqi (p : BitVec 3) (w : Bool) (a : BitVec 6) (d : BitVec 3) (i : BitVec 11) (s : State) : Host.Outcome State Fault Refusal :=
  s.issue p [] fun s => .ok (s.resultP w (d.setWidth 6) 1 (decide (s.core.arch.sreg a = i.signExtend 64)))

/-- CMPLTI (R116, R117). -/
def execCmplti (p : BitVec 3) (w : Bool) (a : BitVec 6) (d : BitVec 3) (i : BitVec 11) (s : State) : Host.Outcome State Fault Refusal :=
  s.issue p [] fun s => .ok (s.resultP w (d.setWidth 6) 1 ((s.core.arch.sreg a).slt (i.signExtend 64)))

/-- MOVI reads no input (R116). -/
def execMovi (p : BitVec 3) (w : Bool) (d : BitVec 6) (i : BitVec 14) (s : State) : Host.Outcome State Fault Refusal :=
  s.aluI p w d fun _ => i.signExtend 64

/-- NOP (R36): it leaves its slot with no result. -/
def execNop (s : State) : Host.Outcome State Fault Refusal := .next s

end Sys2Proof.Machine
end

