-- ==== Sys2Proof/Machine/Float.lean ====
section
/-! DEFINITION. The scalar floating forms (R105, R109, R120 to R125). -/

namespace Sys2Proof.Machine

/-- The format of a suffix. -/
def FFmt.fmt : FFmt → Fmt
  | .f32 => fp32
  | .f64 => fp64

/-- The type in which a scalar floating field is read (R41). -/
def FFmt.sty : FFmt → STy
  | .f32 => .f32
  | .f64 => .f64

/-- A scalar floating operand: its low bits in the format of the field (R105). -/
def State.getF (s : State) (f : FFmt) (a : Src) : Except Stop Nat :=
  (s.getS a (FFmt.sty f)).map fun x => x.toNat % 2 ^ (FFmt.fmt f).width

/-- The rounding mode and FTZ in force (R85). -/
def State.rm (s : State) : Round := arithRM s.core.arch.arith
/-- FTZ in force. -/
def State.ftz (s : State) : Bool := arithFTZ s.core.arch.arith

/-- A floating form with two sources and a scalar result of latency 4. -/
def State.fpu2 (s : State) (f : FFmt) (p : BitVec 3) (w : Bool) (d : BitVec 6) (a b : Src)
    (op : Fmt → Round → Bool → Nat → Nat → Nat × FlagSet) : Host.Outcome State Fault Refusal :=
  s.issue p [a, b] fun s => do
    let x ← s.getF f a
    let y ← s.getF f b
    let r := op (FFmt.fmt f) s.rm s.ftz x y
    s.resultS w d 4 (BitVec.ofNat 64 r.1) r.2

/-- A floating compare: false when an operand is a NaN, and no flag (R84, R121). -/
def State.fpuCompare (s : State) (f : FFmt) (p : BitVec 3) (w : Bool) (d : BitVec 6) (a b : Src) (op : Num → Num → Bool) : Host.Outcome State Fault Refusal :=
  s.issue p [a, b] fun s => do
    let x ← s.getF f a
    let y ← s.getF f b
    pure (s.resultP w d 4 (op ((FFmt.fmt f).decode s.ftz x) ((FFmt.fmt f).decode s.ftz y)))

/-- The width and signedness of an integer type of a conversion (R122). -/
def IType.width : IType → Nat
  | .i64 | .n64 => 64
  | .i32 | .n32 => 32

/-- Whether an integer type of a conversion is signed. -/
def IType.signed : IType → Bool
  | .i64 | .i32 => true
  | .n64 | .n32 => false

/-- FADD (R120). -/
def execFadd (f : FFmt) (p : BitVec 3) (w : Bool) (d : BitVec 6) (a b : Src) (s : State) : Host.Outcome State Fault Refusal :=
  s.fpu2 f p w d a b Fmt.add

/-- FSUB: the sum with the negated operand (R120). -/
def execFsub (f : FFmt) (p : BitVec 3) (w : Bool) (d : BitVec 6) (a b : Src) (s : State) : Host.Outcome State Fault Refusal :=
  s.fpu2 f p w d a b Fmt.sub

/-- FMUL (R120). -/
def execFmul (f : FFmt) (p : BitVec 3) (w : Bool) (d : BitVec 6) (a b : Src) (s : State) : Host.Outcome State Fault Refusal :=
  s.fpu2 f p w d a b Fmt.mul

/-- FFMA: one rounding of a × b + d, its destination the third input (R108, R120). -/
def execFfma (f : FFmt) (p : BitVec 3) (w : Bool) (d : BitVec 6) (a b : Src) (s : State) : Host.Outcome State Fault Refusal :=
  s.issue p [a, b] fun s => do
    let x ← s.getF f a
    let y ← s.getF f b
    let z := (s.core.arch.sreg d).toNat % 2 ^ (FFmt.fmt f).width
    let r := (FFmt.fmt f).fma s.rm s.ftz false x y z
    s.resultS w d 4 (BitVec.ofNat 64 r.1) r.2

/-- FMIN (R84, R121): no flag. -/
def execFmin (f : FFmt) (p : BitVec 3) (w : Bool) (d : BitVec 6) (a b : Src) (s : State) : Host.Outcome State Fault Refusal :=
  s.fpu2 f p w d a b fun g _ z x y => (g.minMax z false x y, noFlags)

/-- FMAX (R84, R121): no flag. -/
def execFmax (f : FFmt) (p : BitVec 3) (w : Bool) (d : BitVec 6) (a b : Src) (s : State) : Host.Outcome State Fault Refusal :=
  s.fpu2 f p w d a b fun g _ z x y => (g.minMax z true x y, noFlags)

/-- FCMPEQ (R121). -/
def execFcmpeq (f : FFmt) (p : BitVec 3) (w : Bool) (d : BitVec 6) (a b : Src) (s : State) : Host.Outcome State Fault Refusal :=
  s.fpuCompare f p w d a b Num.eq

/-- FCMPLT (R121). -/
def execFcmplt (f : FFmt) (p : BitVec 3) (w : Bool) (d : BitVec 6) (a b : Src) (s : State) : Host.Outcome State Fault Refusal :=
  s.fpuCompare f p w d a b Num.lt

/-- FCMPLE (R121). -/
def execFcmple (f : FFmt) (p : BitVec 3) (w : Bool) (d : BitVec 6) (a b : Src) (s : State) : Host.Outcome State Fault Refusal :=
  s.fpuCompare f p w d a b (fun x y => x.lt y || x.eq y)

/-- FCVTS converts from the other scalar format (R125). -/
def execFcvts (f : FFmt) (p : BitVec 3) (w : Bool) (d : BitVec 6) (a : Src) (r : Round) (s : State) : Host.Outcome State Fault Refusal :=
  s.issue p [a] fun s => do
    let g : FFmt := match f with | .f32 => .f64 | .f64 => .f32
    let x ← s.getF g a
    let y := (FFmt.fmt f).ofNum r s.ftz ((FFmt.fmt g).decode s.ftz x)
    s.resultS w d 4 (BitVec.ofNat 64 y.1) y.2

/-- FCVTI: to an integer, sign-extended for I32 and zero-extended for N32 (R123). -/
def execFcvti (f : FFmt) (p : BitVec 3) (w : Bool) (d : BitVec 6) (a : Src) (t : IType) (r : Round) (s : State) : Host.Outcome State Fault Refusal :=
  s.issue p [a] fun s => do
    let x ← s.getF f a
    let y := ((FFmt.fmt f).decode s.ftz x).toIntTy r (IType.width t) (IType.signed t)
    s.resultS w d 4 (BitVec.ofInt 64 (intOf (IType.width t) (IType.signed t) y.1)) y.2

/-- FCVTF: from an integer of the selector's type (R124). -/
def execFcvtf (f : FFmt) (p : BitVec 3) (w : Bool) (d : BitVec 6) (a : Src) (t : IType) (r : Round) (s : State) : Host.Outcome State Fault Refusal :=
  s.issue p [a] fun s => do
    let x ← s.getS a
    let y := (FFmt.fmt f).ofInt r s.ftz (intOf (IType.width t) (IType.signed t) x.toNat)
    s.resultS w d 4 (BitVec.ofNat 64 y.1) y.2

end Sys2Proof.Machine
end

