-- ==== Sys2Proof/Machine/Shape.lean ====
section
/-! DEFINITION. The shape of each instruction: its slot class, its operand fields with their classes, where its results
land and when, and the conditions on its sub-encoding. It follows the opcode maps (R58 to R64), the latencies (R50) and
the operand tables of the chapters; bundle legality (R53 to R56) and well-formedness read it. -/

namespace Sys2Proof

/-- Where a form executes: in both kinds of sequencer, in cores only, or in the ranger core only (R57). -/
inductive Where where
  | both | core | ranger
deriving DecidableEq, Repr

/-- What the bundle rules need to know of one instruction. -/
structure Shape where
  cls      : Option SlotClass := none
  pred     : BitVec 3 := 0#3
  srcs     : List (Cls × Src) := []
  regs     : List (Cls × BitVec 6) := []
  dsts     : List (Cls × BitVec 6) := []
  lat      : Nat := 0
  nowb     : Option Bool := none
  third    : Bool := false
  dfield   : BitVec 6 := 0#6
  irrev    : Bool := false
  whr      : Where := .both
  xcopy    : Bool := false
  reduce   : Bool := false
  engStart : Bool := false
  occ      : Nat := 0
  ok       : Bool := true
deriving DecidableEq, Repr

/-- The floating vector types (R59). -/
def VType.isFloat : VType → Bool
  | .f32 | .bf16 | .f16 => true
  | .i32 | .n32 | .i16 | .n16 | .i8 => false

/-- The selectors VCVTX admits: rounding, stochastic mode and NOSAT by direction (R60, R155). -/
def XType.selOk (x : XType) (r : Round) (n : Bool) : Bool :=
  match x with
  | .toE4m3 | .toE5m2 => true
  | .toN8 => decide (r ≠ .stoch) && !n
  | .fromE4m3 | .fromE5m2 | .fromN8 => decide (r = .near) && !n

/-- Whether a source pops a queue. -/
def Src.isPop : Src → Bool
  | .pop _ => true
  | .reg _ | .latch _ | .peek _ | .special _ | .imm _ => false

/-- The engine registers ENGWR may name: g0 to g15, SIXSRC and SIXCFG; CHnCTL has rows of its own (R162, R163, R250). -/
def engWritable (e : BitVec 8) : Bool :=
  decide (e.toNat ≤ 0x3F) || decide (e = 0x60#8) || decide (e = 0x61#8)

/-- The engine registers ENGRD may name (R162, R164). -/
def engReadable (e : BitVec 8) : Bool :=
  decide (e.toNat ≤ 0x62) || (decide (0x70 ≤ e.toNat) && decide (e.toNat ≤ 0x7F))

/-- Where a system register is assigned (R392). -/
def sysWhere (n : BitVec 7) : Where :=
  match n.toNat with
  | 0x04 | 0x07 | 0x08 | 0x09 | 0x0A | 0x0B | 0x0C => .core
  | 0x10 | 0x11 | 0x12 => .ranger
  | _ => .both

/-- The system registers whose SYSWR is a row of its own: CKBOUND, QBOUND, ARITH, SRSEED and MODE. -/
def sysOwnRow (n : BitVec 7) : Bool :=
  match n.toNat with
  | 0x02 | 0x03 | 0x06 | 0x07 | 0x0E => true
  | _ => false

/-- The shape of every instruction; a device action has no slot. -/
def Instr.shape : Instr → Shape
  | .nop => { cls := some .K }
  | .add p w d a b => { cls := some .S, pred := p, srcs := [(.s, a), (.s, b)], dsts := [(.s, d)], lat := 1, nowb := some w, dfield := d }
  | .sub p w d a b => { cls := some .S, pred := p, srcs := [(.s, a), (.s, b)], dsts := [(.s, d)], lat := 1, nowb := some w, dfield := d }
  | .and p w d a b => { cls := some .S, pred := p, srcs := [(.s, a), (.s, b)], dsts := [(.s, d)], lat := 1, nowb := some w, dfield := d }
  | .or p w d a b => { cls := some .S, pred := p, srcs := [(.s, a), (.s, b)], dsts := [(.s, d)], lat := 1, nowb := some w, dfield := d }
  | .xor p w d a b => { cls := some .S, pred := p, srcs := [(.s, a), (.s, b)], dsts := [(.s, d)], lat := 1, nowb := some w, dfield := d }
  | .andn p w d a b => { cls := some .S, pred := p, srcs := [(.s, a), (.s, b)], dsts := [(.s, d)], lat := 1, nowb := some w, dfield := d }
  | .shl p w d a b => { cls := some .S, pred := p, srcs := [(.s, a), (.s, b)], dsts := [(.s, d)], lat := 1, nowb := some w, dfield := d }
  | .shr p w d a b => { cls := some .S, pred := p, srcs := [(.s, a), (.s, b)], dsts := [(.s, d)], lat := 1, nowb := some w, dfield := d }
  | .sra p w d a b => { cls := some .S, pred := p, srcs := [(.s, a), (.s, b)], dsts := [(.s, d)], lat := 1, nowb := some w, dfield := d }
  | .rotr p w d a b => { cls := some .S, pred := p, srcs := [(.s, a), (.s, b)], dsts := [(.s, d)], lat := 1, nowb := some w, dfield := d }
  | .min p w d a b => { cls := some .S, pred := p, srcs := [(.s, a), (.s, b)], dsts := [(.s, d)], lat := 1, nowb := some w, dfield := d }
  | .minn p w d a b => { cls := some .S, pred := p, srcs := [(.s, a), (.s, b)], dsts := [(.s, d)], lat := 1, nowb := some w, dfield := d }
  | .max p w d a b => { cls := some .S, pred := p, srcs := [(.s, a), (.s, b)], dsts := [(.s, d)], lat := 1, nowb := some w, dfield := d }
  | .maxn p w d a b => { cls := some .S, pred := p, srcs := [(.s, a), (.s, b)], dsts := [(.s, d)], lat := 1, nowb := some w, dfield := d }
  | .sel p w d a b => { cls := some .S, pred := p, srcs := [(.s, a), (.s, b)], regs := [(.s, d)], dsts := [(.s, d)], lat := 1, nowb := some w, dfield := d, third := true }
  | .mul p w d a b => { cls := some .S, pred := p, srcs := [(.s, a), (.s, b)], dsts := [(.s, d)], lat := 3, nowb := some w, dfield := d }
  | .mulh p w d a b => { cls := some .S, pred := p, srcs := [(.s, a), (.s, b)], dsts := [(.s, d)], lat := 3, nowb := some w, dfield := d }
  | .mulhn p w d a b => { cls := some .S, pred := p, srcs := [(.s, a), (.s, b)], dsts := [(.s, d)], lat := 3, nowb := some w, dfield := d }
  | .clz p w d a => { cls := some .S, pred := p, srcs := [(.s, a)], dsts := [(.s, d)], lat := 1, nowb := some w, dfield := d }
  | .popc p w d a => { cls := some .S, pred := p, srcs := [(.s, a)], dsts := [(.s, d)], lat := 1, nowb := some w, dfield := d }
  | .bfx p w d a b => { cls := some .S, pred := p, srcs := [(.s, a), (.s, b)], dsts := [(.s, d)], lat := 1, nowb := some w, dfield := d }
  | .bfi p w d a b => { cls := some .S, pred := p, srcs := [(.s, a), (.s, b)], regs := [(.s, d)], dsts := [(.s, d)], lat := 1, nowb := some w, dfield := d, third := true }
  | .cmpeq p w d a b => { cls := some .S, pred := p, srcs := [(.s, a), (.s, b)], dsts := [(.p, d)], lat := 1, nowb := some w, dfield := d }
  | .cmpne p w d a b => { cls := some .S, pred := p, srcs := [(.s, a), (.s, b)], dsts := [(.p, d)], lat := 1, nowb := some w, dfield := d }
  | .cmplt p w d a b => { cls := some .S, pred := p, srcs := [(.s, a), (.s, b)], dsts := [(.p, d)], lat := 1, nowb := some w, dfield := d }
  | .cmpltn p w d a b => { cls := some .S, pred := p, srcs := [(.s, a), (.s, b)], dsts := [(.p, d)], lat := 1, nowb := some w, dfield := d }
  | .cmple p w d a b => { cls := some .S, pred := p, srcs := [(.s, a), (.s, b)], dsts := [(.p, d)], lat := 1, nowb := some w, dfield := d }
  | .cmplen p w d a b => { cls := some .S, pred := p, srcs := [(.s, a), (.s, b)], dsts := [(.p, d)], lat := 1, nowb := some w, dfield := d }
  | .pand p w d a b => { cls := some .S, pred := p, srcs := [(.p, a), (.p, b)], dsts := [(.p, d)], lat := 1, nowb := some w, dfield := d }
  | .por p w d a b => { cls := some .S, pred := p, srcs := [(.p, a), (.p, b)], dsts := [(.p, d)], lat := 1, nowb := some w, dfield := d }
  | .pxor p w d a b => { cls := some .S, pred := p, srcs := [(.p, a), (.p, b)], dsts := [(.p, d)], lat := 1, nowb := some w, dfield := d }
  | .adds2 p w d a b => { cls := some .S, pred := p, srcs := [(.s, a), (.s, b)], dsts := [(.s, d)], lat := 1, nowb := some w, dfield := d }
  | .adds3 p w d a b => { cls := some .S, pred := p, srcs := [(.s, a), (.s, b)], dsts := [(.s, d)], lat := 1, nowb := some w, dfield := d }
  | .adds6 p w d a b => { cls := some .S, pred := p, srcs := [(.s, a), (.s, b)], dsts := [(.s, d)], lat := 1, nowb := some w, dfield := d }
  | .adds10 p w d a b => { cls := some .S, pred := p, srcs := [(.s, a), (.s, b)], dsts := [(.s, d)], lat := 1, nowb := some w, dfield := d }
  | .mov p w d a => { cls := some .S, pred := p, srcs := [(.s, a)], dsts := [(.s, d)], lat := 1, nowb := some w, dfield := d }
  | .addi p w d _ => { cls := some .S, pred := p, regs := [(.s, d)], dsts := [(.s, d)], lat := 1, nowb := some w, dfield := d }
  | .andi p w d _ => { cls := some .S, pred := p, regs := [(.s, d)], dsts := [(.s, d)], lat := 1, nowb := some w, dfield := d }
  | .ori p w d _ => { cls := some .S, pred := p, regs := [(.s, d)], dsts := [(.s, d)], lat := 1, nowb := some w, dfield := d }
  | .xori p w d _ => { cls := some .S, pred := p, regs := [(.s, d)], dsts := [(.s, d)], lat := 1, nowb := some w, dfield := d }
  | .shli p w d _ => { cls := some .S, pred := p, regs := [(.s, d)], dsts := [(.s, d)], lat := 1, nowb := some w, dfield := d }
  | .shri p w d _ => { cls := some .S, pred := p, regs := [(.s, d)], dsts := [(.s, d)], lat := 1, nowb := some w, dfield := d }
  | .srai p w d _ => { cls := some .S, pred := p, regs := [(.s, d)], dsts := [(.s, d)], lat := 1, nowb := some w, dfield := d }
  | .cmpeqi p w a d _ => { cls := some .S, pred := p, regs := [(.s, a)], dsts := [(.p, 0#3 ++ d)], lat := 1, nowb := some w, dfield := 0#3 ++ d }
  | .cmplti p w a d _ => { cls := some .S, pred := p, regs := [(.s, a)], dsts := [(.p, 0#3 ++ d)], lat := 1, nowb := some w, dfield := 0#3 ++ d }
  | .movi p w d _ => { cls := some .S, pred := p, dsts := [(.s, d)], lat := 1, nowb := some w, dfield := d }
  | .fadd _ p w d a b => { cls := some .S, pred := p, srcs := [(.s, a), (.s, b)], dsts := [(.s, d)], lat := 4, nowb := some w, dfield := d }
  | .fsub _ p w d a b => { cls := some .S, pred := p, srcs := [(.s, a), (.s, b)], dsts := [(.s, d)], lat := 4, nowb := some w, dfield := d }
  | .fmul _ p w d a b => { cls := some .S, pred := p, srcs := [(.s, a), (.s, b)], dsts := [(.s, d)], lat := 4, nowb := some w, dfield := d }
  | .ffma _ p w d a b => { cls := some .S, pred := p, srcs := [(.s, a), (.s, b)], regs := [(.s, d)], dsts := [(.s, d)], lat := 4, nowb := some w, dfield := d, third := true }
  | .fmin _ p w d a b => { cls := some .S, pred := p, srcs := [(.s, a), (.s, b)], dsts := [(.s, d)], lat := 4, nowb := some w, dfield := d }
  | .fmax _ p w d a b => { cls := some .S, pred := p, srcs := [(.s, a), (.s, b)], dsts := [(.s, d)], lat := 4, nowb := some w, dfield := d }
  | .fcmpeq _ p w d a b => { cls := some .S, pred := p, srcs := [(.s, a), (.s, b)], dsts := [(.p, d)], lat := 4, nowb := some w, dfield := d }
  | .fcmplt _ p w d a b => { cls := some .S, pred := p, srcs := [(.s, a), (.s, b)], dsts := [(.p, d)], lat := 4, nowb := some w, dfield := d }
  | .fcmple _ p w d a b => { cls := some .S, pred := p, srcs := [(.s, a), (.s, b)], dsts := [(.p, d)], lat := 4, nowb := some w, dfield := d }
  | .fcvts _ p w d a r => { cls := some .S, pred := p, srcs := [(.s, a)], dsts := [(.s, d)], lat := 4, nowb := some w, dfield := d, ok := decide (r ≠ .stoch) }
  | .fcvti _ p w d a _ r => { cls := some .S, pred := p, srcs := [(.s, a)], dsts := [(.s, d)], lat := 4, nowb := some w, dfield := d, ok := decide (r ≠ .stoch) }
  | .fcvtf _ p w d a _ r => { cls := some .S, pred := p, srcs := [(.s, a)], dsts := [(.s, d)], lat := 4, nowb := some w, dfield := d, ok := decide (r ≠ .stoch) }
  | .vadd t p w d a b => { cls := some .V, pred := p, whr := .core, srcs := [(.v, a), (.v, b)], dsts := [(.v, d)], lat := if t.isFloat then 4 else 2, nowb := some w, dfield := d }
  | .vsub t p w d a b => { cls := some .V, pred := p, whr := .core, srcs := [(.v, a), (.v, b)], dsts := [(.v, d)], lat := if t.isFloat then 4 else 2, nowb := some w, dfield := d }
  | .vmul t p w d a b => { cls := some .V, pred := p, whr := .core, srcs := [(.v, a), (.v, b)], dsts := [(.v, d)], lat := if t.isFloat then 4 else 2, nowb := some w, dfield := d }
  | .vfma t p w d a b => { cls := some .V, pred := p, whr := .core, srcs := [(.v, a), (.v, b)], regs := [(.v, d)], dsts := [(.v, d)], lat := if t.isFloat then 4 else 2, nowb := some w, dfield := d, third := true }
  | .vfms t p w d a b => { cls := some .V, pred := p, whr := .core, srcs := [(.v, a), (.v, b)], regs := [(.v, d)], dsts := [(.v, d)], lat := 4, nowb := some w, dfield := d, third := true, ok := (t.isFloat) }
  | .vmin _ p w d a b => { cls := some .V, pred := p, whr := .core, srcs := [(.v, a), (.v, b)], dsts := [(.v, d)], lat := 2, nowb := some w, dfield := d }
  | .vmax _ p w d a b => { cls := some .V, pred := p, whr := .core, srcs := [(.v, a), (.v, b)], dsts := [(.v, d)], lat := 2, nowb := some w, dfield := d }
  | .vadds t p w d a b => { cls := some .V, pred := p, whr := .core, srcs := [(.v, a), (.v, b)], dsts := [(.v, d)], lat := 2, nowb := some w, dfield := d, ok := (!t.isFloat) }
  | .vsubs t p w d a b => { cls := some .V, pred := p, whr := .core, srcs := [(.v, a), (.v, b)], dsts := [(.v, d)], lat := 2, nowb := some w, dfield := d, ok := (!t.isFloat) }
  | .vcmpeq _ p w d a b => { cls := some .V, pred := p, whr := .core, srcs := [(.v, a), (.v, b)], dsts := [(.m, d)], lat := 2, nowb := some w, dfield := d }
  | .vcmplt _ p w d a b => { cls := some .V, pred := p, whr := .core, srcs := [(.v, a), (.v, b)], dsts := [(.m, d)], lat := 2, nowb := some w, dfield := d }
  | .vcmple _ p w d a b => { cls := some .V, pred := p, whr := .core, srcs := [(.v, a), (.v, b)], dsts := [(.m, d)], lat := 2, nowb := some w, dfield := d }
  | .vabs t p w d a => { cls := some .V, pred := p, whr := .core, srcs := [(.v, a)], dsts := [(.v, d)], lat := 2, nowb := some w, dfield := d, ok := decide (t ≠ .n32) && decide (t ≠ .n16) }
  | .vneg t p w d a => { cls := some .V, pred := p, whr := .core, srcs := [(.v, a)], dsts := [(.v, d)], lat := 2, nowb := some w, dfield := d, ok := decide (t ≠ .n32) && decide (t ≠ .n16) }
  | .vand p w d a b => { cls := some .V, pred := p, whr := .core, srcs := [(.v, a), (.v, b)], dsts := [(.v, d)], lat := 2, nowb := some w, dfield := d }
  | .vor p w d a b => { cls := some .V, pred := p, whr := .core, srcs := [(.v, a), (.v, b)], dsts := [(.v, d)], lat := 2, nowb := some w, dfield := d }
  | .vxor p w d a b => { cls := some .V, pred := p, whr := .core, srcs := [(.v, a), (.v, b)], dsts := [(.v, d)], lat := 2, nowb := some w, dfield := d }
  | .vandn p w d a b => { cls := some .V, pred := p, whr := .core, srcs := [(.v, a), (.v, b)], dsts := [(.v, d)], lat := 2, nowb := some w, dfield := d }
  | .vshl t p w d a b => { cls := some .V, pred := p, whr := .core, srcs := [(.v, a), (.v, b)], dsts := [(.v, d)], lat := 2, nowb := some w, dfield := d, ok := (!t.isFloat) }
  | .vshr t p w d a b => { cls := some .V, pred := p, whr := .core, srcs := [(.v, a), (.v, b)], dsts := [(.v, d)], lat := 2, nowb := some w, dfield := d, ok := (!t.isFloat) }
  | .vsel p w d a b => { cls := some .V, pred := p, whr := .core, srcs := [(.v, a), (.v, b)], dsts := [(.v, d)], lat := 2, nowb := some w, dfield := d }
  | .vmov p w d a => { cls := some .V, pred := p, whr := .core, srcs := [(.v, a)], dsts := [(.v, d)], lat := 2, nowb := some w, dfield := d }
  | .vsplat p w d a => { cls := some .V, pred := p, whr := .core, srcs := [(.s, a)], dsts := [(.v, d)], lat := 2, nowb := some w, dfield := d }
  | .vins p w d a b => { cls := some .V, pred := p, whr := .core, srcs := [(.s, a), (.s, b)], regs := [(.v, d)], dsts := [(.v, d)], lat := 2, nowb := some w, dfield := d, third := true }
  | .vxtr w d a b => { cls := some .V, pred := 0#3, whr := .core, srcs := [(.v, a), (.s, b)], dsts := [(.s, d)], lat := 4, nowb := some w, dfield := d }
  | .vcvt t p w d a s r => { cls := some .V, pred := p, whr := .core, srcs := [(.v, a)], dsts := [(.v, d)], lat := 3, nowb := some w, dfield := d, ok := decide (s ≠ t) && decide (r ≠ .stoch || t = .bf16 || t = .f16) }
  | .vcvtx x p w d a s r n => { cls := some .V, pred := p, whr := .core, srcs := [(.v, a)], dsts := [(.v, d)], lat := 3, nowb := some w, dfield := d, ok := (s.isFloat) && (x.selOk r n) }
  | .vfxadd p w d a b => { cls := some .V, pred := p, whr := .core, srcs := [(.v, a), (.v, b)], dsts := [(.v, d)], lat := 2, nowb := some w, dfield := d }
  | .vfxcvt p w d a b => { cls := some .V, pred := p, whr := .core, srcs := [(.v, a), (.v, b)], dsts := [(.v, d)], lat := 3, nowb := some w, dfield := d }
  | .vfxcvtf p w d a b => { cls := some .V, pred := p, whr := .core, srcs := [(.v, a), (.v, b)], dsts := [(.v, d)], lat := 3, nowb := some w, dfield := d }
  | .vperm p w d a b => { cls := some .V, pred := p, whr := .core, srcs := [(.v, a), (.v, b)], dsts := [(.v, d)], lat := 2, nowb := some w, dfield := d }
  | .vrot p w d a b => { cls := some .V, pred := p, whr := .core, srcs := [(.v, a), (.v, b)], dsts := [(.v, d)], lat := 2, nowb := some w, dfield := d }
  | .vbcl p w d a b => { cls := some .V, pred := p, whr := .core, srcs := [(.v, a), (.v, b)], dsts := [(.v, d)], lat := 2, nowb := some w, dfield := d }
  | .vredadd t p w d a => { cls := some .V, pred := p, reduce := true, whr := .core, srcs := [(.v, a)], dsts := [(.v, d)], lat := 6, nowb := some w, dfield := d, ok := decide (t.isFloat || t = .i32 || t = .n32) }
  | .vredmin t p w d a => { cls := some .V, pred := p, reduce := true, whr := .core, srcs := [(.v, a)], dsts := [(.v, d)], lat := 6, nowb := some w, dfield := d, ok := decide (t.isFloat || t = .i32 || t = .n32) }
  | .vredmax t p w d a => { cls := some .V, pred := p, reduce := true, whr := .core, srcs := [(.v, a)], dsts := [(.v, d)], lat := 6, nowb := some w, dfield := d, ok := decide (t.isFloat || t = .i32 || t = .n32) }
  | .vscan t p w d a => { cls := some .V, pred := p, reduce := true, whr := .core, srcs := [(.v, a)], dsts := [(.v, d)], lat := 6, nowb := some w, dfield := d, ok := decide (t.isFloat || t = .i32 || t = .n32) }
  | .vxcopy p w d a b => { cls := some .V, pred := p, xcopy := true, whr := .core, srcs := [(.v, a), (.v, b)], dsts := [(.v, d)], lat := 4, nowb := some w, dfield := d }
  | .vxrot p w d a b => { cls := some .V, pred := p, xcopy := true, whr := .core, srcs := [(.v, a), (.v, b)], dsts := [(.v, d)], lat := 4, nowb := some w, dfield := d }
  | .vmand p w d a b => { cls := some .V, pred := p, whr := .core, srcs := [(.m, a), (.m, b)], dsts := [(.m, d)], lat := 1, nowb := some w, dfield := d }
  | .vmor p w d a b => { cls := some .V, pred := p, whr := .core, srcs := [(.m, a), (.m, b)], dsts := [(.m, d)], lat := 1, nowb := some w, dfield := d }
  | .vmxor p w d a b => { cls := some .V, pred := p, whr := .core, srcs := [(.m, a), (.m, b)], dsts := [(.m, d)], lat := 1, nowb := some w, dfield := d }
  | .vmandn p w d a b => { cls := some .V, pred := p, whr := .core, srcs := [(.m, a), (.m, b)], dsts := [(.m, d)], lat := 1, nowb := some w, dfield := d }
  | .vmnot p w d a => { cls := some .V, pred := p, whr := .core, srcs := [(.m, a)], dsts := [(.m, d)], lat := 1, nowb := some w, dfield := d }
  | .vmpop w d a => { cls := some .V, pred := 0#3, whr := .core, srcs := [(.m, a)], dsts := [(.s, d)], lat := 2, nowb := some w, dfield := d }
  | .exp2 _ p w d a => { cls := some .F, pred := p, occ := 4, whr := .core, srcs := [(.v, a)], dsts := [(.v, d)], lat := 8, nowb := some w, dfield := d }
  | .log2 _ p w d a => { cls := some .F, pred := p, occ := 4, whr := .core, srcs := [(.v, a)], dsts := [(.v, d)], lat := 8, nowb := some w, dfield := d }
  | .exp _ p w d a => { cls := some .F, pred := p, occ := 4, whr := .core, srcs := [(.v, a)], dsts := [(.v, d)], lat := 8, nowb := some w, dfield := d }
  | .log _ p w d a => { cls := some .F, pred := p, occ := 4, whr := .core, srcs := [(.v, a)], dsts := [(.v, d)], lat := 8, nowb := some w, dfield := d }
  | .rcp _ p w d a => { cls := some .F, pred := p, occ := 4, whr := .core, srcs := [(.v, a)], dsts := [(.v, d)], lat := 8, nowb := some w, dfield := d }
  | .rsqrt _ p w d a => { cls := some .F, pred := p, occ := 4, whr := .core, srcs := [(.v, a)], dsts := [(.v, d)], lat := 8, nowb := some w, dfield := d }
  | .sqrt t p w d a => { cls := some .F, pred := p, occ := if t = .f32 then 8 else 4, whr := .core, srcs := [(.v, a)], dsts := [(.v, d)], lat := if t = .f32 then 12 else 8, nowb := some w, dfield := d }
  | .tanh _ p w d a => { cls := some .F, pred := p, occ := 4, whr := .core, srcs := [(.v, a)], dsts := [(.v, d)], lat := 8, nowb := some w, dfield := d }
  | .sigmoid _ p w d a => { cls := some .F, pred := p, occ := 4, whr := .core, srcs := [(.v, a)], dsts := [(.v, d)], lat := 8, nowb := some w, dfield := d }
  | .erf _ p w d a => { cls := some .F, pred := p, occ := 4, whr := .core, srcs := [(.v, a)], dsts := [(.v, d)], lat := 8, nowb := some w, dfield := d }
  | .sin _ p w d a => { cls := some .F, pred := p, occ := 4, whr := .core, srcs := [(.v, a)], dsts := [(.v, d)], lat := 8, nowb := some w, dfield := d }
  | .cos _ p w d a => { cls := some .F, pred := p, occ := 4, whr := .core, srcs := [(.v, a)], dsts := [(.v, d)], lat := 8, nowb := some w, dfield := d }
  | .div p w d a b => { cls := some .F, pred := p, occ := 8, whr := .core, srcs := [(.v, a), (.v, b)], dsts := [(.v, d)], lat := 12, nowb := some w, dfield := d }
  | .mxpush p _ d a => { cls := some .X, pred := p, whr := .core, srcs := [(.g, a)], ok := decide (d.toNat < 2) }
  | .mxshift p d a => { cls := some .X, pred := p, whr := .core, srcs := [(.g, a)], ok := decide (d.toNat < 2) }
  | .mxacc p _ d a b => { cls := some .X, pred := p, whr := .core, srcs := [(.g, a), (.s, b)], ok := decide (d.toNat < 8) }
  | .mxaccx p _ d a b => { cls := some .X, pred := p, whr := .core, srcs := [(.g, a), (.s, b)], ok := decide (d.toNat < 8) && decide (d.toNat % 2 = 0) }
  | .mxdrain p d a b => { cls := some .X, pred := p, whr := .core, srcs := [(.a, a), (.s, b)], dsts := [(.q, 0#1 ++ d)], lat := 6 }
  | .mxzero p d => { cls := some .X, pred := p, whr := .core, ok := decide (d.toNat < 8) }
  | .mxswap p => { cls := some .X, pred := p, whr := .core }
  | .ldq _ p d a b => { cls := some .M, pred := p, srcs := [(.s, a), (.s, b)], dsts := [(.q, d)] }
  | .ldqv p d a b => { cls := some .M, pred := p, whr := .core, srcs := [(.s, a), (.s, b)], dsts := [(.q, d)] }
  | .gather _ p d a b => { cls := some .M, pred := p, whr := .core, srcs := [(.s, a), (.v, b)], dsts := [(.q, d)] }
  | .lds p d a b => { cls := some .M, pred := p, whr := .core, srcs := [(.s, a), (.s, b)], dsts := [(.v, d)], lat := 5 }
  | .ldss p d a b => { cls := some .M, pred := p, srcs := [(.s, a), (.s, b)], dsts := [(.s, d)], lat := 5 }
  | .sts p d a b => { cls := some .M, pred := p, whr := .core, srcs := [(.s, a), (.v, b)], regs := [(.s, d)] }
  | .stss p d a b => { cls := some .M, pred := p, srcs := [(.s, a), (.s, b)], regs := [(.s, d)] }
  | .st _ p d a b => { cls := some .M, pred := p, srcs := [(.s, a), (.s, b)], regs := [(.s, d)] }
  | .stv p d a b => { cls := some .M, pred := p, whr := .core, srcs := [(.s, a), (.v, b)], regs := [(.s, d)] }
  | .scatter p d a b => { cls := some .M, pred := p, whr := .core, srcs := [(.v, a), (.v, b)], regs := [(.s, d)] }
  | .pref p a b => { cls := some .M, pred := p, srcs := [(.s, a), (.s, b)] }
  | .prefs p a b => { cls := some .M, pred := p, whr := .core, srcs := [(.s, a), (.s, b)] }
  | .smap p a b => { cls := some .M, pred := p, whr := .core, srcs := [(.s, a), (.s, b)] }
  | .sunmap p a => { cls := some .M, pred := p, whr := .core, srcs := [(.s, a)] }
  | .swb p a => { cls := some .M, pred := p, whr := .core, srcs := [(.s, a)] }
  | .sinv p a => { cls := some .M, pred := p, whr := .core, srcs := [(.s, a)] }
  | .put p a b => { cls := some .M, pred := p, irrev := true, srcs := [(.s, a), (.s, b)] }
  | .get p w d a b => { cls := some .M, pred := p, srcs := [(.s, a), (.s, b)], dsts := [(.q, d)], nowb := some w, dfield := d }
  | .aadd p w d a b => { cls := some .M, pred := p, irrev := true, srcs := [(.s, a), (.s, b)], dsts := [(.q, d)], nowb := some w, dfield := d }
  | .afxadd p w d a b => { cls := some .M, pred := p, irrev := true, srcs := [(.s, a), (.s, b)], dsts := [(.q, d)], nowb := some w, dfield := d }
  | .afadd p w d a b => { cls := some .M, pred := p, irrev := true, srcs := [(.s, a), (.s, b)], dsts := [(.q, d)], nowb := some w, dfield := d }
  | .amin p w d a b => { cls := some .M, pred := p, irrev := true, srcs := [(.s, a), (.s, b)], dsts := [(.q, d)], nowb := some w, dfield := d }
  | .amax p w d a b => { cls := some .M, pred := p, irrev := true, srcs := [(.s, a), (.s, b)], dsts := [(.q, d)], nowb := some w, dfield := d }
  | .aminn p w d a b => { cls := some .M, pred := p, irrev := true, srcs := [(.s, a), (.s, b)], dsts := [(.q, d)], nowb := some w, dfield := d }
  | .amaxn p w d a b => { cls := some .M, pred := p, irrev := true, srcs := [(.s, a), (.s, b)], dsts := [(.q, d)], nowb := some w, dfield := d }
  | .aincb p w d a b => { cls := some .M, pred := p, irrev := true, srcs := [(.s, a), (.s, b)], dsts := [(.q, d)], nowb := some w, dfield := d }
  | .acas p w d a b => { cls := some .M, pred := p, irrev := true, srcs := [(.s, a)], regs := [(.s, b ++ 0#1), (.s, b ++ 1#1)], dsts := [(.q, d)], nowb := some w, dfield := d }
  | .aswap p w d a b => { cls := some .M, pred := p, irrev := true, srcs := [(.s, a), (.s, b)], dsts := [(.q, d)], nowb := some w, dfield := d }
  | .aand p w d a b => { cls := some .M, pred := p, irrev := true, srcs := [(.s, a), (.s, b)], dsts := [(.q, d)], nowb := some w, dfield := d }
  | .aor p w d a b => { cls := some .M, pred := p, irrev := true, srcs := [(.s, a), (.s, b)], dsts := [(.q, d)], nowb := some w, dfield := d }
  | .axor p w d a b => { cls := some .M, pred := p, irrev := true, srcs := [(.s, a), (.s, b)], dsts := [(.q, d)], nowb := some w, dfield := d }
  | .post p _ a b => { cls := some .M, pred := p, irrev := true, srcs := [(.s, a), (.s, b)] }
  | .br p _ => { cls := some .K, pred := p }
  | .call p _ => { cls := some .K, pred := p, dsts := [(.s, 63#6)], lat := 1 }
  | .ret p => { cls := some .K, pred := p, regs := [(.s, 63#6)] }
  | .jr p a => { cls := some .K, pred := p, srcs := [(.s, a)] }
  | .loop p c l => { cls := some .K, pred := p, srcs := [(.s, c)], ok := decide (l ≠ 0#14) }
  | .leave p a => { cls := some .K, pred := p, srcs := [(.s, a)] }
  | .qwait p _ a => { cls := some .K, pred := p, srcs := [(.s, a)] }
  | .cpywait p _ a => { cls := some .K, pred := p, whr := .core, srcs := [(.s, a)] }
  | .cwait p _ a => { cls := some .K, pred := p, srcs := [(.s, a)] }
  | .fence p _ => { cls := some .K, pred := p }
  | .fenceComplete => {}
  | .bwait p _ a => { cls := some .K, pred := p, srcs := [(.s, a)] }
  | .spawnLaunch p w d a b => { cls := some .K, pred := p, irrev := true, srcs := [(.s, a), (.s, b)], dsts := [(.q, d)], nowb := some w, dfield := d }
  | .spawnUnit p w d a b => { cls := some .K, pred := p, irrev := true, srcs := [(.s, a), (.s, b)], dsts := [(.q, d)], nowb := some w, dfield := d }
  | .send p a b => { cls := some .K, pred := p, irrev := true, srcs := [(.s, a), (.s, b)] }
  | .trig p a b => { cls := some .K, pred := p, whr := .core, irrev := true, srcs := [(.s, a), (.s, b)] }
  | .untrig p a => { cls := some .K, pred := p, whr := .core, irrev := true, srcs := [(.s, a)] }
  | .quiet p w d a => { cls := some .K, pred := p, srcs := [(.s, a)], dsts := [(.s, d)], lat := 1, nowb := some w, dfield := d }
  | .bar p w d a b => { cls := some .K, pred := p, irrev := true, srcs := [(.s, a), (.s, b)], dsts := [(.q, d)], nowb := some w, dfield := d }
  | .phaseOpeng p w d a b => { cls := some .K, pred := p, irrev := true, srcs := [(.s, a), (.s, b)], dsts := [(.q, d)], nowb := some w, dfield := d }
  | .phaseOpenp p w d a b => { cls := some .K, pred := p, irrev := true, srcs := [(.s, a), (.s, b)], dsts := [(.q, d)], nowb := some w, dfield := d }
  | .phaseAddl p w d a b => { cls := some .K, pred := p, irrev := true, srcs := [(.s, a), (.s, b)], dsts := [(.q, d)], nowb := some w, dfield := d }
  | .phaseClose p w d a b => { cls := some .K, pred := p, irrev := true, srcs := [(.s, a), (.s, b)], dsts := [(.q, d)], nowb := some w, dfield := d }
  | .phaseRelease p w d a b => { cls := some .K, pred := p, irrev := true, srcs := [(.s, a), (.s, b)], dsts := [(.q, d)], nowb := some w, dfield := d }
  | .cancel p a => { cls := some .K, pred := p, irrev := true, srcs := [(.s, a)] }
  | .yield p => { cls := some .K, pred := p, whr := .core }
  | .exit p => { cls := some .K, pred := p, whr := .core, irrev := true }
  | .accq p w d a b => { cls := some .K, pred := p, srcs := [(.s, a), (.s, b)], dsts := [(.s, d)], lat := 4, nowb := some w, dfield := d }
  | .glopen p w d a b => { cls := some .K, pred := p, whr := .core, irrev := true, srcs := [(.s, a), (.s, b)], dsts := [(.q, d)], nowb := some w, dfield := d }
  | .glhold p a b => { cls := some .K, pred := p, whr := .core, irrev := true, srcs := [(.s, a), (.s, b)] }
  | .glsend p a b => { cls := some .K, pred := p, whr := .core, irrev := true, srcs := [(.s, a), (.s, b)] }
  | .glstat p w d a => { cls := some .K, pred := p, whr := .core, irrev := true, srcs := [(.s, a)], dsts := [(.s, d)], lat := 4, nowb := some w, dfield := d }
  | .glclose p a => { cls := some .K, pred := p, whr := .core, irrev := true, srcs := [(.s, a)] }
  | .engwr p e a b => { cls := some .K, pred := p, whr := .core, regs := [(.s, a), (.s, b)], ok := (engWritable e) }
  | .chErrclr p _ a b => { cls := some .K, pred := p, whr := .core, regs := [(.s, a), (.s, b)] }
  | .chResume p _ a b => { cls := some .K, pred := p, whr := .core, regs := [(.s, a), (.s, b)] }
  | .engrd p e a b => { cls := some .K, pred := p, whr := .core, dsts := [(.s, a), (.s, b)], lat := 4, ok := decide (a ≠ b) && (engReadable e) }
  | .cpygo p _ a b => { cls := some .K, pred := p, engStart := true, whr := .core, irrev := true, regs := [(.s, a), (.s, b)] }
  | .sixgo p a b => { cls := some .K, pred := p, engStart := true, whr := .core, irrev := true, regs := [(.s, a), (.s, b)] }
  | .sysrd p w d n => { cls := some .K, pred := p, whr := sysWhere n, dsts := [(.s, d)], lat := 4, nowb := some w, dfield := d, ok := decide (n.toNat ≤ 0x12) }
  | .syswr p n b => { cls := some .K, pred := p, whr := sysWhere n, irrev := true, srcs := [(.s, b)], ok := decide (n.toNat ≤ 0x12) && (!sysOwnRow n) }
  | .syswrCkbound p b => { cls := some .K, pred := p, irrev := true, srcs := [(.s, b)] }
  | .syswrQbound p b => { cls := some .K, pred := p, irrev := true, srcs := [(.s, b)] }
  | .syswrArith p b => { cls := some .K, pred := p, irrev := true, srcs := [(.s, b)] }
  | .syswrSrseed p b => { cls := some .K, pred := p, whr := .core, irrev := true, srcs := [(.s, b)] }
  | .syswrMode p b => { cls := some .K, pred := p, irrev := true, srcs := [(.s, b)] }
  | .trap p a => { cls := some .K, pred := p, srcs := [(.s, a)], ok := (!a.isPop) }
  | .tretRetry p a => { cls := some .K, pred := p, srcs := [(.s, a)] }
  | .tretSkipk p a => { cls := some .K, pred := p, srcs := [(.s, a)] }
  | .tretEnd p a => { cls := some .K, pred := p, srcs := [(.s, a)] }
  | .xlinv p a b => { cls := some .K, pred := p, irrev := true, srcs := [(.s, a), (.s, b)] }
  | .opreq p a b => { cls := some .K, pred := p, irrev := true, srcs := [(.s, a), (.s, b)] }
  | .evac p w d a b => { cls := some .K, pred := p, irrev := true, srcs := [(.s, a), (.s, b)], dsts := [(.q, d)], nowb := some w, dfield := d }
  | .partq p w d a b => { cls := some .K, pred := p, irrev := true, srcs := [(.s, a), (.s, b)], dsts := [(.q, d)], nowb := some w, dfield := d }
  | .rvset p w d a b => { cls := some .K, pred := p, whr := .ranger, irrev := true, srcs := [(.s, a), (.s, b)], dsts := [(.q, d)], nowb := some w, dfield := d }
  | .rfloor p w d a b => { cls := some .K, pred := p, whr := .ranger, irrev := true, srcs := [(.s, a), (.s, b)], dsts := [(.q, d)], nowb := some w, dfield := d }
  | .rheat p w d a b => { cls := some .K, pred := p, whr := .ranger, irrev := true, srcs := [(.s, a), (.s, b)], dsts := [(.q, d)], nowb := some w, dfield := d }
  | .rwaveRead p w d a b => { cls := some .K, pred := p, whr := .ranger, irrev := true, srcs := [(.s, a), (.s, b)], dsts := [(.q, d)], nowb := some w, dfield := d }
  | .rwavePark p w d a b => { cls := some .K, pred := p, whr := .ranger, irrev := true, srcs := [(.s, a), (.s, b)], dsts := [(.q, d)], nowb := some w, dfield := d }
  | .rwaveWake p w d a b => { cls := some .K, pred := p, whr := .ranger, irrev := true, srcs := [(.s, a), (.s, b)], dsts := [(.q, d)], nowb := some w, dfield := d }
  | .rwaveMove p w d a b => { cls := some .K, pred := p, whr := .ranger, irrev := true, srcs := [(.s, a), (.s, b)], dsts := [(.q, d)], nowb := some w, dfield := d }
  | .revpost p a => { cls := some .K, pred := p, whr := .ranger, irrev := true, srcs := [(.s, a)] }
  | .rhframeSend p w d a b => { cls := some .K, pred := p, whr := .ranger, irrev := true, srcs := [(.s, a), (.s, b)], dsts := [(.q, d)], nowb := some w, dfield := d }
  | .rhframeRecv p w d a b => { cls := some .K, pred := p, whr := .ranger, irrev := true, srcs := [(.s, a), (.s, b)], dsts := [(.q, d)], nowb := some w, dfield := d }
  | .rsigchk p w d a => { cls := some .K, pred := p, whr := .ranger, srcs := [(.s, a)], dsts := [(.q, d)], nowb := some w, dfield := d }
  | .racctCreate p w d a b => { cls := some .K, pred := p, whr := .ranger, irrev := true, srcs := [(.s, a), (.s, b)], dsts := [(.q, d)], nowb := some w, dfield := d }
  | .racctAdd p w d a b => { cls := some .K, pred := p, whr := .ranger, irrev := true, srcs := [(.s, a), (.s, b)], dsts := [(.q, d)], nowb := some w, dfield := d }
  | .racctRelease p w d a b => { cls := some .K, pred := p, whr := .ranger, irrev := true, srcs := [(.s, a), (.s, b)], dsts := [(.q, d)], nowb := some w, dfield := d }
  | .racctCancel p w d a b => { cls := some .K, pred := p, whr := .ranger, irrev := true, srcs := [(.s, a), (.s, b)], dsts := [(.q, d)], nowb := some w, dfield := d }
  | .checkpointConfirm => {}
  | .anchorTokenGrant => {}
  | .anchorHoldExpiry => {}
  | .rollback => {}
  | .preemption => {}
  | .resumeUnit => {}
  | .qboundStallLimit => {}
  | .unitPlace => {}
  | .unitAdmit => {}
  | .unitStart => {}
  | .unitAge => {}
  | .unitCancelStop => {}
  | .borrowRequest => {}
  | .borrowReply => {}
  | .combinerAdd => {}
  | .combinerFlushPeriod => {}
  | .flushRequest => {}
  | .returnArrive => {}
  | .messageArrive => {}
  | .messageTimeout => {}
  | .channelTakeRecord => {}
  | .channelShadowStart => {}
  | .ringReserve => {}
  | .chunkPerform => {}
  | .recordComplete => {}
  | .channelFault => {}
  | .putGetRemoteFault => {}
  | .getComplete => {}
  | .sixOpStart => {}
  | .sixPush => {}
  | .sixFault => {}
  | .queueLoadFill => {}
  | .stashFill => {}
  | .stashWriteback => {}
  | .barrierArrival => {}
  | .ptsTick => {}
  | .regionFtTimeout => {}
  | .artUpdateEffect => {}
  | .translationWalk => {}
  | .xlinvAck => {}
  | .trailPacketDeliver => {}
  | .flowWindowBoundary => {}
  | .flowPromoteProbe => {}
  | .glopenComplete => {}
  | .guylineSlotSend => {}
  | .guylineFlitLand => {}
  | .guylineAckArrive => {}
  | .guylineLeaseExpire => {}
  | .guylineFinalCount => {}
  | .guylineFinalTimeout => {}
  | .podBarrierCombine => {}
  | .podBarrierResult => {}
  | .barTimeout => {}
  | .linkTraining => {}
  | .flitReceive => {}
  | .replayRequest => {}
  | .linkRetrain => {}
  | .retrainEnd => {}
  | .lightLoss => {}
  | .restripeComplete => {}
  | .reconcile => {}
  | .reconcileTimeout => {}
  | .laserWakeRequest => {}
  | .scrub => {}
  | .controlInterval => {}
  | .currentLimitEngage => {}
  | .currentLimitLevel2 => {}
  | .thermalCrit => {}
  | .logicStep => {}
  | .sramUpstep => {}
  | .stepwaitExpire => {}
  | .evacRowMove => {}
  | .stepSettle => {}
  | .drainComplete => {}
  | .eventRecordArrive => {}
  | .boot => {}
  | .hostHello => {}
  | .hostGoodbye => {}
  | .sessionTimeout => {}
  | .hostLoad => {}
  | .hostStart => {}
  | .hostLaunch => {}
  | .hostJobCreate => {}
  | .hostJobAdd => {}
  | .hostJobRelease => {}
  | .hostJobCancel => {}
  | .hostAcctrd => {}
  | .hostPart => {}
  | .hostPodmap => {}
  | .hostCap => {}
  | .hostMode => {}
  | .hostEvents => {}
  | .hostCounters => {}
  | .hostAttest => {}
  | .hostSafeckpt => {}
  | .ckptBlockAck => {}
  | .hostCkptstat => {}
  | .hostReset => {}
  | .rocev2BulkData => {}
  | .freedRowsZeroed => {}

end Sys2Proof
end

