-- ==== Sys2Proof/Machine/Lanes.lean ====
section
/-! DEFINITION. Elements in lanes (R80, R139, R140): their widths and types, operations element by element with the flags of
the active ones, and the shapes of the vector forms. -/

namespace Sys2Proof.Machine

/-! ### Element types (R59, R80) -/

/-- The width of an element. -/
def elemWidth : VType → Nat
  | .f32 | .i32 | .n32 => 32
  | .bf16 | .f16 | .i16 | .n16 => 16
  | .i8 => 8

/-- Whether an integer type is signed. -/
def elemSigned : VType → Bool
  | .i32 | .i16 | .i8 => true
  | .f32 | .bf16 | .f16 | .n32 | .n16 => false

/-- The format of a floating type. -/
def elemFmt : VType → Fmt
  | .bf16 => bf16
  | .f16 => fp16
  | .f32 | .i32 | .n32 | .i16 | .n16 | .i8 => fp32

/-- The elements that a lane holds. -/
def elemCount (t : VType) : Nat := 32 / elemWidth t

/-- Element `k` of a lane, for elements of `w` bits. -/
def elemAt (w k : Nat) (x : BitVec 32) : Nat := bits x.toNat (w * k) w

/-! ### Lanes one by one -/

/-- The number that a list of lanes makes, lane 0 first. -/
def packLanes : List (BitVec 32) → Nat
  | [] => 0
  | x :: xs => x.toNat + 2 ^ 32 * packLanes xs

/-- Lane by lane values with their flags: a lane whose mask bit is 0 is not computed and raises nothing (R86). -/
def runLanes (m : LaneMask) (f : Nat → BitVec 32 × FlagSet) : Lanes × FlagSet :=
  let rs := (upFrom 0 128).map fun i => if m.getLsbD i then f i else (0#32, noFlags)
  (BitVec.ofNat 4096 (packLanes (rs.map (·.1))), rs.foldl (fun g r => g ||| r.2) noFlags)

/-- The elements of a lane computed one by one, `n` of them from element `k`, each of `w` bits. -/
def runElems (w : Nat) (f : Nat → Nat × FlagSet) : Nat → Nat → Nat × FlagSet
  | 0, _ => (0, noFlags)
  | n + 1, k =>
    let r := f k
    let rest := runElems w f n (k + 1)
    (r.1 % 2 ^ w + 2 ^ w * rest.1, r.2 ||| rest.2)

/-- An operation on the elements of two lanes. -/
def laneOp2 (w : Nat) (f : Nat → Nat → Nat × FlagSet) (x y : BitVec 32) : BitVec 32 × FlagSet :=
  let r := runElems w (fun k => f (elemAt w k x) (elemAt w k y)) (32 / w) 0
  (BitVec.ofNat 32 r.1, r.2)

/-- An operation on the elements of three lanes. -/
def laneOp3 (w : Nat) (f : Nat → Nat → Nat → Nat × FlagSet) (x y z : BitVec 32) : BitVec 32 × FlagSet :=
  let r := runElems w (fun k => f (elemAt w k x) (elemAt w k y) (elemAt w k z)) (32 / w) 0
  (BitVec.ofNat 32 r.1, r.2)

/-- An operation by type: the floating one, or an integer one modulo `2^w` (R81). -/
def byType (t : VType) (ff : Fmt → Nat → Nat → Nat × FlagSet) (fi : Int → Int → Int) (x y : Nat) : Nat × FlagSet :=
  if t.isFloat then ff (elemFmt t) x y
  else (wrapTo (elemWidth t) (fi (intOf (elemWidth t) (elemSigned t) x) (intOf (elemWidth t) (elemSigned t) y)), noFlags)

/-- The latency of an arithmetic form by type (R50). -/
def arithLat (t : VType) : Nat := if t.isFloat then 4 else 2

/-! ### Shapes of the vector forms (R137) -/

/-- A form with two vector sources, element by element under the mask. -/
def State.vec2 (s : State) (t : VType) (p : BitVec 3) (w : Bool) (d : BitVec 6) (a b : Src) (lat : Nat)
    (f : State → Nat → Nat → Nat × FlagSet) : Host.Outcome State Fault Refusal :=
  s.issueV p [a, b] fun s m => do
    let x ← s.getV (.ty t) a
    let y ← s.getV (.ty t) b
    let r := runLanes m fun i => laneOp2 (elemWidth t) (f s) (lane x i) (lane y i)
    s.resultV w d lat r.1 m m r.2

/-- A form with two vector sources and its destination as third input. -/
def State.vec3 (s : State) (t : VType) (p : BitVec 3) (w : Bool) (d : BitVec 6) (a b : Src) (lat : Nat)
    (f : State → Nat → Nat → Nat → Nat × FlagSet) : Host.Outcome State Fault Refusal :=
  s.issueV p [a, b] fun s m => do
    let x ← s.getV (.ty t) a
    let y ← s.getV (.ty t) b
    let z := s.core.arch.vreg d
    let r := runLanes m fun i => laneOp3 (elemWidth t) (f s) (lane x i) (lane y i) (lane z i)
    s.resultV w d lat r.1 m m r.2

/-- A form with one vector source, element by element under the mask. -/
def State.vec1 (s : State) (t : VType) (p : BitVec 3) (w : Bool) (d : BitVec 6) (a : Src) (lat : Nat) (f : Nat → Nat) :
    Host.Outcome State Fault Refusal :=
  s.issueV p [a] fun s m => do
    let x ← s.getV (.ty t) a
    let r := runLanes m fun i => laneOp2 (elemWidth t) (fun e _ => (f e, noFlags)) (lane x i) 0#32
    s.resultV w d lat r.1 m m

/-- A form on whole lanes whose lane `i` may read any lane of its two sources. -/
def State.vecRaw (s : State) (p : BitVec 3) (w : Bool) (d : BitVec 6) (a b : Src) (lat : Nat) (f : Lanes → Lanes → Nat → BitVec 32) :
    Host.Outcome State Fault Refusal :=
  s.issueV p [a, b] fun s m => do
    let x ← s.getV .raw a
    let y ← s.getV .raw b
    s.resultV w d lat (runLanes m fun i => (f x y i, noFlags)).1 m m

/-- A compare into a mask: a lane's bit is 1 when the relation holds for each of its elements (R149). -/
def State.vecCompare (s : State) (t : VType) (p : BitVec 3) (w : Bool) (d : BitVec 6) (a b : Src) (ff : Num → Num → Bool)
    (fi : Int → Int → Bool) : Host.Outcome State Fault Refusal :=
  s.issueV p [a, b] fun s m => do
    let x ← s.getV (.ty t) a
    let y ← s.getV (.ty t) b
    let n := elemWidth t
    let rel (u v : Nat) : Bool :=
      if t.isFloat then ff ((elemFmt t).decode s.ftz u) ((elemFmt t).decode s.ftz v)
      else fi (intOf n (elemSigned t) u) (intOf n (elemSigned t) v)
    let r := maskTab fun i => (upFrom 0 (32 / n)).all fun k => rel (elemAt n k (lane x i)) (elemAt n k (lane y i))
    pure (s.resultM w d 2 r m)

/-- A form on masks under the slot's mask (R150). -/
def State.maskLogic (s : State) (p : BitVec 3) (w : Bool) (d : BitVec 6) (a b : Src) (f : LaneMask → LaneMask → LaneMask) :
    Host.Outcome State Fault Refusal :=
  s.issueV p [a, b] fun s m => do
    let x ← liftC (s.readM a)
    let y ← liftC (s.readM b)
    pure (s.resultM w d 1 (f x y) m)

end Sys2Proof.Machine
end

