-- ==== Sys2Proof/Machine/Vector.lean ====
section
/-! DEFINITION. The vector forms that act element by element or lane by lane, the compares and the mask forms (R137 to R152,
R158, R159). -/

namespace Sys2Proof.Machine

/-! ### Element operations -/

/-- A saturating integer operation (R146). -/
def satOp (t : VType) (f : Int → Int → Int) (x y : Nat) : Nat × FlagSet :=
  let n := elemWidth t
  let r := satTo n (elemSigned t) (f (intOf n (elemSigned t) x) (intOf n (elemSigned t) y))
  (wrapTo n r.1, flagIf r.2 fSAT)

/-- VABS or VNEG of an element (R147): on a floating element the sign bit alone changes, and a NaN gives the canonical one. -/
def signOp (t : VType) (negate : Bool) (x : Nat) : Nat :=
  let n := elemWidth t
  if t.isFloat then
    let f := elemFmt t
    if (f.decode false x).isNan then f.nanBits
    else if negate then f.signed (!x.testBit (n - 1)) (x % 2 ^ (n - 1)) else x % 2 ^ (n - 1)
  else
    let v := intOf n true x
    wrapTo n (if negate || decide (v < 0) then -v else v)

/-- The minimum or maximum of two elements (R84, R147). -/
def minMaxOp (t : VType) (ftz wantMax : Bool) (x y : Nat) : Nat :=
  if t.isFloat then (elemFmt t).minMax ftz wantMax x y
  else
    let u := intOf (elemWidth t) (elemSigned t) x
    let v := intOf (elemWidth t) (elemSigned t) y
    if decide (u < v) != wantMax then x else y

/-- The shift count of an element (R148). -/
def elemShift (t : VType) (y : Nat) : Nat := y % elemWidth t

/-! ### Arithmetic (R146, R147) -/

/-- VADD (R146). -/
def execVadd (t : VType) (p : BitVec 3) (w : Bool) (d : BitVec 6) (a b : Src) (s : State) : Host.Outcome State Fault Refusal :=
  s.vec2 t p w d a b (arithLat t) fun s => byType t (fun g x y => g.add s.rm s.ftz x y) (fun x y => x + y)

/-- VSUB (R146). -/
def execVsub (t : VType) (p : BitVec 3) (w : Bool) (d : BitVec 6) (a b : Src) (s : State) : Host.Outcome State Fault Refusal :=
  s.vec2 t p w d a b (arithLat t) fun s => byType t (fun g x y => g.sub s.rm s.ftz x y) (fun x y => x - y)

/-- VMUL (R146). -/
def execVmul (t : VType) (p : BitVec 3) (w : Bool) (d : BitVec 6) (a b : Src) (s : State) : Host.Outcome State Fault Refusal :=
  s.vec2 t p w d a b (arithLat t) fun s => byType t (fun g x y => g.mul s.rm s.ftz x y) (fun x y => x * y)

/-- VFMA: d + a × b in one rounding, or modulo the width (R146). -/
def execVfma (t : VType) (p : BitVec 3) (w : Bool) (d : BitVec 6) (a b : Src) (s : State) : Host.Outcome State Fault Refusal :=
  s.vec3 t p w d a b (arithLat t) fun s x y z =>
    if t.isFloat then (elemFmt t).fma s.rm s.ftz false x y z else (wrapTo (elemWidth t) ((x * y + z : Nat) : Int), noFlags)

/-- VFMS: d − a × b in one rounding (R146). -/
def execVfms (t : VType) (p : BitVec 3) (w : Bool) (d : BitVec 6) (a b : Src) (s : State) : Host.Outcome State Fault Refusal :=
  s.vec3 t p w d a b 4 fun s x y z => (elemFmt t).fma s.rm s.ftz true x y z

/-- VMIN (R147): no flag. -/
def execVmin (t : VType) (p : BitVec 3) (w : Bool) (d : BitVec 6) (a b : Src) (s : State) : Host.Outcome State Fault Refusal :=
  s.vec2 t p w d a b 2 fun s x y => (minMaxOp t s.ftz false x y, noFlags)

/-- VMAX (R147): no flag. -/
def execVmax (t : VType) (p : BitVec 3) (w : Bool) (d : BitVec 6) (a b : Src) (s : State) : Host.Outcome State Fault Refusal :=
  s.vec2 t p w d a b 2 fun s x y => (minMaxOp t s.ftz true x y, noFlags)

/-- VADDS (R146). -/
def execVadds (t : VType) (p : BitVec 3) (w : Bool) (d : BitVec 6) (a b : Src) (s : State) : Host.Outcome State Fault Refusal :=
  s.vec2 t p w d a b 2 fun _ => satOp t fun x y => x + y

/-- VSUBS (R146). -/
def execVsubs (t : VType) (p : BitVec 3) (w : Bool) (d : BitVec 6) (a b : Src) (s : State) : Host.Outcome State Fault Refusal :=
  s.vec2 t p w d a b 2 fun _ => satOp t fun x y => x - y

/-- VCMPEQ (R149). -/
def execVcmpeq (t : VType) (p : BitVec 3) (w : Bool) (d : BitVec 6) (a b : Src) (s : State) : Host.Outcome State Fault Refusal :=
  s.vecCompare t p w d a b Num.eq fun x y => decide (x = y)

/-- VCMPLT (R149). -/
def execVcmplt (t : VType) (p : BitVec 3) (w : Bool) (d : BitVec 6) (a b : Src) (s : State) : Host.Outcome State Fault Refusal :=
  s.vecCompare t p w d a b Num.lt fun x y => decide (x < y)

/-- VCMPLE (R149). -/
def execVcmple (t : VType) (p : BitVec 3) (w : Bool) (d : BitVec 6) (a b : Src) (s : State) : Host.Outcome State Fault Refusal :=
  s.vecCompare t p w d a b (fun x y => x.lt y || x.eq y) fun x y => decide (x ≤ y)

/-- VABS (R147): no flag, FTZ ignored. -/
def execVabs (t : VType) (p : BitVec 3) (w : Bool) (d : BitVec 6) (a : Src) (s : State) : Host.Outcome State Fault Refusal :=
  s.vec1 t p w d a 2 (signOp t false)

/-- VNEG (R147): no flag, FTZ ignored. -/
def execVneg (t : VType) (p : BitVec 3) (w : Bool) (d : BitVec 6) (a : Src) (s : State) : Host.Outcome State Fault Refusal :=
  s.vec1 t p w d a 2 (signOp t true)

/-! ### Logic, shifts, selection and moves (R148, R151, R152) -/

/-- VAND (R148). -/
def execVand (p : BitVec 3) (w : Bool) (d : BitVec 6) (a b : Src) (s : State) : Host.Outcome State Fault Refusal :=
  s.vecRaw p w d a b 2 fun x y i => lane x i &&& lane y i

/-- VOR (R148). -/
def execVor (p : BitVec 3) (w : Bool) (d : BitVec 6) (a b : Src) (s : State) : Host.Outcome State Fault Refusal :=
  s.vecRaw p w d a b 2 fun x y i => lane x i ||| lane y i

/-- VXOR (R148). -/
def execVxor (p : BitVec 3) (w : Bool) (d : BitVec 6) (a b : Src) (s : State) : Host.Outcome State Fault Refusal :=
  s.vecRaw p w d a b 2 fun x y i => lane x i ^^^ lane y i

/-- VANDN (R148). -/
def execVandn (p : BitVec 3) (w : Bool) (d : BitVec 6) (a b : Src) (s : State) : Host.Outcome State Fault Refusal :=
  s.vecRaw p w d a b 2 fun x y i => lane x i &&& ~~~lane y i

/-- VSHL (R148). -/
def execVshl (t : VType) (p : BitVec 3) (w : Bool) (d : BitVec 6) (a b : Src) (s : State) : Host.Outcome State Fault Refusal :=
  s.vec2 t p w d a b 2 fun _ x y => (x * 2 ^ elemShift t y % 2 ^ elemWidth t, noFlags)

/-- VSHR: arithmetic for signed types, logical for unsigned (R148). -/
def execVshr (t : VType) (p : BitVec 3) (w : Bool) (d : BitVec 6) (a b : Src) (s : State) : Host.Outcome State Fault Refusal :=
  s.vec2 t p w d a b 2 fun _ x y =>
    (wrapTo (elemWidth t) (intOf (elemWidth t) (elemSigned t) x / (2 ^ elemShift t y : Nat)), noFlags)

/-- VSEL: the slot's mask selects, and every lane is written (R46, R151). -/
def execVsel (p : BitVec 3) (w : Bool) (d : BitVec 6) (a b : Src) (s : State) : Host.Outcome State Fault Refusal :=
  s.issueV p [a, b] fun s m => do
    let x ← s.getV .raw a
    let y ← s.getV .raw b
    s.resultV w d 2 (mergeLanes m x y) (BitVec.allOnes 128) (BitVec.allOnes 128)

/-- VMOV (R152). -/
def execVmov (p : BitVec 3) (w : Bool) (d : BitVec 6) (a : Src) (s : State) : Host.Outcome State Fault Refusal :=
  s.issueV p [a] fun s m => do
    let x ← s.getV .raw a
    s.resultV w d 2 x m m

/-- VSPLAT (R152). -/
def execVsplat (p : BitVec 3) (w : Bool) (d : BitVec 6) (a : Src) (s : State) : Host.Outcome State Fault Refusal :=
  s.issueV p [a] fun s m => do
    let x ← s.getS a
    s.resultV w d 2 (laneTab fun _ => x.setWidth 32) m m

/-- VINS: one lane of the third input replaced where the mask has its bit; every lane is written (R46, R152). -/
def execVins (p : BitVec 3) (w : Bool) (d : BitVec 6) (a b : Src) (s : State) : Host.Outcome State Fault Refusal :=
  s.issueV p [a, b] fun s m => do
    let x ← s.getS a
    let y ← s.getS b
    let z := s.core.arch.vreg d
    let l := fld y 0 7
    s.resultV w d 2 (laneTab fun i => if i = l ∧ m.getLsbD l then x.setWidth 32 else lane z i) (BitVec.allOnes 128) (BitVec.allOnes 128)

/-- VXTR (R152). -/
def execVxtr (w : Bool) (d : BitVec 6) (a b : Src) (s : State) : Host.Outcome State Fault Refusal :=
  s.issueV 0#3 [a, b] fun s _ => do
    let x ← s.getV .raw a
    let y ← s.getS b
    s.resultS w d 4 ((lane x (fld y 0 7)).setWidth 64)

/-! ### Permutes (R158, R159) -/

/-- VPERM (R158). -/
def execVperm (p : BitVec 3) (w : Bool) (d : BitVec 6) (a b : Src) (s : State) : Host.Outcome State Fault Refusal :=
  s.vecRaw p w d a b 2 fun x y i => lane x (i / 16 * 16 + fld (lane y i) 0 4)

/-- VROT (R158). -/
def execVrot (p : BitVec 3) (w : Bool) (d : BitVec 6) (a b : Src) (s : State) : Host.Outcome State Fault Refusal :=
  s.vecRaw p w d a b 2 fun x y i => lane x (i / 16 * 16 + (i % 16 + fld (lane y (i / 16 * 16)) 0 4) % 16)

/-- VBCL (R158). -/
def execVbcl (p : BitVec 3) (w : Bool) (d : BitVec 6) (a b : Src) (s : State) : Host.Outcome State Fault Refusal :=
  s.vecRaw p w d a b 2 fun x y i => lane x (i / 16 * 16 + fld (lane y (i / 16 * 16)) 0 4)

/-- VXCOPY (R159). -/
def execVxcopy (p : BitVec 3) (w : Bool) (d : BitVec 6) (a b : Src) (s : State) : Host.Outcome State Fault Refusal :=
  s.vecRaw p w d a b 4 fun x y i => lane x (fld (lane y (i / 16 * 16)) 0 3 * 16 + i % 16)

/-- VXROT (R159). -/
def execVxrot (p : BitVec 3) (w : Bool) (d : BitVec 6) (a b : Src) (s : State) : Host.Outcome State Fault Refusal :=
  s.vecRaw p w d a b 4 fun x y i => lane x ((i / 16 + fld (lane y 0) 0 3) % 8 * 16 + i % 16)

/-! ### Masks (R150) -/

/-- VMAND (R150). -/
def execVmand (p : BitVec 3) (w : Bool) (d : BitVec 6) (a b : Src) (s : State) : Host.Outcome State Fault Refusal :=
  s.maskLogic p w d a b fun x y => x &&& y

/-- VMOR (R150). -/
def execVmor (p : BitVec 3) (w : Bool) (d : BitVec 6) (a b : Src) (s : State) : Host.Outcome State Fault Refusal :=
  s.maskLogic p w d a b fun x y => x ||| y

/-- VMXOR (R150). -/
def execVmxor (p : BitVec 3) (w : Bool) (d : BitVec 6) (a b : Src) (s : State) : Host.Outcome State Fault Refusal :=
  s.maskLogic p w d a b fun x y => x ^^^ y

/-- VMANDN (R150). -/
def execVmandn (p : BitVec 3) (w : Bool) (d : BitVec 6) (a b : Src) (s : State) : Host.Outcome State Fault Refusal :=
  s.maskLogic p w d a b fun x y => x &&& ~~~y

/-- VMNOT (R150). -/
def execVmnot (p : BitVec 3) (w : Bool) (d : BitVec 6) (a : Src) (s : State) : Host.Outcome State Fault Refusal :=
  s.issueV p [a] fun s m => do
    let x ← liftC (s.readM a)
    pure (s.resultM w d 1 (~~~x) m)

/-- VMPOP (R150). -/
def execVmpop (w : Bool) (d : BitVec 6) (a : Src) (s : State) : Host.Outcome State Fault Refusal :=
  s.issueV 0#3 [a] fun s _ => do
    let x ← liftC (s.readM a)
    s.resultS w d 2 (BitVec.ofNat 64 (oneBits x))

end Sys2Proof.Machine
end

