-- ==== Sys2Proof/Machine/Convert.lean ====
section
/-! DEFINITION. The vector conversions (R153 to R155), the FX64 forms (R156), and the reductions and scans (R102, R103, R160,
R161). -/

namespace Sys2Proof.Machine

/-! ### Conversions of one element -/

/-- The conversion of an element of type `t` to type `u` under a rounding, with the bits that a stochastic one draws (R154). -/
def convElem (t u : VType) (r : Round) (ftz : Bool) (x : Nat) (g : BitVec 32) : Nat × FlagSet :=
  let v := intOf (elemWidth t) (elemSigned t) x
  let n : Num := if t.isFloat then (elemFmt t).decode ftz x else .fin (decide (v < 0)) v.natAbs 0
  if u.isFloat then
    match r with
    | .stoch => (elemFmt u).ofNumStoch ftz false n g
    | .near | .zero | .up | .down => (elemFmt u).ofNum r ftz n
  else if t.isFloat then n.toIntTy r (elemWidth u) (elemSigned u)
  else
    let z := satTo (elemWidth u) (elemSigned u) v
    (wrapTo (elemWidth u) z.1, flagIf z.2 fSAT)

/-- The conversion of an element to or from an 8-bit type, `t` being the wide type (R155). -/
def convElem8 (x : XType) (t : VType) (r : Round) (nosat ftz : Bool) (e : Nat) (g : BitVec 32) : Nat × FlagSet :=
  let wide := (elemFmt t).decode ftz e
  let to8 (f : Fmt) : Nat × FlagSet :=
    match r with
    | .stoch => f.ofNumStoch ftz nosat wide g
    | .near | .zero | .up | .down => f.ofNum8 r ftz nosat wide
  match x with
  | .toE4m3 => to8 e4m3
  | .toE5m2 => to8 e5m2
  | .toN8 => wide.toIntTy r 8 false
  | .fromE4m3 => (elemFmt t).ofNum .near ftz (e4m3.decode ftz e)
  | .fromE5m2 => (elemFmt t).ofNum .near ftz (e5m2.decode ftz e)
  | .fromN8 => (elemFmt t).ofInt .near ftz (e % 256)

/-- The converted elements of a lane from element `k` on, `n` of them, each from `sw` bits to `dw` bits: the generator
advances once for each under stochastic rounding (R92, R153). -/
def convElems (f : Nat → BitVec 32 → Nat × FlagSet) (stoch : Bool) (sw dw : Nat) (x : BitVec 32) :
    Nat → Nat → BitVec 32 → Nat × FlagSet × BitVec 32
  | 0, _, g => (0, noFlags, g)
  | n + 1, k, g =>
    let g' := if stoch then genNext g else g
    let r := f (elemAt sw k x) g'
    let rest := convElems f stoch sw dw x n (k + 1) g'
    (r.1 % 2 ^ dw + 2 ^ dw * rest.1, r.2 ||| rest.2.1, rest.2.2)

/-- A conversion of every active lane: the lanes, the flags and the generators after it. -/
def convLanes (m : LaneMask) (f : Nat → BitVec 32 → Nat × FlagSet) (stoch : Bool) (sw dw : Nat) (x gens : Lanes) : Lanes × FlagSet × Lanes :=
  let n := min (32 / sw) (32 / dw)
  let rs := (upFrom 0 128).map fun i =>
    if m.getLsbD i then convElems f stoch sw dw (lane x i) n 0 (lane gens i) else (0, noFlags, lane gens i)
  (BitVec.ofNat 4096 (packLanes (rs.map fun r => BitVec.ofNat 32 r.1)), rs.foldl (fun g r => g ||| r.2.1) noFlags,
    BitVec.ofNat 4096 (packLanes (rs.map fun r => r.2.2)))

/-- A conversion form: its field read in a type, its generators advanced at issue (log entry 16). -/
def State.convert (s : State) (p : BitVec 3) (w : Bool) (d : BitVec 6) (a : Src) (field : VTy) (r : Round) (sw dw : Nat)
    (f : Bool → Nat → BitVec 32 → Nat × FlagSet) : Host.Outcome State Fault Refusal :=
  s.issueV p [a] fun s m => do
    let x ← s.getV field a
    let c := convLanes m (f s.ftz) (decide (r = .stoch)) sw dw x s.core.arch.gens
    let s1 := s.withCore { s.core with arch := { s.core.arch with gens := c.2.2 } }
    s1.resultV w d 3 c.1 m m c.2.1

/-- VCVT (R153, R154). -/
def execVcvt (t : VType) (p : BitVec 3) (w : Bool) (d : BitVec 6) (a : Src) (x : VType) (r : Round) (s : State) : Host.Outcome State Fault Refusal :=
  s.convert p w d a (.ty x) r (elemWidth x) (elemWidth t) (convElem x t r)

/-- The type in which the field of VCVTX is read. -/
def XType.field (x : XType) (t : VType) : VTy :=
  match x with
  | .toE4m3 | .toE5m2 | .toN8 => .ty t
  | .fromE4m3 => .e4m3
  | .fromE5m2 => .e5m2
  | .fromN8 => .n8

/-- Whether VCVTX goes to the 8-bit type. -/
def XType.narrows : XType → Bool
  | .toE4m3 | .toE5m2 | .toN8 => true
  | .fromE4m3 | .fromE5m2 | .fromN8 => false

/-- VCVTX (R153, R155). -/
def execVcvtx (x : XType) (p : BitVec 3) (w : Bool) (d : BitVec 6) (a : Src) (t : VType) (r : Round) (n : Bool) (s : State) : Host.Outcome State Fault Refusal :=
  s.convert p w d a (XType.field x t) r (if XType.narrows x then elemWidth t else 8) (if XType.narrows x then 8 else elemWidth t)
    (convElem8 x t r n)

/-! ### FX64 (R99, R156) -/

/-- Element `j` of a vector of FX64. -/
def fxElem (x : Lanes) (j : Nat) : Int := intOf 64 true (bits x.toNat (64 * j) 64)

/-- The lanes of the active elements: an element is active by the bit of its even lane, and both its lanes are written. -/
def fxMask (m : LaneMask) : LaneMask := maskTab fun i => m.getLsbD (i / 2 * 2)

/-- The binary point of element `j`. -/
def fxPoint (b : Lanes) (j : Nat) : Nat := min (fld (lane b (2 * j)) 0 6) 62

/-- Element by element FX64 values with the flags of the active ones. -/
def runFx (m : LaneMask) (f : Nat → Nat × FlagSet) : Lanes × FlagSet :=
  let rs := (upFrom 0 64).map fun j => if m.getLsbD (2 * j) then f j else (0, noFlags)
  (BitVec.ofNat 4096 (digits 64 (fun j => (rs.getD j (0, noFlags)).1) 64 0), rs.foldl (fun g r => g ||| r.2) noFlags)

/-- An FX64 form. -/
def State.vecFx (s : State) (p : BitVec 3) (w : Bool) (d : BitVec 6) (a b : Src) (ta : VTy) (lat : Nat)
    (f : State → Lanes → Lanes → Nat → Nat × FlagSet) : Host.Outcome State Fault Refusal :=
  s.issueV p [a, b] fun s m => do
    let x ← s.getV ta a
    let y ← s.getV .fx b
    let r := runFx m (f s x y)
    s.resultV w d lat r.1 (fxMask m) m r.2

/-- VFXADD (R99, R156). -/
def execVfxadd (p : BitVec 3) (w : Bool) (d : BitVec 6) (a b : Src) (s : State) : Host.Outcome State Fault Refusal :=
  s.vecFx p w d a b .fx 2 fun _ x y j =>
    let r := fxAdd (fxElem x j) (fxElem y j)
    (wrapTo 64 r.1, r.2)

/-- The conversion of a number to FX64 with binary point `n` (R99, R156). -/
def toFx64 (x : Num) (n : Nat) : Nat × FlagSet :=
  match x with
  | .nan => (0, fIV)
  | .inf s => (wrapTo 64 (if s then intMin 64 true else intMax 64 true), fIV)
  | .fin _ _ _ =>
    let r := x.toFx n
    (wrapTo 64 r.1, if r.2.1 then fIV else flagIf (!r.2.2) fNX)

/-- VFXCVT (R156). -/
def execVfxcvt (p : BitVec 3) (w : Bool) (d : BitVec 6) (a b : Src) (s : State) : Host.Outcome State Fault Refusal :=
  s.vecFx p w d a b (.ty .f32) 3 fun s x y j => toFx64 (fp32.decode s.ftz (lane x (2 * j)).toNat) (fxPoint y j)

/-- VFXCVTF (R156): the odd lane of an element becomes zero. -/
def execVfxcvtf (p : BitVec 3) (w : Bool) (d : BitVec 6) (a b : Src) (s : State) : Host.Outcome State Fault Refusal :=
  s.vecFx p w d a b .fx 3 fun s x y j =>
    let v := fxElem x j
    fp32.ofNum s.rm s.ftz (.fin (decide (v < 0)) v.natAbs (-(fxPoint y j : Int)))

/-! ### Reductions and scans (R102, R103) -/

/-- Two neighbours combined: an absent one passes the other through unchanged, a NaN with its payload (R102, against R83; DEDUCED, log entry 37). -/
def combine (f : Nat → Nat → Nat × FlagSet) (x y : Option Nat) : Option Nat × FlagSet :=
  match x, y with
  | some u, some v => (some (f u v).1, (f u v).2)
  | some u, none => (some u, noFlags)
  | none, y => (y, noFlags)

/-- One level of the pairwise tree. -/
def pairUp (f : Nat → Nat → Nat × FlagSet) : List (Option Nat) → List (Option Nat) × FlagSet
  | [] => ([], noFlags)
  | [x] => ([x], noFlags)
  | x :: y :: zs =>
    let r := combine f x y
    let rest := pairUp f zs
    (r.1 :: rest.1, r.2 ||| rest.2)

/-- The tree of `n` levels. -/
def treeUp (f : Nat → Nat → Nat × FlagSet) : Nat → List (Option Nat) → Option Nat × FlagSet
  | 0, xs => (xs.headD none, noFlags)
  | n + 1, xs =>
    let r := pairUp f xs
    let rest := treeUp f n r.1
    (rest.1, r.2 ||| rest.2)

/-- The elements of cluster `c` as inputs (R140), present where their lane's mask bit is 1. -/
def clusterElems (t : VType) (ftz : Bool) (m : LaneMask) (x : Lanes) (c : Nat) : List (Option Nat) :=
  let n := elemCount t
  (upFrom 0 (16 * n)).map fun e =>
    let i := 16 * c + e / n
    let y := elemAt (elemWidth t) (e % n) (lane x i)
    if m.getLsbD i then some (if t.isFloat then (elemFmt t).flushed ftz y else y) else none

/-- The levels of the tree: 16 or 32 elements. -/
def treeLevels (t : VType) : Nat := if elemCount t = 1 then 4 else 5

/-- A reduction: each cluster's result in its lane 0 (R160). -/
def State.reduce (s : State) (t : VType) (p : BitVec 3) (w : Bool) (d : BitVec 6) (a : Src) (f : State → Nat → Nat → Nat × FlagSet)
    (absent : Nat) : Host.Outcome State Fault Refusal :=
  s.issueV p [a] fun s m => do
    let x ← s.getV (.ty t) a
    let rs := (upFrom 0 8).map fun c => treeUp (f s) (treeLevels t) (clusterElems t s.ftz m x c)
    let v := laneTab fun i => if i % 16 = 0 then BitVec.ofNat 32 (((rs.getD (i / 16) (none, noFlags)).1).getD absent) else 0#32
    s.resultV w d 6 v (m &&& maskTab fun i => i % 16 = 0) m (rs.foldl (fun g r => g ||| r.2) noFlags)

/-- The addition of reductions and scans (R160). -/
def sumOp (t : VType) (s : State) : Nat → Nat → Nat × FlagSet := byType t (fun g x y => g.add s.rm s.ftz x y) (fun x y => x + y)

/-- VREDADD (R160). -/
def execVredadd (t : VType) (p : BitVec 3) (w : Bool) (d : BitVec 6) (a : Src) (s : State) : Host.Outcome State Fault Refusal := s.reduce t p w d a (sumOp t) 0

/-- VREDMIN (R160). -/
def execVredmin (t : VType) (p : BitVec 3) (w : Bool) (d : BitVec 6) (a : Src) (s : State) : Host.Outcome State Fault Refusal :=
  s.reduce t p w d a (fun s x y => (minMaxOp t s.ftz false x y, noFlags))
    (if t.isFloat then (elemFmt t).infBits else wrapTo 32 (intMax 32 (elemSigned t)))

/-- VREDMAX (R160). -/
def execVredmax (t : VType) (p : BitVec 3) (w : Bool) (d : BitVec 6) (a : Src) (s : State) : Host.Outcome State Fault Refusal :=
  s.reduce t p w d a (fun s x y => (minMaxOp t s.ftz true x y, noFlags))
    (if t.isFloat then (elemFmt t).signed true (elemFmt t).infBits else wrapTo 32 (intMin 32 (elemSigned t)))

/-- One doubling step of a scan: each element combined with the one `k` before it, with the flags of the elements marked. -/
def scanStep (f : Nat → Nat → Nat × FlagSet) (k : Nat) (on : List Bool) (ys : List (Option Nat)) : List (Option Nat) × FlagSet :=
  let rs := ((List.replicate k (none : Option Nat) ++ ys).zip ys).map fun z => combine f z.1 z.2
  (rs.map (·.1), (rs.zip on).foldl (fun g r => if r.2 then g ||| r.1.2 else g) noFlags)

/-- The doubling steps of a scan, `n` of them from distance `k`. -/
def scanSteps (f : Nat → Nat → Nat × FlagSet) (on : List Bool) : Nat → Nat → List (Option Nat) → List (Option Nat) × FlagSet
  | 0, _, ys => (ys, noFlags)
  | n + 1, k, ys =>
    let r := scanStep f k on ys
    let rest := scanSteps f on n (2 * k) r.1
    (rest.1, r.2 ||| rest.2)

/-- VSCAN (R103, R161): only elements of active lanes are written and raise flags. -/
def execVscan (t : VType) (p : BitVec 3) (w : Bool) (d : BitVec 6) (a : Src) (s : State) : Host.Outcome State Fault Refusal :=
  s.issueV p [a] fun s m => do
    let x ← s.getV (.ty t) a
    let n := elemCount t
    let rs := (upFrom 0 8).map fun c =>
      let es := clusterElems t s.ftz m x c
      scanSteps (sumOp t s) (es.map Option.isSome) (treeLevels t) 1 es
    let v := laneTab fun i =>
      let ys := (rs.getD (i / 16) ([], noFlags)).1
      BitVec.ofNat 32 (digits (elemWidth t) (fun k => ((ys.getD (i % 16 * n + k) none).getD 0)) n 0)
    s.resultV w d 6 v m m (rs.foldl (fun g r => g ||| r.2) noFlags)

end Sys2Proof.Machine
end

