-- ==== Sys2Proof/Machine/Dispatchers.lean ====
section
/-! DEFINITION. The device actions of a sequencer's interval and of the stack dispatchers (R224, R282, R284, R285, R288 to
R290, R411, R415, R419 to R423, R474). -/

namespace Sys2Proof.Machine

/-! ### The interval of a sequencer -/

/-- A change made with a sequencer in focus, where it has something to run. -/
def State.onCore (s : State) (c : Nat) (f : State → State) : State := f (s.focus c)

/-- CHECKPOINT_CONFIRM (R411): a C bundle that has begun and waited to lock its lines confirms. -/
def execCheckpointConfirm (s : State) : Host.Outcome State Fault Refusal :=
  match s.act with
  | some (.checkpointConfirm c) =>
    .next (s.onCore c fun t =>
      if t.core.phase = .begun ∧ bitAt t.core.header 31 then
        match t.confirm with
        | .made u => u
        | .waits => t.addDue [.checkpointConfirm c]
        | .replayed u => u
      else t)
  | _ => .next s

/-- Whether a sequencer is to have the anchor token (R224): its interval has failed renewal four times in a row. -/
def Core.wantsAnchor (x : Core) : Bool := decide (4 ≤ x.conflicts) && !x.anchored

/-- ANCHOR_TOKEN_GRANT: requests are granted in their order, to one sequencer at a time (R224). -/
def State.grantAnchor (s : State) (c : Nat) : State :=
  let q := if s.hub.anchorQ.contains c then s.hub.anchorQ else s.hub.anchorQ ++ [c]
  let q := q.filter fun n => (s.coreAt n).wantsAnchor
  match s.hub.anchor, q with
  | none, n :: rest =>
    ((s.withHub { s.hub with anchor := some (n, s.time, []), anchorQ := rest }).modCore n fun x => { x with anchored := true }).addDue
      [.anchorHoldExpiry n]
  | _, _ => s.withHub { s.hub with anchorQ := q }

/-- ANCHOR_TOKEN_GRANT (R224). -/
def execAnchorTokenGrant (s : State) : Host.Outcome State Fault Refusal :=
  match s.act with
  | some (.anchorTokenGrant c) => .next (s.grantAnchor c)
  | _ => .next s

/-- ANCHOR_HOLD_EXPIRY (R224): 16,384 cycles after the grant the holds drop and the token returns. -/
def execAnchorHoldExpiry (s : State) : Host.Outcome State Fault Refusal :=
  match s.act with
  | some (.anchorHoldExpiry c) =>
    match s.hub.anchor with
    | some (o, g, _) =>
      if o ≠ c then .next s
      else if g + 16384 ≤ s.time then .next (s.dropAnchor c)
      else .next (s.addDue [.anchorHoldExpiry c])
    | none => .next s
  | _ => .next s

/-- ROLLBACK (R415): a replay without record, or a trap of the bundle at the program counter. -/
def execRollback (s : State) : Host.Outcome State Fault Refusal :=
  match s.act with
  | some (.rollback c k addr) =>
    .next (s.onCore c fun t =>
      if t.core.unit.isNone ∧ c ≠ rangerId then t
      else if k = .leaseConflict ∨ k = .xlinvReplay then t.replay k
      else t.takeTrap { cause := k, addr := addr, faultb := t.core.arch.pc, header := t.core.header })
  | _ => .next s

/-- PREEMPTION (R420, R421): the unit leaves immediately before a Q bundle, when it is to leave. -/
def execPreemption (s : State) : Host.Outcome State Fault Refusal :=
  match s.act with
  | some (.preemption c) =>
    .next (s.onCore c fun t =>
      let ready := decide (t.core.phase = .fresh) && t.core.unit.isSome && bitAt t.nextHeader 30 && t.core.fence.isNone
      if ready && t.leaves && !t.cancelling t.core.hold && decide (t.core.writesInFlight ≤ 64) then t.preemptNow else t)
  | _ => .next s

/-- QBOUND_STALL_LIMIT (R419): a stall without Q ends, when its limit has passed, a unit being cancelled, and traps one to be
pre-empted. -/
def execQboundStallLimit (s : State) : Host.Outcome State Fault Refusal :=
  match s.act with
  | some (.qboundStallLimit c) =>
    .next (s.onCore c fun t =>
      let x := t.core
      if x.stallFrom.isNone ∨ bitAt x.header 30 then t
      else if t.time < x.stallFrom.getD t.time + 64 * x.qBound then t.addDue [.qboundStallLimit c]
      else if t.cancelling x.hold then t.cancelNow
      else if t.leaves then t.takeTrap { cause := .qboundOver, mask := 1#12, faultb := x.arch.pc, header := x.header }
      else t)
  | _ => .next s

/-! ### Selection (R288 to R290) -/

/-- The bundles that a core has issued while a unit was QUEUED on it. -/
def State.queuedFor (s : State) (c : Nat) (x : Uni) : Nat := x.aged + ((s.coreAt c).issuedN - x.stamp)

/-- Effective priority (R288): it rises with the bundles issued while the unit is QUEUED, to at most 2; a handler goes ahead of every other unit
(R356). -/
def State.effPrio (s : State) (c : Nat) (x : Uni) : Nat :=
  if x.handler.isSome then 4 else if x.prio = 3 then 3 else min 2 (x.prio + s.queuedFor c x / 2 ^ (s.partAt x.part).age)

/-- Whether the allowance of a unit's job is positive and admission has resumed (R290, R382); a home account of another package has none here. -/
def State.funded (s : State) (x : Uni) : Bool :=
  x.handler.isSome || decide (s.hub.modeDisp = 2#2) || !x.hold.valid || decide (x.hold.pkg ≠ s.fabric.num)
    || (let a := s.accAt (s.jobOf (accId x.hold.acct) 16384); !a.stopped && decide (0 < a.allow.toInt))

/-- Whether selection considers a queued unit (R290, R350, R396, R447); one whose home account is cancelling is discarded (R282). -/
def State.considered (s : State) (x : Uni) : Bool :=
  s.funded x && !s.cancelling x.hold && !s.hub.noAdmit && (decide (s.hub.modeDisp ≠ 3#2) || x.handler.isSome)
    && decide ((s.partAt x.part).st ≠ 2#2)

/-- The queued units of a core that selection considers, in queue order. -/
def State.candidates (s : State) (c : Nat) : List (Nat × Uni) :=
  (s.coreAt c).queue.filterMap fun u => (s.unitAt u).bind fun x => if s.considered x then some (u, x) else none

/-- The candidate of highest effective priority, the first among equals. -/
def State.selected (s : State) (c : Nat) : Option (Nat × Uni) :=
  match s.candidates c with
  | [] => none
  | u :: us => some (us.foldl (fun b v => if s.effPrio c b.2 < s.effPrio c v.2 then v else b) u)

/-- The argument block of a unit (R77, R78, R292, R474): its words, or the fault of its page. -/
def State.argBlock (s : State) (c : Nat) (x : Uni) : Except (Cause × Word) (List Word) :=
  let words (b : Nat) : List Word := (upFrom 0 8).map fun i => BitVec.ofNat 64 (bits b (64 * i) 64)
  match x.argv, x.args with
  | some b, _ => .ok (words b.toNat)
  | none, none => .ok (words 0)
  | none, some va =>
    (s.hubSpan x.part (stackOf c) va 64).map fun pas => words (ofBytes (pas.map (cellAt s.mem)))

/-- Resident suspended units in a core's queue of a base priority below `n`, the lowest first (R290). -/
def State.victim (s : State) (c n : Nat) : Option Nat :=
  let us := (s.coreAt c).queue.filterMap fun u => (s.unitAt u).bind fun x => if x.ctx.isSome ∧ 0 < x.rows ∧ x.prio < n then some (u, x.prio) else none
  match us with
  | [] => none
  | u :: rest => some (rest.foldl (fun b v => if v.2 < b.2 then v else b) u).1

/-- A unit that has been selected and admitted: rows reserved, shadow loaded (R22, R284, R474). -/
def State.admitUnit (s : State) (c u : Nat) (x : Uni) : State :=
  let s1 := if 0 < x.rows then s else s.giveRows u c x.decl.rows
  let s2 := s1.modUnit u fun y =>
    { y with st := .standby, rank := some (x.rank.getD s.hub.nextRank), admitN := s.hub.nextRank, aged := s.queuedFor c x }
  let s3 := s2.withHub { s2.hub with nextRank := s2.hub.nextRank + 1 }
  let s4 := s3.unspill u
  let block := if x.ctx.isSome then .ok [] else s4.argBlock c x
  let s5 := match block with
    | .ok ws => s4.modCore c fun k => { k with queue := k.queue.erase u, standby := some u, shadowS := ws }
    | .error f => (s4.modUnit u fun y => { y with argFault := some f }).modCore c fun k =>
        { k with queue := k.queue.erase u, standby := some u, shadowS := List.replicate 8 0#64 }
  s5.addDue [.unitStart c]

/-- A base-3 unit that is selected pre-empts a running unit of a lower base priority (R289). -/
def State.pressRunning (s : State) (c : Nat) : State :=
  match (s.coreAt c).unit.bind s.unitAt with
  | some r =>
    if r.prio < 3 ∧ (s.coreAt c).preempt.isNone then
      (s.modCore c fun k => { k with preempt := some .priority }).addDue [.preemption c]
    else s
  | none => s

/-- UNIT_ADMIT (R284, R288 to R290). -/
def State.admitNext (s : State) (c : Nat) : State :=
  match s.selected c with
  | none => s
  | some (u, x) =>
    let standby := (s.coreAt c).standby.bind s.unitAt
    let s0 := if x.prio = 3 then s.pressRunning c else s
    let s1 := match standby with
      | some y => if x.prio = 3 ∧ y.prio < 3 then s0.demote c else s0
      | none => s0
    if (s1.coreAt c).standby.isSome then s1
    else if 0 < x.rows ∨ x.decl.rows = 0 ∨ s1.rowsFit c x.decl.rows then s1.admitUnit c u x
    else
      match s1.victim c x.prio with
      | some v => (s1.spill v).respot v
      | none => s1

/-- UNIT_ADMIT (R290): a queue that gained room also takes in the messages that wait at the core (R300). -/
def execUnitAdmit (s : State) : Host.Outcome State Fault Refusal :=
  match s.act with
  | some (.unitAdmit c) => .next ((s.admitNext c).drainMsgs c)
  | _ => .next s

/-- UNIT_AGE (R288): a queued unit's effective priority has risen, and selection is made anew. -/
def execUnitAge (s : State) : Host.Outcome State Fault Refusal :=
  match s.act with
  | some (.unitAge c) => .next (s.admitNext c)
  | _ => .next s

/-! ### Start, resume and end -/

/-- UNIT_START (R284): the standby unit runs once the core is free: from its entry bundle, or from its context. -/
def State.startNext (s : State) (c : Nat) : State :=
  let x := s.coreAt c
  match x.unit, x.standby with
  | none, some u =>
    match s.unitAt u with
    | none => s
    | some y =>
      if s.cancelling y.hold then s.discard u
      else if s.hub.noAdmit then s.addDue [.unitStart c] else if y.ctx.isSome then s.addDue [.resumeUnit c] else (s.startFresh c u y).addDue [.unitAdmit c]
  | _, _ => s

/-- UNIT_START (R284). -/
def execUnitStart (s : State) : Host.Outcome State Fault Refusal :=
  match s.act with
  | some (.unitStart c) => .next (s.startNext c)
  | _ => .next s

/-- Channels that were still walking go on once their unit is back on a core, and so does its sparse-index engine (R187,
R250). -/
def State.wakeEngines (s : State) (u : Nat) : State :=
  let e := s.engOf u
  let ns := (upFrom 0 8).filter fun n => (vget {} e.chans n).walking || (vget {} e.chans n).pending.isSome
  s.addDue ((ns.map fun n => Action.channelTakeRecord u n) ++ (ns.map fun n => Action.channelShadowStart u n)
    ++ (if e.six.run.isSome then [.sixPush u] else if e.six.shadow.isSome then [.sixOpStart u] else []))

/-- RESUME (R423): once every circuit that the pre-emption ended has its final count, or has waited for it as long as it may (R341). -/
def execResumeUnit (s : State) : Host.Outcome State Fault Refusal :=
  match s.act with
  | some (.resumeUnit c) =>
    let x := s.coreAt c
    match x.unit, x.standby with
    | none, some u =>
      match s.unitAt u with
      | some y =>
        .next (if s.cancelling y.hold then s.discard u
          else if y.ctx.isNone then s
          else if y.eng.gl.toList.all GlHandle.over then ((s.resumeOn c u y).wakeEngines u).addDue [.unitAdmit c]
          else s.addDue [.resumeUnit c])
      | none => .next s
    | _, _ => .next s
  | _ => .next s

/-- UNIT_CANCEL_STOP (R282): the dispatcher discards a unit that is not running and returns its tokens; a running one stops
before its next Q bundle, or when its stall reaches its limit. -/
def execUnitCancelStop (s : State) : Host.Outcome State Fault Refusal :=
  match s.act with
  | some (.unitCancelStop u) =>
    .next (s.discard u)
  | _ => .next s

/-- FREED_ROWS_ZEROED (R285): rows that the evacuation engine has zeroed count as free. -/
def execFreedRowsZeroed (s : State) : Host.Outcome State Fault Refusal :=
  match s.act with
  | some (.freedRowsZeroed c n) =>
    let left := NatMap.findD 0 c s.hub.freedRows - n
    .next ((s.withHub { s.hub with freedRows := NatMap.putD 0 c left s.hub.freedRows }).addDue [.unitAdmit c])
  | _ => .next s

end Sys2Proof.Machine
end

