-- ==== Sys2Proof/Machine/Engines.lean ====
section
/-! DEFINITION. The engine registers (R162 to R164), the starts and controls of copy channels (R250, R251, R253), and the
sparse-index engine (R183 to R188). -/

namespace Sys2Proof.Machine

/-! ### Engine registers (R162 to R165, R183) -/

/-- A write of a stream register, SIXSRC or SIXCFG (R163): RZ bits are stored as zero. -/
def State.engWrite (s : State) (e : BitVec 8) (v : BitVec 128) : State :=
  let x := s.core
  let n := e.toNat
  if n < 0x40 then
    let m := streamMask (n % 4)
    let g := setField (vget 0#512 x.arch.g (n / 4)) (128 * (n % 4)) 128 (v &&& m).toNat
    (s.withCore { x with arch := { x.arch with g := vput x.arch.g (n / 4) g, snapOk := vput x.arch.snapOk (n / 4) false } }).engineRz
      (decide (v &&& ~~~m ≠ 0#128))
  else if n = 0x60 then s.withCore { x with arch := { x.arch with sixsrc := v } }
  else if n = 0x61 then
    (s.withCore { x with arch := { x.arch with sixcfg := v &&& sixMask } }).engineRz (decide (v &&& ~~~sixMask ≠ 0#128))
  else s

/-- An engine register as ENGRD reads it (R162). -/
def State.engRead (s : State) (e : BitVec 8) : BitVec 128 :=
  let x := s.core
  let n := e.toNat
  if n < 0x40 then BitVec.ofNat 128 (fld (vget 0#512 x.arch.g (n / 4)) (128 * (n % 4)) 128)
  else if n < 0x60 then (vget {} x.chans ((n - 0x40) / 4)).reg (n % 4)
  else if n = 0x60 then x.arch.sixsrc
  else if n = 0x61 then x.arch.sixcfg
  else if n = 0x62 then x.six.stat
  else (vget {} x.gl (n - 0x70)).reg s.time

/-- Two scalar registers as the 128 bits of an engine register. -/
def State.pair (s : State) (a b : BitVec 6) : BitVec 128 := s.core.arch.sreg b ++ s.core.arch.sreg a

/-- ENGWR (R163). -/
def execEngwr (p : BitVec 3) (e : BitVec 8) (a b : BitVec 6) (s : State) : Host.Outcome State Fault Refusal :=
  s.issue p [] fun s => pure (s.engWrite e (s.pair a b))

/-- ENGRD (R164). -/
def execEngrd (p : BitVec 3) (e : BitVec 8) (a b : BitVec 6) (s : State) : Host.Outcome State Fault Refusal :=
  s.issue p [] fun s => do
    let v := s.engRead e
    let t ← s.resultS false a 4 (v.setWidth 64)
    t.resultS false b 4 ((v >>> 64).setWidth 64)

/-! ### Channel control (R250, R253) -/

/-- What resumes a faulted transfer: its chunks not yet performed, its reservation, or its end. -/
def State.resumeXfer (s : State) (x : Nat) : State :=
  match s.xferAt x with
  | none => s
  | some t =>
    let s1 := s.setXfer x { t with faulted := false }
    s1.addDue (if ¬ t.started then [.ringReserve x] else if t.todo.isEmpty then [.recordComplete x] else t.todo.map fun lo => Action.chunkPerform x lo)

/-- ERRCLR: ERROR is cleared and the faulted records resume, or the record at HEAD is read again (R253). -/
def State.errClear (s : State) (u n : Nat) : State :=
  let c := s.chanAt u n
  if ¬ c.error then s
  else
    let s1 := (s.setChan u n { c with error := false, faulted := [] }).each State.resumeXfer c.faulted
    s1.addDue ((if c.walking then [.channelTakeRecord u n] else []) ++ (if c.pending.isSome then [.channelShadowStart u n] else []))

/-- RESUME: a parked channel reads the record at HEAD again (R250). -/
def State.unpark (s : State) (u n : Nat) : State :=
  let c := s.chanAt u n
  if c.parked then (s.setChan u n { c with parked := false, walking := true }).addDue [.channelTakeRecord u n] else s

/-- A write of CHnCTL (R250). -/
def State.chanControl (s : State) (n : BitVec 3) (v : BitVec 128) : State :=
  let u := s.core.self
  let s1 := if bitAt v 0 then s.errClear u n.toNat else s
  let s2 := if bitAt v 1 then s1.unpark u n.toNat else s1
  s2.engineRz (decide (fld v 2 126 ≠ 0))

/-- CH_ERRCLR: a write of CHnCTL (R253). -/
def execChErrclr (p n : BitVec 3) (a b : BitVec 6) (s : State) : Host.Outcome State Fault Refusal :=
  s.issue p [] fun s => pure (s.chanControl n (s.pair a b))

/-- CH_RESUME: a write of CHnCTL (R250). -/
def execChResume (p n : BitVec 3) (a b : BitVec 6) (s : State) : Host.Outcome State Fault Refusal :=
  s.issue p [] fun s => pure (s.chanControl n (s.pair a b))

/-- Whether a channel can begin a chain at once (R251). -/
def Chan.free (c : Chan) : Bool := !c.walking && c.owned.isEmpty && !c.error

/-- CPYGO (R251). -/
def execCpygo (p n : BitVec 3) (a b : BitVec 6) (s : State) : Host.Outcome State Fault Refusal :=
  s.issue p [] fun s => do
    let head := s.core.arch.sreg a
    let limit := (s.core.arch.sreg b).setWidth 32
    let u := s.core.self
    need s.core.hold.valid .weightNone
    aligned 64 [head]
    if (s.chanAt u n.toNat).pending.isSome then .error (.wait [.channelShadowStart u n.toNat])
    else do
      let (t, s1) ← s.splitHere
      let c := s1.chanAt u n.toNat
      let c1 := { c with toks := c.toks ++ [t] }
      pure (if c.free then (s1.setChan u n.toNat (c1.startChain head limit)).addDue [.channelTakeRecord u n.toNat]
        else s1.setChan u n.toNat { c1 with pending := some (head, limit) })

/-! ### The sparse-index engine (R183 to R188) -/

/-- MODE. -/
def SixOp.mode (o : SixOp) : Nat := fld o.cfg 0 2
/-- QUEUE. -/
def SixOp.queue (o : SixOp) : Nat := fld o.cfg 2 3
/-- RATE. -/
def SixOp.rate (o : SixOp) : Nat := fld o.cfg 5 3
/-- LEN. -/
def SixOp.len (o : SixOp) : Nat := fld o.src 64 64

/-- The offset of a position (R185). -/
def SixOp.offset (o : SixOp) (i : Nat) : BitVec 32 := BitVec.ofNat 32 (fld o.cfg 64 32 + i * fld o.cfg 96 32)

/-- The sparse-index engine of a unit. -/
def State.sixAt (s : State) (u : Nat) : Six := (s.engOf u).six

/-- The sparse-index engine of a unit replaced. -/
def State.setSix (s : State) (u : Nat) (x : Six) : State := s.modEng u fun e => { e with six := x }

/-- SIXGO (R184): SIXSRC takes the operands, and the operation waits in the shadow set. -/
def execSixgo (p : BitVec 3) (a b : BitVec 6) (s : State) : Host.Outcome State Fault Refusal :=
  s.issue p [] fun s => do
    let src := s.pair a b
    let cfg := s.core.arch.sixcfg
    let u := s.core.self
    need (s.core.hasQueue (BitVec.ofNat 3 (fld cfg 2 3))) .queueUndeclared
    if s.core.six.shadow.isSome then .error (.wait [.sixOpStart u])
    else
      let x := s.core
      pure ((s.withCore { x with arch := { x.arch with sixsrc := src }, six := { x.six with shadow := some (src, cfg) } }).addDue [.sixOpStart u])

/-- SIX_OP_START (R184, R187, R188): the waiting operation of a unit on its core begins once none runs; a refused MODE ends it in error. -/
def State.startSix (s : State) (u : Nat) : State :=
  let x := s.sixAt u
  match x.run, (if (s.runsOn u).isSome then x.shadow else none) with
  | none, some (src, cfg) =>
    let y : Six := { x with emitted := 0#32, consumed := 0#32, error := false, shadow := none }
    if 2 ≤ fld cfg 0 2 then
      (s.setSix u { y with error := true }).event .sixFormat 0 (((s.runsOn u).getD rangerId)) (some (s.unitPart u)) (BitVec.ofNat 64 (fld src 0 64))
    else
      (s.setSix u { y with run := some { src := src, cfg := cfg, pos := 0, bytePos := 0, runLeft := 0, lanes := [] } }).addDue [.sixPush u]
  | _, _ => s

/-- What reading on comes to: more to read, an entry's worth of offsets, the end of the metadata, or a fault. -/
inductive SixRead where
  | more (o : SixOp)
  | full (o : SixOp)
  | over (o : SixOp)
  | fault (o : SixOp) (k : Cause) (addr : Word)

/-- `n` bytes of metadata at a position: in the raw region, or in device memory (R183). -/
def State.sixBytes (s : State) (u c : Nat) (o : SixOp) (i n : Nat) : Except (Cause × Word) Nat :=
  let a := BitVec.ofNat 64 (fld o.src 0 64) + BitVec.ofNat 64 i
  if bitAt o.cfg 8 then .ok (ofBytes (s.padRead u a.toNat n))
  else
    match s.weakRead c (s.unitPart u) a n with
    | .error e => .error e
    | .ok pas => .ok (ofBytes (pas.map (cellAt s.mem)))

/-- Bitmap metadata read on, a bit at a time (R185). -/
def State.readBits (s : State) (u c : Nat) : Nat → SixOp → SixRead
  | 0, o => .more o
  | n + 1, o =>
    if 128 ≤ o.lanes.length then .full o
    else if o.len ≤ o.pos / 8 then .over o
    else
      match s.sixBytes u c o (o.pos / 8) 1 with
      | .error e => .fault o e.1 e.2
      | .ok b =>
        State.readBits s u c n
          { o with
            pos := o.pos + 1, bytePos := o.pos / 8 + 1,
            lanes := if b.testBit (o.pos % 8) then o.lanes ++ [o.offset o.pos] else o.lanes }

/-- Run-length metadata read on, a position or a record at a time (R185). -/
def State.readRuns (s : State) (u c : Nat) : Nat → SixOp → SixRead
  | 0, o => .more o
  | n + 1, o =>
    if 128 ≤ o.lanes.length then .full o
    else if 0 < o.runLeft then
      State.readRuns s u c n { o with pos := o.pos + 1, runLeft := o.runLeft - 1, lanes := o.lanes ++ [o.offset o.pos] }
    else if o.len < o.bytePos + 4 then .over o
    else
      match s.sixBytes u c o o.bytePos 4 with
      | .error e => .fault o e.1 e.2
      | .ok r => State.readRuns s u c n { o with pos := o.pos + bits r 0 16, runLeft := bits r 16 16, bytePos := o.bytePos + 4 }

/-- An entry of offsets: lane 0 upward, the rest zero, with the mask of its lanes (R186). -/
def sixEntry (ls : List (BitVec 32)) : QEntry :=
  { val := .vector (laneTab fun i => ls.getD i 0#32), mask := BitVec.ofNat 128 (2 ^ min 128 ls.length - 1), filled := true, kind := .six, id := 0,
    old := false, req := none }

/-- Whether the engine may push an entry of `n` offsets: its queue holds fewer than 16, the pushes in flight
counted, and its rate allows it (R186). -/
def Core.sixMay (x : Core) (o : SixOp) (n : Nat) : Bool :=
  decide ((x.queueAt (BitVec.ofNat 3 o.queue)).entries.length
      + (x.flights.filter fun f => decide (f.dest = .queue (BitVec.ofNat 3 o.queue))).length < 16)
    && decide ((n + 2 ^ o.rate - 1) / 2 ^ o.rate ≤ x.six.since)

/-- An entry pushed by the engine of the unit on core `c`. -/
def State.pushSix (s : State) (c : Nat) (o : SixOp) : State :=
  s.modCore c fun x =>
    { (x.pushEntry (BitVec.ofNat 3 o.queue) (sixEntry o.lanes)) with
      six := { x.six with emitted := x.six.emitted + BitVec.ofNat 32 o.lanes.length, since := 0 } }

/-- The end of an operation (R186, R188): metadata that is not whole records is an error; the next operation may start. -/
def State.endSix (s : State) (u c : Nat) (o : SixOp) : State :=
  let x := s.sixAt u
  let bad := decide (o.mode = 1) && decide (o.len % 4 ≠ 0)
  let s1 := (s.setSix u { x with run := none, error := bad }).addDue [.sixOpStart u]
  if bad then s1.event .sixFormat 0 c (some (s.unitPart u)) (BitVec.ofNat 64 (fld o.src 0 64)) else s1

/-- What reading metadata leaves of the core's leaves and of a region (R211, R361). -/
def State.noteSix (s : State) (u c : Nat) (o : SixOp) : State :=
  let a := BitVec.ofNat 64 (fld o.src 0 64 + o.bytePos)
  match (if bitAt o.cfg 8 then .error (.translation, a) else s.weakRead c (s.unitPart u) a 1) with
  | .ok pas => s.noteRead c (s.unitPart u) a pas
  | .error _ => s

/-- SIX_PUSH (R185 to R187): the engine of a unit on its core reads on, and pushes when an entry is full or the metadata ends. -/
def State.runSix (s : State) (u : Nat) : State :=
  match s.runsOn u with
  | none => s
  | some c =>
    match (s.sixAt u).run with
    | none => s
    | some o =>
      let s := s.noteSix u c o
      let keep (o : SixOp) : State := s.setSix u { (s.sixAt u) with run := some o, consumed := BitVec.ofNat 32 o.bytePos }
      match (if o.mode = 0 then s.readBits u c 1024 o else s.readRuns u c 1024 o) with
      | .more o => (keep o).addDue [.sixPush u]
      | .fault o k a => (keep o).addDue [.sixFault u k a]
      | .full o =>
        if (s.coreAt c).sixMay o 128 then (((keep { o with lanes := [] }).pushSix c o)).addDue [.sixPush u]
        else (keep o).addDue [.sixPush u]
      | .over o =>
        if (s.coreAt c).sixMay o o.lanes.length then ((keep o).pushSix c o).endSix u c o
        else (keep o).addDue [.sixPush u]

/-- SIX_OP_START (R184). -/
def execSixOpStart (s : State) : Host.Outcome State Fault Refusal :=
  match s.act with
  | some (.sixOpStart u) => .next (s.startSix u)
  | _ => .next s

/-- SIX_PUSH (R186). -/
def execSixPush (s : State) : Host.Outcome State Fault Refusal :=
  match s.act with
  | some (.sixPush u) => .next (s.runSix u)
  | _ => .next s

/-- SIX_FAULT (R188): the operation of a unit on its core (off it, the engine has stopped and meets the fault again, R187) ends in error with a weak trap record of the sparse-index engine. -/
def execSixFault (s : State) : Host.Outcome State Fault Refusal :=
  match s.act with
  | some (.sixFault u k a) =>
    let x := s.sixAt u
    if x.run.isNone ∨ (s.runsOn u).isNone then .next s
    else
      let t := (s.setSix u { x with run := none, error := true }).addDue [.sixOpStart u]
      .next (if k = .eccUncorrected then t.eccStop (s.holdOf u) (s.unitPart u) a.toNat
        else t.engineTrap u (s.unitPart u) { cause := k, addr := a, engine := 3, weak := true })
  | _ => .next s

end Sys2Proof.Machine
end

