-- ==== Sys2Proof/WellFormed.lean ====
section
/-! DEFINITION. When an instruction by itself is legal: conditions 3 and 4 of R54 on its own fields, over its shape. -/

namespace Sys2Proof

/-- Whether an operand code is legal in a field of a class (R39, R40). The literal's L bit is a matter of the bundle. -/
def Src.legal (c : Cls) (s : Src) : Bool :=
  match c, s with
  | .s, .reg _ | .s, .latch _ | .s, .pop _ | .s, .peek _ | .s, .imm _ => true
  | .s, .special n => decide (n ≠ 2#3) && decide (n ≠ 3#3)
  | .v, _ => true
  | .m, .reg n | .p, .reg n => decide (n.toNat < 8)
  | .m, .special n | .p, .special n => decide (n.toNat < 2)
  | .m, _ | .p, _ => false
  | .a, .reg n | .q, .reg n => decide (n.toNat < 8)
  | .g, .reg n => decide (n.toNat < 16)
  | .a, _ | .q, _ | .g, _ => false

/-- How many registers a destination class has (R20, R39). -/
def Cls.count : Cls → Nat
  | .s | .v => 64
  | .m | .p | .a | .q => 8
  | .g => 16

/-- Whether every operand code of a list is legal for its class. -/
def srcsLegal : List (Cls × Src) → Bool
  | [] => true
  | x :: xs => x.2.legal x.1 && srcsLegal xs

/-- Whether every destination number of a list exists. -/
def dstsLegal : List (Cls × BitVec 6) → Bool
  | [] => true
  | x :: xs => decide (x.2.toNat < x.1.count) && dstsLegal xs

/-- NOWB used as R47 allows: the destination field is zero, but in the three-input forms. -/
def nowbLegal (h : Shape) : Bool :=
  match h.nowb with
  | some true => h.third || decide (h.dfield = 0#6)
  | some false | none => true

/-- Conditions 3 and 4 of R54 on the instruction's own fields. -/
def Instr.wf (i : Instr) : Bool :=
  i.shape.ok && srcsLegal i.shape.srcs && dstsLegal i.shape.dsts && nowbLegal i.shape

end Sys2Proof
end

