-- ==== Sys2Proof/Decode.lean ====
section
/-! DEFINITION. The decoder of slot words and, after it, the encoder, both written from the slot formats (R36), the operand
codes (R39) and the opcode maps (R58 to R64). A word that is no instruction is rejected by a named reason (R54,
conditions 2 and 3). -/

namespace Sys2Proof

/-- Why a slot word is no instruction (R54). -/
inductive DecodeError where
  /-- The opcode is unassigned in the slot class. -/
  | opcode
  /-- The type or sub-operation code traps. -/
  | subtype
  /-- A reserved bit or selector is used. -/
  | reserved
deriving DecidableEq, Repr

/-! ### Fields of a word (R36) -/

/-- Opcode `[31:24]`. -/
def fOp (w : BitVec 32) : BitVec 8 := w.extractLsb' 24 8
/-- Opcode row `[31:27]`. -/
def fRow (w : BitVec 32) : BitVec 5 := w.extractLsb' 27 5
/-- Type or sub-operation code `[26:24]`. -/
def fT (w : BitVec 32) : BitVec 3 := w.extractLsb' 24 3
/-- Predicate or lane mask `[23:21]`. -/
def fP (w : BitVec 32) : BitVec 3 := w.extractLsb' 21 3
/-- NOWB `[20]`. -/
def fW (w : BitVec 32) : Bool := w.getLsbD 20
/-- Destination `[19:14]`. -/
def fD (w : BitVec 32) : BitVec 6 := w.extractLsb' 14 6

/-- The operand code of a source (R39). -/
def Src.code : Src → BitVec 7
  | .reg n => 0#1 ++ n
  | .latch n => 0x8#4 ++ n
  | .pop n => 0x9#4 ++ n
  | .peek n => 0xA#4 ++ n
  | .special n => 0xB#4 ++ n
  | .imm n => 3#2 ++ (n ^^^ 0x10#5)

/-- The source an operand code names (R39); a small immediate holds its value, which is the code less 112. -/
def Src.ofCode (c : BitVec 7) : Src :=
  if c.getLsbD 6 = false then .reg (c.extractLsb' 0 6)
  else if c.getLsbD 5 = true then .imm (c.extractLsb' 0 5 ^^^ 0x10#5)
  else
    match c.extractLsb' 3 2 with
    | 0#2 => .latch (c.extractLsb' 0 3)
    | 1#2 => .pop (c.extractLsb' 0 3)
    | 2#2 => .peek (c.extractLsb' 0 3)
    | _ => .special (c.extractLsb' 0 3)

/-- Source one `[13:7]`. -/
def fA (w : BitVec 32) : Src := Src.ofCode (w.extractLsb' 7 7)
/-- Source two `[6:0]`. -/
def fB (w : BitVec 32) : Src := Src.ofCode (w.extractLsb' 0 7)
/-- The count operand of LOOP `[20:14]`. -/
def fC (w : BitVec 32) : Src := Src.ofCode (w.extractLsb' 14 7)

/-! ### Type codes (R59, R60, R63, R122) -/

/-- The code of a type. -/
def VType.code : VType → BitVec 3
  | .f32 => 0#3
  | .bf16 => 1#3
  | .f16 => 2#3
  | .i32 => 3#3
  | .n32 => 4#3
  | .i16 => 5#3
  | .n16 => 6#3
  | .i8 => 7#3
/-- The type of a code. -/
def VType.ofCode (c : BitVec 3) : VType :=
  match c with
  | 0#3 => .f32
  | 1#3 => .bf16
  | 2#3 => .f16
  | 3#3 => .i32
  | 4#3 => .n32
  | 5#3 => .i16
  | 6#3 => .n16
  | _ => .i8

/-- The code of a type. -/
def IType.code : IType → BitVec 2
  | .i64 => 0#2
  | .n64 => 1#2
  | .i32 => 2#2
  | .n32 => 3#2
/-- The type of a code. -/
def IType.ofCode (c : BitVec 2) : IType :=
  match c with
  | 0#2 => .i64
  | 1#2 => .n64
  | 2#2 => .i32
  | _ => .n32

/-- The code of a type. -/
def StTy.code : StTy → BitVec 2
  | .n8 => 0#2
  | .n16 => 1#2
  | .n32 => 2#2
  | .n64 => 3#2
/-- The type of a code. -/
def StTy.ofCode (c : BitVec 2) : StTy :=
  match c with
  | 0#2 => .n8
  | 1#2 => .n16
  | 2#2 => .n32
  | _ => .n64

/-- The code of a type. -/
def Gang.code : Gang → BitVec 2
  | .g88 => 0#2
  | .g84 => 1#2
  | .g66 => 2#2
  | .g44 => 3#2
/-- The type of a code. -/
def Gang.ofCode (c : BitVec 2) : Gang :=
  match c with
  | 0#2 => .g88
  | 1#2 => .g84
  | 2#2 => .g66
  | _ => .g44

/-- The code of a type. -/
def LdTy.code : LdTy → BitVec 3
  | .i8 => 0#3
  | .n8 => 1#3
  | .i16 => 2#3
  | .n16 => 3#3
  | .i32 => 4#3
  | .n32 => 5#3
  | .i64 => 6#3

/-- The code of a type. -/
def GaTy.code : GaTy → BitVec 3
  | .n32 => 0#3
  | .n16 => 1#3
  | .n8 => 2#3

/-- The code of a type. -/
def XType.code : XType → BitVec 3
  | .toE4m3 => 0#3
  | .toE5m2 => 1#3
  | .toN8 => 2#3
  | .fromE4m3 => 3#3
  | .fromE5m2 => 4#3
  | .fromN8 => 5#3

/-- The code of a type. -/
def Round.code : Round → BitVec 3
  | .near => 0#3
  | .zero => 1#3
  | .up => 2#3
  | .down => 3#3
  | .stoch => 4#3

/-- The rounding mode of a selector's `[3:1]` (R60); codes 101 to 111 trap. -/
def Round.ofCode (c : BitVec 3) : Option Round :=
  match c with
  | 0#3 => some .near
  | 1#3 => some .zero
  | 2#3 => some .up
  | 3#3 => some .down
  | 4#3 => some .stoch
  | _ => none

/-- The opcode of a scalar floating form: rows 0x60 and 0x70 (R58). -/
def FFmt.op (f : FFmt) (n : BitVec 4) : BitVec 8 :=
  match f with
  | .f32 => 0x6#4 ++ n
  | .f64 => 0x7#4 ++ n

/-- The opcode of a special-function form: rows 0x00 and 0x10 (R61). -/
def FTy.op (t : FTy) (n : BitVec 4) : BitVec 8 :=
  match t with
  | .f32 => 0x0#4 ++ n
  | .bf16 => 0x1#4 ++ n

/-- The value of a source that is fixed in the word: a small immediate, zero or one. -/
def Src.static : Src → Option Int
  | .imm n => some n.toInt
  | .special n => if n = 0#3 then some 0 else if n = 1#3 then some 1 else none
  | .reg _ | .latch _ | .pop _ | .peek _ => none

/-- `i`, unless a reserved bit of the word is set (R54, condition 3). -/
def rz (w mask : BitVec 32) (i : Instr) : Except DecodeError Instr :=
  if w &&& mask = 0#32 then .ok i else .error .reserved

/-- The rounding mode of the selector in source two, when it is one (R60). -/
def rnd (w : BitVec 32) (k : Round → Except DecodeError Instr) : Except DecodeError Instr :=
  match Round.ofCode (w.extractLsb' 1 3) with
  | some r => k r
  | none => .error .subtype

/-- The row of SPAWN_LAUNCH, SPAWN_UNIT that the fixed value of the operand names. -/
def spawnRow (p : BitVec 3) (w : Bool) (d : BitVec 6) (a : Src) (b : Src) : Instr :=
  match (if b.static = some 1 then 1 else 0 : Nat) with
  | 1 => .spawnUnit p w d a b
  | _ => .spawnLaunch p w d a b

/-- The row of PHASE_OPENG, PHASE_OPENP, PHASE_ADDL, PHASE_CLOSE, PHASE_RELEASE that the fixed value of the operand names. -/
def phaseRow (p : BitVec 3) (w : Bool) (d : BitVec 6) (a : Src) (b : Src) : Instr :=
  match (match b.static with | some v => (BitVec.ofInt 4 v).toNat | none => 0 : Nat) with
  | 1 => .phaseOpenp p w d a b
  | 2 => .phaseAddl p w d a b
  | 3 => .phaseClose p w d a b
  | 4 => .phaseRelease p w d a b
  | _ => .phaseOpeng p w d a b

/-- The row of TRET_RETRY, TRET_SKIPK, TRET_END that the fixed value of the operand names. -/
def tretRow (p : BitVec 3) (a : Src) : Instr :=
  match (match a.static with | some v => (BitVec.ofInt 2 v).toNat | none => 0 : Nat) with
  | 1 => .tretSkipk p a
  | 2 => .tretEnd p a
  | _ => .tretRetry p a

/-- The row of RWAVE_READ, RWAVE_PARK, RWAVE_WAKE, RWAVE_MOVE that the fixed value of the operand names. -/
def rwaveRow (p : BitVec 3) (w : Bool) (d : BitVec 6) (a : Src) (b : Src) : Instr :=
  match (match b.static with | some v => (BitVec.ofInt 2 v).toNat | none => 0 : Nat) with
  | 1 => .rwavePark p w d a b
  | 2 => .rwaveWake p w d a b
  | 3 => .rwaveMove p w d a b
  | _ => .rwaveRead p w d a b

/-- The row of RHFRAME_SEND, RHFRAME_RECV that the fixed value of the operand names. -/
def rhframeRow (p : BitVec 3) (w : Bool) (d : BitVec 6) (a : Src) (b : Src) : Instr :=
  match (match b.static with | some v => (BitVec.ofInt 1 v).toNat | none => 0 : Nat) with
  | 1 => .rhframeRecv p w d a b
  | _ => .rhframeSend p w d a b

/-- The row of RACCT_CREATE, RACCT_ADD, RACCT_RELEASE, RACCT_CANCEL that the fixed value of the operand names. -/
def racctRow (p : BitVec 3) (w : Bool) (d : BitVec 6) (a : Src) (b : Src) : Instr :=
  match (match b.static with | some v => (BitVec.ofInt 2 v).toNat | none => 0 : Nat) with
  | 1 => .racctAdd p w d a b
  | 2 => .racctRelease p w d a b
  | 3 => .racctCancel p w d a b
  | _ => .racctCreate p w d a b

/-- The row that a word of `i` decodes to: where rows share one encoding, the row that the operand's fixed value names,
and the first of them when the operand is read at run time. -/
def Instr.canon : Instr → Instr
  | .nop => .nop
  | .add p w d a b => .add p w d a b
  | .sub p w d a b => .sub p w d a b
  | .and p w d a b => .and p w d a b
  | .or p w d a b => .or p w d a b
  | .xor p w d a b => .xor p w d a b
  | .andn p w d a b => .andn p w d a b
  | .shl p w d a b => .shl p w d a b
  | .shr p w d a b => .shr p w d a b
  | .sra p w d a b => .sra p w d a b
  | .rotr p w d a b => .rotr p w d a b
  | .min p w d a b => .min p w d a b
  | .minn p w d a b => .minn p w d a b
  | .max p w d a b => .max p w d a b
  | .maxn p w d a b => .maxn p w d a b
  | .sel p w d a b => .sel p w d a b
  | .mul p w d a b => .mul p w d a b
  | .mulh p w d a b => .mulh p w d a b
  | .mulhn p w d a b => .mulhn p w d a b
  | .clz p w d a => .clz p w d a
  | .popc p w d a => .popc p w d a
  | .bfx p w d a b => .bfx p w d a b
  | .bfi p w d a b => .bfi p w d a b
  | .cmpeq p w d a b => .cmpeq p w d a b
  | .cmpne p w d a b => .cmpne p w d a b
  | .cmplt p w d a b => .cmplt p w d a b
  | .cmpltn p w d a b => .cmpltn p w d a b
  | .cmple p w d a b => .cmple p w d a b
  | .cmplen p w d a b => .cmplen p w d a b
  | .pand p w d a b => .pand p w d a b
  | .por p w d a b => .por p w d a b
  | .pxor p w d a b => .pxor p w d a b
  | .adds2 p w d a b => .adds2 p w d a b
  | .adds3 p w d a b => .adds3 p w d a b
  | .adds6 p w d a b => .adds6 p w d a b
  | .adds10 p w d a b => .adds10 p w d a b
  | .mov p w d a => .mov p w d a
  | .addi p w d i => .addi p w d i
  | .andi p w d i => .andi p w d i
  | .ori p w d i => .ori p w d i
  | .xori p w d i => .xori p w d i
  | .shli p w d i => .shli p w d i
  | .shri p w d i => .shri p w d i
  | .srai p w d i => .srai p w d i
  | .cmpeqi p w a d i => .cmpeqi p w a d i
  | .cmplti p w a d i => .cmplti p w a d i
  | .movi p w d i => .movi p w d i
  | .fadd f p w d a b => .fadd f p w d a b
  | .fsub f p w d a b => .fsub f p w d a b
  | .fmul f p w d a b => .fmul f p w d a b
  | .ffma f p w d a b => .ffma f p w d a b
  | .fmin f p w d a b => .fmin f p w d a b
  | .fmax f p w d a b => .fmax f p w d a b
  | .fcmpeq f p w d a b => .fcmpeq f p w d a b
  | .fcmplt f p w d a b => .fcmplt f p w d a b
  | .fcmple f p w d a b => .fcmple f p w d a b
  | .fcvts f p w d a r => .fcvts f p w d a r
  | .fcvti f p w d a t r => .fcvti f p w d a t r
  | .fcvtf f p w d a t r => .fcvtf f p w d a t r
  | .vadd t p w d a b => .vadd t p w d a b
  | .vsub t p w d a b => .vsub t p w d a b
  | .vmul t p w d a b => .vmul t p w d a b
  | .vfma t p w d a b => .vfma t p w d a b
  | .vfms t p w d a b => .vfms t p w d a b
  | .vmin t p w d a b => .vmin t p w d a b
  | .vmax t p w d a b => .vmax t p w d a b
  | .vadds t p w d a b => .vadds t p w d a b
  | .vsubs t p w d a b => .vsubs t p w d a b
  | .vcmpeq t p w d a b => .vcmpeq t p w d a b
  | .vcmplt t p w d a b => .vcmplt t p w d a b
  | .vcmple t p w d a b => .vcmple t p w d a b
  | .vabs t p w d a => .vabs t p w d a
  | .vneg t p w d a => .vneg t p w d a
  | .vand p w d a b => .vand p w d a b
  | .vor p w d a b => .vor p w d a b
  | .vxor p w d a b => .vxor p w d a b
  | .vandn p w d a b => .vandn p w d a b
  | .vshl t p w d a b => .vshl t p w d a b
  | .vshr t p w d a b => .vshr t p w d a b
  | .vsel p w d a b => .vsel p w d a b
  | .vmov p w d a => .vmov p w d a
  | .vsplat p w d a => .vsplat p w d a
  | .vins p w d a b => .vins p w d a b
  | .vxtr w d a b => .vxtr w d a b
  | .vcvt t p w d a s r => .vcvt t p w d a s r
  | .vcvtx x p w d a s r n => .vcvtx x p w d a s r n
  | .vfxadd p w d a b => .vfxadd p w d a b
  | .vfxcvt p w d a b => .vfxcvt p w d a b
  | .vfxcvtf p w d a b => .vfxcvtf p w d a b
  | .vperm p w d a b => .vperm p w d a b
  | .vrot p w d a b => .vrot p w d a b
  | .vbcl p w d a b => .vbcl p w d a b
  | .vredadd t p w d a => .vredadd t p w d a
  | .vredmin t p w d a => .vredmin t p w d a
  | .vredmax t p w d a => .vredmax t p w d a
  | .vscan t p w d a => .vscan t p w d a
  | .vxcopy p w d a b => .vxcopy p w d a b
  | .vxrot p w d a b => .vxrot p w d a b
  | .vmand p w d a b => .vmand p w d a b
  | .vmor p w d a b => .vmor p w d a b
  | .vmxor p w d a b => .vmxor p w d a b
  | .vmandn p w d a b => .vmandn p w d a b
  | .vmnot p w d a => .vmnot p w d a
  | .vmpop w d a => .vmpop w d a
  | .exp2 t p w d a => .exp2 t p w d a
  | .log2 t p w d a => .log2 t p w d a
  | .exp t p w d a => .exp t p w d a
  | .log t p w d a => .log t p w d a
  | .rcp t p w d a => .rcp t p w d a
  | .rsqrt t p w d a => .rsqrt t p w d a
  | .sqrt t p w d a => .sqrt t p w d a
  | .tanh t p w d a => .tanh t p w d a
  | .sigmoid t p w d a => .sigmoid t p w d a
  | .erf t p w d a => .erf t p w d a
  | .sin t p w d a => .sin t p w d a
  | .cos t p w d a => .cos t p w d a
  | .div p w d a b => .div p w d a b
  | .mxpush p g d a => .mxpush p g d a
  | .mxshift p d a => .mxshift p d a
  | .mxacc p g d a b => .mxacc p g d a b
  | .mxaccx p g d a b => .mxaccx p g d a b
  | .mxdrain p d a b => .mxdrain p d a b
  | .mxzero p d => .mxzero p d
  | .mxswap p => .mxswap p
  | .ldq t p d a b => .ldq t p d a b
  | .ldqv p d a b => .ldqv p d a b
  | .gather t p d a b => .gather t p d a b
  | .lds p d a b => .lds p d a b
  | .ldss p d a b => .ldss p d a b
  | .sts p d a b => .sts p d a b
  | .stss p d a b => .stss p d a b
  | .st t p d a b => .st t p d a b
  | .stv p d a b => .stv p d a b
  | .scatter p d a b => .scatter p d a b
  | .pref p a b => .pref p a b
  | .prefs p a b => .prefs p a b
  | .smap p a b => .smap p a b
  | .sunmap p a => .sunmap p a
  | .swb p a => .swb p a
  | .sinv p a => .sinv p a
  | .put p a b => .put p a b
  | .get p w d a b => .get p w d a b
  | .aadd p w d a b => .aadd p w d a b
  | .afxadd p w d a b => .afxadd p w d a b
  | .afadd p w d a b => .afadd p w d a b
  | .amin p w d a b => .amin p w d a b
  | .amax p w d a b => .amax p w d a b
  | .aminn p w d a b => .aminn p w d a b
  | .amaxn p w d a b => .amaxn p w d a b
  | .aincb p w d a b => .aincb p w d a b
  | .acas p w d a b => .acas p w d a b
  | .aswap p w d a b => .aswap p w d a b
  | .aand p w d a b => .aand p w d a b
  | .aor p w d a b => .aor p w d a b
  | .axor p w d a b => .axor p w d a b
  | .post p s a b => .post p s a b
  | .br p d => .br p d
  | .call p d => .call p d
  | .ret p => .ret p
  | .jr p a => .jr p a
  | .loop p c l => .loop p c l
  | .leave p a => .leave p a
  | .qwait p q a => .qwait p q a
  | .cpywait p q a => .cpywait p q a
  | .cwait p c a => .cwait p c a
  | .fence p m => .fence p m
  | .fenceComplete => .fenceComplete
  | .bwait p s a => .bwait p s a
  | .spawnLaunch p w d a b => spawnRow p w d a b
  | .spawnUnit p w d a b => spawnRow p w d a b
  | .send p a b => .send p a b
  | .trig p a b => .trig p a b
  | .untrig p a => .untrig p a
  | .quiet p w d a => .quiet p w d a
  | .bar p w d a b => .bar p w d a b
  | .phaseOpeng p w d a b => phaseRow p w d a b
  | .phaseOpenp p w d a b => phaseRow p w d a b
  | .phaseAddl p w d a b => phaseRow p w d a b
  | .phaseClose p w d a b => phaseRow p w d a b
  | .phaseRelease p w d a b => phaseRow p w d a b
  | .cancel p a => .cancel p a
  | .yield p => .yield p
  | .exit p => .exit p
  | .accq p w d a b => .accq p w d a b
  | .glopen p w d a b => .glopen p w d a b
  | .glhold p a b => .glhold p a b
  | .glsend p a b => .glsend p a b
  | .glstat p w d a => .glstat p w d a
  | .glclose p a => .glclose p a
  | .engwr p e a b => if (e.extractLsb' 5 3) = 0x2#3 ∧ (e.extractLsb' 0 2) = 3#2 then .chErrclr p (e.extractLsb' 2 3) a b else .engwr p e a b
  | .chErrclr p n a b => .chErrclr p n a b
  | .chResume p n a b => .chErrclr p n a b
  | .engrd p e a b => .engrd p e a b
  | .cpygo p n a b => .cpygo p n a b
  | .sixgo p a b => .sixgo p a b
  | .sysrd p w d n => .sysrd p w d n
  | .syswr p n b => .syswr p n b
  | .syswrCkbound p b => .syswrCkbound p b
  | .syswrQbound p b => .syswrQbound p b
  | .syswrArith p b => .syswrArith p b
  | .syswrSrseed p b => .syswrSrseed p b
  | .syswrMode p b => .syswrMode p b
  | .trap p a => .trap p a
  | .tretRetry p a => tretRow p a
  | .tretSkipk p a => tretRow p a
  | .tretEnd p a => tretRow p a
  | .xlinv p a b => .xlinv p a b
  | .opreq p a b => .opreq p a b
  | .evac p w d a b => .evac p w d a b
  | .partq p w d a b => .partq p w d a b
  | .rvset p w d a b => .rvset p w d a b
  | .rfloor p w d a b => .rfloor p w d a b
  | .rheat p w d a b => .rheat p w d a b
  | .rwaveRead p w d a b => rwaveRow p w d a b
  | .rwavePark p w d a b => rwaveRow p w d a b
  | .rwaveWake p w d a b => rwaveRow p w d a b
  | .rwaveMove p w d a b => rwaveRow p w d a b
  | .revpost p a => .revpost p a
  | .rhframeSend p w d a b => rhframeRow p w d a b
  | .rhframeRecv p w d a b => rhframeRow p w d a b
  | .rsigchk p w d a => .rsigchk p w d a
  | .racctCreate p w d a b => racctRow p w d a b
  | .racctAdd p w d a b => racctRow p w d a b
  | .racctRelease p w d a b => racctRow p w d a b
  | .racctCancel p w d a b => racctRow p w d a b
  | .checkpointConfirm => .checkpointConfirm
  | .anchorTokenGrant => .anchorTokenGrant
  | .anchorHoldExpiry => .anchorHoldExpiry
  | .rollback => .rollback
  | .preemption => .preemption
  | .resumeUnit => .resumeUnit
  | .qboundStallLimit => .qboundStallLimit
  | .unitPlace => .unitPlace
  | .unitAdmit => .unitAdmit
  | .unitStart => .unitStart
  | .unitAge => .unitAge
  | .unitCancelStop => .unitCancelStop
  | .borrowRequest => .borrowRequest
  | .borrowReply => .borrowReply
  | .combinerAdd => .combinerAdd
  | .combinerFlushPeriod => .combinerFlushPeriod
  | .flushRequest => .flushRequest
  | .returnArrive => .returnArrive
  | .messageArrive => .messageArrive
  | .messageTimeout => .messageTimeout
  | .channelTakeRecord => .channelTakeRecord
  | .channelShadowStart => .channelShadowStart
  | .ringReserve => .ringReserve
  | .chunkPerform => .chunkPerform
  | .recordComplete => .recordComplete
  | .channelFault => .channelFault
  | .putGetRemoteFault => .putGetRemoteFault
  | .getComplete => .getComplete
  | .sixOpStart => .sixOpStart
  | .sixPush => .sixPush
  | .sixFault => .sixFault
  | .queueLoadFill => .queueLoadFill
  | .stashFill => .stashFill
  | .stashWriteback => .stashWriteback
  | .barrierArrival => .barrierArrival
  | .ptsTick => .ptsTick
  | .regionFtTimeout => .regionFtTimeout
  | .artUpdateEffect => .artUpdateEffect
  | .translationWalk => .translationWalk
  | .xlinvAck => .xlinvAck
  | .trailPacketDeliver => .trailPacketDeliver
  | .flowWindowBoundary => .flowWindowBoundary
  | .flowPromoteProbe => .flowPromoteProbe
  | .glopenComplete => .glopenComplete
  | .guylineSlotSend => .guylineSlotSend
  | .guylineFlitLand => .guylineFlitLand
  | .guylineAckArrive => .guylineAckArrive
  | .guylineLeaseExpire => .guylineLeaseExpire
  | .guylineFinalCount => .guylineFinalCount
  | .guylineFinalTimeout => .guylineFinalTimeout
  | .podBarrierCombine => .podBarrierCombine
  | .podBarrierResult => .podBarrierResult
  | .barTimeout => .barTimeout
  | .linkTraining => .linkTraining
  | .flitReceive => .flitReceive
  | .replayRequest => .replayRequest
  | .linkRetrain => .linkRetrain
  | .retrainEnd => .retrainEnd
  | .lightLoss => .lightLoss
  | .restripeComplete => .restripeComplete
  | .reconcile => .reconcile
  | .reconcileTimeout => .reconcileTimeout
  | .laserWakeRequest => .laserWakeRequest
  | .scrub => .scrub
  | .controlInterval => .controlInterval
  | .currentLimitEngage => .currentLimitEngage
  | .currentLimitLevel2 => .currentLimitLevel2
  | .thermalCrit => .thermalCrit
  | .logicStep => .logicStep
  | .sramUpstep => .sramUpstep
  | .stepwaitExpire => .stepwaitExpire
  | .evacRowMove => .evacRowMove
  | .stepSettle => .stepSettle
  | .drainComplete => .drainComplete
  | .eventRecordArrive => .eventRecordArrive
  | .boot => .boot
  | .hostHello => .hostHello
  | .hostGoodbye => .hostGoodbye
  | .sessionTimeout => .sessionTimeout
  | .hostLoad => .hostLoad
  | .hostStart => .hostStart
  | .hostLaunch => .hostLaunch
  | .hostJobCreate => .hostJobCreate
  | .hostJobAdd => .hostJobAdd
  | .hostJobRelease => .hostJobRelease
  | .hostJobCancel => .hostJobCancel
  | .hostAcctrd => .hostAcctrd
  | .hostPart => .hostPart
  | .hostPodmap => .hostPodmap
  | .hostCap => .hostCap
  | .hostMode => .hostMode
  | .hostEvents => .hostEvents
  | .hostCounters => .hostCounters
  | .hostAttest => .hostAttest
  | .hostSafeckpt => .hostSafeckpt
  | .ckptBlockAck => .ckptBlockAck
  | .hostCkptstat => .hostCkptstat
  | .hostReset => .hostReset
  | .rocev2BulkData => .rocev2BulkData
  | .freedRowsZeroed => .freedRowsZeroed

/-! ### The decoder -/

/-- Slots S0 and S1 (R58). -/
def decodeS (w : BitVec 32) : Except DecodeError Instr :=
  match fOp w with
  | 0x01#8 => .ok (.add (fP w) (fW w) (fD w) (fA w) (fB w))
  | 0x02#8 => .ok (.sub (fP w) (fW w) (fD w) (fA w) (fB w))
  | 0x03#8 => .ok (.and (fP w) (fW w) (fD w) (fA w) (fB w))
  | 0x04#8 => .ok (.or (fP w) (fW w) (fD w) (fA w) (fB w))
  | 0x05#8 => .ok (.xor (fP w) (fW w) (fD w) (fA w) (fB w))
  | 0x06#8 => .ok (.andn (fP w) (fW w) (fD w) (fA w) (fB w))
  | 0x07#8 => .ok (.shl (fP w) (fW w) (fD w) (fA w) (fB w))
  | 0x08#8 => .ok (.shr (fP w) (fW w) (fD w) (fA w) (fB w))
  | 0x09#8 => .ok (.sra (fP w) (fW w) (fD w) (fA w) (fB w))
  | 0x0A#8 => .ok (.rotr (fP w) (fW w) (fD w) (fA w) (fB w))
  | 0x0B#8 => .ok (.min (fP w) (fW w) (fD w) (fA w) (fB w))
  | 0x0C#8 => .ok (.minn (fP w) (fW w) (fD w) (fA w) (fB w))
  | 0x0D#8 => .ok (.max (fP w) (fW w) (fD w) (fA w) (fB w))
  | 0x0E#8 => .ok (.maxn (fP w) (fW w) (fD w) (fA w) (fB w))
  | 0x0F#8 => .ok (.sel (fP w) (fW w) (fD w) (fA w) (fB w))
  | 0x10#8 => .ok (.mul (fP w) (fW w) (fD w) (fA w) (fB w))
  | 0x11#8 => .ok (.mulh (fP w) (fW w) (fD w) (fA w) (fB w))
  | 0x12#8 => .ok (.mulhn (fP w) (fW w) (fD w) (fA w) (fB w))
  | 0x13#8 => rz w 0x00007F#32 (.clz (fP w) (fW w) (fD w) (fA w))
  | 0x14#8 => rz w 0x00007F#32 (.popc (fP w) (fW w) (fD w) (fA w))
  | 0x15#8 => .ok (.bfx (fP w) (fW w) (fD w) (fA w) (fB w))
  | 0x16#8 => .ok (.bfi (fP w) (fW w) (fD w) (fA w) (fB w))
  | 0x17#8 => .ok (.cmpeq (fP w) (fW w) (fD w) (fA w) (fB w))
  | 0x18#8 => .ok (.cmpne (fP w) (fW w) (fD w) (fA w) (fB w))
  | 0x19#8 => .ok (.cmplt (fP w) (fW w) (fD w) (fA w) (fB w))
  | 0x1A#8 => .ok (.cmpltn (fP w) (fW w) (fD w) (fA w) (fB w))
  | 0x1B#8 => .ok (.cmple (fP w) (fW w) (fD w) (fA w) (fB w))
  | 0x1C#8 => .ok (.cmplen (fP w) (fW w) (fD w) (fA w) (fB w))
  | 0x1D#8 => .ok (.pand (fP w) (fW w) (fD w) (fA w) (fB w))
  | 0x1E#8 => .ok (.por (fP w) (fW w) (fD w) (fA w) (fB w))
  | 0x1F#8 => .ok (.pxor (fP w) (fW w) (fD w) (fA w) (fB w))
  | 0x20#8 => .ok (.adds2 (fP w) (fW w) (fD w) (fA w) (fB w))
  | 0x21#8 => .ok (.adds3 (fP w) (fW w) (fD w) (fA w) (fB w))
  | 0x22#8 => .ok (.adds6 (fP w) (fW w) (fD w) (fA w) (fB w))
  | 0x23#8 => .ok (.adds10 (fP w) (fW w) (fD w) (fA w) (fB w))
  | 0x24#8 => rz w 0x00007F#32 (.mov (fP w) (fW w) (fD w) (fA w))
  | 0x40#8 => .ok (.addi (fP w) (fW w) (fD w) (w.extractLsb' 0 14))
  | 0x41#8 => .ok (.andi (fP w) (fW w) (fD w) (w.extractLsb' 0 14))
  | 0x42#8 => .ok (.ori (fP w) (fW w) (fD w) (w.extractLsb' 0 14))
  | 0x43#8 => .ok (.xori (fP w) (fW w) (fD w) (w.extractLsb' 0 14))
  | 0x44#8 => rz w 0x003FC0#32 (.shli (fP w) (fW w) (fD w) (w.extractLsb' 0 6))
  | 0x45#8 => rz w 0x003FC0#32 (.shri (fP w) (fW w) (fD w) (w.extractLsb' 0 6))
  | 0x46#8 => rz w 0x003FC0#32 (.srai (fP w) (fW w) (fD w) (w.extractLsb' 0 6))
  | 0x47#8 => .ok (.cmpeqi (fP w) (fW w) (fD w) (w.extractLsb' 11 3) (w.extractLsb' 0 11))
  | 0x48#8 => .ok (.cmplti (fP w) (fW w) (fD w) (w.extractLsb' 11 3) (w.extractLsb' 0 11))
  | 0x49#8 => .ok (.movi (fP w) (fW w) (fD w) (w.extractLsb' 0 14))
  | 0x60#8 => .ok (.fadd .f32 (fP w) (fW w) (fD w) (fA w) (fB w))
  | 0x70#8 => .ok (.fadd .f64 (fP w) (fW w) (fD w) (fA w) (fB w))
  | 0x61#8 => .ok (.fsub .f32 (fP w) (fW w) (fD w) (fA w) (fB w))
  | 0x71#8 => .ok (.fsub .f64 (fP w) (fW w) (fD w) (fA w) (fB w))
  | 0x62#8 => .ok (.fmul .f32 (fP w) (fW w) (fD w) (fA w) (fB w))
  | 0x72#8 => .ok (.fmul .f64 (fP w) (fW w) (fD w) (fA w) (fB w))
  | 0x63#8 => .ok (.ffma .f32 (fP w) (fW w) (fD w) (fA w) (fB w))
  | 0x73#8 => .ok (.ffma .f64 (fP w) (fW w) (fD w) (fA w) (fB w))
  | 0x64#8 => .ok (.fmin .f32 (fP w) (fW w) (fD w) (fA w) (fB w))
  | 0x74#8 => .ok (.fmin .f64 (fP w) (fW w) (fD w) (fA w) (fB w))
  | 0x65#8 => .ok (.fmax .f32 (fP w) (fW w) (fD w) (fA w) (fB w))
  | 0x75#8 => .ok (.fmax .f64 (fP w) (fW w) (fD w) (fA w) (fB w))
  | 0x66#8 => .ok (.fcmpeq .f32 (fP w) (fW w) (fD w) (fA w) (fB w))
  | 0x76#8 => .ok (.fcmpeq .f64 (fP w) (fW w) (fD w) (fA w) (fB w))
  | 0x67#8 => .ok (.fcmplt .f32 (fP w) (fW w) (fD w) (fA w) (fB w))
  | 0x77#8 => .ok (.fcmplt .f64 (fP w) (fW w) (fD w) (fA w) (fB w))
  | 0x68#8 => .ok (.fcmple .f32 (fP w) (fW w) (fD w) (fA w) (fB w))
  | 0x78#8 => .ok (.fcmple .f64 (fP w) (fW w) (fD w) (fA w) (fB w))
  | 0x69#8 => rnd w fun r => rz w 0x000071#32 (.fcvts .f32 (fP w) (fW w) (fD w) (fA w) r)
  | 0x79#8 => rnd w fun r => rz w 0x000071#32 (.fcvts .f64 (fP w) (fW w) (fD w) (fA w) r)
  | 0x6A#8 => rnd w fun r => rz w 0x000041#32 (.fcvti .f32 (fP w) (fW w) (fD w) (fA w) (IType.ofCode (w.extractLsb' 4 2)) r)
  | 0x7A#8 => rnd w fun r => rz w 0x000041#32 (.fcvti .f64 (fP w) (fW w) (fD w) (fA w) (IType.ofCode (w.extractLsb' 4 2)) r)
  | 0x6B#8 => rnd w fun r => rz w 0x000041#32 (.fcvtf .f32 (fP w) (fW w) (fD w) (fA w) (IType.ofCode (w.extractLsb' 4 2)) r)
  | 0x7B#8 => rnd w fun r => rz w 0x000041#32 (.fcvtf .f64 (fP w) (fW w) (fD w) (fA w) (IType.ofCode (w.extractLsb' 4 2)) r)
  | _ => .error .opcode

/-- Slots V0, V1 and V2: the row is opcode `[7:3]` (R59). -/
def decodeV (w : BitVec 32) : Except DecodeError Instr :=
  match fRow w with
  | 0x01#5 => .ok (.vadd (VType.ofCode (fT w)) (fP w) (fW w) (fD w) (fA w) (fB w))
  | 0x02#5 => .ok (.vsub (VType.ofCode (fT w)) (fP w) (fW w) (fD w) (fA w) (fB w))
  | 0x03#5 => .ok (.vmul (VType.ofCode (fT w)) (fP w) (fW w) (fD w) (fA w) (fB w))
  | 0x04#5 => .ok (.vfma (VType.ofCode (fT w)) (fP w) (fW w) (fD w) (fA w) (fB w))
  | 0x05#5 => .ok (.vfms (VType.ofCode (fT w)) (fP w) (fW w) (fD w) (fA w) (fB w))
  | 0x06#5 => .ok (.vmin (VType.ofCode (fT w)) (fP w) (fW w) (fD w) (fA w) (fB w))
  | 0x07#5 => .ok (.vmax (VType.ofCode (fT w)) (fP w) (fW w) (fD w) (fA w) (fB w))
  | 0x08#5 => .ok (.vadds (VType.ofCode (fT w)) (fP w) (fW w) (fD w) (fA w) (fB w))
  | 0x09#5 => .ok (.vsubs (VType.ofCode (fT w)) (fP w) (fW w) (fD w) (fA w) (fB w))
  | 0x0A#5 => .ok (.vcmpeq (VType.ofCode (fT w)) (fP w) (fW w) (fD w) (fA w) (fB w))
  | 0x0B#5 => .ok (.vcmplt (VType.ofCode (fT w)) (fP w) (fW w) (fD w) (fA w) (fB w))
  | 0x0C#5 => .ok (.vcmple (VType.ofCode (fT w)) (fP w) (fW w) (fD w) (fA w) (fB w))
  | 0x0D#5 => rz w 0x00007F#32 (.vabs (VType.ofCode (fT w)) (fP w) (fW w) (fD w) (fA w))
  | 0x0E#5 => rz w 0x00007F#32 (.vneg (VType.ofCode (fT w)) (fP w) (fW w) (fD w) (fA w))
  | 0x0F#5 =>
    match fT w with
    | 0#3 => .ok (.vand (fP w) (fW w) (fD w) (fA w) (fB w))
    | 1#3 => .ok (.vor (fP w) (fW w) (fD w) (fA w) (fB w))
    | 2#3 => .ok (.vxor (fP w) (fW w) (fD w) (fA w) (fB w))
    | 3#3 => .ok (.vandn (fP w) (fW w) (fD w) (fA w) (fB w))
    | _ => .error .subtype
  | 0x10#5 => .ok (.vshl (VType.ofCode (fT w)) (fP w) (fW w) (fD w) (fA w) (fB w))
  | 0x11#5 => .ok (.vshr (VType.ofCode (fT w)) (fP w) (fW w) (fD w) (fA w) (fB w))
  | 0x12#5 =>
    match fT w with
    | 0#3 => .ok (.vsel (fP w) (fW w) (fD w) (fA w) (fB w))
    | _ => .error .subtype
  | 0x13#5 =>
    match fT w with
    | 0#3 => rz w 0x00007F#32 (.vmov (fP w) (fW w) (fD w) (fA w))
    | 1#3 => rz w 0x00007F#32 (.vsplat (fP w) (fW w) (fD w) (fA w))
    | 2#3 => .ok (.vins (fP w) (fW w) (fD w) (fA w) (fB w))
    | 3#3 => rz w 0xE00000#32 (.vxtr (fW w) (fD w) (fA w) (fB w))
    | _ => .error .subtype
  | 0x14#5 => rnd w fun r => rz w 0x000001#32 (.vcvt (VType.ofCode (fT w)) (fP w) (fW w) (fD w) (fA w) (VType.ofCode (w.extractLsb' 4 3)) r)
  | 0x15#5 =>
    match fT w with
    | 0#3 => rnd w fun r => rz w 0x000000#32 (.vcvtx .toE4m3 (fP w) (fW w) (fD w) (fA w) (VType.ofCode (w.extractLsb' 4 3)) r (w.getLsbD 0))
    | 1#3 => rnd w fun r => rz w 0x000000#32 (.vcvtx .toE5m2 (fP w) (fW w) (fD w) (fA w) (VType.ofCode (w.extractLsb' 4 3)) r (w.getLsbD 0))
    | 2#3 => rnd w fun r => rz w 0x000000#32 (.vcvtx .toN8 (fP w) (fW w) (fD w) (fA w) (VType.ofCode (w.extractLsb' 4 3)) r (w.getLsbD 0))
    | 3#3 => rnd w fun r => rz w 0x000000#32 (.vcvtx .fromE4m3 (fP w) (fW w) (fD w) (fA w) (VType.ofCode (w.extractLsb' 4 3)) r (w.getLsbD 0))
    | 4#3 => rnd w fun r => rz w 0x000000#32 (.vcvtx .fromE5m2 (fP w) (fW w) (fD w) (fA w) (VType.ofCode (w.extractLsb' 4 3)) r (w.getLsbD 0))
    | 5#3 => rnd w fun r => rz w 0x000000#32 (.vcvtx .fromN8 (fP w) (fW w) (fD w) (fA w) (VType.ofCode (w.extractLsb' 4 3)) r (w.getLsbD 0))
    | _ => .error .subtype
  | 0x16#5 =>
    match fT w with
    | 0#3 => .ok (.vfxadd (fP w) (fW w) (fD w) (fA w) (fB w))
    | 1#3 => .ok (.vfxcvt (fP w) (fW w) (fD w) (fA w) (fB w))
    | 2#3 => .ok (.vfxcvtf (fP w) (fW w) (fD w) (fA w) (fB w))
    | _ => .error .subtype
  | 0x17#5 =>
    match fT w with
    | 0#3 => .ok (.vperm (fP w) (fW w) (fD w) (fA w) (fB w))
    | 1#3 => .ok (.vrot (fP w) (fW w) (fD w) (fA w) (fB w))
    | 2#3 => .ok (.vbcl (fP w) (fW w) (fD w) (fA w) (fB w))
    | _ => .error .subtype
  | 0x18#5 => rz w 0x00007F#32 (.vredadd (VType.ofCode (fT w)) (fP w) (fW w) (fD w) (fA w))
  | 0x19#5 => rz w 0x00007F#32 (.vredmin (VType.ofCode (fT w)) (fP w) (fW w) (fD w) (fA w))
  | 0x1A#5 => rz w 0x00007F#32 (.vredmax (VType.ofCode (fT w)) (fP w) (fW w) (fD w) (fA w))
  | 0x1B#5 => rz w 0x00007F#32 (.vscan (VType.ofCode (fT w)) (fP w) (fW w) (fD w) (fA w))
  | 0x1C#5 =>
    match fT w with
    | 0#3 => .ok (.vxcopy (fP w) (fW w) (fD w) (fA w) (fB w))
    | 1#3 => .ok (.vxrot (fP w) (fW w) (fD w) (fA w) (fB w))
    | _ => .error .subtype
  | 0x1D#5 =>
    match fT w with
    | 0#3 => .ok (.vmand (fP w) (fW w) (fD w) (fA w) (fB w))
    | 1#3 => .ok (.vmor (fP w) (fW w) (fD w) (fA w) (fB w))
    | 2#3 => .ok (.vmxor (fP w) (fW w) (fD w) (fA w) (fB w))
    | 3#3 => .ok (.vmandn (fP w) (fW w) (fD w) (fA w) (fB w))
    | 4#3 => rz w 0x00007F#32 (.vmnot (fP w) (fW w) (fD w) (fA w))
    | 5#3 => rz w 0xE0007F#32 (.vmpop (fW w) (fD w) (fA w))
    | _ => .error .subtype
  | _ => .error .opcode

/-- Slot F (R61). -/
def decodeF (w : BitVec 32) : Except DecodeError Instr :=
  match fOp w with
  | 0x01#8 => rz w 0x00007F#32 (.exp2 .f32 (fP w) (fW w) (fD w) (fA w))
  | 0x11#8 => rz w 0x00007F#32 (.exp2 .bf16 (fP w) (fW w) (fD w) (fA w))
  | 0x02#8 => rz w 0x00007F#32 (.log2 .f32 (fP w) (fW w) (fD w) (fA w))
  | 0x12#8 => rz w 0x00007F#32 (.log2 .bf16 (fP w) (fW w) (fD w) (fA w))
  | 0x03#8 => rz w 0x00007F#32 (.exp .f32 (fP w) (fW w) (fD w) (fA w))
  | 0x13#8 => rz w 0x00007F#32 (.exp .bf16 (fP w) (fW w) (fD w) (fA w))
  | 0x04#8 => rz w 0x00007F#32 (.log .f32 (fP w) (fW w) (fD w) (fA w))
  | 0x14#8 => rz w 0x00007F#32 (.log .bf16 (fP w) (fW w) (fD w) (fA w))
  | 0x05#8 => rz w 0x00007F#32 (.rcp .f32 (fP w) (fW w) (fD w) (fA w))
  | 0x15#8 => rz w 0x00007F#32 (.rcp .bf16 (fP w) (fW w) (fD w) (fA w))
  | 0x06#8 => rz w 0x00007F#32 (.rsqrt .f32 (fP w) (fW w) (fD w) (fA w))
  | 0x16#8 => rz w 0x00007F#32 (.rsqrt .bf16 (fP w) (fW w) (fD w) (fA w))
  | 0x07#8 => rz w 0x00007F#32 (.sqrt .f32 (fP w) (fW w) (fD w) (fA w))
  | 0x17#8 => rz w 0x00007F#32 (.sqrt .bf16 (fP w) (fW w) (fD w) (fA w))
  | 0x08#8 => rz w 0x00007F#32 (.tanh .f32 (fP w) (fW w) (fD w) (fA w))
  | 0x18#8 => rz w 0x00007F#32 (.tanh .bf16 (fP w) (fW w) (fD w) (fA w))
  | 0x09#8 => rz w 0x00007F#32 (.sigmoid .f32 (fP w) (fW w) (fD w) (fA w))
  | 0x19#8 => rz w 0x00007F#32 (.sigmoid .bf16 (fP w) (fW w) (fD w) (fA w))
  | 0x0A#8 => rz w 0x00007F#32 (.erf .f32 (fP w) (fW w) (fD w) (fA w))
  | 0x1A#8 => rz w 0x00007F#32 (.erf .bf16 (fP w) (fW w) (fD w) (fA w))
  | 0x0B#8 => rz w 0x00007F#32 (.sin .f32 (fP w) (fW w) (fD w) (fA w))
  | 0x1B#8 => rz w 0x00007F#32 (.sin .bf16 (fP w) (fW w) (fD w) (fA w))
  | 0x0C#8 => rz w 0x00007F#32 (.cos .f32 (fP w) (fW w) (fD w) (fA w))
  | 0x1C#8 => rz w 0x00007F#32 (.cos .bf16 (fP w) (fW w) (fD w) (fA w))
  | 0x0D#8 => .ok (.div (fP w) (fW w) (fD w) (fA w) (fB w))
  | _ => .error .opcode

/-- Slot X (R62). -/
def decodeX (w : BitVec 32) : Except DecodeError Instr :=
  match fOp w with
  | 0x01#8 => rz w 0x00007F#32 (.mxpush (fP w) (Gang.ofCode (w.extractLsb' 19 2)) (w.extractLsb' 14 5) (fA w))
  | 0x02#8 => rz w 0x18007F#32 (.mxshift (fP w) (w.extractLsb' 14 5) (fA w))
  | 0x03#8 => .ok (.mxacc (fP w) (Gang.ofCode (w.extractLsb' 19 2)) (w.extractLsb' 14 5) (fA w) (fB w))
  | 0x04#8 => .ok (.mxaccx (fP w) (Gang.ofCode (w.extractLsb' 19 2)) (w.extractLsb' 14 5) (fA w) (fB w))
  | 0x05#8 => rz w 0x180000#32 (.mxdrain (fP w) (w.extractLsb' 14 5) (fA w) (fB w))
  | 0x06#8 => rz w 0x183FFF#32 (.mxzero (fP w) (w.extractLsb' 14 5))
  | 0x07#8 => rz w 0x1FFFFF#32 (.mxswap (fP w))
  | _ => .error .opcode

/-- Slots M0 and M1 (R63). -/
def decodeM (w : BitVec 32) : Except DecodeError Instr :=
  match fOp w with
  | 0x08#8 => rz w 0x100000#32 (.ldq .i8 (fP w) (fD w) (fA w) (fB w))
  | 0x09#8 => rz w 0x100000#32 (.ldq .n8 (fP w) (fD w) (fA w) (fB w))
  | 0x0A#8 => rz w 0x100000#32 (.ldq .i16 (fP w) (fD w) (fA w) (fB w))
  | 0x0B#8 => rz w 0x100000#32 (.ldq .n16 (fP w) (fD w) (fA w) (fB w))
  | 0x0C#8 => rz w 0x100000#32 (.ldq .i32 (fP w) (fD w) (fA w) (fB w))
  | 0x0D#8 => rz w 0x100000#32 (.ldq .n32 (fP w) (fD w) (fA w) (fB w))
  | 0x0E#8 => rz w 0x100000#32 (.ldq .i64 (fP w) (fD w) (fA w) (fB w))
  | 0x10#8 => rz w 0x100000#32 (.ldqv (fP w) (fD w) (fA w) (fB w))
  | 0x18#8 => rz w 0x100000#32 (.gather .n32 (fP w) (fD w) (fA w) (fB w))
  | 0x19#8 => rz w 0x100000#32 (.gather .n16 (fP w) (fD w) (fA w) (fB w))
  | 0x1A#8 => rz w 0x100000#32 (.gather .n8 (fP w) (fD w) (fA w) (fB w))
  | 0x20#8 => rz w 0x100000#32 (.lds (fP w) (fD w) (fA w) (fB w))
  | 0x21#8 => rz w 0x100000#32 (.ldss (fP w) (fD w) (fA w) (fB w))
  | 0x28#8 => rz w 0x100000#32 (.sts (fP w) (fD w) (fA w) (fB w))
  | 0x29#8 => rz w 0x100000#32 (.stss (fP w) (fD w) (fA w) (fB w))
  | 0x30#8 => rz w 0x100000#32 (.st .n8 (fP w) (fD w) (fA w) (fB w))
  | 0x32#8 => rz w 0x100000#32 (.st .n16 (fP w) (fD w) (fA w) (fB w))
  | 0x34#8 => rz w 0x100000#32 (.st .n32 (fP w) (fD w) (fA w) (fB w))
  | 0x36#8 => rz w 0x100000#32 (.st .n64 (fP w) (fD w) (fA w) (fB w))
  | 0x38#8 => rz w 0x100000#32 (.stv (fP w) (fD w) (fA w) (fB w))
  | 0x39#8 => rz w 0x100000#32 (.scatter (fP w) (fD w) (fA w) (fB w))
  | 0x40#8 => rz w 0x1FC000#32 (.pref (fP w) (fA w) (fB w))
  | 0x41#8 => rz w 0x1FC000#32 (.prefs (fP w) (fA w) (fB w))
  | 0x48#8 => rz w 0x1FC000#32 (.smap (fP w) (fA w) (fB w))
  | 0x49#8 => rz w 0x1FC07F#32 (.sunmap (fP w) (fA w))
  | 0x4A#8 => rz w 0x1FC07F#32 (.swb (fP w) (fA w))
  | 0x4B#8 => rz w 0x1FC07F#32 (.sinv (fP w) (fA w))
  | 0x50#8 => rz w 0x1FC000#32 (.put (fP w) (fA w) (fB w))
  | 0x51#8 => .ok (.get (fP w) (fW w) (fD w) (fA w) (fB w))
  | 0x58#8 => .ok (.aadd (fP w) (fW w) (fD w) (fA w) (fB w))
  | 0x59#8 => .ok (.afxadd (fP w) (fW w) (fD w) (fA w) (fB w))
  | 0x5A#8 => .ok (.afadd (fP w) (fW w) (fD w) (fA w) (fB w))
  | 0x5B#8 => .ok (.amin (fP w) (fW w) (fD w) (fA w) (fB w))
  | 0x5C#8 => .ok (.amax (fP w) (fW w) (fD w) (fA w) (fB w))
  | 0x5D#8 => .ok (.aminn (fP w) (fW w) (fD w) (fA w) (fB w))
  | 0x5E#8 => .ok (.amaxn (fP w) (fW w) (fD w) (fA w) (fB w))
  | 0x5F#8 => .ok (.aincb (fP w) (fW w) (fD w) (fA w) (fB w))
  | 0x60#8 => rz w 0x000041#32 (.acas (fP w) (fW w) (fD w) (fA w) (w.extractLsb' 1 5))
  | 0x61#8 => .ok (.aswap (fP w) (fW w) (fD w) (fA w) (fB w))
  | 0x62#8 => .ok (.aand (fP w) (fW w) (fD w) (fA w) (fB w))
  | 0x63#8 => .ok (.aor (fP w) (fW w) (fD w) (fA w) (fB w))
  | 0x64#8 => .ok (.axor (fP w) (fW w) (fD w) (fA w) (fB w))
  | 0x68#8 => rz w 0x1F8000#32 (.post (fP w) (w.getLsbD 14) (fA w) (fB w))
  | _ => .error .opcode

/-- Slot K (R64). Words that several rows share decode to the row that the operand's fixed value names. -/
def decodeK (w : BitVec 32) : Except DecodeError Instr :=
  match fOp w with
  | 0x01#8 => .ok (.br (fP w) (w.extractLsb' 0 21))
  | 0x02#8 => .ok (.call (fP w) (w.extractLsb' 0 21))
  | 0x03#8 => rz w 0x1FFFFF#32 (.ret (fP w))
  | 0x04#8 => rz w 0x1FC07F#32 (.jr (fP w) (fA w))
  | 0x08#8 => .ok (.loop (fP w) (fC w) (w.extractLsb' 0 14))
  | 0x09#8 => rz w 0x1FC07F#32 (.leave (fP w) (fA w))
  | 0x10#8 => rz w 0x1E007F#32 (.qwait (fP w) (w.extractLsb' 14 3) (fA w))
  | 0x11#8 => rz w 0x1E007F#32 (.cpywait (fP w) (w.extractLsb' 14 3) (fA w))
  | 0x12#8 => rz w 0x1F807F#32 (.cwait (fP w) (w.getLsbD 14) (fA w))
  | 0x13#8 => rz w 0x1FFF00#32 (.fence (fP w) (w.extractLsb' 0 8))
  | 0x14#8 => rz w 0x1F807F#32 (.bwait (fP w) (w.getLsbD 14) (fA w))
  | 0x20#8 => .ok (Instr.canon (.spawnLaunch (fP w) (fW w) (fD w) (fA w) (fB w)))
  | 0x21#8 => rz w 0x1FC000#32 (.send (fP w) (fA w) (fB w))
  | 0x22#8 => rz w 0x1FC000#32 (.trig (fP w) (fA w) (fB w))
  | 0x23#8 => rz w 0x1FC07F#32 (.untrig (fP w) (fA w))
  | 0x24#8 => rz w 0x00007F#32 (.quiet (fP w) (fW w) (fD w) (fA w))
  | 0x25#8 => .ok (.bar (fP w) (fW w) (fD w) (fA w) (fB w))
  | 0x26#8 => .ok (Instr.canon (.phaseOpeng (fP w) (fW w) (fD w) (fA w) (fB w)))
  | 0x27#8 => rz w 0x1FC07F#32 (.cancel (fP w) (fA w))
  | 0x28#8 => rz w 0x1FFFFF#32 (.yield (fP w))
  | 0x29#8 => rz w 0x1FFFFF#32 (.exit (fP w))
  | 0x2A#8 => .ok (.accq (fP w) (fW w) (fD w) (fA w) (fB w))
  | 0x30#8 => .ok (.glopen (fP w) (fW w) (fD w) (fA w) (fB w))
  | 0x31#8 => rz w 0x1FC000#32 (.glhold (fP w) (fA w) (fB w))
  | 0x32#8 => rz w 0x1FC000#32 (.glsend (fP w) (fA w) (fB w))
  | 0x33#8 => rz w 0x00007F#32 (.glstat (fP w) (fW w) (fD w) (fA w))
  | 0x34#8 => rz w 0x1FC07F#32 (.glclose (fP w) (fA w))
  | 0x40#8 => rz w 0x000001#32 (Instr.canon (.engwr (fP w) (w.extractLsb' 13 8) (w.extractLsb' 7 6) (w.extractLsb' 1 6)))
  | 0x41#8 => rz w 0x000001#32 (.engrd (fP w) (w.extractLsb' 13 8) (w.extractLsb' 7 6) (w.extractLsb' 1 6))
  | 0x42#8 => if (w.extractLsb' 18 3) = 0x2#3 ∧ (w.extractLsb' 13 2) = 0#2 then rz w 0x000001#32 (.cpygo (fP w) (w.extractLsb' 15 3) (w.extractLsb' 7 6) (w.extractLsb' 1 6)) else .error .reserved
  | 0x43#8 => if (w.extractLsb' 13 8) = 0x60#8 then rz w 0x000001#32 (.sixgo (fP w) (w.extractLsb' 7 6) (w.extractLsb' 1 6)) else .error .reserved
  | 0x50#8 => rz w 0x00007F#32 (.sysrd (fP w) (fW w) (fD w) (w.extractLsb' 7 7))
  | 0x51#8 =>
    match (w.extractLsb' 7 7).toNat with
    | 0x02 => rz w 0x1FC000#32 (.syswrCkbound (fP w) (fB w))
    | 0x03 => rz w 0x1FC000#32 (.syswrQbound (fP w) (fB w))
    | 0x06 => rz w 0x1FC000#32 (.syswrArith (fP w) (fB w))
    | 0x07 => rz w 0x1FC000#32 (.syswrSrseed (fP w) (fB w))
    | 0x0E => rz w 0x1FC000#32 (.syswrMode (fP w) (fB w))
    | _ => rz w 0x1FC000#32 (.syswr (fP w) (w.extractLsb' 7 7) (fB w))
  | 0x52#8 => rz w 0x1FC07F#32 (.trap (fP w) (fA w))
  | 0x53#8 => rz w 0x1FC07F#32 (Instr.canon (.tretRetry (fP w) (fA w)))
  | 0x54#8 => rz w 0x1FC000#32 (.xlinv (fP w) (fA w) (fB w))
  | 0x55#8 => rz w 0x1FC000#32 (.opreq (fP w) (fA w) (fB w))
  | 0x56#8 => .ok (.evac (fP w) (fW w) (fD w) (fA w) (fB w))
  | 0x57#8 => .ok (.partq (fP w) (fW w) (fD w) (fA w) (fB w))
  | 0xE0#8 => .ok (.rvset (fP w) (fW w) (fD w) (fA w) (fB w))
  | 0xE1#8 => .ok (.rfloor (fP w) (fW w) (fD w) (fA w) (fB w))
  | 0xE2#8 => .ok (.rheat (fP w) (fW w) (fD w) (fA w) (fB w))
  | 0xE3#8 => .ok (Instr.canon (.rwaveRead (fP w) (fW w) (fD w) (fA w) (fB w)))
  | 0xE4#8 => rz w 0x1FC07F#32 (.revpost (fP w) (fA w))
  | 0xE5#8 => .ok (Instr.canon (.rhframeSend (fP w) (fW w) (fD w) (fA w) (fB w)))
  | 0xE6#8 => rz w 0x00007F#32 (.rsigchk (fP w) (fW w) (fD w) (fA w))
  | 0xE7#8 => .ok (Instr.canon (.racctCreate (fP w) (fW w) (fD w) (fA w) (fB w)))
  | _ => .error .opcode

/-- The instruction of a slot word in its slot class; the all-zero word is NOP in every class (R36). -/
def decodeSlot (c : SlotClass) (w : BitVec 32) : Except DecodeError Instr :=
  if w = 0#32 then .ok .nop
  else
    match c with
    | .S => decodeS w
    | .V => decodeV w
    | .F => decodeF w
    | .M => decodeM w
    | .X => decodeX w
    | .K => decodeK w

/-! ### The encoder -/

/-- Register format (R36). -/
def regW (op : BitVec 8) (p : BitVec 3) (w : Bool) (d : BitVec 6) (a b : BitVec 7) : BitVec 32 :=
  op ++ (p ++ (BitVec.ofBool w ++ (d ++ (a ++ b))))
/-- Immediate format (R36). -/
def immW (op : BitVec 8) (p : BitVec 3) (w : Bool) (d : BitVec 6) (i : BitVec 14) : BitVec 32 :=
  op ++ (p ++ (BitVec.ofBool w ++ (d ++ i)))
/-- Branch format (R36). -/
def brW (op : BitVec 8) (p : BitVec 3) (d : BitVec 21) : BitVec 32 := op ++ (p ++ d)
/-- Loop format (R36). -/
def loopW (op : BitVec 8) (p : BitVec 3) (c : BitVec 7) (l : BitVec 14) : BitVec 32 := op ++ (p ++ (c ++ l))
/-- Coprocessor format (R36). -/
def copW (op : BitVec 8) (p : BitVec 3) (e : BitVec 8) (a b : BitVec 6) : BitVec 32 :=
  op ++ (p ++ (e ++ (a ++ (b ++ 0#1))))
/-- Matrix format (R36). -/
def mxW (op : BitVec 8) (p : BitVec 3) (g : BitVec 2) (d : BitVec 5) (a b : BitVec 7) : BitVec 32 :=
  op ++ (p ++ (g ++ (d ++ (a ++ b))))

/-- The words of an instruction, with the slot class they belong to; a device action has none. -/
def encode : Instr → Option (SlotClass × BitVec 32)
  | .nop => some (.K, 0#32)
  | .add p w d a b => some (.S, regW 0x01#8 p w d a.code b.code)
  | .sub p w d a b => some (.S, regW 0x02#8 p w d a.code b.code)
  | .and p w d a b => some (.S, regW 0x03#8 p w d a.code b.code)
  | .or p w d a b => some (.S, regW 0x04#8 p w d a.code b.code)
  | .xor p w d a b => some (.S, regW 0x05#8 p w d a.code b.code)
  | .andn p w d a b => some (.S, regW 0x06#8 p w d a.code b.code)
  | .shl p w d a b => some (.S, regW 0x07#8 p w d a.code b.code)
  | .shr p w d a b => some (.S, regW 0x08#8 p w d a.code b.code)
  | .sra p w d a b => some (.S, regW 0x09#8 p w d a.code b.code)
  | .rotr p w d a b => some (.S, regW 0x0A#8 p w d a.code b.code)
  | .min p w d a b => some (.S, regW 0x0B#8 p w d a.code b.code)
  | .minn p w d a b => some (.S, regW 0x0C#8 p w d a.code b.code)
  | .max p w d a b => some (.S, regW 0x0D#8 p w d a.code b.code)
  | .maxn p w d a b => some (.S, regW 0x0E#8 p w d a.code b.code)
  | .sel p w d a b => some (.S, regW 0x0F#8 p w d a.code b.code)
  | .mul p w d a b => some (.S, regW 0x10#8 p w d a.code b.code)
  | .mulh p w d a b => some (.S, regW 0x11#8 p w d a.code b.code)
  | .mulhn p w d a b => some (.S, regW 0x12#8 p w d a.code b.code)
  | .clz p w d a => some (.S, regW 0x13#8 p w d a.code 0#7)
  | .popc p w d a => some (.S, regW 0x14#8 p w d a.code 0#7)
  | .bfx p w d a b => some (.S, regW 0x15#8 p w d a.code b.code)
  | .bfi p w d a b => some (.S, regW 0x16#8 p w d a.code b.code)
  | .cmpeq p w d a b => some (.S, regW 0x17#8 p w d a.code b.code)
  | .cmpne p w d a b => some (.S, regW 0x18#8 p w d a.code b.code)
  | .cmplt p w d a b => some (.S, regW 0x19#8 p w d a.code b.code)
  | .cmpltn p w d a b => some (.S, regW 0x1A#8 p w d a.code b.code)
  | .cmple p w d a b => some (.S, regW 0x1B#8 p w d a.code b.code)
  | .cmplen p w d a b => some (.S, regW 0x1C#8 p w d a.code b.code)
  | .pand p w d a b => some (.S, regW 0x1D#8 p w d a.code b.code)
  | .por p w d a b => some (.S, regW 0x1E#8 p w d a.code b.code)
  | .pxor p w d a b => some (.S, regW 0x1F#8 p w d a.code b.code)
  | .adds2 p w d a b => some (.S, regW 0x20#8 p w d a.code b.code)
  | .adds3 p w d a b => some (.S, regW 0x21#8 p w d a.code b.code)
  | .adds6 p w d a b => some (.S, regW 0x22#8 p w d a.code b.code)
  | .adds10 p w d a b => some (.S, regW 0x23#8 p w d a.code b.code)
  | .mov p w d a => some (.S, regW 0x24#8 p w d a.code 0#7)
  | .addi p w d i => some (.S, immW 0x40#8 p w d i)
  | .andi p w d i => some (.S, immW 0x41#8 p w d i)
  | .ori p w d i => some (.S, immW 0x42#8 p w d i)
  | .xori p w d i => some (.S, immW 0x43#8 p w d i)
  | .shli p w d i => some (.S, immW 0x44#8 p w d (0#8 ++ i))
  | .shri p w d i => some (.S, immW 0x45#8 p w d (0#8 ++ i))
  | .srai p w d i => some (.S, immW 0x46#8 p w d (0#8 ++ i))
  | .cmpeqi p w a d i => some (.S, immW 0x47#8 p w a (d ++ i))
  | .cmplti p w a d i => some (.S, immW 0x48#8 p w a (d ++ i))
  | .movi p w d i => some (.S, immW 0x49#8 p w d i)
  | .fadd f p w d a b => some (.S, regW (FFmt.op f 0x0#4) p w d a.code b.code)
  | .fsub f p w d a b => some (.S, regW (FFmt.op f 0x1#4) p w d a.code b.code)
  | .fmul f p w d a b => some (.S, regW (FFmt.op f 0x2#4) p w d a.code b.code)
  | .ffma f p w d a b => some (.S, regW (FFmt.op f 0x3#4) p w d a.code b.code)
  | .fmin f p w d a b => some (.S, regW (FFmt.op f 0x4#4) p w d a.code b.code)
  | .fmax f p w d a b => some (.S, regW (FFmt.op f 0x5#4) p w d a.code b.code)
  | .fcmpeq f p w d a b => some (.S, regW (FFmt.op f 0x6#4) p w d a.code b.code)
  | .fcmplt f p w d a b => some (.S, regW (FFmt.op f 0x7#4) p w d a.code b.code)
  | .fcmple f p w d a b => some (.S, regW (FFmt.op f 0x8#4) p w d a.code b.code)
  | .fcvts f p w d a r => some (.S, regW (FFmt.op f 0x9#4) p w d a.code (0#3 ++ (r.code ++ 0#1)))
  | .fcvti f p w d a t r => some (.S, regW (FFmt.op f 0xA#4) p w d a.code ((0#1 ++ t.code) ++ (r.code ++ 0#1)))
  | .fcvtf f p w d a t r => some (.S, regW (FFmt.op f 0xB#4) p w d a.code ((0#1 ++ t.code) ++ (r.code ++ 0#1)))
  | .vadd t p w d a b => some (.V, regW (0x01#5 ++ t.code) p w d a.code b.code)
  | .vsub t p w d a b => some (.V, regW (0x02#5 ++ t.code) p w d a.code b.code)
  | .vmul t p w d a b => some (.V, regW (0x03#5 ++ t.code) p w d a.code b.code)
  | .vfma t p w d a b => some (.V, regW (0x04#5 ++ t.code) p w d a.code b.code)
  | .vfms t p w d a b => some (.V, regW (0x05#5 ++ t.code) p w d a.code b.code)
  | .vmin t p w d a b => some (.V, regW (0x06#5 ++ t.code) p w d a.code b.code)
  | .vmax t p w d a b => some (.V, regW (0x07#5 ++ t.code) p w d a.code b.code)
  | .vadds t p w d a b => some (.V, regW (0x08#5 ++ t.code) p w d a.code b.code)
  | .vsubs t p w d a b => some (.V, regW (0x09#5 ++ t.code) p w d a.code b.code)
  | .vcmpeq t p w d a b => some (.V, regW (0x0A#5 ++ t.code) p w d a.code b.code)
  | .vcmplt t p w d a b => some (.V, regW (0x0B#5 ++ t.code) p w d a.code b.code)
  | .vcmple t p w d a b => some (.V, regW (0x0C#5 ++ t.code) p w d a.code b.code)
  | .vabs t p w d a => some (.V, regW (0x0D#5 ++ t.code) p w d a.code 0#7)
  | .vneg t p w d a => some (.V, regW (0x0E#5 ++ t.code) p w d a.code 0#7)
  | .vand p w d a b => some (.V, regW 0x78#8 p w d a.code b.code)
  | .vor p w d a b => some (.V, regW 0x79#8 p w d a.code b.code)
  | .vxor p w d a b => some (.V, regW 0x7A#8 p w d a.code b.code)
  | .vandn p w d a b => some (.V, regW 0x7B#8 p w d a.code b.code)
  | .vshl t p w d a b => some (.V, regW (0x10#5 ++ t.code) p w d a.code b.code)
  | .vshr t p w d a b => some (.V, regW (0x11#5 ++ t.code) p w d a.code b.code)
  | .vsel p w d a b => some (.V, regW 0x90#8 p w d a.code b.code)
  | .vmov p w d a => some (.V, regW 0x98#8 p w d a.code 0#7)
  | .vsplat p w d a => some (.V, regW 0x99#8 p w d a.code 0#7)
  | .vins p w d a b => some (.V, regW 0x9A#8 p w d a.code b.code)
  | .vxtr w d a b => some (.V, regW 0x9B#8 0#3 w d a.code b.code)
  | .vcvt t p w d a s r => some (.V, regW (0x14#5 ++ t.code) p w d a.code (s.code ++ (r.code ++ 0#1)))
  | .vcvtx x p w d a s r n => some (.V, regW (0x15#5 ++ x.code) p w d a.code (s.code ++ (r.code ++ BitVec.ofBool n)))
  | .vfxadd p w d a b => some (.V, regW 0xB0#8 p w d a.code b.code)
  | .vfxcvt p w d a b => some (.V, regW 0xB1#8 p w d a.code b.code)
  | .vfxcvtf p w d a b => some (.V, regW 0xB2#8 p w d a.code b.code)
  | .vperm p w d a b => some (.V, regW 0xB8#8 p w d a.code b.code)
  | .vrot p w d a b => some (.V, regW 0xB9#8 p w d a.code b.code)
  | .vbcl p w d a b => some (.V, regW 0xBA#8 p w d a.code b.code)
  | .vredadd t p w d a => some (.V, regW (0x18#5 ++ t.code) p w d a.code 0#7)
  | .vredmin t p w d a => some (.V, regW (0x19#5 ++ t.code) p w d a.code 0#7)
  | .vredmax t p w d a => some (.V, regW (0x1A#5 ++ t.code) p w d a.code 0#7)
  | .vscan t p w d a => some (.V, regW (0x1B#5 ++ t.code) p w d a.code 0#7)
  | .vxcopy p w d a b => some (.V, regW 0xE0#8 p w d a.code b.code)
  | .vxrot p w d a b => some (.V, regW 0xE1#8 p w d a.code b.code)
  | .vmand p w d a b => some (.V, regW 0xE8#8 p w d a.code b.code)
  | .vmor p w d a b => some (.V, regW 0xE9#8 p w d a.code b.code)
  | .vmxor p w d a b => some (.V, regW 0xEA#8 p w d a.code b.code)
  | .vmandn p w d a b => some (.V, regW 0xEB#8 p w d a.code b.code)
  | .vmnot p w d a => some (.V, regW 0xEC#8 p w d a.code 0#7)
  | .vmpop w d a => some (.V, regW 0xED#8 0#3 w d a.code 0#7)
  | .exp2 t p w d a => some (.F, regW (FTy.op t 0x1#4) p w d a.code 0#7)
  | .log2 t p w d a => some (.F, regW (FTy.op t 0x2#4) p w d a.code 0#7)
  | .exp t p w d a => some (.F, regW (FTy.op t 0x3#4) p w d a.code 0#7)
  | .log t p w d a => some (.F, regW (FTy.op t 0x4#4) p w d a.code 0#7)
  | .rcp t p w d a => some (.F, regW (FTy.op t 0x5#4) p w d a.code 0#7)
  | .rsqrt t p w d a => some (.F, regW (FTy.op t 0x6#4) p w d a.code 0#7)
  | .sqrt t p w d a => some (.F, regW (FTy.op t 0x7#4) p w d a.code 0#7)
  | .tanh t p w d a => some (.F, regW (FTy.op t 0x8#4) p w d a.code 0#7)
  | .sigmoid t p w d a => some (.F, regW (FTy.op t 0x9#4) p w d a.code 0#7)
  | .erf t p w d a => some (.F, regW (FTy.op t 0xA#4) p w d a.code 0#7)
  | .sin t p w d a => some (.F, regW (FTy.op t 0xB#4) p w d a.code 0#7)
  | .cos t p w d a => some (.F, regW (FTy.op t 0xC#4) p w d a.code 0#7)
  | .div p w d a b => some (.F, regW 0x0D#8 p w d a.code b.code)
  | .mxpush p g d a => some (.X, mxW 0x01#8 p g.code d a.code 0#7)
  | .mxshift p d a => some (.X, mxW 0x02#8 p 0#2 d a.code 0#7)
  | .mxacc p g d a b => some (.X, mxW 0x03#8 p g.code d a.code b.code)
  | .mxaccx p g d a b => some (.X, mxW 0x04#8 p g.code d a.code b.code)
  | .mxdrain p d a b => some (.X, mxW 0x05#8 p 0#2 d a.code b.code)
  | .mxzero p d => some (.X, mxW 0x06#8 p 0#2 d 0#7 0#7)
  | .mxswap p => some (.X, mxW 0x07#8 p 0#2 0#5 0#7 0#7)
  | .ldq t p d a b => some (.M, regW (0x01#5 ++ t.code) p false d a.code b.code)
  | .ldqv p d a b => some (.M, regW 0x10#8 p false d a.code b.code)
  | .gather t p d a b => some (.M, regW (0x03#5 ++ t.code) p false d a.code b.code)
  | .lds p d a b => some (.M, regW 0x20#8 p false d a.code b.code)
  | .ldss p d a b => some (.M, regW 0x21#8 p false d a.code b.code)
  | .sts p d a b => some (.M, regW 0x28#8 p false d a.code b.code)
  | .stss p d a b => some (.M, regW 0x29#8 p false d a.code b.code)
  | .st t p d a b => some (.M, regW (0x06#5 ++ (t.code ++ 0#1)) p false d a.code b.code)
  | .stv p d a b => some (.M, regW 0x38#8 p false d a.code b.code)
  | .scatter p d a b => some (.M, regW 0x39#8 p false d a.code b.code)
  | .pref p a b => some (.M, regW 0x40#8 p false 0#6 a.code b.code)
  | .prefs p a b => some (.M, regW 0x41#8 p false 0#6 a.code b.code)
  | .smap p a b => some (.M, regW 0x48#8 p false 0#6 a.code b.code)
  | .sunmap p a => some (.M, regW 0x49#8 p false 0#6 a.code 0#7)
  | .swb p a => some (.M, regW 0x4A#8 p false 0#6 a.code 0#7)
  | .sinv p a => some (.M, regW 0x4B#8 p false 0#6 a.code 0#7)
  | .put p a b => some (.M, regW 0x50#8 p false 0#6 a.code b.code)
  | .get p w d a b => some (.M, regW 0x51#8 p w d a.code b.code)
  | .aadd p w d a b => some (.M, regW 0x58#8 p w d a.code b.code)
  | .afxadd p w d a b => some (.M, regW 0x59#8 p w d a.code b.code)
  | .afadd p w d a b => some (.M, regW 0x5A#8 p w d a.code b.code)
  | .amin p w d a b => some (.M, regW 0x5B#8 p w d a.code b.code)
  | .amax p w d a b => some (.M, regW 0x5C#8 p w d a.code b.code)
  | .aminn p w d a b => some (.M, regW 0x5D#8 p w d a.code b.code)
  | .amaxn p w d a b => some (.M, regW 0x5E#8 p w d a.code b.code)
  | .aincb p w d a b => some (.M, regW 0x5F#8 p w d a.code b.code)
  | .acas p w d a b => some (.M, regW 0x60#8 p w d a.code (0#1 ++ (b ++ 0#1)))
  | .aswap p w d a b => some (.M, regW 0x61#8 p w d a.code b.code)
  | .aand p w d a b => some (.M, regW 0x62#8 p w d a.code b.code)
  | .aor p w d a b => some (.M, regW 0x63#8 p w d a.code b.code)
  | .axor p w d a b => some (.M, regW 0x64#8 p w d a.code b.code)
  | .post p s a b => some (.M, regW 0x68#8 p false (0#5 ++ BitVec.ofBool s) a.code b.code)
  | .br p d => some (.K, brW 0x01#8 p d)
  | .call p d => some (.K, brW 0x02#8 p d)
  | .ret p => some (.K, regW 0x03#8 p false 0#6 0#7 0#7)
  | .jr p a => some (.K, regW 0x04#8 p false 0#6 a.code 0#7)
  | .loop p c l => some (.K, loopW 0x08#8 p c.code l)
  | .leave p a => some (.K, regW 0x09#8 p false 0#6 a.code 0#7)
  | .qwait p q a => some (.K, regW 0x10#8 p false (0#3 ++ q) a.code 0#7)
  | .cpywait p q a => some (.K, regW 0x11#8 p false (0#3 ++ q) a.code 0#7)
  | .cwait p c a => some (.K, regW 0x12#8 p false (0#5 ++ BitVec.ofBool c) a.code 0#7)
  | .fence p m => some (.K, immW 0x13#8 p false 0#6 (0#6 ++ m))
  | .fenceComplete => none
  | .bwait p s a => some (.K, regW 0x14#8 p false (0#5 ++ BitVec.ofBool s) a.code 0#7)
  | .spawnLaunch p w d a b => some (.K, regW 0x20#8 p w d a.code b.code)
  | .spawnUnit p w d a b => some (.K, regW 0x20#8 p w d a.code b.code)
  | .send p a b => some (.K, regW 0x21#8 p false 0#6 a.code b.code)
  | .trig p a b => some (.K, regW 0x22#8 p false 0#6 a.code b.code)
  | .untrig p a => some (.K, regW 0x23#8 p false 0#6 a.code 0#7)
  | .quiet p w d a => some (.K, regW 0x24#8 p w d a.code 0#7)
  | .bar p w d a b => some (.K, regW 0x25#8 p w d a.code b.code)
  | .phaseOpeng p w d a b => some (.K, regW 0x26#8 p w d a.code b.code)
  | .phaseOpenp p w d a b => some (.K, regW 0x26#8 p w d a.code b.code)
  | .phaseAddl p w d a b => some (.K, regW 0x26#8 p w d a.code b.code)
  | .phaseClose p w d a b => some (.K, regW 0x26#8 p w d a.code b.code)
  | .phaseRelease p w d a b => some (.K, regW 0x26#8 p w d a.code b.code)
  | .cancel p a => some (.K, regW 0x27#8 p false 0#6 a.code 0#7)
  | .yield p => some (.K, regW 0x28#8 p false 0#6 0#7 0#7)
  | .exit p => some (.K, regW 0x29#8 p false 0#6 0#7 0#7)
  | .accq p w d a b => some (.K, regW 0x2A#8 p w d a.code b.code)
  | .glopen p w d a b => some (.K, regW 0x30#8 p w d a.code b.code)
  | .glhold p a b => some (.K, regW 0x31#8 p false 0#6 a.code b.code)
  | .glsend p a b => some (.K, regW 0x32#8 p false 0#6 a.code b.code)
  | .glstat p w d a => some (.K, regW 0x33#8 p w d a.code 0#7)
  | .glclose p a => some (.K, regW 0x34#8 p false 0#6 a.code 0#7)
  | .engwr p e a b => some (.K, copW 0x40#8 p e a b)
  | .chErrclr p n a b => some (.K, copW 0x40#8 p (0x2#3 ++ (n ++ 3#2)) a b)
  | .chResume p n a b => some (.K, copW 0x40#8 p (0x2#3 ++ (n ++ 3#2)) a b)
  | .engrd p e a b => some (.K, copW 0x41#8 p e a b)
  | .cpygo p n a b => some (.K, copW 0x42#8 p (0x2#3 ++ (n ++ 0#2)) a b)
  | .sixgo p a b => some (.K, copW 0x43#8 p 0x60#8 a b)
  | .sysrd p w d n => some (.K, regW 0x50#8 p w d n 0#7)
  | .syswr p n b => some (.K, regW 0x51#8 p false 0#6 n b.code)
  | .syswrCkbound p b => some (.K, regW 0x51#8 p false 0#6 0x02#7 b.code)
  | .syswrQbound p b => some (.K, regW 0x51#8 p false 0#6 0x03#7 b.code)
  | .syswrArith p b => some (.K, regW 0x51#8 p false 0#6 0x06#7 b.code)
  | .syswrSrseed p b => some (.K, regW 0x51#8 p false 0#6 0x07#7 b.code)
  | .syswrMode p b => some (.K, regW 0x51#8 p false 0#6 0x0E#7 b.code)
  | .trap p a => some (.K, regW 0x52#8 p false 0#6 a.code 0#7)
  | .tretRetry p a => some (.K, regW 0x53#8 p false 0#6 a.code 0#7)
  | .tretSkipk p a => some (.K, regW 0x53#8 p false 0#6 a.code 0#7)
  | .tretEnd p a => some (.K, regW 0x53#8 p false 0#6 a.code 0#7)
  | .xlinv p a b => some (.K, regW 0x54#8 p false 0#6 a.code b.code)
  | .opreq p a b => some (.K, regW 0x55#8 p false 0#6 a.code b.code)
  | .evac p w d a b => some (.K, regW 0x56#8 p w d a.code b.code)
  | .partq p w d a b => some (.K, regW 0x57#8 p w d a.code b.code)
  | .rvset p w d a b => some (.K, regW 0xE0#8 p w d a.code b.code)
  | .rfloor p w d a b => some (.K, regW 0xE1#8 p w d a.code b.code)
  | .rheat p w d a b => some (.K, regW 0xE2#8 p w d a.code b.code)
  | .rwaveRead p w d a b => some (.K, regW 0xE3#8 p w d a.code b.code)
  | .rwavePark p w d a b => some (.K, regW 0xE3#8 p w d a.code b.code)
  | .rwaveWake p w d a b => some (.K, regW 0xE3#8 p w d a.code b.code)
  | .rwaveMove p w d a b => some (.K, regW 0xE3#8 p w d a.code b.code)
  | .revpost p a => some (.K, regW 0xE4#8 p false 0#6 a.code 0#7)
  | .rhframeSend p w d a b => some (.K, regW 0xE5#8 p w d a.code b.code)
  | .rhframeRecv p w d a b => some (.K, regW 0xE5#8 p w d a.code b.code)
  | .rsigchk p w d a => some (.K, regW 0xE6#8 p w d a.code 0#7)
  | .racctCreate p w d a b => some (.K, regW 0xE7#8 p w d a.code b.code)
  | .racctAdd p w d a b => some (.K, regW 0xE7#8 p w d a.code b.code)
  | .racctRelease p w d a b => some (.K, regW 0xE7#8 p w d a.code b.code)
  | .racctCancel p w d a b => some (.K, regW 0xE7#8 p w d a.code b.code)
  | .checkpointConfirm => none
  | .anchorTokenGrant => none
  | .anchorHoldExpiry => none
  | .rollback => none
  | .preemption => none
  | .resumeUnit => none
  | .qboundStallLimit => none
  | .unitPlace => none
  | .unitAdmit => none
  | .unitStart => none
  | .unitAge => none
  | .unitCancelStop => none
  | .borrowRequest => none
  | .borrowReply => none
  | .combinerAdd => none
  | .combinerFlushPeriod => none
  | .flushRequest => none
  | .returnArrive => none
  | .messageArrive => none
  | .messageTimeout => none
  | .channelTakeRecord => none
  | .channelShadowStart => none
  | .ringReserve => none
  | .chunkPerform => none
  | .recordComplete => none
  | .channelFault => none
  | .putGetRemoteFault => none
  | .getComplete => none
  | .sixOpStart => none
  | .sixPush => none
  | .sixFault => none
  | .queueLoadFill => none
  | .stashFill => none
  | .stashWriteback => none
  | .barrierArrival => none
  | .ptsTick => none
  | .regionFtTimeout => none
  | .artUpdateEffect => none
  | .translationWalk => none
  | .xlinvAck => none
  | .trailPacketDeliver => none
  | .flowWindowBoundary => none
  | .flowPromoteProbe => none
  | .glopenComplete => none
  | .guylineSlotSend => none
  | .guylineFlitLand => none
  | .guylineAckArrive => none
  | .guylineLeaseExpire => none
  | .guylineFinalCount => none
  | .guylineFinalTimeout => none
  | .podBarrierCombine => none
  | .podBarrierResult => none
  | .barTimeout => none
  | .linkTraining => none
  | .flitReceive => none
  | .replayRequest => none
  | .linkRetrain => none
  | .retrainEnd => none
  | .lightLoss => none
  | .restripeComplete => none
  | .reconcile => none
  | .reconcileTimeout => none
  | .laserWakeRequest => none
  | .scrub => none
  | .controlInterval => none
  | .currentLimitEngage => none
  | .currentLimitLevel2 => none
  | .thermalCrit => none
  | .logicStep => none
  | .sramUpstep => none
  | .stepwaitExpire => none
  | .evacRowMove => none
  | .stepSettle => none
  | .drainComplete => none
  | .eventRecordArrive => none
  | .boot => none
  | .hostHello => none
  | .hostGoodbye => none
  | .sessionTimeout => none
  | .hostLoad => none
  | .hostStart => none
  | .hostLaunch => none
  | .hostJobCreate => none
  | .hostJobAdd => none
  | .hostJobRelease => none
  | .hostJobCancel => none
  | .hostAcctrd => none
  | .hostPart => none
  | .hostPodmap => none
  | .hostCap => none
  | .hostMode => none
  | .hostEvents => none
  | .hostCounters => none
  | .hostAttest => none
  | .hostSafeckpt => none
  | .ckptBlockAck => none
  | .hostCkptstat => none
  | .hostReset => none
  | .rocev2BulkData => none
  | .freedRowsZeroed => none

/-! ### Words of the opcode table -/

/-- The slot classes a bare word is tried in. A word does not name its slot, and one word is an instruction in several
classes; DESIGN CHOICE (log entry 8): the first class of this list in which the word is a well-formed instruction. -/
def tableClasses : List SlotClass := [.K, .X, .S, .M, .V, .F]

/-- The first class of a list in which a word is a well-formed instruction, with that instruction. -/
def firstClass (w : BitVec 32) : List SlotClass → Option (SlotClass × Instr)
  | [] => none
  | c :: cs =>
    match decodeSlot c w with
    | .ok i => if i.wf then some (c, i) else firstClass w cs
    | .error _ => firstClass w cs

/-- The instruction the decoder reads from a word of the opcode table. -/
def decodeTableWord (nbits w : Nat) : Option Instr :=
  if nbits = 32 then (firstClass (BitVec.ofNat 32 w) tableClasses).map (·.2) else none

end Sys2Proof
end

