-- ==== Sys2Proof/Machine/Legal.lean ====
section
/-! DEFINITION. The legality of a bundle (R53 to R56): which slots of it an illegal bundle marks. It is decided from the
encoding and the landings in flight alone (R55). -/

namespace Sys2Proof.Machine

/-- A slot that is not NOP: its word number, its word, and its instruction, none where the word is no instruction. -/
structure SlotI where
  num  : Nat
  word : BitVec 32
  ins  : Option Instr
deriving DecidableEq, Repr

/-- The slot class of a word of the bundle (R32). -/
def slotClass (k : Nat) : SlotClass :=
  match k with
  | 1 | 2 => .S
  | 3 | 4 | 5 => .V
  | 6 => .F
  | 7 | 8 => .M
  | 9 => .X
  | _ => .K

/-- A word of the bundle, the header being word 0. -/
def bword (ws : List (BitVec 32)) (k : Nat) : BitVec 32 := ws.getD k 0#32

/-- The slots of a bundle that are not NOP, in word order (R32). -/
def slotsOf (ws : List (BitVec 32)) : List SlotI :=
  (upFrom 1 10).filterMap fun k =>
    if bword ws k = 0#32 then none
    else some { num := k, word := bword ws k, ins := (decodeSlot (slotClass k) (bword ws k)).toOption }

/-- The shape of a slot. -/
def SlotI.shape (x : SlotI) : Shape := (x.ins.map Instr.shape).getD {}

/-- A slot mask (R56). -/
def marks (ks : List Nat) : BitVec 12 := ks.foldl (fun m k => m ||| BitVec.ofNat 12 (2 ^ k)) 0#12

/-- Whether a form reads the literal word. -/
def usesLit (h : Shape) : Bool := h.srcs.any fun a => decide (a.2 = .special 6#3) || decide (a.2 = .special 7#3)

/-- Whether a form has a field of class v, m, a or g. -/
def usesCore (h : Shape) : Bool :=
  let wide (c : Cls) : Bool := match c with | .v | .m | .a | .g => true | .s | .p | .q => false
  h.srcs.any (fun a => wide a.1) || h.regs.any (fun a => wide a.1) || h.dsts.any (fun a => wide a.1)

/-- Conditions 2, 3, 4, 8, 9 and 10 of R54 on one slot. -/
def SlotI.bad (x : SlotI) (ranger c l : Bool) : Bool :=
  match x.ins with
  | none => true
  | some i =>
    let h := i.shape
    !i.wf || (usesLit h && !l) || (h.irrev && !c) || (decide (h.whr = .ranger) && !ranger)
      || (ranger && (decide (h.whr = .core) || usesCore h || (decide (3 ≤ x.num) && decide (x.num ≤ 6)) || decide (x.num = 9)))

/-- The register or queue that a slot's results land in (R54, R142): none under NOWB (R55). A write to m0 or p0 is discarded (R20), and its
landing still counts: only condition 5 of R54 leaves it out. -/
def SlotI.dests (x : SlotI) (k : Core) : List (Cls × Nat) :=
  let h := x.shape
  if h.nowb = some true then []
  else
    h.dsts.map fun d =>
      match d.1 with
      | .s | .v =>
        match { k with slot := x.num }.boundQueue (decide (d.1 = Cls.v)) d.2 with
        | some q => (.q, q.toNat)
        | none => (d.1, d.2.toNat)
      | .m | .p | .a | .g | .q => (d.1, d.2.toNat)

/-- Whether a destination is m0 or p0, whose writes are discarded (R20, R39). -/
def discards (d : Cls × Nat) : Bool :=
  match d.1 with
  | .m | .p => decide (d.2 = 0)
  | .s | .v | .a | .g | .q => false

/-- What a slot writes or pushes as condition 5 of R54 counts it: no write to m0 or p0. -/
def SlotI.writes (x : SlotI) (k : Core) : List (Cls × Nat) := (x.dests k).filter fun d => !discards d

/-- The landings that a slot reserves (R55); a queue filled by an answer has none. -/
def SlotI.claims (x : SlotI) (k : Core) : List Claim :=
  if x.shape.lat = 0 then [] else (x.dests k).map fun d => { left := x.shape.lat, cls := d.1, num := d.2 }

/-- The register that the predicate field of a slot names: a lane mask in V and F, else a predicate (R45, R46). -/
def gateClass (h : Shape) : Cls := if h.cls = some .V ∨ h.cls = some .F then .m else .p

/-- The registers of a class that a slot reads (R53): sources, third inputs, and the predicate field. -/
def SlotI.reads (x : SlotI) (c : Cls) : List Nat :=
  let h := x.shape
  (h.srcs.filterMap fun a => match a.2 with | .reg n => if a.1 = c then some n.toNat else none | _ => none)
    ++ (h.regs.filterMap fun a => if a.1 = c then some a.2.toNat else none)
    ++ (if c = gateClass h then [h.pred.toNat] else [])

/-- The slots that read a class, marked when they name more than `n` distinct registers of it (R53). -/
def readMarks (xs : List SlotI) (c : Cls) (n : Nat) : BitVec 12 :=
  if n < (xs.flatMap fun x => x.reads c).eraseDups.length then marks ((xs.filter fun x => !(x.reads c).isEmpty).map SlotI.num)
  else 0#12

/-- The results of a class that may land at one bundle (R53); for a queue, those pushed to it alone. -/
def landLimit (c : Cls) : Nat :=
  match c with
  | .s | .v | .p => 4
  | .m => 2
  | .a | .g | .q => 1

/-- Whether two landings use one resource of R53: the results of a class, and of queues those of one queue. -/
def Claim.rival (a b : Claim) : Bool :=
  decide (a.left = b.left) && decide (a.cls = b.cls) && (decide (a.cls ≠ .q) || decide (a.num = b.num))

/-- The slots with a claim of a class, marked when more than the limit would land together with it (R53). The bundle charged is the
one whose issue takes a later bundle past its limit: DEDUCED (log entry 118). -/
def landMarks (xs : List SlotI) (k : Core) (c : Cls) : BitVec 12 :=
  let all := k.arch.claims ++ xs.flatMap fun x => x.claims k
  let crowd (a : Claim) : Bool := decide (landLimit c < (all.filter a.rival).length)
  marks ((xs.filter fun x => (x.claims k).any fun a => decide (a.cls = c) && crowd a).map SlotI.num)

/-- The queues that a slot pops, once for each field. -/
def SlotI.popList (x : SlotI) : List Nat :=
  x.shape.srcs.filterMap fun a => match a.2 with | .pop q => some q.toNat | _ => none

/-- Slots that pop a queue which more than one field pops. -/
def popMarks (xs : List SlotI) : BitVec 12 :=
  let all := xs.flatMap SlotI.popList
  marks ((xs.filter fun x => x.popList.any fun q => decide (1 < all.count q)).map SlotI.num)

/-- Slots of which a bundle may hold one. -/
def onlyMarks (xs : List SlotI) (f : Shape → Bool) : BitVec 12 :=
  let ys := xs.filter fun x => f x.shape
  if 1 < ys.length then marks (ys.map SlotI.num) else 0#12

/-- Condition 5: slots that write one register or push one queue together. -/
def sharedMarks (xs : List SlotI) (k : Core) : BitVec 12 :=
  marks ((xs.filter fun x => xs.any fun y => decide (y.num ≠ x.num) && (x.writes k).any (y.writes k).contains).map SlotI.num)

/-- Condition 6: slots whose result would land beside an earlier bundle's pending result to the same place. -/
def pendingMarks (xs : List SlotI) (k : Core) : BitVec 12 :=
  marks ((xs.filter fun x => (x.claims k).any k.arch.claims.contains).map SlotI.num)

/-- The slots and words that make a bundle illegal (R54, R56); zero for a legal bundle. `k` is the sequencer once the
results due at this bundle have landed. -/
def illegalMarks (k : Core) (ranger : Bool) (ws : List (BitVec 32)) : BitVec 12 :=
  let hd := bword ws 0
  let xs := slotsOf ws
  let l := bitAt hd 28
  marks ((if fld hd 0 28 = 0 then [] else [0]) ++ (if !l && decide (bword ws 11 ≠ 0#32) then [11] else [])
      ++ ((xs.filter fun x => x.bad ranger (bitAt hd 31) l).map SlotI.num))
    ||| sharedMarks xs k ||| pendingMarks xs k
    ||| readMarks xs .s 10 ||| readMarks xs .v 8 ||| readMarks xs .m 4 ||| readMarks xs .p 8
    ||| landMarks xs k .s ||| landMarks xs k .v ||| landMarks xs k .m ||| landMarks xs k .p ||| landMarks xs k .q
    ||| popMarks xs
    ||| onlyMarks xs Shape.xcopy ||| onlyMarks xs Shape.reduce ||| onlyMarks xs Shape.engStart
    ||| (if 0 < k.arch.fBusy then marks ((xs.filter fun x => decide (x.num = 6)).map SlotI.num) else 0#12)

end Sys2Proof.Machine
end

