-- ==== Sys2Proof/Machine/Signature.lean ====
section
/-! DEFINITION. The Ed25519 signature over SHA-512 that the ranger core checks (R407, R454, R455, R457), by FIPS 180-4 and RFC
8032: the spec names both and restates neither (log entry 20). -/

namespace Sys2Proof.Machine

/-! ### SHA-512 -/

/-- The first numbers among `n` from `k` that no number of `ps` divides, appended to `ps`. -/
def sieve (ps : List Nat) (k : Nat) : Nat → List Nat
  | 0 => ps
  | n + 1 => sieve (if ps.any fun p => decide (k % p = 0) then ps else ps ++ [k]) (k + 1) n

/-- The first eighty primes: those up to 409. -/
def primes80 : List Nat := sieve [] 2 408

/-- The largest number whose `k`-th power is at most `x`, found bit by bit from bit `n - 1` down. -/
def rootOf (x k : Nat) : Nat → Nat → Nat
  | 0, acc => acc
  | n + 1, acc => rootOf x k n (if (acc + 2 ^ n) ^ k ≤ x then acc + 2 ^ n else acc)

/-- The round constants: the first 64 bits of the fractions of the cube roots of the primes. -/
def shaK : List Word := primes80.map fun p => BitVec.ofNat 64 (rootOf (p * 2 ^ 192) 3 68 0)

/-- The initial hash: the first 64 bits of the fractions of the square roots of the first eight primes. -/
def shaInit : List Word := (primes80.take 8).map fun p => BitVec.ofNat 64 (rootOf (p * 2 ^ 128) 2 69 0)

/-- Rotation right. -/
def rotr (x : Word) (n : Nat) : Word := x.rotateRight n

/-- The message schedule extended by `n` words. -/
def shaSchedule (w : List Word) : Nat → List Word
  | 0 => w
  | n + 1 =>
    let t := w.length
    let g (i : Nat) : Word := w.getD (t - i) 0#64
    let s0 := rotr (g 15) 1 ^^^ rotr (g 15) 8 ^^^ (g 15 >>> 7)
    let s1 := rotr (g 2) 19 ^^^ rotr (g 2) 61 ^^^ (g 2 >>> 6)
    shaSchedule (w ++ [s1 + g 7 + s0 + g 16]) n

/-- One round for each pair of a round constant and a schedule word. -/
def shaRounds (v : List Word) : List (Word × Word) → List Word
  | [] => v
  | (k, w) :: rest =>
    let x (i : Nat) : Word := v.getD i 0#64
    let s1 := rotr (x 4) 14 ^^^ rotr (x 4) 18 ^^^ rotr (x 4) 41
    let ch := (x 4 &&& x 5) ^^^ (~~~x 4 &&& x 6)
    let t1 := x 7 + s1 + ch + k + w
    let s0 := rotr (x 0) 28 ^^^ rotr (x 0) 34 ^^^ rotr (x 0) 39
    let maj := (x 0 &&& x 1) ^^^ (x 0 &&& x 2) ^^^ (x 1 &&& x 2)
    shaRounds [t1 + (s0 + maj), x 0, x 1, x 2, x 3 + t1, x 4, x 5, x 6] rest

/-- A number of `n` bytes, the most significant first. -/
def bigEndian (bs : List Byte) : Nat := ofBytes bs.reverse

/-- The hash after a block of 128 bytes. -/
def shaBlock (h : List Word) (b : List Byte) : List Word :=
  let w := (upFrom 0 16).map fun i => BitVec.ofNat 64 (bigEndian ((b.drop (8 * i)).take 8))
  List.zipWith (· + ·) h (shaRounds h (shaK.zip (shaSchedule w 64)))

/-- The hash after `n` blocks. -/
def shaBlocks (h : List Word) (bs : List Byte) : Nat → List Word
  | 0 => h
  | n + 1 => shaBlocks (shaBlock h (bs.take 128)) (bs.drop 128) n

/-- SHA-512 of a string of bytes. -/
def sha512 (m : List Byte) : List Byte :=
  let zeros := (239 - m.length % 128) % 128
  let padded := m ++ [0x80#8] ++ List.replicate zeros 0#8 ++ (toBytes 16 (8 * m.length)).reverse
  (shaBlocks shaInit padded (padded.length / 128)).flatMap fun w => (toBytes 8 w.toNat).reverse

/-! ### The curve of Ed25519 -/

/-- The prime of the field. -/
def edP : Nat := 2 ^ 255 - 19

/-- The order of the base point. -/
def edL : Nat := 2 ^ 252 + 27742317777372353535851937790883648493

/-- A power modulo the prime, by the `n` low bits of the exponent. -/
def edPow (x e : Nat) : Nat → Nat
  | 0 => 1
  | n + 1 =>
    let r := edPow x (e / 2) n
    let r2 := r * r % edP
    if e % 2 = 1 then r2 * x % edP else r2

/-- The inverse modulo the prime. -/
def edInv (x : Nat) : Nat := edPow x (edP - 2) 256

/-- The difference modulo the prime. -/
def edSub (x y : Nat) : Nat := (x + edP - y % edP) % edP

/-- The constant d of the curve. -/
def edD : Nat := edSub 0 (121665 * edInv 121666)

/-- A square root of −1. -/
def edI : Nat := edPow 2 ((edP - 1) / 4) 256

/-- A point in extended coordinates. -/
structure EdPoint where
  x : Nat
  y : Nat
  z : Nat
  t : Nat
deriving DecidableEq, Repr

/-- The neutral point. -/
def edZero : EdPoint := { x := 0, y := 1, z := 1, t := 0 }

/-- Addition of points (RFC 8032, 5.1.4). -/
def edAdd (p q : EdPoint) : EdPoint :=
  let a := edSub p.y p.x * edSub q.y q.x % edP
  let b := (p.y + p.x) * (q.y + q.x) % edP
  let c := 2 * p.t * q.t % edP * edD % edP
  let d := 2 * p.z * q.z % edP
  let e := edSub b a
  let f := edSub d c
  let g := (d + c) % edP
  let h := (b + a) % edP
  { x := e * f % edP, y := g * h % edP, t := e * h % edP, z := f * g % edP }

/-- A multiple of a point, by the `n` low bits of the factor. -/
def edMul (p : EdPoint) (k : Nat) : Nat → EdPoint
  | 0 => edZero
  | n + 1 =>
    let r := edMul p (k / 2) n
    let r2 := edAdd r r
    if k % 2 = 1 then edAdd r2 p else r2

/-- Whether two points are one. -/
def edSame (p q : EdPoint) : Bool := decide (p.x * q.z % edP = q.x * p.z % edP) && decide (p.y * q.z % edP = q.y * p.z % edP)

/-- The point of an encoding (RFC 8032, 5.1.3). -/
def edDecode (bs : List Byte) : Option EdPoint :=
  let n := ofBytes bs
  let y := n % 2 ^ 255
  let sign := n / 2 ^ 255 % 2
  if edP ≤ y then none
  else
    let u := edSub (y * y) 1
    let v := (edD * (y * y % edP) + 1) % edP
    let v3 := v * v % edP * v % edP
    let c := u * v3 % edP * edPow (u * (v3 * v3 % edP * v % edP) % edP) ((edP - 5) / 8) 256 % edP
    let w := v * (c * c % edP) % edP
    let x := if w = u then some c else if w = edSub 0 u then some (c * edI % edP) else none
    match x with
    | none => none
    | some x =>
      if x = 0 ∧ sign = 1 then none
      else
        let x1 := if x % 2 = sign then x else edP - x
        some { x := x1, y := y, z := 1, t := x1 * y % edP }

/-- The base point: y is 4/5 and x is even. -/
def edBase : EdPoint := (edDecode (toBytes 32 (4 * edInv 5 % edP))).getD edZero

/-- Whether a signature of 64 bytes over a message is good under a public key of 32 bytes (RFC 8032, 5.1.7). -/
def edVerify (key msg sig : List Byte) : Bool :=
  let r := sig.take 32
  let s := ofBytes ((sig.drop 32).take 32)
  match edDecode key, edDecode r with
  | some a, some b =>
    let k := ofBytes (sha512 (r ++ key ++ msg)) % edL
    decide (s < edL) && edSame (edMul edBase s 256) (edAdd b (edMul a k 256))
  | _, _ => false

end Sys2Proof.Machine
end

