-- ==== Sys2Proof/Machine/Image.lean ====
section
/-! DEFINITION. Daxique images (R74 to R77, R324, R342) and the checks of LOAD (R26, R194, R452, R456, R457). -/

namespace Sys2Proof.Machine

/-- A number of `n` bytes at an offset of a file. -/
def fileNat (bs : List Byte) (off n : Nat) : Nat := ofBytes ((bs.drop off).take n)

/-- A file cut into records of `n` bytes as numbers, at most so many. -/
def records (n : Nat) : Nat → List Byte → List Nat
  | 0, _ => []
  | k + 1, bs => if bs.length < n then [] else ofBytes (bs.take n) :: records n k (bs.drop n)

/-- A section (R75). -/
structure Sect where
  kind : Nat
  load : Nat
  data : List Byte
deriving DecidableEq, Repr

/-- An image as it was read: the fields of its header and its sections, with whether they lie within the file. -/
structure Parsed where
  magic  : Nat
  fmtver : Nat
  isareq : Nat
  signed : Bool
  nsect  : Nat
  sigOff : Nat
  sects  : List Sect
  whole  : Bool
deriving DecidableEq, Repr

/-- A file read as an image (R74, R75); its RZ bits are ignored (log entry 127). -/
def parseImage (bs : List Byte) : Parsed :=
  let h := fileNat bs 0 128
  let n := bits h 64 8
  let tab := bits h 128 64
  let es := records 32 (min n 64) (bs.drop tab)
  { magic := bits h 0 32, fmtver := bits h 32 16, isareq := bits h 48 8, signed := bits h 56 1 = 1, nsect := n, sigOff := bits h 192 64,
    sects := es.map fun e => { kind := bits e 0 8, load := bits e 64 64, data := (bs.drop (bits e 192 64)).take (bits e 128 64) },
    whole := decide (es.length = n) && es.all fun e => decide (bits e 192 64 + bits e 128 64 ≤ bs.length) }

/-- The data of the section of a kind. -/
def Parsed.data (i : Parsed) (k : Nat) : List Byte := ((i.sects.find? fun x => decide (x.kind = k)).map Sect.data).getD []

/-- The sections placed in device memory. -/
def Parsed.placed (i : Parsed) : List Sect := i.sects.filter fun x => decide (x.kind ≤ 3)

/-- The code of the section of a kind. -/
def Parsed.code (i : Parsed) (k : Nat) : Code :=
  match i.sects.find? fun x => decide (x.kind = k) with
  | some x => { base := x.load, count := x.data.length / 48 }
  | none => {}

/-! ### Sections (R75, R457) -/

/-- Whether two sections' load ranges overlap; an empty one strictly inside another does (log entry 104). -/
def Sect.overlaps (a b : Sect) : Bool := decide (a.load < b.load + b.data.length) && decide (b.load < a.load + a.data.length)

/-- Whether some two of a list of sections overlap. -/
def anyOverlap : List Sect → Bool
  | [] => false
  | x :: xs => xs.any x.overlaps || anyOverlap xs

/-- Whether the section table is refused; a code section whose LOAD or SIZE is no multiple of 48 is (log entry 104). -/
def Parsed.badSections (i : Parsed) : Bool :=
  decide (i.nsect = 0) || decide (64 < i.nsect) || !i.whole
    || i.sects.any (fun x => decide (x.kind = 0) || decide (6 < x.kind))
    || [1, 2, 4, 5, 6].any (fun k => decide (1 < (i.sects.filter fun x => decide (x.kind = k)).length))
    || i.sects.any (fun x => (decide (x.kind = 1) || decide (x.kind = 2)) && (decide (x.load % 48 ≠ 0) || decide (x.data.length % 48 ≠ 0)))
    || anyOverlap i.placed

/-! ### The signature (R454, R457) -/

/-- A file with its signature block read as zeros. -/
def blanked (bs : List Byte) (off : Nat) : List Byte := bs.take off ++ List.replicate 128 0#8 ++ bs.drop (off + 128)

/-- Whether the signature of a file is good under the firmware key of a blob that its block names. -/
def goodSignature (blob bs : List Byte) (off : Nat) : Bool :=
  decide (off + 128 ≤ bs.length)
    && edVerify (Config.blobKey blob (fileNat bs (off + 64) 1)) (blanked bs off) ((bs.drop off).take 64)

/-! ### Code (R26) -/

/-- The words of a bundle. -/
def bundleWords (b : Nat) : List (BitVec 32) := (upFrom 0 12).map fun k => BitVec.ofNat 32 (bits b (32 * k) 32)

/-- Whether some slot of a code section holds a form of a place (R26). A SYSRD or SYSWR of a register of the other place is a reserved sub-encoding
by R393 and counts as such a form (log entry 125). -/
def holdsForm (w : Where) (data : List Byte) : Bool :=
  (records 48 (data.length / 48) data).any fun b => (slotsOf (bundleWords b)).any fun x => x.ins.isSome && decide (x.shape.whr = w)

/-! ### The unit table (R76, R194) -/

/-- An entry of the unit table. -/
def unitEntry (e : Nat) : UnitDecl :=
  { entry := BitVec.ofNat 32 e, nacc := bits e 32 8, qmask := BitVec.ofNat 8 (bits e 40 8), stash := bits e 48 16, spbytes := bits e 64 32,
    rings := (upFrom 0 8).map fun k => (bits e (128 + 32 * k) 16, bits e (144 + 32 * k) 16) }

/-- Whether an entry has a field out of range or a negative raw row count. -/
def badUnit (bundles : Nat) (d : UnitDecl) : Bool :=
  decide (bundles ≤ d.entry.toNat) || decide (8 < d.nacc) || decide (512 < d.stash) || decide (d.spbytes % 1024 ≠ 0)
    || decide (8388608 < d.spbytes)
    || decide (d.spbytes / 1024 < (d.rings.foldl (fun m r => if r.2 = 0 then m else max m (r.1 + r.2)) 0) + d.stash)

/-- The unit table of an image, with whether its section is one. -/
def Parsed.units (i : Parsed) : List UnitDecl := (records 64 65536 (i.data 4)).map unitEntry

/-- Whether the unit table is refused; one whose length is no multiple of 64 is (log entry 104). -/
def Parsed.badUnits (i : Parsed) : Bool :=
  decide ((i.data 4).length % 64 ≠ 0) || i.units.any (badUnit (i.code 1).count)

/-! ### Wheels and trees (R324, R342) -/

/-- A wheel entry. -/
def wheelEntry (e : Nat) : WheelEntry :=
  { slot := bits e 0 6, xpt := bits e 8 6, inp := bits e 16 6, outp := bits e 24 6, score := bits e 32 8, dcore := bits e 40 8 }

/-- The number of wheel entries, and of tree records. -/
def Parsed.counts (i : Parsed) : Nat × Nat := (fileNat (i.data 5) 0 4, fileNat (i.data 5) 4 4)

/-- The wheel entries of an image. -/
def Parsed.wheels (i : Parsed) : List WheelEntry := (records 8 (min i.counts.1 (i.data 5).length) ((i.data 5).drop 8)).map wheelEntry

/-- The key of the slot that an entry claims. -/
def WheelEntry.key (e : WheelEntry) : Nat := slotKey (wheelOf e.xpt e.outp, e.slot)

/-- Whether a list of numbers has one twice. -/
def repeats : List Nat → Bool
  | [] => false
  | x :: xs => xs.contains x || repeats xs

/-- Whether a slot is held by another partition, for a circuit that does not give way (R329). -/
def State.heldByOther (s : State) (p key : Nat) : Bool :=
  match NatMap.find key s.fabric.wheels with
  | some q => decide (q ≠ p) && !(s.fabric.promoted.any fun c => c.path.any fun k => decide (slotKey k = key))
  | none => false

/-- Whether slots are more than a quota on some wheel (R323, R324). -/
def overQuota (quota : Nat) (keys : List Nat) : Bool := keys.any fun k => decide (quota < (keys.filter fun j => decide (j / 64 = k / 64)).length)

/-- A tree record. -/
def treeRecord (r : Nat) : Tree :=
  { num := bits r 0 6, op := BitVec.ofNat 3 (bits r 8 3), root := bits r 11 1 = 1, up := bits r 16 5, down := BitVec.ofNat 32 (bits r 32 32),
    tmo := bits r 64 32, members := BitVec.ofNat 256 (bits r 128 256), uslot := bits r 384 6 }

/-- The tree records of an image. -/
def Parsed.trees (i : Parsed) : List Tree :=
  (records 128 (min i.counts.2 (i.data 5).length) ((i.data 5).drop (8 + 8 * i.counts.1))).map treeRecord

/-- Whether the wheel entries are refused for a partition: a form that does not exist, a slot claimed twice or held by another, a core of another
partition, or more slots than the quota, those of its trees among them (R323, R324, R352). -/
def Parsed.badWheels (i : Parsed) (s : State) (p : Nat) : Bool :=
  let es := i.wheels
  let keys := es.map WheelEntry.key
  decide ((i.data 5).length ≠ 0) && decide ((i.data 5).length < 8 + 8 * i.counts.1 + 128 * i.counts.2)
    || es.any (fun e => !portExists e.xpt e.inp || !portExists e.xpt e.outp) || repeats keys || keys.any (s.heldByOther p)
    || es.any (fun e => decide (s.ownerOfQuad (quadOf e.score) ≠ some p) || decide (s.ownerOfQuad (quadOf e.dcore) ≠ some p))
    || overQuota (s.partAt p).glQuota (keys ++ i.trees.flatMap fun t => t.slots.map slotKey)

/-- Whether the tree records are refused for a partition: an undefined operation, a leaf without members, a member core of another partition, a
number twice, or slots that collide (R342, R352). -/
def Parsed.badTrees (i : Parsed) (s : State) (p : Nat) : Bool :=
  let ts := i.trees
  ts.any (fun t => (upFrom 0 256).any fun c => t.members.getLsbD c && decide (s.ownerOfQuad (quadOf c) ≠ some p))
    || ts.any (fun t => decide (6 ≤ t.op.toNat) || (decide (t.down = 0#32) && decide (t.members = 0#256))) || repeats (ts.map Tree.num)
    || repeats (i.wheels.map WheelEntry.key ++ ts.flatMap fun t => t.slots.map slotKey)

/-! ### The start vector (R77) -/

/-- The valid entries of the start vector: core, unit, priority, ARGS. A section of another length than 4,096 bytes is read as far as it goes, up to
entry 255 (log entry 104). -/
def Parsed.starts (i : Parsed) : List (Nat × Nat × Nat × Word) :=
  ((records 16 256 (i.data 6)).zipIdx.filter fun e => decide (bits e.1 16 1 = 1)).map fun e =>
    (e.2, bits e.1 0 16, bits e.1 17 2, BitVec.ofNat 64 (bits e.1 64 64))

/-! ### The checks (R456, R457) -/

/-- Whether some unit of a partition is not ENDED, or a safe-tier checkpoint runs. -/
def State.loadBusy (s : State) (p : Nat) : Bool :=
  s.port.ckpt.isSome || s.hub.units.any fun u => decide (u.2.part = p) && decide (u.2.st ≠ .ended)

/-- The first check of LOAD that an image fails for a partition. -/
def State.checkImage (s : State) (p : Nat) (bs : List Byte) (i : Parsed) : Status :=
  if i.magic ≠ 0x58445158 then .magic
  else if i.fmtver ≠ 1 then .fmtver
  else if 1 < i.isareq then .isa
  else if i.badSections then .sect
  else if i.signed ∧ ¬ goodSignature s.power.blob bs i.sigOff then .signature
  else if holdsForm .ranger (i.data 1) ∨ holdsForm .core (i.data 2) then .placement
  else if i.badUnits then .unitTable
  else if i.badWheels s p then .wheel
  else if i.badTrees s p then .tree
  else if i.placed.any (fun x => !x.data.isEmpty && !s.inWindows p x.load x.data.length) then .window
  else if s.loadBusy p then .busy
  else .done

/-- An image as the device keeps it. -/
def Parsed.image (i : Parsed) (bs : List Byte) : Image :=
  { code := i.code 1, isareq := i.isareq, units := i.units, wheels := i.wheels, trees := i.trees, starts := i.starts, bytes := bs }

/-- The ranger firmware of an image. -/
def Parsed.firmware (i : Parsed) (bs : List Byte) : Image := { code := i.code 2, isareq := i.isareq, bytes := bs }

/-- Sections written to device memory. -/
def State.placeSections (s : State) (xs : List Sect) : State := xs.foldl (fun s x => s.weakPoke x.load x.data) s

/-- A partition's static slots: the old image's given up, the new one's taken where no promoted circuit still holds them, which are the set's
once it ends (R324, R329). The partition's own promoted circuits on those wheels end, so that they and the set keep within the quota (R323). -/
def State.reserveStatic (s : State) (p : Nat) (i : Image) : State :=
  let old := ((s.imageOf p).map Image.slots).getD []
  let s1 := (s.withHub { s.hub with images := NatMap.put p i s.hub.images }).dropSlots old
  let wheels := i.slots.map (·.1)
  let s2 := s1.endPromoted fun q => decide (q.part = p) && q.path.any fun k => wheels.contains k.1
  s2.takeSlots p (i.slots.filter fun k => (NatMap.find (slotKey k) s2.fabric.wheels).isNone)

/-- An accepted image installed for a partition; the episodes of the trees it replaces are over. Ranger firmware without a section of kind 2 is code
of no bundles (log entry 126). -/
def State.installImage (s : State) (p : Nat) (bs : List Byte) (i : Parsed) : State :=
  let s1 := (s.placeSections i.placed).reserveStatic p (i.image bs)
  let s2 := s1.withHub
    { s1.hub with
      episodes := s1.hub.episodes.filter fun e => decide (e.tree / 64 ≠ p)
      barNext := s1.hub.barNext.filter fun e => decide (e.1 / 512 / 64 ≠ p) }
  if i.signed then { s2 with port := { s2.port with nextFw := some (i.firmware bs) } } else s2

end Sys2Proof.Machine
end

