-- ==== Sys2Proof/Machine/Pods.lean ====
section
/-! DEFINITION. Pod barriers (R308, R342, R343): contributions to an episode, its combination, and its result. A tree is named
by 64 × partition + TREE; a participant is a core, or 256 and the Ibaskov port of a child package. -/

namespace Sys2Proof.Machine

/-! ### Trees (R342) -/

/-- The tree record of a key. -/
def State.treeOf (s : State) (key : Nat) : Option Tree :=
  (s.imageOf (key / 64)).bind fun i => i.trees.find? fun t => decide (t.num = key % 64)

/-- The participants whose contributions an episode of this package needs. -/
def Tree.participants (t : Tree) : List Nat :=
  ((upFrom 0 256).filter fun c => t.members.getLsbD c) ++ ((upFrom 0 32).filter fun p => t.down.getLsbD p).map fun p => 256 + p

/-- A value as N63. -/
def low63 (x : Word) : Nat := x.toNat % 2 ^ 63

/-- Two contributions combined (R342). -/
def Tree.combine (t : Tree) (a b : Word) : Word :=
  BitVec.ofNat 64 (match t.op.toNat with
    | 0 => (low63 a + low63 b) % 2 ^ 63
    | 1 => min (low63 a) (low63 b)
    | 2 => max (low63 a) (low63 b)
    | 3 => low63 a &&& low63 b
    | 4 => low63 a ||| low63 b
    | _ => low63 a ^^^ low63 b)

/-! ### Episodes (R343) -/

/-- An episode of a tree, the fresh one where none is open. -/
def State.episodeAt (s : State) (key n : Nat) : Episode :=
  (s.hub.episodes.find? fun e => decide (e.tree = key) && decide (e.num = n)).getD
    { tree := key, num := n, value := none, joined := [], broken := false, since := s.time }

/-- The episodes without one. -/
def State.dropEpisode (s : State) (key n : Nat) : State :=
  s.withHub { s.hub with episodes := s.hub.episodes.filter fun e => !(decide (e.tree = key) && decide (e.num = n)) }

/-- The episodes with one replaced. -/
def State.setEpisode (s : State) (e : Episode) : State :=
  let t := s.dropEpisode e.tree e.num
  t.withHub { t.hub with episodes := t.hub.episodes ++ [e] }

/-- The next episode of a participant on a tree. -/
def State.nextEpisode (s : State) (key part : Nat) : Nat := NatMap.findD 0 (key * 512 + part) s.hub.barNext

/-- The first episode of a tree whose result has not come. -/
def State.openEpisode (s : State) (key : Nat) : Nat := s.nextEpisode key 511

/-- A packet between the packages of a tree, by an Ibaskov port. -/
def State.podPacket (s : State) (key port : Nat) (body : PktBody) : Packet :=
  { cls := 7#3, spkg := s.fabric.num, score := 0, dpkg := (s.portAt port).peer, dcore := 0, label := 0#16, podid := s.podOf (key / 64),
    tok := none, body := body, via := port + 1 }

/-- The value of an entry (R308). -/
def podEntry (v : Word) (broken : Bool) : Word := BitVec.ofNat 64 (low63 v + b2n broken * 2 ^ 63)

/-- The entries of the members that wait for an episode filled. -/
def State.answerBars (s : State) (v : Word) : List BarWait → State
  | [] => s
  | b :: bs => State.answerBars (s.answer b.unit b.id v) v bs

/-- An episode after its result: forgotten once every participant has joined it, and else kept for those still to come. -/
def State.keepEpisode (s : State) (t : Tree) (e : Episode) : State :=
  if t.participants.all e.joined.contains then s.dropEpisode e.tree e.num else s.setEpisode e

/-- What a package from whose part of a tree no contribution came sends toward the root: values are of 63 bits. -/
def noValue : Word := BitVec.ofNat 64 (2 ^ 63)

/-- An episode that is complete here: the root's result goes down; another package's goes to its parent, or, where the port
toward the parent is lost, its members learn BROKEN (R343). -/
def State.episodeDone (s : State) (key : Nat) (t : Tree) (e : Episode) : State :=
  let v := e.value.getD 0#64
  if t.root then s.addDue [.podBarrierResult key v e.broken]
  else if (s.portAt t.up).lost then s.addDue [.podBarrierResult key v true]
  else s.post (s.podPacket key t.up (.podUp t.num (e.value.getD noValue) e.broken))

/-- One contribution to the next episode of its participant (R308, R343). -/
def State.contributeOne (s : State) (key part : Nat) (v : Option Word) (broken : Bool) : State :=
  match s.treeOf key with
  | none => s
  | some t =>
    let n := s.nextEpisode key part
    let e := s.episodeAt key n
    let value := match e.value, v with
      | some a, some b => some (t.combine a b)
      | none, some b => some (BitVec.ofNat 64 (low63 b))
      | a, none => a
    let late := decide (n < s.openEpisode key)
    let e1 : Episode :=
      if late then { e with joined := e.joined ++ [part] }
      else { e with value := value, joined := e.joined ++ [part], broken := e.broken || broken }
    let s1 := (s.setEpisode e1).withHub { (s.setEpisode e1).hub with barNext := NatMap.put (key * 512 + part) (n + 1) s.hub.barNext }
    let s2 := if e.joined.isEmpty && t.root && decide (t.tmo ≠ 0) then s1.addDue [.barTimeout key] else s1
    if late then s2.keepEpisode t e1
    else if t.participants.all e1.joined.contains then s2.episodeDone key t e1
    else s2

/-- Once the child packages alone that are lost keep the open episode of a tree from completing, they count as BROKEN in it, with no
value; where a package has nothing but lost children below it, that is so from the start (R343). -/
def State.settleTree (s : State) (key : Nat) : State :=
  match s.treeOf key with
  | none => s
  | some t =>
    let e := s.episodeAt key (s.openEpisode key)
    let missing := t.participants.filter fun q => !e.joined.contains q
    let alone := decide (t.members = 0#256) && !t.root
    if (!e.joined.isEmpty || alone) && !missing.isEmpty && missing.all (fun q => decide (256 ≤ q) && (s.portAt (q - 256)).lost) then
      missing.foldl (fun s q => s.contributeOne key q none true) s
    else s

/-- POD_BARRIER_RESULT: the result of the oldest open episode reaches its members and goes on to the child packages (R343). -/
def State.podResult (s : State) (key : Nat) (v : Word) (broken : Bool) : State :=
  match s.treeOf key with
  | none => s
  | some t =>
    let n := s.openEpisode key
    let hit := s.hub.barWaits.filter fun b => decide (b.tree = key) && decide (b.num = n)
    let s0 := s.keepEpisode t { (s.episodeAt key n) with value := some v, broken := broken }
    let s1 := s0.withHub
      { s0.hub with
        barWaits := s.hub.barWaits.filter fun b => !(decide (b.tree = key) && decide (b.num = n))
        barNext := NatMap.put (key * 512 + 511) (n + 1) s.hub.barNext }
    let s2 := s1.answerBars (podEntry v broken) hit
    (((upFrom 0 32).filter fun p => t.down.getLsbD p).foldl (fun s p => s.post (s.podPacket key p (.podDown t.num v broken))) s2).settleTree key

/-- A contribution to the next episode of its participant (R308, R343). -/
def State.contribute (s : State) (key part : Nat) (v : Option Word) (broken : Bool) : State :=
  (s.contributeOne key part v broken).settleTree key

/-- A contribution of a participant to a tree that is still due. -/
def joinsAs (key part : Nat) (a : Action) : Bool :=
  match a with
  | .podBarrierCombine k (some p) _ _ => decide (k = key) && decide (p = part)
  | _ => false

/-- The contributions of a core to a tree that are still due, those of units ended by cancellation, made now: they come before what its next
unit contributes (R308). -/
def State.joinEarlier (s : State) (key part : Nat) : State :=
  (s.due.filter (joinsAs key part)).foldl (fun s _ => s.contribute key part none true) { s with due := s.due.filter fun a => !joinsAs key part a }

/-- POD_BARRIER_COMBINE (R308, R343): a child's value, or the BROKEN contribution of a member that was cancelled. -/
def execPodBarrierCombine (s : State) : Host.Outcome State Fault Refusal :=
  match s.act with
  | some (.podBarrierCombine key (some part) v broken) =>
    .next (s.contribute key part (if (part < 256 ∧ broken) ∨ v.getLsbD 63 then none else some v) broken)
  | _ => .next s

/-- POD_BARRIER_RESULT (R343). -/
def execPodBarrierResult (s : State) : Host.Outcome State Fault Refusal :=
  match s.act with
  | some (.podBarrierResult key v broken) => .next (s.podResult key v broken)
  | _ => .next s

/-- BAR_TIMEOUT (R343): the root completes an episode BROKEN when TMO cycles have passed since its first contribution. -/
def State.expireEpisode (s : State) (key : Nat) : State :=
  match s.treeOf key with
  | none => s
  | some t =>
    match s.hub.episodes.find? fun e => decide (e.tree = key) && decide (e.num = s.openEpisode key) with
    | none => s
    | some e =>
      if t.participants.all e.joined.contains then s
      else if e.since + t.tmo ≤ s.time then
        (s.event .barTimeout 5 0 (some (key / 64)) 0#64 0#32 0#32 (BitVec.ofNat 64 t.num)).podResult key (e.value.getD 0#64) true
      else s.addDue [.barTimeout key]

/-- BAR_TIMEOUT (R343). -/
def execBarTimeout (s : State) : Host.Outcome State Fault Refusal :=
  match s.act with
  | some (.barTimeout key) => .next (s.expireEpisode key)
  | _ => .next s

end Sys2Proof.Machine
end

