-- ==== Sys2Proof/Machine/Power.lean ====
section
/-! DEFINITION. Operating points, the steps of SRAM domains, the limits of a control interval and the accounting of energy
(R369 to R390, R403 to R405). -/

namespace Sys2Proof.Machine

/-! ### Domains (R12) -/

/-- Whether a domain is a compute logic domain. -/
def isLogic (d : Nat) : Bool := decide (d < 64) && decide (d % 8 < 4)

/-- Whether a domain is a compute SRAM domain. -/
def isSram (d : Nat) : Bool := decide (d < 64) && decide (4 ≤ d % 8)

/-- Whether a domain is a hub SRAM quadrant. -/
def isHubSram (d : Nat) : Bool := decide (64 ≤ d) && decide (d ≤ 67)

/-- The cores of a compute domain; none of a hub domain. -/
def coresOfDomain (d : Nat) : List Nat := if d < 64 then coresOf (quadOfDomain d) else []

/-- The floor of a way of a slice as the blob gives it. -/
def State.blobWay (s : State) (slice way : Nat) : Nat := Config.blobWayFloor s.power.blob slice way % 8

/-- The floor of a way of a slice (R371). At least 8 ways hold data at OP0 (R374): where the blob names fewer, the first 8 do (log entry 11). -/
def State.wayFloor (s : State) (slice way : Nat) : Nat :=
  if way < 8 ∧ sumOf (fun w => b2n (decide (s.blobWay slice w = 0))) (upFrom 0 24) < 8 then 0 else s.blobWay slice way

/-- The ways that a slice uses at a point (R374). -/
def State.waysAt (s : State) (slice k : Nat) : Nat := sumOf (fun w => b2n (decide (s.wayFloor slice w ≤ k))) (upFrom 0 24)

/-- The ways that a hub SRAM quadrant drops in a step to point `k` (R374). -/
def State.waysLost (s : State) (d k : Nat) : Nat :=
  sumOf (fun i => s.waysAt i (s.opOf d) - s.waysAt i k) (upFrom (16 * (d - 64)) 16)

/-! ### Answers -/

/-- Entries of units filled with one value. -/
def State.answerAll (s : State) (v : Word) : List (Nat × Nat) → State
  | [] => s
  | e :: es => State.answerAll (s.answer e.1 e.2 v) v es

/-- The entry of RVSET (R405). -/
def rvEntry (status point : Nat) : Word := BitVec.ofNat 64 (status + min point 7 * 16)

/-- The entry of EVAC (R404). -/
def Step.entry (t : Step) : Word := BitVec.ofNat 64 (t.moved % 2 ^ 20 + t.spilled % 256 * 2 ^ 20 + t.preempted % 256 * 2 ^ 28)

/-! ### Down-steps of an SRAM domain (R376 to R378, R404) -/

/-- Whether the rows held on a core fit under a target (R376). -/
def State.fitsAt (s : State) (c k : Nat) : Bool := decide (s.rowsHeld c ≤ s.capRowsAt c k)

/-- Whether one resident suspended unit is spilled before another: by base priority, then the latest admitted (R376). -/
def spillsFirst (a b : Uni) : Bool := decide (a.prio < b.prio) || (decide (a.prio = b.prio) && decide (b.admitN < a.admitN))

/-- The resident suspended unit of a core that is spilled first. -/
def State.spillNext (s : State) (c : Nat) : Option Nat :=
  let us := (s.holders c).filter fun u => u.2.ctx.isSome && decide (u.2.st ≠ .ended) && decide ((s.coreAt c).standby ≠ some u.1)
  match us with
  | [] => none
  | u :: rest => some (rest.foldl (fun b v => if spillsFirst v.2 b.2 then v else b) u).1

/-- A core fitted under a target: suspended units are spilled, then the standby unit goes back; the number bounds the steps. -/
def State.fitCore (s : State) (d c k : Nat) : Nat → State
  | 0 => s
  | n + 1 =>
    if s.fitsAt c k then s
    else
      match s.spillNext c with
      | some u => State.fitCore (((s.spill u).respot u).modStep d fun t => { t with spilled := t.spilled + 1 }) d c k n
      | none => if (s.coreAt c).standby.isSome then State.fitCore (s.demote c) d c k n else s

/-- A pre-emption for capacity withdrawn: what is held fits without it, or the step is over (R376). -/
def State.unpreempt (s : State) (c : Nat) : State :=
  s.modCore c fun x => if x.preempt = some .capacity then { x with preempt := none } else x

/-- The running unit of a core that still does not fit, once STEPWAIT has passed, is to be pre-empted whatever its priority. -/
def State.fitRunning (s : State) (c k since : Nat) : State :=
  let x := s.coreAt c
  if s.fitsAt c k then s.unpreempt c
  else if x.unit.isNone ∨ x.preempt = some .capacity ∨ s.time < since + s.hub.stepwait.toNat then s
  else (s.modCore c fun x => { x with preempt := some .capacity }).addDue [.preemption c]

/-- The first row in use whose physical row has a floor above a point. -/
def State.badRow (s : State) (c k : Nat) : Option Nat := (s.rowsInUse c).find? fun r => decide (k < s.floorOf c (s.physRow c r))

/-- A core's allocations moved below a target where one reaches past it (R376, step 3). -/
def State.compactBelow (s : State) (k : Nat) (c : Nat) : State :=
  if (s.holders c).any fun u => decide (s.capRowsAt c k < u.2.rowBase + u.2.rows) then s.compact c (s.holders c) 0 else s

/-- Steps 1 to 4 done: the EVAC entries that wait are filled. -/
def State.evacDone (s : State) (d : Nat) : State :=
  match s.stepOf d with
  | none => s
  | some t => (s.modStep d fun t => { t with out := true, evacs := [] }).answerAll t.entry t.evacs

/-- The next row to move on a domain's cores, or the end of step 4 (R376). -/
def State.evacNext (s : State) (d k : Nat) : State :=
  match (coresOfDomain d).findSome? fun c => (s.badRow c k).map fun r => (c, r) with
  | some (c, r) => s.addDue [.evacRowMove c r]
  | none => s.evacDone d

/-- STEPWAIT_EXPIRE (R376, step 2): the cores are fitted; those whose running unit stands in the way wait for it to end, or
pre-empt it once STEPWAIT has passed; then steps 3 and 4 begin. -/
def State.fitDomain (s : State) (d : Nat) : State :=
  match s.stepOf d with
  | none => s
  | some t =>
    if t.fitted then s
    else
      let cs := coresOfDomain d
      let s1 := s.each (fun s c => s.fitCore d c t.target 200) cs
      if cs.all fun c => s1.fitsAt c t.target then
        let s2 := ((s1.each State.unpreempt cs).modStep d fun u => { u with fitted := true }).each (fun s c => s.compactBelow t.target c) cs
        s2.evacNext d t.target
      else (s1.each (fun s c => s.fitRunning c t.target t.since) cs).addDue [.stepwaitExpire d]

/-- STEPWAIT_EXPIRE (R376). -/
def execStepwaitExpire (s : State) : Host.Outcome State Fault Refusal :=
  match s.act with
  | some (.stepwaitExpire d) => .next (s.fitDomain d)
  | _ => .next s

/-- The Engine-dirty lines of a logical row written back before it is copied (R202). -/
def State.flushRow (s : State) (c row : Nat) : State :=
  match (s.holders c).find? fun u => decide (u.2.rowBase ≤ row) && decide (row < u.2.rowBase + u.2.rows) with
  | none => s
  | some (u, x) =>
    let first := x.decl.rows - x.decl.stash
    if row - x.rowBase < first then s else s.writeBack u 0xFF#8 ((s.padOf u).rowLines (row - x.rowBase - first))

/-- EVAC_ROW_MOVE (R376, R377): one row copied and remapped; what a unit reads does not change. A row whose move a later target overtook waits
until steps 2 and 3 are done for that target (R404). -/
def State.moveRow (s : State) (c row : Nat) : State :=
  let d := sramDomain (quadOf c)
  match s.stepOf d with
  | none => s
  | some t =>
    if !t.fitted then s
    else
      let s1 :=
        if s.floorOf c (s.physRow c row) ≤ t.target then s
        else
          match s.freePhys c t.target with
          | some r => ((s.flushRow c row).remapRow c row r).modStep d fun t => { t with moved := t.moved + 1 }
          | none => s
      if s1.badRow c t.target = some row then s1 else s1.evacNext d t.target

/-- EVAC_ROW_MOVE (R377). -/
def execEvacRowMove (s : State) : Host.Outcome State Fault Refusal :=
  match s.act with
  | some (.evacRowMove c row) => .next (s.moveRow c row)
  | _ => .next s

/-- A down-step announced toward a target, in place of the target of one pending (R376, R404). -/
def State.announce (s : State) (d k : Nat) (es : List (Nat × Nat)) : State :=
  let t := (s.stepOf d).getD { target := k, since := s.time }
  let t1 : Step := { t with target := k, since := s.time, fitted := false, out := false, evacs := t.evacs ++ es }
  (s.withPower { s.power with steps := NatMap.put d t1 s.power.steps }).addDue (if s.due.contains (.stepwaitExpire d) then [] else [.stepwaitExpire d])

/-- Whether lowering an SRAM domain to a point is refused (R378). -/
def State.rowBlocked (s : State) (d k : Nat) : Bool :=
  (coresOfDomain d).any fun c =>
    (s.badRow c k).isSome || (s.holders c).any fun u => decide (s.capRowsAt c k < u.2.rowBase + u.2.rows)

/-- The dispatcher told to test the units of a domain's cores again. -/
def State.retest (s : State) (d : Nat) : State := s.addDue ((coresOfDomain d).map Action.unitAdmit)

/-- The end of a pending step (R376, R405): the EVAC entries that wait are filled, and what it asked to leave stays. -/
def State.endStep (s : State) (d : Nat) : State :=
  match s.stepOf d with
  | none => s
  | some t =>
    let s1 := s.answerAll t.entry t.evacs
    (s1.withPower { s1.power with steps := NatMap.del d s1.power.steps }).each State.unpreempt (coresOfDomain d)

/-- A request held while a step of its domain is in progress; one held before gives way to it (R379), an RVSET with status 1 and an EVAC
refused, unless both are RVSETs: the entries of those are answered together (log entry 124). -/
def State.holdRequest (s : State) (d : Nat) (n : Nudge) : State :=
  let put (s : State) (n : Nudge) : State := s.withPower { s.power with waiting := NatMap.put d n s.power.waiting }
  match NatMap.find d s.power.waiting with
  | none => put s n
  | some o =>
    if o.evac then put (s.answerAll (BitVec.ofNat 64 (2 ^ 63)) o.entries) n
    else if n.evac then put (s.answerAll (rvEntry 1 (s.opOf d)) o.entries) n
    else put s { n with entries := o.entries ++ n.entries }

/-- An RVSET of an SRAM domain or hub SRAM quadrant (R375 to R379, R405): one that arrives while another is under way is held. -/
def State.setSram (s : State) (d : Nat) (n : Nudge) : State :=
  let k := n.point
  let now := s.opOf d
  let step := s.stepOf d
  let busy := (NatMap.find d s.power.ups).isSome || (step.bind Step.settling).isSome || (step.isSome && decide (now < k))
  if busy then s.holdRequest d n
  else if k = now then ((s.endStep d).retest d).answerAll (rvEntry 0 now) n.entries
  else if k < now then
    if s.rowBlocked d k then s.answerAll (rvEntry 1 now) n.entries
    else
      let t := step.getD { target := k, since := s.time, fitted := true, out := true }
      (s.withPower { s.power with steps := NatMap.put d { t with target := min t.target k, settling := some n } s.power.steps }).addDue [.stepSettle d]
  else (s.withPower { s.power with ups := NatMap.put d n s.power.ups }).addDue [.sramUpstep d k]

/-- An EVAC (R374, R404): one that arrives during an up-step is held (R379); else a compute SRAM domain's step is announced, and a hub SRAM
quadrant's ways write back at once. -/
def State.evacSram (s : State) (d : Nat) (n : Nudge) : State :=
  if (NatMap.find d s.power.ups).isSome then s.holdRequest d { n with evac := true }
  else if isHubSram d then s.answerAll (BitVec.ofNat 64 (s.waysLost d n.point)) n.entries
  else s.announce d n.point n.entries

/-- The held request of a domain taken up when a step ends (R379). -/
def State.takeHeld (s : State) (d : Nat) : State :=
  match NatMap.find d s.power.waiting with
  | none => s
  | some n =>
    let s1 := s.withPower { s.power with waiting := NatMap.del d s.power.waiting }
    if n.evac then s1.evacSram d n else s1.setSram d n

/-- RVSET of an SRAM domain: to the current point, it ends a pending step, and a request held for that end is taken up (R379, R405). -/
def State.rvsetSram (s : State) (d : Nat) (n : Nudge) : State :=
  let t := s.setSram d n
  if (t.stepOf d).isNone ∧ (NatMap.find d t.power.ups).isNone then t.takeHeld d else t

/-- STEP_SETTLE (R376, step 5): the voltage has settled at the point of RVSET, CAPROWS takes its value, and the step is no
longer pending unless a lower target was announced since. A row in use with a floor above that point still keeps the voltage where it is (R378). -/
def State.settleStep (s : State) (d : Nat) : State :=
  match s.stepOf d with
  | none => s
  | some t =>
    match t.settling with
    | none => s
    | some n =>
      let s0 := s.modStep d fun t => { t with settling := none }
      if s.rowBlocked d n.point then s0.answerAll (rvEntry 1 (s.opOf d)) n.entries
      else
        let s1 := s0.setOp d n.point
        let more := decide (t.target < n.point)
        let s2 := if more then s1 else s1.endStep d
        let s3 := (s2.answerAll (rvEntry 0 n.point) n.entries).retest d
        if more then s3 else s3.takeHeld d

/-- STEP_SETTLE (R376). -/
def execStepSettle (s : State) : Host.Outcome State Fault Refusal :=
  match s.act with
  | some (.stepSettle d) => .next (s.settleStep d)
  | _ => .next s

/-- The launches and units that wait for capacity, tested again (R291). -/
def State.retestLaunches (s : State) : State :=
  let ls := (s.accList.filter fun a => match a.2.launch with | some l => l.waiting && decide (a.2.st = .opn) | none => false).map (·.1)
  let us := (s.hub.units.filter fun u => decide (u.2.st = .created) && u.2.spot.wait).map (·.1)
  s.addDue (ls.flatMap placers ++ us.map fun u => Action.unitPlace (16384 + u) 0)

/-- SRAM_UPSTEP (R375): the voltage has risen, and CAPROWS with it. -/
def State.upstep (s : State) (d k : Nat) : State :=
  if k ≤ s.opOf d then s
  else
    let es := ((NatMap.find d s.power.ups).map Nudge.entries).getD []
    let s1 := (s.setOp d k).withPower { (s.setOp d k).power with ups := NatMap.del d s.power.ups }
    (((s1.answerAll (rvEntry 0 k) es).retest d).retestLaunches).takeHeld d

/-- SRAM_UPSTEP (R375). -/
def execSramUpstep (s : State) : Host.Outcome State Fault Refusal :=
  match s.act with
  | some (.sramUpstep d k) => .next (s.upstep d k)
  | _ => .next s

/-! ### Logic domains (R370, R384, R386, R388) -/

/-- The requested point of a logic domain, 8 for boost (R388). -/
def State.reqOf (s : State) (d : Nat) : Nat := NatMap.findD 0 d s.power.req

/-- The ceiling of a quadrant, 8 for boost (R386). -/
def State.ceilOf (s : State) (q : Nat) : Nat := NatMap.findD 8 q s.power.ceil

/-- The allowance of a partition (R385). -/
def State.allowOf (s : State) (p : Nat) : Nat := NatMap.findD 7 p s.power.allow

/-- The current-limit level of a quadrant (R384). -/
def State.ilevelOf (s : State) (q : Nat) : Nat := NatMap.findD 0 q s.power.ilevel

/-- The allowance that a quadrant's partition gives it. -/
def State.quadAllow (s : State) (q : Nat) : Nat := match s.ownerOfQuad q with | some p => s.allowOf p | none => 7

/-- The point of a quadrant's logic domain by its request and limits, and whether boost is taken (R388, R396). -/
def State.logicPoint (s : State) (q : Nat) : Nat × Bool :=
  let r := s.reqOf (logicDomain q)
  let base := min (min (min r 7) (s.quadAllow q)) (min (s.ceilOf q) 7)
  (base, decide (r = 8) && decide (base = 7) && decide (s.ceilOf q = 8) && decide (s.ilevelOf q = 0) && decide (s.hub.modeDisp = 0#2))

/-- A list with a number in it or not. -/
def withNum (b : Bool) (n : Nat) (l : List Nat) : List Nat := if b then (if l.contains n then l else l ++ [n]) else l.filter fun m => decide (m ≠ n)

/-- RVSETs of a logic domain answered at a boundary (R405). -/
def State.answerLogic (s : State) (d point : Nat) (full : Bool) : State :=
  let es := NatMap.findD [] d s.power.logicWait
  (s.withPower { s.power with logicWait := NatMap.del d s.power.logicWait }).answerAll (rvEntry (if full then 0 else 3) point) es

/-- The step of a logic domain that is still to come, called off. -/
def State.dropLogic (s : State) (d : Nat) : State :=
  { s with due := s.due.filter fun a => match a with | .logicStep e _ => decide (e ≠ d) | _ => true }

/-- A logic domain at a new point (R370): a step still to come is called off, below OP7 there is no boost, and where the point changes the return
combiners of its cores flush (R274). -/
def State.stepLogic (s : State) (d k : Nat) : State :=
  let s1 := (s.dropLogic d).setOp d k
  let q := quadOfDomain d
  let s2 := if isLogic d ∧ k ≠ 7 then s1.withPower { s1.power with boost := withNum false q s1.power.boost } else s1
  if s.opOf d = k then s2 else s2.each State.flushComb (coresOfDomain d)

/-- A quadrant's logic domain at an interval boundary (R388): its step toward the point of this boundary, in place of one still to come. -/
def State.boundaryQuad (s0 : State) (q : Nat) : State :=
  let d := logicDomain q
  let s := s0.dropLogic d
  let r := s.reqOf d
  let (k, b) := s.logicPoint q
  let s1 := s.withPower { s.power with boost := withNum b q s.power.boost, deferred := withNum (decide (r = 8) && !b) q s.power.deferred }
  (if k = s1.opOf d then s1 else s1.addDue [.logicStep d k]).answerLogic d k (b || decide (k = r))

/-- The hub logic domain at an interval boundary. -/
def State.boundaryHub (s0 : State) : State :=
  let s := s0.dropLogic 68
  let r := s.reqOf 68
  (if r = s.opOf 68 then s else s.addDue [.logicStep 68 r]).answerLogic 68 r true

/-- LOGIC_STEP (R370). -/
def execLogicStep (s : State) : Host.Outcome State Fault Refusal :=
  match s.act with
  | some (.logicStep d k) => .next (s.stepLogic d k)
  | _ => .next s

/-- CURRENT_LIMIT_ENGAGE (R384, R388): bundles split; boost ends at once and its grant is held. -/
def execCurrentLimitEngage (s : State) : Host.Outcome State Fault Refusal :=
  match s.act with
  | some (.currentLimitEngage q) =>
    if s.ilevelOf q ≠ 0 then .next s
    else
      let boosted := s.power.boost.contains q
      let p := { s.power with
        ilevel := NatMap.putD 0 q 1 s.power.ilevel, boost := withNum false q s.power.boost,
        deferred := if boosted then withNum true q s.power.deferred else s.power.deferred }
      .next ((s.withPower p).addDue [.currentLimitLevel2 q])
  | _ => .next s

/-- CURRENT_LIMIT_LEVEL2 (R384): 2 µs later the current, as sensed, still exceeds ILIM or not. -/
def execCurrentLimitLevel2 (s : State) : Host.Outcome State Fault Refusal :=
  match s.act with
  | some (.currentLimitLevel2 q) =>
    .next (if s.ilevelOf q = 1 ∧ Config.sense s.free q % 2 = 1 then s.withPower { s.power with ilevel := NatMap.putD 0 q 2 s.power.ilevel } else s)
  | _ => .next s

/-- THERMAL_CRIT (R386): OP0 at once, within the interval, and the event. -/
def execThermalCrit (s : State) : Host.Outcome State Fault Refusal :=
  match s.act with
  | some (.thermalCrit q) =>
    let s1 := s.withPower { s.power with ceil := NatMap.put q 0 s.power.ceil, cool := NatMap.putD 0 q 0 s.power.cool }
    .next ((s1.event .thermalCrit 4 (logicDomain q) (s.ownerOfQuad q)).stepLogic (logicDomain q) 0)
  | _ => .next s

/-! ### Energy (R380 to R382) -/

/-- The ACTIVE partitions. -/
def State.activeParts (s : State) : List Nat := (upFrom 0 8).filter fun p => decide ((s.partAt p).st = 1#2)

/-- A charge in nanojoules, rounded down to microjoules with the fraction carried to the next interval under a key (R380). -/
def State.rounded (s : State) (key nj : Nat) : Nat × State :=
  let t := nj + NatMap.findD 0 key s.power.carryNj
  (t / 1000, s.withPower { s.power with carryNj := NatMap.putD 0 key (t % 1000) s.power.carryNj })

/-- Energy charged to a partition (R381). -/
def State.chargePart (s : State) (p nj : Nat) : State :=
  let (uj, s1) := s.rounded p nj
  s1.withPower { s1.power with energy := NatMap.putD 0#64 p (NatMap.findD 0#64 p s1.power.energy + BitVec.ofNat 64 uj) s1.power.energy }

/-- An allowance that is unlimited (R382). -/
def unlimited : Word := BitVec.ofNat 64 (2 ^ 63 - 1)

/-- Energy charged to a job account (R382). -/
def State.chargeJob (s : State) (i nj : Nat) : State :=
  let a := s.accAt i
  if a.st = .free ∨ a.allow = unlimited then s
  else
    let (uj, s1) := s.rounded (16 + i) nj
    let left := a.allow - BitVec.ofNat 64 uj
    let s2 := s1.setAcc i { a with allow := left, stopped := a.stopped || decide (left.toInt ≤ 0) }
    if 0 < a.allow.toInt ∧ left.toInt ≤ 0 then s2.event .allowEmpty 5 0 (some a.part) 0#64 (accHandle i a) else s2

/-- The job accounts with a positive allowance admit units again, at the end of an interval (R382). -/
def State.resumeJobs (s : State) : State :=
  (s.accList.filter fun a => a.2.stopped && decide (0 < a.2.allow.toInt)).foldl (fun s a => s.setAcc a.1 { s.accAt a.1 with stopped := false }) s

/-- The share of a core charged to the job of the unit RUNNING on it (R381). -/
def State.chargeCore (s : State) (c nj : Nat) : State :=
  let x := s.coreAt c
  if x.unit.isSome ∧ x.hold.valid ∧ x.hold.pkg = s.fabric.num then s.chargeJob (s.jobOf (accId x.hold.acct) 16384) nj else s

/-- The cores of a quadrant charged in turn. -/
def State.chargeCores (s : State) : List (Nat × Nat) → State
  | [] => s
  | e :: es => State.chargeCores (s.chargeCore e.1 e.2) es

/-- The shares of the cores in a charge, in proportion to their table energies (R381). -/
def shares (total : Nat) (ws : List Nat) : List Nat :=
  let sum := sumOf id ws
  ws.map fun w => if sum = 0 then 0 else total * w / sum

/-- The energy of a quadrant charged to its owner, and shared among its cores (R380, R381; log entry 91). -/
def State.chargeQuad (s : State) (r : Reading) : State :=
  let s1 := match s.ownerOfQuad r.quad with
    | some p => s.chargePart p r.energyNj
    | none => s
  s1.chargeCores ((coresOf r.quad).zip (shares r.energyNj r.coreNj))

/-- The energy of hub and fixed supplies divided among the ACTIVE partitions: by the table energies of their accesses, which are free since the
spec gives no energy of a hub access, and the idle remainder by quadrants (R380; log entry 91). -/
def State.chargeShared (s : State) (busy idle : Nat) : State :=
  let ps := s.activeParts
  let w (p : Nat) : Nat := Config.sense s.free (1000 + p)
  let total := sumOf w ps
  let quads := sumOf (fun p => (s.partAt p).quadList.length) ps
  s.each (fun s p =>
    let byUse := if total = 0 then 0 else busy * w p / total
    let byQuads := if quads = 0 then 0 else idle * (s.partAt p).quadList.length / quads
    s.chargePart p (byUse + byQuads)) ps

/-! ### Limits at a boundary (R384 to R387, R396) -/

/-- The current-limit level of a quadrant after an interval (R384). -/
def State.easeCurrent (s : State) (r : Reading) : State :=
  if r.currentOk then s.withPower { s.power with ilevel := NatMap.putD 0 r.quad (s.ilevelOf r.quad - 1) s.power.ilevel } else s

/-- The ceiling of a quadrant after an interval (R386); at 105 °C or above it is OP0 by now. -/
def State.heat (s : State) (r : Reading) : State :=
  let c := s.ceilOf r.quad
  let n := NatMap.findD 0 r.quad s.power.cool
  let put (c n : Nat) : State :=
    s.withPower { s.power with ceil := NatMap.putD 8 r.quad c s.power.ceil, cool := NatMap.putD 0 r.quad n s.power.cool }
  if 105 ≤ r.tempC then put 0 0
  else if 95 ≤ r.tempC then put (c - 1) 0
  else if 88 < r.tempC then put c 0
  else if 10 ≤ n + 1 then put (min 8 (c + 1)) 0
  else put c (n + 1)

/-- The quadrants held by the ACTIVE partitions. -/
def State.activeQuads (s : State) : Nat := sumOf (fun p => (s.partAt p).quadList.length) s.activeParts

/-- The power floors of the ACTIVE partitions together (R387, R389). -/
def State.floorSum (s : State) : Nat := sumOf (fun p => (s.partAt p).pfloor.toNat) s.activeParts

/-- The power budget of a partition in watts, times the quadrants of the ACTIVE partitions, at least 1 (R387): the share of the surplus need be no
whole number of watts. -/
def State.budget (s : State) (p : Nat) : Nat :=
  (s.partAt p).pfloor.toNat * max 1 s.activeQuads + (s.power.capEff - s.floorSum) * (s.partAt p).quadList.length

/-- The cap and allowance of a partition after an interval of a power in nanojoules per 10 µs: a watt is 10,000 (R385, R396). -/
def State.limitPower (s : State) (p nj : Nat) : State :=
  let c := s.capOf p
  let a := s.allowOf p
  let put (c a : Nat) : State :=
    s.withPower { s.power with cap := NatMap.putD 0 p c s.power.cap, allow := NatMap.putD 7 p a s.power.allow }
  let b := s.budget p * 10000
  let used := nj * max 1 s.activeQuads
  if s.hub.modeDisp = 2#2 then put 0 7
  else if b < used then (if c < 4 then put (c + 1) a else put c (a - 1))
  else if 10 * used < 9 * b then (if a < 7 then put c (a + 1) else put (c - 1) a)
  else s

/-- The energy of a partition's quadrants in an interval. -/
def State.partNj (s : State) (rs : List Reading) (p : Nat) : Nat :=
  sumOf Reading.energyNj (rs.filter fun r => (s.partAt p).quads.getLsbD r.quad)

/-- `f` for each reading in turn. -/
def State.eachReading (s : State) (f : State → Reading → State) : List Reading → State
  | [] => s
  | r :: rs => State.eachReading (f s r) f rs

/-- What the regulators and sensors read for the next interval (log entry 19). -/
def State.sensed (s : State) : List Reading :=
  (upFrom 0 32).map fun q =>
    let v (k : Nat) : Nat := Config.sense s.free (32 * q + k)
    { quad := q, energyNj := v 0, coreNj := (upFrom 0 8).map fun i => v (8 + i), tempC := v 1, currentOk := decide (v 2 % 2 = 0) }

/-- Quadrants whose current exceeded its limit, as sensed. -/
def State.overCurrent (s : State) : List Nat := (upFrom 0 32).filter fun q => decide (Config.sense s.free (2000 + q) % 2 = 1)

/-- CONTROL_INTERVAL (R380 to R388, R395, R396): the dispatcher and the power controller take the mode, energy is charged, the
limits move, and each logic domain takes its point. -/
def State.boundary (s : State) (rs : List Reading) (shared : Nat) : State :=
  let s1 := s.withHub { s.hub with modeDisp := s.hub.mode }
  let s2 := ((s1.eachReading (fun s r => s.chargeQuad r) rs).chargeShared shared (Config.sense s.free 3000)).resumeJobs
  let s3 := (s2.eachReading (fun s r => s.easeCurrent r) rs).eachReading (fun s r => s.heat r) rs
  let s4 := s3.each (fun s p => s.limitPower p (s.partNj rs p)) s3.activeParts
  let s5 := (s4.each (fun s q => s.boundaryQuad q) (upFrom 0 32)).boundaryHub
  let waits := (upFrom 0 256).filter fun c => !(s5.coreAt c).queue.isEmpty
  let hot := (s.sensed.filter fun r => decide (105 ≤ r.tempC)).map Reading.quad
  s5.addDue (waits.map Action.unitAdmit ++ (s.overCurrent.map Action.currentLimitEngage) ++ hot.map Action.thermalCrit
    ++ [.controlInterval s.sensed (Config.sense s.free 3001)])

/-- CONTROL_INTERVAL (R383). -/
def execControlInterval (s : State) : Host.Outcome State Fault Refusal :=
  match s.act with
  | some (.controlInterval rs shared) => .next (s.boundary rs shared)
  | _ => .next s

/-! ### The module cap (R389) -/

/-- The effective cap recomputed: the largest of the request, the idle floor and the floors of the ACTIVE partitions; floors above
the request record CAP_RAISED. The second result says whether they are, the third whether the idle floor is. -/
def State.recap (s : State) : State × Bool × Bool :=
  let req := min s.power.capReq 2600
  let sum := s.floorSum
  let eff := max (max req s.power.idleW) sum
  let s1 := s.withPower { s.power with capEff := eff }
  let raised := decide (req < sum)
  let s2 := if raised then s1.event .capRaised 5 0 none 0#64 0#32 0#32 (BitVec.ofNat 64 s.power.capReq) (BitVec.ofNat 64 eff) else s1
  (s2, raised, decide (req < s.power.idleW))

end Sys2Proof.Machine
end

