-- ==== Sys2Proof/Machine/Waits.lean ====
section
/-! DEFINITION. The forms that wait for queues, channels, counters and barriers, and FENCE with its completion (R228, R229,
R233, R241, R254, R260 to R262). A wait is judged on the state before its bundle. -/

namespace Sys2Proof.Machine

/-! ### Queues and channels -/

/-- The ready entries at the head of a queue (R203). -/
def Queue.ready (q : Queue) : Nat := (q.entries.takeWhile QEntry.filled).length

/-- Whether the sparse-index engine owns a queue (R187). -/
def Six.ownsQueue (x : Six) (q : Nat) : Bool :=
  (match x.run with | some r => decide (fld r.cfg 2 3 = q) | none => false)
    || (match x.shadow with | some p => decide (fld p.2 2 3 = q) | none => false)

/-- QWAIT (R241). -/
def execQwait (p : BitVec 3) (q : BitVec 3) (a : Src) (s : State) : Host.Outcome State Fault Refusal :=
  s.issue p [a] fun s => do
    let n ← s.getS a
    need (s.core.hasQueue q) .queueUndeclared
    need (decide (n.toNat ≤ 16)) .waitRange
    let y := s.core.queueAt q
    if n.toNat ≤ y.ready then pure s
    else do
      need (decide (n.toNat ≤ y.entries.length) || s.core.six.ownsQueue q.toNat) .waitNever
      .error (.wait [])

/-- Whether a CPYWAIT is over (R254). -/
def Chan.waited (c : Chan) (id : BitVec 32) : Bool :=
  decide ((c.done - id).toNat < 2 ^ 31) || c.error || (c.parked && c.owned.isEmpty)

/-- CPYWAIT (R254). -/
def execCpywait (p : BitVec 3) (q : BitVec 3) (a : Src) (s : State) : Host.Outcome State Fault Refusal :=
  s.issue p [a] fun s => do
    let n ← s.getS a
    if (vget {} s.core.chans q.toNat).waited (n.setWidth 32) then pure s else .error (.wait [])

/-! ### Counters (R229) -/

/-- The colour of a circuit (R331). -/
def GlHandle.colour (h : GlHandle) : Nat := fld h.block 16 3

/-- Words of a circuit not yet placed in slots. -/
def GlHandle.unsent (h : GlHandle) : Nat := sumOf (fun g => g.count - g.sent) h.pend

/-- Words of a circuit not yet acknowledged, while it can still acknowledge any. -/
def GlHandle.unacked (h : GlHandle) : Nat :=
  match h.st with
  | .opn | .closing => h.unsent + (h.sent - h.resumeW)
  | .free | .opening | .ended => 0

/-- Metadata bytes not yet read by the sparse-index engine. -/
def Six.unread (x : Six) : Nat :=
  match x.run with
  | some r => fld r.src 64 64 - x.consumed.toNat
  | none => 0

/-- Whether a chain of a channel still has records to take: they are outstanding, and their bytes not known yet. One that a fault stopped, or that
is parked, has none (R228, R229; log entry 122). -/
def Chan.untaken (c : Chan) : Bool := !c.error && (c.walking || (c.pending.isSome && !c.parked))

/-- Whether a sequencer's channels still have records to take. -/
def Core.untaken (x : Core) : Bool := x.chans.toList.any Chan.untaken

/-- OUTLD of the core in focus in bytes: transfers, circuits, and metadata. -/
def State.outldAll (s : State) : Nat :=
  s.outld s.cur + sumOf (fun h => 4 * min h.unsent h.unacked) s.core.gl.toList + s.core.six.unread

/-- OUTST of the core in focus in bytes: transfers and circuits. -/
def State.outstAll (s : State) : Nat := s.outst s.cur + sumOf (fun h => 4 * h.unacked) s.core.gl.toList

/-- The largest of a sequencer's weak wts of some colours. -/
def Core.weakTop (x : Core) (mask : BitVec 8) : Word :=
  (upFrom 0 8).foldl (fun t k => if mask.getLsbD k then wmax t (vget 0#64 x.weak k) else t) 0#64

/-- The weak writes of some colours ordered: the bytes of Engine-dirty lines that have those colours go home, and pts rises past every wts they
took (R202, R228). -/
def State.afterFence (s : State) (c : Nat) (mask : BitVec 8) : State :=
  let x := s.coreAt c
  (s.writeBack x.self mask x.pad.lines).modCore c fun y => { y with pts := wmax y.pts (y.weakTop mask) }

/-- CWAIT (R229, R262). -/
def execCwait (p : BitVec 3) (c : Bool) (a : Src) (s : State) : Host.Outcome State Fault Refusal :=
  s.issue p [a] fun s => do
    let n ← s.getS a
    let v := if c then s.outstAll else s.outldAll
    if n.toNat < v ∨ s.core.untaken then .error (.wait [])
    else if c && decide (n = 0#64) then pure (s.afterFence s.cur 0xFF#8)
    else pure s

/-! ### FENCE (R228) -/

/-- FENCE (R228, R229, R261): the operations of its colours still outstanding are noted; the bundles after it wait. -/
def execFence (p : BitVec 3) (m : BitVec 8) (s : State) : Host.Outcome State Fault Refusal :=
  s.issue p [] fun s => do
    need (decide (s.core.mode = 0#2)) .fenceUntracked
    if m = 0#8 then pure s
    else
      let u := s.core.self
      let mine := s.hub.xfers.filter fun t => decide (t.2.unit = u) && t.2.live && m.getLsbD (recColour t.2.record)
      pure (s.withCore { s.core with fence := some (m, mine.map (·.1)) })

/-- Whether a circuit holds back a FENCE (R335). -/
def GlHandle.holdsFence (h : GlHandle) (m : BitVec 8) : Bool := m.getLsbD h.colour && decide (h.unacked ≠ 0)

/-- FENCE_COMPLETE (R228): the fence of a sequencer completes once the operations it noted, and those that its channels then took of the chains
started before it, are performed. -/
def State.completeFence (s : State) (c : Nat) : State :=
  let x := s.coreAt c
  match x.fence with
  | none => s
  | some (m, ids) =>
    let open' := ids.any fun i => match s.xferAt i with
      | some t => t.live && m.getLsbD (recColour t.record)
      | none => false
    let six := m.getLsbD 0 && (x.six.run.isSome || x.six.shadow.isSome)
    if open' || x.untaken || six || x.gl.toList.any (fun h => h.holdsFence m) then s
    else (s.afterFence c m).modCore c fun y => { y with fence := none }

/-- FENCE_COMPLETE (R228). -/
def execFenceComplete (s : State) : Host.Outcome State Fault Refusal :=
  match s.act with
  | some (.fenceComplete c) => .next (s.completeFence c)
  | _ => .next s

/-! ### BWAIT (R233, R260) -/

/-- BWAIT (R233, R260): it stalls until its barrier is complete or overrun, and then raises pts to HIGHTS. A record with a STATE of 11 or an RZ
bit is reported as the bundle first comes to the wait, and as it goes on (R5, R258; log entry 130). -/
def execBwait (p : BitVec 3) (sx : Bool) (a : Src) (s : State) : Host.Outcome State Fault Refusal :=
  s.issue p [a] fun s => do
    let x ← s.getS a
    let (loc, s1) ← s.barHere sx false x
    let b := s1.barAt loc
    if barState b = 0 then
      .error (.wait (if s.core.stallFrom.isNone then s.barWarn loc b else []))
    else pure ((s1.withCore { s1.core with pts := wmax s1.core.pts (barHigh b) }).barRz loc b)

end Sys2Proof.Machine
end

