-- ==== Sys2Proof/Machine/Work.lean ====
section
/-! DEFINITION. The forms that create, order and end work (R293 to R311). -/

namespace Sys2Proof.Machine

/-! ### Whose work it is -/

/-- What the sequencer in focus holds: a unit's tokens, or the job token that the ranger core holds for the host (R271). -/
def State.holdHere (s : State) : Hold := s.weightOf s.cur

/-- The partition that the sequencer in focus works for: the ranger core's is its job's. -/
def State.partHere (s : State) : Nat :=
  if s.cur = rangerId then (match s.hub.job with | some h => (s.accAt (accId h)).part | none => s.core.part) else s.core.part

/-- A holding to split (R357). -/
def State.needWeight (s : State) : Except Stop Unit := need (if s.cur = rangerId then s.hub.job.isSome else s.core.hold.valid) .weightNone

/-- A handle that names an account of the caller's partition: a stale one, or another partition's, traps (R266, R352). The
ranger core names any partition's. -/
def State.needAccount (s : State) (h : Handle) : Except Stop Unit :=
  need (s.live h && (decide (s.cur = rangerId) || decide ((s.accAt (accId h)).part = s.partHere))) .accountStale

/-- An entry of the form in issue whose value is known, unless NOWB suppresses it (R293). -/
def State.entry (s : State) (w : Bool) (d : BitVec 6) (v : Word) : State := if w then s else s.returned d v.toNat 8

/-- The 64 bytes at a device address that a form names, at its performance. -/
def State.blockAt (s : State) (va : Word) : Except Stop (Block × State) := do
  aligned 64 [va]
  let (ps, s1) ← s.reach false [va]
  pure (BitVec.ofNat 512 (s1.readNat (ps.headD 0) 64), s1)

/-! ### SPAWN (R296 to R298) -/

/-- SPAWN: a launch for kind 0, a unit for kind 1. -/
def State.spawn (s : State) (w : Bool) (d : BitVec 6) (va k : Word) : Except Stop State := do
  if !w then s.needQueue d
  need (decide (k.toNat ≤ 1) && !(decide (s.cur = rangerId) && decide (k = 1#64))) .spawnInvalid
  s.needWeight
  let (r, s1) ← s.blockAt va
  let home := s1.holdHere.acct
  let p := s1.partHere
  let (t, s2) ← s1.splitHere
  if k = 0#64 then
    let (h, s3) := s2.makeLaunch p t [] s2.core.pts r
    pure (s3.entry w d (spawnEntry h))
  else
    let (h, s3) := s2.makeUnit p t s2.core.pts r
    pure (s3.entry w d (spawnEntry (h.map fun _ => home)))

/-- SPAWN_LAUNCH (R296). -/
def execSpawnLaunch (p : BitVec 3) (w : Bool) (d : BitVec 6) (a b : Src) (s : State) : Host.Outcome State Fault Refusal :=
  s.issue p [a, b] fun s => do
    let x ← s.getS a
    let k ← s.getS b
    s.spawn w d x k

/-- SPAWN_UNIT (R296). -/
def execSpawnUnit (p : BitVec 3) (w : Bool) (d : BitVec 6) (a b : Src) (s : State) : Host.Outcome State Fault Refusal :=
  s.issue p [a, b] fun s => do
    let x ← s.getS a
    let k ← s.getS b
    s.spawn w d x k

/-! ### SEND (R299, R300) -/

/-- The message of a SEND, with its routing word. -/
def State.messageOf (s : State) (payload : Block) (r : Word) (t : Tok) : Message :=
  { label := BitVec.ofNat 16 (fld r 0 16), dcore := BitVec.ofNat 8 (fld r 16 8), remote := bitAt r 24,
    dpkg := BitVec.ofNat 16 (fld r 32 16), payload := payload, srcCore := s.cur, unit := s.core.self, srcPkg := s.fabric.num, part := s.partHere,
    podid := s.podOf s.partHere, tok := t, pts := s.core.pts, seq := s.hub.nextEntry }

/-- A message on its way: to a core of this package, or to another one. -/
def State.sendMessage (s : State) (m : Message) : State :=
  let s1 := (s.withHub { s.hub with nextEntry := s.hub.nextEntry + 1 }).meter m.srcCore
    (if m.remote then m.dpkg else s.fabric.num) m.dcore.toNat m.label 64
  if m.remote ∧ m.dpkg ≠ s.fabric.num then
    s1.post { cls := 0#3, spkg := s.fabric.num, score := m.srcCore, dpkg := m.dpkg, dcore := m.dcore.toNat, label := m.label,
              podid := m.podid, tok := some m.tok, body := .message m }
  else s1.addDue [.messageArrive m]

/-- SEND (R299). -/
def execSend (p : BitVec 3) (a b : Src) (s : State) : Host.Outcome State Fault Refusal :=
  s.issue p [a, b] fun s => do
    let x ← s.getS a
    let r ← s.getS b
    s.needWeight
    let payload ← s.rawRecord x
    let (t, s1) ← s.splitHere
    pure (s1.sendMessage (s1.messageOf payload r t))

/-! ### Triggers (R301, R302) -/

/-- The trigger that a control operand describes. -/
def State.triggerOf (s : State) (x : Word) (bar : Option BarLoc) (t : Tok) : Trigger :=
  { label := BitVec.ofNat 16 (fld x 0 16), unit := fld x 16 16, prio := fld x 32 2, bar := bar, tok := t, pair := false,
    part := s.core.part, pts := s.core.pts }

/-- The barrier that a trigger names: 64-byte aligned, on a coherent page. -/
def State.triggerBar (s : State) (va : Word) : Except Stop (BarLoc × State) := do
  aligned 64 [va]
  let (ps, s1) ← s.reach false [va]
  match s1.leafFor s1.cur s1.core.part va with
  | some (l, s2) => do
    need (decide (l.attr = 2#2)) .attr va
    pure (.mem (ps.headD 0), s2)
  | none => .error (.trap .translation va)

/-- TRIG (R301). -/
def execTrig (p : BitVec 3) (a b : Src) (s : State) : Host.Outcome State Fault Refusal :=
  s.issue p [a, b] fun s => do
    let x ← s.getS a
    let y ← s.getS b
    let k := fld x 36 4
    let src := bitAt x 34
    need (vget none s.core.trigs k).isNone .trigBusy
    need (decide (fld x 16 16 < (s.unitTable s.core.part).length)) .trigInvalid
    need (src || decide (fld x 0 16 ≠ 0xFFFF)) .trigInvalid
    s.needWeight
    let (bar, s1) ← if src then (s.triggerBar y).map fun r => (some r.1, r.2) else .ok (none, s)
    let (t, s2) ← s1.splitHere
    -- a trigger whose token belongs to a cancelling account is removed at once (R282)
    pure (if s2.cancelling s2.core.hold then s2.giveTok s2.cur t false s2.core.pts
      else (s2.setTrig s2.cur k (some (s2.triggerOf x bar t))).drainMsgs s2.cur)

/-- UNTRIG (R302). -/
def execUntrig (p : BitVec 3) (a : Src) (s : State) : Host.Outcome State Fault Refusal :=
  s.issue p [a] fun s => do
    let x ← s.getS a
    let k := fld x 0 4
    match vget none s.core.trigs k with
    | none => pure s
    | some t => do
      need (s.core.hold.valid && decide (t.tok.acct = s.core.hold.acct) && decide (t.tok.pkg = s.core.hold.pkg)) .trigBusy
      -- completions whose borrow is under way are answered first (R475)
      if !t.asked.isEmpty then .error (.wait [])
      pure ((s.setTrig s.cur k none).giveHold s.cur t.held false s.core.pts)

/-! ### QUIET and ACCQ (R277, R278, R303 to R305) -/

/-- The status of an account at release. -/
def Account.status (a : Account) : Nat := (if a.cancel then 2 else if a.taint then 1 else 0) + b2n a.fault * 2 ^ 8

/-- What the waiting unit holds in an account. -/
def State.heldIn (s : State) (h : Handle) : Nat :=
  let k := s.holdHere
  if k.acct = h ∧ k.pkg = s.fabric.num then k.value else 0

/-- QUIET (R277, R303). -/
def execQuiet (p : BitVec 3) (w : Bool) (d : BitVec 6) (a : Src) (s : State) : Host.Outcome State Fault Refusal :=
  s.issue p [a] fun s => do
    let x ← s.getS a
    let h : Handle := x.setWidth 32
    s.needAccount h
    let r := s.accAt (accId h)
    let held := decide (r.st = .done) || decide (r.out = s.heldIn h)
    if held || s.cancelling s.core.hold then
      (s.withCore { s.core with pts := wmax s.core.pts r.pts }).resultS w d 1
        (BitVec.ofNat 64 (if held then r.status else 2 + b2n r.fault * 2 ^ 8))
    else
      let recent := match r.flushAt with
        | some t => decide (s.time < t + 4096)
        | none => false
      .error (.wait (if recent then [] else [.flushRequest h]))

/-- ACCQ (R305). -/
def execAccq (p : BitVec 3) (w : Bool) (d : BitVec 6) (a b : Src) (s : State) : Host.Outcome State Fault Refusal :=
  s.issue p [a, b] fun s => do
    let x ← s.getS a
    let y ← s.getS b
    let h : Handle := x.setWidth 32
    s.needAccount h
    s.resultS w d 4 (BitVec.ofNat 64 (fld (accountBits (accId h) (s.accAt (accId h))) (64 * fld y 0 3) 64))

/-! ### PHASE (R306) -/

/-- TARGET. -/
def phTarget (b : Block) : Handle := BitVec.ofNat 32 (fld b 0 32)
/-- NPRED. -/
def phNpred (b : Block) : Nat := fld b 32 4
/-- The predecessors. -/
def phPreds (b : Block) : List Handle := (upFrom 0 (min 8 (phNpred b))).map fun k => BitVec.ofNat 32 (fld b (128 + 32 * k) 32)
/-- Whether an RZ bit of the control block is set (R5, R306). -/
def phRz (b : Block) : Bool := decide (fld b 36 28 ≠ 0) || decide (fld b 384 128 ≠ 0)
/-- DESC. -/
def phDesc (b : Block) : Word := BitVec.ofNat 64 (fld b 64 64)

/-- Whether an account may take new children: OPEN, of one of the levels, holding its owner token. -/
def Account.takes (a : Account) (ls : List Level) : Bool := decide (a.st = .opn) && a.owner.isSome && ls.contains a.level

/-- An account made under another's owner token (R306): the entry's handle, or the cause of refusal. -/
def State.openUnder (s : State) (h : Handle) (lvl : Level) : Except Cause Handle × State :=
  let a := s.accAt (accId h)
  match s.splitOwner (accId h) with
  | (.error k, s1) => (.error k, s1)
  | (.ok t, s1) =>
    match s1.newAcc a.part lvl (some (t.acct, t.pkg, t.exp)) { st := .opn } with
    | none => (.error .noAccount, s1.tokenHome t.acct t.pkg t.exp)
    | some (i, s2) =>
      let n := accHandle i (s2.accAt i)
      (.ok n, s2.setAcc i { (s2.accAt i) with owner := some { exp := 0#7, valid := true, acct := n, pkg := s.fabric.num } })

/-- The owner token of an account on its way home (R306, R407). -/
def State.returnOwner (s : State) (i : Nat) : State :=
  let a := s.accAt i
  match a.owner with
  | none => s
  | some h =>
    (s.setAcc i { a with owner := none }).addDue
      [.returnArrive { acct := accHandle i a, pkg := s.fabric.num, value := h.value, taint := false, pts := 0#64 }]

/-- PHASE, whose sub-operation is the low bits of its second operand. -/
def State.phase (s : State) (w : Bool) (d : BitVec 6) (x y : Word) : Except Stop State := do
  if !w then s.needQueue d
  let op := fld y 0 4
  need (decide (op ≤ 4)) .accountOp
  let b ← s.rawRecord x
  let s := s.engineRz (phRz b)
  let h := phTarget b
  let a := s.accAt (accId h)
  s.needAccount h
  let _ ← if op = 2 then (phPreds b).mapM fun k => s.needAccount k else .ok []
  match op with
  | 0 => do
    need (a.takes [.phase, .job]) .accountClosed
    let (r, s1) := s.openUnder h .graph
    pure (s1.entry w d (spawnEntry r))
  | 1 => do
    need (a.takes [.job]) .accountClosed
    let (r, s1) := s.openUnder h .phase
    pure (s1.entry w d (spawnEntry r))
  | 2 => do
    need (a.takes [.graph]) .accountClosed
    let child (k : Handle) : Bool :=
      let c := s.accAt (accId k)
      decide (c.level = .launch) && c.parentV && decide (c.parent = h) && decide (c.parentPkg = s.fabric.num)
    need (decide (phNpred b ≤ 8) && (phPreds b).all child) .accountOp
    let (r, s1) ← s.blockAt (phDesc b)
    match s1.splitOwner (accId h) with
    | (.error k, s2) => pure (s2.entry w d (spawnEntry (.error k)))
    | (.ok t, s2) =>
      let (e, s3) := s2.makeLaunch a.part t (phPreds b) s2.core.pts r
      pure (s3.entry w d (spawnEntry e))
  | 3 => do
    need (decide (a.level = .graph) || decide (a.level = .phase)) .accountOp
    pure ((s.returnOwner (accId h)).entry w d (spawnEntry (.ok h)))
  | _ => do
    need (decide (a.level ≠ .job)) .accountOp
    need (decide (a.st = .done)) .accountBusy
    pure (((s.freeAll (s.descendants (accId h))).freeAcc (accId h)).entry w d (spawnEntry (.ok h)))

/-- PHASE_OPENG (R306). -/
def execPhaseOpeng (p : BitVec 3) (w : Bool) (d : BitVec 6) (a b : Src) (s : State) : Host.Outcome State Fault Refusal :=
  s.issue p [a, b] fun s => do
    let x ← s.getS a
    let y ← s.getS b
    s.phase w d x y

/-- PHASE_OPENP (R306). -/
def execPhaseOpenp (p : BitVec 3) (w : Bool) (d : BitVec 6) (a b : Src) (s : State) : Host.Outcome State Fault Refusal :=
  s.issue p [a, b] fun s => do
    let x ← s.getS a
    let y ← s.getS b
    s.phase w d x y

/-- PHASE_ADDL (R306). -/
def execPhaseAddl (p : BitVec 3) (w : Bool) (d : BitVec 6) (a b : Src) (s : State) : Host.Outcome State Fault Refusal :=
  s.issue p [a, b] fun s => do
    let x ← s.getS a
    let y ← s.getS b
    s.phase w d x y

/-- PHASE_CLOSE (R306). -/
def execPhaseClose (p : BitVec 3) (w : Bool) (d : BitVec 6) (a b : Src) (s : State) : Host.Outcome State Fault Refusal :=
  s.issue p [a, b] fun s => do
    let x ← s.getS a
    let y ← s.getS b
    s.phase w d x y

/-- PHASE_RELEASE (R306). -/
def execPhaseRelease (p : BitVec 3) (w : Bool) (d : BitVec 6) (a b : Src) (s : State) : Host.Outcome State Fault Refusal :=
  s.issue p [a, b] fun s => do
    let x ← s.getS a
    let y ← s.getS b
    s.phase w d x y

/-! ### CANCEL (R282, R307) -/

/-- CANCEL (R307). -/
def execCancel (p : BitVec 3) (a : Src) (s : State) : Host.Outcome State Fault Refusal :=
  s.issue p [a] fun s => do
    let x ← s.getS a
    let h : Handle := x.setWidth 32
    s.needAccount h
    pure (s.cancelAcc (accId h))

/-! ### BAR (R308) -/

/-- BAR (R308): the entry fills with the result of the core's next episode; one whose episode is over already is filled with
its result. It does not stall: a contribution of the core still on its way is made first. -/
def execBar (p : BitVec 3) (w : Bool) (d : BitVec 6) (a b : Src) (s : State) : Host.Outcome State Fault Refusal :=
  s.issue p [a, b] fun s => do
    let x ← s.getS a
    let v ← s.getS b
    if !w then s.needQueue d
    let key := 64 * s.core.part + x.toNat
    let member := match (if x.toNat < 64 then s.treeOf key else none) with
      | some t => decide (s.cur < 256) && t.members.getLsbD s.cur
      | none => false
    need member .barTree
    let c := s.cur
    let s := s.joinEarlier key c
    let n := s.nextEpisode key c
    let joined := if s.core.joined.contains key then s.core.joined else s.core.joined ++ [key]
    let s1 := s.withCore { s.core with joined := joined }
    if n < s1.openEpisode key then
      pure ((s1.entry w d (podEntry ((s1.episodeAt key n).value.getD 0#64) true)).contribute key c (some v) false)
    else
      let s2 :=
        if w then s1
        else
          let r := s1.reserve d .work none false
          r.2.withHub { r.2.hub with barWaits := r.2.hub.barWaits ++ [{ tree := key, num := n, core := c, unit := s1.core.self, id := r.1 }] }
      pure (s2.contribute key c (some v) false)

/-! ### YIELD and EXIT (R309, R310) -/

/-- YIELD (R309). -/
def execYield (p : BitVec 3) (s : State) : Host.Outcome State Fault Refusal :=
  s.issue p [] fun s => pure (s.withCore { s.core with yieldReq := true })

/-- What a unit settles before it ends by EXIT (R202, R207, R310): its stores, its Engine-dirty lines, its circuits. -/
def State.closeUnit (s : State) : State :=
  let s1 := s.release
  (s1.writeBackAll s1.core.self).exitCircuits s1.core.self

/-- EXIT (R310). -/
def execExit (p : BitVec 3) (s : State) : Host.Outcome State Fault Refusal :=
  s.issue p [] fun s => let t := s.closeUnit; pure (t.endRunning t.cur false false)

end Sys2Proof.Machine
end

