-- ==== Sys2Proof/Machine/System.lean ====
section
/-! DEFINITION. The system forms that cores and the ranger core share: system registers, TRAP and TRET, XLINV and PARTQ,
OPREQ and EVAC (R391 to R404). -/

namespace Sys2Proof.Machine

/-! ### Reading a system register (R392 to R394, R397) -/

/-- The level that may read a system register (R392). -/
def sysReadLevel (n : Nat) : Nat := if n = 0x0D then 1 else if 0x10 ≤ n then 2 else 0

/-- OPCUR of a quadrant (R394). -/
def State.opcur (s : State) (q : Nat) : Word :=
  let d := logicDomain q
  let e := sramDomain q
  let p := s.ownerOfQuad q
  let step := s.stepOf e
  BitVec.ofNat 64
    (s.opOf d % 8 + b2n (s.power.boost.contains q) * 2 ^ 3 + b2n (s.power.deferred.contains q) * 2 ^ 4 + s.opOf e % 8 * 2 ^ 5
      + b2n step.isSome * 2 ^ 8 + ((step.map Step.target).getD 0) % 8 * 2 ^ 9 + s.ilevelOf q % 4 * 2 ^ 12
      + ((p.map s.capOf).getD 0) % 8 * 2 ^ 16 + s.quadAllow q % 8 * 2 ^ 19 + min 7 (s.ceilOf q) * 2 ^ 22 + s.reqOf d % 16 * 2 ^ 25)

/-- The least point at which a core holds a number of rows; 7 where none does. -/
def State.leastPoint (s : State) (c rows : Nat) : Nat := ((upFrom 0 8).find? fun k => decide (rows ≤ s.capRowsAt c k)).getD 7

/-- A system register as the sequencer in focus reads it. -/
def State.sysread (s : State) (n : Nat) : Word :=
  let x := s.core
  let c := s.cur
  match n with
  | 0x00 => 1#64
  | 0x01 => BitVec.ofNat 64 s.dieId
  | 0x02 => BitVec.ofNat 64 (vget 4096 s.hub.ckBound (s.boundKey c))
  | 0x03 => BitVec.ofNat 64 (vget 8192 s.hub.qBound (s.boundKey c))
  | 0x04 => BitVec.ofNat 64 (s.partAt x.part).age
  | 0x05 => s.holdHere.wshare
  | 0x06 => x.arch.arith
  | 0x07 => x.arch.srseed.setWidth 64
  | 0x08 => x.arch.qbind
  | 0x09 => s.opcur (quadOf c)
  | 0x0A => BitVec.ofNat 64 (s.leastPoint c x.decl.rows + s.leastPoint c (s.rowsHeld c) * 2 ^ 3)
  | 0x0B => BitVec.ofNat 64 (s.capRows c + s.admitRows c * 2 ^ 16)
  | 0x0C => NatMap.findD 0#64 x.part s.power.energy
  | 0x0D => x.trapRec
  | 0x0E => s.hub.mode.setWidth 64
  | 0x0F => x.pts
  | 0x10 => s.hub.stepwait
  | 0x11 => s.hub.meter.setWidth 64
  | 0x12 => x.rtrap
  | _ => 0#64

/-- SYSRD (R397). -/
def execSysrd (p : BitVec 3) (w : Bool) (d : BitVec 6) (n : BitVec 7) (s : State) : Host.Outcome State Fault Refusal :=
  s.issue p [] fun s => do
    need (decide (sysReadLevel n.toNat ≤ s.level)) .privilege
    s.resultS w d 4 (s.sysread n.toNat)

/-! ### Writing a system register (R393 to R395, R398) -/

/-- A number clamped into the range of a bound (R394). -/
def clampBound (x : Word) : Nat := max 16 (fld x 0 16)

/-- `f` for each core that holds no running unit, and of a partition where one is named (R395). -/
def State.eachIdle (s : State) (p : Option Nat) (f : Core → Core) : State :=
  s.each (fun s c =>
    let x := s.coreAt c
    let inPart : Bool := match p with
      | some k => decide (s.ownerOfQuad (quadOf c) = some k)
      | none => true
    if x.unit.isNone ∧ inPart then s.setCore c (f x) else s) (upFrom 0 256)

/-- CKBOUND of a partition written, or of the ranger core. -/
def State.setCkBound (s : State) (p : Nat) (v : Nat) : State :=
  (s.withHub { s.hub with ckBound := vput s.hub.ckBound p v }).eachIdle (some p) fun x => { x with ckBound := v }

/-- QBOUND of a partition written, or of the ranger core. -/
def State.setQBound (s : State) (p : Nat) (v : Nat) : State :=
  (s.withHub { s.hub with qBound := vput s.hub.qBound p v }).eachIdle (some p) fun x => { x with qBound := v }

/-- MODE written (R395, R396). -/
def State.setMode (s : State) (m : BitVec 2) : State := (s.withHub { s.hub with mode := m }).eachIdle none fun x => { x with mode := m }

/-- A change of registers of the unit's context, made in the checkpoint copy too (R398). -/
def State.bothCopies (s : State) (f : Arch → Arch) : State :=
  s.withCore { s.core with arch := f s.core.arch, shadow := f s.core.shadow }

/-- SYSWR of a register with no row of its own: QBIND and the ranger core's; the others are read-only (R393). -/
def execSyswr (p : BitVec 3) (n : BitVec 7) (b : Src) (s : State) : Host.Outcome State Fault Refusal :=
  s.issue p [b] fun s => do
    need (decide (n.toNat < 0x10) || decide (2 ≤ s.level)) .privilege
    let v ← s.getS b
    match n.toNat with
    | 0x08 => pure (s.bothCopies fun a => { a with qbind := v })
    | 0x10 => pure (s.withHub { s.hub with stepwait := v })
    | 0x11 => pure (s.withHub { s.hub with meter := v.setWidth 32 })
    | 0x12 => pure (s.withCore { s.core with rtrap := v })
    | _ => .error (.cause .sysregReadonly)

/-- SYSWR_CKBOUND (R394, R395). -/
def execSyswrCkbound (p : BitVec 3) (b : Src) (s : State) : Host.Outcome State Fault Refusal :=
  s.issue p [b] fun s => do
    need (decide (1 ≤ s.level)) .privilege
    let v ← s.getS b
    pure (s.setCkBound (s.boundKey s.cur) (clampBound v))

/-- SYSWR_QBOUND (R394, R395). -/
def execSyswrQbound (p : BitVec 3) (b : Src) (s : State) : Host.Outcome State Fault Refusal :=
  s.issue p [b] fun s => do
    need (decide (1 ≤ s.level)) .privilege
    let v ← s.getS b
    pure (s.setQBound (s.boundKey s.cur) (clampBound v))

/-- SYSWR_ARITH (R85, R398). -/
def execSyswrArith (p : BitVec 3) (b : Src) (s : State) : Host.Outcome State Fault Refusal :=
  s.issue p [b] fun s => do
    let v ← s.getS b
    pure (s.bothCopies fun a => { a with arith := arithWrite a.arith v })

/-- SYSWR_SRSEED (R91, R398). -/
def execSyswrSrseed (p : BitVec 3) (b : Src) (s : State) : Host.Outcome State Fault Refusal :=
  s.issue p [b] fun s => do
    let v ← s.getS b
    let k : BitVec 32 := v.setWidth 32
    pure (s.bothCopies fun a => { a with srseed := k, gens := seedGens k })

/-- SYSWR_MODE (R394 to R396). -/
def execSyswrMode (p : BitVec 3) (b : Src) (s : State) : Host.Outcome State Fault Refusal :=
  s.issue p [b] fun s => do
    need (decide (2 ≤ s.level)) .privilege
    let v ← s.getS b
    pure (s.setMode (v.setWidth 2))

/-! ### TRAP and TRET (R399, R400) -/

/-- TRAP (R399): a checkpoint at its own bundle, then USER_TRAP. No slot of its bundle commits, as R399 says and R65 does not (DEDUCED, log entry
129). -/
def execTrap (p : BitVec 3) (a : Src) (s : State) : Host.Outcome State Fault Refusal :=
  s.issue p [a] fun s => do
    let x ← s.getS a
    s.confirmThen fun t => .ok (t.trapSlot .userTrap x)

/-- Whether an action of TRET is valid in the sequencer in focus (R400). -/
def State.tretOk (s : State) (op : Nat) : Bool :=
  if s.cur = rangerId then
    let k := bits (s.readNat rangerRecord 2) 0 16
    s.core.inTrap && (decide (op = 0) || (decide (op = 1) && decide (k = (causeCode .userTrap).toNat)))
  else
    match s.core.handling with
    | some w => decide (op ≠ 3) && (decide (op ≠ 1) || w.unit.isNone || decide (w.cause = .userTrap))
    | none => decide (op ≠ 3)

/-- TRET, by the low bits of its operand: the bundle confirms as a C bundle does, a handler settles as EXIT does, and the trap
is returned from (R310, R400). -/
def State.tret (s : State) (x : Word) : Except Stop State := do
  let op := fld x 0 2
  need (s.tretOk op) .tretInvalid
  s.confirmThen fun t => .ok ((if t.cur = rangerId then t else t.closeUnit).returnTrap (decide (op = 1)) (decide (op = 2)))

/-- TRET_RETRY (R400). -/
def execTretRetry (p : BitVec 3) (a : Src) (s : State) : Host.Outcome State Fault Refusal :=
  s.issue p [a] fun s => do
    need (decide (1 ≤ s.level)) .privilege
    let x ← s.getS a
    s.tret x

/-- TRET_SKIPK (R400). -/
def execTretSkipk (p : BitVec 3) (a : Src) (s : State) : Host.Outcome State Fault Refusal :=
  s.issue p [a] fun s => do
    need (decide (1 ≤ s.level)) .privilege
    let x ← s.getS a
    s.tret x

/-- TRET_END (R400). -/
def execTretEnd (p : BitVec 3) (a : Src) (s : State) : Host.Outcome State Fault Refusal :=
  s.issue p [a] fun s => do
    need (decide (1 ≤ s.level)) .privilege
    let x ← s.getS a
    s.tret x

/-! ### XLINV (R364, R365, R401) -/

/-- Whether a record or leaf of a partition is named: one that covers an address, or every one. -/
def named (part va size p : Nat) (at_ : Option Nat) : Bool :=
  decide (part = p) && (match at_ with
    | some a => decide (va ≤ a) && decide (a < va + size)
    | none => true)

/-- A core of a holder told of an invalidation: its cache drops the leaf, and an interval that used it is to be replayed. -/
def Core.invalidate (x : Core) (p : Nat) (at_ : Option Nat) : Core :=
  { x with
    tlb := x.tlb.filter fun l => !named l.part l.va l.size p at_
    xlinvHit := x.xlinvHit || x.used.any fun l => named l.part l.va l.size p at_ }

/-- An invalidation sent to the holders in the directory. -/
def State.invalidate (s : State) (p : Nat) (at_ : Option Nat) : State :=
  let hit := s.hub.tdir.filter fun r => named r.part r.va r.size p at_
  let hs := (hit.flatMap TRec.holders).eraseDups
  let walker := match at_ with
    | none => s.hub.walkerMem.filter fun e => decide (e.2.1 ≠ p)
    | some _ => s.hub.walkerMem
  let s1 := s.withHub { s.hub with
    tdir := s.hub.tdir.filter fun r => !named r.part r.va r.size p at_, walkerMem := walker,
    dies := s.hub.dies.filter fun e => !(hs.contains (8 + e.1) && named e.2.part e.2.va e.2.size p at_) }
  if hs.isEmpty then s1
  else
    let s2 := s1.each (fun s c => s.modCore c fun x => x.invalidate p at_) ((upFrom 0 256).filter fun c => hs.contains (stackOf c))
    (s2.withHub { s2.hub with inval := s2.hub.inval ++ [{ core := s.cur, part := p, va := at_, holders := hs }] }).addDue (hs.map Action.xlinvAck)

/-- XLINV (R401). -/
def execXlinv (p : BitVec 3) (a b : Src) (s : State) : Host.Outcome State Fault Refusal :=
  s.issue p [a, b] fun s => do
    need (decide (1 ≤ s.level)) .privilege
    let x ← s.getS a
    let y ← s.getS b
    let part := if s.cur = rangerId then fld y 8 3 else s.core.part
    if s.cur = rangerId ∧ (s.partAt part).st = 0#2 then pure s
    else pure (s.invalidate part (if bitAt y 0 then none else some x.toNat))

/-- XLINV_ACK (R364): a stack acknowledges once no core of it but the one that issued the XLINV has an interval to replay; a
lightport die, which replays nothing, as soon as its leaves are dropped. -/
def State.ackInval (s : State) (h : Nat) : State :=
  let busy (v : Inval) : Bool := (upFrom (32 * h) 32).any fun c => decide (h < 8) && decide (c ≠ v.core) && (s.coreAt c).xlinvHit
  let vs := (s.hub.inval.map fun v => if busy v then v else { v with holders := v.holders.erase h }).filter fun v => !v.holders.isEmpty
  let s1 := s.withHub { s.hub with inval := vs }
  if vs.any fun v => v.holders.contains h then s1.addDue [.xlinvAck h] else s1

/-- XLINV_ACK (R364). -/
def execXlinvAck (s : State) : Host.Outcome State Fault Refusal :=
  match s.act with
  | some (.xlinvAck h) => .next (s.ackInval h)
  | _ => .next s

/-- TRANSLATION_WALK (R359, R361, R362): a leaf that is not cached is walked for and installed; a walk that faults installs
nothing. -/
def execTranslationWalk (s : State) : Host.Outcome State Fault Refusal :=
  match s.act with
  | some (.translationWalk c va) =>
    match s.leafFor c (s.coreAt c).part va with
    | some (_, t) => .next t
    | none => .next s
  | _ => .next s

/-! ### PARTQ (R347, R402) -/

/-- A 64-bit word of a partition descriptor (R347). -/
def PartDesc.word (d : PartDesc) (i : Nat) : Word :=
  BitVec.ofNat 64 (match i with
    | 0 => d.st.toNat + d.age % 64 * 2 ^ 8 + d.podid.toNat * 2 ^ 16 + d.quads.toNat * 2 ^ 32
    | 1 => d.root.toNat
    | 2 => d.acctBase % 2 ^ 14 + d.acctCnt % 2 ^ 15 * 2 ^ 16 + d.glQuota % 2 ^ 7 * 2 ^ 32 + d.handler.toNat * 2 ^ 48
    | 3 => d.pfloor.toNat
    | k + 4 => match d.windows[k]? with | some w => w.1 % 2 ^ 32 + w.2 % 2 ^ 32 * 2 ^ 32 | none => 0)

/-- PARTQ (R402). -/
def execPartq (p : BitVec 3) (w : Bool) (d : BitVec 6) (a b : Src) (s : State) : Host.Outcome State Fault Refusal :=
  s.issue p [a, b] fun s => do
    need (decide (1 ≤ s.level)) .privilege
    let x ← s.getS a
    let y ← s.getS b
    if !w then s.needQueue d
    let part := if s.cur = rangerId then fld x 0 3 else s.core.part
    pure (s.entry w d ((s.partAt part).word (fld y 0 4)))

/-! ### OPREQ and EVAC (R403, R404) -/

/-- OPREQ (R403). -/
def execOpreq (p : BitVec 3) (a b : Src) (s : State) : Host.Outcome State Fault Refusal :=
  s.issue p [a, b] fun s => do
    need (decide (1 ≤ s.level)) .privilege
    let x ← s.getS a
    let y ← s.getS b
    let q := fld x 1 5
    let k := fld y 0 4
    let sram := bitAt x 0
    let mine := decide (s.cur = rangerId) || (s.partAt s.core.part).quads.getLsbD q
    need (mine && decide (k ≤ 8) && !(sram && decide (k = 8))) .opreqInvalid
    pure (s.withPower (if sram then { s.power with held := NatMap.put (sramDomain q) k s.power.held }
      else { s.power with req := NatMap.putD 0 (logicDomain q) k s.power.req }))

/-- A work entry whose answer comes later, unless NOWB suppresses it: where it is to be filled. -/
def State.later (s : State) (w : Bool) (d : BitVec 6) : List (Nat × Nat) × State :=
  if w then ([], s)
  else
    let r := s.reserve d .work none false
    ([(s.core.self, r.1)], r.2)

/-- EVAC (R404). -/
def execEvac (p : BitVec 3) (w : Bool) (d : BitVec 6) (a b : Src) (s : State) : Host.Outcome State Fault Refusal :=
  s.issue p [a, b] fun s => do
    need (decide (2 ≤ s.level)) .privilege
    let x ← s.getS a
    let y ← s.getS b
    if !w then s.needQueue d
    let dom := x.toNat
    let k := fld y 0 3
    if !(isSram dom || isHubSram dom) || decide (s.opOf dom ≤ k) then pure (s.entry w d (BitVec.ofNat 64 (2 ^ 63)))
    else
      let (es, s1) := s.later w d
      pure (s1.evacSram dom { point := k, entries := es })

end Sys2Proof.Machine
end

