-- ==== Sys2Proof/Machine/Ranger.lean ====
section
/-! DEFINITION. The forms of the ranger core alone (R405 to R407, R443, R444). -/

namespace Sys2Proof.Machine

/-! ### RVSET and RFLOOR (R405, R406) -/

/-- RVSET (R405): an SRAM domain steps under R375 to R379; a logic domain takes its point at the next interval boundary. -/
def execRvset (p : BitVec 3) (w : Bool) (d : BitVec 6) (a b : Src) (s : State) : Host.Outcome State Fault Refusal :=
  s.issue p [a, b] fun s => do
    need (decide (2 ≤ s.level)) .privilege
    let x ← s.getS a
    let y ← s.getS b
    if !w then s.needQueue d
    let dom := x.toNat
    let k := fld y 0 4
    if 68 < dom ∨ 8 < k ∨ (k = 8 ∧ ¬ isLogic dom) then pure (s.entry w d (rvEntry 2 (if dom ≤ 68 then s.opOf dom else 0)))
    else
      let (es, s1) := s.later w d
      if isSram dom || isHubSram dom then pure (s1.rvsetSram dom { point := k, entries := es })
      else
        pure (s1.withPower { s1.power with
          req := NatMap.putD 0 dom k s1.power.req
          logicWait := NatMap.put dom (NatMap.findD [] dom s1.power.logicWait ++ es) s1.power.logicWait })

/-- What RFLOOR reads (R406); none gives an entry with bit 63 alone. -/
def State.floorQuery (s : State) (who index mode k : Nat) : Option Nat :=
  let slice := who - 256
  if who < 256 then
    match mode with
    | 0 => if index < 8704 then some (s.floorOf who index) else none
    | 1 => some (s.rowsUpTo who k 0 8704 + s.capRowsAt who k * 2 ^ 16)
    | 2 => some (sumOf (fun r => b2n (decide (k < s.floorOf who (s.physRow who r)))) (s.rowsInUse who))
    | 3 => if index < 8192 then some (s.physRow who index) else none
    | _ => none
  else if who < 320 then
    match mode with
    | 0 => if index < 24 then some (s.wayFloor slice index) else none
    | 1 => some (s.waysAt slice k + s.waysAt slice k * 2 ^ 16)
    | 2 => some 0
    | _ => none
  else none

/-- RFLOOR (R406). -/
def execRfloor (p : BitVec 3) (w : Bool) (d : BitVec 6) (a b : Src) (s : State) : Host.Outcome State Fault Refusal :=
  s.issue p [a, b] fun s => do
    need (decide (2 ≤ s.level)) .privilege
    let x ← s.getS a
    let y ← s.getS b
    if !w then s.needQueue d
    pure (s.entry w d (BitVec.ofNat 64 ((s.floorQuery (fld x 0 9) (fld y 0 16) (fld y 16 3) (fld y 20 3)).getD (2 ^ 63))))

/-! ### Optics (R407, R443, R444) -/

/-- The key of a ring: port, wavelength and kind. -/
def ringKey (port wl : Nat) (rx : Bool) : Nat := 32 * port + 2 * wl + b2n rx

/-- The heater code of a ring; mid-scale before the firmware sets it (log entry 21). -/
def State.heaterOf (s : State) (k : Nat) : BitVec 16 := NatMap.findD 0x8000#16 k s.fabric.heaters

/-- Whether a heater code is saturated (R443). -/
def heaterSat (v : BitVec 16) : Bool := decide (v = 0#16) || decide (v = 0xFFFF#16)

/-- RHEAT (R407, R443). -/
def execRheat (p : BitVec 3) (w : Bool) (d : BitVec 6) (a b : Src) (s : State) : Host.Outcome State Fault Refusal :=
  s.issue p [a, b] fun s => do
    need (decide (2 ≤ s.level)) .privilege
    let x ← s.getS a
    let y ← s.getS b
    if !w then s.needQueue d
    let port := fld x 0 5
    let wl := fld x 5 4
    let rx := bitAt x 9
    let k := ringKey port wl rx
    let v := if bitAt y 16 then s.heaterOf k else BitVec.ofNat 16 (fld y 0 16)
    let s1 := { s with fabric := { s.fabric with heaters := NatMap.put k v s.fabric.heaters } }
    let s2 := if heaterSat v then
      s1.event .heaterSat 3 port none 0#64 0#32 0#32 (BitVec.ofNat 64 (wl + b2n rx * 2 ^ 4)) (v.setWidth 64) else s1
    pure (s2.tickFree.entry w d (BitVec.ofNat 64
      (v.toNat + (Config.photodiode (s.free * 1024 + k)).toNat * 2 ^ 16 + b2n (heaterSat v) * 2 ^ 32)))

/-- The masks of a port's direction: the wavelengths with light, and those parked. -/
def Port.masks (x : Port) (rx : Bool) : BitVec 16 × BitVec 16 := if rx then (x.rxMask, x.parkedRx) else (x.txMask, x.parkedTx)

/-- The masks of a port's direction replaced. -/
def Port.withMasks (x : Port) (rx : Bool) (m k : BitVec 16) : Port :=
  if rx then { x with rxMask := m, parkedRx := k } else { x with txMask := m, parkedTx := k }

/-- The spare rings of a direction that are in use. -/
def Port.spares (x : Port) (rx : Bool) : BitVec 4 := if rx then x.sparesRx else x.sparesTx

/-- One bit of a mask. -/
def oneBit (n : Nat) : BitVec 16 := BitVec.ofNat 16 (2 ^ n)

/-- The wheel of an Ibaskov port's transmit direction. -/
def portWheel (port : Nat) : Nat := wheelOf (33 + port / 8) (1 + port % 8)

/-- Whether a circuit crosses a port: a slot of its wheel is held, or one that comes in by it lands here. -/
def State.portBusy (s : State) (port : Nat) : Bool :=
  let n := portWheel port
  s.fabric.wheels.any (fun e => decide (e.1 / 64 = n))
    || s.fabric.incoming.any fun g => decide (g.2.port = port)

/-- Whether parking a wavelength is refused: it would leave fewer than 12 live on a port that carries circuits, or fewer than 4 (R407, R444). -/
def State.parkRefused (s : State) (port wl : Nat) (rx : Bool) : Bool :=
  let k := s.portAt port
  let m := k.masks rx
  let left := ones ((k.withMasks rx m.1 (m.2 ||| oneBit wl)).live rx)
  decide (left < 4) || (s.portBusy port && decide (left < 12))

/-- A port with a wavelength woken; a restripe under way takes it in (R438, R444). -/
def Port.woken (x : Port) (wl : Nat) (rx : Bool) : Port :=
  let m := x.masks rx
  let y := x.withMasks rx (m.1 ||| oneBit wl) (m.2 &&& ~~~oneBit wl)
  if rx then { y with restripeRx := y.restripeRx.map fun p => (p.1, p.2 ||| oneBit wl) }
  else { y with restripeTx := y.restripeTx.map fun p => (p.1, p.2 ||| oneBit wl) }

/-- The entry of RWAVE (R407); the codes of a wavelength's state are not in the spec. -/
def State.waveEntry (s : State) (port wl : Nat) (rx refused : Bool) : Word :=
  let x := s.portAt port
  let m := x.masks rx
  BitVec.ofNat 64 ((Config.waveCode (m.1.getLsbD wl) (m.2.getLsbD wl) (decide (x.spares rx ≠ 0#4))).toNat
    + ones (x.live rx) * 2 ^ 4 + b2n refused * 2 ^ 63)

/-- RWAVE, whose action is the low bits of its second operand: read, park, wake, or move to a spare ring (R443, R444). Parking
and waking change the live width at a flit boundary and replay nothing; a wake brings light back. -/
def State.rwave (s : State) (w : Bool) (d : BitVec 6) (x y : Word) : Except Stop State := do
  if !w then s.needQueue d
  let port := fld x 0 5
  let wl := fld x 5 4
  let rx := bitAt x 9
  let k := s.portAt port
  let (m, off) := k.masks rx
  let answer (s : State) (no : Bool) : State := s.entry w d (s.waveEntry port wl rx no)
  match fld y 0 2 with
  | 0 => pure (answer s false)
  | 1 =>
    if s.parkRefused port wl rx then pure (answer s true) else pure (answer (s.setPort port (k.withMasks rx m (off ||| oneBit wl))) false)
  | 2 => pure (answer (s.setPort port { k.woken wl rx with wakeReq := false }) false)
  | _ =>
    let sp := fld y 8 4
    if 4 ≤ sp ∨ (k.spares rx).getLsbD sp ∨ ((k.live rx).getLsbD wl ∧ s.parkRefused port wl rx) then pure (answer s true)
    else
      let used := k.spares rx ||| BitVec.ofNat 4 (2 ^ sp)
      let k1 := k.woken wl rx
      let k2 := if rx then { k1 with sparesRx := used } else { k1 with sparesTx := used }
      pure (answer ((s.setPort port k2).event .ringSpared 3 port none 0#64 0#32 0#32 (BitVec.ofNat 64 wl) (BitVec.ofNat 64 sp)) false)

/-- RWAVE_READ (R407). -/
def execRwaveRead (p : BitVec 3) (w : Bool) (d : BitVec 6) (a b : Src) (s : State) : Host.Outcome State Fault Refusal :=
  s.issue p [a, b] fun s => do
    need (decide (2 ≤ s.level)) .privilege
    let x ← s.getS a
    let y ← s.getS b
    s.rwave w d x y

/-- RWAVE_PARK (R444). -/
def execRwavePark (p : BitVec 3) (w : Bool) (d : BitVec 6) (a b : Src) (s : State) : Host.Outcome State Fault Refusal :=
  s.issue p [a, b] fun s => do
    need (decide (2 ≤ s.level)) .privilege
    let x ← s.getS a
    let y ← s.getS b
    s.rwave w d x y

/-- RWAVE_WAKE (R444). -/
def execRwaveWake (p : BitVec 3) (w : Bool) (d : BitVec 6) (a b : Src) (s : State) : Host.Outcome State Fault Refusal :=
  s.issue p [a, b] fun s => do
    need (decide (2 ≤ s.level)) .privilege
    let x ← s.getS a
    let y ← s.getS b
    s.rwave w d x y

/-- RWAVE_MOVE (R443). -/
def execRwaveMove (p : BitVec 3) (w : Bool) (d : BitVec 6) (a b : Src) (s : State) : Host.Outcome State Fault Refusal :=
  s.issue p [a, b] fun s => do
    need (decide (2 ≤ s.level)) .privilege
    let x ← s.getS a
    let y ← s.getS b
    s.rwave w d x y

/-! ### Events to the host (R407, R453) -/

/-- REVPOST (R407): the record is posted as it stands; the form stalls while the host's queue is full. -/
def execRevpost (p : BitVec 3) (a : Src) (s : State) : Host.Outcome State Fault Refusal :=
  s.issue p [a] fun s => do
    need (decide (2 ≤ s.level)) .privilege
    let x ← s.getS a
    let r ← s.rawRecord x
    match s.postHost r with
    | some t => pure t
    | none => .error (.wait [])

/-! ### Frames (R407, R448, R449) -/

/-- The header of a frame as 32 bytes. -/
def Frame.header (f : Frame) : Nat :=
  f.op.toNat + f.tag.toNat * 2 ^ 16 + f.status.toNat * 2 ^ 32 + f.ver.toNat * 2 ^ 48 + f.len.toNat * 2 ^ 64 + f.rz.toNat * 2 ^ 96
    + f.arg0.toNat * 2 ^ 128 + f.arg1.toNat * 2 ^ 192

/-- A frame of a header and its payload. -/
def frameOf (h : Nat) (payload : List Byte) : Frame :=
  { op := BitVec.ofNat 16 h, tag := BitVec.ofNat 16 (bits h 16 16), status := BitVec.ofNat 16 (bits h 32 16),
    ver := BitVec.ofNat 16 (bits h 48 16), len := BitVec.ofNat 32 (bits h 64 32), rz := BitVec.ofNat 32 (bits h 96 32),
    arg0 := BitVec.ofNat 64 (bits h 128 64), arg1 := BitVec.ofNat 64 (bits h 192 64), payload := payload }

/-- RHFRAME: one command frame sent from the raw region, or received into it; bit 63 where none moves (R407). The frame at which new firmware takes
over is not for the old one (R456). -/
def State.rhframe (s : State) (w : Bool) (d : BitVec 6) (x y : Word) : Except Stop State := do
  if !w then s.needQueue d
  let raw := s.core.decl.rawBytes
  let off := x.toNat
  let none' (s : State) : State := s.entry w d (BitVec.ofNat 64 (2 ^ 63))
  need (decide (off + 32 ≤ raw)) .scratchRange x
  if bitAt y 0 then
    match (if s.port.nextFw.isSome then [] else s.port.frames) with
    | [] => pure (none' s)
    | f :: fs => do
      let bs := toBytes 32 (Frame.header f) ++ f.payload
      need (decide (off + bs.length ≤ raw)) .scratchRange x
      let s1 := { s with port := { s.port with frames := fs, heard := s.time } }
      let s2 := s1.withCore { s1.core with pad := { s1.core.pad with bytes := cellsSet s1.core.pad.bytes off bs } }
      pure (s2.entry w d (BitVec.ofNat 64 bs.length))
  else do
    let h := loadNat s.core.pad.bytes off 32
    let n := bits h 64 32
    if 8192 < n then pure (none' s)
    else do
      need (decide (off + 32 + n ≤ raw)) .scratchRange x
      let f := frameOf h (cellsAt s.core.pad.bytes (off + 32) n)
      pure (({ s with port := { s.port with sent := s.port.sent ++ [f] } } : State).entry w d (BitVec.ofNat 64 (32 + n)))

/-- RHFRAME_SEND (R407). -/
def execRhframeSend (p : BitVec 3) (w : Bool) (d : BitVec 6) (a b : Src) (s : State) : Host.Outcome State Fault Refusal :=
  s.issue p [a, b] fun s => do
    need (decide (2 ≤ s.level)) .privilege
    let x ← s.getS a
    let y ← s.getS b
    s.rhframe w d x y

/-- RHFRAME_RECV (R407). -/
def execRhframeRecv (p : BitVec 3) (w : Bool) (d : BitVec 6) (a b : Src) (s : State) : Host.Outcome State Fault Refusal :=
  s.issue p [a, b] fun s => do
    need (decide (2 ≤ s.level)) .privilege
    let x ← s.getS a
    let y ← s.getS b
    s.rhframe w d x y

/-! ### RSIGCHK (R407) -/

/-- What RSIGCHK answers for its block: 0 valid, 1 invalid, 2 a message outside device memory. -/
def State.sigCheck (s : State) (bs : List Byte) : Nat :=
  let addr := ofBytes (bs.take 8)
  let len := ofBytes ((bs.drop 8).take 8)
  if memTop < addr + len then 2
  else if edVerify ((bs.drop 16).take 32) (s.readMem addr len) ((bs.drop 48).take 64) then 0 else 1

/-- An entry of a revocable form whose value is known: a rollback takes it back (R205). -/
def State.entryBack (s : State) (w : Bool) (d : BitVec 6) (v : Nat) : State :=
  if w then s
  else
    let req : LoadReq := { bytes := (toBytes 8 v).map fun b => (0, some b), fmt := .scalar false, after := false }
    (s.reserve d .load (some req) false).2.addDue [.queueLoadFill s.cur]

/-- RSIGCHK (R407), which is revocable. -/
def execRsigchk (p : BitVec 3) (w : Bool) (d : BitVec 6) (a : Src) (s : State) : Host.Outcome State Fault Refusal :=
  s.issue p [a] fun s => do
    need (decide (2 ≤ s.level)) .privilege
    let x ← s.getS a
    if !w then s.needQueue d
    need (decide (x.toNat + 128 ≤ s.core.decl.rawBytes)) .scratchRange x
    pure (s.entryBack w d (s.sigCheck (cellsAt s.core.pad.bytes x.toNat 128)))

/-! ### RACCT (R283, R382, R407) -/

/-- A sum clamped to I64. -/
def addClamped (a b : Word) : Word :=
  let t := a.toInt + b.toInt
  BitVec.ofInt 64 (max (-(2 ^ 63)) (min (2 ^ 63 - 1) t))

/-- An operation on a job account: create, add, release, cancel; its entry (R407). -/
def State.jobOp (s : State) (op : Nat) (h : Handle) (amount : Word) : Word × State :=
  let no (k : Cause) : Word × State := (BitVec.ofNat 64 ((causeCode k).toNat * 2 ^ 32 + 2 ^ 63), s)
  if op = 0 then
    let p := fld h 0 3
    if (s.partAt p).st ≠ 1#2 then no .accountOp
    else
      match s.newAcc p .job none { st := .opn, allow := amount, stopped := decide (amount.toInt ≤ 0) } with
      | none => no .noAccount
      | some (i, s1) =>
        let n := accHandle i (s1.accAt i)
        (n.setWidth 64, s1.setAcc i { (s1.accAt i) with owner := some { exp := 0#7, valid := true, acct := n, pkg := s.fabric.num } })
  else
    let i := accId h
    let a := s.accAt i
    if ¬ s.live h then no .accountStale
    else if a.level ≠ .job then no .accountOp
    else
      let t := match op with
        | 1 =>
          let v := addClamped a.allow amount
          s.setAcc i { a with allow := v, stopped := a.stopped || decide (v.toInt ≤ 0) }
        | 2 => if a.st = .done then (s.freeAll (s.descendants i)).freeAcc i else (s.setAcc i { a with released := true }).returnOwner i
        | _ => s.cancelAcc i
      (h.setWidth 64, t)

/-- RACCT, whose operation is the low bits of its second operand (R407). -/
def State.racct (s : State) (w : Bool) (d : BitVec 6) (x y : Word) : Except Stop State := do
  if !w then s.needQueue d
  need (decide (x.toNat + 64 ≤ s.core.decl.rawBytes)) .scratchRange x
  let b := loadNat s.core.pad.bytes x.toNat 64
  let (v, s1) := s.jobOp (fld y 0 2) (BitVec.ofNat 32 b) (BitVec.ofNat 64 (bits b 64 64))
  pure (s1.entry w d v)

/-- RACCT_CREATE (R407). -/
def execRacctCreate (p : BitVec 3) (w : Bool) (d : BitVec 6) (a b : Src) (s : State) : Host.Outcome State Fault Refusal :=
  s.issue p [a, b] fun s => do
    need (decide (2 ≤ s.level)) .privilege
    let x ← s.getS a
    let y ← s.getS b
    s.racct w d x y

/-- RACCT_ADD (R407). -/
def execRacctAdd (p : BitVec 3) (w : Bool) (d : BitVec 6) (a b : Src) (s : State) : Host.Outcome State Fault Refusal :=
  s.issue p [a, b] fun s => do
    need (decide (2 ≤ s.level)) .privilege
    let x ← s.getS a
    let y ← s.getS b
    s.racct w d x y

/-- RACCT_RELEASE (R407). -/
def execRacctRelease (p : BitVec 3) (w : Bool) (d : BitVec 6) (a b : Src) (s : State) : Host.Outcome State Fault Refusal :=
  s.issue p [a, b] fun s => do
    need (decide (2 ≤ s.level)) .privilege
    let x ← s.getS a
    let y ← s.getS b
    s.racct w d x y

/-- RACCT_CANCEL (R407). -/
def execRacctCancel (p : BitVec 3) (w : Bool) (d : BitVec 6) (a b : Src) (s : State) : Host.Outcome State Fault Refusal :=
  s.issue p [a, b] fun s => do
    need (decide (2 ≤ s.level)) .privilege
    let x ← s.getS a
    let y ← s.getS b
    s.racct w d x y

end Sys2Proof.Machine
end

