-- ==== Sys2Proof/Machine/Trails.lean ====
section
/-! DEFINITION. Packets between packages: the export table (R442), what becomes of a packet that cannot go or is given up (R279,
R280, R315, R441, R476), and delivery (R255, R316, R318, R333 to R343, R351). -/

namespace Sys2Proof.Machine

/-! ### The export table (R442) -/

/-- An entry of the export table: its die, account, peer, value, and whether it is written off. -/
abbrev Export := Nat × Handle × BitVec 16 × Nat × Bool

/-- Whether an entry is of an account and a peer. -/
def exportHit (h : Handle) (d : BitVec 16) (e : Export) : Bool := decide (e.2.1 = h) && decide (e.2.2.1 = d)

/-- The die that a key is homed at. -/
def exportDie (h : Handle) (d : BitVec 16) : Nat := Config.exportHome h.toNat d.toNat % 4

/-- The state with the table replaced. -/
def State.withExports (s : State) (es : List Export) : State := { s with fabric := { s.fabric with exports := es } }

/-- The entries without those written off whose account has retired. -/
def State.exportsNow (s : State) : List Export :=
  s.fabric.exports.filter fun e => !e.2.2.2.2 || (s.live e.2.1 && decide ((s.accAt (accId e.2.1)).st ≠ .done))

/-- Whether weight of a key may leave: it has an entry, or its die has room. -/
def State.exportRoom (s : State) (h : Handle) (d : BitVec 16) : Bool :=
  s.exportsNow.any (exportHit h d) || decide ((s.exportsNow.filter fun e => decide (e.1 = exportDie h d)).length < 4096)

/-- Weight that leaves toward a peer. -/
def State.exportAdd (s : State) (h : Handle) (d : BitVec 16) (v : Nat) : State :=
  let es := s.exportsNow
  if es.any (exportHit h d) then
    s.withExports (es.map fun e => if exportHit h d e ∧ ¬ e.2.2.2.2 then (e.1, e.2.1, e.2.2.1, e.2.2.2.1 + v, false) else e)
  else s.withExports (es ++ [(exportDie h d, h, d, v, false)])

/-- Weight that comes back from a peer; an entry that reaches 0 is freed. -/
def State.exportSub (s : State) (h : Handle) (d : BitVec 16) (v : Nat) : State :=
  let es := s.exportsNow.map fun e => if exportHit h d e ∧ ¬ e.2.2.2.2 then (e.1, e.2.1, e.2.2.1, e.2.2.2.1 - v, false) else e
  s.withExports (es.filter fun e => e.2.2.2.2 || decide (e.2.2.2.1 ≠ 0))

/-- Whether a key is written off. -/
def State.writtenOff (s : State) (h : Handle) (d : BitVec 16) : Bool := s.exportsNow.any fun e => exportHit h d e && e.2.2.2.2

/-- The weight of this package's accounts that a packet carries. -/
def State.cargo (s : State) (k : Packet) : Option (Handle × Nat) :=
  match k.tok, k.body with
  | some t, _ => if t.pkg = s.fabric.num then some (t.acct, tokValue t.exp) else none
  | none, .borrowReply h _ none => some (h, 2 ^ 63)
  | none, _ => none

/-- A packet's cargo entered in the table as it leaves. -/
def State.exportCargo (s : State) (k : Packet) : State :=
  match s.cargo k with
  | some (h, v) => s.exportAdd h k.dpkg v
  | none => s

/-! ### Packets that do not arrive -/

/-- A token that a packet carried, on its way home through a lightport die. -/
def State.tokBack (s : State) (k : Packet) (taint : Bool) : State := s.giveTok? (dieSite 0) k.tok taint 0#64

/-- A borrow whose request or answer is lost: a splitting form asks again as it is tried again, and a trigger whose completions wait asks at
once, or gives them up where no way leads to its account's package (R272, R475). -/
def State.borrowLost (s : State) (c : Nat) (refused : Bool) : State :=
  if c < 512 then s.modCore c fun x => if x.borrow = .asked then { x with borrow := .idle } else x
  else
    let k := (c - 512) / 16
    let i := (c - 512) % 16
    match vget none (s.coreAt k).trigs i with
    | none => s
    | some t =>
      if t.asked.isEmpty then s
      else if refused then s.setTrig k i (some { t with asked := [] })
      else s.askForTrigger k i t

/-- The return of a given-up chunk (R279, R441): value 0 with taint, to the account of its channel's or its PUT's token, which is the one its unit
worked for where the token has gone. The ranger core's transfers carry none. -/
def State.taintOnly (s : State) (t : Xfer) : State :=
  let tok := if t.chan < 8 then (s.chanAt t.unit t.chan).toks.head? else t.tok
  let home := (tok.map fun k => (k.acct, k.pkg)).getD t.home
  if t.unit = 0 then s else s.giveBack (dieSite 0) home.1 home.2 0 true 0#64

/-- What losing a packet, or having no way to send it, does at this package beside its token. `refused` says that it never
left (R280); else it was given up (R441). -/
def State.packetLost (s : State) (k : Packet) (refused : Bool) : State :=
  match k.body with
  | .message m => if refused then s.event .landRefused 0 k.score (some m.part) 0#64 m.tok.acct else s
  | .chunk x _ lo _ tid _ =>
    match s.xferAt x with
    | none => s
    | some t =>
      let s1 := if refused then s.landRefused t.part (recDst t.record) tid
        else s.taintOnly t
      s1.chunkOver x lo none
  | .read x _ lo _ => s.readRefused x lo
  | .borrow _ c => s.borrowLost c refused
  | .borrowReply h _ none => s.giveBack (dieSite 0) h s.fabric.num (2 ^ 63) (!refused) 0#64
  | .glOpen key _ _ =>
    if (s.handleAt (key / 16) (key % 16)).st = .opening then s.refuseOpen (key / 16) (key % 16) .glNopath else s
  | .podUp tree v _ => s.addDue ((upFrom 0 8).filterMap fun p =>
      if (s.partAt p).podid = k.podid ∧ (s.treeOf (64 * p + tree)).isSome then some (.podBarrierResult (64 * p + tree) v true) else none)
  | .chunkAck _ _ _ _ | .chunkFault _ _ _ _ | .readData _ _ _ | .readFault _ _ _ _ | .ret _ | .borrowReply _ _ (some _)
  | .glOpened _ _ | .glFlit _ _ _ | .glAck _ _ _ | .glFault _ _ _ | .glEnd _ | .glFinal _ _ | .cancelled _ | .retired _ _ | .flowMark _ | .podDown _ _ _ => s

/-- A packet with no way to its destination: refused at its source, its token untainted (R280, R315). -/
def State.refusePacket (s : State) (k : Packet) : State := (s.packetLost k true).tokBack k false

/-- A packet given up by a lost link: its token comes home tainted and leaves its export entry; one whose entry is written off has come home
with it (R279, R440 to R442). -/
def State.giveUpPacket (s : State) (k : Packet) : State :=
  match s.cargo k with
  | some (h, v) =>
    if s.writtenOff h k.dpkg then (match k.body with | .borrowReply _ _ _ => s | _ => s.packetLost k false)
    else ((s.exportSub h k.dpkg v).packetLost k false).tokBack k true
  | none => (s.packetLost k false).tokBack k true

/-! ### Answers -/

/-- An answer to a packet. -/
def Packet.answer (k : Packet) (num : BitVec 16) (cls : Nat) (body : PktBody) : Packet :=
  { cls := BitVec.ofNat 3 cls, spkg := num, score := k.dcore, dpkg := k.spkg, dcore := k.score, label := k.label, podid := k.podid,
    tok := none, body := body }

/-- An answer sent. -/
def State.reply (s : State) (k : Packet) (cls : Nat) (body : PktBody) : State := s.post (Packet.answer k s.fabric.num cls body)

/-! ### Chunks of other packages (R231, R248, R249, R255, R351) -/

/-- A transfer of another package that lands in a ring: its reservation, made when its first chunk comes, in its turn
behind those that wait for room there (R198). -/
def State.ringInFor (s : State) (k : Packet) (p xfer : Nat) (r : Block) (tid : BitVec 32) : Except State (Option RingAt × State) :=
  let keep (s : State) (a : Option RingAt) : Except State (Option RingAt × State) :=
    .ok (a, s.withHub { s.hub with ringIns := s.hub.ringIns ++ [{ spkg := k.spkg, xfer := xfer, ring := a, left := recLen r }] })
  match s.hub.ringIns.find? fun g => decide (g.spkg = k.spkg) && decide (g.xfer = xfer) with
  | some g => .ok (g.ring, s)
  | none =>
    match s.landingUnit p none r with
    | none => keep (s.landRefused p 0#64 tid) none
    | some u =>
      let len := (s.declOf u).ringLen (recRing r)
      if len < recLen r then keep (s.event .ringOversize 5 0 (some p) 0#64 0#32 tid) none
      else if swzMisfit (recSwizzle r) len then keep (s.landRefused p 0#64 tid) none
      else
        let n := s.hub.nextXfer
        match s.reserveRing u (recRing r) (k.spkg, xfer) n (recLen r) with
        | .ok (a, t) => keep (t.withHub { t.hub with nextXfer := n + 1 }) (some a)
        | .error t => .error t

/-- Bytes of a transfer of another package that have come to its ring, or been dropped. -/
def State.ringInTake (s : State) (k : Packet) (xfer n : Nat) : State :=
  let gs := s.hub.ringIns.map fun g => if g.spkg = k.spkg ∧ g.xfer = xfer then { g with left := g.left - n } else g
  s.withHub { s.hub with ringIns := gs.filter fun g => decide (g.left ≠ 0) }

/-- The token of a PUT of another package kept by the barrier that it names, or on its way home (R268). -/
def State.farToken (s : State) (k : Packet) (xfer : Nat) (l : Lander) : State :=
  match k.tok with
  | none => s
  | some t =>
    match s.landBar l with
    | .ok (some loc) => s.withHub { s.hub with barToks := s.hub.barToks ++ [{ spkg := k.spkg, xfer := xfer, loc := loc, tok := t }] }
    | .ok none | .error _ => s.giveTok (dieSite 0) t false 0#64

/-- The tokens that barriers here hold for a transfer of another package, given up at its fault (R255, R268). -/
def State.farTokensBack (s : State) (spkg : BitVec 16) (xfer : Nat) : State :=
  let mine (b : BarTok) : Bool := decide (b.spkg = spkg) && decide (b.xfer = xfer)
  let s1 := s.withHub { s.hub with barToks := s.hub.barToks.filter fun b => !mine b }
  s1.giveToks (dieSite 0) 0#64 ((s.hub.barToks.filter mine).map BarTok.tok)

/-- The end of a transfer told by its package: what is kept here of its chunks is freed, and at a fault the tokens that barriers hold for it
(R231, R255). -/
def State.retiredFar (s : State) (spkg : BitVec 16) (xfer : Nat) (faulted : Bool) : State :=
  let s1 := s.withHub (s.hub.retire spkg xfer)
  (if faulted then s1.farTokensBack spkg xfer else s1).reapAll

/-- The lightport die by which a packet came in. -/
def cameBy (k : Packet) : Nat := dieAgent ((k.via - 1) / 8)

/-- A chunk of another package lands and is acknowledged, or is refused, or faults. -/
def State.chunkIn (s : State) (k : Packet) (xfer : Nat) (r : Block) (lo chan : Nat) (tid : BitVec 32) (data : List Byte) : State :=
  match s.partOfPod k.podid with
  | none => (s.landRefused 0 (recDst r) tid).tokBack k false |>.reply k 3 (.chunkAck xfer lo 0#64 false)
  | some p =>
    let ring := if recDstSp r = 2 then s.ringInFor k p xfer r tid else .ok (none, s)
    match ring with
    | .error t => t.addDue [.trailPacketDeliver k]
    | .ok (a, s0) =>
      let l : Lander :=
        { record := r, part := p, agent := (cameBy k), self := none, land := if recLands r then s0.landingUnit p none r else none, ring := a,
          key := { slice := 0, spkg := k.spkg, score := k.score, chan := chan, tid := tid, xfer := xfer, chunks := [] } }
      let s1 := s0.farToken k xfer l
      let taken (t : State) : State := if recDstSp r = 2 then t.ringInTake k xfer data.length else t
      match s1.landChunk l lo data with
      | .done t w => (taken t).reply k 3 (.chunkAck xfer lo w true)
      | .dropped t =>
        let t1 := match a with | some b => t.fillRing b lo data.length | none => t
        (taken t1).reply k 3 (.chunkAck xfer lo 0#64 false)
      | .fault c addr => (s1.farTokensBack k.spkg xfer).reply k 3 (.chunkFault xfer lo c addr)
      | .waits t => t.addDue [.trailPacketDeliver { k with tok := none }]

/-- A chunk's acknowledgement at its source. -/
def State.chunkAcked (s : State) (x lo : Nat) (wts : Word) (landed : Bool) : State :=
  match s.xferAt x with
  | some t => if t.todo.contains lo ∧ ¬ t.faulted then s.chunkOver x lo (if landed then some wts else none) else s
  | none => s

/-- A read for another package; a private page refuses it (R351, R366). -/
def State.readFor (s : State) (k : Packet) (x va lo n : Nat) : State :=
  match s.partOfPod k.podid with
  | none => s.reply k 3 (.readFault x lo none 0#64)
  | some p =>
    let a := BitVec.ofNat 64 va
    match s.weakRead (cameBy k) p a n with
    | .ok pas => (s.noteRead (cameBy k) p a pas).reply k 3 (.readData x lo (pas.map (cellAt s.mem)))
    | .error e =>
      if (s.weakLeaf (cameBy k) p a).any (fun l => decide (l.attr = 0#2)) then s.reply k 3 (.readFault x lo none 0#64)
      else s.reply k 3 (.readFault x lo (some e.1) e.2)

/-- Data of a read that have come back. -/
def State.readBack (s : State) (x lo : Nat) (data : List Byte) : State :=
  match s.xferAt x with
  | some t => if t.todo.contains lo ∧ ¬ t.faulted then s.deliver x lo t data else s
  | none => s

/-- A fault of a transfer told by another package. -/
def State.faultFrom (s : State) (x lo : Nat) (k : Cause) (addr : Word) : State :=
  match s.xferAt x with
  | some t => if t.faulted ∨ ¬ t.todo.contains lo then s else s.chunkFault x lo t k addr
  | none => s

/-! ### Circuits from other packages (R331, R333, R335, R339) -/

/-- The key of a circuit that comes in. -/
def inKey (d : BitVec 16) (key : Nat) : Nat := d.toNat * 2 ^ 32 + key

/-- A circuit that comes in forgotten: its slots are free and the ring bytes no word will fill are complete. -/
def State.dropIncoming (s : State) (n : Nat) : State :=
  match NatMap.find n s.fabric.incoming with
  | none => s
  | some g =>
    let s1 := (s.dropSlots g.path).fillRest g.ring (glLen g.block) g.landed
    { s1 with fabric := { s1.fabric with incoming := NatMap.del n s1.fabric.incoming } }

/-- The rest of an open of another package: a path from the die it came in by, from the slot the shift gives, and a landing. -/
def State.openIn (s : State) (k : Packet) (key : Nat) (b : Block) (slot : Nat) : State :=
  match s.partOfPod k.podid with
  | none => s.reply k 3 (.glOpened key (some .landRefused))
  | some p =>
    match s.probe (.core (glCore b)) p (glWidth b) (33 + (k.via - 1) / 8) slot 0 with
    | none => s.reply k 3 (.glOpened key (some .glNopath))
    | some r =>
      match s.findLanding p (k.spkg, circuitTicket key) b with
      | .nowhere => s.reply k 3 (.glOpened key (some .landRefused))
      | .waits t => t.addDue [.trailPacketDeliver k]
      | .at dest ring t =>
        let g : GlIn := { block := b, part := p, landed := 0, ring := ring, dest := dest, path := r.1, port := k.via - 1 }
        let t1 := t.takeSlots p r.1
        ({ t1 with fabric := { t1.fabric with incoming := NatMap.put (inKey k.spkg key) g t1.fabric.incoming } } : State).reply k 3 (.glOpened key none)

/-- The answer of the other package to an open. -/
def State.openAnswered (s : State) (key : Nat) (refused : Option Cause) : State :=
  let u := key / 16
  let h := key % 16
  let x := s.handleAt u h
  if x.st ≠ .opening then s
  else
    match refused with
    | some .glNopath =>
      ((s.dropSlots x.path).setHandle u h { x with path := [], asked := false, misses := x.misses + 1 }).addDue [.glopenComplete u h]
    | some k => s.refuseOpen u h k
    | none => s.acceptOpen u h (glWidth x.block) x.path none none

/-- A flit of a circuit of another package lands and is acknowledged. One of no ACTIVE partition's PODID, or on a private page, is dropped with
LAND_REFUSED (R351, R366); the page's refusal also ends the circuit (R335). -/
def State.flitIn (s : State) (k : Packet) (key pos : Nat) (data : List Byte) : State :=
  let n := inKey k.spkg key
  match NatMap.find n s.fabric.incoming with
  | none => s
  | some g =>
    if pos ≠ g.landed then s
    else if s.partOfPod k.podid ≠ some g.part then s.landRefused g.part (glDst g.block + BitVec.ofNat 64 (4 * pos)) 0#32
    else
      match s.landFlit (cameBy k) g.part g.block g.dest g.ring pos data with
      | .error c =>
        let va := glDst g.block + BitVec.ofNat 64 (4 * pos)
        let t := if (s.weakLeaf (cameBy k) g.part va).any (fun l => decide (l.attr = 0#2)) then s.landRefused g.part va 0#32 else s
        t.reply k 3 (.glFault key (some c) (glDst g.block + BitVec.ofNat 64 (4 * pos)))
      | .ok (t, w) =>
        let m := pos + data.length / 4
        ({ t with fabric := { t.fabric with incoming := NatMap.put n { g with landed := m } t.fabric.incoming } } : State).reply k 3 (.glAck key m w)

/-- The end of a circuit told to its receiver, which names the final count. -/
def State.endIn (s : State) (k : Packet) (key : Nat) : State :=
  let n := ((NatMap.find (inKey k.spkg key) s.fabric.incoming).map GlIn.landed).getD 0
  (s.dropIncoming (inKey k.spkg key)).reply k 3 (.glFinal key n)

/-- A fault or a lost landing told to the source of a circuit. -/
def State.circuitStopped (s : State) (key : Nat) (c : Option Cause) : State :=
  let u := key / 16
  let h := key % 16
  match c with
  | none => s.endCircuit u h .preempted
  | some c => (s.setHandle u h { s.handleAt u h with why := some c }).endCircuit u h .faulted

/-! ### Delivery (R316, R318) -/

/-- Whether two packets are of one class, source, destination and label, and the first was sent earlier. -/
def packetBefore (a b : Packet) : Bool :=
  decide (a.cls = b.cls) && decide (a.spkg = b.spkg) && decide (a.score = b.score) && decide (a.dpkg = b.dpkg) && decide (a.dcore = b.dcore)
    && decide (a.label = b.label) && decide (a.seq < b.seq)

/-- Whether an earlier packet of a stream is still on its way here. -/
def State.behind (s : State) (k : Packet) : Bool :=
  s.due.any fun a => match a with
    | .trailPacketDeliver j => packetBefore j k
    | _ => false

/-- A return from another package leaves its export entry on the way to its account; one of an entry written off is discarded
(R442). -/
def State.returnIn (s : State) (k : Packet) (r : Ret) : State :=
  if r.pkg ≠ s.fabric.num then s.addDue [.returnArrive r]
  else if s.writtenOff r.acct k.spkg then s
  else (s.exportSub r.acct k.spkg r.value).addDue [.returnArrive r]

/-- The PODID under which a token of another package's account came here, by which its returns go (R351). -/
def State.noteForeign (s : State) (k : Packet) : State :=
  let note (h : Handle) (d : BitVec 16) : State :=
    if d = s.fabric.num then s else s.withHub { s.hub with farPods := NatMap.put (farKey d h) k.podid s.hub.farPods }
  match k.tok, k.body with
  | some t, _ => note t.acct t.pkg
  | none, .message m => note m.tok.acct m.tok.pkg
  | none, .borrowReply h _ none => note h k.spkg
  | none, _ => s

/-- A packet delivered in this package. -/
def State.deliverHere (s0 : State) (k : Packet) : State :=
  let s := s0.noteForeign k
  match k.body with
  | .message m => s.addDue [.messageArrive m]
  | .chunk x r lo chan tid data => s.chunkIn k x r lo chan tid data
  | .chunkAck x lo w landed => s.chunkAcked x lo w landed
  | .chunkFault x lo c addr => s.faultFrom x lo c addr
  | .read x va lo n => s.readFor k x va lo n
  | .readData x lo data => s.readBack x lo data
  | .readFault x lo none _ => s.readRefused x lo
  | .readFault x lo (some c) addr => s.faultFrom x lo c addr
  | .ret r => s.returnIn k r
  | .borrow h c =>
    let r := s.borrow h
    r.1.reply k 3 (.borrowReply h c r.2.refusal)
  | .borrowReply h c refused => s.addDue [.borrowReply c h k.spkg refused]
  | .glOpen key b slot => s.openIn k key b slot
  | .glOpened key refused => s.openAnswered key refused
  | .glFlit key pos data => s.flitIn k key pos data
  | .glAck key words w =>
    (s.raiseWeak (key / 16) (glColour (s.handleAt (key / 16) (key % 16)).block) w).addDue [.guylineAckArrive (key / 16) (key % 16) words]
  | .glFault key c _ => s.circuitStopped key c
  | .glEnd key => s.endIn k key
  | .glFinal key words => s.addDue [.guylineFinalCount (key / 16) (key % 16) words]
  | .cancelled h => s.takeNotice k.spkg h
  | .retired x faulted => s.retiredFar k.spkg x faulted
  | .flowMark _ => s
  | .podUp tree v broken =>
    match s.partOfPod k.podid with
    | some p => s.addDue [.podBarrierCombine (64 * p + tree) (some (256 + (k.via - 1))) v broken]
    | none => s
  | .podDown tree v broken =>
    match s.partOfPod k.podid with
    | some p => s.addDue [.podBarrierResult (64 * p + tree) v broken]
    | none => s

end Sys2Proof.Machine
end

