-- ==== Sys2Proof/Machine/Links.lean ====
section
/-! DEFINITION. Trail packets on their way (R315 to R318, R435), flow promotion (R325 to R329), and the Ibaskov links: training, flits
and replay, retraining, restriping, and lost links with their reconciliation (R314, R431 to R444, R451, R464, R471, R476). -/

namespace Sys2Proof.Machine

/-! ### Packets as flits (R316, R433) -/

/-- The payload of a packet. -/
def pktPayload (k : Packet) : List Byte :=
  match k.body with
  | .message m => toBytes 64 m.payload.toNat
  | .chunk _ _ _ _ _ data | .readData _ _ data | .glFlit _ _ data => data
  | .glOpen _ b _ => toBytes 64 b.toNat
  | .chunkAck _ _ _ _ | .chunkFault _ _ _ _ | .read _ _ _ _ | .readFault _ _ _ _ | .ret _ | .borrow _ _ | .borrowReply _ _ _
  | .glOpened _ _ | .glAck _ _ _ | .glFault _ _ _ | .glEnd _ | .glFinal _ _ | .cancelled _ | .retired _ _ | .flowMark _ | .podUp _ _ _
  | .podDown _ _ _ => []

/-- Bytes as data flits; the number bounds them. -/
def dataFlits : Nat → List Byte → List (BitVec 256)
  | 0, _ => []
  | n + 1, bs => if bs.isEmpty then [] else BitVec.ofNat 256 (ofBytes (bs.take 32)) :: dataFlits n (bs.drop 32)

/-- Whether a packet is the flit of a program circuit or of a pod barrier, which has no header (log entry 17). -/
def inSlot (k : Packet) : Bool := decide (k.cls = 7#3)

/-- The contents of a packet's flits. -/
def pktFlits (k : Packet) : List (BitVec 256) :=
  let bs := pktPayload k
  if inSlot k then (if bs.isEmpty then [Config.flitHeader k] else dataFlits 1 bs) else Config.flitHeader k :: dataFlits 8 bs

/-- KIND of a flit (R433). -/
def kindCode (k : FlitKind) : BitVec 4 :=
  match k with
  | .idle => 0#4
  | .trail => 1#4
  | .circuit => 2#4
  | .control => 3#4
  | .other n => n

/-- One bit taken into a CRC-32C, in its reflected form. -/
def crcBit (c : BitVec 32) (b : Bool) : BitVec 32 := (c >>> 1) ^^^ (if c.getLsbD 0 ^^ b then 0x82F63B78#32 else 0#32)

/-- CRC-32C of bits, the low bit of each byte first (log entry 133). -/
def crc32c (bs : List Bool) : BitVec 32 := ~~~bs.foldl crcBit 0xFFFFFFFF#32

/-- The bits of a number, the lowest first. -/
def bitsOf {n : Nat} (x : BitVec n) : List Bool := (upFrom 0 n).map x.getLsbD

/-- The CRC of a flit: over its 256 data bits and bits [31:0] of its sideband (R433). -/
def flitCrc (data : BitVec 256) (seq ack : BitVec 12) (kind : FlitKind) : BitVec 32 :=
  crc32c (bitsOf data ++ bitsOf (0#4 ++ kindCode kind ++ ack ++ seq))

/-- Whether a flit that came in is good: its CRC fits, and its KIND is one of the four (R433). -/
def flitGood (f : Flit) : Bool :=
  decide (f.crc = flitCrc f.data f.seq f.ack f.kind) && (match f.kind with | .other _ => false | .idle | .trail | .circuit | .control => true)

/-- Flits numbered from a first SEQ; the last carries the packet. -/
def numberFlits (seq ack : BitVec 12) (kind : FlitKind) (k : Packet) : List (BitVec 256) → List Flit
  | [] => []
  | d :: ds =>
    { seq := seq, ack := ack, kind := kind, data := d, crc := flitCrc d seq ack kind, pkt := if ds.isEmpty then some k else none } ::
      numberFlits (seq + 1) ack kind k ds

/-- The flow of a packet at a meter. -/
def pktFlow (k : Packet) (n : Nat) : Flow := { spkg := k.spkg, score := k.score, dpkg := k.dpkg, dcore := k.dcore, label := k.label, count := n }

/-- Whether a packet is of a kind that meters count: class-0 messages, and the chunks of copies, PUTs and GETs (R325). -/
def pktMetered (k : Packet) : Bool :=
  match k.body with
  | .message _ | .chunk _ _ _ _ _ _ | .readData _ _ _ => true
  | .chunkAck _ _ _ _ | .chunkFault _ _ _ _ | .read _ _ _ _ | .readFault _ _ _ _ | .ret _ | .borrow _ _
  | .borrowReply _ _ _ | .glOpen _ _ _ | .glOpened _ _ | .glFlit _ _ _ | .glAck _ _ _ | .glFault _ _ _ | .glEnd _ | .glFinal _ _
  | .cancelled _ | .retired _ _ | .flowMark _ | .podUp _ _ _ | .podDown _ _ _ => false

/-! ### Packets on their way out (R315, R317, R435, R442) -/

/-- Whether an earlier packet of a flow is still held by a lost port, to be resent or given up first (R315, R440). -/
def State.heldBack (s : State) (k : Packet) : Bool :=
  s.fabric.ports.any fun p => p.2.lost && p.2.replay.any fun f => match f.pkt with
    | some j => packetBefore j k
    | none => false

/-- Whether a port takes new flits: it is up and neither retrains nor restripes (R435, R436, R438). -/
def Port.sends (x : Port) : Bool := x.up && !x.lost && !x.training && x.restripeTx.isNone

/-- The port that a packet leaves by: a circuit's own, or the one its flow hashes to. -/
def State.portFor (s : State) (k : Packet) : Option Nat :=
  if k.via = 0 then s.routePort k.dpkg k.score k.dcore k.cls.toNat k.label.toNat
  else
    let p := k.via - 1
    if (s.portAt p).up ∧ ¬ (s.portAt p).lost then some p else none

/-- How many flits of a class wait for a port, one packet being known to. -/
def State.waitingFlits (s : State) (p : Nat) (k : Packet) : Nat :=
  sumOf (fun a => match a with
    | .trailPacketDeliver j => if j.cls = k.cls ∧ j.dpkg ≠ s.fabric.num ∧ s.portFor j = some p then (pktFlits j).length else 0
    | _ => 0) s.due + (pktFlits k).length

/-- A packet that waits at its port; over 64 flits of a class raise a wake request (R444). -/
def State.waitAtPort (s : State) (p : Nat) (k : Packet) : State :=
  let s1 := s.addDue [.trailPacketDeliver k]
  let a : Action := .laserWakeRequest p
  if 64 < s.waitingFlits p k ∧ ¬ s.due.contains a then s1.addDue [a] else s1

/-- A packet put into a port's replay buffer and on the link (R434); those of a promoted flow that follow its switch marker ride its circuit
(R328). -/
def State.putFlits (s : State) (p : Nat) (k : Packet) : State :=
  let x := s.portAt p
  let ride := s.fabric.promoted.any fun q => (pktFlow k 0).same q.flow && decide (q.mark < k.seq)
  let fs := numberFlits x.seqOut (x.seqIn - 1) (if inSlot k || ride then .circuit else .trail) k (pktFlits k)
  s.setPort p { x with replay := x.replay ++ fs, seqOut := x.seqOut + BitVec.ofNat 12 fs.length }

/-- A packet leaves by a port, or waits there. -/
def State.leaveBy (s : State) (p : Nat) (k : Packet) : State :=
  let x := s.portAt p
  let room : Bool := match s.cargo k with
    | some (h, _) => k.cls ≠ 0#3 || s.exportRoom h k.dpkg
    | none => true
  if ¬ x.sends ∨ 2048 < x.replay.length + (pktFlits k).length ∨ ¬ room then s.waitAtPort p k
  else
    let s1 := if pktMetered k then s.meterAt (512 + p) (pktFlow k (pktPayload k).length) else s
    (s1.exportCargo k).putFlits p k

/-- The result of a pod barrier whose own port is lost goes by another one, BROKEN, on class 5 (R343). -/
def brokenDown (k : Packet) : Option Packet :=
  match k.body with
  | .podDown tree v _ => if inSlot k then some { k with cls := 5#3, via := 0, body := .podDown tree v true } else none
  | _ => none

/-- A packet bound for another package: refused where there is no way to it. -/
def State.sendAway (s : State) (k : Packet) : State :=
  if 4096 ≤ k.dpkg.toNat then s.refusePacket k
  else if s.heldBack k then s.addDue [.trailPacketDeliver k]
  else
    match s.portFor k with
    | some p => s.leaveBy p k
    | none =>
      match brokenDown k with
      | some j => s.addDue [.trailPacketDeliver j]
      | none => s.refusePacket k

/-- TRAIL_PACKET_DELIVER (R316, R318): a packet for this package is delivered, any other leaves; none passes an earlier one of its
stream. -/
def execTrailPacketDeliver (s : State) : Host.Outcome State Fault Refusal :=
  match s.act with
  | some (.trailPacketDeliver k) =>
    .next (if s.behind k then s.addDue [.trailPacketDeliver k] else if k.dpkg = s.fabric.num then s.deliverHere k else s.sendAway k)
  | _ => .next s

/-! ### Flow promotion (R325 to R329) -/

/-- The bytes of a flow in a meter. -/
def flowCount (f : Flow) (fs : List Flow) : Nat := ((fs.find? (Flow.same f)).map Flow.count).getD 0

/-- FLOW_WINDOW_BOUNDARY (R325, R329): at each multiple of 4,096 cycles promoted circuits below half the threshold end, and every count returns to 0. -/
def execFlowWindowBoundary (s : State) : Host.Outcome State Fault Refusal :=
  match s.act with
  | some .flowWindowBoundary =>
    if s.time / 4096 ≤ s.hub.windows then .next (s.addDue [.flowWindowBoundary]) else
    let low (p : Promoted) : Bool := decide (2 * flowCount p.flow (NatMap.findD [] p.flow.score s.fabric.meters) < s.hub.meter.toNat)
    let s1 := s.endPromoted low
    let ms := s1.fabric.meters.map fun m => (m.1, m.2.map fun f => { f with count := 0 })
    .next (({ s1 with fabric := { s1.fabric with meters := ms }, hub := { s1.hub with windows := s.time / 4096 } } : State).addDue [.flowWindowBoundary])
  | _ => .next s

/-- The flow of a source core that a key names, in its own meter or in a port's, with the larger count. -/
def State.flowOf (s : State) (c key : Nat) : Option Flow :=
  let hits := s.fabric.meters.flatMap fun m => m.2.filter fun f => decide (f.score = c) && decide (f.key = key)
  match hits with
  | [] => none
  | f :: rest => some (rest.foldl (fun a b => if a.count < b.count then b else a) f)

/-- The key under which an abandoned probe of a flow is remembered. -/
def probeKey (c key : Nat) : Nat := c * 2 ^ 50 + key

/-- The goal of a flow's circuit. -/
def State.flowGoal (s : State) (f : Flow) : Option Goal :=
  if f.dpkg ≠ s.fabric.num then s.exitGoal f.dpkg f.score f.dcore f.label.toNat
  else if f.dcore < 256 then some (.core f.dcore) else some (.die 4)

/-- A flow promoted where a path is found, with a switch marker among its packets (R235, R328); the part of the path in another package is that package's to grant (log entry 22). -/
def State.promote (s : State) (c key : Nat) (f : Flow) : State :=
  let w := min 32 ((f.count + 2047) / 2048)
  let fail : State := { s.tickFree with fabric := { s.fabric with probedAt := NatMap.put (probeKey c key) s.time s.fabric.probedAt } }
  match s.ownerOfQuad (quadOf c), s.flowGoal f with
  | some p, some g =>
    match s.probe g p w (quadOf c) 0 64 with
    | none => fail
    | some (ks, _, _) =>
      if f.dpkg ≠ s.fabric.num ∧ Config.sense s.free 1 % 2 = 0 then fail
      else
        let s1 := s.tickFree.takeSlots p ks
        let q : Promoted := { key := key, flow := f, part := p, width := w, path := ks, mark := s1.fabric.nextPkt }
        ({ s1 with fabric := { s1.fabric with promoted := s1.fabric.promoted ++ [q] } } : State).markFlow f p false
  | _, _ => fail

/-- FLOW_PROMOTE_PROBE (R326, R327): in run mode, once at a time, and not within 65,536 cycles of an abandoned probe. -/
def execFlowPromoteProbe (s : State) : Host.Outcome State Fault Refusal :=
  match s.act with
  | some (.flowPromoteProbe c key) =>
    match s.flowOf c key with
    | none => .next s
    | some f =>
      let early : Bool := match NatMap.find (probeKey c key) s.fabric.probedAt with
        | some t => decide (s.time < t + 65536)
        | none => false
      .next (if early ∨ f.count = 0 ∨ s.hub.modeDisp ≠ 0#2 ∨ s.fabric.promoted.any (fun q => f.same q.flow) then s else s.promote c key f)
  | _ => .next s

/-! ### Circuits that cross a port -/

/-- The handles of a unit whose circuit leaves by a port. -/
def State.handlesBy (s : State) (u port : Nat) : List (Nat × Nat) :=
  ((upFrom 0 16).filter fun h => (s.handleAt u h).path.any fun k => decide (k.1 = portWheel port)).map fun h => (u, h)

/-- The program circuits that leave by a port. -/
def State.circuitsBy (s : State) (port : Nat) : List (Nat × Nat) := s.unitIds.flatMap fun u => s.handlesBy u port

/-- Every circuit that crosses a port ends (R321, R436, R439). -/
def State.endCrossing (s : State) (port : Nat) (k : GlCause) : State :=
  ((s.circuitsBy port).foldl (fun s e => s.endCircuit e.1 e.2 k) s).endPromoted fun p => p.path.any fun w => decide (w.1 = portWheel port)

/-! ### Unreachable packages (R442, R476) -/

/-- A request to an unreachable package completes at its requester (R476). -/
def State.settleXfer (s : State) (d : BitVec 16) (x : Nat) : State :=
  match s.xferAt x with
  | none => s
  | some t =>
    let chunks := if s.recFar t.record ∧ recDpkg t.record = d then (t.sentOut.filter fun c => c.2).map (·.1) else []
    let reads := if s.recFarSrc t.record ∧ recSpkg t.record = d then (t.sentOut.filter fun c => !c.2).map (·.1) else []
    let s1 := reads.foldl (fun s lo => s.readRefused x lo) s
    chunks.foldl (fun s lo => (s.taintOnly t).chunkOver x lo none) s1

/-- The tokens of an unreachable package's accounts that units hold are discarded (R442). -/
def Hold.without (h : Hold) (d : BitVec 16) : Hold := if h.valid ∧ h.pkg = d then {} else h

/-- Engines without the tokens of an unreachable package's accounts. -/
def Engines.without (e : Engines) (d : BitVec 16) : Engines :=
  { e with chans := vmap (fun c => { c with toks := c.toks.filter fun t => decide (t.pkg ≠ d) }) e.chans
           gl := vmap (fun h => { h with tok := h.tok.filter fun t => decide (t.pkg ≠ d) }) e.gl }

/-- The messages of a list whose token is of another package. -/
def keepMessages (d : BitVec 16) (ms : List (Message × Nat)) : List (Message × Nat) := ms.filter fun m => decide (m.1.tok.pkg ≠ d)

/-- A sequencer without the tokens of an unreachable package's accounts: its unit's, its triggers', its arrival buffer's. -/
def Core.without (x : Core) (d : BitVec 16) : Core :=
  let e := Engines.without { chans := x.chans, gl := x.gl } d
  { x with hold := x.hold.without d, borrow := if x.hold.valid ∧ x.hold.pkg = d then .idle else x.borrow, chans := e.chans, gl := e.gl
           trigs := vmap (fun t => t.filter fun g => decide (g.tok.pkg ≠ d)) x.trigs
           arrivals := keepMessages d x.arrivals, held := keepMessages d x.held }

/-- Every token of an unreachable package's accounts discarded. -/
def State.discardTokens (s : State) (d : BitVec 16) : State :=
  let far (t : Tok) : Bool := decide (t.pkg = d)
  let s1 := s.withHub
    { s.hub with
      units := s.hub.units.map fun u => (u.1, { u.2 with hold := u.2.hold.without d, eng := u.2.eng.without d })
      xfers := s.hub.xfers.map fun x => (x.1, { x.2 with tok := x.2.tok.filter fun t => !far t })
      barToks := s.hub.barToks.filter fun b => !far b.tok }
  { s1 with core := s1.core.without d, others := s1.others.map fun x => (x.1, x.2.without d) }

/-- The export entries of an unreachable package written off: their values come home tainted, each with LINK_LOST (R442). -/
def State.writeOff (s : State) (d : BitVec 16) (port : Nat) : State :=
  let es := s.exportsNow
  let hits := es.filter fun e => decide (e.2.2.1 = d) && !e.2.2.2.2
  let s1 := s.withExports (es.map fun e => if e.2.2.1 = d then (e.1, e.2.1, d, 0, true) else e)
  hits.foldl (fun s e => (s.giveBack (dieSite e.1) e.2.1 s.fabric.num e.2.2.2.1 true 0#64).event .linkLost 3 port none (d.setWidth 64) e.2.1) s1

/-- The landings of an unreachable package's transfers and circuits given up, with its applied-bitmap entries (R476). -/
def State.dropLandings (s : State) (d : BitVec 16) : State :=
  let mine := s.hub.ringIns.filter fun g => decide (g.spkg = d)
  let s1 := s.withHub
    { s.hub with ringIns := s.hub.ringIns.filter fun g => decide (g.spkg ≠ d), applied := s.hub.applied.filter fun a => decide (a.spkg ≠ d) }
  let s2 := mine.foldl (fun s g => match g.ring with
    | some a => s.fillAll a
    | none => s) s1
  (s2.fabric.incoming.filter fun g => decide (g.1 / 2 ^ 32 = d.toNat)).foldl (fun s g => s.dropIncoming g.1) s2

/-- The opens that wait for an unreachable package are refused. -/
def State.refuseOpens (s : State) (d : BitVec 16) : State :=
  s.unitIds.foldl (fun s u => (upFrom 0 16).foldl (fun s h =>
    let x := s.handleAt u h
    if x.st = .opening ∧ x.asked ∧ glPkg x.block = d then s.refuseOpen u h .glNopath else s) s) s

/-- What becoming unreachable does to all that concerns a package. -/
def State.peerGone (s : State) (d : BitVec 16) (port : Nat) : State :=
  let s1 := (s.hub.xfers.map (·.1)).foldl (fun s x => s.settleXfer d x) s
  (((s1.writeOff d port).discardTokens d).dropLandings d).refuseOpens d

/-! ### Lost links (R439 to R441) -/

/-- The packets whose last flit is in a list, those of slots aside. -/
def wholePackets (fs : List Flit) : List Packet := fs.filterMap fun f => f.pkt.bind fun k => if inSlot k then none else some k

/-- LINK_LOST of a port (R432). -/
def State.lostEvent (s : State) (port resent given : Nat) : State :=
  s.event .linkLost 3 port none ((s.portAt port).peer.setWidth 64) 0#32 0#32 (BitVec.ofNat 64 resent) (BitVec.ofNat 64 given)

/-- The flits that a lost port holds given up (R440, R441). -/
def State.giveUpAll (s : State) (port : Nat) : State :=
  let x := s.portAt port
  let s1 := (s.setPort port { x with replay := [] }).lostEvent port 0 x.replay.length
  (wholePackets x.replay).foldl (fun s k => s.giveUpPacket k) s1

/-- What ports lost earlier toward a peer still hold given up before its export entries are written off: their tokens come home once (R440, R442). -/
def State.giveUpOthers (s : State) (d : BitVec 16) : List Nat → State
  | [] => s
  | p :: ps =>
    let x := s.portAt p
    State.giveUpOthers (if x.lost ∧ x.peer = d ∧ ¬ x.replay.isEmpty then s.giveUpAll p else s) d ps

/-- The trees that a lost port breaks: children below it count as BROKEN, and where it led to the parent the members of an episode
that waits for its result learn BROKEN (R343). -/
def State.breakPods (s : State) (port : Nat) : State :=
  s.hub.images.foldl (fun s i => i.2.trees.foldl (fun s t =>
    let key := 64 * i.1 + t.num
    let e := s.episodeAt key (s.openEpisode key)
    if t.down.getLsbD port then s.settleTree key
    else if !t.root && decide (t.up = port) && !e.joined.isEmpty && t.participants.all e.joined.contains then
      s.addDue [.podBarrierResult key (e.value.getD 0#64) true]
    else s) s) s

/-- A link declared lost (R439): the port leaves every route set, every circuit across it ends FAILED, and what it holds waits to be
reconciled, or is given up where its peer cannot be reached (R440). -/
def State.loseLink (s : State) (port : Nat) : State :=
  let x := s.portAt port
  if x.lost then s
  else
    let s1 := s.setPort port
      { x with up := false, lost := true, lostAt := s.time, training := false, restripeTx := none, restripeRx := none, asked := none }
    let s2 : State := { s1 with fabric := { s1.fabric with routes := s1.fabric.routes.map fun r => (r.1, r.2.filter fun p => decide (p ≠ port)) } }
    let s3 := (s2.endCrossing port .failed).breakPods port
    if ¬ s3.reachable x.peer then (((s3.giveUpAll port).giveUpOthers x.peer (upFrom 0 32)).peerGone x.peer port)
    else if x.replay.isEmpty then s3.lostEvent port 0 0
    else s3.tickFree.addDue [.reconcile port (BitVec.ofNat 12 (Config.sense s3.free port)), .reconcileTimeout port]

/-- The flits after one of a SEQ, all of them where none has it. -/
def flitsAfter (seq : BitVec 12) (fs : List Flit) : List Flit :=
  match fs.findIdx? fun f => decide (f.seq = seq) with
  | some i => fs.drop (i + 1)
  | none => fs

/-- The flits from one of a SEQ on, none where none has it. -/
def flitsFrom (seq : BitVec 12) (fs : List Flit) : List Flit := fs.dropWhile fun f => decide (f.seq ≠ seq)

/-- Whether a flit is one of a program circuit or a pod barrier. -/
def slotFlit (f : Flit) : Bool := match f.pkt with
  | some k => inSlot k
  | none => false

/-- A packet to be resent over another port, with its number and out of the export table until it leaves again. -/
def State.resend (s : State) (k : Packet) : State :=
  let s1 := match s.cargo k with
    | some (h, v) => s.exportSub h k.dpkg v
    | none => s
  s1.addDue [.trailPacketDeliver { k with via := 0 }]

/-- RECONCILE: the flits after the last one accepted are resent as whole packets, those of program circuits discarded (R440); the result of a pod
barrier among those goes as a BROKEN notice on class 5 (R343). -/
def State.reconcileAt (s : State) (port : Nat) (last : BitVec 12) : State :=
  let x := s.portAt port
  if ¬ x.lost ∨ x.replay.isEmpty ∨ ¬ s.reachable x.peer then s
  else
    let fs := flitsAfter last x.replay
    let s1 := (s.setPort port { x with replay := [] }).lostEvent port (fs.filter fun f => !slotFlit f).length 0
    ((wholePackets fs).foldl (fun s k => s.resend k) s1).addDue ((fs.filterMap Flit.pkt).filterMap fun k => (brokenDown k).map Action.trailPacketDeliver)

/-- RECONCILE (R440). -/
def execReconcile (s : State) : Host.Outcome State Fault Refusal :=
  match s.act with
  | some (.reconcile port last) => .next (s.reconcileAt port last)
  | _ => .next s

/-- RECONCILE_TIMEOUT (R440): after 2^20 cycles, or once no live port is left, every held flit is given up. -/
def execReconcileTimeout (s : State) : Host.Outcome State Fault Refusal :=
  match s.act with
  | some (.reconcileTimeout port) =>
    let x := s.portAt port
    .next (if ¬ x.lost ∨ x.replay.isEmpty then s
      else if x.lostAt + 2 ^ 20 ≤ s.time ∨ ¬ s.reachable x.peer then s.giveUpAll port
      else s.addDue [.reconcileTimeout port])
  | _ => .next s

/-! ### Training (R314, R315, R451) -/

/-- LINK_TRAINING: the pair of the peer is checked against the pod map, and the version. -/
def State.train (s : State) (port : Nat) (ident : Word) (num ver mask : BitVec 16) (flight : Nat) : State :=
  let x := s.portAt port
  if 32 ≤ port ∨ s.fabric.podmap.isEmpty then s
  else if x.lost ∧ ¬ x.replay.isEmpty then s.addDue [.linkTraining port ident num ver mask flight]
  else if ¬ s.fabric.podmap.contains (ident, num) ∨ ver = 0#16 then
    let s1 := s.event .linkMismatch 3 port
    if x.up then s1.loseLink port else s1.setPort port { x with training := false }
  else
    let base : Port := if x.up then x else { x with seqOut := 0#12, seqIn := 0#12, replay := [] }
    let y : Port :=
      { base with up := true, lost := false, peer := num, flight := flight % 64, rxMask := mask, training := false, replay := base.replay.map fun f => { f with again := 0 }, fails := 0,
                  asked := none, lastGood := s.time }
    let set := NatMap.findD [] num.toNat s.fabric.routes
    let set1 := if set.contains port ∨ 4 ≤ set.length then set else set ++ [port]
    let s1 := s.setPort port y
    let s2 : State := { s1 with fabric := { s1.fabric with routes := NatMap.put num.toNat set1 s1.fabric.routes } }
    if s2.due.contains (.linkRetrain port) then s2 else s2.addDue [.linkRetrain port]

/-- LINK_TRAINING (R314, R451). -/
def execLinkTraining (s : State) : Host.Outcome State Fault Refusal :=
  match s.act with
  | some (.linkTraining port ident num ver mask flight) => .next (s.train port ident num ver mask flight)
  | _ => .next s

/-! ### Flits and replay (R434, R435, R471) -/

/-- The source number of a port's counter: receive directions follow the 32 transmit ones (log entry 23). -/
def portSource (port : Nat) (rx : Bool) : Nat := port + 32 * b2n rx

/-- The buffer without the flits up to an acknowledged one. -/
def ackFlits (ack : BitVec 12) (fs : List Flit) : List Flit :=
  match fs.findIdx? fun f => decide (f.seq = ack) with
  | some i => fs.drop (i + 1)
  | none => fs

/-- A good flit: its acknowledgement, and its acceptance where it is the next one. -/
def State.goodFlit (s : State) (port : Nat) (f : Flit) : State :=
  let x := s.portAt port
  let held := ackFlits f.ack x.replay
  let y : Port := { x with lastGood := s.time, replay := held }
  match f.kind with
  | .idle | .control | .other _ => s.setPort port y
  | .trail | .circuit =>
    if f.seq ≠ x.seqIn then s.setPort port { y with asked := some x.seqIn }
    else
      let s1 := s.setPort port { y with seqIn := x.seqIn + 1, asked := none }
      match f.pkt with
      | some k => s1.post { k with via := port + 1 }
      | none => s1

/-- FLIT_RECEIVE (R433, R434). -/
def execFlitReceive (s : State) : Host.Outcome State Fault Refusal :=
  match s.act with
  | some (.flitReceive port f) =>
    let x := s.portAt port
    .next (if ¬ x.up ∨ x.lost ∨ x.training then s
      else if flitGood f then s.goodFlit port f
      else (s.count .crcRetry 3 (portSource port true)).setPort port { x with asked := some x.seqIn })
  | _ => .next s

/-- Held flits from a SEQ on marked as resent once more (R434, R436). -/
def againFrom (seq : BitVec 12) (fs : List Flit) : List Flit :=
  fs.takeWhile (fun f => decide (f.seq ≠ seq)) ++ (flitsFrom seq fs).map fun f => { f with again := f.again + 1 }

/-- Held flits from a SEQ on resent, each counted (R434). -/
def State.replayFrom (s : State) (port : Nat) (seq : BitVec 12) : State :=
  let x := s.portAt port
  let fs := flitsFrom seq x.replay
  let s1 := fs.foldl (fun s _ => s.count .linkReplay 3 (portSource port false)) s
  s1.setPort port { x with replay := againFrom seq x.replay }

/-- REPLAY_REQUEST (R434, R471): not acted on while a restripe is under way. -/
def execReplayRequest (s : State) : Host.Outcome State Fault Refusal :=
  match s.act with
  | some (.replayRequest port seq) => .next (if (s.portAt port).sends then s.replayFrom port seq else s)
  | _ => .next s

/-! ### Retraining (R436) -/

/-- The end of a retrain that will come (log entry 19). -/
def State.awaitRetrain (s : State) (port : Nat) : State :=
  s.tickFree.addDue [.retrainEnd port (decide (Config.sense s.free 0 % 2 = 1)) (Config.sense s.free 1) (BitVec.ofNat 12 (Config.sense s.free 2))]

/-- LINK_RETRAIN (R436): the watch of a port that is up. -/
def execLinkRetrain (s : State) : Host.Outcome State Fault Refusal :=
  match s.act with
  | some (.linkRetrain port) =>
    let x := s.portAt port
    .next (if ¬ x.up ∨ x.lost ∨ x.training then s
      else if x.replay.any (fun f => decide (16 ≤ f.again)) ∨ x.lastGood + 2 ^ 16 ≤ s.time then
        ((s.setPort port { x with training := true }).endCrossing port .failed).awaitRetrain port
      else s.addDue [.linkRetrain port])
  | _ => .next s

/-- RETRAIN_END (R436). -/
def execRetrainEnd (s : State) : Host.Outcome State Fault Refusal :=
  match s.act with
  | some (.retrainEnd port ok flight seq) =>
    let x := s.portAt port
    if ¬ x.training then .next s
    else if ok then
      .next (((s.setPort port { x with training := false, fails := 0, replay := x.replay.map fun f => { f with again := 0 }, flight := flight % 64, lastGood := s.time }).replayFrom port
        seq).addDue [.linkRetrain port])
    else if 3 ≤ x.fails + 1 then .next ((s.setPort port { x with fails := 0 }).loseLink port)
    else .next ((s.setPort port { x with fails := x.fails + 1 }).awaitRetrain port)
  | _ => .next s

/-! ### Loss of light (R437, R438, R464) -/

/-- The bits of a laser quad in a mask. -/
def quadBits (q : Nat) (m : BitVec 16) : BitVec 16 := m &&& (0xF#16 <<< (4 * q))

/-- LIGHT_LOSS for each quad of a loss, in ascending order; each names the live mask before its own loss. -/
def State.lightEvents (s : State) (port : Nat) (rx : Bool) (lost : BitVec 16) (live : BitVec 16) : List Nat → State
  | [] => s
  | q :: qs =>
    let bad := quadBits q (live &&& lost)
    if bad = 0#16 then State.lightEvents s port rx lost live qs
    else
      State.lightEvents (s.event .lightLoss 3 port none 0#64 0#32 0#32 (BitVec.ofNat 64 (q + 16 * b2n rx)) (live.setWidth 64)) port rx lost
        (live &&& ~~~bad) qs

/-- LIGHT_LOSS: a restripe begins, or one under way takes the loss in; with no live wavelength left the link is lost. -/
def State.darken (s : State) (port : Nat) (rx : Bool) (lost : BitVec 16) : State :=
  let x := s.portAt port
  let old := if rx then x.restripeRx else x.restripeTx
  let m := x.masks rx
  let lit := (old.map (·.2)).getD m.1
  let live := lit &&& ~~~m.2
  if ¬ x.up ∨ x.lost ∨ live &&& lost = 0#16 then s
  else
    let after := lit &&& ~~~lost
    let s1 := s.lightEvents port rx lost live (upFrom 0 4)
    if after &&& ~~~m.2 = 0#16 then (s1.setPort port (x.withMasks rx after m.2)).loseLink port
    else
      let p := some ((old.map (·.1)).getD live, after)
      let s2 := s1.setPort port (if rx then { x with restripeRx := p } else { x with restripeTx := p })
      if old.isSome then s2 else s2.tickFree.addDue [.restripeComplete port rx (BitVec.ofNat 12 (Config.sense s2.free port))]

/-- LIGHT_LOSS (R437, R464). -/
def execLightLoss (s : State) : Host.Outcome State Fault Refusal :=
  match s.act with
  | some (.lightLoss port rx lost) => .next (s.darken port rx lost)
  | _ => .next s

/-- RESTRIPE_COMPLETE: the new mask is agreed, held flits are replayed, and a port of which either direction falls below 12
wavelengths carries no circuit (R321). -/
def State.restripe (s : State) (port : Nat) (rx : Bool) (seq : BitVec 12) : State :=
  let x := s.portAt port
  match (if rx then x.restripeRx else x.restripeTx) with
  | none => s
  | some (before, after) =>
    let y := x.withMasks rx after (x.masks rx).2
    let z := if rx then { y with restripeRx := none } else { y with restripeTx := none }
    let live := z.live rx
    let s1 := (s.setPort port z).event .restriped 3 port none 0#64 0#32 0#32
      (BitVec.ofNat 64 (ones before + ones live * 2 ^ 8 + b2n rx * 2 ^ 16)) (live.setWidth 64)
    let s2 := if rx then s1 else s1.replayFrom port seq
    if ones live < 12 then s2.endCrossing port .narrowed else s2

/-- RESTRIPE_COMPLETE (R438). -/
def execRestripeComplete (s : State) : Host.Outcome State Fault Refusal :=
  match s.act with
  | some (.restripeComplete port rx seq) => .next (s.restripe port rx seq)
  | _ => .next s

/-- LASER_WAKE_REQUEST (R444): a request to the firmware, which RWAVE wake answers. -/
def execLaserWakeRequest (s : State) : Host.Outcome State Fault Refusal :=
  match s.act with
  | some (.laserWakeRequest port) => .next (s.setPort port { s.portAt port with wakeReq := true })
  | _ => .next s

end Sys2Proof.Machine
end

