-- ==== Sys2Proof/Machine/Service.lean ====
section
/-! DEFINITION. The periodic and hub actions that no other file holds: logical time (R220), regions that leave FT (R212), the
address-range table (R208, R209), scrubbing (R445, R446), partitions that drain (R346, R350), and the hub's event buffer (R478). -/

namespace Sys2Proof.Machine

/-! ### Logical time and regions (R212, R220) -/

/-- PTS_TICK (R220): the cores that run a unit, and the ranger core after boot, once in every 64 cycles. -/
def execPtsTick (s : State) : Host.Outcome State Fault Refusal :=
  match s.act with
  | some .ptsTick =>
    let up (s : State) (c : Nat) : State :=
      if (s.coreAt c).unit.isSome || (decide (c = rangerId) && decide (s.port.boot = .running)) then
        s.modCore c fun x => { x with pts := x.pts + 1 } else s
    if s.time / 64 ≤ s.hub.ticks then .next (s.addDue [.ptsTick])
    else .next (((s.withHub { s.hub with ticks := s.time / 64 }).each up (upFrom 0 257)).addDue [.ptsTick])
  | _ => .next s

/-- The tick of logical time, where 64 cycles have passed since the last (R220). -/
def State.tickDue (s : State) : Option Nat :=
  if s.hub.ticks < s.time / 64 then s.due.findIdx? fun a => decide (a = .ptsTick) else none

/-- REGION_FT_TIMEOUT (R212): 65,536 cycles touched by one stack alone give it the region; without a write they leave it read-shared;
else a new window begins (log entry 24). -/
def State.ftTimeout (s : State) (r : Nat) : State :=
  match NatMap.find r s.hub.regions with
  | some (.ft touched wrote since) =>
    let put (x : Region) : State := s.withHub { s.hub with regions := NatMap.put r x s.hub.regions }
    if s.time < since + 65536 then s.addDue [.regionFtTimeout r]
    else
      match touched, wrote with
      | [a], _ => put (.dp (some a) true)
      | _, false => put (.rs 0#64)
      | _, true => (put (.ft [] false s.time)).addDue [.regionFtTimeout r]
  | some (.dp _ _) | some (.rs _) | none => s

/-- REGION_FT_TIMEOUT (R212). -/
def execRegionFtTimeout (s : State) : Host.Outcome State Fault Refusal :=
  match s.act with
  | some (.regionFtTimeout r) => .next (s.ftTimeout r)
  | _ => .next s

/-- ART_UPDATE_EFFECT (R208, R209): the entry takes effect; one with V set that is invalid records ART_INVALID. -/
def execArtUpdateEffect (s : State) : Host.Outcome State Fault Refusal :=
  match s.act with
  | some (.artUpdateEffect i e) =>
    let s1 := s.withHub { s.hub with art := vput s.hub.art i e }
    .next (if e.getLsbD 0 && !artValid e then s1.event .artInvalid 5 0 none (BitVec.ofNat 64 (fld e 16 48 * 2 ^ 16)) else s1)
  | _ => .next s

/-! ### Scrubbing (R445, R446) -/

/-- The job accounts of a partition. -/
def State.jobsOf (s : State) (p : Nat) : List Nat :=
  (s.accList.filter fun a => decide (a.2.level = .job) && decide (a.2.part = p) && decide (a.2.st ≠ .free) && decide (a.2.st ≠ .done)).map (·.1)

/-- The source of an error of a scrubbed word: its slice, or its HBM stack (R432, R445). -/
def State.scrubSite (s : State) (word : Nat) (slice : Bool) : Nat × Nat := if slice then (1, s.homeOf (32 * word)) else (5, hbmStack (32 * word))

/-- A scrubbed word that cannot be corrected: it stays bad, and every job of the partition whose window holds it is cancelled. -/
def State.scrubBad (s : State) (word : Nat) (slice : Bool) (syndrome : Word) : State :=
  let pa := 32 * word
  let s1 := s.withHub { s.hub with bad := if s.hub.bad.contains word then s.hub.bad else s.hub.bad ++ [word] }
  let report (s : State) (p : Option Nat) (h : Handle) : State :=
    s.event .eccUncorrected (s.scrubSite word slice).1 (s.scrubSite word slice).2 p (BitVec.ofNat 64 pa) h 0#32 (BitVec.ofNat 64 (b2n !slice)) syndrome
  let jobs := ((upFrom 0 8).filter fun p => decide ((s.partAt p).st ≠ 0#2) && s.inWindows p pa 32).flatMap fun p => (s.jobsOf p).map fun i => (p, i)
  if jobs.isEmpty then report s1 none 0#32
  else jobs.foldl (fun s j => (report s (some j.1) (accHandle j.2 (s.accAt j.2))).cancelAcc j.2) s1

/-- SCRUB: one protected word of HBM, or of the slice that homes it, read: good, corrected, or not to be corrected. The scrubber goes on from the HBM
word to its slice, and from there to the next word. -/
def execScrub (s : State) : Host.Outcome State Fault Refusal :=
  match s.act with
  | some (.scrub word slice bad syndrome) =>
    let s1 := match bad with
      | 0 => s
      | 1 => s.count .eccCorrected (s.scrubSite word slice).1 (s.scrubSite word slice).2
      | _ => s.scrubBad word slice syndrome
    .next (s1.tickFree.addDue [.scrub (if slice then (word + 1) % 2 ^ 34 else word) (!slice) (Config.sense s1.free 0 % 3) (BitVec.ofNat 64 (Config.sense s1.free 1))])
  | _ => .next s

/-! ### Partitions that drain (R346, R348, R350) -/

/-- Whether a window range of 64 KiB units holds a unit. -/
def inWindow (ws : List (Nat × Nat)) (n : Nat) : Bool := ws.any fun w => decide (w.1 ≤ n) && decide (n ≤ w.2)

/-- The resources that a descriptor holds: none while it is OFF. -/
def PartDesc.holds (d : PartDesc) : Bool := decide (d.st = 1#2) || decide (d.st = 2#2)

/-- The quadrants that a descriptor gives up to another. -/
def PartDesc.quadsLost (old new : PartDesc) : List Nat :=
  if old.holds then old.quadList.filter fun q => !(new.holds && new.quads.getLsbD q) else []

/-- Whether an account id is in a descriptor's range. -/
def PartDesc.hasAcct (d : PartDesc) (i : Nat) : Bool := d.holds && decide (d.acctBase ≤ i) && decide (i < d.acctBase + d.acctCnt)

/-- Whether the windows of a descriptor hold every byte of another's. -/
def PartDesc.windowsWithin (old new : PartDesc) : Bool :=
  !old.holds || old.windows.all fun w => decide (w.2 < w.1) || (new.holds && coveredBy new.ranges (w.1 * 2 ^ 16) (w.2 * 2 ^ 16 + 2 ^ 16) 9)

/-- Whether a new descriptor gives up a quadrant, an account id or a window byte. -/
def PartDesc.givesUp (old new : PartDesc) : Bool :=
  !(old.quadsLost new).isEmpty || !old.windowsWithin new
    || (old.holds && decide (old.acctCnt ≠ 0)
        && !(new.holds && decide (new.acctBase ≤ old.acctBase) && decide (old.acctBase + old.acctCnt ≤ new.acctBase + new.acctCnt)))

/-- Whether a quadrant holds no unit in any state, and no rows of one that has ended (R310). A unit that waits to be placed stands on none. -/
def State.quadIdle (s : State) (q : Nat) : Bool :=
  (coresOf q).all (fun c => let x := s.coreAt c; x.unit.isNone && x.standby.isNone && x.queue.isEmpty && x.trapq.isEmpty)
    && s.hub.units.all fun u => decide (quadOf u.2.core ≠ q) || decide (u.2.st = .created) || (decide (u.2.st = .ended) && decide (u.2.rows = 0))

/-- Whether nothing of a partition reads or writes memory: its quadrants hold no unit, no transfer of it is left, and no circuit lands for it
(log entry 123). -/
def State.partIdle (s : State) (p : Nat) : Bool :=
  (s.partAt p).quadList.all s.quadIdle && s.hub.xfers.all (fun x => decide (x.2.part ≠ p))
    && s.fabric.incoming.all fun g => decide (g.2.part ≠ p)

/-- A core of a moved quadrant made ready for its new owner: rows zeroed, engines, triggers, buffers and queues reset, cached
leaves invalid. -/
def Core.moved (x : Core) : Core :=
  { x with pad := {}, chans := Vector.replicate 8 {}, six := {}, gl := Vector.replicate 16 {}, queue := [], trigs := Vector.replicate 16 none,
           arrivals := [], held := [], tlb := [], used := [] }

/-- A core made ready for its new owner. The tokens of the messages and triggers that it still holds go home. -/
def State.clearCore (s : State) (c : Nat) : State :=
  let x := s.coreAt c
  let s1 := (x.arrivals ++ x.held).foldl (fun s m => s.dropMessage m.1) s
  let s2 := (x.trigs.toList.filterMap id).foldl (fun s u => s.giveHold c u.held false 0#64) s1
  s2.modCore c Core.moved

/-- A quadrant made ready for its new owner (R350): its SRAM domain is raised to OP7, where every physical row holds data, its cores are
cleared, their rows zeroed, and the domain goes back to the point it held. -/
def State.clearQuad (s : State) (q : Nat) : State :=
  let d := sramDomain q
  (((s.setOp d 7).each State.clearCore (coresOf q))).setOp d (s.opOf d)

/-- Every cached translation of a partition dropped, with the records that name its holders and the tables the walkers keep. -/
def State.forgetLeaves (s : State) (p : Nat) : State :=
  let s1 := s.each (fun s c => s.modCore c fun x => { x with tlb := x.tlb.filter fun l => decide (l.part ≠ p) }) (upFrom 0 256)
  s1.withHub { s1.hub with
    dies := s1.hub.dies.filter fun e => decide (e.2.part ≠ p), tdir := s1.hub.tdir.filter fun r => decide (r.part ≠ p),
    walkerMem := s1.hub.walkerMem.filter fun e => decide (e.2.1 ≠ p) }

/-- A descriptor in force; the counter of energy starts at 0 as the partition becomes ACTIVE (R381), and the cap is computed again
(R389). -/
def State.installPart (s : State) (p : Nat) (d : PartDesc) : State :=
  let fresh := decide ((s.partAt p).st ≠ 1#2) && decide (d.st = 1#2)
  let s1 := s.setPart p d
  let s2 := if fresh then s1.withPower { s1.power with energy := NatMap.del p s1.power.energy, carryNj := NatMap.del p s1.power.carryNj } else s1
  s2.recap.1

/-- DRAIN_COMPLETE: once the moved quadrants hold no unit, the moved accounts are free and, where a window moves, nothing of the partition
uses memory, the resources are made ready and the waiting descriptor takes effect (R350; slice lines, log entry 117). -/
def State.finishDrain (s : State) (p : Nat) : State :=
  match s.hub.grants.find? fun g => decide (g.1 = p) with
  | none => s
  | some (_, new) =>
    let old := s.partAt p
    let quads := old.quadsLost new
    let accounts := s.accList.all fun a => decide (a.2.st = .free) || !old.hasAcct a.1 || new.hasAcct a.1
    let same := old.windowsWithin new
    if quads.all s.quadIdle && accounts && (same || s.partIdle p) then
      let s0 := s.each State.clearQuad quads
      let s1 := if same then s0 else s0.forgetLeaves p
      let s2 := s1.withHub { s1.hub with grants := s1.hub.grants.filter fun g => decide (g.1 ≠ p) }
      s2.installPart p new
    else s.addDue [.drainComplete p]

/-- DRAIN_COMPLETE (R350). -/
def execDrainComplete (s : State) : Host.Outcome State Fault Refusal :=
  match s.act with
  | some (.drainComplete p) => .next (s.finishDrain p)
  | _ => .next s

/-! ### The event buffer (R429, R478) -/

/-- The report that the ranger core has halted goes to the host at once where its queue has room, since no firmware runs to post it (R400, R446;
log entry 132). -/
def State.tellHalt (s : State) (r : EventRec) : State := if r.code = .rangerHalt then (s.postHost (eventBits r)).getD s else s

/-- EVENT_RECORD_ARRIVE (R478): the record takes its place and the producer count, from boot, rises; with 1,024 waiting it is dropped. -/
def execEventRecordArrive (s : State) : Host.Outcome State Fault Refusal :=
  match s.act with
  | some (.eventRecordArrive r) =>
    let t := s.tellHalt r
    let made := t.hub.placed
    let taken := t.readNat (reservedBase + 0x10008) 8
    if (made + 2 ^ 64 - taken) % 2 ^ 64 = 1024 then .next (t.count .eventDropped 5 0)
    else
      let n := (made + 1) % 2 ^ 64
      let s1 := (t.withHub { t.hub with placed := n }).weakPoke (reservedBase + 64 * (made % 1024)) (toBytes 64 (eventBits r).toNat)
      .next (s1.weakPoke (reservedBase + 0x10000) (toBytes 8 n))
  | _ => .next s

end Sys2Proof.Machine
end

