-- ==== Sys2Proof/Machine/Host.lean ====
section
/-! DEFINITION. Boot (R454), the session and the commands of the host (R447 to R458, R477), and bulk data (R448). -/

namespace Sys2Proof.Machine

/-! ### Boot (R349, R372, R454) -/

/-- The least CAPROWS of a core at a point (R372). -/
def minRows (k : Nat) : Nat :=
  match k / 2 with
  | 0 => 4096
  | 1 => 6144
  | 2 => 7680
  | _ => 8192

/-- Whether the floors of a blob meet the minima (R372). -/
def State.floorsGood (s : State) : Bool := (upFrom 0 256).all fun c => (upFrom 0 8).all fun k => decide (minRows k ≤ s.capRowsAt c k)

/-- Partition 0 after boot (R349). -/
def bootPart : PartDesc :=
  { st := 1#2, quads := 0xFFFFFFFF#32, acctCnt := 16384, glQuota := 64,
    windows := (0, reservedBase / 2 ^ 16 - 1) :: List.replicate 7 (0xFFFFFFFF, 0) }

/-- A boot halted with a code: the port alone is up. -/
def State.haltBoot (s : State) (k : Status) : State := { s with port := { s.port with boot := .halted k.code } }

/-- What goes on by itself after boot. -/
def bootActions : List Action := [.ptsTick, .controlInterval [] 0, .flowWindowBoundary, .scrub 0 false 0 0#64]

/-- BOOT (R454): the blob, its floors, the firmware, then partition 0 and the port. The firmware in flash is read as an image, and one that is no
such image, or that needs a level above this device's (R74), halts boot with BOOT_SIG (log entry 119). -/
def State.bootUp (s : State) : State :=
  let blob := s.port.blob
  let fw := parseImage s.port.flashFw
  let s1 := s.withPower { s.power with blob := blob, idleW := Config.blobIdleW blob }
  if ¬ Config.blobSigned blob then s.haltBoot .blobSig
  else if ¬ s1.floorsGood then s.haltBoot .blobFloor
  else if fw.magic ≠ 0x58445158 ∨ fw.fmtver ≠ 1 ∨ 1 < fw.isareq ∨ ¬ fw.signed ∨ fw.badSections ∨ ¬ goodSignature blob s.port.flashFw fw.sigOff then s1.haltBoot .bootSig
  else
    let s2 := (s1.placeSections fw.placed).setPart 0 bootPart
    let s3 := (s2.startRanger (fw.firmware s.port.flashFw)).recap.1
    ({ s3 with port := { s3.port with boot := .running } } : State).addDue bootActions

/-- BOOT (R454). -/
def execBoot (s : State) : Host.Outcome State Fault Refusal :=
  match s.act with
  | some .boot => .next (if s.port.boot = .off then s.bootUp else s)
  | _ => .next s

/-! ### Sessions (R450) -/

/-- The features that the device offers (R450). -/
def offered : BitVec 32 := 0xF#32

/-- HELLO. -/
def State.hello (s : State) (f : Frame) : State :=
  let want := fld f.arg0 0 16
  if s.port.session.isSome then s.answerFrame f .sessionBusy
  else if want = 0 then s.answerFrame f .version
  else
    let fs := BitVec.ofNat 32 (fld f.arg0 32 32) &&& offered
    let s1 : State := { s with port := { s.port with session := some (1#16, fs), heard := s.time } }
    ((s1.respond f 0#16 (BitVec.ofNat 64 (1 + fs.toNat * 2 ^ 32))).streamEvents).addDue [.sessionTimeout]

/-- HELLO (R450, R477). -/
def execHostHello (s : State) : Host.Outcome State Fault Refusal :=
  match s.act with
  | some (.hostHello f) => .next (s.hello f)
  | _ => .next s

/-- The session ended: no unit stops. -/
def State.endSession (s : State) : State := { s with port := { s.port with session := none } }

/-- GOODBYE (R450). -/
def execHostGoodbye (s : State) : Host.Outcome State Fault Refusal :=
  match s.act with
  | some (.hostGoodbye f) => .next (s.answerFrame f .done).endSession
  | _ => .next s

/-- SESSION_TIMEOUT (R450): 1 s without a frame, in cycles of 3 GHz. -/
def execSessionTimeout (s : State) : Host.Outcome State Fault Refusal :=
  match s.act with
  | some .sessionTimeout =>
    .next (if s.port.session.isNone then s
      else if s.port.heard + 3000000000 ≤ s.time then s.endSession else s.addDue [.sessionTimeout])
  | _ => .next s

/-! ### Bulk data and images (R448, R456) -/

/-- ROCEV2_BULK_DATA (R448): bytes between host memory and device memory, in a session that agreed on it. -/
def execRocev2BulkData (s : State) : Host.Outcome State Fault Refusal :=
  match s.act with
  | some (.rocev2BulkData toDevice dev host len) =>
    let agreed : Bool := match s.port.session with
      | some (_, fs) => fs.getLsbD 0
      | none => false
    if ¬ agreed ∨ memTop < dev + len then .next s
    else if toDevice then .next (s.weakPoke dev (cellsAt s.port.mem host len))
    else .next { s with port := { s.port with mem := cellsSet s.port.mem host (s.readMem dev len) } }
  | _ => .next s

/-- LOAD: the image read from host memory, checked, and installed or refused. -/
def State.load (s : State) (f : Frame) : State :=
  let p := (f.payload.getD 0 0#8).toNat
  let bs := cellsAt s.port.mem f.arg0.toNat f.arg1.toNat
  let i := parseImage bs
  let k := s.checkImage p bs i
  if k = .done then (s.installImage p bs i).answerFrame f .done else s.answerFrame f k

/-- LOAD (R456, R457). -/
def execHostLoad (s : State) : Host.Outcome State Fault Refusal :=
  match s.act with
  | some (.hostLoad f) => .next (s.load f)
  | _ => .next s

/-! ### START and LAUNCH (R453, R458, R475) -/

/-- The job that a command names: its id, where the handle is of a job that is OPEN and not released. -/
def State.jobNamed (s : State) (f : Frame) : Option Nat :=
  let h : Handle := BitVec.ofNat 32 (fld f.arg0 0 32)
  let a := s.accAt (accId h)
  if s.live h ∧ a.level = .job ∧ a.st = .opn ∧ ¬ a.released then some (accId h) else none

/-- Why a split of the job token is refused (R475). -/
def splitStatus (k : Cause) : Status := if k = .weightSaturated then .saturated else .jobState

/-- Whether the 64 bytes of an argument block may be read by a core of partition `p` (R458). -/
def State.argsReadable (s : State) (p c : Nat) (va : Word) : Bool :=
  (upFrom 0 64).all fun i => (s.hubAccess p (stackOf c) (va + BitVec.ofNat 64 i) false).toOption.isSome

/-- Whether the pages of `n` bytes from a 64 KiB-aligned address may be written by a core of partition `p`. -/
def State.slotWritable (s : State) (p c : Nat) (va : Word) (n : Nat) : Bool :=
  (upFrom 0 (n / 65536)).all fun i => (s.hubAccess p (stackOf c) (va + BitVec.ofNat 64 (65536 * i)) true).toOption.isSome

/-- Whether a start vector passes its checks (R458). -/
def State.startsGood (s : State) (p : Nat) (i : Image) (evac : Word) (size : Nat) : Bool :=
  !i.starts.isEmpty && decide (evac.toNat % 65536 = 0)
    && i.starts.zipIdx.all fun e =>
      let (c, u, _, args) := e.1
      decide (s.ownerOfQuad (quadOf c) = some p) && decide (u < i.units.length) && (decide (args = 0#64) || s.argsReadable p c args)
        && s.slotWritable p c (evac + BitVec.ofNat 64 (e.2 * size)) size

/-- The launch that a start-vector write creates (R77, R424). -/
def startLaunch (i : Image) (evac : Word) (size : Nat) (pts : Word) : LaunchInfo :=
  { unit := 0, prio := 0, place := 1, policy := false, argshare := false, pin := 0, args := 0#64, ext0 := 1, ext1 := 1, ext2 := 1, salt := 0#64,
    evac := evac, nexts := List.replicate 8 0, given := 0, quads := [], waiting := false, starts := some i.starts, slotSize := size, nBase := i.starts.length, pts := pts }

/-- The base slot size of a start vector's launch: that of the largest of its units (R424). -/
def startSlot (i : Image) : Nat := baseSlot (i.starts.foldl (fun m e => max m (i.units.getD e.2.1 {}).spbytes) 0)

/-- START: the vector is checked, then one launch is created under the job, which becomes the current one. -/
def State.start (s : State) (f : Frame) : State :=
  match s.jobNamed f with
  | none => s.answerFrame f .jobState
  | some j =>
    let p := (s.accAt j).part
    match s.imageOf p with
    | none => s.answerFrame f .noImage
    | some i =>
      let size := startSlot i
      if ¬ s.startsGood p i f.arg1 size then s.answerFrame f .startVec
      else if (s.freeId p).isNone then s.answerFrame f .noAccount
      else
        match s.splitOwner j with
        | (.error k, s1) => s1.answerFrame f (splitStatus k)
        | (.ok t, s1) =>
          let a : Account := { st := .opn, launch := some { startLaunch i f.arg1 size (s.coreAt rangerId).pts with quads := (s.partAt p).quadList } }
          match s1.newAcc p .launch (some (t.acct, t.pkg, t.exp)) a with
          | none => s1.answerFrame f .noAccount
          | some (n, s2) =>
            let h := accHandle n (s2.accAt n)
            ((s2.withHub { s2.hub with job := some (accHandle j (s2.accAt j)) }).addDue (placers n)).respond f 0#16 (h.setWidth 64)

/-- START (R458). -/
def execHostStart (s : State) : Host.Outcome State Fault Refusal :=
  match s.act with
  | some (.hostStart f) => .next (s.start f)
  | _ => .next s

/-- LAUNCH: a launch from a physical descriptor under the job. -/
def State.launch (s : State) (f : Frame) : State :=
  match s.jobNamed f with
  | none => s.answerFrame f .jobState
  | some j =>
    let p := (s.accAt j).part
    let at_ := f.arg1.toNat
    if memTop < at_ + 64 ∨ ¬ s.inWindows p at_ 64 then s.answerFrame f .window
    else if (s.imageOf p).isNone then s.answerFrame f .noImage
    else
      match s.splitOwner j with
      | (.error k, s1) => s1.answerFrame f (splitStatus k)
      | (.ok t, s1) =>
        let s2 := s1.withHub { s1.hub with job := some (accHandle j (s1.accAt j)) }
        let (h, s3) := s2.makeLaunch p t [] (s.coreAt rangerId).pts (BitVec.ofNat 512 (s2.readNat at_ 64))
        s3.respond f 0#16 (spawnEntry h)

/-- LAUNCH (R453, R477). -/
def execHostLaunch (s : State) : Host.Outcome State Fault Refusal :=
  match s.act with
  | some (.hostLaunch f) => .next (s.launch f)
  | _ => .next s

/-! ### Jobs and accounts (R407, R453) -/

/-- JOB: the operation of RACCT on the block in the payload. -/
def State.job (s : State) (op : Nat) (f : Frame) : State :=
  let b := ofBytes (padTo 0#8 64 f.payload)
  let (v, s1) := s.jobOp op (BitVec.ofNat 32 b) (BitVec.ofNat 64 (bits b 64 64))
  s1.respond f 0#16 v

/-- JOB_CREATE (R407). -/
def execHostJobCreate (s : State) : Host.Outcome State Fault Refusal :=
  match s.act with
  | some (.hostJobCreate f) => .next (s.job 0 f)
  | _ => .next s

/-- JOB_ADD (R407). -/
def execHostJobAdd (s : State) : Host.Outcome State Fault Refusal :=
  match s.act with
  | some (.hostJobAdd f) => .next (s.job 1 f)
  | _ => .next s

/-- JOB_RELEASE (R407). -/
def execHostJobRelease (s : State) : Host.Outcome State Fault Refusal :=
  match s.act with
  | some (.hostJobRelease f) => .next (s.job 2 f)
  | _ => .next s

/-- JOB_CANCEL (R407). -/
def execHostJobCancel (s : State) : Host.Outcome State Fault Refusal :=
  match s.act with
  | some (.hostJobCancel f) => .next (s.job 3 f)
  | _ => .next s

/-- ACCTRD (R453): the account record, or JOBSTATE for a stale handle. -/
def execHostAcctrd (s : State) : Host.Outcome State Fault Refusal :=
  match s.act with
  | some (.hostAcctrd f) =>
    let h : Handle := BitVec.ofNat 32 (fld f.arg0 0 32)
    .next (if s.live h then s.respond f 0#16 0#64 0#64 (toBytes 64 (accountBits (accId h) (s.accAt (accId h))).toNat) else s.answerFrame f .jobState)
  | _ => .next s

/-! ### Partitions (R347, R348, R350, R390) -/

/-- A descriptor of 128 bytes (R347). -/
def descOf (d : Nat) : PartDesc :=
  { st := BitVec.ofNat 2 d, age := bits d 8 6, podid := BitVec.ofNat 16 (bits d 16 16), quads := BitVec.ofNat 32 (bits d 32 32),
    root := BitVec.ofNat 64 (bits d 64 64), acctBase := bits d 128 14, acctCnt := bits d 144 15, glQuota := bits d 160 7,
    handler := BitVec.ofNat 16 (bits d 176 16), pfloor := BitVec.ofNat 32 (bits d 192 32),
    windows := (upFrom 0 8).map fun w => (bits d (256 + 64 * w) 32, bits d (288 + 64 * w) 32) }

/-- Whether two descriptors in force share a quadrant, an account id or a window byte. -/
def PartDesc.shares (a b : PartDesc) : Bool :=
  a.holds && b.holds
    && (decide (a.quads &&& b.quads ≠ 0#32)
      || (decide (a.acctCnt ≠ 0) && decide (b.acctCnt ≠ 0) && decide (a.acctBase < b.acctBase + b.acctCnt) && decide (b.acctBase < a.acctBase + a.acctCnt))
      || a.windows.any fun v => b.windows.any fun w => decide (v.1 ≤ v.2) && decide (w.1 ≤ w.2) && decide (v.1 ≤ w.2) && decide (w.1 ≤ v.2))

/-- The descriptors of the partitions but one, with those that wait for their resources. -/
def State.otherParts (s : State) (p : Nat) : List PartDesc :=
  (((upFrom 0 8).filter fun q => decide (q ≠ p)).map s.partAt) ++ (s.hub.grants.filter fun g => decide (g.1 ≠ p)).map (·.2)

/-- What a partition takes of a sum: the larger of its descriptor's part and of that of the descriptor that waits to take its place. -/
def State.claims (s : State) (f : PartDesc → Nat) (q : Nat) : Nat :=
  (s.hub.grants.filter fun g => decide (g.1 = q)).foldl (fun m g => max m (f g.2)) (f (s.partAt q))

/-- The power floor that a descriptor takes of the sum while it is ACTIVE or DRAINING. -/
def PartDesc.floor (d : PartDesc) : Nat := if d.holds then d.pfloor.toNat else 0

/-- Whether the ranger core refuses a descriptor write (R348, R390; log entry 97). -/
def State.partBad (s : State) (p : Nat) (d : PartDesc) : Bool :=
  let others := (upFrom 0 8).filter fun q => decide (q ≠ p)
  decide (8 ≤ p) || decide (d.st = 3#2) || (s.otherParts p).any d.shares || decide (16384 < d.acctBase + d.acctCnt) || decide (64 < d.glQuota)
    || decide (64 < d.glQuota + sumOf (s.claims PartDesc.glQuota) others)
    || !inWindow d.windows (d.root.toNat / 2 ^ 16)
    || d.windows.any (fun w => decide (w.1 ≤ w.2) && decide (w.1 < 2 ^ 23) && decide (reservedBase / 2 ^ 16 ≤ w.2))
    || decide (2600 - s.power.idleW < d.pfloor.toNat + sumOf (s.claims PartDesc.floor) others)

/-- PART: a descriptor is refused, takes effect, or waits while the partition drains what it gives up. -/
def State.writePart (s : State) (p : Nat) (d : PartDesc) : State :=
  if s.partBad p d then s.event .partInvalid 6 0 (if p < 8 then some p else none)
  else
    let old := s.partAt p
    let target := if d.st = 2#2 then { d with st := 0#2 } else d
    let s1 := s.withHub { s.hub with grants := s.hub.grants.filter fun g => decide (g.1 ≠ p) }
    if d.st = 2#2 ∨ old.givesUp target then
      let s2 := s1.installPart p { (if old.holds then old else d) with st := 2#2 }
      (s2.withHub { s2.hub with grants := s2.hub.grants ++ [(p, target)] }).addDue [.drainComplete p]
    else s1.installPart p d

/-- PART (R348, R390, R453). -/
def execHostPart (s : State) : Host.Outcome State Fault Refusal :=
  match s.act with
  | some (.hostPart f) => .next ((s.writePart f.arg0.toNat (descOf (ofBytes (padTo 0#8 128 f.payload)))).answerFrame f .done)
  | _ => .next s

/-! ### The pod map, the cap and the mode (R314, R389, R394) -/

/-- What the peer of a port offers at training (log entry 19). -/
def State.peerOffer (s : State) (port : Nat) : Action :=
  let v (k : Nat) : Nat := Config.sense s.free (8 * port + k)
  .linkTraining port (BitVec.ofNat 64 (v 0)) (BitVec.ofNat 16 (v 1)) (BitVec.ofNat 16 (v 2)) (BitVec.ofNat 16 (v 3)) (v 4)

/-- PODMAP: the pairs, 16 bytes each, are set, this package takes the number of its own identity, and the links retrain. -/
def State.setPodmap (s : State) (bs : List Byte) : State :=
  let m := (records 16 512 bs).map fun r => ((BitVec.ofNat 64 r : Word), BitVec.ofNat 16 (bits r 64 16))
  let own := ((m.find? fun e => decide (e.1 = Config.blobIdentity s.power.blob)).map (·.2)).getD 0#16
  let s1 : State := { s.tickFree with fabric := { s.fabric with podmap := m, num := own } }
  s1.addDue ((upFrom 0 32).map s1.peerOffer)

/-- PODMAP (R314, R453). -/
def execHostPodmap (s : State) : Host.Outcome State Fault Refusal :=
  match s.act with
  | some (.hostPodmap f) => .next ((s.setPodmap f.payload).answerFrame f .done)
  | _ => .next s

/-- CAP (R389, R477). -/
def execHostCap (s : State) : Host.Outcome State Fault Refusal :=
  match s.act with
  | some (.hostCap f) =>
    let (s1, raised, low) := (s.withPower { s.power with capReq := min f.arg0.toNat 2600 }).recap
    .next (s1.respond f 0#16 (BitVec.ofNat 64 (s1.power.capReq + s1.power.capEff * 2 ^ 32)) (BitVec.ofNat 64 (b2n low + 2 * b2n raised)))
  | _ => .next s

/-- MODE (R394, R453). -/
def execHostMode (s : State) : Host.Outcome State Fault Refusal :=
  match s.act with
  | some (.hostMode f) => .next ((s.setMode (BitVec.ofNat 2 (fld f.arg0 0 2))).answerFrame f .done)
  | _ => .next s

/-! ### Events, counters and attestation (R429, R453, R455, R477) -/

/-- EVENTS: up to 64 records, the oldest first. -/
def execHostEvents (s : State) : Host.Outcome State Fault Refusal :=
  match s.act with
  | some (.hostEvents f) =>
    let es := s.port.events.take 64
    let s1 : State := { s with port := { s.port with events := s.port.events.drop 64 } }
    .next (s1.respond f 0#16 (BitVec.ofNat 64 es.length) 0#64 (es.flatMap fun e => toBytes 64 e.toNat))
  | _ => .next s

/-- COUNTERS: one counter. -/
def execHostCounters (s : State) : Host.Outcome State Fault Refusal :=
  match s.act with
  | some (.hostCounters f) =>
    let k := counterKey (BitVec.ofNat 16 (fld f.arg0 16 16)) (fld f.arg0 0 4) (fld f.arg0 4 12)
    .next (s.respond f 0#16 ((NatMap.findD 0#32 k s.hub.counters).setWidth 64))
  | _ => .next s

/-- The attestation report over a nonce (R455). -/
def State.report (s : State) (nonce : List Byte) : List Byte :=
  padTo 0#8 256 (Config.attestReport (Config.blobIdentity s.power.blob)
    (sha512 s.power.blob :: sha512 s.hub.firmware.bytes :: s.hub.images.map fun i => sha512 i.2.bytes) 1 1 nonce)

/-- ATTEST (R455). -/
def execHostAttest (s : State) : Host.Outcome State Fault Refusal :=
  match s.act with
  | some (.hostAttest f) => .next (s.respond f 0#16 0#64 0#64 (s.report (padTo 0#8 32 f.payload)))
  | _ => .next s

/-! ### The safe-tier checkpoint (R447) -/

/-- The blocks of 2 MiB of device memory. -/
def ckptBlocks : Nat := memTop / 2 ^ 21

/-- Every suspended unit spilled to its evacuation area. -/
def State.spillAll (s : State) : State :=
  let us := (s.hub.units.filter fun u => u.2.ctx.isSome && decide (0 < u.2.rows) && decide (u.2.st ≠ .ended) && decide (u.2.st ≠ .running)).map (·.1)
  us.foldl (fun s u => (s.spill u).respot u) s

/-- SAFECKPT: admission stops, running units are to leave at their next Q bundle, suspended ones are spilled, and the stream waits. -/
def State.safeStart (s : State) (f : Frame) : State :=
  if s.port.ckpt.isSome then s.answerFrame f .busy
  else
    let on := (upFrom 0 256).filter fun c => (s.coreAt c).unit.isSome
    let s1 := (s.withHub { s.hub with noAdmit := true }).each (fun s c => s.modCore c fun x => { x with preempt := some .safeTier }) on
    let s2 := s1.spillAll
    (({ s2 with port := { s2.port with ckpt := some { acked := [], total := ckptBlocks, targets := f.payload } } } : State).addDue
      (on.map Action.preemption ++ [.ckptBlockAck 0])).answerFrame f .done

/-- SAFECKPT (R447). -/
def execHostSafeckpt (s : State) : Host.Outcome State Fault Refusal :=
  match s.act with
  | some (.hostSafeckpt f) => .next (s.safeStart f)
  | _ => .next s

/-- Whether the stream may run: no unit runs, and every weak operation started is complete. -/
def State.safeReady (s : State) : Bool :=
  (upFrom 0 256).all (fun c => (s.coreAt c).unit.isNone) && !s.hub.xfers.any fun x => x.2.started && x.2.live

/-- CKPT_BLOCK_ACK: a block acknowledged once the stream runs; after the last, admission resumes. -/
def State.ackBlock (s : State) (b : Nat) : State :=
  match s.port.ckpt with
  | none => s
  | some k =>
    if ¬ s.safeReady then s.addDue [.ckptBlockAck b]
    else
      let s0 := s.spillAll
      let acked := if k.acked.contains b ∨ k.total ≤ b then k.acked else b :: k.acked
      if k.total ≤ acked.length then
        let s1 : State := { s0 with port := { s0.port with ckpt := none, lastCkpt := (acked.length, k.total) } }
        (s1.withHub { s1.hub with noAdmit := false }).addDue ((upFrom 0 256).map Action.unitAdmit)
      else
        ({ s0 with port := { s0.port with ckpt := some { k with acked := acked } } } : State).addDue [.ckptBlockAck ((b + 1) % k.total)]

/-- CKPT_BLOCK_ACK (R447). -/
def execCkptBlockAck (s : State) : Host.Outcome State Fault Refusal :=
  match s.act with
  | some (.ckptBlockAck b) => .next (s.ackBlock b)
  | _ => .next s

/-- CKPTSTAT (R477): blocks acknowledged and the total, of the checkpoint that runs or of the last one. -/
def execHostCkptstat (s : State) : Host.Outcome State Fault Refusal :=
  match s.act with
  | some (.hostCkptstat f) =>
    let (n, t) := match s.port.ckpt with
      | some k => (k.acked.length, k.total)
      | none => s.port.lastCkpt
    .next (s.respond f 0#16 (BitVec.ofNat 64 n) (BitVec.ofNat 64 t))
  | _ => .next s

/-! ### RESET (R453, R454) -/

/-- RESET: every unit ends and boot begins again; flash, the host's memory, device memory and the responses sent stay. -/
def State.reboot (s : State) : State :=
  { State.reset with
    mem := s.mem, time := s.time, free := s.free
    port := { ({} : HostPort) with mem := s.port.mem, blob := s.port.blob, flashFw := s.port.flashFw, sent := s.port.sent, frames := s.port.frames } }

/-- RESET (R453). -/
def execHostReset (s : State) : Host.Outcome State Fault Refusal :=
  match s.act with
  | some (.hostReset f) => .next (s.answerFrame f .done).reboot
  | _ => .next s

end Sys2Proof.Machine
end

