-- ==== Sys2Proof/Machine/Loads.lean ====
section
/-! DEFINITION. Queue loads, scratchpad access, stores, prefetch and stash control (R237, R238, R240, R242 to R245), with
the device actions that bring load data and stash lines and write stash lines back (R201 to R203, R219). -/

namespace Sys2Proof.Machine

/-! ### Queue loads (R240) -/

/-- The bytes of an LDQ type and whether it is signed. -/
def ldShape (t : LdTy) : Nat × Bool :=
  match t with
  | .i8 => (1, true)
  | .n8 => (1, false)
  | .i16 => (2, true)
  | .n16 => (2, false)
  | .i32 => (4, true)
  | .n32 => (4, false)
  | .i64 => (8, true)

/-- The bytes of a GATHER type. -/
def gatherSize (t : GaTy) : Nat :=
  match t with
  | .n32 => 4
  | .n16 => 2
  | .n8 => 1

/-- LDQ (R240). -/
def execLdq (t : LdTy) (p : BitVec 3) (d : BitVec 6) (a b : Src) (s : State) : Host.Outcome State Fault Refusal :=
  s.issue p [a, b] fun s => do
    let x ← s.getS a
    let y ← s.getS b
    s.needQueue d
    aligned (ldShape t).1 [x + y]
    s.needAnchor
    let (ps, s1) ← s.reach false [x + y]
    pure (s1.queueLoad d (spread (ldShape t).1 ps) (.scalar (ldShape t).2) false).noResult

/-- LDQV (R240). -/
def execLdqv (p : BitVec 3) (d : BitVec 6) (a b : Src) (s : State) : Host.Outcome State Fault Refusal :=
  s.issue p [a, b] fun s => do
    let x ← s.getS a
    let y ← s.getS b
    s.needQueue d
    aligned 4 [x + y]
    s.needAnchor
    let (ps, s1) ← s.reach false (pieces (x + y) 4 128)
    pure (s1.queueLoad d (spread 4 ps) .lanes true).noResult

/-- GATHER (R240). -/
def execGather (t : GaTy) (p : BitVec 3) (d : BitVec 6) (a b : Src) (s : State) : Host.Outcome State Fault Refusal :=
  s.issue p [a, b] fun s => do
    let x ← s.getS a
    let v ← s.getV .raw b
    s.needQueue d
    let n := gatherSize t
    let vas := (upFrom 0 128).map fun i => x + (lane v i).setWidth 64
    aligned n vas
    s.needAnchor
    let (ps, s1) ← s.reach false vas
    pure (s1.queueLoad d (spread n ps) (.gather n) true).noResult

/-! ### Scratchpad (R242) -/

/-- LDS (R242). -/
def execLds (p : BitVec 3) (d : BitVec 6) (a b : Src) (s : State) : Host.Outcome State Fault Refusal :=
  s.issue p [a, b] fun s => do
    let x ← s.getS a
    let y ← s.getS b
    let (bs, s1) ← s.directLoad (x + y) 512 4
    s1.resultV false d 5 (BitVec.ofNat 4096 (ofBytes bs)) (BitVec.allOnes 128) (BitVec.allOnes 128)

/-- LDSS (R242). -/
def execLdss (p : BitVec 3) (d : BitVec 6) (a b : Src) (s : State) : Host.Outcome State Fault Refusal :=
  s.issue p [a, b] fun s => do
    let x ← s.getS a
    let y ← s.getS b
    let (bs, s1) ← s.directLoad (x + y) 8 8
    s1.resultS false d 5 (BitVec.ofNat 64 (ofBytes bs))

/-- STS (R242). -/
def execSts (p : BitVec 3) (d : BitVec 6) (a b : Src) (s : State) : Host.Outcome State Fault Refusal :=
  s.issue p [a, b] fun s => do
    let x ← s.getS a
    let (v, m) ← s.getVM .raw b
    let va := s.core.arch.sreg d + x
    s.directStore va 512 4 ((maskLanes m).flatMap fun i => laneCells v (i, va.toNat + 4 * i))

/-- STSS (R242). -/
def execStss (p : BitVec 3) (d : BitVec 6) (a b : Src) (s : State) : Host.Outcome State Fault Refusal :=
  s.issue p [a, b] fun s => do
    let x ← s.getS a
    let y ← s.getS b
    let va := s.core.arch.sreg d + x
    s.directStore va 8 8 ((toBytes 8 y.toNat).zipIdx.map fun c => (va.toNat + c.2, c.1))

/-! ### Stores (R243) -/

/-- The bytes of an ST type. -/
def stSize (t : StTy) : Nat :=
  match t with
  | .n8 => 1
  | .n16 => 2
  | .n32 => 4
  | .n64 => 8

/-- ST (R243). -/
def execSt (t : StTy) (p : BitVec 3) (d : BitVec 6) (a b : Src) (s : State) : Host.Outcome State Fault Refusal :=
  s.issue p [a, b] fun s => do
    let x ← s.getS a
    let y ← s.getS b
    let va := s.core.arch.sreg d + x
    aligned (stSize t) [va]
    let (ps, s1) ← s.reach true [va]
    pure (s1.withhold (storeBytes va (ps.headD 0) (toBytes (stSize t) y.toNat))).noResult

/-- STV (R243). -/
def execStv (p : BitVec 3) (d : BitVec 6) (a b : Src) (s : State) : Host.Outcome State Fault Refusal :=
  s.issue p [a, b] fun s => do
    let x ← s.getS a
    let (v, m) ← s.getVM .raw b
    let va := s.core.arch.sreg d + x
    aligned 4 [va]
    let ls := maskLanes m
    let vas := ls.map fun i => va + BitVec.ofNat 64 (4 * i)
    let (ps, s1) ← s.reach true vas
    pure (s1.withhold ((ls.zip (vas.zip ps)).flatMap (laneStores v))).noResult

/-- SCATTER (R243). -/
def execScatter (p : BitVec 3) (d : BitVec 6) (a b : Src) (s : State) : Host.Outcome State Fault Refusal :=
  s.issue p [a, b] fun s => do
    let (o, m1) ← s.getVM .raw a
    let (v, m2) ← s.getVM .raw b
    let base := s.core.arch.sreg d
    let ls := maskLanes (m1 &&& m2)
    let vas := ls.map fun i => base + (lane o i).setWidth 64
    aligned 4 vas
    let (ps, s1) ← s.reach true vas
    pure (s1.withhold ((ls.zip (vas.zip ps)).flatMap (laneStores v))).noResult

/-! ### Prefetch (R244) -/

/-- PREF (R244): no value and no order changes; a leaf that is not cached is walked for. -/
def execPref (p : BitVec 3) (a b : Src) (s : State) : Host.Outcome State Fault Refusal :=
  s.issue p [a, b] fun s => do
    let x ← s.getS a
    let y ← s.getS b
    let va := x + y
    let known := decide (s.cur = rangerId) || (cachedLeaf s.core.tlb s.core.part va.toNat).isSome
    pure (if known then s.noResult else s.noResult.addDue [.translationWalk s.cur va])

/-- PREFS (R244): the Invalid lines of the row are filled. -/
def execPrefs (p : BitVec 3) (a b : Src) (s : State) : Host.Outcome State Fault Refusal :=
  s.issue p [a, b] fun s => do
    let x ← s.getS a
    let y ← s.getS b
    match s.core.decl.stashPlace (x + y).toNat with
    | none => pure s.noResult
    | some (r, _) =>
      if (s.core.stashVa r 0).isNone then pure s.noResult
      else
        let ls := (upFrom 0 16).filter fun l => (NatMap.find (r * 16 + l) s.core.pad.lines).isNone
        pure (s.noResult.addDue (ls.map fun l => Action.stashFill s.cur r l))

/-! ### Stash control (R245) -/

/-- A row number in range (R245). -/
def State.needRow (s : State) (k : Word) : Except Stop Unit := need (decide (k.toNat < s.core.decl.stash)) .scratchRange k

/-- SMAP (R245). -/
def execSmap (p : BitVec 3) (a b : Src) (s : State) : Host.Outcome State Fault Refusal :=
  s.issue p [a, b] fun s => do
    let k ← s.getS a
    let va ← s.getS b
    s.needRow k
    aligned 1024 [va]
    let (_, s1) ← s.reach false [va]
    pure (s1.rebind k.toNat (some va)).noResult

/-- SUNMAP (R245). -/
def execSunmap (p : BitVec 3) (a : Src) (s : State) : Host.Outcome State Fault Refusal :=
  s.issue p [a] fun s => do
    let k ← s.getS a
    s.needRow k
    pure (s.rebind k.toNat none).noResult

/-- SWB (R245). -/
def execSwb (p : BitVec 3) (a : Src) (s : State) : Host.Outcome State Fault Refusal :=
  s.issue p [a] fun s => do
    let k ← s.getS a
    s.needRow k
    pure (s.writeBackRow k.toNat).noResult

/-- SINV (R245). -/
def execSinv (p : BitVec 3) (a : Src) (s : State) : Host.Outcome State Fault Refusal :=
  s.issue p [a] fun s => do
    let k ← s.getS a
    s.needRow k
    pure (s.rebind k.toNat (NatMap.find k.toNat s.core.arch.bound)).noResult

/-! ### Device actions -/

/-- QUEUE_LOAD_FILL (R203): the load of a sequencer that was issued first is performed, and its entry has its data. -/
def execQueueLoadFill (s : State) : Host.Outcome State Fault Refusal :=
  match s.act with
  | some (.queueLoadFill c) => .next (s.fillLoad c)
  | _ => .next s

/-- STASH_FILL (R201). -/
def execStashFill (s : State) : Host.Outcome State Fault Refusal :=
  match s.act with
  | some (.stashFill c row line) => .next (s.fillStash c row line)
  | _ => .next s

/-- STASH_WRITEBACK (R202): the Engine-dirty lines of a row go home, under the colour of their writes. -/
def execStashWriteback (s : State) : Host.Outcome State Fault Refusal :=
  match s.act with
  | some (.stashWriteback u row) => .next (s.writeBack u 0xFF#8 ((s.padOf u).rowLines row))
  | _ => .next s

end Sys2Proof.Machine
end

