-- ==== Sys2Proof/Machine/Matrix.lean ====
section
/-! DEFINITION. The matrix array (R165 to R182): stream registers and their snapshots, ring entries as the array reads them,
the stationary planes, beats, drains. A beat's row is written when it issues: no rule lets a program see it earlier than a
later beat of the tile, and MXDRAIN traps before bundle n + 8 (R180, R181). -/

namespace Sys2Proof.Machine

/-! ### Stream values (R165, R167) -/

/-- RING. -/
def strRing (g : Block) : Nat := fld g 0 3
/-- FMT. -/
def strFmt (g : Block) : BitVec 4 := BitVec.ofNat 4 (fld g 8 4)
/-- SCALED. -/
def strScaled (g : Block) : Bool := bitAt g 12
/-- The block size that BSZ names. -/
def strBlock (g : Block) : Nat := if bitAt g 13 then 16 else 32
/-- The bytes of an entry: 64 × ESIZE. -/
def strEntry (g : Block) : Nat := 64 * fld g 16 9
/-- SCOFF. -/
def strScoff (g : Block) : Nat := fld g 32 16
/-- SCSTR. -/
def strScstr (g : Block) : Nat := fld g 48 8
/-- FXP. -/
def strFxp (g : Block) : Nat := fld g 64 6
/-- SWZEN. -/
def strSwz (g : Block) : Bool := bitAt g 72
/-- SWZCH. -/
def strSwzCh (g : Block) : Nat := fld g 73 3
/-- SWZLO. -/
def strSwzLo (g : Block) : Nat := fld g 76 5

/-- The width in bits of an element of a format code. -/
def fmtWidth (f : BitVec 4) : Nat :=
  match f with
  | 0#4 => 16
  | 4#4 => 6
  | 5#4 => 4
  | _ => 8

/-- Whether a format code is one of the microscaled integers. -/
def fmtMx (f : BitVec 4) : Bool := decide (f = 3#4) || decide (f = 4#4) || decide (f = 5#4)

/-- Whether a format code is I8 or N8. -/
def fmtInt (f : BitVec 4) : Bool := decide (f = 6#4) || decide (f = 7#4)

/-- The number g of K elements per cell (R170). -/
def gangK (g : Gang) : Nat :=
  match g with
  | .g88 | .g66 => 1
  | .g84 => 2
  | .g44 => 4

/-- Whether a stream value is invalid for a form that reads `elems` element bytes and `scales` scales of an entry (R167). -/
def strInvalid (g : Block) (ringLen elems scales : Nat) (fx : Bool) : Bool :=
  let f := strFmt g
  let e := strEntry g
  decide (8 ≤ f.toNat) || decide (ringLen = 0) || decide (e = 0) || decide (ringLen % e ≠ 0)
    || (!strScaled g && fmtMx f) || (strScaled g && (decide (f = 0#4) || fmtInt f))
    || (strScaled g && (decide (strScstr g = 0) || decide (strScoff g < elems)
          || (decide (0 < scales) && decide (e < strScoff g + strScstr g * (scales - 1) + 2))))
    || (!strScaled g && decide (e < elems))
    || (fx && decide (strFxp g = 63))
    || (strSwz g && (decide (4 < strSwzCh g) || decide (strSwzLo g < 10) || decide (20 < strSwzLo g)
          || decide (strSwzLo g < 9 + strSwzCh g) || decide (ringLen % (8 * (64 * 2 ^ strSwzCh g)) ≠ 0)))

/-- The snapshot of a stream register that a form takes at its issue (R166). -/
def State.snapshot (s : State) (k : Nat) : Block × State :=
  let a := s.core.arch
  if vget false a.snapOk k then (vget 0#512 a.snap k, s)
  else
    let g := vget 0#512 a.g k
    (g, s.withCore { s.core with arch := { a with snap := vput a.snap k g, snapOk := vput a.snapOk k true } })

/-- A ring offset under the swizzle of a stream value (R169). -/
def swizzle (g : Block) (o : Nat) : Nat :=
  if strSwz g then o ^^^ ((o / 2 ^ strSwzLo g % 8) * 2 ^ (6 + strSwzCh g)) else o

/-- The entry at the head of the ring that a stream value names, and the state with it popped (R168, R199). -/
def State.popRing (s : State) (g : Block) : Except Stop (List Byte × State) :=
  let x := s.core
  let k := strRing g
  let r := vget {} x.pad.rings k
  let len := x.decl.ringLen k
  let n := strEntry g
  if r.ready < n then .error (.cause .ringEarly)
  else
    let bs := (upFrom 0 n).map fun i => cellAt x.pad.bytes (x.decl.ringBase k + swizzle g ((r.head + i) % len))
    let r' : Ring := { r with head := (r.head + n) % len, ready := r.ready - n, held := r.held + n }
    .ok (bs, s.withCore { x with pad := { x.pad with rings := vput x.pad.rings k r' } })

/-! ### Elements of an entry (R96, R97, R171) -/

/-- `n` element codes of `w` bits packed from bit 0 of a run of bytes. -/
def elemCodes (w n : Nat) (bs : List Byte) : List (BitVec 16) :=
  let x := ofBytes bs
  (upFrom 0 n).map fun i => BitVec.ofNat 16 (bits x (w * i) w)

/-- Scale number `i` of an entry. -/
def entryScale (g : Block) (bs : List Byte) (i : Nat) : BitVec 16 :=
  BitVec.ofNat 16 (ofBytes ((bs.drop (strScoff g + strScstr g * i)).take 2))

/-- The value of an element code of a format (R82, R96); inputs are flushed under FTZ (R90). -/
def elemNum (f : BitVec 4) (ftz : Bool) (c : BitVec 16) : Num :=
  let int (w : Nat) (e : Int) : Num := let v := intOf w true c.toNat; .fin (decide (v < 0)) v.natAbs e
  match f with
  | 0#4 => bf16.decode ftz c.toNat
  | 1#4 => e4m3.decode ftz (c.toNat % 256)
  | 2#4 => e5m2.decode ftz (c.toNat % 256)
  | 3#4 => int 8 (-6)
  | 4#4 => int 6 (-4)
  | 5#4 => int 4 (-2)
  | 6#4 => int 8 0
  | _ => .fin false (c.toNat % 256) 0

/-- The value of a block scale (R97). -/
def scaleNum (c : BitVec 16) : Num :=
  let e := fld c 2 8
  if e = 255 then .nan else .fin false (4 + fld c 0 2) ((e : Int) - 129)

/-- An element under its scale; a NaN scale makes it NaN. -/
def scaled (x : Num) (s : Option (BitVec 16)) : Num :=
  match s with
  | none => x
  | some c => (x.mul (scaleNum c)).1

/-- The element bytes and the scales of an A row, a B tile and a B K-row (R171). -/
def rowNeeds (g : Block) (k : Nat) : Nat × Nat := (64 * k * fmtWidth (strFmt g) / 8, 64 * k / strBlock g)
/-- The element bytes and the scales of a B tile. -/
def tileNeeds (g : Block) (k : Nat) : Nat × Nat := (64 * k * 64 * fmtWidth (strFmt g) / 8, 64 * (64 * k / strBlock g))
/-- The element bytes of a B K-row. -/
def shiftNeeds (g : Block) : Nat × Nat := (8 * fmtWidth (strFmt g), 0)

/-- K-row `k` of a B tile. -/
def tileRow (g : Block) (bs : List Byte) (k : Nat) : KRow :=
  let w := fmtWidth (strFmt g)
  { elems := elemCodes w 64 ((bs.drop (k * (8 * w))).take (8 * w))
    scales := if strScaled g then (upFrom 0 64).map fun j => entryScale g bs (64 * (k / strBlock g) + j) else [] }

/-- Element `j` of a K-row under its scale. -/
def KRow.val (r : KRow) (f : BitVec 4) (ftz : Bool) (j : Nat) : Num := scaled (elemNum f ftz (r.elems.getD j 0#16)) r.scales[j]?

/-- The values of an A row. -/
def rowVals (g : Block) (ftz : Bool) (bs : List Byte) (n : Nat) : List Num :=
  let f := strFmt g
  let cs := elemCodes (fmtWidth f) n bs
  (upFrom 0 n).map fun k =>
    scaled (elemNum f ftz (cs.getD k 0#16)) (if strScaled g then some (entryScale g bs (k / strBlock g)) else none)

/-! ### Forms (R170, R174, R175) -/

/-- The B formats of a gang's rows (R170). -/
def gangB (g : Gang) (f : BitVec 4) : Bool :=
  match g with
  | .g88 => decide (f.toNat ≤ 3) || fmtInt f
  | .g66 => decide (f = 4#4)
  | .g84 | .g44 => decide (f = 5#4)

/-- Whether an A format, a plane's format and gang, and a GANG field fit a row of R170. -/
def gangFits (a b : BitVec 4) (pg g : Gang) : Bool :=
  let fp8 (f : BitVec 4) : Bool := decide (f = 1#4) || decide (f = 2#4)
  decide (pg = g) &&
    match g with
    | .g88 => (decide (a = 0#4) && decide (b = 0#4)) || (fp8 a && fp8 b) || (decide (a = 3#4) && decide (b = 3#4)) || (fmtInt a && fmtInt b)
    | .g84 => decide (a = 3#4) && decide (b = 5#4)
    | .g66 => decide (a = 4#4) && decide (b = 4#4)
    | .g44 => decide (a = 5#4) && decide (b = 5#4)

/-- A declared tile (R175). -/
def State.needTile (s : State) (t : Nat) : Except Stop Unit := need (decide (t < s.core.decl.nacc)) .accUndeclared

/-- A valid stream value (R166, R167). -/
def State.needStream (s : State) (g : Block) (needs : Nat × Nat) (fx : Bool) : Except Stop Unit :=
  need (!strInvalid g (s.core.decl.ringLen (strRing g)) needs.1 needs.2 fx) .streamInvalid

/-- A row of a tile. -/
def Arch.tileRow (a : Arch) (t r : Nat) : TileRow := vget 0#2048 (vget (Vector.replicate 64 0#2048) a.a t) r

/-- The registers with a row of a tile replaced. -/
def Arch.setRow (a : Arch) (t r : Nat) (x : TileRow) : Arch :=
  { a with a := vput a.a t (vput (vget (Vector.replicate 64 0#2048) a.a t) r x) }

/-- A load of a plane put on its way: it applies four bundles on (R176, R177). -/
def State.loadPlane (s : State) (l : PlaneLoad) : State :=
  s.withCore { s.core with arch := { s.core.arch with loads := s.core.arch.loads ++ [l] } }

/-! ### Beats (R180) -/

/-- The products of column `j`: A's values with the K-rows of the plane. -/
def products (f : BitVec 4) (ftz : Bool) (j : Nat) : List Num → List KRow → List (Num × Bool)
  | a :: as, r :: rs => a.mul (r.val f ftz j) :: products f ftz j as rs
  | _, _ => []

/-- The terms of a list of products. -/
def termsOf (t : Terms) : List (Num × Bool) → Terms
  | [] => t
  | p :: ps => termsOf (t.push p.1 p.2) ps

/-- The exact sum of integer products, as a number. -/
def Dyad.toInt (d : Dyad) : Int := if 0 ≤ d.e then d.m * 2 ^ d.e.toNat else d.m / (2 ^ (-d.e).toNat : Nat)

/-- One element of an FP32 tile. -/
def beatFp (rm : Round) (ftz : Bool) (acc : BitVec 32) (ps : List (Num × Bool)) : BitVec 32 × FlagSet :=
  let r := fp32.sum rm ftz (termsOf (({} : Terms).push (fp32.decode ftz acc.toNat) false) ps)
  (BitVec.ofNat 32 r.1, r.2)

/-- One element of an I32 tile: the exact sum modulo 2^32. -/
def beatInt (acc : BitVec 32) (ps : List (Num × Bool)) : BitVec 32 := acc + BitVec.ofInt 32 (termsOf {} ps).sum.toInt

/-- One element of an FX64 tile pair with binary point `p`. -/
def beatFx (p : Nat) (old : Word) (ps : List (Num × Bool)) : Word × FlagSet :=
  let t := termsOf {} ps
  let m : Int × FlagSet :=
    if t.nan || (t.pinf && t.ninf) then (0, fIV)
    else if t.pinf then (intMax 64 true, fIV)
    else if t.ninf then (intMin 64 true, fIV)
    else
      let r := (Num.fin (decide (t.sum.m < 0)) t.sum.m.natAbs t.sum.e).toFx p
      (r.1, flagIf r.2.1 fSAT ||| flagIf (!r.2.2) fNX)
  let z := fxAdd (intOf 64 true old.toNat) m.1
  (BitVec.ofInt 64 z.1, m.2 ||| z.2)

/-- The tiles of a beat marked as just written (R181), and its flags on their way (R180). -/
def State.beatDone (s : State) (a : Arch) (tiles : List Nat) (flags : FlagSet) : State :=
  let t := s.withCore { s.core with arch := { a with sinceBeat := tiles.foldl (fun v i => vput v i 0) a.sinceBeat } }
  if flags = noFlags then t else t.fly 8 .none (.pred false) (BitVec.allOnes 128) flags

/-- What a beat needs before it writes: the declared tiles, the stream, a full plane that fits, and the entry. -/
def State.beat (s : State) (g : Gang) (tiles : List Nat) (k : Nat) (fx : Bool) : Except Stop (Block × Plane × List Byte × State) := do
  for t in tiles do s.needTile t
  let (v, s1) := s.snapshot k
  s1.needStream v (rowNeeds v (gangK g)) fx
  let p := vget {} s1.core.arch.planes (b2n s1.core.arch.active)
  need (!p.rows.isEmpty && p.rows.all Option.isSome) .matrixEmpty
  need (gangFits (strFmt v) p.fmt p.gang g) .matrixFormat
  let (bs, s2) ← s1.popRing v
  pure (v, p, bs, s2)

/-! ### Meanings -/

/-- MXPUSH (R176). -/
def execMxpush (p : BitVec 3) (g : Gang) (d : BitVec 5) (a : Src) (s : State) : Host.Outcome State Fault Refusal :=
  s.issue p [a] fun s => do
    let (v, s1) := s.snapshot (Src.number a)
    s1.needStream v (tileNeeds v (gangK g)) false
    need (gangB g (strFmt v)) .matrixFormat
    let (bs, s2) ← s1.popRing v
    pure (s2.loadPlane { left := 4, plane := decide (d ≠ 0#5), shift := false, fmt := strFmt v, gang := g,
                         rows := (upFrom 0 (64 * gangK g)).map (tileRow v bs) })

/-- MXSHIFT (R177). The plane is tested as it stands once every earlier load has applied. -/
def execMxshift (p : BitVec 3) (d : BitVec 5) (a : Src) (s : State) : Host.Outcome State Fault Refusal :=
  s.issue p [a] fun s => do
    let (v, s1) := s.snapshot (Src.number a)
    s1.needStream v (shiftNeeds v) false
    let f := strFmt v
    let q := vget {} (loadPlanes s1.core.arch.planes s1.core.arch.loads) (b2n (decide (d ≠ 0#5)))
    need (!fmtMx f && !strScaled v && (q.rows.isEmpty || (decide (q.fmt = f) && decide (q.gang = .g88)))) .matrixFormat
    let (bs, s2) ← s1.popRing v
    pure (s2.loadPlane { left := 4, plane := decide (d ≠ 0#5), shift := true, fmt := f, gang := .g88,
                         rows := [{ elems := elemCodes (fmtWidth f) 64 bs, scales := [] }] })

/-- MXACC (R180). -/
def execMxacc (p : BitVec 3) (g : Gang) (d : BitVec 5) (a b : Src) (s : State) : Host.Outcome State Fault Refusal :=
  s.issue p [a, b] fun s => do
    let r ← s.getS b
    let (v, q, bs, s1) ← s.beat g [d.toNat] (Src.number a) false
    let row := fld r 0 6
    let as := rowVals v s1.ftz bs (64 * gangK g)
    let krows := q.rows.filterMap id
    let old := s1.core.arch.tileRow d.toNat row
    let out := (upFrom 0 64).map fun j =>
      let ps := products q.fmt s1.ftz j as krows
      if fmtInt (strFmt v) then (beatInt (rowElem old j) ps, noFlags) else beatFp s1.rm s1.ftz (rowElem old j) ps
    let new := BitVec.ofNat 2048 (packLanes (out.map (·.1)))
    pure (s1.beatDone (s1.core.arch.setRow d.toNat row new) [d.toNat] (out.foldl (fun f o => f ||| o.2) noFlags))

/-- MXACCX (R180): tile ad holds the low words, tile ad + 1 the high words. -/
def execMxaccx (p : BitVec 3) (g : Gang) (d : BitVec 5) (a b : Src) (s : State) : Host.Outcome State Fault Refusal :=
  s.issue p [a, b] fun s => do
    let r ← s.getS b
    let (v, q, bs, s1) ← s.beat g [d.toNat, d.toNat + 1] (Src.number a) true
    let row := fld r 0 6
    let as := rowVals v s1.ftz bs (64 * gangK g)
    let krows := q.rows.filterMap id
    let lo := s1.core.arch.tileRow d.toNat row
    let hi := s1.core.arch.tileRow (d.toNat + 1) row
    let out := (upFrom 0 64).map fun j => beatFx (strFxp v) (rowElem hi j ++ rowElem lo j) (products q.fmt s1.ftz j as krows)
    let newLo := BitVec.ofNat 2048 (packLanes (out.map fun o => o.1.setWidth 32))
    let newHi := BitVec.ofNat 2048 (packLanes (out.map fun o => o.1.extractLsb' 32 32))
    pure (s1.beatDone ((s1.core.arch.setRow d.toNat row newLo).setRow (d.toNat + 1) row newHi) [d.toNat, d.toNat + 1]
      (out.foldl (fun f o => f ||| o.2) noFlags))

/-- The rows that a drain reads as (tile, row) (R181). -/
def drainRows (t : Nat) (c : Word) : List (Nat × Nat) :=
  let row := fld c 0 6
  if bitAt c 6 then [(t, row), (t + 1, row)] else [(t, row / 2 * 2), (t, row / 2 * 2 + 1)]

/-- MXDRAIN (R181). -/
def execMxdrain (p : BitVec 3) (d : BitVec 5) (a b : Src) (s : State) : Host.Outcome State Fault Refusal :=
  s.issue p [a, b] fun s => do
    let c ← s.getS b
    s.needQueue (0#1 ++ d)
    let t := (Src.number a)
    let pair := bitAt c 6
    s.needTile t
    if pair then s.needTile (t + 1)
    need (!(pair && decide (t % 2 = 1))) .matrixFormat
    let early (k : Nat) : Bool := decide (vget 8 s.core.arch.sinceBeat k < 8)
    need (!(early t || (pair && early (t + 1)))) .matrixEarly
    let x := s.core.arch
    let row (k : Nat) : TileRow := let r := (drainRows t c).getD k (0, 0); x.tileRow r.1 r.2
    let v := laneTab fun i => if pair then rowElem (row (i % 2)) (i / 2) else rowElem (row (i / 64)) (i % 64)
    let q := d.setWidth 3
    let s1 := s.fly 6 (.queue q) (.vector v) (BitVec.allOnes 128) noFlags
    let y := if bitAt c 7 then (drainRows t c).foldl (fun a r => a.setRow r.1 r.2 0#2048) x else x
    pure (s1.withCore { s1.core with arch := y, pushed := (s1.core.notePush q).pushed })

/-- MXZERO (R179). -/
def execMxzero (p : BitVec 3) (d : BitVec 5) (s : State) : Host.Outcome State Fault Refusal :=
  s.issue p [] fun s => do
    s.needTile d.toNat
    let x := s.core
    pure (s.withCore { x with arch := { x.arch with a := vput x.arch.a d.toNat (Vector.replicate 64 0#2048) } })

/-- MXSWAP (R178). -/
def execMxswap (p : BitVec 3) (s : State) : Host.Outcome State Fault Refusal :=
  s.issue p [] fun s => pure (s.withCore { s.core with arch := { s.core.arch with active := !s.core.arch.active } })

end Sys2Proof.Machine
end

