-- ==== Sys2Proof/Machine/Sfu.lean ====
section
/-! DEFINITION. The special functions of slot F (R189 to R192). Each value is rounded once from the exact value of its
function. Rational and square-root results are computed exactly; for the others an approximation with a bound on its error
is refined until both ends of its interval round to the same value: no value of these functions away from the exact points
lies on a rounding boundary, so the refinement ends. -/

namespace Sys2Proof.Machine

/-! ### Fixed-point series: a number stands for itself over `2^p` -/

/-- The greatest number whose square is at most `n`, sought below `2^k` above `acc`. -/
def rootFrom (n : Nat) : Nat → Nat → Nat
  | 0, acc => acc
  | k + 1, acc => if (acc + 2 ^ k) * (acc + 2 ^ k) ≤ n then rootFrom n k (acc + 2 ^ k) else rootFrom n k acc

/-- The integer square root. -/
def intRoot (n : Nat) : Nat := rootFrom n (bitLen n / 2 + 1) 0

/-- The sum of `t`, `t z / (a (a+1))`, … with `z` over `2^p`: each term divided by the next two counts, signs alternating
when `alt`. -/
def evenSeries (p : Nat) (z : Nat) (alt : Bool) : Nat → Nat → Int → Int
  | 0, _, _ => 0
  | n + 1, a, t =>
    let u := t * z / 2 ^ p / (a * (a + 1) : Nat)
    t + evenSeries p z alt n (a + 2) (if alt then -u else u)

/-- The exponential of `r` over `2^p`, `r` not negative and below 1. -/
def expSeries (p r : Nat) : Nat → Nat → Nat → Nat
  | 0, _, _ => 0
  | n + 1, a, t => t + expSeries p r n (a + 1) (t * r / 2 ^ p / a)

/-- The inverse hyperbolic tangent by its series: `t` is the power at hand, `z` the square of the argument. -/
def atanhSeries (p : Nat) (z : Nat) : Nat → Nat → Int → Int
  | 0, _, _ => 0
  | n + 1, a, t => t / (a : Nat) + atanhSeries p z n (a + 2) (t * z / 2 ^ p)

/-- The inverse tangent of `1/q` by its series: `t` is the power at hand. -/
def atanInv (q : Nat) : Nat → Nat → Int → Int
  | 0, _, _ => 0
  | n + 1, a, t => t / (a : Nat) - atanInv q n (a + 2) (t / (q * q : Nat))

/-- π over `2^p`. -/
def piFix (p : Nat) : Nat :=
  (16 * atanInv 5 (p / 4 + 8) 1 ((2 ^ p / 5 : Nat) : Int) - 4 * atanInv 239 (p / 15 + 8) 1 ((2 ^ p / 239 : Nat) : Int)).toNat

/-- ln 2 over `2^p`. -/
def ln2Fix (p : Nat) : Nat := (2 * atanhSeries p (2 ^ p / 9) (p / 3 + 8) 1 ((2 ^ p / 3 : Nat) : Int)).toNat

/-! ### Approximations -/

/-- A positive number near `m × 2^e`, no further from it than `err × 2^e`. -/
structure Approx where
  m : Nat
  e : Int
  err : Nat

/-- `± m × 2^e` over `2^p`, cut off. -/
def fixOf (p m : Nat) (e : Int) : Nat :=
  if 0 ≤ e + p then m * 2 ^ (e + p).toNat else m / 2 ^ (-(e + p)).toNat

/-- `e^x` for `x` over `2^p`, `|x|` below 256. -/
def expApprox (p : Nat) (x : Int) : Approx :=
  let l := ln2Fix p
  let k := x / (l : Int)
  let r := (x - k * l).toNat
  { m := expSeries p r (p / 3 + 16) 1 (2 ^ p), e := k - p, err := 2 ^ 16 }

/-- The natural logarithm of `m × 2^e` over `2^p`, `m` not zero. -/
def lnFix (p m : Nat) (e : Int) : Int :=
  let b := bitLen m
  -- a power of two between 2/3 and 4/3 of `m`
  let j := if 4 * m < 3 * 2 ^ b then b - 1 else b
  let y := ((m : Int) - (2 ^ j : Nat)) * (2 ^ p : Nat) / ((m + 2 ^ j : Nat) : Int)
  let z := (y * y / (2 ^ p : Nat)).toNat
  2 * atanhSeries p z (p / 4 + 8) 1 y + (e + j) * (ln2Fix p : Int)

/-- The logarithm with its sign. -/
def lnApprox (p m : Nat) (e : Int) (base2 : Bool) : Bool × Approx :=
  let v := lnFix p m e
  let w := if base2 then v * (2 ^ p : Nat) / (ln2Fix p : Int) else v
  (decide (w < 0), { m := w.natAbs, e := -(p : Int), err := 2 ^ 16 })

/-- A value just below 1. -/
def nearOne : Approx := { m := 2 ^ 60 - 2 ^ 9, e := -60, err := 2 ^ 9 }

/-- tanh of `m × 2^e`. -/
def tanhApprox (p m : Nat) (e : Int) : Approx :=
  if 5 ≤ e + bitLen m then nearOne
  else
    let x := fixOf p m e
    let z := x * x / 2 ^ p
    let sh := (evenSeries p z false (p / 3 + 60) 2 (2 ^ p : Nat)).toNat
    let ch := (evenSeries p z false (p / 3 + 60) 1 (2 ^ p : Nat)).toNat
    { m := m * (sh * 2 ^ p / ch), e := e - p, err := m * 2 ^ 16 }

/-- 1 / (1 + e^−x) of `± m × 2^e`. -/
def sigmoidApprox (p : Nat) (neg : Bool) (m : Nat) (e : Int) : Approx :=
  if 9 ≤ e + bitLen m then (if neg then { m := 2 ^ 40, e := -400, err := 1 } else nearOne)
  else
    let x : Int := fixOf p m e
    if neg then
      -- E / (1 + E), E at most 1
      let a := expApprox p (-x)
      let one := 2 ^ (-a.e).toNat
      { m := a.m * 2 ^ p / (one + a.m) , e := -(p : Int), err := 2 ^ 18 } |> fun q =>
        if q.m < 2 ^ (p - 40) then { m := a.m * one / (one + a.m), e := a.e, err := 2 ^ 18 } else q
    else
      let a := expApprox p (-x)
      let one := 2 ^ (-a.e).toNat
      { m := one * 2 ^ p / (one + a.m), e := -(p : Int), err := 2 ^ 18 }

/-- The terms of the error function's series: `t / (2n+1)` with `t` the power over the factorial. -/
def erfSeries (p z : Nat) : Nat → Nat → Int → Int
  | 0, _, _ => 0
  | n + 1, a, t => t / ((2 * a + 1 : Nat) : Int) + erfSeries p z n (a + 1) (-(t * z / (2 ^ p : Nat) / ((a + 1 : Nat) : Int)))

/-- erf of `m × 2^e`. -/
def erfApprox (p m : Nat) (e : Int) : Approx :=
  if 3 ≤ e + bitLen m then nearOne
  else
    let x := fixOf p m e
    let z := x * x / 2 ^ p
    let g := (erfSeries p z (p / 2 + 200) 0 (2 ^ p : Nat)).toNat
    let root := intRoot (piFix p * 2 ^ p)
    { m := m * (2 * g * 2 ^ p / root), e := e - p, err := m * 2 ^ 104 }

/-- sin or cos of `m × 2^e`, with the sign. -/
def trigApprox (p m : Nat) (e : Int) (cosine : Bool) : Bool × Approx :=
  let w := p + (max 0 (e + 25)).toNat
  let half := piFix w / 2
  let x := fixOf w m e
  let q := (x + half / 2) / half
  let r : Int := (x : Int) - q * half
  let rp := r.natAbs / 2 ^ (w - p)
  let z := rp * rp / 2 ^ p
  let quad := (q + b2n cosine) % 4
  let n := p / 3 + 16
  let sn := (evenSeries p z true n 2 (2 ^ p : Nat)).toNat
  if quad % 2 = 1 then
    (decide (quad = 3), { m := (evenSeries p z true n 1 (2 ^ p : Nat)).toNat, e := -(p : Int), err := 2 ^ 16 })
  else if q = 0 then (decide (quad = 2), { m := m * sn, e := e - p, err := m * 2 ^ 16 })
  else (decide (quad = 2) != decide (r < 0), { m := rp * sn / 2 ^ p, e := -(p : Int), err := 2 ^ 16 })

/-- The rounding of an approximation, where both ends of its interval give the same. -/
def Approx.round (a : Approx) (f : Fmt) (ftz neg : Bool) : Option (Nat × FlagSet) :=
  if a.m ≤ a.err + 1 then none
  else
    let lo := f.round .near ftz neg (a.m - a.err) a.e true
    let hi := f.round .near ftz neg (a.m + a.err) a.e true
    if lo = hi then some lo else none

/-- Refinement: the precision doubles until the rounding is decided. -/
def refine (f : Fmt) (ftz : Bool) (g : Nat → Bool × Approx) : Nat → Nat → Nat × FlagSet
  | 0, p => let a := g p; f.round .near ftz a.1 (max 1 a.2.m) a.2.e true
  | n + 1, p =>
    let a := g p
    match a.2.round f ftz a.1 with
    | some r => r
    | none => refine f ftz g n (2 * p)

/-- The value of a function that is inexact everywhere it is asked. -/
def transcend (f : Fmt) (ftz : Bool) (g : Nat → Bool × Approx) : Nat × FlagSet := refine f ftz g 4 224

/-! ### The functions of one element (R190) -/

/-- 2^k, `k` an integer. -/
def powTwo (f : Fmt) (ftz : Bool) (k : Int) : Nat × FlagSet := f.round .near ftz false 1 (max (-2000) (min 2000 k))

/-- One. -/
def oneOf (f : Fmt) : Nat × FlagSet := (f.small 1, noFlags)

/-- A value far beyond the format: overflow, or nothing but a tiny remainder. -/
def farPow (f : Fmt) (ftz neg : Bool) : Nat × FlagSet := f.round .near ftz false 1 (if neg then -2000 else 2000) true

/-- A number `m × 2^e` with `m` odd, for `m` not zero; at most `n` halvings. -/
def stripTwos : Nat → Nat → Int → Nat × Int
  | 0, m, e => (m, e)
  | n + 1, m, e => if m % 2 = 0 then stripTwos n (m / 2) (e + 1) else (m, e)

/-- EXP2. -/
def sfExp2 (f : Fmt) (ftz : Bool) : Num → Nat × FlagSet
  | .nan => (f.nanBits, noFlags)
  | .inf s => (if s then 0 else f.infBits, noFlags)
  | .fin s m e =>
    if m = 0 then oneOf f
    else
      let r := stripTwos 32 m e
      if 12 ≤ e + bitLen m then farPow f ftz s
      else if 0 ≤ r.2 then powTwo f ftz (if s then -(r.1 * 2 ^ r.2.toNat : Nat) else (r.1 * 2 ^ r.2.toNat : Nat))
      else
        transcend f ftz fun p =>
          let x : Int := fixOf p m e
          let y := if s then -x else x
          let k := y / (2 ^ p : Nat)
          let fr := (y - k * (2 ^ p : Nat)).toNat
          (false, { m := expSeries p (fr * ln2Fix p / 2 ^ p) (p / 3 + 16) 1 (2 ^ p), e := k - p, err := 2 ^ 16 })

/-- EXP. -/
def sfExp (f : Fmt) (ftz : Bool) : Num → Nat × FlagSet
  | .nan => (f.nanBits, noFlags)
  | .inf s => (if s then 0 else f.infBits, noFlags)
  | .fin s m e =>
    if m = 0 then oneOf f
    else if 9 ≤ e + bitLen m then farPow f ftz s
    else transcend f ftz fun p => (false, expApprox p (if s then -(fixOf p m e : Int) else fixOf p m e))

/-- LOG2 and LOG. -/
def sfLog (base2 : Bool) (f : Fmt) (ftz : Bool) : Num → Nat × FlagSet
  | .nan => (f.nanBits, noFlags)
  | .inf s => if s then (f.nanBits, fIV) else (f.infBits, noFlags)
  | .fin s m e =>
    if m = 0 then (f.signed true f.infBits, fDZ)
    else if s then (f.nanBits, fIV)
    else
      let r := stripTwos 32 m e
      if r.1 = 1 ∧ (base2 ∨ r.2 = 0) then f.ofInt .near ftz r.2
      else transcend f ftz fun p => lnApprox p m e base2

/-- RCP. -/
def sfRcp (f : Fmt) (ftz : Bool) : Num → Nat × FlagSet
  | .nan => (f.nanBits, noFlags)
  | .inf s => (f.signed s 0, noFlags)
  | .fin s m e =>
    if m = 0 then (f.signed s f.infBits, fDZ)
    else f.round .near ftz s (2 ^ 64 / m) (-e - 64) (decide (2 ^ 64 % m ≠ 0))

/-- A number `m × 2^e` with `e` even. -/
def evenExp (m : Nat) (e : Int) : Nat × Int := if e % 2 = 0 then (m, e) else (2 * m, e - 1)

/-- RSQRT. -/
def sfRsqrt (f : Fmt) (ftz : Bool) : Num → Nat × FlagSet
  | .nan => (f.nanBits, noFlags)
  | .inf s => if s then (f.nanBits, fIV) else (0, noFlags)
  | .fin s m e =>
    if m = 0 then (f.signed s f.infBits, fDZ)
    else if s then (f.nanBits, fIV)
    else
      let x := evenExp m e
      let r := intRoot (2 ^ 128 / x.1)
      f.round .near ftz false r (-(x.2 / 2) - 64) (decide (r * r * x.1 ≠ 2 ^ 128))

/-- SQRT, rounded under ARITH.RM. -/
def sfSqrt (mode : Round) (f : Fmt) (ftz : Bool) : Num → Nat × FlagSet
  | .nan => (f.nanBits, noFlags)
  | .inf s => if s then (f.nanBits, fIV) else (f.infBits, noFlags)
  | .fin s m e =>
    if m = 0 then (f.signed s 0, noFlags)
    else if s then (f.nanBits, fIV)
    else
      let x := evenExp m e
      let r := intRoot (x.1 * 2 ^ 64)
      f.round mode ftz false r (x.2 / 2 - 32) (decide (r * r ≠ x.1 * 2 ^ 64))

/-- TANH and ERF: odd, with limits ±1. -/
def sfOdd (g : Nat → Nat → Int → Approx) (f : Fmt) (ftz : Bool) : Num → Nat × FlagSet
  | .nan => (f.nanBits, noFlags)
  | .inf s => (f.signed s (f.small 1), noFlags)
  | .fin s m e => if m = 0 then (f.signed s 0, noFlags) else transcend f ftz fun p => (s, g p m e)

/-- SIGMOID. -/
def sfSigmoid (f : Fmt) (ftz : Bool) : Num → Nat × FlagSet
  | .nan => (f.nanBits, noFlags)
  | .inf s => if s then (0, noFlags) else oneOf f
  | .fin s m e => if m = 0 then f.round .near ftz false 1 (-1) else transcend f ftz fun p => (false, sigmoidApprox p s m e)

/-- SIN and COS. -/
def sfTrig (cosine : Bool) (f : Fmt) (ftz : Bool) : Num → Nat × FlagSet
  | .nan => (f.nanBits, noFlags)
  | .inf _ => (f.nanBits, fIV)
  | .fin s m e =>
    if m = 0 then (if cosine then oneOf f else (f.signed s 0, noFlags))
    else transcend f ftz fun p => let r := trigApprox p m e cosine; (if cosine then r.1 else r.1 != s, r.2)

/-- DIV (R191). -/
def sfDiv (mode : Round) (f : Fmt) (ftz : Bool) (a b : Num) : Nat × FlagSet :=
  match a, b with
  | .nan, _ | _, .nan => (f.nanBits, noFlags)
  | .inf _, .inf _ => (f.nanBits, fIV)
  | .inf s, .fin t _ _ => (f.signed (s != t) f.infBits, noFlags)
  | .fin s _ _, .inf t => (f.signed (s != t) 0, noFlags)
  | .fin s m e, .fin t n g =>
    if n = 0 then (if m = 0 then (f.nanBits, fIV) else (f.signed (s != t) f.infBits, fDZ))
    else if m = 0 then (f.signed (s != t) 0, noFlags)
    else f.round mode ftz (s != t) (m * 2 ^ 64 / n) (e - g - 64) (decide (m * 2 ^ 64 % n ≠ 0))

/-! ### The forms -/

/-- The element type of a suffix. -/
def FTy.elem : FTy → VType
  | .f32 => .f32
  | .bf16 => .bf16

/-- A special-function form of one source. -/
def State.sfu (s : State) (t : FTy) (p : BitVec 3) (w : Bool) (d : BitVec 6) (a : Src) (lat : Nat) (g : Fmt → Bool → Num → Nat × FlagSet) :
    Host.Outcome State Fault Refusal :=
  s.issueV p [a] fun s m => do
    let x ← s.getV (.ty (FTy.elem t)) a
    let f := elemFmt (FTy.elem t)
    let r := runLanes m fun i => laneOp2 (elemWidth (FTy.elem t)) (fun e _ => g f s.ftz (f.decode s.ftz e)) (lane x i) 0#32
    s.resultV w d lat r.1 m m r.2

/-- EXP2 (R190). -/
def execExp2 (t : FTy) (p : BitVec 3) (w : Bool) (d : BitVec 6) (a : Src) (s : State) : Host.Outcome State Fault Refusal :=
  s.sfu t p w d a 8 sfExp2

/-- LOG2 (R190). -/
def execLog2 (t : FTy) (p : BitVec 3) (w : Bool) (d : BitVec 6) (a : Src) (s : State) : Host.Outcome State Fault Refusal :=
  s.sfu t p w d a 8 (sfLog true)

/-- EXP (R190). -/
def execExp (t : FTy) (p : BitVec 3) (w : Bool) (d : BitVec 6) (a : Src) (s : State) : Host.Outcome State Fault Refusal :=
  s.sfu t p w d a 8 sfExp

/-- LOG (R190). -/
def execLog (t : FTy) (p : BitVec 3) (w : Bool) (d : BitVec 6) (a : Src) (s : State) : Host.Outcome State Fault Refusal :=
  s.sfu t p w d a 8 (sfLog false)

/-- RCP (R190). -/
def execRcp (t : FTy) (p : BitVec 3) (w : Bool) (d : BitVec 6) (a : Src) (s : State) : Host.Outcome State Fault Refusal :=
  s.sfu t p w d a 8 sfRcp

/-- RSQRT (R190). -/
def execRsqrt (t : FTy) (p : BitVec 3) (w : Bool) (d : BitVec 6) (a : Src) (s : State) : Host.Outcome State Fault Refusal :=
  s.sfu t p w d a 8 sfRsqrt

/-- TANH (R190). -/
def execTanh (t : FTy) (p : BitVec 3) (w : Bool) (d : BitVec 6) (a : Src) (s : State) : Host.Outcome State Fault Refusal :=
  s.sfu t p w d a 8 (sfOdd tanhApprox)

/-- SIGMOID (R190). -/
def execSigmoid (t : FTy) (p : BitVec 3) (w : Bool) (d : BitVec 6) (a : Src) (s : State) : Host.Outcome State Fault Refusal :=
  s.sfu t p w d a 8 sfSigmoid

/-- ERF (R190). -/
def execErf (t : FTy) (p : BitVec 3) (w : Bool) (d : BitVec 6) (a : Src) (s : State) : Host.Outcome State Fault Refusal :=
  s.sfu t p w d a 8 (sfOdd erfApprox)

/-- SIN (R190). -/
def execSin (t : FTy) (p : BitVec 3) (w : Bool) (d : BitVec 6) (a : Src) (s : State) : Host.Outcome State Fault Refusal :=
  s.sfu t p w d a 8 (sfTrig false)

/-- COS (R190). -/
def execCos (t : FTy) (p : BitVec 3) (w : Bool) (d : BitVec 6) (a : Src) (s : State) : Host.Outcome State Fault Refusal :=
  s.sfu t p w d a 8 (sfTrig true)

/-- SQRT: under ARITH.RM, latency 12 in FP32 (R189, R190). -/
def execSqrt (t : FTy) (p : BitVec 3) (w : Bool) (d : BitVec 6) (a : Src) (s : State) : Host.Outcome State Fault Refusal :=
  s.sfu t p w d a (if t = .f32 then 12 else 8) (sfSqrt s.rm)

/-- DIV (R191). -/
def execDiv (p : BitVec 3) (w : Bool) (d : BitVec 6) (a b : Src) (s : State) : Host.Outcome State Fault Refusal :=
  s.issueV p [a, b] fun s m => do
    let x ← s.getV (.ty .f32) a
    let y ← s.getV (.ty .f32) b
    let r := runLanes m fun i =>
      laneOp2 32 (fun u v => sfDiv s.rm fp32 s.ftz (fp32.decode s.ftz u) (fp32.decode s.ftz v)) (lane x i) (lane y i)
    s.resultV w d 12 r.1 m m r.2

end Sys2Proof.Machine
end

