-- ==== Sys2Proof/Machine/Dispatch.lean ====
section
/-! DEFINITION. The one dispatch from an instruction or device action to its meaning. -/

namespace Sys2Proof.Machine

/-- What an instruction or a device action does: one call of its meaning. -/
def exec (i : Instr) (s : State) : Host.Outcome State Fault Refusal :=
  match i with
  | .nop => Sys2Proof.Machine.execNop s
  | .add p w d a b => Sys2Proof.Machine.execAdd p w d a b s
  | .sub p w d a b => Sys2Proof.Machine.execSub p w d a b s
  | .and p w d a b => Sys2Proof.Machine.execAnd p w d a b s
  | .or p w d a b => Sys2Proof.Machine.execOr p w d a b s
  | .xor p w d a b => Sys2Proof.Machine.execXor p w d a b s
  | .andn p w d a b => Sys2Proof.Machine.execAndn p w d a b s
  | .shl p w d a b => Sys2Proof.Machine.execShl p w d a b s
  | .shr p w d a b => Sys2Proof.Machine.execShr p w d a b s
  | .sra p w d a b => Sys2Proof.Machine.execSra p w d a b s
  | .rotr p w d a b => Sys2Proof.Machine.execRotr p w d a b s
  | .min p w d a b => Sys2Proof.Machine.execMin p w d a b s
  | .minn p w d a b => Sys2Proof.Machine.execMinn p w d a b s
  | .max p w d a b => Sys2Proof.Machine.execMax p w d a b s
  | .maxn p w d a b => Sys2Proof.Machine.execMaxn p w d a b s
  | .sel p w d a b => Sys2Proof.Machine.execSel p w d a b s
  | .mul p w d a b => Sys2Proof.Machine.execMul p w d a b s
  | .mulh p w d a b => Sys2Proof.Machine.execMulh p w d a b s
  | .mulhn p w d a b => Sys2Proof.Machine.execMulhn p w d a b s
  | .clz p w d a => Sys2Proof.Machine.execClz p w d a s
  | .popc p w d a => Sys2Proof.Machine.execPopc p w d a s
  | .bfx p w d a b => Sys2Proof.Machine.execBfx p w d a b s
  | .bfi p w d a b => Sys2Proof.Machine.execBfi p w d a b s
  | .cmpeq p w d a b => Sys2Proof.Machine.execCmpeq p w d a b s
  | .cmpne p w d a b => Sys2Proof.Machine.execCmpne p w d a b s
  | .cmplt p w d a b => Sys2Proof.Machine.execCmplt p w d a b s
  | .cmpltn p w d a b => Sys2Proof.Machine.execCmpltn p w d a b s
  | .cmple p w d a b => Sys2Proof.Machine.execCmple p w d a b s
  | .cmplen p w d a b => Sys2Proof.Machine.execCmplen p w d a b s
  | .pand p w d a b => Sys2Proof.Machine.execPand p w d a b s
  | .por p w d a b => Sys2Proof.Machine.execPor p w d a b s
  | .pxor p w d a b => Sys2Proof.Machine.execPxor p w d a b s
  | .adds2 p w d a b => Sys2Proof.Machine.execAdds2 p w d a b s
  | .adds3 p w d a b => Sys2Proof.Machine.execAdds3 p w d a b s
  | .adds6 p w d a b => Sys2Proof.Machine.execAdds6 p w d a b s
  | .adds10 p w d a b => Sys2Proof.Machine.execAdds10 p w d a b s
  | .mov p w d a => Sys2Proof.Machine.execMov p w d a s
  | .addi p w d im => Sys2Proof.Machine.execAddi p w d im s
  | .andi p w d im => Sys2Proof.Machine.execAndi p w d im s
  | .ori p w d im => Sys2Proof.Machine.execOri p w d im s
  | .xori p w d im => Sys2Proof.Machine.execXori p w d im s
  | .shli p w d im => Sys2Proof.Machine.execShli p w d im s
  | .shri p w d im => Sys2Proof.Machine.execShri p w d im s
  | .srai p w d im => Sys2Proof.Machine.execSrai p w d im s
  | .cmpeqi p w a d im => Sys2Proof.Machine.execCmpeqi p w a d im s
  | .cmplti p w a d im => Sys2Proof.Machine.execCmplti p w a d im s
  | .movi p w d im => Sys2Proof.Machine.execMovi p w d im s
  | .fadd f p w d a b => Sys2Proof.Machine.execFadd f p w d a b s
  | .fsub f p w d a b => Sys2Proof.Machine.execFsub f p w d a b s
  | .fmul f p w d a b => Sys2Proof.Machine.execFmul f p w d a b s
  | .ffma f p w d a b => Sys2Proof.Machine.execFfma f p w d a b s
  | .fmin f p w d a b => Sys2Proof.Machine.execFmin f p w d a b s
  | .fmax f p w d a b => Sys2Proof.Machine.execFmax f p w d a b s
  | .fcmpeq f p w d a b => Sys2Proof.Machine.execFcmpeq f p w d a b s
  | .fcmplt f p w d a b => Sys2Proof.Machine.execFcmplt f p w d a b s
  | .fcmple f p w d a b => Sys2Proof.Machine.execFcmple f p w d a b s
  | .fcvts f p w d a r => Sys2Proof.Machine.execFcvts f p w d a r s
  | .fcvti f p w d a t r => Sys2Proof.Machine.execFcvti f p w d a t r s
  | .fcvtf f p w d a t r => Sys2Proof.Machine.execFcvtf f p w d a t r s
  | .vadd t p w d a b => Sys2Proof.Machine.execVadd t p w d a b s
  | .vsub t p w d a b => Sys2Proof.Machine.execVsub t p w d a b s
  | .vmul t p w d a b => Sys2Proof.Machine.execVmul t p w d a b s
  | .vfma t p w d a b => Sys2Proof.Machine.execVfma t p w d a b s
  | .vfms t p w d a b => Sys2Proof.Machine.execVfms t p w d a b s
  | .vmin t p w d a b => Sys2Proof.Machine.execVmin t p w d a b s
  | .vmax t p w d a b => Sys2Proof.Machine.execVmax t p w d a b s
  | .vadds t p w d a b => Sys2Proof.Machine.execVadds t p w d a b s
  | .vsubs t p w d a b => Sys2Proof.Machine.execVsubs t p w d a b s
  | .vcmpeq t p w d a b => Sys2Proof.Machine.execVcmpeq t p w d a b s
  | .vcmplt t p w d a b => Sys2Proof.Machine.execVcmplt t p w d a b s
  | .vcmple t p w d a b => Sys2Proof.Machine.execVcmple t p w d a b s
  | .vabs t p w d a => Sys2Proof.Machine.execVabs t p w d a s
  | .vneg t p w d a => Sys2Proof.Machine.execVneg t p w d a s
  | .vand p w d a b => Sys2Proof.Machine.execVand p w d a b s
  | .vor p w d a b => Sys2Proof.Machine.execVor p w d a b s
  | .vxor p w d a b => Sys2Proof.Machine.execVxor p w d a b s
  | .vandn p w d a b => Sys2Proof.Machine.execVandn p w d a b s
  | .vshl t p w d a b => Sys2Proof.Machine.execVshl t p w d a b s
  | .vshr t p w d a b => Sys2Proof.Machine.execVshr t p w d a b s
  | .vsel p w d a b => Sys2Proof.Machine.execVsel p w d a b s
  | .vmov p w d a => Sys2Proof.Machine.execVmov p w d a s
  | .vsplat p w d a => Sys2Proof.Machine.execVsplat p w d a s
  | .vins p w d a b => Sys2Proof.Machine.execVins p w d a b s
  | .vxtr w d a b => Sys2Proof.Machine.execVxtr w d a b s
  | .vcvt t p w d a sx r => Sys2Proof.Machine.execVcvt t p w d a sx r s
  | .vcvtx x p w d a sx r n => Sys2Proof.Machine.execVcvtx x p w d a sx r n s
  | .vfxadd p w d a b => Sys2Proof.Machine.execVfxadd p w d a b s
  | .vfxcvt p w d a b => Sys2Proof.Machine.execVfxcvt p w d a b s
  | .vfxcvtf p w d a b => Sys2Proof.Machine.execVfxcvtf p w d a b s
  | .vperm p w d a b => Sys2Proof.Machine.execVperm p w d a b s
  | .vrot p w d a b => Sys2Proof.Machine.execVrot p w d a b s
  | .vbcl p w d a b => Sys2Proof.Machine.execVbcl p w d a b s
  | .vredadd t p w d a => Sys2Proof.Machine.execVredadd t p w d a s
  | .vredmin t p w d a => Sys2Proof.Machine.execVredmin t p w d a s
  | .vredmax t p w d a => Sys2Proof.Machine.execVredmax t p w d a s
  | .vscan t p w d a => Sys2Proof.Machine.execVscan t p w d a s
  | .vxcopy p w d a b => Sys2Proof.Machine.execVxcopy p w d a b s
  | .vxrot p w d a b => Sys2Proof.Machine.execVxrot p w d a b s
  | .vmand p w d a b => Sys2Proof.Machine.execVmand p w d a b s
  | .vmor p w d a b => Sys2Proof.Machine.execVmor p w d a b s
  | .vmxor p w d a b => Sys2Proof.Machine.execVmxor p w d a b s
  | .vmandn p w d a b => Sys2Proof.Machine.execVmandn p w d a b s
  | .vmnot p w d a => Sys2Proof.Machine.execVmnot p w d a s
  | .vmpop w d a => Sys2Proof.Machine.execVmpop w d a s
  | .exp2 t p w d a => Sys2Proof.Machine.execExp2 t p w d a s
  | .log2 t p w d a => Sys2Proof.Machine.execLog2 t p w d a s
  | .exp t p w d a => Sys2Proof.Machine.execExp t p w d a s
  | .log t p w d a => Sys2Proof.Machine.execLog t p w d a s
  | .rcp t p w d a => Sys2Proof.Machine.execRcp t p w d a s
  | .rsqrt t p w d a => Sys2Proof.Machine.execRsqrt t p w d a s
  | .sqrt t p w d a => Sys2Proof.Machine.execSqrt t p w d a s
  | .tanh t p w d a => Sys2Proof.Machine.execTanh t p w d a s
  | .sigmoid t p w d a => Sys2Proof.Machine.execSigmoid t p w d a s
  | .erf t p w d a => Sys2Proof.Machine.execErf t p w d a s
  | .sin t p w d a => Sys2Proof.Machine.execSin t p w d a s
  | .cos t p w d a => Sys2Proof.Machine.execCos t p w d a s
  | .div p w d a b => Sys2Proof.Machine.execDiv p w d a b s
  | .mxpush p g d a => Sys2Proof.Machine.execMxpush p g d a s
  | .mxshift p d a => Sys2Proof.Machine.execMxshift p d a s
  | .mxacc p g d a b => Sys2Proof.Machine.execMxacc p g d a b s
  | .mxaccx p g d a b => Sys2Proof.Machine.execMxaccx p g d a b s
  | .mxdrain p d a b => Sys2Proof.Machine.execMxdrain p d a b s
  | .mxzero p d => Sys2Proof.Machine.execMxzero p d s
  | .mxswap p => Sys2Proof.Machine.execMxswap p s
  | .ldq t p d a b => Sys2Proof.Machine.execLdq t p d a b s
  | .ldqv p d a b => Sys2Proof.Machine.execLdqv p d a b s
  | .gather t p d a b => Sys2Proof.Machine.execGather t p d a b s
  | .lds p d a b => Sys2Proof.Machine.execLds p d a b s
  | .ldss p d a b => Sys2Proof.Machine.execLdss p d a b s
  | .sts p d a b => Sys2Proof.Machine.execSts p d a b s
  | .stss p d a b => Sys2Proof.Machine.execStss p d a b s
  | .st t p d a b => Sys2Proof.Machine.execSt t p d a b s
  | .stv p d a b => Sys2Proof.Machine.execStv p d a b s
  | .scatter p d a b => Sys2Proof.Machine.execScatter p d a b s
  | .pref p a b => Sys2Proof.Machine.execPref p a b s
  | .prefs p a b => Sys2Proof.Machine.execPrefs p a b s
  | .smap p a b => Sys2Proof.Machine.execSmap p a b s
  | .sunmap p a => Sys2Proof.Machine.execSunmap p a s
  | .swb p a => Sys2Proof.Machine.execSwb p a s
  | .sinv p a => Sys2Proof.Machine.execSinv p a s
  | .put p a b => Sys2Proof.Machine.execPut p a b s
  | .get p w d a b => Sys2Proof.Machine.execGet p w d a b s
  | .aadd p w d a b => Sys2Proof.Machine.execAadd p w d a b s
  | .afxadd p w d a b => Sys2Proof.Machine.execAfxadd p w d a b s
  | .afadd p w d a b => Sys2Proof.Machine.execAfadd p w d a b s
  | .amin p w d a b => Sys2Proof.Machine.execAmin p w d a b s
  | .amax p w d a b => Sys2Proof.Machine.execAmax p w d a b s
  | .aminn p w d a b => Sys2Proof.Machine.execAminn p w d a b s
  | .amaxn p w d a b => Sys2Proof.Machine.execAmaxn p w d a b s
  | .aincb p w d a b => Sys2Proof.Machine.execAincb p w d a b s
  | .acas p w d a b => Sys2Proof.Machine.execAcas p w d a b s
  | .aswap p w d a b => Sys2Proof.Machine.execAswap p w d a b s
  | .aand p w d a b => Sys2Proof.Machine.execAand p w d a b s
  | .aor p w d a b => Sys2Proof.Machine.execAor p w d a b s
  | .axor p w d a b => Sys2Proof.Machine.execAxor p w d a b s
  | .post p sx a b => Sys2Proof.Machine.execPost p sx a b s
  | .br p d => Sys2Proof.Machine.execBr p d s
  | .call p d => Sys2Proof.Machine.execCall p d s
  | .ret p => Sys2Proof.Machine.execRet p s
  | .jr p a => Sys2Proof.Machine.execJr p a s
  | .loop p c l => Sys2Proof.Machine.execLoop p c l s
  | .leave p a => Sys2Proof.Machine.execLeave p a s
  | .qwait p q a => Sys2Proof.Machine.execQwait p q a s
  | .cpywait p q a => Sys2Proof.Machine.execCpywait p q a s
  | .cwait p c a => Sys2Proof.Machine.execCwait p c a s
  | .fence p m => Sys2Proof.Machine.execFence p m s
  | .fenceComplete => Sys2Proof.Machine.execFenceComplete s
  | .bwait p sx a => Sys2Proof.Machine.execBwait p sx a s
  | .spawnLaunch p w d a b => Sys2Proof.Machine.execSpawnLaunch p w d a b s
  | .spawnUnit p w d a b => Sys2Proof.Machine.execSpawnUnit p w d a b s
  | .send p a b => Sys2Proof.Machine.execSend p a b s
  | .trig p a b => Sys2Proof.Machine.execTrig p a b s
  | .untrig p a => Sys2Proof.Machine.execUntrig p a s
  | .quiet p w d a => Sys2Proof.Machine.execQuiet p w d a s
  | .bar p w d a b => Sys2Proof.Machine.execBar p w d a b s
  | .phaseOpeng p w d a b => Sys2Proof.Machine.execPhaseOpeng p w d a b s
  | .phaseOpenp p w d a b => Sys2Proof.Machine.execPhaseOpenp p w d a b s
  | .phaseAddl p w d a b => Sys2Proof.Machine.execPhaseAddl p w d a b s
  | .phaseClose p w d a b => Sys2Proof.Machine.execPhaseClose p w d a b s
  | .phaseRelease p w d a b => Sys2Proof.Machine.execPhaseRelease p w d a b s
  | .cancel p a => Sys2Proof.Machine.execCancel p a s
  | .yield p => Sys2Proof.Machine.execYield p s
  | .exit p => Sys2Proof.Machine.execExit p s
  | .accq p w d a b => Sys2Proof.Machine.execAccq p w d a b s
  | .glopen p w d a b => Sys2Proof.Machine.execGlopen p w d a b s
  | .glhold p a b => Sys2Proof.Machine.execGlhold p a b s
  | .glsend p a b => Sys2Proof.Machine.execGlsend p a b s
  | .glstat p w d a => Sys2Proof.Machine.execGlstat p w d a s
  | .glclose p a => Sys2Proof.Machine.execGlclose p a s
  | .engwr p e a b => Sys2Proof.Machine.execEngwr p e a b s
  | .chErrclr p n a b => Sys2Proof.Machine.execChErrclr p n a b s
  | .chResume p n a b => Sys2Proof.Machine.execChResume p n a b s
  | .engrd p e a b => Sys2Proof.Machine.execEngrd p e a b s
  | .cpygo p n a b => Sys2Proof.Machine.execCpygo p n a b s
  | .sixgo p a b => Sys2Proof.Machine.execSixgo p a b s
  | .sysrd p w d n => Sys2Proof.Machine.execSysrd p w d n s
  | .syswr p n b => Sys2Proof.Machine.execSyswr p n b s
  | .syswrCkbound p b => Sys2Proof.Machine.execSyswrCkbound p b s
  | .syswrQbound p b => Sys2Proof.Machine.execSyswrQbound p b s
  | .syswrArith p b => Sys2Proof.Machine.execSyswrArith p b s
  | .syswrSrseed p b => Sys2Proof.Machine.execSyswrSrseed p b s
  | .syswrMode p b => Sys2Proof.Machine.execSyswrMode p b s
  | .trap p a => Sys2Proof.Machine.execTrap p a s
  | .tretRetry p a => Sys2Proof.Machine.execTretRetry p a s
  | .tretSkipk p a => Sys2Proof.Machine.execTretSkipk p a s
  | .tretEnd p a => Sys2Proof.Machine.execTretEnd p a s
  | .xlinv p a b => Sys2Proof.Machine.execXlinv p a b s
  | .opreq p a b => Sys2Proof.Machine.execOpreq p a b s
  | .evac p w d a b => Sys2Proof.Machine.execEvac p w d a b s
  | .partq p w d a b => Sys2Proof.Machine.execPartq p w d a b s
  | .rvset p w d a b => Sys2Proof.Machine.execRvset p w d a b s
  | .rfloor p w d a b => Sys2Proof.Machine.execRfloor p w d a b s
  | .rheat p w d a b => Sys2Proof.Machine.execRheat p w d a b s
  | .rwaveRead p w d a b => Sys2Proof.Machine.execRwaveRead p w d a b s
  | .rwavePark p w d a b => Sys2Proof.Machine.execRwavePark p w d a b s
  | .rwaveWake p w d a b => Sys2Proof.Machine.execRwaveWake p w d a b s
  | .rwaveMove p w d a b => Sys2Proof.Machine.execRwaveMove p w d a b s
  | .revpost p a => Sys2Proof.Machine.execRevpost p a s
  | .rhframeSend p w d a b => Sys2Proof.Machine.execRhframeSend p w d a b s
  | .rhframeRecv p w d a b => Sys2Proof.Machine.execRhframeRecv p w d a b s
  | .rsigchk p w d a => Sys2Proof.Machine.execRsigchk p w d a s
  | .racctCreate p w d a b => Sys2Proof.Machine.execRacctCreate p w d a b s
  | .racctAdd p w d a b => Sys2Proof.Machine.execRacctAdd p w d a b s
  | .racctRelease p w d a b => Sys2Proof.Machine.execRacctRelease p w d a b s
  | .racctCancel p w d a b => Sys2Proof.Machine.execRacctCancel p w d a b s
  | .checkpointConfirm => Sys2Proof.Machine.execCheckpointConfirm s
  | .anchorTokenGrant => Sys2Proof.Machine.execAnchorTokenGrant s
  | .anchorHoldExpiry => Sys2Proof.Machine.execAnchorHoldExpiry s
  | .rollback => Sys2Proof.Machine.execRollback s
  | .preemption => Sys2Proof.Machine.execPreemption s
  | .resumeUnit => Sys2Proof.Machine.execResumeUnit s
  | .qboundStallLimit => Sys2Proof.Machine.execQboundStallLimit s
  | .unitPlace => Sys2Proof.Machine.execUnitPlace s
  | .unitAdmit => Sys2Proof.Machine.execUnitAdmit s
  | .unitStart => Sys2Proof.Machine.execUnitStart s
  | .unitAge => Sys2Proof.Machine.execUnitAge s
  | .unitCancelStop => Sys2Proof.Machine.execUnitCancelStop s
  | .borrowRequest => Sys2Proof.Machine.execBorrowRequest s
  | .borrowReply => Sys2Proof.Machine.execBorrowReply s
  | .combinerAdd => Sys2Proof.Machine.execCombinerAdd s
  | .combinerFlushPeriod => Sys2Proof.Machine.execCombinerFlushPeriod s
  | .flushRequest => Sys2Proof.Machine.execFlushRequest s
  | .returnArrive => Sys2Proof.Machine.execReturnArrive s
  | .messageArrive => Sys2Proof.Machine.execMessageArrive s
  | .messageTimeout => Sys2Proof.Machine.execMessageTimeout s
  | .channelTakeRecord => Sys2Proof.Machine.execChannelTakeRecord s
  | .channelShadowStart => Sys2Proof.Machine.execChannelShadowStart s
  | .ringReserve => Sys2Proof.Machine.execRingReserve s
  | .chunkPerform => Sys2Proof.Machine.execChunkPerform s
  | .recordComplete => Sys2Proof.Machine.execRecordComplete s
  | .channelFault => Sys2Proof.Machine.execChannelFault s
  | .putGetRemoteFault => Sys2Proof.Machine.execPutGetRemoteFault s
  | .getComplete => Sys2Proof.Machine.execGetComplete s
  | .sixOpStart => Sys2Proof.Machine.execSixOpStart s
  | .sixPush => Sys2Proof.Machine.execSixPush s
  | .sixFault => Sys2Proof.Machine.execSixFault s
  | .queueLoadFill => Sys2Proof.Machine.execQueueLoadFill s
  | .stashFill => Sys2Proof.Machine.execStashFill s
  | .stashWriteback => Sys2Proof.Machine.execStashWriteback s
  | .barrierArrival => Sys2Proof.Machine.execBarrierArrival s
  | .ptsTick => Sys2Proof.Machine.execPtsTick s
  | .regionFtTimeout => Sys2Proof.Machine.execRegionFtTimeout s
  | .artUpdateEffect => Sys2Proof.Machine.execArtUpdateEffect s
  | .translationWalk => Sys2Proof.Machine.execTranslationWalk s
  | .xlinvAck => Sys2Proof.Machine.execXlinvAck s
  | .trailPacketDeliver => Sys2Proof.Machine.execTrailPacketDeliver s
  | .flowWindowBoundary => Sys2Proof.Machine.execFlowWindowBoundary s
  | .flowPromoteProbe => Sys2Proof.Machine.execFlowPromoteProbe s
  | .glopenComplete => Sys2Proof.Machine.execGlopenComplete s
  | .guylineSlotSend => Sys2Proof.Machine.execGuylineSlotSend s
  | .guylineFlitLand => Sys2Proof.Machine.execGuylineFlitLand s
  | .guylineAckArrive => Sys2Proof.Machine.execGuylineAckArrive s
  | .guylineLeaseExpire => Sys2Proof.Machine.execGuylineLeaseExpire s
  | .guylineFinalCount => Sys2Proof.Machine.execGuylineFinalCount s
  | .guylineFinalTimeout => Sys2Proof.Machine.execGuylineFinalTimeout s
  | .podBarrierCombine => Sys2Proof.Machine.execPodBarrierCombine s
  | .podBarrierResult => Sys2Proof.Machine.execPodBarrierResult s
  | .barTimeout => Sys2Proof.Machine.execBarTimeout s
  | .linkTraining => Sys2Proof.Machine.execLinkTraining s
  | .flitReceive => Sys2Proof.Machine.execFlitReceive s
  | .replayRequest => Sys2Proof.Machine.execReplayRequest s
  | .linkRetrain => Sys2Proof.Machine.execLinkRetrain s
  | .retrainEnd => Sys2Proof.Machine.execRetrainEnd s
  | .lightLoss => Sys2Proof.Machine.execLightLoss s
  | .restripeComplete => Sys2Proof.Machine.execRestripeComplete s
  | .reconcile => Sys2Proof.Machine.execReconcile s
  | .reconcileTimeout => Sys2Proof.Machine.execReconcileTimeout s
  | .laserWakeRequest => Sys2Proof.Machine.execLaserWakeRequest s
  | .scrub => Sys2Proof.Machine.execScrub s
  | .controlInterval => Sys2Proof.Machine.execControlInterval s
  | .currentLimitEngage => Sys2Proof.Machine.execCurrentLimitEngage s
  | .currentLimitLevel2 => Sys2Proof.Machine.execCurrentLimitLevel2 s
  | .thermalCrit => Sys2Proof.Machine.execThermalCrit s
  | .logicStep => Sys2Proof.Machine.execLogicStep s
  | .sramUpstep => Sys2Proof.Machine.execSramUpstep s
  | .stepwaitExpire => Sys2Proof.Machine.execStepwaitExpire s
  | .evacRowMove => Sys2Proof.Machine.execEvacRowMove s
  | .stepSettle => Sys2Proof.Machine.execStepSettle s
  | .drainComplete => Sys2Proof.Machine.execDrainComplete s
  | .eventRecordArrive => Sys2Proof.Machine.execEventRecordArrive s
  | .boot => Sys2Proof.Machine.execBoot s
  | .hostHello => Sys2Proof.Machine.execHostHello s
  | .hostGoodbye => Sys2Proof.Machine.execHostGoodbye s
  | .sessionTimeout => Sys2Proof.Machine.execSessionTimeout s
  | .hostLoad => Sys2Proof.Machine.execHostLoad s
  | .hostStart => Sys2Proof.Machine.execHostStart s
  | .hostLaunch => Sys2Proof.Machine.execHostLaunch s
  | .hostJobCreate => Sys2Proof.Machine.execHostJobCreate s
  | .hostJobAdd => Sys2Proof.Machine.execHostJobAdd s
  | .hostJobRelease => Sys2Proof.Machine.execHostJobRelease s
  | .hostJobCancel => Sys2Proof.Machine.execHostJobCancel s
  | .hostAcctrd => Sys2Proof.Machine.execHostAcctrd s
  | .hostPart => Sys2Proof.Machine.execHostPart s
  | .hostPodmap => Sys2Proof.Machine.execHostPodmap s
  | .hostCap => Sys2Proof.Machine.execHostCap s
  | .hostMode => Sys2Proof.Machine.execHostMode s
  | .hostEvents => Sys2Proof.Machine.execHostEvents s
  | .hostCounters => Sys2Proof.Machine.execHostCounters s
  | .hostAttest => Sys2Proof.Machine.execHostAttest s
  | .hostSafeckpt => Sys2Proof.Machine.execHostSafeckpt s
  | .ckptBlockAck => Sys2Proof.Machine.execCkptBlockAck s
  | .hostCkptstat => Sys2Proof.Machine.execHostCkptstat s
  | .hostReset => Sys2Proof.Machine.execHostReset s
  | .rocev2BulkData => Sys2Proof.Machine.execRocev2BulkData s
  | .freedRowsZeroed => Sys2Proof.Machine.execFreedRowsZeroed s

end Sys2Proof.Machine
end

