-- ==== Sys2Proof/Machine/Issue.lean ====
section
/-! DEFINITION. The issue of one bundle by the sequencer in focus (R32 to R56, R65, R87, R126, R132, R410 to R415, R418 to
R420, R479): the fetch, what happens before a bundle issues, its slots in word order as one transaction, the causes in the
order of R479, and what a bundle that has issued leaves. -/

namespace Sys2Proof.Machine

/-! ### Traps of a bundle (R44, R56) -/

/-- The word of the lowest marked slot (R428). -/
def lowestWord (ws : List (BitVec 32)) (m : BitVec 12) : BitVec 32 :=
  match (upFrom 0 12).find? fun i => m.getLsbD i with
  | some i => bword ws i
  | none => 0#32

/-- A trap of the bundle at the program counter, with the slots it marks. A bundle that met an uncorrectable error stands as it is until its unit
ends with its job (R446). -/
def State.bundleTrap (s : State) (k : Cause) (addr : Word) (mask : BitVec 12) : State :=
  let x := s.core
  let t := s.takeTrap { cause := k, addr := addr, mask := mask, faultb := x.arch.pc, slotWord := lowestWord x.words mask, header := x.header }
  if k = .eccUncorrected then t.withCore { t.core with phase := .stalled } else t

/-! ### The slots of a bundle -/

/-- The bit of DONE that a slot has (R413). -/
def doneBit (num : Nat) : BitVec 3 := if num = 7 then 1#3 else if num = 8 then 2#3 else if num = 10 then 4#3 else 0#3

/-- Whether a slot issues: one that DONE marks in a replayed or resumed checkpoint bundle issues as a NOP, and so does the K slot that SKIPK
skips, which DONE marks with it (R399, R413). -/
def Core.active (x : Core) (y : SlotI) : Bool :=
  !(x.atCk && decide (x.done &&& doneBit y.num ≠ 0#3))

/-- Whether the predicate of a slot is true; V and F have none (R45, R46). -/
def Core.holds (x : Core) (y : SlotI) : Bool :=
  match y.shape.cls with
  | some .V | some .F => true
  | some .S | some .M | some .X | some .K | none => x.arch.preg y.shape.pred.toNat

/-- What trying a slot shows: it issued, it has a cause, it waits, it made the sequencer leave its unit or its interval, or
its meaning stopped. -/
inductive Tried1 where
  | did (t : State)
  | cause (k : Cause) (addr : Word)
  | waits (want : List Action)
  | gone (t : State)
  | stops (o : Host.Outcome State Fault Refusal)

/-- A slot tried on a state. A replay ordered by a form's own confirmation (R223, R364) leaves the interval. -/
def State.trySlot (s : State) (y : SlotI) : Tried1 :=
  match y.ins with
  | none => .cause .illegal 0#64
  | some i =>
    match exec i (s.withCore { s.core with slot := y.num, word := y.word, raised := none, phase := .begun }) with
    | .fault f => .stops (.fault f)
    | .refused r => .stops (.refused r)
    | .next t =>
      match t.core.phase with
      | .fresh | .begun => .did t
      | .stalled => .waits t.core.want
      | .left =>
        match t.core.raised with
        | none => .gone t
        | some (k, a) => if k = .leaseConflict ∨ k = .xlinvReplay then .gone t else .cause k a

/-- What trying the slots of a bundle in word order shows: the state with every slot done that has neither a cause nor a wait,
the state before a slot that left, the causes by slot, what is waited for, and a meaning that stopped. -/
structure Tried where
  st     : State
  before : State
  causes : List (Nat × Cause × Word) := []
  waits  : Option (List Action) := none
  gone   : Bool := false
  stop   : Option (Host.Outcome State Fault Refusal) := none

/-- The slots of a list tried one after another. -/
def trySlots (r : Tried) : List SlotI → Tried
  | [] => r
  | y :: ys =>
    if r.gone then r
    else
      match r.st.trySlot y with
      | .did t => trySlots { r with st := t, before := t } ys
      | .cause k a => trySlots { r with causes := r.causes ++ [(y.num, k, a)] } ys
      | .waits w => trySlots { r with waits := some (r.waits.getD [] ++ w) } ys
      | .gone t => { r with st := t, gone := true }
      | .stops o => { r with stop := some o }

/-- The forms whose bundle stalls before it issues until a condition holds (R241, R254, R260, R262, R303). -/
def waitForm (i : Option Instr) : Bool :=
  match i with
  | some (.qwait _ _ _) | some (.cpywait _ _ _) | some (.cwait _ _ _) | some (.bwait _ _ _) | some (.quiet _ _ _ _) => true
  | _ => false

/-- Causes put in word order (R479). -/
def byWord (cs : List (Nat × Cause × Word)) : List (Nat × Cause × Word) :=
  (upFrom 0 12).flatMap fun k => cs.filter fun c => decide (c.1 = k)

/-- The slots of a bundle tried on the state in which it issues. A wait is judged on the state before the bundle, so its slot
is tried first; causes are given in word order. -/
def State.tryBundle (s : State) (ys : List SlotI) : Tried :=
  let r := trySlots { st := s, before := s } ((ys.filter fun y => waitForm y.ins) ++ ys.filter fun y => !waitForm y.ins)
  { r with causes := byWord r.causes }

/-- The causes that are found after issue and rank last (R414, R479). -/
def lateCause (k : Cause) : Bool :=
  match k with
  | .align | .translation | .attr => true
  | _ => false

/-- The slots of the bundle in focus that issue. -/
def Core.slots (x : Core) : List SlotI := (slotsOf x.words).filter x.active

/-- The slots whose causes are known while another cause of the bundle is reported (R428, R479). -/
def State.knownMarks (s : State) : BitVec 12 :=
  let m := illegalMarks s.core (decide (s.cur = rangerId)) s.core.words
  marks ((s.tryBundle (s.core.slots.filter fun y => !m.getLsbD y.num)).causes.map (·.1))

/-! ### Resources of the whole bundle (R479, item 4) -/

/-- The slots that pop or push a queue; bit 0 where none does (R56). -/
def touchMarks (x : Core) (ys : List SlotI) (q : Nat) : BitVec 12 :=
  let zs := ys.filter fun y => x.holds y && (y.popList.contains q || (y.dests x).contains (Cls.q, q))
  if zs.isEmpty then 1#12 else marks (zs.map SlotI.num)

/-- The entries that a queue would hold: those present or reserved, pushes in flight, less the bundle's pop (R144). -/
def Core.queueTotal (x : Core) (q : Nat) : Nat :=
  (vget {} x.q q).entries.length + (x.flights.filter fun f => decide (f.dest = .queue (BitVec.ofNat 3 q))).length
    - b2n (x.popped.getLsbD q)

/-- The entries that a queue would retain (R204). -/
def Core.retainTotal (x : Core) (q : Nat) : Nat := (vget {} x.q q).retained.length + b2n (x.popped.getLsbD q)

/-- Whether a slot's stores are withheld (R206): those of ST, STV and SCATTER, and those of STS and STSS that reach a stash row. -/
def State.withholds (s : State) (y : SlotI) : Bool :=
  let stash (base : BitVec 6) (a : Src) (n : Nat) : Bool :=
    match s.readS .int a with
    | .ok v => (upFrom (s.core.arch.sreg base + v).toNat n).any fun o => (s.core.decl.stashPlace o).isSome
    | .error _ => true
  match y.ins with
  | some (.st _ _ _ _ _) | some (.stv _ _ _ _) | some (.scatter _ _ _ _) => true
  | some (.sts _ b a _) => stash b a 512
  | some (.stss _ b a _) => stash b a 8
  | _ => false

/-- The first resource cause of a bundle whose slots have been tried, with the slots it marks; `stores` says which of them withhold. -/
def Core.resourceCause (x : Core) (ys : List SlotI) (stores : SlotI → Bool) : Option (Cause × BitVec 12) :=
  match (upFrom 0 8).find? fun q => decide (16 < x.queueTotal q) with
  | some q => some (.queueFull, touchMarks x ys q)
  | none =>
    match (upFrom 0 8).find? fun q => decide (32 < x.retainTotal q) with
    | some q => some (.queueRetain, touchMarks x ys q)
    | none =>
      if 256 < x.withheld.length then
        let zs := ys.filter fun y => x.holds y && stores y
        some (.withholdFull, if zs.isEmpty then 1#12 else marks (zs.map SlotI.num))
      else
        ((upFrom 0 8).find? fun q => x.pushed.getLsbD q && x.six.ownsQueue q).map fun q => (.sixQueue, touchMarks x ys q)

/-! ### The successor (R126, R132) -/

/-- The loop test at bundle `n` on a stack given top first: the start of a back-edge, and the stack left. -/
def loopTest (n : Word) : List LoopEntry → Option Word × List LoopEntry
  | [] => (none, [])
  | e :: es =>
    if e.last ≠ n then (none, e :: es)
    else if 1 < e.remaining.toNat then (some e.start, { e with remaining := e.remaining - 1#64 } :: es)
    else loopTest n es

/-- The successor of a bundle that has issued, whether it is a group switch, and the loop stack left. -/
def Core.successor (x : Core) : Word × Bool × List LoopEntry :=
  match x.next with
  | some w => (w, true, x.arch.loops)
  | none =>
    let r := loopTest x.arch.pc x.arch.loops.reverse
    match r.1 with
    | some w => (w, true, r.2.reverse)
    | none => (x.arch.pc + 1#64, false, r.2.reverse)

/-- The slot that FETCH_RANGE marks (R56). -/
def fetchMarks (x : Core) (ys : List SlotI) : BitVec 12 :=
  let viaLoop := ys.any fun y => match y.ins with | some (.loop _ _ _) => x.holds y | _ => false
  if x.next.isSome || viaLoop then BitVec.ofNat 12 (2 ^ 10) else 1#12

/-! ### A bundle that has issued -/

/-- Pops taken off the heads of the queues and retained (R43, R204). -/
def Core.popAll (x : Core) : Core :=
  { x with
    q := Vector.ofFn fun i =>
      let y := vget {} x.q i.val
      if x.popped.getLsbD i.val then { entries := y.entries.drop 1, retained := y.retained ++ y.entries.take 1 } else y }

/-- What an issued bundle leaves of the counts and marks of issue; `k` is the sequencer as the bundle found it. After the bundle by which the
ranger core returns from a trap, a checkpoint is taken at the bundle it resumes, with the DONE of the trap (R400, R423). -/
def Core.finish (x k : Core) (ys : List SlotI) (succ : Word) (switch : Bool) (loops : List LoopEntry) : Core :=
  let done := ys.foldl (fun m y => if y.shape.irrev && k.holds y then m ||| doneBit y.num else m) x.done
  let occ := ys.foldl (fun m y => max m y.shape.occ) x.arch.fBusy
  let claims := x.arch.claims ++ ys.flatMap fun y => y.claims k
  let y := x.popAll
  let z := { y with
    arch := { y.arch with pc := succ, loops := loops, sinceQ := y.arch.sinceQ + 1, fBusy := occ, claims := claims },
    done := done, sinceCk := y.sinceCk + 1, issuedN := y.issuedN + 1, phase := .fresh, popped := 0#8, pushed := 0#8,
    next := none, want := [], stallFrom := none, atCk := false, six := { y.six with since := min 128 (y.six.since + 1) }, resumes := none, raised := none }
  let w := if switch then z.groupSwitch else z
  match y.resumes with
  | none => w
  | some d => { w.checkpoint with done := d, atCk := true }

/-- The actions that a bundle waits for, less the stash fills that its core's cap of requests does not admit yet (R385). -/
def State.withinCap (s : State) (want : List Action) : List Action :=
  match s.requestCap s.cur with
  | none => want
  | some k =>
    let fill (a : Action) : Bool := match a with | .stashFill _ _ _ => true | _ => false
    want.filter (fun a => !fill a) ++ (want.filter fun a => fill a && !s.due.contains a).take (k - s.outstanding s.cur)

/-- The stall of a bundle (R49): what it waits for is made due, and the limit of a stall without Q while a pre-emption or a
cancellation is pending (R419). -/
def State.stallOn (s : State) (want : List Action) (ph : Phase := .stalled) : State :=
  let x := s.core
  let limit := if !bitAt x.header 30 && (s.leaves || s.cancelling x.hold) then [Action.qboundStallLimit s.cur] else []
  let new := (s.withinCap want ++ limit).filter fun a => !s.due.contains a
  (s.withCore { x with phase := ph, want := want, stallFrom := some (x.stallFrom.getD s.time) }).addDue new

/-- The bundle once its slots have been tried without a wait: the first cause in the order of R479 is taken; otherwise the
bundle commits. -/
def State.settleBundle (s : State) (r : Tried) (ys : List SlotI) : State :=
  let mask := marks (r.causes.map (·.1))
  match r.causes.find? fun c => !lateCause c.2.1 with
  | some c => s.bundleTrap c.2.1 c.2.2 mask
  | none =>
    match r.before.core.resourceCause ys s.withholds with
    | some c => s.bundleTrap c.1 0#64 (mask ||| c.2)
    | none =>
      let x := r.st.core
      let n := x.successor
      if !r.gone && decide (x.code.count ≤ n.1.toNat) then s.bundleTrap .fetchRange n.1 (mask ||| fetchMarks x ys)
      else
        match r.causes with
        | c :: _ => s.bundleTrap c.2.1 c.2.2 mask
        | [] =>
          if r.gone then r.st
          else
            let t0 := r.st.remapAll x.remap
            let t := t0.withCore (t0.core.finish s.core ys n.1 n.2.1 n.2.2)
            if x.queue.isEmpty || decide ((x.issuedN + 1) % 2 ^ (s.partAt x.part).age ≠ 0) then t else t.addDue [.unitAge s.cur]

/-- The slots of a bundle that has begun: they issue together, or the bundle stalls, or it traps; one whose requests would pass their cap stalls
(R385). A unit of a cancelled account stops when a wait of its ends (R282). -/
def State.issueSlots (s : State) : Host.Outcome State Fault Refusal :=
  let ys := s.core.slots
  let r := s.tryBundle ys
  match r.stop with
  | some o => o
  | none =>
    match r.waits with
    | some w => .next (s.stallOn w)
    | none =>
      if s.core.phase = .stalled ∧ s.cancelling s.core.hold then .next s.cancelNow
      else if !r.gone && s.overCap r.st then .next (s.stallOn [])
      else .next (s.settleBundle r ys)

/-- A bundle that waits is tried again, unless it carries Q and its unit is to leave; a borrow is waited for first (R263,
R272). -/
def State.retryBundle (s : State) : Host.Outcome State Fault Refusal :=
  if bitAt s.core.header 30 && s.leaves && decide (s.core.borrow ≠ .asked) then .next s.preemptStalled else s.issueSlots

/-! ### Before a bundle issues -/

/-- Whether the K slot holds a TRAP that will be taken: its bundle confirms a checkpoint whether or not C is set (R399). -/
def Core.trapsHere (x : Core) : Bool :=
  x.slots.any fun y => match y.ins with | some (.trap _ _) => x.holds y | _ => false

/-- The checks of a bundle whose results have landed, in the order of R479: legality, the bounds, the confirmation of a
checkpoint bundle (R411), and then its slots. A checkpoint bundle that is replayed or resumed has its checkpoint already;
it confirms when stores or popped ring bytes came back with its context (R199, R423). -/
def State.checkBundle (s : State) : Host.Outcome State Fault Refusal :=
  let x := s.core
  let c := bitAt x.header 31
  let q := bitAt x.header 30
  let m := illegalMarks x (decide (s.cur = rangerId)) x.words
  if m ≠ 0#12 then .next (s.bundleTrap .illegal 0#64 (m ||| s.knownMarks))
  else if !c && decide (x.ckBound ≤ x.sinceCk) then .next (s.bundleTrap .ckboundOver 0#64 (1#12 ||| s.knownMarks))
  else if !q && decide (x.arch.qSpan ≤ x.arch.sinceQ) then .next (s.bundleTrap .qboundOver 0#64 (1#12 ||| s.knownMarks))
  else if (c || q || x.trapsHere) && decide (64 < x.writesInFlight) then .next (s.bundleTrap .carryFull 0#64 (1#12 ||| s.knownMarks))
  else
    let go (t : State) : Host.Outcome State Fault Refusal :=
      (t.withCore { t.core with arch := { t.core.arch with qSpan := if q then t.core.qBound else t.core.arch.qSpan } }).issueSlots
    if (c && !(x.atCk && x.saved.isEmpty && x.pad.rings.toList.all fun r => decide (r.kept = 0))) || x.trapsHere then
      match s.confirm with
      | .made t => go t
      | .waits => .next (s.stallOn [.checkpointConfirm s.cur] .begun)
      | .replayed t => .next t
    else go s

/-- The results due at this bundle that raise a flag whose trap is enabled (R87). -/
def Core.flagged (x : Core) : List Flight := x.due.filter fun f => arithTraps x.arch.arith f.flags

/-- ARITH_EXCEPTION: the record names the bundle and the slot that issued the raising result (R87). -/
def State.arithTrap (s : State) (f : Flight) (fs : List Flight) : State :=
  let mask := marks ((fs.filter fun g => decide (g.pc = f.pc)).map Flight.slot)
  s.takeTrap { cause := .arithException, mask := mask, faultb := f.pc, flags := f.flags, slotWord := f.slotWord, header := f.header }

/-- Landing and what the header asks for: a group start loses every latch (R34, R52), a quiet point empties both planes,
makes every snapshot stale and starts a span (R166, R173, R419). -/
def Core.enter (x : Core) : Core :=
  let y := { x.advance with phase := .begun }
  let z := if bitAt x.header 29 then y.groupSwitch else y
  if bitAt x.header 30 then { z with arch := { z.arch with planes := Vector.replicate 2 {}, loads := [], snapOk := Vector.replicate 16 false, sinceQ := 0 } } else z

/-- The fault of an argument block, taken before the entry bundle issues: the unit counts as not started (R474). A store that came with the context of
a resume and does not translate any more faults here too (R364, R423). -/
def State.argTrap (s : State) (u : Nat) (k : Cause) (va : Word) : State :=
  let s1 := s.modUnit u fun y => { y with argFault := none, started := y.started && !s.core.saved.isEmpty }
  s1.takeTrap { cause := k, addr := va, faultb := s.core.arch.pc, header := s.core.header }

/-- A bundle one of whose words has an uncorrectable error: the fetch does not complete, and its job is cancelled (R446). -/
def State.badFetch (s : State) (pa : Nat) : State :=
  if s.cancelling s.core.hold then s.cancelNow else s.eccAt s.cur pa

/-- A bundle that has not begun: the unit may leave before a Q bundle (R282, R420); a result due here may trap (R87); a FENCE of an earlier
bundle is waited for (R228), and so is an XLINV (R401); results land; the checks follow. A program counter past the section takes FETCH_RANGE (R126; log entry 14). -/
def State.beginBundle (s : State) : Host.Outcome State Fault Refusal :=
  match s.fetchWords with
  | none => .fault (.fetchOutside s.bundleAddr)
  | some ws =>
    match s.struck (upFrom s.bundleAddr 48) with
    | some pa => .next (s.badFetch pa)
    | none =>
    let s1 := s.withCore { s.core with
      words := ws, header := bword ws 0, literal := bword ws 11, raised := none, want := [], popped := 0#8, pushed := 0#8,
      next := none, resumes := none, phase := .fresh }
    let x := s1.core
    let arg := x.unit.bind fun u => (s.unitAt u).bind fun y => y.argFault.map fun f => (u, f.1, f.2)
    match arg with
    | some (u, k, va) => .next (s1.argTrap u k va)
    | none =>
      if x.code.count ≤ x.arch.pc.toNat then .next (s1.bundleTrap .fetchRange x.arch.pc 1#12)
      else if bitAt x.header 30 && s1.cancelling x.hold then .next s1.cancelNow
      else if bitAt x.header 30 && s1.leaves then
        if 64 < x.writesInFlight then .next (s1.bundleTrap .carryFull 0#64 1#12) else .next s1.preemptNow
      else if x.fence.isSome then .next (s1.stallOn [.fenceComplete s.cur] .fresh)
      else if s.hub.inval.any fun v => decide (v.core = s.cur) then
        .next (s1.stallOn (((s.hub.inval.filter fun v => decide (v.core = s.cur)).flatMap Inval.holders).map Action.xlinvAck) .fresh)
      else
        match x.flagged with
        | f :: fs => .next (s1.arithTrap f (f :: fs))
        | [] => (s1.withCore x.enter).checkBundle

/-- One attempt of the sequencer in focus to issue its next bundle. -/
def State.issueBundle (s : State) : Host.Outcome State Fault Refusal :=
  match s.core.phase with
  | .stalled => s.retryBundle
  | .begun => s.checkBundle
  | .fresh | .left => s.beginBundle

end Sys2Proof.Machine
end

