-- ==== Sys2Proof/Machine/Step.lean ====
section
/-! DEFINITION. One step of the machine: a sequencer attempts its next bundle, or a device action that is due happens, or
the host port takes a frame. Where several can, a free value says which (R217, R264; log entry 2). -/

namespace Sys2Proof.Machine

/-- What can act in a step. -/
inductive Agent where
  | sequencer (c : Nat)
  | action (i : Nat)
  | hostFrame
deriving DecidableEq, Repr

/-- Whether a sequencer has something to issue: a core with a running unit, or the ranger core while it is up. -/
def State.runs (s : State) (c : Nat) (x : Core) : Bool :=
  if c = rangerId then decide (s.port.boot = .running) && !x.halted && decide (0 < x.code.count) else x.unit.isSome

/-- Everything that can act. -/
def State.agents (s : State) : List Agent :=
  (if s.runs s.cur s.core then [Agent.sequencer s.cur] else [])
    ++ ((s.others.filter fun k => s.runs k.1 k.2).map fun k => Agent.sequencer k.1)
    ++ ((upFrom 0 s.due.length).map Agent.action)
    ++ (if s.port.frames.isEmpty then [] else [Agent.hostFrame])

/-- The device action of the instruction with an action at hand, and no action at hand afterwards. -/
def State.perform (s : State) (a : Action) : Host.Outcome State Fault Refusal :=
  match exec a.instr { s with act := some a } with
  | .next t => .next { t with act := none }
  | .fault f => .fault f
  | .refused r => .refused r

/-- What an agent does. -/
def State.actBy (s : State) (a : Agent) : Host.Outcome State Fault Refusal :=
  match a with
  | .sequencer c => (s.focus c).issueBundle
  | .action i =>
    match s.due[i]? with
    | some x => State.perform { s with due := s.due.eraseIdx i } x
    | none => .next s
  | .hostFrame =>
    match s.port.frames with
    | [] => .next s
    | f :: fs =>
      let s1 := { s with port := { s.port with frames := fs } }
      match s1.frameIn.screenFrame f with
      | .ok x => s1.frameIn.perform x
      | .error t => .next t

/-- The agent that acts: the tick of logical time as soon as its 64 cycles have passed; else the only one, or the one that the free value of the
step names. -/
def State.chosen (s : State) : Option Agent :=
  match s.tickDue with
  | some i => some (.action i)
  | none =>
    match s.agents with
    | [] => none
    | [a] => some a
    | a :: as => (a :: as)[Config.choose s.free % (a :: as).length]?

/-- One step. Time passes in every step; the counter of the free values advances where one was used. -/
def step (s : State) : Host.Outcome State Fault Refusal :=
  match s.chosen with
  | none => .next { s with time := s.time + 1 }
  | some a => State.actBy { s with time := s.time + 1, free := s.free + 1 } a

/-! ### Placing an instruction (log entry 15) -/

/-- The declaration of the unit that a placed instruction runs in: every queue, every tile, 64 KiB of scratchpad. -/
def placedDecl : UnitDecl := { nacc := 8, qmask := 0xFF#8, spbytes := 65536 }

/-- The place of a word in a bundle by its slot class (R32). -/
def placedSlot (c : SlotClass) : Nat :=
  match c with
  | .S => 1
  | .V => 3
  | .F => 6
  | .M => 7
  | .X => 9
  | .K => 10

/-- The state with one bundle placed where the next step fetches: a running unit on the core in focus, or the ranger core
for its own forms, its bundle holding the word in its slot and C where the form is irrevocable; a second, empty bundle
follows. Nothing else is due. -/
def State.withFetchWord (s : State) (nbits w : Nat) : State :=
  let word := BitVec.ofNat 32 w
  let hit := if nbits = 32 then firstClass word tableClasses else none
  let h : Shape := ((hit.map (·.2)).map Instr.shape).getD {}
  let slot := ((hit.map (·.1)).map placedSlot).getD 10
  let ranger := decide (h.whr = .ranger)
  let c := if ranger then rangerId else if s.cur = rangerId then 0 else s.cur
  let s1 := s.focus c
  let x := s1.core
  let k : Core := { x with
    arch := { x.arch with pc := 0#64 }, phase := .fresh, unit := if ranger then none else some 1, decl := placedDecl,
    code := { base := 0, count := 2 }, flights := [], halted := false, preempt := none, yieldReq := false }
  let mem := cellsPut (cellsDrop 0 96 s1.mem) ((upFrom 0 4).map (fun i => (4 * slot + i, BitVec.ofNat 8 (w / 256 ^ i)))
    ++ (if h.irrev then [(3, 0x80#8)] else []))
  { s1 with
    core := k, others := [], mem := mem, act := none, due := [],
    hub := { s1.hub with units := if ranger then s1.hub.units else NatMap.put 1 { decl := placedDecl, st := .running, core := c, started := true } s1.hub.units },
    port := { s1.port with boot := .running, frames := [] } }

end Sys2Proof.Machine
end

