-- ==== Sys2Proof/Safety.lean ====
section
/-! DEFINITION. What a run of the machine may be relied on for: the step ends in no fault and no refusal, memory keeps its
canonical form, and so do the other maps of the state. -/

namespace Sys2Proof.Machine

/-- A step that goes on. -/
def goesOn (s : State) : Prop := ∃ t, step s = .next t

/-- A state from which `n` steps go on, whichever agent acts in them. -/
def safeFor : Nat → State → Prop
  | 0, _ => True
  | n + 1, s => ∃ t, step s = .next t ∧ safeFor n t

/-- A map whose keys strictly rise: the one form in which two maps are equal when they hold the same. -/
def RisingKeys {α : Type} (m : NatMap α) : Prop := (m.map (·.1)).Pairwise (· < ·)

/-- Memories in their one form: device memory and the host's list addresses in rising order, and no byte that an unlisted address
reads as. -/
def State.Canonical (s : State) : Prop := Memory.wf s.mem = true ∧ cellsWf s.port.mem = true

/-- A scratchpad in its one form: its bytes, and the stash lines that it knows. -/
def Spad.Tidy (p : Spad) : Prop := cellsWf p.bytes = true ∧ RisingKeys p.lines

/-- The rest of a state in its one form: its maps by rising key, its scratchpads, and the numbers of units and transfers below the next
to be given. -/
structure State.Orderly (s : State) : Prop where
  others : RisingKeys s.others
  hub : RisingKeys s.hub.ts ∧ RisingKeys s.hub.accounts ∧ RisingKeys s.hub.units ∧ RisingKeys s.hub.xfers ∧ RisingKeys s.hub.combs ∧
    RisingKeys s.hub.freedRows
  power : RisingKeys s.power.op ∧ RisingKeys s.power.allow ∧ RisingKeys s.power.ceil ∧ RisingKeys s.power.cool ∧ RisingKeys s.power.ilevel ∧
    RisingKeys s.power.cap ∧ RisingKeys s.power.steps ∧ RisingKeys s.power.ups ∧ RisingKeys s.power.energy ∧ RisingKeys s.power.carryNj
  fabric : RisingKeys s.fabric.ports ∧ RisingKeys s.fabric.wheels
  pads : Spad.Tidy s.core.pad ∧ (∀ k ∈ s.others, Spad.Tidy k.2.pad) ∧ ∀ k ∈ s.hub.units, Spad.Tidy k.2.pad
  units : ∀ k ∈ s.hub.units, 0 < k.1 ∧ k.1 < s.hub.nextUnit
  xfers : ∀ k ∈ s.hub.xfers, 0 < k.1 ∧ k.1 < s.hub.nextXfer

end Sys2Proof.Machine
end

