-- ==== Sys2Proof/Certificates/Slice0/Obligations.lean ====
section
/-! DEFINITION. The statements about the X1: what its rules say of each instruction, of its encodings, of a step, of traps and
of what every step keeps. First the words in which they are said, then the statements. -/

open Sys2Proof Sys2Proof.Machine

namespace Sys2Proof.Machine

/-! ### The words of the statements -/

/-- An instruction or device action at a state completes with the next state `t`. -/
def Gives (i : Instr) (s t : State) : Prop := exec i s = .next t

/-- The predicate of a slot is true (R45). -/
def PredOn (s : State) (p : BitVec 3) : Prop := s.core.arch.preg p.toNat = true

/-- A destination of class s can take a result: NOWB, no binding, or a binding to a declared queue (R47, R142, R203). -/
def FreeS (s : State) (w : Bool) (d : BitVec 6) : Prop := w = true ∨ ∀ q, s.core.boundQueue false d = some q → s.core.hasQueue q = true

/-- A destination of class v can take a result. -/
def FreeV (s : State) (w : Bool) (d : BitVec 6) : Prop := w = true ∨ ∀ q, s.core.boundQueue true d = some q → s.core.hasQueue q = true

/-- Where a result of class s goes (R47, R142). -/
def goalS (s : State) (w : Bool) (d : BitVec 6) : Dest :=
  if w then .none
  else
    match s.core.boundQueue false d with
    | some q => .queue q
    | none => .s d

/-- The push that a result makes (R142). -/
def pushOf (s : State) (g : Dest) : BitVec 8 :=
  match g with
  | .queue q => s.core.pushed ||| (1#8 <<< q.toNat)
  | _ => s.core.pushed

/-- The state in which a slot with the source fields `as` has issued and its result is in flight: it lands `lat` bundles on
(R49). Nothing else of the machine differs: no register, no byte of memory. -/
def inFlight (s : State) (as : List Src) (lat : Nat) (g : Dest) (v : Val) (m : LaneMask) (f : FlagSet) : State :=
  { s with core := { s.core with
      popped := (s.core.notePops as).popped
      pushed := pushOf s g
      flights := s.core.flights ++ [
        { left := lat, dest := g, val := v, mask := m, flags := f, latch := slotLatch s.core.slot, pc := s.core.arch.pc,
          slot := s.core.slot, slotWord := s.core.word, header := s.core.header, old := false }] } }

/-- A scalar result of latency `lat` on its way to its destination. -/
def scalarOut (s : State) (as : List Src) (w : Bool) (d : BitVec 6) (lat : Nat) (v : Word) (f : FlagSet := 0#6) : State :=
  inFlight s as lat (goalS s w d) (.scalar v) (BitVec.allOnes 128) f

/-- A predicate result of latency `lat` on its way to its destination. -/
def predOut (s : State) (as : List Src) (w : Bool) (d : BitVec 6) (lat : Nat) (b : Bool) : State :=
  inFlight s as lat (if w then .none else .p (d.setWidth 3)) (.pred b) (BitVec.allOnes 128) 0#6

/-- A vector result: to its register under the lanes `m` written, to the queue bound to it as a whole entry with zero in the
other lanes and the mask `carry`, or with NOWB to the latch alone (R46, R47, R143). -/
def vectorOut (s : State) (as : List Src) (w : Bool) (d : BitVec 6) (lat : Nat) (v : Lanes) (m carry : LaneMask) (f : FlagSet := 0#6) : State :=
  if w then inFlight s as lat (.latchV d) (.vector v) m f
  else
    match s.core.boundQueue true d with
    | some q => inFlight s as lat (.queue q) (.vector (mergeLanes m v 0#4096)) carry f
    | none => inFlight s as lat (.v d) (.vector v) m f

/-- A mask result under the lanes `m`. -/
def maskOut (s : State) (as : List Src) (w : Bool) (d : BitVec 6) (lat : Nat) (v m : LaneMask) : State :=
  inFlight s as lat (if w then .none else .m (d.setWidth 3)) (.mask v) m 0#6

/-- The state in which a slot has issued whose form has no result: its latch is lost at the next bundle (R42). -/
def noOut (s : State) (as : List Src) : State := inFlight s as 1 .none (.pred false) (BitVec.allOnes 128) 0#6

end Sys2Proof.Machine

/-! ### Scalar forms -/

/-- R110, R111, R115: each two-source integer form completes, whatever forms its fields have, when its fields can be read and
its destination can take a result; its result is the one of the tables, on its way with the latency of R50. The equation is
also the frame: nothing but the result in flight and the pops of its fields differs. -/
def Obligations.ScalarIntegerResults : Prop :=
  ∀ (s : State) (p : BitVec 3) (w : Bool) (d : BitVec 6) (a b : Src) (x y : Word),
    PredOn s p → s.readS .int a = .ok x → s.readS .int b = .ok y → FreeS s w d →
    let one (v : Word) : State := scalarOut s [a, b] w d 1 v
    let three (v : Word) : State := scalarOut s [a, b] w d 3 v
    Gives (.add p w d a b) s (one (x + y)) ∧ Gives (.sub p w d a b) s (one (x - y)) ∧
    Gives (.and p w d a b) s (one (x &&& y)) ∧ Gives (.or p w d a b) s (one (x ||| y)) ∧
    Gives (.xor p w d a b) s (one (x ^^^ y)) ∧ Gives (.andn p w d a b) s (one (x &&& ~~~y)) ∧
    Gives (.shl p w d a b) s (one (x <<< (y.toNat % 64))) ∧ Gives (.shr p w d a b) s (one (x >>> (y.toNat % 64))) ∧
    Gives (.sra p w d a b) s (one (x.sshiftRight (y.toNat % 64))) ∧ Gives (.rotr p w d a b) s (one (x.rotateRight (y.toNat % 64))) ∧
    Gives (.min p w d a b) s (one (if x.toInt ≤ y.toInt then x else y)) ∧ Gives (.minn p w d a b) s (one (if x.toNat ≤ y.toNat then x else y)) ∧
    Gives (.max p w d a b) s (one (if x.toInt ≤ y.toInt then y else x)) ∧ Gives (.maxn p w d a b) s (one (if x.toNat ≤ y.toNat then y else x)) ∧
    Gives (.mul p w d a b) s (three (x * y)) ∧
    Gives (.mulh p w d a b) s (three (BitVec.ofInt 64 (x.toInt * y.toInt / 2 ^ 64))) ∧
    Gives (.mulhn p w d a b) s (three (BitVec.ofNat 64 (x.toNat * y.toNat / 2 ^ 64))) ∧
    Gives (.adds2 p w d a b) s (one (x + 4 * y)) ∧ Gives (.adds3 p w d a b) s (one (x + 8 * y)) ∧
    Gives (.adds6 p w d a b) s (one (x + 64 * y)) ∧ Gives (.adds10 p w d a b) s (one (x + 1024 * y))

/-- R110, R112 to R114, R116: MOV and POPC; the immediate forms, which read their destination register as their first input; SEL and BFI, which take
it as third input; BFX and BFI, which take the low bit position and the width from their second source; CLZ, which counts from the top. Each
result bit is the one the rule gives. -/
def Obligations.ScalarMoveFieldResults : Prop :=
  (∀ (s : State) (p : BitVec 3) (w : Bool) (d : BitVec 6) (i : BitVec 14) (k : BitVec 6), PredOn s p → FreeS s w d →
     let old := s.core.arch.sreg d
     let one (v : Word) : State := scalarOut s [] w d 1 v
     Gives (.addi p w d i) s (one (old + i.signExtend 64)) ∧ Gives (.andi p w d i) s (one (old &&& i.signExtend 64)) ∧
     Gives (.ori p w d i) s (one (old ||| i.signExtend 64)) ∧ Gives (.xori p w d i) s (one (old ^^^ i.signExtend 64)) ∧
     Gives (.shli p w d k) s (one (old <<< k.toNat)) ∧ Gives (.shri p w d k) s (one (old >>> k.toNat)) ∧
     Gives (.srai p w d k) s (one (old.sshiftRight k.toNat)) ∧ Gives (.movi p w d i) s (one (i.signExtend 64)) ∧
     ∀ (a : Src) (x : Word), s.readS .int a = .ok x →
       Gives (.mov p w d a) s (scalarOut s [a] w d 1 x) ∧
       Gives (.popc p w d a) s (scalarOut s [a] w d 1 (BitVec.ofNat 64 ((List.range 64).countP fun k => x.getLsbD k)))) ∧
  (∀ (s : State) (p : BitVec 3) (w : Bool) (d : BitVec 6) (a b : Src) (x y : Word),
     PredOn s p → s.readS .int a = .ok x → s.readS .int b = .ok y → FreeS s w d →
     let old := s.core.arch.sreg d
     let lo := y.toNat % 64
     let n := min (y.toNat / 2 ^ 8 % 2 ^ 7) 64
     let top := min n (64 - lo) - 1
     Gives (.sel p w d a b) s (scalarOut s [a, b] w d 1 (if old = 0#64 then y else x)) ∧
     (∃ v, Gives (.bfi p w d a b) s (scalarOut s [a, b] w d 1 v) ∧
       ∀ i < 64, v.getLsbD i = if lo ≤ i ∧ i < lo + n then x.getLsbD (i - lo) else old.getLsbD i) ∧
     (∃ v, Gives (.bfx p w d a b) s (scalarOut s [a, b] w d 1 v) ∧
       ∀ i < 64, v.getLsbD i = if n = 0 then false
         else if i ≤ top then x.getLsbD (lo + i) else (y.getLsbD 15 && x.getLsbD (lo + top))) ∧
     (∃ n ≤ 64, Gives (.clz p w d a) s (scalarOut s [a] w d 1 (BitVec.ofNat 64 n)) ∧
       (∀ i < n, x.getLsbD (63 - i) = false) ∧ (n < 64 → x.getLsbD (63 - n) = true)))

/-- R107, R117 to R119: the compares and the predicate logic write a predicate register one bundle on. -/
def Obligations.ScalarPredicateResults : Prop :=
  ∀ (s : State) (p : BitVec 3) (w : Bool) (d : BitVec 6) (a b : Src), PredOn s p →
    let one (c : Bool) : State := predOut s [a, b] w d 1 c
    (∀ x y : Word, s.readS .int a = .ok x → s.readS .int b = .ok y →
      Gives (.cmpeq p w d a b) s (one (decide (x = y))) ∧ Gives (.cmpne p w d a b) s (one (decide (x ≠ y))) ∧
      Gives (.cmplt p w d a b) s (one (decide (x.toInt < y.toInt))) ∧ Gives (.cmpltn p w d a b) s (one (decide (x.toNat < y.toNat))) ∧
      Gives (.cmple p w d a b) s (one (decide (x.toInt ≤ y.toInt))) ∧ Gives (.cmplen p w d a b) s (one (decide (x.toNat ≤ y.toNat)))) ∧
    (∀ x y : Bool, s.readP a = .ok x → s.readP b = .ok y →
      Gives (.pand p w d a b) s (one (x && y)) ∧ Gives (.por p w d a b) s (one (x || y)) ∧ Gives (.pxor p w d a b) s (one (x ^^ y))) ∧
    ∀ (r : BitVec 6) (q : BitVec 3) (i : BitVec 11),
      Gives (.cmpeqi p w r q i) s (predOut s [] w (q.setWidth 6) 1 (decide (s.core.arch.sreg r = i.signExtend 64))) ∧
      Gives (.cmplti p w r q i) s (predOut s [] w (q.setWidth 6) 1 (decide ((s.core.arch.sreg r).toInt < (i.signExtend 64).toInt)))

/-- R120, R121: the scalar floating forms complete with one rounding under ARITH.RM and ARITH.FTZ after four bundles, and raise
the flags of that rounding as their result lands; the minimum, maximum and compare forms raise none. -/
def Obligations.ScalarFloatResults : Prop :=
  ∀ (s : State) (f : FFmt) (p : BitVec 3) (w : Bool) (d : BitVec 6) (a b : Src) (x y : Word),
    PredOn s p → s.readS (FFmt.sty f) a = .ok x → s.readS (FFmt.sty f) b = .ok y → FreeS s w d →
    let g := FFmt.fmt f
    let n := 2 ^ g.width
    let rm := arithRM s.core.arch.arith
    let ftz := arithFTZ s.core.arch.arith
    let u := x.toNat % n
    let v := y.toNat % n
    let four (r : Nat × FlagSet) : State := scalarOut s [a, b] w d 4 (BitVec.ofNat 64 r.1) r.2
    Gives (.fadd f p w d a b) s (four (g.add rm ftz u v)) ∧ Gives (.fsub f p w d a b) s (four (g.sub rm ftz u v)) ∧
    Gives (.fmul f p w d a b) s (four (g.mul rm ftz u v)) ∧
    Gives (.ffma f p w d a b) s (four (g.fma rm ftz false u v ((s.core.arch.sreg d).toNat % n))) ∧
    Gives (.fmin f p w d a b) s (four (g.minMax ftz false u v, 0#6)) ∧ Gives (.fmax f p w d a b) s (four (g.minMax ftz true u v, 0#6)) ∧
    Gives (.fcmpeq f p w d a b) s (predOut s [a, b] w d 4 ((g.decode ftz u).eq (g.decode ftz v))) ∧
    Gives (.fcmplt f p w d a b) s (predOut s [a, b] w d 4 ((g.decode ftz u).lt (g.decode ftz v))) ∧
    Gives (.fcmple f p w d a b) s (predOut s [a, b] w d 4 ((g.decode ftz u).lt (g.decode ftz v) || (g.decode ftz u).eq (g.decode ftz v)))

/-- R123 to R125: the scalar conversions complete after four bundles: between the formats, to an integer type with the
bounds and flags of R123, and from an integer type. -/
def Obligations.ScalarConversionResults : Prop :=
  ∀ (s : State) (p : BitVec 3) (w : Bool) (d : BitVec 6) (a : Src) (t : IType) (r : Round) (x : Word), PredOn s p → FreeS s w d →
    let ftz := arithFTZ s.core.arch.arith
    let four (v : Nat × FlagSet) : State := scalarOut s [a] w d 4 (BitVec.ofNat 64 v.1) v.2
    (s.readS .f64 a = .ok x → Gives (.fcvts .f32 p w d a r) s (four (fp32.ofNum r ftz (fp64.decode ftz x.toNat)))) ∧
    (s.readS .f32 a = .ok x → Gives (.fcvts .f64 p w d a r) s (four (fp64.ofNum r ftz (fp32.decode ftz (x.toNat % 2 ^ 32))))) ∧
    (s.readS .int a = .ok x → ∀ f : FFmt,
      Gives (.fcvtf f p w d a t r) s (four ((FFmt.fmt f).ofInt r ftz (intOf (IType.width t) (IType.signed t) x.toNat)))) ∧
    ∀ f : FFmt, s.readS (FFmt.sty f) a = .ok x →
      let v := (FFmt.fmt f).decode ftz (x.toNat % 2 ^ (FFmt.fmt f).width)
      let lo := intMin (IType.width t) (IType.signed t)
      let hi := intMax (IType.width t) (IType.signed t)
      let out (n : Int) (g : FlagSet) : State := scalarOut s [a] w d 4 (BitVec.ofInt 64 n) g
      match v with
      | .nan => Gives (.fcvti f p w d a t r) s (out 0 fIV)
      | .inf neg => Gives (.fcvti f p w d a t r) s (out (if neg then lo else hi) fIV)
      | .fin _ _ _ =>
        let q := v.toInt r
        Gives (.fcvti f p w d a t r) s
          (if q.1 < lo then out lo fIV else if hi < q.1 then out hi fIV else out q.1 (if q.2 then 0#6 else fNX))

/-! ### Vector forms -/

namespace Sys2Proof.Machine

/-- An element operation on every active lane of two vectors, with the flags of the active elements (R46, R86, R139). -/
def byLane2 (t : VType) (m : LaneMask) (f : Nat → Nat → Nat × FlagSet) (x y : Lanes) : Lanes × FlagSet :=
  runLanes m fun i => laneOp2 (elemWidth t) f (lane x i) (lane y i)

/-- A vector form with sources `a` and `b` on its way, its lanes written under the slot's mask. -/
def lanesOut (s : State) (as : List Src) (p : BitVec 3) (w : Bool) (d : BitVec 6) (lat : Nat) (r : Lanes × FlagSet) : State :=
  vectorOut s as w d lat r.1 (s.core.arch.mreg p.toNat) (s.core.arch.mreg p.toNat) r.2

/-- An element read as a number of an integer type, and a number written back modulo the width (R81). -/
def elemInt (t : VType) (x : Nat) : Int := intOf (elemWidth t) (elemSigned t) x

end Sys2Proof.Machine

/-- R137, R139, R146, R147: the vector arithmetic forms complete under every lane mask, element by element: floating elements
with one rounding, integer elements modulo their width, the saturating forms at the bounds with SAT, each after the latency
of R50. -/
def Obligations.VectorArithmeticResults : Prop :=
  ∀ (s : State) (t : VType) (p : BitVec 3) (w : Bool) (d : BitVec 6) (a b : Src) (x y : Lanes),
    s.readV (.ty t) a = .ok x → s.readV (.ty t) b = .ok y → FreeV s w d →
    let m := s.core.arch.mreg p.toNat
    let rm := arithRM s.core.arch.arith
    let ftz := arithFTZ s.core.arch.arith
    let n := elemWidth t
    let g := elemFmt t
    let fl := t.isFloat
    let lat := if fl then 4 else 2
    let out (l : Nat) (f : Nat → Nat → Nat × FlagSet) : State := lanesOut s [a, b] p w d l (byLane2 t m f x y)
    let wrap (f : Int → Int → Int) (u v : Nat) : Nat × FlagSet := (wrapTo n (f (elemInt t u) (elemInt t v)), 0#6)
    let sat (f : Int → Int → Int) (u v : Nat) : Nat × FlagSet :=
      let r := satTo n (elemSigned t) (f (elemInt t u) (elemInt t v))
      (wrapTo n r.1, if r.2 then fSAT else 0#6)
    let third (f : Nat → Nat → Nat → Nat × FlagSet) : Lanes × FlagSet :=
      runLanes m fun i => laneOp3 n f (lane x i) (lane y i) (lane (s.core.arch.vreg d) i)
    Gives (.vadd t p w d a b) s (out lat (if fl then g.add rm ftz else wrap (· + ·))) ∧
    Gives (.vsub t p w d a b) s (out lat (if fl then g.sub rm ftz else wrap (· - ·))) ∧
    Gives (.vmul t p w d a b) s (out lat (if fl then g.mul rm ftz else wrap (· * ·))) ∧
    Gives (.vfma t p w d a b) s (lanesOut s [a, b] p w d lat
      (third (if fl then g.fma rm ftz false else fun u v z => ((u * v + z) % 2 ^ n, 0#6)))) ∧
    Gives (.vfms t p w d a b) s (lanesOut s [a, b] p w d 4 (third (g.fma rm ftz true))) ∧
    Gives (.vadds t p w d a b) s (out 2 (sat (· + ·))) ∧ Gives (.vsubs t p w d a b) s (out 2 (sat (· - ·))) ∧
    (fl = true → Gives (.vmin t p w d a b) s (out 2 fun u v => (g.minMax ftz false u v, 0#6)) ∧
      Gives (.vmax t p w d a b) s (out 2 fun u v => (g.minMax ftz true u v, 0#6))) ∧
    (fl = false → Gives (.vmin t p w d a b) s (out 2 fun u v => (if elemInt t u < elemInt t v then u else v, 0#6)) ∧
      Gives (.vmax t p w d a b) s (out 2 fun u v => (if elemInt t u < elemInt t v then v else u, 0#6)))

/-- R46, R147 to R149, R151, R152: the sign forms, the shifts by element, the lane logic, the compares and the moves complete under every lane mask.
A compare sets a lane's bit when its relation holds for each element of the lane; VSEL and VINS write every lane whatever the mask; VXTR gives a
scalar. -/
def Obligations.VectorLogicMoveResults : Prop :=
  (∀ (s : State) (t : VType) (p : BitVec 3) (w : Bool) (d : BitVec 6) (a b : Src),
     let m := s.core.arch.mreg p.toNat
     let ftz := arithFTZ s.core.arch.arith
     let n := elemWidth t
     let g := elemFmt t
     (∀ x y : Lanes, s.readV (.ty t) a = .ok x → s.readV (.ty t) b = .ok y →
       let rel (ff : Sys2Proof.Machine.Num → Sys2Proof.Machine.Num → Bool) (fi : Int → Int → Bool) (i : Nat) : Bool :=
         (List.range (32 / n)).all fun k =>
           if t.isFloat then ff (g.decode ftz (elemAt n k (lane x i))) (g.decode ftz (elemAt n k (lane y i)))
           else fi (elemInt t (elemAt n k (lane x i))) (elemInt t (elemAt n k (lane y i)))
       Gives (.vcmpeq t p w d a b) s (maskOut s [a, b] w d 2 (maskTab (rel Num.eq fun u v => decide (u = v))) m) ∧
       Gives (.vcmplt t p w d a b) s (maskOut s [a, b] w d 2 (maskTab (rel Num.lt fun u v => decide (u < v))) m) ∧
       Gives (.vcmple t p w d a b) s (maskOut s [a, b] w d 2 (maskTab (rel (fun u v => u.lt v || u.eq v) fun u v => decide (u ≤ v))) m) ∧
       (FreeV s w d →
         Gives (.vshl t p w d a b) s (lanesOut s [a, b] p w d 2 (byLane2 t m (fun u v => (u * 2 ^ (v % n) % 2 ^ n, 0#6)) x y)) ∧
         Gives (.vshr t p w d a b) s (lanesOut s [a, b] p w d 2
           (byLane2 t m (fun u v => (wrapTo n (elemInt t u / 2 ^ (v % n)), 0#6)) x y)))) ∧
     (∀ x : Lanes, s.readV (.ty t) a = .ok x → FreeV s w d →
       let sign (neg : Bool) (u : Nat) : Nat × FlagSet :=
         (if t.isFloat then
           (if (g.decode false u).isNan then g.nanBits
            else if neg && !u.testBit (n - 1) then u % 2 ^ (n - 1) + 2 ^ (n - 1) else u % 2 ^ (n - 1))
          else wrapTo n (if neg || decide (intOf n true u < 0) then -intOf n true u else intOf n true u), 0#6)
       Gives (.vabs t p w d a) s (lanesOut s [a] p w d 2 (runLanes m fun i => laneOp2 n (fun u _ => sign false u) (lane x i) 0#32)) ∧
       Gives (.vneg t p w d a) s (lanesOut s [a] p w d 2 (runLanes m fun i => laneOp2 n (fun u _ => sign true u) (lane x i) 0#32))) ∧
     (∀ x y : Lanes, s.readV .raw a = .ok x → s.readV .raw b = .ok y → FreeV s w d →
       let whole (f : BitVec 32 → BitVec 32 → BitVec 32) : State :=
         lanesOut s [a, b] p w d 2 (runLanes m fun i => (f (lane x i) (lane y i), 0#6))
       Gives (.vand p w d a b) s (whole (· &&& ·)) ∧ Gives (.vor p w d a b) s (whole (· ||| ·)) ∧
       Gives (.vxor p w d a b) s (whole (· ^^^ ·)) ∧ Gives (.vandn p w d a b) s (whole fun u v => u &&& ~~~v))) ∧
  (∀ (s : State) (p : BitVec 3) (w : Bool) (d : BitVec 6) (a b : Src),
     let m := s.core.arch.mreg p.toNat
     let all := BitVec.allOnes 128
     (∀ x y : Lanes, s.readV .raw a = .ok x → s.readV .raw b = .ok y → FreeV s w d →
       Gives (.vsel p w d a b) s (vectorOut s [a, b] w d 2 (mergeLanes m x y) all all) ∧
       Gives (.vmov p w d a) s (vectorOut s [a] w d 2 x m m)) ∧
     (∀ x y : Word, s.readS .int a = .ok x → s.readS .int b = .ok y → FreeV s w d →
       let l := y.toNat % 128
       Gives (.vsplat p w d a) s (vectorOut s [a] w d 2 (laneTab fun _ => x.setWidth 32) m m) ∧
       Gives (.vins p w d a b) s (vectorOut s [a, b] w d 2
         (laneTab fun i => if i = l ∧ m.getLsbD l then x.setWidth 32 else lane (s.core.arch.vreg d) i) all all)) ∧
     (∀ (x : Lanes) (y : Word), s.readV .raw a = .ok x → s.readS .int b = .ok y → FreeS s w d →
       Gives (.vxtr w d a b) s (scalarOut s [a, b] w d 4 ((lane x (y.toNat % 128)).setWidth 64))))

/-- R158, R159: each lane of a permute takes the lane of its first source that the rule names: within its cluster of 16 for
VPERM, VROT and VBCL, from another cluster for VXCOPY and VXROT. -/
def Obligations.VectorPermuteResults : Prop :=
  ∀ (s : State) (p : BitVec 3) (w : Bool) (d : BitVec 6) (a b : Src) (x y : Lanes),
    s.readV .raw a = .ok x → s.readV .raw b = .ok y → FreeV s w d →
    let low (i k : Nat) : Nat := (lane y i).toNat % 2 ^ k
    let out (lat : Nat) (from' : Nat → Nat) : State :=
      lanesOut s [a, b] p w d lat (runLanes (s.core.arch.mreg p.toNat) fun i => (lane x (from' i), 0#6))
    let first (i : Nat) : Nat := i / 16 * 16
    Gives (.vperm p w d a b) s (out 2 fun i => first i + low i 4) ∧
    Gives (.vrot p w d a b) s (out 2 fun i => first i + (i % 16 + low (first i) 4) % 16) ∧
    Gives (.vbcl p w d a b) s (out 2 fun i => first i + low (first i) 4) ∧
    Gives (.vxcopy p w d a b) s (out 4 fun i => 16 * low (first i) 3 + i % 16) ∧
    Gives (.vxrot p w d a b) s (out 4 fun i => 16 * ((i / 16 + low 0 3) % 8) + i % 16)

/-- R150: the mask forms write a mask register under the slot's own mask, and VMPOP counts a mask into a scalar. -/
def Obligations.MaskResults : Prop :=
  ∀ (s : State) (p : BitVec 3) (w : Bool) (d : BitVec 6) (a b : Src) (x y : LaneMask), s.readM a = .ok x → s.readM b = .ok y →
    let m := s.core.arch.mreg p.toNat
    Gives (.vmand p w d a b) s (maskOut s [a, b] w d 1 (x &&& y) m) ∧ Gives (.vmor p w d a b) s (maskOut s [a, b] w d 1 (x ||| y) m) ∧
    Gives (.vmxor p w d a b) s (maskOut s [a, b] w d 1 (x ^^^ y) m) ∧ Gives (.vmandn p w d a b) s (maskOut s [a, b] w d 1 (x &&& ~~~y) m) ∧
    Gives (.vmnot p w d a) s (maskOut s [a] w d 1 (~~~x) m) ∧
    (FreeS s w d → Gives (.vmpop w d a) s (scalarOut s [a] w d 2 (BitVec.ofNat 64 ((List.range 128).countP fun i => x.getLsbD i))))

/-- R102, R103, R153 to R156, R160, R161: the conversions, the FX64 forms, the reductions and the scan complete, and say what
they put in flight: a conversion also steps the generators of its active elements under stochastic rounding; a reduction
writes lane 0 of each cluster with the result of the pairwise tree; a scan writes every active lane. -/
def Obligations.VectorConversionReductionResults : Prop :=
  ∀ (s : State) (t u : VType) (p : BitVec 3) (w : Bool) (d : BitVec 6) (a : Src) (r : Round) (x : Lanes), FreeV s w d →
    let m := s.core.arch.mreg p.toNat
    let rm := arithRM s.core.arch.arith
    let ftz := arithFTZ s.core.arch.arith
    let fl := t.isFloat
    let g := elemFmt t
    let conv (c : Lanes × FlagSet × Lanes) : State :=
      vectorOut { s with core := { s.core with arch := { s.core.arch with gens := c.2.2 } } } [a] w d 3 c.1 m m c.2.1
    let sum : Nat → Nat → Nat × FlagSet :=
      if fl then g.add rm ftz else fun v z => (wrapTo (elemWidth t) (elemInt t v + elemInt t z), 0#6)
    let best (big : Bool) (v z : Nat) : Nat × FlagSet :=
      (if fl then g.minMax ftz big v z else if decide (elemInt t v < elemInt t z) != big then v else z, 0#6)
    let trees (f : Nat → Nat → Nat × FlagSet) : List (Option Nat × FlagSet) :=
      (List.range 8).map fun c => treeUp f (treeLevels t) (clusterElems t ftz m x c)
    let reduced (f : Nat → Nat → Nat × FlagSet) (absent : Nat) : State :=
      vectorOut s [a] w d 6 (laneTab fun i => if i % 16 = 0 then BitVec.ofNat 32 ((((trees f).getD (i / 16) (none, 0#6)).1).getD absent) else 0#32)
        (m &&& maskTab fun i => i % 16 = 0) m ((trees f).foldl (fun h c => h ||| c.2) 0#6)
    (s.readV (.ty u) a = .ok x →
      Gives (.vcvt t p w d a u r) s (conv (convLanes m (convElem u t r ftz) (decide (r = .stoch)) (elemWidth u) (elemWidth t) x s.core.arch.gens))) ∧
    (∀ (k : XType) (n : Bool), s.readV (XType.field k u) a = .ok x →
      let wide := elemWidth u
      let narrow := XType.narrows k
      Gives (.vcvtx k p w d a u r n) s (conv (convLanes m (convElem8 k u r n ftz) (decide (r = .stoch))
        (if narrow then wide else 8) (if narrow then 8 else wide) x s.core.arch.gens))) ∧
    (∀ (b : Src) (y : Lanes), s.readV .fx b = .ok y →
      let fx (lat : Nat) (f : Nat → Nat × FlagSet) : State :=
        let q := runFx m f
        vectorOut s [a, b] w d lat q.1 (maskTab fun i => m.getLsbD (i / 2 * 2)) m q.2
      (s.readV .fx a = .ok x →
        Gives (.vfxadd p w d a b) s (fx 2 fun j => (wrapTo 64 (fxAdd (fxElem x j) (fxElem y j)).1, (fxAdd (fxElem x j) (fxElem y j)).2)) ∧
        Gives (.vfxcvtf p w d a b) s (fx 3 fun j =>
          fp32.ofNum rm ftz (.fin (decide (fxElem x j < 0)) (fxElem x j).natAbs (-(fxPoint y j : Int))))) ∧
      (s.readV (.ty .f32) a = .ok x →
        Gives (.vfxcvt p w d a b) s (fx 3 fun j => toFx64 (fp32.decode ftz (lane x (2 * j)).toNat) (fxPoint y j)))) ∧
    (s.readV (.ty t) a = .ok x →
      Gives (.vredadd t p w d a) s (reduced sum 0) ∧
      Gives (.vredmin t p w d a) s (reduced (best false) (if fl then g.infBits else wrapTo 32 (intMax 32 (elemSigned t)))) ∧
      Gives (.vredmax t p w d a) s (reduced (best true) (if fl then g.signed true g.infBits else wrapTo 32 (intMin 32 (elemSigned t)))) ∧
      (let scans := (List.range 8).map fun c =>
          scanSteps sum ((clusterElems t ftz m x c).map Option.isSome) (treeLevels t) 1 (clusterElems t ftz m x c)
       let n := elemCount t
       Gives (.vscan t p w d a) s (vectorOut s [a] w d 6
          (laneTab fun i => BitVec.ofNat 32
            (digits (elemWidth t) (fun k => ((((scans.getD (i / 16) ([], 0#6)).1).getD (i % 16 * n + k) none).getD 0)) n 0))
          m m (scans.foldl (fun h c => h ||| c.2) 0#6))))

/-- R189 to R191: each special-function form completes on every active lane with the value and the flags of its function, after
8 bundles, or 12 for FP32 SQRT and for DIV; SQRT and DIV round under ARITH.RM. -/
def Obligations.SpecialFunctionResults : Prop :=
  ∀ (s : State) (t : FTy) (p : BitVec 3) (w : Bool) (d : BitVec 6) (a : Src) (x : Lanes),
    s.readV (.ty (FTy.elem t)) a = .ok x → FreeV s w d →
    let m := s.core.arch.mreg p.toNat
    let ftz := arithFTZ s.core.arch.arith
    let g := elemFmt (FTy.elem t)
    let out (lat : Nat) (f : Fmt → Bool → Sys2Proof.Machine.Num → Nat × FlagSet) : State :=
      lanesOut s [a] p w d lat (runLanes m fun i => laneOp2 (elemWidth (FTy.elem t)) (fun u _ => f g ftz (g.decode ftz u)) (lane x i) 0#32)
    Gives (.exp2 t p w d a) s (out 8 sfExp2) ∧ Gives (.log2 t p w d a) s (out 8 (sfLog true)) ∧
    Gives (.exp t p w d a) s (out 8 sfExp) ∧ Gives (.log t p w d a) s (out 8 (sfLog false)) ∧
    Gives (.rcp t p w d a) s (out 8 sfRcp) ∧ Gives (.rsqrt t p w d a) s (out 8 sfRsqrt) ∧
    Gives (.tanh t p w d a) s (out 8 (sfOdd tanhApprox)) ∧ Gives (.sigmoid t p w d a) s (out 8 sfSigmoid) ∧
    Gives (.erf t p w d a) s (out 8 (sfOdd erfApprox)) ∧ Gives (.sin t p w d a) s (out 8 (sfTrig false)) ∧
    Gives (.cos t p w d a) s (out 8 (sfTrig true)) ∧
    Gives (.sqrt t p w d a) s (out (if t = .f32 then 12 else 8) (sfSqrt (arithRM s.core.arch.arith))) ∧
    ∀ (b : Src) (y : Lanes), t = .f32 → s.readV (.ty .f32) b = .ok y →
      Gives (.div p w d a b) s (lanesOut s [a, b] p w d 12
        (byLane2 .f32 m (fun u v => sfDiv (arithRM s.core.arch.arith) fp32 ftz (fp32.decode ftz u) (fp32.decode ftz v)) x y))

/-! ### The matrix array -/

namespace Sys2Proof.Machine

/-- The value of stream register `n` that a form uses: its snapshot, or the register where none was taken yet (R166). -/
def streamOf (s : State) (n : Nat) : Block :=
  if vget false s.core.arch.snapOk n then vget 0#512 s.core.arch.snap n else vget 0#512 s.core.arch.g n

/-- The ring that a stream value names, ready with a whole entry for a form that reads `needs` of it (R167, R199). -/
def streamReady (s : State) (v : Block) (needs : Nat × Nat) (fx : Bool) : Prop :=
  strInvalid v (s.core.decl.ringLen (strRing v)) needs.1 needs.2 fx = false ∧ strEntry v ≤ (vget {} s.core.pad.rings (strRing v)).ready

/-- The bytes of the entry at the head of the ring that a stream value names (R168, R169). -/
def entryBytes (s : State) (v : Block) : List Byte :=
  let k := strRing v
  (upFrom 0 (strEntry v)).map fun i =>
    cellAt s.core.pad.bytes (s.core.decl.ringBase k + swizzle v (((vget {} s.core.pad.rings k).head + i) % s.core.decl.ringLen k))

/-- What popping that entry does to the scratchpad: the head moves on, and the bytes are held instead of ready (R199). -/
def entryPopped (s t : State) (v : Block) : Prop :=
  let k := strRing v
  let old := vget {} s.core.pad.rings k
  vget {} t.core.pad.rings k =
      { old with head := (old.head + strEntry v) % s.core.decl.ringLen k, ready := old.ready - strEntry v, held := old.held + strEntry v } ∧
    (∀ j < 8, j ≠ k → vget {} t.core.pad.rings j = vget {} s.core.pad.rings j) ∧ t.core.pad.bytes = s.core.pad.bytes

/-- What no form of the array touches: the registers, the hub with device memory's order, and every byte of memory. -/
def arrayFrame (s t : State) : Prop :=
  t.core.arch.s = s.core.arch.s ∧ t.core.arch.v = s.core.arch.v ∧ t.core.arch.m = s.core.arch.m ∧ t.core.arch.p = s.core.arch.p ∧
  t.core.arch.pc = s.core.arch.pc ∧ t.core.arch.arith = s.core.arch.arith ∧ t.hub = s.hub ∧ t.port = s.port ∧ t.mem = s.mem

/-- The active plane is full, its K-rows all loaded, and a stream format with a GANG field fits it (R170, R178). -/
def planeFits (s : State) (f : BitVec 4) (g : Gang) : Prop :=
  let q := vget {} s.core.arch.planes (b2n s.core.arch.active)
  q.rows ≠ [] ∧ (∀ r ∈ q.rows, r.isSome = true) ∧ gangFits f q.fmt q.gang g = true

end Sys2Proof.Machine

/-- R173, R176, R177: MXPUSH and MXSHIFT pop one entry of their ring and put a load of the plane that their destination names on
its way, which applies four bundles on; they write no register and no byte of memory. -/
def Obligations.MatrixLoadResults : Prop :=
  ∀ (s : State) (p : BitVec 3) (g : Gang) (d : BitVec 5) (a : Src), PredOn s p →
    let v := streamOf s (Src.number a)
    let f := strFmt v
    (streamReady s v (tileNeeds v (gangK g)) false → gangB g f = true →
      ∃ t, Gives (.mxpush p g d a) s t ∧ arrayFrame s t ∧ entryPopped s t v ∧ t.core.arch.a = s.core.arch.a ∧
        t.core.arch.loads = s.core.arch.loads ++
          [{ left := 4, plane := decide (d ≠ 0#5), shift := false, fmt := f, gang := g,
             rows := (upFrom 0 (64 * gangK g)).map (tileRow v (entryBytes s v)) }]) ∧
    (streamReady s v (shiftNeeds v) false → fmtMx f = false → strScaled v = false →
      (let q := vget {} (loadPlanes s.core.arch.planes s.core.arch.loads) (b2n (decide (d ≠ 0#5)))
       q.rows = [] ∨ (q.fmt = f ∧ q.gang = .g88)) →
      ∃ t, Gives (.mxshift p d a) s t ∧ arrayFrame s t ∧ entryPopped s t v ∧ t.core.arch.a = s.core.arch.a ∧
        t.core.arch.loads = s.core.arch.loads ++
          [{ left := 4, plane := decide (d ≠ 0#5), shift := true, fmt := f, gang := .g88,
             rows := [{ elems := elemCodes (fmtWidth f) 64 (entryBytes s v), scales := [] }] }])

/-- R178 to R181: a beat pops one entry and adds to one row of its tile, or of a tile pair, the products of the entry with the columns of the active
plane: an FP32 row in one rounding, an I32 row modulo 2^32, an FX64 row with absorbing bounds, and nothing else changes. MXDRAIN pushes two rows of
a tile, or one row of a tile pair with its words interleaved, six bundles on, and clears what it reads when bit 7 of its operand is set; MXZERO
clears a tile; MXSWAP changes the active plane. -/
def Obligations.MatrixComputeResults : Prop :=
  (∀ (s : State) (p : BitVec 3) (g : Gang) (d : BitVec 5) (a b : Src) (r : Word), PredOn s p → s.readS .int b = .ok r →
     let v := streamOf s (Src.number a)
     let q := vget {} s.core.arch.planes (b2n s.core.arch.active)
     let row := r.toNat % 64
     let rm := arithRM s.core.arch.arith
     let ftz := arithFTZ s.core.arch.arith
     let ps (j : Nat) := products q.fmt ftz j (rowVals v ftz (entryBytes s v) (64 * gangK g)) (q.rows.filterMap id)
     let old (k : Nat) (j : Nat) : BitVec 32 := rowElem (s.core.arch.tileRow k row) j
     (d.toNat < s.core.decl.nacc → d.toNat < 8 → streamReady s v (rowNeeds v (gangK g)) false → planeFits s (strFmt v) g →
       ∃ t, Gives (.mxacc p g d a b) s t ∧ arrayFrame s t ∧ entryPopped s t v ∧ vget 8 t.core.arch.sinceBeat d.toNat = 0 ∧
         (∀ j < 64, rowElem (t.core.arch.tileRow d.toNat row) j =
           if fmtInt (strFmt v) then beatInt (old d.toNat j) (ps j) else (beatFp rm ftz (old d.toNat j) (ps j)).1) ∧
         ∀ k i, i < 64 → (k ≠ d.toNat ∨ i ≠ row) → t.core.arch.tileRow k i = s.core.arch.tileRow k i) ∧
     (d.toNat + 1 < s.core.decl.nacc → d.toNat + 1 < 8 → streamReady s v (rowNeeds v (gangK g)) true → planeFits s (strFmt v) g →
       ∃ t, Gives (.mxaccx p g d a b) s t ∧ arrayFrame s t ∧ entryPopped s t v ∧
         (∀ j < 64, rowElem (t.core.arch.tileRow (d.toNat + 1) row) j ++ rowElem (t.core.arch.tileRow d.toNat row) j =
           (beatFx (strFxp v) (old (d.toNat + 1) j ++ old d.toNat j) (ps j)).1) ∧
         ∀ k i, i < 64 → ((k ≠ d.toNat ∧ k ≠ d.toNat + 1) ∨ i ≠ row) → t.core.arch.tileRow k i = s.core.arch.tileRow k i)) ∧
  (∀ (s : State) (p : BitVec 3) (d : BitVec 5), PredOn s p →
     (∀ (a b : Src) (c : Word), s.readS .int b = .ok c → d.toNat < 8 →
       let t0 := Src.number a
       let row := c.toNat % 64
       let pair := c.getLsbD 6
       let q : BitVec 3 := d.setWidth 3
       let tiles := if pair then [t0, t0 + 1] else [t0]
       let rows : List (Nat × Nat) := if pair then [(t0, row), (t0 + 1, row)] else [(t0, row / 2 * 2), (t0, row / 2 * 2 + 1)]
       let part (k : Nat) : TileRow := s.core.arch.tileRow (rows.getD k (0, 0)).1 (rows.getD k (0, 0)).2
       s.core.hasQueue q = true → (∀ k ∈ tiles, k < s.core.decl.nacc ∧ k < 8 ∧ 8 ≤ vget 8 s.core.arch.sinceBeat k) → (pair = true → t0 % 2 = 0) →
       ∃ t, Gives (.mxdrain p d a b) s t ∧ arrayFrame s t ∧
         t.core.flights = (inFlight s [a, b] 6 (.queue q)
           (.vector (laneTab fun i => if pair then rowElem (part (i % 2)) (i / 2) else rowElem (part (i / 64)) (i % 64)))
           (BitVec.allOnes 128) 0#6).core.flights ∧
         ∀ k i, k < 8 → i < 64 → t.core.arch.tileRow k i =
           if c.getLsbD 7 ∧ (k, i) ∈ rows then 0#2048 else s.core.arch.tileRow k i) ∧
     (d.toNat < s.core.decl.nacc → d.toNat < 8 → ∃ t, Gives (.mxzero p d) s t ∧ arrayFrame s t ∧
       ∀ k i, k < 8 → i < 64 → t.core.arch.tileRow k i = if k = d.toNat then 0#2048 else s.core.arch.tileRow k i) ∧
     Gives (.mxswap p) s { s with core := { s.core with arch := { s.core.arch with active := !s.core.arch.active } } })

/-! ### Loads, stores and the stash -/

namespace Sys2Proof.Machine

/-- The accesses of a form, by virtual address, translate and are permitted, to the physical addresses `ps` (R237, R359). -/
def Reaches (s : State) (as : List Src) (write : Bool) (vas : List Word) (ps : List Nat) : Prop :=
  ∃ t, (s.pops as).reach write vas = .ok (ps, t)

/-- No anchor has to be taken first (R224). -/
def NoAnchorDue (s : State) : Prop := s.core.conflicts < 4 ∨ s.core.anchored = true

/-- What a slot leaves as it was that reads or writes memory but no register: the registers that rollback restores, the
scratchpad's bytes, and every byte of device memory. -/
def memFrame (s t : State) : Prop :=
  t.core.arch = s.core.arch ∧ t.core.pad.bytes = s.core.pad.bytes ∧ t.core.latches = s.core.latches ∧ t.port = s.port ∧
  ∀ a, cellAt t.mem a = cellAt s.mem a

/-- An entry reserved at the tail of queue `k` for a load of bytes at `pas` (R203, R240); the other queues are as before. -/
def loadQueued (s t : State) (k : BitVec 3) (pas : List Nat) (fmt : LoadFmt) : Prop :=
  (∃ e, (t.core.queueAt k).entries = (s.core.queueAt k).entries ++ [e] ∧ e.filled = false ∧ e.kind = .load ∧
      e.req = some { bytes := pas.map fun a => (a, s.core.forwarded a), fmt := fmt, after := s.core.firstStore }) ∧
    (∀ j, j ≠ k → t.core.queueAt j = s.core.queueAt j) ∧ Action.queueLoadFill s.cur ∈ t.due

/-- Bytes withheld until a checkpoint confirms (R206, R243): a later load finds the last one stored at an address, and every
other address as before. -/
def storesHeld (s t : State) (cs : List Host.Cell) : Prop :=
  ∀ a, t.core.forwarded a = ((cs.reverse.find? fun c => decide (c.1 = a)).map (·.2)).or (s.core.forwarded a)

/-- The bytes of a direct store that fall in stash rows, by virtual address (R201). -/
def farCells (s : State) (cs : List Host.Cell) : List (Word × Byte) :=
  cs.filterMap fun c => (s.core.decl.stashPlace c.1).bind fun q => (s.core.stashVa q.1 q.2).map fun w => (w, c.2)

/-- What a direct store does with its bytes: those in stash rows are withheld at the addresses `ps`, those of the raw region
land at the next bundle (R201, R242). -/
def directStored (s t : State) (cs : List Host.Cell) (ps : List Nat) : Prop :=
  let raw := cs.filter fun c => (s.core.decl.stashPlace c.1).isNone
  memFrame s t ∧ storesHeld s t (ps.zip ((farCells s cs).map (·.2))) ∧
    ∃ f, t.core.flights = s.core.flights ++ [f] ∧ f.left = 1 ∧ f.dest = if raw = [] then .none else .raw raw

end Sys2Proof.Machine

/-- R203, R219, R237, R238, R240: a queue load at an aligned address that translates reserves an entry of a declared queue and
makes its data due; no register and no byte of memory changes. -/
def Obligations.QueueLoadResults : Prop :=
  ∀ (s : State) (p : BitVec 3) (d : BitVec 6) (a b : Src) (x : Word) (ps : List Nat),
    PredOn s p → NoAnchorDue s → s.readS .int a = .ok x → s.core.hasQueue (d.setWidth 3) = true →
    let k : BitVec 3 := d.setWidth 3
    (∀ (ty : LdTy) (y : Word), s.readS .int b = .ok y → (x + y).toNat % (ldShape ty).1 = 0 → Reaches s [a, b] false [x + y] ps →
      ∃ t, Gives (.ldq ty p d a b) s t ∧ memFrame s t ∧ loadQueued s t k (spread (ldShape ty).1 ps) (.scalar (ldShape ty).2)) ∧
    (∀ y : Word, s.readS .int b = .ok y → (x + y).toNat % 4 = 0 → Reaches s [a, b] false (pieces (x + y) 4 128) ps →
      ∃ t, Gives (.ldqv p d a b) s t ∧ memFrame s t ∧ loadQueued s t k (spread 4 ps) .lanes) ∧
    (∀ (ty : GaTy) (v : Lanes), s.readV .raw b = .ok v →
      let vas := (upFrom 0 128).map fun i => x + (lane v i).setWidth 64
      (∀ va ∈ vas, va.toNat % gatherSize ty = 0) → Reaches s [a, b] false vas ps →
      ∃ t, Gives (.gather ty p d a b) s t ∧ memFrame s t ∧ loadQueued s t k (spread (gatherSize ty) ps) (.gather (gatherSize ty)))

/-- R193, R195, R201, R206, R216, R219, R242: a direct load of the scratchpad whose bytes are in the raw region or in bound stash rows whose lines
are present reads them at issue, forwarded stores first, and lands five bundles on. One that reads a stash line comes after the queue loads issued
before it: they are performed first, and a line whose lease their times pass is fetched again. -/
def Obligations.ScratchLoadResults : Prop :=
  ∀ (s : State) (p : BitVec 3) (d : BitVec 6) (a b : Src) (x y : Word), PredOn s p → NoAnchorDue s →
    s.readS .int a = .ok x → s.readS .int b = .ok y →
    let off := (x + y).toNat
    let here (n : Nat) : State := if s.core.decl.stashLines off n = [] then s.pops [a, b] else (s.pops [a, b]).loadsBefore off n
    let bytes (n : Nat) : Nat := ofBytes ((upFrom off n).map (here n).core.directByte)
    let frame (t : State) (n : Nat) : Prop :=
      t.core.arch = s.core.arch ∧ t.mem = s.mem ∧ t.port = s.port ∧
        (s.core.oldestLoad = none ∨ s.core.decl.stashLines off n = [] → memFrame s t ∧ ∀ o, (here n).core.directByte o = s.core.directByte o)
    (s.directOk off 512 = .ok () → off % 4 = 0 → s.core.linesToFill off 512 = [] → FreeV s false d →
      ∃ t, Gives (.lds p d a b) s t ∧ frame t 512 ∧ t.core.flights =
        (vectorOut s [a, b] false d 5 (BitVec.ofNat 4096 (bytes 512)) (BitVec.allOnes 128) (BitVec.allOnes 128)).core.flights) ∧
    (s.directOk off 8 = .ok () → off % 8 = 0 → s.core.linesToFill off 8 = [] → FreeS s false d →
      ∃ t, Gives (.ldss p d a b) s t ∧ frame t 8 ∧
        t.core.flights = (scalarOut s [a, b] false d 5 (BitVec.ofNat 64 (bytes 8))).core.flights)

/-- R201, R206, R238, R242, R243: a store at aligned addresses that translate withholds its bytes, and a later load of the unit
finds them; a vector store writes the lanes of the mask that its queue operands carry; a direct store of the raw region lands
at the next bundle. No register changes, and no byte of memory before a checkpoint confirms. -/
def Obligations.StoreResults : Prop :=
  ∀ (s : State) (p : BitVec 3) (d : BitVec 6) (a b : Src) (ps : List Nat), PredOn s p →
    let base := s.core.arch.sreg d
    (∀ (ty : StTy) (x y : Word), s.readS .int a = .ok x → s.readS .int b = .ok y →
      (base + x).toNat % stSize ty = 0 → Reaches s [a, b] true [base + x] ps →
      ∃ t, Gives (.st ty p d a b) s t ∧ memFrame s t ∧ storesHeld s t ((spread (stSize ty) ps).zip (toBytes (stSize ty) y.toNat))) ∧
    (∀ (x : Word) (v : Lanes) (m : LaneMask), s.readS .int a = .ok x → s.readVM .raw b = .ok (v, m) → (base + x).toNat % 4 = 0 →
      let ls := maskLanes m
      Reaches s [a, b] true (ls.map fun i => base + x + BitVec.ofNat 64 (4 * i)) ps →
      ∃ t, Gives (.stv p d a b) s t ∧ memFrame s t ∧ storesHeld s t ((ls.zip ps).flatMap (laneCells v))) ∧
    (∀ (o v : Lanes) (m n : LaneMask), s.readVM .raw a = .ok (o, m) → s.readVM .raw b = .ok (v, n) →
      let ls := maskLanes (m &&& n)
      let vas := ls.map fun i => base + (lane o i).setWidth 64
      (∀ va ∈ vas, va.toNat % 4 = 0) → Reaches s [a, b] true vas ps →
      ∃ t, Gives (.scatter p d a b) s t ∧ memFrame s t ∧ storesHeld s t ((ls.zip ps).flatMap (laneCells v))) ∧
    (∀ x y : Word, s.readS .int a = .ok x → s.readS .int b = .ok y →
      let off := (base + x).toNat
      let cells : List Host.Cell := (toBytes 8 y.toNat).zipIdx.map fun c => (off + c.2, c.1)
      s.directOk off 8 = .ok () → off % 8 = 0 → Reaches s [a, b] true ((farCells s cells).map (·.1)) ps →
      ∃ t, Gives (.stss p d a b) s t ∧ directStored s t cells ps) ∧
    (∀ (x : Word) (v : Lanes) (m : LaneMask), s.readS .int a = .ok x → s.readVM .raw b = .ok (v, m) →
      let off := (base + x).toNat
      let cells := (maskLanes m).flatMap fun i => laneCells v (i, off + 4 * i)
      s.directOk off 512 = .ok () → off % 4 = 0 → Reaches s [a, b] true ((farCells s cells).map (·.1)) ps →
      ∃ t, Gives (.sts p d a b) s t ∧ directStored s t cells ps)

namespace Sys2Proof.Machine

/-- The bytes of memory that weak agents wrote in a stash row and that are not home yet (R202). -/
def dirtyAt (s : State) (row a : Nat) : Prop := ∃ l ∈ s.core.pad.rowLines row, ∃ i < 64, l.2.mask.getLsbD i = true ∧ a = l.2.pa * 64 + i

/-- What a form of stash control changes: of memory at most the bytes of the row's Engine-dirty lines, of the registers only the
bindings of stash rows. -/
def stashFrame (s t : State) (row : Nat) : Prop :=
  t.core.arch = { s.core.arch with bound := t.core.arch.bound } ∧ ∀ a, ¬ dirtyAt s row a → cellAt t.mem a = cellAt s.mem a

end Sys2Proof.Machine

/-- R8, R202, R244, R245: the prefetches change no value; SWB writes the Engine-dirty lines of its row back; SMAP, SUNMAP and SINV note what
becomes of their row as their bundle commits, and change nothing before. As it commits SMAP and SUNMAP bind and free the row, and each of its lines
is written back and left Invalid. Of memory only the bytes of those lines can change. -/
def Obligations.StashControlResults : Prop :=
  (∀ (s : State) (row : Nat) (v : Option Word),
    let t := s.rebindRow row v
    stashFrame s t row ∧ t.core.pad.rowLines row = [] ∧
      t.core.arch.bound = match v with
        | some y => NatMap.put row y s.core.arch.bound
        | none => NatMap.del row s.core.arch.bound) ∧
  ∀ (s : State) (p : BitVec 3) (a b : Src) (x : Word), PredOn s p → s.readS .int a = .ok x →
    let row := x.toNat
    let inRange := row < s.core.decl.stash
    let notes (i : Instr) (v : Option Word) : Prop := ∃ t, Gives i s t ∧ memFrame s t ∧ t.core.pad = s.core.pad ∧ t.core.remap = s.core.remap ++ [(row, v)]
    (∀ y : Word, s.readS .int b = .ok y →
      (∃ t, Gives (.pref p a b) s t ∧ memFrame s t ∧ (t.due = s.due ∨ t.due = s.due ++ [.translationWalk s.cur (x + y)])) ∧
      (∃ t, Gives (.prefs p a b) s t ∧ memFrame s t ∧ ∀ r line, Action.stashFill s.cur r line ∈ t.due → Action.stashFill s.cur r line ∈ s.due ∨
        (s.core.decl.stashPlace (x + y).toNat).map (·.1) = some r) ∧
      (∀ ps, inRange → y.toNat % 1024 = 0 → Reaches s [a, b] false [y] ps → notes (.smap p a b) (some y))) ∧
    (inRange → notes (.sunmap p a) none) ∧
    (inRange → ∃ t, Gives (.swb p a) s t ∧ stashFrame s t row ∧ t.core.arch = s.core.arch) ∧
    (inRange → notes (.sinv p a) (NatMap.find row s.core.arch.bound))

/-! ### Atomics, POST and transfers -/

namespace Sys2Proof.Machine

/-- An atomic on the `n` bytes at a physical address: memory holds the new word there and every other byte as before; with an
entry asked for, one of the queue is reserved that carries the old word (R239, R256). -/
def atomicDone (s t : State) (w : Bool) (k : BitVec 3) (pa n : Nat) (f : Nat → Nat) : Prop :=
  let old := s.readNat pa n
  cellsAt t.mem pa n = toBytes n (f old) ∧ (∀ a, a < pa ∨ pa + n ≤ a → cellAt t.mem a = cellAt s.mem a) ∧ t.core.arch = s.core.arch ∧
    (w = false → ∃ e, (t.core.queueAt k).entries.getLast? = some e ∧ e.kind = .work ∧
      e.req.map (·.bytes.map (·.2)) = some ((toBytes n old).map some))

/-- Nothing that an atomic waits for or stops at: the line is held by no other interval, no load of the sequencer is outstanding, and the word has no
uncorrectable error (R224, R446). -/
def AtomicFree (s : State) (pa : Nat) : Prop :=
  (∀ o g ls, s.hub.anchor = some (o, g, ls) → o = s.cur ∨ lineOf pa ∉ ls) ∧ s.core.oldestLoad = none ∧ s.struck [pa] = none

end Sys2Proof.Machine

/-- R222, R239, R256, R257: each atomic at an aligned address that translates replaces the word at its home slice by the word of
the table, and returns the old one where it is asked for; no other byte of memory and no register changes. -/
def Obligations.AtomicResults : Prop :=
  ∀ (s : State) (p : BitVec 3) (w : Bool) (d : BitVec 6) (a b : Src) (x y : Word) (pa : Nat), PredOn s p → s.readS .int a = .ok x →
    s.readS .int b = .ok y → (w = false → s.core.hasQueue (d.setWidth 3) = true) → AtomicFree s pa → Memory.wf s.mem = true →
    let k : BitVec 3 := d.setWidth 3
    let v := y.toNat
    let does (i : Instr) (n : Nat) (f : Nat → Nat) : Prop := ∃ t, Gives i s t ∧ atomicDone s t w k pa n f
    let signed (u : Nat) : Int := (BitVec.ofNat 64 u).toInt
    (x.toNat % 8 = 0 → Reaches s [a, b] true [x] [pa] →
      does (.aadd p w d a b) 8 (fun o => (o + v) % 2 ^ 64) ∧
      does (.afxadd p w d a b) 8 (fun o => wrapTo 64 (fxAdd (signed o) y.toInt).1) ∧
      does (.amin p w d a b) 8 (fun o => if signed o ≤ y.toInt then o else v) ∧ does (.amax p w d a b) 8 (fun o => if y.toInt ≤ signed o then o else v) ∧
      does (.aminn p w d a b) 8 (fun o => if o ≤ v then o else v) ∧ does (.amaxn p w d a b) 8 (fun o => if v ≤ o then o else v) ∧
      does (.aincb p w d a b) 8 (fun o => if o < v then o + 1 else o) ∧ does (.aswap p w d a b) 8 (fun _ => v) ∧
      does (.aand p w d a b) 8 (fun o => o &&& v) ∧ does (.aor p w d a b) 8 (fun o => o ||| v) ∧ does (.axor p w d a b) 8 (fun o => o ^^^ v)) ∧
    (x.toNat % 4 = 0 → Reaches s [a, b] true [x] [pa] →
      does (.afadd p w d a b) 4 (fun o => (fp32.add .near false o (v % 2 ^ 32)).1)) ∧
    ∀ r : BitVec 5, x.toNat % 8 = 0 → Reaches s [a] true [x] [pa] →
      does (.acas p w d a r) 8 (fun o => if o = (s.core.arch.sreg (r ++ 0#1)).toNat then (s.core.arch.sreg (r ++ 1#1)).toNat else o)

namespace Sys2Proof.Machine

/-- The barrier that a form names with its operand `x` (R259, R260): 64-byte aligned, in the raw region of the unit or on a page
that translates. -/
def barNamed (s : State) (as : List Src) (raw write : Bool) (x : Word) (loc : BarLoc) : Prop :=
  x.toNat % 64 = 0 ∧
    match loc with
    | .mem pa => raw = false ∧ Reaches s as write [x] [pa]
    | .raw u off => raw = true ∧ u = s.core.self ∧ off = x.toNat ∧ x.toNat + 64 ≤ s.core.decl.rawBytes

/-- What a barrier is stored in can be written and read back: device memory in its form, or the scratchpad of a unit that runs here. -/
def barSound (s : State) (loc : BarLoc) : Prop :=
  match loc with
  | .mem _ => Memory.wf s.mem = true
  | .raw u _ => cellsWf s.core.pad.bytes = true ∧ s.runsOn u = some s.cur ∧ ∀ x, s.unitAt u = some x → x.spilled = false

/-- The fields of a barrier record (R258). -/
def barReads (b : Block) (count : Int) (posted : Bool) (st : Nat) (high : Word) (arrived : Nat) : Prop :=
  fld b 0 64 = (BitVec.ofInt 64 count).toNat ∧ barPosted b = posted ∧ barState b = st ∧ barHigh b = high ∧ barArrived b = arrived % 2 ^ 64

/-- Memory but the 64 bytes of a barrier. -/
def barFrame (s t : State) (loc : BarLoc) : Prop :=
  ∀ a, (∀ pa, loc = .mem pa → a < pa ∨ pa + 64 ≤ a) → cellAt t.mem a = cellAt s.mem a

end Sys2Proof.Machine

/-- R232, R233, R258 to R260: POST adds to COUNT and sets POSTED, a barrier that was complete or overrun starting anew, and a COUNT of 0 then makes it
complete; where it holds no token and no trigger names it, or COUNT is not 0, the record is all that changes. A count above 2^40, an address
off its 64 bytes and a place outside the raw region trap. Counted bytes subtract from COUNT and raise HIGHTS and ARRIVED; BWAIT stalls while the barrier
is open, goes on where it is complete or overrun, and raises logical time to HIGHTS. -/
def Obligations.BarrierResults : Prop :=
  ∀ (s : State) (p : BitVec 3) (sx : Bool) (a b : Src) (x n : Word) (loc : BarLoc),
    let r := s.barAt loc
    let fresh := decide (barState r ≠ 0)
    let count := (if fresh then 0 else barCount r) + n.toNat
    (PredOn s p → s.readS .int a = .ok x → s.readS .int b = .ok n → n.toNat ≤ 2 ^ 40 → barNamed s [a, b] sx true x loc → barSound s loc →
      ∃ t rec, Gives (.post p sx a b) s t ∧
        barReads rec count true (if count = 0 then 1 else 0) (if fresh then 0#64 else barHigh r) (if fresh then 0 else barArrived r) ∧
        (count ≠ 0 ∨ ((∀ k ∈ s.hub.barToks, k.loc ≠ loc) ∧ s.trigFor loc = none) →
          t.barAt loc = rec ∧ barFrame s t loc ∧ t.core.arch = s.core.arch)) ∧
    (PredOn s p → s.readS .int a = .ok x → s.readS .int b = .ok n →
      (2 ^ 40 < n.toNat → Gives (.post p sx a b) s (s.trapSlot .postRange n)) ∧
      (n.toNat ≤ 2 ^ 40 → sx = true → s.core.decl.rawBytes < x.toNat + 64 → Gives (.post p sx a b) s (s.trapSlot .scratchRange x)) ∧
      (n.toNat ≤ 2 ^ 40 → (sx = true → x.toNat + 64 ≤ s.core.decl.rawBytes) → x.toNat % 64 ≠ 0 → Gives (.post p sx a b) s (s.trapSlot .align x))) ∧
    (PredOn s p → s.readS .int a = .ok x → barNamed s [a] sx false x loc →
      (barState r = 0 → ∃ w, Gives (.bwait p sx a) s (s.stall w)) ∧
      (barState r ≠ 0 → ∃ t, Gives (.bwait p sx a) s t ∧ t.core.pts = wmax s.core.pts (barHigh r) ∧ t.core.arch = s.core.arch ∧ t.mem = s.mem)) ∧
    ∀ (k : Nat) (w : Word), barSound s loc → s.act = some (.barrierArrival loc k w) →
      let left := barCount r - k
      ∃ t, Gives .barrierArrival s t ∧
        (barState r = 0 → (barPosted r = true → 0 < left) →
          barReads (t.barAt loc) left (barPosted r) 0 (wmax (barHigh r) w) (barArrived r + k) ∧ barFrame s t loc) ∧
        (barState r = 2 → barReads (t.barAt loc) left (barPosted r) 2 (wmax (barHigh r) w) (barArrived r + k) ∧ barFrame s t loc)

namespace Sys2Proof.Machine

/-- A unit with weight that it can split at once (R270). -/
def CanSplit (s : State) : Prop := s.cur ≠ rangerId ∧ s.core.hold.valid = true ∧ s.core.hold.exp ≠ 127#7

/-- A form whose entry is known at once (R203, R293): an entry of kind work at the tail that carries the value; with NOWB none. -/
def workEntry (s t : State) (w : Bool) (d : BitVec 6) (v : Word) : Prop :=
  if w then t.core.q = s.core.q
  else ∃ e, (t.core.queueAt (d.setWidth 3)).entries = (s.core.queueAt (d.setWidth 3)).entries ++ [e] ∧ e.kind = .work ∧
    e.req.map (·.bytes.map (·.2)) = some ((toBytes 8 v.toNat).map some)

/-- A form whose entry is filled later: it is reserved at the tail under the number `id`; with NOWB none. -/
def laterEntry (s t : State) (w : Bool) (d : BitVec 6) (kind : QKind) : Prop :=
  if w then t.core.q = s.core.q
  else ∃ e, (t.core.queueAt (d.setWidth 3)).entries = (s.core.queueAt (d.setWidth 3)).entries ++ [e] ∧ e.kind = kind ∧
    e.filled = false ∧ e.req = none ∧ e.id = s.hub.nextEntry

/-- The entry that a form reserves at the tail, before its answer comes (R203, R293). -/
def freshEntry (s : State) : QEntry :=
  { val := .scalar 0#64, mask := BitVec.allOnes 128, filled := false, kind := .work, id := s.hub.nextEntry, old := false, req := none }

/-- A form whose entry is reserved at the tail and filled at once with the value; with NOWB none. -/
def answeredEntry (s t : State) (w : Bool) (d : BitVec 6) (v : Word) : Prop :=
  if w then t.core.q = s.core.q
  else (t.core.queueAt (d.setWidth 3)).entries = fillId s.hub.nextEntry v ((s.core.queueAt (d.setWidth 3)).entries ++ [freshEntry s])

/-- What no form that starts work touches: the registers that rollback restores and every byte of memory. -/
def workFrame (s t : State) : Prop := t.core.arch = s.core.arch ∧ t.mem = s.mem ∧ t.port = s.port

end Sys2Proof.Machine

/-- R246, R247, R255, R268: PUT and GET of a valid record in the raw region become a transfer of channel 8 that numbers it, PUT with a
token split for it; the transfer's start is due, except that a GET outside a C bundle waits for the next confirmation. -/
def Obligations.TransferFormResults : Prop :=
  ∀ (s : State) (p : BitVec 3) (w : Bool) (d : BitVec 6) (a b : Src) (x y : Word), PredOn s p → s.readS .int a = .ok x → s.readS .int b = .ok y →
    let off := (x + y).toNat
    let r : Block := BitVec.ofNat 512 (loadNat s.core.pad.bytes off 64)
    let n := s.hub.nextXfer
    let made := newXfer s.core.hold s.core.self s.cur s.core.part 8 (BitVec.ofNat 32 s.core.nextPg) (x + y) r
    off % 64 = 0 → off + 64 ≤ s.core.decl.rawBytes → recInvalid r s.core.decl.rawBytes false = false →
    (recSrcSp r ≤ 1 → CanSplit s →
      ∃ t, Gives (.put p a b) s t ∧ workFrame s t ∧ t.core.nextPg = s.core.nextPg + 1 ∧ t.core.hold = s.core.hold.split.1 ∧
        t.xferAt n = some { made with tok := some s.core.hold.split.2 } ∧ Action.ringReserve n ∈ t.due) ∧
    (recSrcSp r = 2 → recRem r = false → (w = false → s.core.hasQueue (d.setWidth 3) = true) →
      let held := !bitAt s.core.header 31
      ∃ t, Gives (.get p w d a b) s t ∧ workFrame s t ∧ t.core.nextPg = s.core.nextPg + 1 ∧ t.core.hold = s.core.hold ∧
        laterEntry s t w d .load ∧
        t.xferAt n = some { made with isGet := true, entry := if w then none else some s.hub.nextEntry, heldGet := held } ∧
        (held = false → Action.ringReserve n ∈ t.due))

/-! ### Control and waits -/

/-- R126 to R135: the transfers of control note their target and change nothing else; CALL also writes s63; LOOP pushes an entry, or
leaves past its last bundle on a count that is not positive; LEAVE pops entries and goes past the last one's. NOP changes nothing. -/
def Obligations.ControlResults : Prop :=
  ∀ (s : State) (p : BitVec 3) (d : BitVec 21) (a : Src) (x : Word) (l : BitVec 14), PredOn s p →
    let pc := s.core.arch.pc
    let jumps (t : State) (w : Word) : State := { t with core := { t.core with next := some w } }
    Gives .nop s s ∧
    Gives (.br p d) s (jumps s (pc + d.signExtend 64)) ∧ Gives (.ret p) s (jumps s (s.core.arch.sreg 63#6)) ∧
    (FreeS s false 63#6 → Gives (.call p d) s (jumps (scalarOut s [] false 63#6 1 (pc + 1#64)) (pc + d.signExtend 64))) ∧
    (s.readS .int a = .ok x →
      Gives (.jr p a) s (jumps (s.pops [a]) x) ∧
      (x.toInt ≤ 0 → Gives (.loop p a l) s (jumps (s.pops [a]) (pc + l.setWidth 64 + 1#64))) ∧
      (0 < x.toInt → s.core.arch.loops.length < 6 → (∀ e, s.core.arch.loops.getLast? = some e → e.last ≠ pc) →
        Gives (.loop p a l) s ((s.pops [a]).withCore { (s.pops [a]).core with arch := { s.core.arch with
          loops := s.core.arch.loops ++ [{ start := pc + 1#64, last := pc + l.setWidth 64, remaining := x }] } })) ∧
      (1 ≤ x.toInt → x.toInt ≤ s.core.arch.loops.length → ∀ e, s.core.arch.loops[s.core.arch.loops.length - x.toNat]? = some e →
        Gives (.leave p a) s (jumps ((s.pops [a]).withCore { (s.pops [a]).core with arch := { s.core.arch with
          loops := s.core.arch.loops.take (s.core.arch.loops.length - x.toNat) } }) (e.last + 1#64))))

/-- R228, R229, R241, R254, R261, R262: a wait whose condition holds goes on and changes nothing; CWAIT to no store orders every weak
write of the unit; FENCE notes the transfers of its colours, and FENCE_COMPLETE ends it, raising logical time past their writes, once
they, the records that its channels have still to take, the sparse-index operation and the circuits are done. -/
def Obligations.WaitResults : Prop :=
  ∀ (s : State) (p q : BitVec 3) (a : Src) (m : BitVec 8) (n : Word), PredOn s p → s.readS .int a = .ok n →
    (s.core.hasQueue q = true → n.toNat ≤ 16 → n.toNat ≤ (s.core.queueAt q).ready → Gives (.qwait p q a) s (s.pops [a])) ∧
    ((vget {} s.core.chans q.toNat).waited (n.setWidth 32) = true → Gives (.cpywait p q a) s (s.pops [a])) ∧
    (s.outldAll ≤ n.toNat → s.core.untaken = false → Gives (.cwait p false a) s (s.pops [a])) ∧
    (s.outstAll ≤ n.toNat → s.core.untaken = false → n ≠ 0#64 → Gives (.cwait p true a) s (s.pops [a])) ∧
    (s.outstAll = 0 → s.core.untaken = false → n = 0#64 → ∃ t, Gives (.cwait p true a) s t ∧ t.core.arch = s.core.arch ∧ s.core.pts.toNat ≤ t.core.pts.toNat ∧
      ∀ k < 8, (vget 0#64 s.core.weak k).toNat ≤ t.core.pts.toNat) ∧
    (s.core.mode = 0#2 → ∃ t, Gives (.fence p m) s t ∧ t = { s with core := { s.core with fence := t.core.fence } } ∧
      (m = 0#8 → t.core.fence = s.core.fence) ∧
      (m ≠ 0#8 → ∃ ids, t.core.fence = some (m, ids) ∧ ∀ e ∈ s.hub.xfers,
        e.2.unit = s.core.self → e.2.live = true → m.getLsbD (recColour e.2.record) = true → e.1 ∈ ids)) ∧
    (s.act = some (.fenceComplete s.cur) → ∀ ids, s.core.fence = some (m, ids) →
      (∀ i ∈ ids, ∀ x, s.xferAt i = some x → x.live = true → m.getLsbD (recColour x.record) = false) → s.core.untaken = false →
      (m.getLsbD 0 = true → s.core.six.run = none ∧ s.core.six.shadow = none) →
      (∀ h ∈ s.core.gl.toList, m.getLsbD h.colour = true → h.unacked = 0) →
      ∃ t, Gives .fenceComplete s t ∧ t.core.fence = none ∧ t.core.arch = s.core.arch ∧
        ∀ k < 8, m.getLsbD k = true → (vget 0#64 s.core.weak k).toNat ≤ t.core.pts.toNat)

/-! ### Work -/

namespace Sys2Proof.Machine

/-- An account of a new launch, graph or phase (R269, R283): OPEN with the whole weight out, under a parent's token. -/
def accountMade (t : State) (i : Nat) (lvl : Level) (parent : Tok) : Prop :=
  let a := t.accAt i
  a.st = .opn ∧ a.out = 2 ^ 127 ∧ a.level = lvl ∧ a.parentV = true ∧ a.parent = parent.acct ∧ a.parentPkg = parent.pkg ∧ a.pexp = parent.exp

/-- A handle names a live account that the caller may name (R266, R352). -/
def MayName (s : State) (h : Handle) : Prop := s.live h = true ∧ (s.cur = rangerId ∨ (s.accAt (accId h)).part = s.partHere)

end Sys2Proof.Machine

/-- R296, R297: SPAWN reads the descriptor at its operand and splits a token for it. A descriptor that is refused answers with the
cause; kind 0 makes the account of a launch, and kind 1 a unit of the caller's account. -/
def Obligations.SpawnResults : Prop :=
  ∀ (s : State) (i : Instr) (p : BitVec 3) (w : Bool) (d : BitVec 6) (a b : Src) (x k : Word) (pa : Nat),
    i = .spawnLaunch p w d a b ∨ i = .spawnUnit p w d a b →
    PredOn s p → s.readS .int a = .ok x → s.readS .int b = .ok k → (w = false → s.core.hasQueue (d.setWidth 3) = true) →
    x.toNat % 64 = 0 → Reaches s [a, b] false [x] [pa] → CanSplit s →
    let r : Block := BitVec.ofNat 512 (s.readNat pa 64)
    let part := s.core.part
    let tok := s.core.hold.split.2
    let goes (t : State) (v : Word) : Prop := Gives i s t ∧ workFrame s t ∧ t.core.hold = s.core.hold.split.1 ∧ workEntry s t w d v
    (∀ c, k.toNat ≤ 1 → s.descRefused part r (decide (k = 1#64)) = some c →
      ∃ t, goes t (spawnEntry (.error c)) ∧ t.hub.accounts = s.hub.accounts ∧
        Action.returnArrive { acct := tok.acct, pkg := tok.pkg, value := tokValue tok.exp, taint := false, pts := 0#64 } ∈ t.due) ∧
    (k = 0#64 → s.descRefused part r false = none →
      (s.freeId part = none → ∃ t, goes t (spawnEntry (.error .noAccount)) ∧ t.hub.accounts = s.hub.accounts) ∧
      ∀ n, s.freeId part = some n →
        s.hasCapacity part (descPlace r) (descPin r) ((s.unitTable part).getD (descUnit r) {}).rows = true →
        ∃ t, goes t (spawnEntry (.ok (accHandle n (s.accAt n)))) ∧ accountMade t n .launch tok ∧ (∀ k < 8, Action.unitPlace n k ∈ t.due) ∧
          (t.accAt n).launch = some (s.launchInfo part r s.core.pts)) ∧
    (k = 1#64 → s.descRefused part r true = none →
      s.hasCapacity part (descPlace r) (descPin r) ((s.unitTable part).getD (descUnit r) {}).rows = true →
      ∃ t, goes t (spawnEntry (.ok s.core.hold.acct)) ∧ Action.unitPlace (16384 + s.hub.nextUnit) 0 ∈ t.due ∧
        ∃ u, t.unitAt s.hub.nextUnit = some u ∧ u.index = descUnit r ∧ u.part = part ∧ u.hold = Tok.hold tok ∧ u.prio = descPrio r ∧
          u.st = .created ∧ u.args = some (descArgs r))

/-- R299 to R302, R304, R305: SEND sends 64 raw bytes with a split token; TRIG registers a trigger in a free slot and UNTRIG takes one of
the unit's own account away, its token going home; QUIET answers with the status of an account that has nothing out but what the waiting
unit holds, or that is done, and with 2 as a waiting unit's own account is cancelled; ACCQ reads a word of an account record. -/
def Obligations.MessageAccountResults : Prop :=
  ∀ (s : State) (p : BitVec 3) (w : Bool) (d : BitVec 6) (a b : Src) (x y : Word), PredOn s p → s.readS .int a = .ok x →
    s.readS .int b = .ok y →
    (CanSplit s → x.toNat % 64 = 0 → x.toNat + 64 ≤ s.core.decl.rawBytes →
      let m := s.messageOf (BitVec.ofNat 512 (loadNat s.core.pad.bytes x.toNat 64)) y s.core.hold.split.2
      ∃ t, Gives (.send p a b) s t ∧ workFrame s t ∧ t.core.hold = s.core.hold.split.1 ∧
        if m.remote ∧ m.dpkg ≠ s.fabric.num then
          Action.trailPacketDeliver { cls := 0#3, spkg := s.fabric.num, score := s.cur, dpkg := m.dpkg, dcore := m.dcore.toNat, label := m.label,
                                      podid := m.podid, tok := some m.tok, body := .message m, seq := s.fabric.nextPkt } ∈ t.due
        else Action.messageArrive m ∈ t.due) ∧
    (let k := fld x 36 4
     let g : Trigger :=
       { label := BitVec.ofNat 16 (fld x 0 16), unit := fld x 16 16, prio := fld x 32 2, bar := none, tok := s.core.hold.split.2, pair := false,
         part := s.core.part, pts := s.core.pts }
     CanSplit s → s.cancelling s.core.hold = false → vget none s.core.trigs k = none → fld x 16 16 < (s.unitTable s.core.part).length →
     (bitAt x 34 = false → fld x 0 16 ≠ 0xFFFF →
       ∃ t, Gives (.trig p a b) s t ∧ t.core.arch = s.core.arch ∧ t.mem = s.mem ∧ vget none t.core.trigs k = some g) ∧
     (∀ pa va l u, bitAt x 34 = true → y = va → va.toNat % 64 = 0 → (s.pops [a, b]).reach false [va] = .ok ([pa], u) → u.leafFor u.cur u.core.part va = some l →
       l.1.attr = 2#2 → ∃ t, Gives (.trig p a b) s t ∧ vget none t.core.trigs k = some { g with bar := some (.mem pa) })) ∧
    (let k := fld x 0 4
     (vget none s.core.trigs k = none → Gives (.untrig p a) s (s.pops [a])) ∧
     ∀ g, vget none s.core.trigs k = some g → s.core.hold.valid = true → g.tok.acct = s.core.hold.acct → g.tok.pkg = s.core.hold.pkg → g.asked = [] →
       ∃ t, Gives (.untrig p a) s t ∧ workFrame s t ∧ vget none t.core.trigs k = none ∧
         Action.combinerAdd s.cur { acct := g.tok.acct, pkg := g.tok.pkg, value := g.held.value, taint := false, pts := s.core.pts } ∈ t.due) ∧
    (let h : Handle := x.setWidth 32
     let r := s.accAt (accId h)
     MayName s h → FreeS s w d →
     let settled := r.st = .done ∨ r.out = s.heldIn h
     let answers (v : Nat) : Prop :=
       Gives (.quiet p w d a) s (scalarOut { s with core := { s.core with pts := wmax s.core.pts r.pts } } [a] w d 1 (BitVec.ofNat 64 v))
     (settled → answers r.status) ∧ (¬ settled → s.cancelling s.core.hold = true → answers (2 + b2n r.fault * 2 ^ 8)) ∧
     Gives (.accq p w d a b) s
       (scalarOut s [a, b] w d 4 (BitVec.ofNat 64 (fld (accountBits (accId h) r) (64 * fld y 0 3) 64))))

/-- R306: the operations of PHASE on the account that its block names. OPENG and OPENP make an account below it with an owner token of its
own, ADDL a launch below a graph, deferred while a predecessor has not retired; CLOSE returns the owner token and RELEASE frees a done
account. -/
def Obligations.PhaseResults : Prop :=
  ∀ (s : State) (i : Instr) (p : BitVec 3) (w : Bool) (d : BitVec 6) (a b : Src) (x y : Word),
    i = .phaseOpeng p w d a b ∨ i = .phaseOpenp p w d a b ∨ i = .phaseAddl p w d a b ∨ i = .phaseClose p w d a b ∨ i = .phaseRelease p w d a b →
    PredOn s p → s.readS .int a = .ok x → s.readS .int b = .ok y → (w = false → s.core.hasQueue (d.setWidth 3) = true) →
    x.toNat % 64 = 0 → x.toNat + 64 ≤ s.core.decl.rawBytes →
    let r : Block := BitVec.ofNat 512 (loadNat s.core.pad.bytes x.toNat 64)
    let h := phTarget r
    let acc := s.accAt (accId h)
    let op := fld y 0 4
    MayName s h → RisingKeys s.hub.accounts →
    let goes (t : State) (v : Word) : Prop := Gives i s t ∧ workFrame s t ∧ workEntry s t w d v
    (∀ own n lvl, (op = 0 ∧ lvl = Level.graph ∧ (acc.level = .phase ∨ acc.level = .job)) ∨ (op = 1 ∧ lvl = Level.phase ∧ acc.level = .job) →
      acc.st = .opn → acc.owner = some own → own.exp ≠ 127#7 → s.freeId acc.part = some n →
      ∃ t, goes t (spawnEntry (.ok (accHandle n (s.accAt n)))) ∧ accountMade t n lvl own.split.2 ∧
        (t.accAt n).owner = some { exp := 0#7, valid := true, acct := accHandle n (s.accAt n), pkg := s.fabric.num } ∧
        (t.accAt (accId h)).owner = some own.split.1) ∧
    (∀ own n pa, op = 2 → acc.level = .graph → acc.st = .opn → acc.owner = some own → own.exp ≠ 127#7 → phNpred r ≤ 8 →
      (∀ k ∈ phPreds r, MayName s k ∧ (let c := s.accAt (accId k)
        c.level = .launch ∧ c.parentV = true ∧ c.parent = h ∧ c.parentPkg = s.fabric.num ∧ c.st ≠ .done)) →
      phPreds r ≠ [] → (phDesc r).toNat % 64 = 0 → Reaches s [a, b] false [phDesc r] [pa] → s.freeId acc.part = some n →
      s.descRefused acc.part (BitVec.ofNat 512 (s.readNat pa 64)) false = none →
      ∃ t, goes t (spawnEntry (.ok (accHandle n (s.accAt n)))) ∧ (t.accAt n).st = .deferred ∧ (t.accAt n).npred = (phPreds r).length ∧
        (t.accAt n).parent = own.split.2.acct ∧ (t.accAt n).pexp = own.split.2.exp) ∧
    (∀ own, op = 3 → acc.level = .graph ∨ acc.level = .phase → acc.owner = some own →
      ∃ t, goes t (spawnEntry (.ok h)) ∧ t.accAt (accId h) = { acc with owner := none } ∧
        Action.returnArrive { acct := h, pkg := s.fabric.num, value := own.value, taint := false, pts := 0#64 } ∈ t.due) ∧
    (op = 4 → acc.level ≠ .job → acc.st = .done → ∃ t, goes t (spawnEntry (.ok h)) ∧ (t.accAt (accId h)).st = .free)

/-- R282, R307, R308: CANCEL of an account of the caller's partition completes: an account that is done is left as it is, and any other is marked
as cancelling with every account below it that is not done. BAR of a member completes: it contributes to the next episode of its tree, after the
contributions of its core that are still due, and its entry is filled with that episode's result, or at once where the result has come. A handle
that the caller may not name and a tree that the core is no member of trap. -/
def Obligations.CancelBarResults : Prop :=
  ∀ (s : State) (p : BitVec 3) (w : Bool) (d : BitVec 6) (a b : Src) (x v : Word), PredOn s p → s.readS .int a = .ok x → s.readS .int b = .ok v →
    (let h : Handle := x.setWidth 32
     (MayName s h → (s.accAt (accId h)).st = .done → Gives (.cancel p a) s (s.pops [a])) ∧
     (MayName s h → (s.accAt (accId h)).st ≠ .done →
       ∃ t, Gives (.cancel p a) s t ∧ workFrame s t ∧
         ∀ i, i = accId h ∨ i ∈ s.descendants (accId h) → (s.accAt i).st ≠ .done →
           (t.accAt i).st = .cancelling ∧ (t.accAt i).cancel = true) ∧
     (¬ MayName s h → Gives (.cancel p a) s (s.trapSlot .accountStale 0#64))) ∧
    ((w = false → s.core.hasQueue (d.setWidth 3) = true) →
     let key := 64 * s.core.part + x.toNat
     let member := x.toNat < 64 ∧ s.cur < 256 ∧ ∃ tr, s.treeOf key = some tr ∧ tr.members.getLsbD s.cur = true
     (member →
       let r := (s.pops [a, b]).joinEarlier key s.cur
       ∃ t, Gives (.bar p w d a b) s t ∧ workFrame s t ∧ key ∈ t.core.joined ∧
         t.nextEpisode key s.cur = s.nextEpisode key s.cur + (s.due.filter (joinsAs key s.cur)).length + 1 ∧
         if r.nextEpisode key s.cur < r.openEpisode key then
           workEntry s t w d (podEntry ((r.episodeAt key (r.nextEpisode key s.cur)).value.getD 0#64) true)
         else
           laterEntry s t w d .work ∧ (w = false →
             ({ tree := key, num := r.nextEpisode key s.cur, core := s.cur, unit := s.core.self, id := s.hub.nextEntry } : BarWait) ∈ t.hub.barWaits)) ∧
     (¬ member → Gives (.bar p w d a b) s (s.trapSlot .barTree 0#64)))

/-- R309, R310: YIELD asks for the core to be left before the next Q bundle; EXIT ends the running unit, which leaves its core. -/
def Obligations.LeaveResults : Prop :=
  ∀ (s : State) (p : BitVec 3), PredOn s p →
    Gives (.yield p) s { s with core := { s.core with yieldReq := true } } ∧
    ∀ u, s.core.unit = some u → s.runsOn u = some s.cur → RisingKeys s.hub.units → u < s.hub.nextUnit →
      ∃ t, Gives (.exit p) s t ∧ t.cur = s.cur ∧ t.core.unit = none ∧ t.core.phase = .left ∧ t.core.withheld = [] ∧
        ∀ y, t.unitAt u = some y → y.st = .ended

/-! ### Circuits and engines -/

/-- R330 to R338: GLOPEN of a handle that is not in use makes it OPENING, with a split token; GLHOLD sets the lease, GLSEND puts words in line,
GLCLOSE closes, each changing nothing on an ended circuit; GLSTAT reads the state. -/
def Obligations.CircuitFormResults : Prop :=
  ∀ (s : State) (p : BitVec 3) (w : Bool) (d : BitVec 6) (a b : Src) (x y : Word), PredOn s p → s.readS .int a = .ok x → s.readS .int b = .ok y →
    let put (s : State) (h : Nat) (k : GlHandle) : State := s.withCore { s.core with gl := vput s.core.gl h k }
    (let r : Block := BitVec.ofNat 512 (loadNat s.core.pad.bytes x.toNat 64)
     let h := fld y 0 4
     x.toNat % 64 = 0 → x.toNat + 64 ≤ s.core.decl.rawBytes → (w = false → s.core.hasQueue (d.setWidth 3) = true) →
     (vget {} s.core.gl h).over = true → glInvalid r s.cur = false → CanSplit s →
     ∃ t k, Gives (.glopen p w d a b) s t ∧ workFrame s t ∧ laterEntry s t w d .work ∧ t.core.hold = s.core.hold.split.1 ∧
       vget {} t.core.gl h = k ∧ k.st = .opening ∧ k.block = r ∧ k.tok = some s.core.hold.split.2 ∧ Action.glopenComplete s.core.self h ∈ t.due) ∧
    (let h := fld x 0 4
     let k := vget {} s.core.gl h
     k.st ≠ .free → k.st ≠ .opening →
     Gives (.glhold p a b) s (if k.st = .ended then s.pops [a, b] else put (s.pops [a, b]) h { k with lease := s.time + min y.toNat 16777215 }) ∧
     (k.st ≠ .opn → s.runsOn s.core.self = some s.cur → Gives (.glclose p a) s (s.pops [a])) ∧
     (k.st = .opn → s.runsOn s.core.self = some s.cur → ∃ t, Gives (.glclose p a) s t ∧ workFrame s t ∧ (vget {} t.core.gl h).st = .closing ∧
       ((vget {} t.core.gl h).ending = true ↔ k.ending = true ∨ (k.pend = [] ∧ k.resumeW = k.sent)))) ∧
    (let h := fld y 0 4
     let n := fld y 16 20
     let k := vget {} s.core.gl h
     x.toNat % 4 = 0 → n ≠ 0 → x.toNat + 4 * n ≤ s.core.decl.rawBytes →
     (k.st = .closing ∨ k.st = .ended → Gives (.glsend p a b) s (s.pops [a, b])) ∧
     (k.st = .opn → k.taken + n ≤ glLen k.block / 4 → k.pend.length < 4 →
       Gives (.glsend p a b) s
         ((put (s.pops [a, b]) h { k with pend := k.pend ++ [{ off := x.toNat, count := n, sent := 0 }] }).addDue [.guylineSlotSend s.core.self h]))) ∧
    (FreeS s w d → Gives (.glstat p w d a) s (scalarOut s [a] w d 4 (vget {} s.core.gl (fld x 0 4)).stat))

/-- R162 to R165, R183, R184, R250, R251, R253: ENGWR sets the writable bits of a stream register and makes its snapshot stale, or sets
SIXSRC or SIXCFG, and ENGRD reads any engine register into two scalar registers; a write of CHnCTL clears an error or resumes a parked
channel; CPYGO begins a chain or leaves it in shadow, and SIXGO leaves an operation in shadow. -/
def Obligations.EngineFormResults : Prop :=
  ∀ (s : State) (p n : BitVec 3) (e : BitVec 8) (a b : BitVec 6), PredOn s p →
    let v : BitVec 128 := s.core.arch.sreg b ++ s.core.arch.sreg a
    (∃ t, Gives (.engwr p e a b) s t ∧ t.mem = s.mem ∧ t.hub = s.hub ∧ t.core.arch.s = s.core.arch.s ∧
      (∀ k j, k < 16 → j < 4 → BitVec.ofNat 128 (fld (vget 0#512 t.core.arch.g k) (128 * j) 128) =
        if e.toNat = 4 * k + j then v &&& streamMask j else BitVec.ofNat 128 (fld (vget 0#512 s.core.arch.g k) (128 * j) 128)) ∧
      (∀ k < 16, vget false t.core.arch.snapOk k = (if e.toNat / 4 = k then false else vget false s.core.arch.snapOk k)) ∧
      t.core.arch.sixsrc = (if e = 0x60#8 then v else s.core.arch.sixsrc) ∧ t.core.arch.sixcfg = (if e = 0x61#8 then v &&& sixMask else s.core.arch.sixcfg)) ∧
    (FreeS s false a → FreeS s false b →
      Gives (.engrd p e a b) s (scalarOut (scalarOut s [] false a 4 ((s.engRead e).setWidth 64)) [] false b 4 ((s.engRead e >>> 64).setWidth 64))) ∧
    (∀ i, i = .chErrclr p n a b ∨ i = .chResume p n a b → s.runsOn s.core.self = some s.cur →
      let old := vget {} s.core.chans n.toNat
      ∃ t, Gives i s t ∧ workFrame s t ∧ (vget {} t.core.chans n.toNat).error = (old.error && !bitAt v 0) ∧
        (vget {} t.core.chans n.toNat).parked = (old.parked && !bitAt v 1) ∧
        (vget {} t.core.chans n.toNat).walking = (old.walking || (old.parked && bitAt v 1))) ∧
    (CanSplit s → s.runsOn s.core.self = some s.cur → (s.core.arch.sreg a).toNat % 64 = 0 → (vget {} s.core.chans n.toNat).pending = none →
      let old := vget {} s.core.chans n.toNat
      let limit : BitVec 32 := (s.core.arch.sreg b).setWidth 32
      ∃ t, Gives (.cpygo p n a b) s t ∧ workFrame s t ∧ t.core.hold = s.core.hold.split.1 ∧
        vget {} t.core.chans n.toNat =
          (if old.free then { { old with toks := old.toks ++ [s.core.hold.split.2] } with
              head := s.core.arch.sreg a, limit := limit, limited := decide (limit ≠ 0#32), walking := true, parked := false }
            else { old with toks := old.toks ++ [s.core.hold.split.2], pending := some (s.core.arch.sreg a, limit) })) ∧
    (s.core.hasQueue (BitVec.ofNat 3 (fld s.core.arch.sixcfg 2 3)) = true → s.core.six.shadow = none →
      Gives (.sixgo p a b) s
        (({ s with core := { s.core with arch := { s.core.arch with sixsrc := v }, six := { s.core.six with shadow := some (v, s.core.arch.sixcfg) } } } : State).addDue
          [.sixOpStart s.core.self]))

/-! ### The system -/

namespace Sys2Proof.Machine

/-- The state with a core that runs no unit described by `f` in place of what it held (R395). -/
def idleCores (s t : State) (p : Option Nat) (f : Core → Prop) : Prop :=
  ∀ c < 256, (s.coreAt c).unit = none → (∀ q, p = some q → s.ownerOfQuad (quadOf c) = some q) → f (t.coreAt c)

end Sys2Proof.Machine

/-- R391 to R398: SYSRD completes with the register's value where the level allows it; SYSWR completes: it writes QBIND, ARITH and SRSEED in the unit
and in its checkpoint's copy, STEPWAIT, METER and RTRAP for the ranger core alone, the bounds of a partition for its handlers, or those of the ranger
core for itself, which have a place of their own beside the partitions' (log entry 131), and MODE for the ranger core; idle cores take bounds and MODE at once; the other registers are read-only. Where the level does not allow it a form takes PRIVILEGE. -/
def Obligations.SystemRegisterResults : Prop :=
  ∀ (s : State) (p : BitVec 3) (w : Bool) (d : BitVec 6) (n : BitVec 7) (b : Src) (v : Word), PredOn s p →
    let x := (s.pops [b]).core
    let both (f : Arch → Arch) : State := { s with core := { x with arch := f s.core.arch, shadow := f s.core.shadow } }
    let denied (i : Instr) : Prop := Gives i s (s.trapSlot .privilege 0#64)
    (sysReadLevel n.toNat ≤ s.level → FreeS s w d → Gives (.sysrd p w d n) s (scalarOut s [] w d 4 (s.sysread n.toNat))) ∧
    (s.sysread 0x06 = s.core.arch.arith ∧ s.sysread 0x07 = s.core.arch.srseed.setWidth 64 ∧ s.sysread 0x08 = s.core.arch.qbind ∧
      s.sysread 0x0D = s.core.trapRec ∧ s.sysread 0x0E = s.hub.mode.setWidth 64 ∧ s.sysread 0x0F = s.core.pts ∧ s.sysread 0x10 = s.hub.stepwait ∧
      s.sysread 0x11 = s.hub.meter.setWidth 64 ∧ s.sysread 0x12 = s.core.rtrap ∧
      (∀ k, k = (if s.cur = rangerId then 8 else s.core.part) →
        s.sysread 0x02 = BitVec.ofNat 64 (vget 4096 s.hub.ckBound k) ∧ s.sysread 0x03 = BitVec.ofNat 64 (vget 8192 s.hub.qBound k))) ∧
    (s.level < sysReadLevel n.toNat → denied (.sysrd p w d n)) ∧ (0x10 ≤ n.toNat → s.level < 2 → denied (.syswr p n b)) ∧
    (s.level < 1 → denied (.syswrCkbound p b) ∧ denied (.syswrQbound p b)) ∧ (s.level < 2 → denied (.syswrMode p b)) ∧
    (s.readS .int b = .ok v →
      Gives (.syswr p 0x08#7 b) s (both fun a => { a with qbind := v }) ∧
      (s.level = 2 →
        Gives (.syswr p 0x10#7 b) s { s with core := x, hub := { s.hub with stepwait := v } } ∧
        Gives (.syswr p 0x11#7 b) s { s with core := x, hub := { s.hub with meter := v.setWidth 32 } } ∧
        Gives (.syswr p 0x12#7 b) s { s with core := { x with rtrap := v } }) ∧
      (n.toNat < 0x10 ∨ s.level = 2 → n ∉ [0x02#7, 0x03#7, 0x06#7, 0x07#7, 0x08#7, 0x0E#7, 0x10#7, 0x11#7, 0x12#7] →
        Gives (.syswr p n b) s (s.trapSlot .sysregReadonly 0#64)) ∧
      Gives (.syswrArith p b) s (both fun a => { a with arith := arithWrite a.arith v }) ∧
      Gives (.syswrSrseed p b) s (both fun a => { a with srseed := v.setWidth 32, gens := seedGens (v.setWidth 32) }) ∧
      (RisingKeys s.others → 1 ≤ s.level → ∀ k, k = (if s.cur = rangerId then 8 else s.core.part) → k < 9 →
        (∃ t, Gives (.syswrCkbound p b) s t ∧ workFrame s t ∧
          (∀ j < 9, vget 4096 t.hub.ckBound j = if j = k then max 16 (v.toNat % 2 ^ 16) else vget 4096 s.hub.ckBound j) ∧
          (k < 8 → idleCores s t (some k) fun c => c.ckBound = max 16 (v.toNat % 2 ^ 16))) ∧
        (∃ t, Gives (.syswrQbound p b) s t ∧ workFrame s t ∧
          (∀ j < 9, vget 8192 t.hub.qBound j = if j = k then max 16 (v.toNat % 2 ^ 16) else vget 8192 s.hub.qBound j) ∧
          (k < 8 → idleCores s t (some k) fun c => c.qBound = max 16 (v.toNat % 2 ^ 16)))) ∧
      (RisingKeys s.others → s.level = 2 →
        ∃ t, Gives (.syswrMode p b) s t ∧ workFrame s t ∧ t.hub.mode = v.setWidth 2 ∧ idleCores s t none fun c => c.mode = v.setWidth 2))

namespace Sys2Proof.Machine

/-- Nothing keeps the sequencer in focus from confirming a checkpoint at once: no load of it is outstanding, no translation that it used was
invalidated, no line of its interval is held by another sequencer, and what it read can be renewed (R222 to R224, R364, R411). -/
def ConfirmsNow (s : State) : Prop :=
  s.core.oldestLoad = none ∧ s.core.xlinvHit = false ∧ s.heldOff = false ∧ (s.core.withheld = [] ∨ s.renewable s.core.reads = true)

/-- A checkpoint taken at the bundle in issue: the shadow set holds its registers, and no store of the interval is withheld any more (R411). -/
def confirmedAt (s u : State) : Prop :=
  u.cur = s.cur ∧ u.core.arch = s.core.arch ∧ u.core.shadow = s.core.arch ∧ u.core.withheld = [] ∧ u.core.done = 0#3 ∧ u.core.sinceCk = 0

end Sys2Proof.Machine

/-- R353, R399, R400: TRAP confirms a checkpoint at its bundle and then takes USER_TRAP with its operand; TRET confirms likewise, and the ranger core
goes on at the checkpoint bundle of its record, with the slots done before the trap still done, while a handler ends and the unit it handled is queued again, without its K slot after
SKIPK, or ends. While another sequencer holds a line of the interval each of them waits. TRET below a handler's level takes PRIVILEGE, and TRET_INVALID where its action is not valid. -/
def Obligations.TrapFormResults : Prop :=
  ∀ (s : State) (i : Instr) (p : BitVec 3) (a : Src) (x : Word), PredOn s p → s.readS .int a = .ok x →
    let op := fld x 0 2
    let isTret := i = .tretRetry p a ∨ i = .tretSkipk p a ∨ i = .tretEnd p a
    (isTret → s.level < 1 → Gives i s (s.trapSlot .privilege 0#64)) ∧
    (isTret → 1 ≤ s.level → s.tretOk op = false → Gives i s (s.trapSlot .tretInvalid 0#64)) ∧
    (s.core.oldestLoad = none → s.core.xlinvHit = false → s.heldOff = true →
      Gives (.trap p a) s (s.stall []) ∧ (isTret → 1 ≤ s.level → s.tretOk op = true → Gives i s (s.stall []))) ∧
    (ConfirmsNow s → ∃ u, (s.pops [a]).confirm = .made u ∧ confirmedAt s u ∧
     Gives (.trap p a) s (u.takeTrap
      { cause := .userTrap, addr := x, mask := BitVec.ofNat 12 (2 ^ s.core.slot), faultb := s.core.arch.pc, slotWord := s.core.word, header := s.core.header }) ∧
     (isTret → 1 ≤ s.level → s.tretOk op = true →
      (s.cur = rangerId → ∃ t, Gives i s t ∧ t.core.inTrap = false ∧
        t.core.resumes = some (u.core.trapDone ||| (if op = 1 then 4#3 else 0#3)) ∧ t.core.next = some (BitVec.ofNat 64 (bits (u.readNat rangerRecord 32) 128 64)) ∧ t.core.arch = u.core.arch ∧ t.mem = u.mem) ∧
      (s.cur ≠ rangerId →
        let k := u.closeUnit
        ∃ t, Gives i s t ∧ t.core.unit = none ∧
          ∀ w v me y, k.core.handling = some w → w.unit = some v → k.core.unit = some me → v ≠ me → v < k.hub.nextUnit → k.unitAt v = some y →
            y.started = true → y.st = .suspended → k.cur = u.cur → RisingKeys k.hub.units →
            if op = 2 ∨ k.cancelling y.hold = true then ∀ z, t.unitAt v = some z → z.st = .ended
            else ∃ z, t.unitAt v = some z ∧ z.st = .queued ∧ z.skipK = decide (op = 1))))

/-- R364, R401 to R404: XLINV takes every record it names out of the directory and every leaf it names out of the caches of their holders;
PARTQ reads a word of a descriptor; OPREQ asks for a point of a domain of the caller's quadrants; EVAC announces a step, or answers that there
is none, or with the ways that a hub quadrant would lose, or is held while the domain steps up. Below its level each takes PRIVILEGE. -/
def Obligations.PrivilegedFormResults : Prop :=
  ∀ (s : State) (p : BitVec 3) (w : Bool) (d : BitVec 6) (a b : Src) (x y : Word), PredOn s p → s.readS .int a = .ok x → s.readS .int b = .ok y →
    (s.level < 1 → ∀ i ∈ [Instr.xlinv p a b, .partq p w d a b, .opreq p a b], Gives i s (s.trapSlot .privilege 0#64)) ∧
    (s.level < 2 → Gives (.evac p w d a b) s (s.trapSlot .privilege 0#64)) ∧
    (1 ≤ s.level →
    (let part := if s.cur = rangerId then fld y 8 3 else s.core.part
     let va : Option Nat := if bitAt y 0 then none else some x.toNat
     (s.cur = rangerId → (s.partAt part).st = 0#2 → Gives (.xlinv p a b) s (s.pops [a, b])) ∧
     ((s.cur = rangerId → (s.partAt part).st ≠ 0#2) → RisingKeys s.others →
     ∃ t, Gives (.xlinv p a b) s t ∧ t.core.arch = s.core.arch ∧ t.mem = s.mem ∧ (∀ r ∈ t.hub.tdir, named r.part r.va r.size part va = false) ∧
       ∀ c < 256, (∃ r ∈ s.hub.tdir, named r.part r.va r.size part va = true ∧ stackOf c ∈ r.holders) →
         ∀ l ∈ (t.coreAt c).tlb, named l.part l.va l.size part va = false)) ∧
    ((w = false → s.core.hasQueue (d.setWidth 3) = true) →
      ∃ t, Gives (.partq p w d a b) s t ∧ workFrame s t ∧
        workEntry s t w d ((s.partAt (if s.cur = rangerId then fld x 0 3 else s.core.part)).word (fld y 0 4))) ∧
    (let q := fld x 1 5
     let k := fld y 0 4
     let mine := s.cur = rangerId ∨ (s.partAt s.core.part).quads.getLsbD q = true
     (¬ (mine ∧ k ≤ 8 ∧ (bitAt x 0 = true → k ≠ 8)) → Gives (.opreq p a b) s (s.trapSlot .opreqInvalid 0#64)) ∧
     (mine →
     (bitAt x 0 = true → k < 8 →
       Gives (.opreq p a b) s { (s.pops [a, b]) with power := { s.power with held := NatMap.put (sramDomain q) k s.power.held } }) ∧
     (bitAt x 0 = false → k ≤ 8 →
       Gives (.opreq p a b) s { (s.pops [a, b]) with power := { s.power with req := NatMap.putD 0 (logicDomain q) k s.power.req } }))) ∧
    (s.level = 2 → (w = false → s.core.hasQueue (d.setWidth 3) = true) →
      let dom := x.toNat
      let k := fld y 0 3
      ((isSram dom = false ∧ isHubSram dom = false) ∨ s.opOf dom ≤ k →
        ∃ t, Gives (.evac p w d a b) s t ∧ workFrame s t ∧ t.power = s.power ∧ workEntry s t w d (BitVec.ofNat 64 (2 ^ 63))) ∧
      (isHubSram dom = true → k < s.opOf dom → NatMap.find dom s.power.ups = none → s.runsOn s.core.self = some s.cur →
        ∃ t, Gives (.evac p w d a b) s t ∧ workFrame s t ∧ t.power = s.power ∧ answeredEntry s t w d (BitVec.ofNat 64 (s.waysLost dom k))) ∧
      (isSram dom = true → k < s.opOf dom → NatMap.find dom s.power.ups = none →
        ∃ t, Gives (.evac p w d a b) s t ∧ workFrame s t ∧ laterEntry s t w d .work ∧ Action.stepwaitExpire dom ∈ t.due ∧
          (t.stepOf dom).map Step.target = some k) ∧
      (isSram dom = true ∨ isHubSram dom = true → k < s.opOf dom → (NatMap.find dom s.power.ups).isSome = true → NatMap.find dom s.power.waiting = none →
        ∃ t, Gives (.evac p w d a b) s t ∧ workFrame s t ∧ laterEntry s t w d .work ∧ t.stepOf dom = s.stepOf dom ∧
          NatMap.find dom t.power.waiting = some { point := k, entries := if w then [] else [(s.core.self, s.hub.nextEntry)], evac := true })))

/-- R371 to R379, R405 to R407: RVSET of a domain at rest takes a higher point of an SRAM domain once its voltage has risen, a lower one
through its step unless a row in use forbids it, and a logic domain's at the next boundary; the present point, a point forbidden and a domain or
point that it does not have are answered at once. RFLOOR reads floors, and
RHEAT sets or reads a heater. -/
def Obligations.RangerPowerResults : Prop :=
  ∀ (s : State) (p : BitVec 3) (w : Bool) (d : BitVec 6) (a b : Src) (x y : Word), PredOn s p → s.readS .int a = .ok x → s.readS .int b = .ok y →
    s.level = 2 → (w = false → s.core.hasQueue (d.setWidth 3) = true) →
    (let dom := x.toNat
     let k := fld y 0 4
     let nudge : Nudge := { point := k, entries := if w then [] else [(s.core.self, s.hub.nextEntry)] }
     (68 < dom ∨ 8 < k ∨ (k = 8 ∧ isLogic dom = false) →
       ∃ t, Gives (.rvset p w d a b) s t ∧ workFrame s t ∧ t.power = s.power ∧
         workEntry s t w d (rvEntry 2 (if dom ≤ 68 then s.opOf dom else 0))) ∧
     (isSram dom = true ∨ isHubSram dom = true → k < 8 → NatMap.find dom s.power.ups = none → s.stepOf dom = none →
       (s.opOf dom < k → ∃ t, Gives (.rvset p w d a b) s t ∧ workFrame s t ∧ laterEntry s t w d .work ∧
         t.power = { s.power with ups := NatMap.put dom nudge s.power.ups } ∧ Action.sramUpstep dom k ∈ t.due) ∧
       (k < s.opOf dom → s.rowBlocked dom k = false →
         ∃ t, Gives (.rvset p w d a b) s t ∧ workFrame s t ∧ laterEntry s t w d .work ∧ Action.stepSettle dom ∈ t.due ∧
           ∃ st, t.stepOf dom = some st ∧ st.target = k ∧ st.settling = some nudge) ∧
       (NatMap.find dom s.power.waiting = none → s.runsOn s.core.self = some s.cur →
         (k = s.opOf dom → ∃ t, Gives (.rvset p w d a b) s t ∧ workFrame s t ∧ t.power = s.power ∧ answeredEntry s t w d (rvEntry 0 k)) ∧
         (k < s.opOf dom → s.rowBlocked dom k = true →
           ∃ t, Gives (.rvset p w d a b) s t ∧ workFrame s t ∧ t.power = s.power ∧ answeredEntry s t w d (rvEntry 1 (s.opOf dom))))) ∧
     (isLogic dom = true ∨ dom = 68 → k ≤ 8 → (k = 8 → isLogic dom = true) →
       ∃ t, Gives (.rvset p w d a b) s t ∧ workFrame s t ∧ laterEntry s t w d .work ∧
         t.power = { s.power with
           req := NatMap.putD 0 dom k s.power.req, logicWait := NatMap.put dom (NatMap.findD [] dom s.power.logicWait ++ nudge.entries) s.power.logicWait })) ∧
    (∃ t, Gives (.rfloor p w d a b) s t ∧ workFrame s t ∧ t.power = s.power ∧
      workEntry s t w d (BitVec.ofNat 64 ((s.floorQuery (fld x 0 9) (fld y 0 16) (fld y 16 3) (fld y 20 3)).getD (2 ^ 63)))) ∧
    (let k := ringKey (fld x 0 5) (fld x 5 4) (bitAt x 9)
     let v := if bitAt y 16 then s.heaterOf k else BitVec.ofNat 16 (fld y 0 16)
     ∃ t, Gives (.rheat p w d a b) s t ∧ workFrame s t ∧ t.heaterOf k = v ∧ t.power = s.power ∧
       workEntry s t w d (BitVec.ofNat 64 (v.toNat + (Config.photodiode (s.free * 1024 + k)).toNat * 2 ^ 16 + b2n (heaterSat v) * 2 ^ 32)))

/-- R407, R443, R444, R453: RWAVE reads, parks, wakes or moves a wavelength of a direction of a port, and refuses to leave too few; REVPOST queues
a record for the host, RHFRAME moves one frame, and RSIGCHK answers whether a signature holds. -/
def Obligations.RangerLinkHostResults : Prop :=
  ∀ (s : State) (i : Instr) (p : BitVec 3) (w : Bool) (d : BitVec 6) (a b : Src) (x y : Word), PredOn s p → s.readS .int a = .ok x →
    s.readS .int b = .ok y → s.level = 2 → (w = false → s.core.hasQueue (d.setWidth 3) = true) →
    (RisingKeys s.fabric.ports →
     let port := fld x 0 5
     let wl := fld x 5 4
     let rx := bitAt x 9
     let k := s.portAt port
     let bit := oneBit wl
     let goes (k' : Port) (no : Bool) : Prop := ∃ t, Gives i s t ∧ workFrame s t ∧ t.portAt port = k' ∧ workEntry s t w d (t.waveEntry port wl rx no)
     i = .rwaveRead p w d a b ∨ i = .rwavePark p w d a b ∨ i = .rwaveWake p w d a b ∨ i = .rwaveMove p w d a b →
     (fld y 0 2 = 0 → goes k false) ∧
     (fld y 0 2 = 1 →
       let k' := k.withMasks rx (k.masks rx).1 ((k.masks rx).2 ||| bit)
       if ones (k'.live rx) < 4 ∨ (s.portBusy port = true ∧ ones (k'.live rx) < 12) then goes k true else goes k' false) ∧
     (fld y 0 2 = 2 → goes { k.withMasks rx ((k.masks rx).1 ||| bit) ((k.masks rx).2 &&& ~~~bit) with wakeReq := false } false) ∧
     (fld y 0 2 = 3 → (4 ≤ fld y 8 4 ∨ (k.spares rx).getLsbD (fld y 8 4) = true) → goes k true) ∧
     (fld y 0 2 = 3 → fld y 8 4 < 4 → (k.spares rx).getLsbD (fld y 8 4) = false →
       ∃ t, Gives i s t ∧ workFrame s t ∧ ((t.portAt port).spares rx).getLsbD (fld y 8 4) = true ∧ ((t.portAt port).masks rx).1 = (k.masks rx).1 ||| bit ∧
         workEntry s t w d (t.waveEntry port wl rx false))) ∧
    (x.toNat % 64 = 0 → x.toNat + 64 ≤ s.core.decl.rawBytes → s.port.events.length < 256 → s.port.session = none →
      Gives (.revpost p a) s { (s.pops [a]) with port := { s.port with
        events := s.port.events ++ [BitVec.ofNat 512 (loadNat s.core.pad.bytes x.toNat 64)] } }) ∧
    (i = .rhframeSend p w d a b ∨ i = .rhframeRecv p w d a b → x.toNat + 32 ≤ s.core.decl.rawBytes →
      (bitAt y 0 = true → s.port.frames = [] → ∃ t, Gives i s t ∧ workFrame s t ∧ workEntry s t w d (BitVec.ofNat 64 (2 ^ 63))) ∧
      (∀ f fs, bitAt y 0 = true → s.port.frames = f :: fs → x.toNat + 32 + f.payload.length ≤ s.core.decl.rawBytes →
        cellsWf s.core.pad.bytes = true →
        ∃ t, Gives i s t ∧ t.mem = s.mem ∧ t.port = { s.port with frames := fs } ∧ workEntry s t w d (BitVec.ofNat 64 (32 + f.payload.length)) ∧
          cellsAt t.core.pad.bytes x.toNat (32 + f.payload.length) = toBytes 32 (Frame.header f) ++ f.payload) ∧
      (let n := bits (loadNat s.core.pad.bytes x.toNat 32) 64 32
       bitAt y 0 = false → n ≤ 8192 → x.toNat + 32 + n ≤ s.core.decl.rawBytes →
       ∃ t, Gives i s t ∧ t.mem = s.mem ∧ workEntry s t w d (BitVec.ofNat 64 (32 + n)) ∧
         t.port = { s.port with sent := s.port.sent ++ [frameOf (loadNat s.core.pad.bytes x.toNat 32) (cellsAt s.core.pad.bytes (x.toNat + 32) n)] })) ∧
    (x.toNat + 128 ≤ s.core.decl.rawBytes →
      ∃ t, Gives (.rsigchk p w d a) s t ∧ workFrame s t ∧
        if w then t.core.q = s.core.q
        else ∃ e, (t.core.queueAt (d.setWidth 3)).entries = (s.core.queueAt (d.setWidth 3)).entries ++ [e] ∧ e.kind = .load ∧
          e.req.map (·.bytes.map (·.2)) = some ((toBytes 8 (s.sigCheck (cellsAt s.core.pad.bytes x.toNat 128))).map some))

/-- R283, R382, R407: the operations of RACCT on the block at a raw offset: a job account made with an allowance and its owner token, an
allowance added to within I64, a job released, and a job cancelled with every account below it. -/
def Obligations.RangerAccountResults : Prop :=
  ∀ (s : State) (i : Instr) (p : BitVec 3) (w : Bool) (d : BitVec 6) (a b : Src) (x y : Word),
    i = .racctCreate p w d a b ∨ i = .racctAdd p w d a b ∨ i = .racctRelease p w d a b ∨ i = .racctCancel p w d a b →
    PredOn s p → s.readS .int a = .ok x → s.readS .int b = .ok y → s.level = 2 → (w = false → s.core.hasQueue (d.setWidth 3) = true) →
    x.toNat + 64 ≤ s.core.decl.rawBytes →
    let r := loadNat s.core.pad.bytes x.toNat 64
    let h : Handle := BitVec.ofNat 32 r
    let amount : Word := BitVec.ofNat 64 (bits r 64 64)
    let acc := s.accAt (accId h)
    let op := fld y 0 2
    let goes (t : State) (v : Word) : Prop := Gives i s t ∧ workFrame s t ∧ workEntry s t w d v
    (∀ n, op = 0 → s.freeId (fld h 0 3) = some n →
      ∃ t, goes t ((accHandle n (s.accAt n)).setWidth 64) ∧ (t.accAt n).st = .opn ∧ (t.accAt n).level = .job ∧ (t.accAt n).allow = amount ∧
        (t.accAt n).owner = some { exp := 0#7, valid := true, acct := accHandle n (s.accAt n), pkg := s.fabric.num }) ∧
    (op ≠ 0 → s.live h = true → acc.level = .job → RisingKeys s.hub.accounts →
      (op = 1 → ∃ t, goes t (h.setWidth 64) ∧
        (t.accAt (accId h)).allow = BitVec.ofInt 64 (max (-(2 ^ 63)) (min (2 ^ 63 - 1) (acc.allow.toInt + amount.toInt)))) ∧
      (op = 2 → ∃ t, goes t (h.setWidth 64) ∧
        if acc.st = .done then (t.accAt (accId h)).st = .free else (t.accAt (accId h)).released = true ∧ (t.accAt (accId h)).owner = none) ∧
      (op = 3 → acc.st ≠ .done → ∃ t, goes t (h.setWidth 64) ∧ (t.accAt (accId h)).st = .cancelling)) ∧
    (op ≠ 0 → s.live h = false → ∃ t, goes t (BitVec.ofNat 64 ((causeCode .accountStale).toNat * 2 ^ 32 + 2 ^ 63)))

/-! ### Device actions -/

namespace Sys2Proof.Machine

/-- Performing an action completes with the state `t` (R264). -/
def Does (a : Action) (s t : State) : Prop := exec a.instr { s with act := some a } = .next t

/-- No load of the sequencer in focus waits, so that none is filled on the way. -/
def NoLoads (s : State) : Prop := s.core.oldestLoad = none

/-- The byte of device memory at `a` once the withheld lines `ws` are stored (R207, R222). -/
def storedByte (ws : List WLine) (m : List Host.Cell) (a : Nat) : Byte :=
  match ws.find? fun w => decide (w.pa = a / 64) with
  | some w => if w.mask.getLsbD (a % 64) then BitVec.ofNat 8 (fld w.data (8 * (a % 64)) 8) else cellAt m a
  | none => cellAt m a

end Sys2Proof.Machine

/-- R222, R224, R411, R415, R419, R421, R423: a checkpoint that waited is confirmed, its stores are released and the shadow set is taken; a
replay puts back the state of the checkpoint; a pre-empted unit is queued again with its context saved, and a resumed one goes on from its
image once its circuits are over; a stall without Q traps at its limit; the anchor token goes to the next that asks and returns after 16,384 steps. -/
def Obligations.IntervalActionResults : Prop :=
  ∀ (s : State) (c : Nat), c = s.cur →
    (s.core.phase = .begun → bitAt s.core.header 31 = true → NoLoads s → s.core.xlinvHit = false → s.heldOff = false → s.renewable s.core.reads = true →
      (s.core.withheld.map WLine.pa).Nodup → Memory.wf s.mem = true →
      ∃ t, Does (.checkpointConfirm c) s t ∧ t.core.arch = s.core.arch ∧ t.core.shadow = s.core.arch ∧ t.core.withheld = [] ∧ t.core.done = 0#3 ∧
        t.core.sinceCk = 0 ∧ ∀ a, cellAt t.mem a = storedByte s.core.withheld s.mem a) ∧
    (∀ n rest, s.hub.anchor = none → s.hub.anchorQ = n :: rest → c ∈ n :: rest → (∀ m ∈ n :: rest, (s.coreAt m).wantsAnchor = true) →
      ∃ t, Does (.anchorTokenGrant c) s t ∧ t.hub.anchor = some (n, s.time, []) ∧ t.hub.anchorQ = rest ∧ (t.coreAt n).anchored = true ∧
        Action.anchorHoldExpiry n ∈ t.due) ∧
    (∀ g ls, s.hub.anchor = some (c, g, ls) →
      ∃ t, Does (.anchorHoldExpiry c) s t ∧ t.core = s.core ∧ t.mem = s.mem ∧
        if g + 16384 ≤ s.time then t.hub.anchor = none else t.hub.anchor = some (c, g, ls) ∧ Action.anchorHoldExpiry c ∈ t.due) ∧
    (∀ u k v, s.core.unit = some u → k = Cause.leaseConflict ∨ k = Cause.xlinvReplay →
      ∃ t, Does (.rollback c k v) s t ∧ t.core.arch = { s.core.shadow with snapOk := Vector.replicate 16 false } ∧ t.core.phase = .left ∧
        t.core.latches = Vector.replicate 8 none ∧ t.core.flights = s.core.carry.map (fun f => { f with latch := none }) ∧
        t.core.withheld.map (fun w => (w.va, w.data, w.mask)) = s.core.saved.map (fun w => (w.va, w.data, w.mask)) ∧ t.core.unit = some u) ∧
    (∀ u y ps, s.core.unit = some u → s.unitAt u = some y → y.core = c → s.core.phase = .fresh → bitAt s.nextHeader 30 = true → s.core.fence = none →
      s.circuitsInto u = false → s.leaves = true → s.cancelling s.core.hold = false → s.core.writesInFlight ≤ 64 → NoLoads s → s.core.xlinvHit = false → s.core.reads = [] →
      s.core.preempt ≠ some .capacity → s.slotPages s.core.part (stackOf c) y.evac 0 6 = .ok ps →
      ∃ t z, Does (.preemption c) s t ∧ t.core.unit = none ∧ t.core.phase = .left ∧ t.unitAt u = some z ∧ z.st = .queued ∧
        z.ctx = some (if s.core.yieldReq = true ∧ s.core.preempt = none then .yielded else .preempted) ∧ z.pad.rings = s.core.pad.rings ∧
        t.core.queue = if s.core.yieldReq = true ∧ s.core.preempt = none then s.core.queue ++ [u] else u :: s.core.queue) ∧
    (∀ u y k ps, s.core.unit = none → s.core.standby = some u → s.unitAt u = some y → y.ctx = some k →
      s.cancelling y.hold = false → y.eng.gl.toList.all GlHandle.over = true → s.slotPages y.part (stackOf c) y.evac 0 6 = .ok ps →
      ∃ t z, Does (.resumeUnit c) s t ∧ t.core.unit = some u ∧ t.core.phase = .fresh ∧ t.unitAt u = some z ∧ z.st = .running ∧ t.mem = s.mem ∧
        t.core.arch = t.core.shadow ∧ t.core.arch.pc = BitVec.ofNat 64 (bits (s.slotRead ps ctxOff 512) 64 64) ∧
        (∀ i < 64, vget 0#64 t.core.arch.s i = BitVec.ofNat 64 (s.slotRead ps (ctxOff + 0x200 + 8 * i) 8)) ∧
        (∀ i < 64, vget 0#4096 t.core.arch.v i = BitVec.ofNat 4096 (s.slotRead ps (ctxOff + 0x3000 + 512 * i) 512)) ∧
        ∀ f ∈ t.core.flights, f.latch = none) ∧
    (∀ n, s.core.stallFrom = some n → bitAt s.core.header 30 = false → s.cancelling s.core.hold = false → s.core.preempt.isSome = true →
      ∃ t, Does (.qboundStallLimit c) s t ∧
        if s.time < n + 64 * s.core.qBound then t.core = s.core ∧ t.mem = s.mem ∧ Action.qboundStallLimit c ∈ t.due
        else t.core.phase = .left ∧ t.core.raised = some (.qboundOver, 0#64))

/-- R282, R284 to R286, R288, R290: the next unit of a launch that falls to a stack dispatcher is queued on the core that its placement gives, or
waits there for room, another dispatcher's unit being passed over; a unit outside a launch is queued where it is placed; the unit selected is admitted with its rows and its argument block, starts with the registers of R285, and is ended where its account is cancelled; rows
that are zeroed count as free again. -/
def Obligations.DispatchActionResults : Prop :=
  ∀ (s : State) (c : Nat),
    (∀ i d a l, i < 16384 → a = s.accAt i → a.launch = some l → a.st = .opn → l.nextOf d < l.count → l.waiting = false →
      let n := l.nextOf d
      let x := s.unitOfLaunch (accHandle i a) a.part l n
      let place := s.placeOf a.part x.spot x.s8 x.s9 x.s10 x.decl.rows
      (∀ k, l.dispatcher x = d → place = some k →
        ∃ t, Does (.unitPlace i d) s t ∧ t.mem = s.mem ∧ t.hub.nextUnit = s.hub.nextUnit + 1 ∧
          t.unitAt s.hub.nextUnit = some { x with st := .queued, core := k, stamp := (s.coreAt k).issuedN } ∧
          (t.coreAt k).queue = (s.coreAt k).queue ++ [s.hub.nextUnit] ∧
          t.accAt i = { a with launch := some { l.pass d with given := l.given + tokValue x.hold.exp }, created := a.created + 1#64 } ∧
          (n + 1 < l.count → Action.unitPlace i d ∈ t.due)) ∧
      (l.dispatcher x = d → place = none →
        ∃ t, Does (.unitPlace i d) s t ∧ t.mem = s.mem ∧ t.hub = s.hub ∧ Action.unitPlace i d ∈ t.due) ∧
      (l.dispatcher x ≠ d → l.starts.isSome = true ∨ l.place = 0 →
        ∃ t, Does (.unitPlace i d) s t ∧ t.mem = s.mem ∧ t.hub.units = s.hub.units ∧ t.accAt i = { a with launch := some (l.pass d) } ∧
          Action.unitPlace i d ∈ t.due)) ∧
    (∀ u x k, s.unitAt u = some x → x.st = .created → x.spot.wait = false → s.cancelling x.hold = false →
      s.placeOf x.part x.spot x.s8 x.s9 x.s10 x.decl.rows = some k →
      ∃ t z, Does (.unitPlace (16384 + u) 0) s t ∧ t.mem = s.mem ∧ t.unitAt u = some z ∧ z.st = .queued ∧ z.core = k ∧
        (t.coreAt k).queue = if x.ctx = none ∨ x.ctx = some .yielded then (s.coreAt k).queue ++ [u] else u :: (s.coreAt k).queue) ∧
    (∀ a u x ws, a = Action.unitAdmit c ∨ a = Action.unitAge c → (s.coreAt c).waitingMsgs = [] → s.selected c = some (u, x) →
      (s.coreAt c).standby = none → 0 < x.rows ∨ x.decl.rows = 0 ∨ s.rowsFit c x.decl.rows = true → x.spilled = false →
      RisingKeys s.hub.units → s.argBlock c x = .ok ws →
      ∃ t z, Does a s t ∧ t.mem = s.mem ∧ (t.coreAt c).standby = some u ∧ (t.coreAt c).queue = (s.coreAt c).queue.erase u ∧
        t.unitAt u = some z ∧ z.st = .standby ∧ (x.rows = 0 → z.rows = x.decl.rows ∧ z.core = c) ∧
        (x.ctx = none → (t.coreAt c).shadowS = ws)) ∧
    (∀ u y, c = s.cur → s.core.unit = none → s.core.standby = some u → s.unitAt u = some y → s.hub.noAdmit = false → y.ctx = none →
      s.cancelling y.hold = false →
      ∃ t z, Does (.unitStart c) s t ∧ t.mem = s.mem ∧ t.core.unit = some u ∧ t.core.standby = none ∧ t.unitAt u = some z ∧ z.st = .running ∧
        t.core.shadow = t.core.arch ∧
        t.core.arch = { pc := y.decl.entry.setWidth 64, s := t.core.arch.s, qSpan := vget 8192 s.hub.qBound y.part } ∧
        ∀ i < 64, vget 0#64 t.core.arch.s i =
          if i < 8 then s.core.shadowS.getD i 0#64 else if i = 8 then y.s8 else if i = 9 then y.s9 else if i = 10 then y.s10 else 0#64) ∧
    (∀ u x, s.unitAt u = some x → x.st ≠ .ended → x.st ≠ .running → RisingKeys s.hub.units → u < s.hub.nextUnit →
      ∃ t, Does (.unitCancelStop u) s t ∧ (x.ctx = none → x.handler = none → t.mem = s.mem) ∧ (∀ z, t.unitAt u = some z → z.st = .ended) ∧
        (x.hold.value ≠ 0 →
          Action.combinerAdd x.core
            { acct := x.hold.acct, pkg := x.hold.pkg, value := x.hold.value, taint := false, pts := wmax x.pts (maxOf x.eng.weak) } ∈ t.due)) ∧
    (∀ n, RisingKeys s.hub.freedRows →
      ∃ t, Does (.freedRowsZeroed c n) s t ∧ t.mem = s.mem ∧ t.core = s.core ∧ Action.unitAdmit c ∈ t.due ∧
        ∀ d, NatMap.findD 0 d t.hub.freedRows = if d = c then NatMap.findD 0 c s.hub.freedRows - n else NatMap.findD 0 d s.hub.freedRows)

namespace Sys2Proof.Machine

/-- The registers and the checkpoint of the sequencer in focus as they were. -/
def sameRegs (s t : State) : Prop := t.cur = s.cur ∧ t.core.arch = s.core.arch ∧ t.core.shadow = s.core.shadow

/-- Registers and memory as they were: what an action of the hub, the fabric or the links leaves alone. -/
def calm (s t : State) : Prop := t.mem = s.mem ∧ sameRegs s t

/-- The combiner entry of a return is of the account that another names. -/
def CombEntry.sameAs (e : CombEntry) (r : Ret) : Prop := e.acct = r.acct ∧ e.pkg = r.pkg

end Sys2Proof.Machine

/-- R272, R274, R275, R278, R283, R475: the home account grants a borrow by raising OUT by 2^63, or answers that OUT is saturated or that the account
takes no more, which ends the unit of a closed account; that of another package is asked by a packet; a grant gives the borrower, a unit or the ranger core,
a token of exponent 64 beside the one it keeps. A return adds
into the entry of its account in a combiner, a 33rd account flushing the oldest; the end of a period and a flush request send entries home; a return that
arrives lowers OUT by its value, and the account that has nothing out retires, returning its own token; a return of more than is out leaves 0 out
and sets TAINT and FAULT; one of another package's account goes on as a packet of class 4. -/
def Obligations.WeightActionResults : Prop :=
  (∀ (s : State) (h : Handle) (c : Nat) (x : Core) (w : Hold), x = s.coreAt c → w = s.weightOf c →
     (x.phase = .stalled → x.borrow = .idle → w.valid = true → w.acct = h → w.exp = 127#7 →
       let a := s.accAt (accId h)
       let takes := s.live h = true ∧ a.st ≠ .cancelling ∧ a.st ≠ .done
       (w.pkg = s.fabric.num → ∃ t, Does (.borrowRequest h c) s t ∧ calm s t ∧ (t.coreAt c).borrow = .asked ∧
         (takes → a.out + 2 ^ 63 < 2 ^ 128 → t.accAt (accId h) = { a with out := a.out + 2 ^ 63 } ∧ Action.borrowReply c h w.pkg none ∈ t.due) ∧
         (takes → 2 ^ 128 ≤ a.out + 2 ^ 63 → t.accAt (accId h) = { a with fault := true } ∧ Action.borrowReply c h w.pkg (some .weightSaturated) ∈ t.due) ∧
         (¬ takes → t.hub.accounts = s.hub.accounts ∧ Action.borrowReply c h w.pkg (some .accountClosed) ∈ t.due)) ∧
       (w.pkg ≠ s.fabric.num → ∃ t, Does (.borrowRequest h c) s t ∧ calm s t ∧ (t.coreAt c).borrow = .asked ∧ t.hub = s.hub ∧
         ∃ k, Action.trailPacketDeliver k ∈ t.due ∧ k.cls = 1#3 ∧ k.dpkg = w.pkg ∧ k.body = .borrow h c)) ∧
     (c < 512 → x.borrow = .asked → w.valid = true → w.acct = h →
       (c ≠ rangerId → ∃ t, Does (.borrowReply c h w.pkg none) s t ∧ calm s t ∧
         t.coreAt c = { x with hold := { w with exp := 64#7, pair := true }, borrow := .idle }) ∧
       (∀ j a, c = rangerId → s.hub.job = some j → s.live j = true → a = s.accAt (accId j) →
         ∃ t, Does (.borrowReply c h w.pkg none) s t ∧ calm s t ∧ t.coreAt c = { x with borrow := .idle } ∧
           t.accAt (accId j) = { a with owner := some { w with exp := 64#7, pair := true } }) ∧
       (∃ t, Does (.borrowReply c h w.pkg (some .weightSaturated)) s t ∧ calm s t ∧ t.coreAt c = { x with borrow := .saturated }) ∧
       (c = rangerId → ∃ t, Does (.borrowReply c h w.pkg (some .accountClosed)) s t ∧ calm s t ∧ t.coreAt c = { x with borrow := .cancelled }) ∧
       ∀ u, c = s.cur → c ≠ rangerId → x.unit = some u → RisingKeys s.hub.units → u < s.hub.nextUnit →
         ∃ t, Does (.borrowReply c h w.pkg (some .accountClosed)) s t ∧ t.core.unit = none ∧ ∀ z, t.unitAt u = some z → z.st = .ended)) ∧
  (∀ (s : State) (site : Nat) (r : Ret) (h : Handle),
     (∃ t, Does (.combinerAdd site r) s t ∧ calm s t ∧ Action.combinerFlushPeriod site ∈ t.due ∧
       ((∃ e ∈ s.combAt site, e.sameAs r) →
         (t.combAt site).length = (s.combAt site).length ∧ ∀ (i : Nat) (e : CombEntry), (s.combAt site)[i]? = some e →
           (e.sameAs r → (t.combAt site)[i]? = some { e with sum := e.sum + r.value, taint := e.taint || r.taint, pts := wmax e.pts r.pts }) ∧
           (¬ e.sameAs r → (t.combAt site)[i]? = some e)) ∧
       ((∀ e ∈ s.combAt site, ¬ e.sameAs r) →
         let new : CombEntry := { acct := r.acct, pkg := r.pkg, sum := r.value, taint := r.taint, pts := r.pts }
         ((s.combAt site).length < 32 → t.combAt site = s.combAt site ++ [new]) ∧
         ∀ e rest, s.combAt site = e :: rest → 32 ≤ (s.combAt site).length → t.combAt site = rest ++ [new] ∧ Action.returnArrive e.ret ∈ t.due)) ∧
     (RisingKeys s.hub.combs → ∃ t, Does (.combinerFlushPeriod site) s t ∧ calm s t ∧
       if s.time / 256 ≤ NatMap.findD 0 site s.hub.epochs then t.hub = s.hub ∧ Action.combinerFlushPeriod site ∈ t.due
       else t.combAt site = [] ∧ ∀ e ∈ s.combAt site, Action.returnArrive e.ret ∈ t.due) ∧
     (RisingKeys s.hub.combs → s.live h = true →
       ∃ t, Does (.flushRequest h) s t ∧ calm s t ∧ (t.accAt (accId h)).flushAt = some s.time ∧
         ∀ k e, e ∈ s.combAt k →
           (e.acct = h ∧ e.pkg = s.fabric.num → e ∉ t.combAt k ∧ Action.returnArrive e.ret ∈ t.due) ∧
           (¬ (e.acct = h ∧ e.pkg = s.fabric.num) → e ∈ t.combAt k)) ∧
     (r.pkg = s.fabric.num → s.live r.acct = true → (s.accAt (accId r.acct)).st ≠ .done →
       let a := s.accAt (accId r.acct)
       let b := { a with out := a.out - r.value, taint := a.taint || r.taint, pts := wmax a.pts r.pts }
       ∃ t, Does (.returnArrive r) s t ∧ calm s t ∧
         (r.value < a.out → t.accAt (accId r.acct) = b) ∧
         (r.value = a.out → a.released = false → t.accAt (accId r.acct) = { b with st := .done } ∧
           (a.parentV = true →
             Action.returnArrive { acct := a.parent, pkg := a.parentPkg, value := tokValue a.pexp, taint := b.taint, pts := b.pts } ∈ t.due)) ∧
         (a.out < r.value → a.released = false →
           t.accAt (accId r.acct) = { a with out := 0, taint := true, fault := true, pts := wmax a.pts r.pts, st := .done })) ∧
     (r.pkg ≠ s.fabric.num →
       ∃ t, Does (.returnArrive r) s t ∧ calm s t ∧ t.hub = s.hub ∧
         Action.trailPacketDeliver { cls := 4#3, spkg := s.fabric.num, score := 0, dpkg := r.pkg, dcore := 0, label := 0#16,
                                     podid := NatMap.findD 0#16 (farKey r.pkg r.acct) s.hub.farPods,
                                     tok := none, body := .ret r, seq := s.fabric.nextPkt } ∈ t.due))

/-- R280, R282, R292, R300: a message is consumed by label 0xFFFF, dropped where its account is being cancelled, spawns the unit of the trigger it matches on a core with queue room, waits in the
arrival buffer where none matches, or is refused, its token going home, at a core that is not its partition's; one that has waited 2^20 steps
is refused too. -/
def Obligations.MessageActionResults : Prop :=
  ∀ (s : State) (m : Message),
    let c := m.dcore.toNat
    let home : Action := .combinerAdd c { acct := m.tok.acct, pkg := m.tok.pkg, value := tokValue m.tok.exp, taint := false, pts := m.pts }
    s.overtakes m = false →
    (s.messagePart m = none ∨ s.ownerOfQuad (quadOf c) ≠ s.messagePart m →
      ∃ t, Does (.messageArrive m) s t ∧ calm s t ∧ t.hub = s.hub ∧ home ∈ t.due ∧
        ∃ e, Action.eventRecordArrive e ∈ t.due ∧ e.code = .landRefused ∧ e.src = 0#4 ∧ e.srcid = BitVec.ofNat 12 c) ∧
    (s.messagePart m ≠ none → s.ownerOfQuad (quadOf c) = s.messagePart m → (∀ k ∈ (s.coreAt c).waitingMsgs, sameStream m k.1 = false) →
      (m.label = 0xFFFF#16 → ∃ t, Does (.messageArrive m) s t ∧ calm s t ∧ t.hub = s.hub ∧ home ∈ t.due) ∧
      (m.label ≠ 0xFFFF#16 → (s.coreAt c).trigOf m = none → (s.coreAt c).arrivals.length < 16 → (s.coreAt c).held = [] →
        ∃ t, Does (.messageArrive m) s t ∧ calm s t ∧ t.hub = s.hub ∧ (t.coreAt c).arrivals = (s.coreAt c).arrivals ++ [(m, s.time)] ∧
          Action.messageTimeout c ∈ t.due) ∧
      (∀ g, m.label ≠ 0xFFFF#16 → (s.coreAt c).trigOf m = some g → s.cancelling (Tok.hold m.tok) = true →
        ∃ t, Does (.messageArrive m) s t ∧ calm s t ∧ t.hub = s.hub ∧ home ∈ t.due) ∧
      ∀ g, m.label ≠ 0xFFFF#16 → (s.coreAt c).trigOf m = some g → s.cancelling (Tok.hold m.tok) = false → s.queueRoom c = true →
        ∃ t u, Does (.messageArrive m) s t ∧ calm s t ∧ t.unitAt s.hub.nextUnit = some u ∧ u.st = .queued ∧ u.core = c ∧ u.index = g.unit ∧
          u.part = g.part ∧ u.prio = g.prio ∧ u.hold = Tok.hold m.tok ∧ u.argv = some m.payload ∧ u.s8 = BitVec.ofNat 64 m.srcCore ∧
          u.s9 = m.srcPkg.setWidth 64 ∧ u.s10 = m.label.setWidth 64 ∧ (t.coreAt c).queue = (s.coreAt c).queue ++ [s.hub.nextUnit]) ∧
    (RisingKeys s.others → (s.coreAt c).held = [] → (s.coreAt c).arrivals.length ≤ 16 →
      ∃ t, Does (.messageTimeout c) s t ∧ calm s t ∧
        (∀ e, e ∈ (t.coreAt c).arrivals ↔ e ∈ (s.coreAt c).arrivals ∧ s.time < e.2 + 2 ^ 20) ∧
        ((m, 0) ∈ (s.coreAt c).arrivals → 2 ^ 20 ≤ s.time → home ∈ t.due))

namespace Sys2Proof.Machine

/-- A unit whose weak trap record can be written at `p` (R253, R424): it has not ended, its slot translates, its core can take a trap, and no
image of its engines lies in memory. -/
def CanRecord (s : State) (u : Nat) (y : Uni) (p : Nat) : Prop :=
  u ≠ 0 ∧ u < s.hub.nextUnit ∧ RisingKeys s.hub.units ∧ s.unitAt u = some y ∧ y.st ≠ .ended ∧ (y.ctx = none ∨ (s.runsOn u).isSome = true) ∧
    s.slotPages y.part (stackOf y.core) y.evac 0 1 = .ok [p] ∧ (s.coreAt y.core).trapq.length < 16 ∧
    (y.handler = none ∨ (s.coreAt y.core).trapq = []) ∧ Memory.wf s.mem = true

/-- A trap of a unit goes to a handler: its partition has one, and the unit is none itself (R355). -/
def Handled (s : State) (y : Uni) : Prop := (s.handlerDecl y.part).isSome = true ∧ y.handler = none

/-- A unit is at its end, or forgotten. -/
def unitEnded (t : State) (u : Nat) : Prop := ∀ z, t.unitAt u = some z → z.st = .ended

/-- The weak trap record of a unit stands at `p` (R428). -/
def weakRecord (s t : State) (u : Nat) (y : Uni) (p : Nat) (i : TrapInfo) : Prop :=
  t.readNat p 128 = { i with weak := true }.record y.core y.part (b2n y.handler.isSome) 0#64 y.hold.acct
    (if (s.coreAt y.core).unit = some u then (s.coreAt y.core).pts else y.pts) % 2 ^ 1024

/-- A chunk that a local engine may perform now: not performed, not on its way, its transfer without fault, its data and its destination in
memory of this package that translates, the destination after the read, naming no barrier, with room under the cap of its core's requests. -/
def PlainChunk (s : State) (x lo : Nat) (f : Xfer) (ps qs : List Nat) : Prop :=
  let n := chunkLen f.record lo
  let src := recSrc f.record + BitVec.ofNat 64 lo
  s.xferAt x = some f ∧ lo ∈ f.todo ∧ f.faulted = false ∧ (∀ q ∈ f.sentOut, q.1 ≠ lo) ∧ f.dropAll = false ∧
    (f.isGet = true ∨ s.requestRoom f.core = true) ∧ recSrcSp f.record = 0 ∧ recDstSp f.record = 0 ∧ s.recFar f.record = false ∧
    recBarEn f.record = false ∧ s.hub.bad = [] ∧ qs.Nodup ∧ Memory.wf s.mem = true ∧ s.weakSpan f.core f.part src n false = .ok ps ∧
    (s.noteRead f.core f.part src ps).weakSpan f.core f.part (recDst f.record + BitVec.ofNat 64 lo) n true = .ok qs

/-- The words of a copied chunk that land now (R230): those that a first part left, or those of the first part, a free value. -/
def wordsNow (s : State) (h : Option HalfChunk) : BitVec 64 :=
  let first := BitVec.ofNat 64 (Config.sense s.free 4)
  match h with
  | some h => ~~~h.words
  | none => if first = 0#64 then BitVec.allOnes 64 else first

end Sys2Proof.Machine

/-- R198, R230, R231, R249, R385: a transfer reserves its bytes in a ring at its logical tail once those that started before it have theirs, or
drops every chunk where the ring is too small; a chunk moves its bytes from its source to its destination, some of its words perhaps before the
others, or reduces them there, once, and nothing else in memory; at the cap of its core's requests it waits. -/
def Obligations.ChunkActionResults : Prop :=
  ∀ (s : State) (x lo : Nat) (f : Xfer),
    (s.xferAt x = some f → f.started = false → f.heldGet = false → f.faulted = false → f.tok = none →
      (recDstSp f.record ≠ 2 ∨ s.recFar f.record = true →
        ∃ t, Does (.ringReserve x) s t ∧ calm s t ∧ t.xferAt x = some { f with started := true, land := s.landOf f } ∧
          ∀ k ∈ f.todo, Action.chunkPerform x k ∈ t.due) ∧
      ∀ u, recDstSp f.record = 2 → s.recFar f.record = false → s.landOf f = some u →
        let k := recRing f.record
        let r := vget {} (s.padOf u).rings k
        let n := (s.declOf u).ringLen k
        (n < recLen f.record → ∃ t, Does (.ringReserve x) s t ∧ calm s t ∧ t.xferAt x = some { f with started := true, dropAll := true, land := some u } ∧
          ∃ e, Action.eventRecordArrive e ∈ t.due ∧ e.code = .ringOversize ∧ e.tid = f.tid) ∧
        (recLen f.record ≤ n → swzMisfit (recSwizzle f.record) n = false → s.behindAnother x u k = false → u ≠ 0 → (s.unitAt u).isSome = true →
          if r.ready + r.held + r.resvBytes + recLen f.record ≤ n ∧ (r.line.takeWhile fun e => decide (e ≠ (s.fabric.num, x))).filter s.awaitsRoom = [] then
            ∃ t, Does (.ringReserve x) s t ∧ calm s t ∧
              t.xferAt x = some { f with
                started := true, land := some u, ring := some { unit := u, ring := k, resv := x, base := (r.head + (r.ready + r.held + r.resvBytes)) % n } } ∧
              vget {} (t.padOf u).rings k = { r with resv := r.resv ++ [{ id := x, len := recLen f.record }], line := r.line.erase (s.fabric.num, x) }
          else ∃ t, Does (.ringReserve x) s t ∧ calm s t ∧ t.xferAt x = some { f with land := some u } ∧
            (s.fabric.num, x) ∈ (vget {} (t.padOf u).rings k).line ∧ Action.ringReserve x ∈ t.due)) ∧
    (∀ ps qs as, PlainChunk s x lo f ps qs →
      (recOp f.record ≠ 0 → noteApplied { (s.landerOf x f).key with slice := s.homeOf (qs.headD 0) } lo s.hub.applied = some (true, as)) →
      let data := ps.map (cellAt s.mem)
      let new := if recOp f.record = 0 then data else reduceAll f.record (qs.map (cellAt s.mem)) data (data.length / recElem f.record)
      let half := s.halfOf (s.landerOf x f) lo
      let words := if recOp f.record = 0 then wordsNow s half else BitVec.allOnes 64
      ∃ t, Does (.chunkPerform x lo) s t ∧ sameRegs s t ∧
        (∀ (i a : Nat) (b : Byte), qs[i]? = some a → new[i]? = some b → cellAt t.mem a = if words.getLsbD (a / 4 % 64) then b else cellAt s.mem a) ∧
        (∀ a, a ∉ qs → cellAt t.mem a = cellAt s.mem a) ∧
        if words = BitVec.allOnes 64 ∨ (recOp f.record = 0 ∧ half.isSome = true) then
          (f.todo.erase lo ≠ [] → ∃ g, t.xferAt x = some g ∧ g.todo = f.todo.erase lo ∧ g.bytes = f.bytes + chunkLen f.record lo) ∧
          (f.todo.erase lo = [] → f.chan < 8 → Action.recordComplete x ∈ t.due) ∧
          (f.todo.erase lo = [] → 8 ≤ f.chan → f.isGet = true → Action.getComplete x ∈ t.due)
        else t.xferAt x = some f ∧ Action.chunkPerform x lo ∈ t.due ∧ (t.halfOf (s.landerOf x f) lo).map HalfChunk.words = some words) ∧
    (s.xferAt x = some f → lo ∈ f.todo → f.faulted = false → (∀ q ∈ f.sentOut, q.1 ≠ lo) → f.isGet = false → s.requestRoom f.core = false →
      ∃ t, Does (.chunkPerform x lo) s t ∧ calm s t ∧ t.hub = s.hub ∧ Action.chunkPerform x lo ∈ t.due) ∧
    (∀ ps qs as, PlainChunk s x lo f ps qs → recOp f.record ≠ 0 →
      noteApplied { (s.landerOf x f).key with slice := s.homeOf (qs.headD 0) } lo s.hub.applied = some (false, as) →
      ∃ t, Does (.chunkPerform x lo) s t ∧ calm s t)

/-- R250 to R253: a channel takes the record at HEAD under the next id and goes on to NEXT, or parks at a record it does not own; a shadow chain
starts when the current one is over; a record that is performed is given back with its id and DONE moves past it; a fault stops the channel with
the record's id, cause and address, and writes a weak trap record, which ends the unit where no handler takes it. -/
def Obligations.ChannelActionResults : Prop :=
  ∀ (s : State) (u n : Nat) (y : Uni), u ≠ 0 → n < 8 → s.unitAt u = some y →
    let h := s.chanAt u n
    (∀ c pa, s.runsOn u = some c → h.walking = true → h.error = false → h.owned.length < 4 → ¬ (h.limited = true ∧ h.limit = 0#32) →
      s.weakRead c y.part h.head 64 = .ok (upFrom pa 64) →
      let r : Block := BitVec.ofNat 512 (s.readNat pa 64)
      (recOwn r = false → ∃ t, Does (.channelTakeRecord u n) s t ∧ calm s t ∧ (t.chanAt u n).parked = true ∧ (t.chanAt u n).walking = false ∧
        (t.chanAt u n).head = h.head) ∧
      (recOwn r = true → recInvalid r (s.declOf u).rawBytes true = false →
        ∃ t, Does (.channelTakeRecord u n) s t ∧ calm s t ∧ t.xferAt s.hub.nextXfer = some (newXfer (s.coreAt c).hold u c y.part n h.issued h.head r) ∧
          t.chanAt u n = { h with
            issued := h.issued + 1, owned := h.owned ++ [s.hub.nextXfer], limit := if h.limited then h.limit - 1 else h.limit,
            walking := decide (recNext r ≠ 0#64), head := if recNext r ≠ 0#64 then recNext r else h.head } ∧
          Action.ringReserve s.hub.nextXfer ∈ t.due)) ∧
    (∀ c a b, s.runsOn u = some c → h.pending = some (a, b) → h.chainOver = true →
      ∃ t, Does (.channelShadowStart u n) s t ∧ calm s t ∧ Action.channelTakeRecord u n ∈ t.due ∧
        t.chanAt u n = { h with head := a, limit := b, limited := decide (b ≠ 0#32), walking := true, parked := false, pending := none }) ∧
    (∀ x f pa, s.xferAt x = some f → f.unit = u → f.chan = n → y.st ≠ .ended → s.weakAccess f.core f.part f.raddr true = .ok pa →
      s.struck (upFrom pa 64) = none → pa % 64 = 0 → Memory.wf s.mem = true → RisingKeys s.hub.xfers → h.ahead = [] →
      ∃ t, Does (.recordComplete x) s t ∧ sameRegs s t ∧ t.xferAt x = none ∧
        (y.ctx = none ∨ (s.runsOn u).isSome = true →
          cellAt t.mem pa = cellAt s.mem pa &&& 0xFE#8 ∧ t.readNat (pa + 48) 4 = f.tid.toNat ∧
          ∀ a, a ≠ pa → a < pa + 48 ∨ pa + 52 ≤ a → cellAt t.mem a = cellAt s.mem a) ∧
        (t.chanAt u n).owned = h.owned.erase x ∧ (t.chanAt u n).done = if h.done = f.tid then h.done + 1 else h.done) ∧
    (∀ x f k v p, s.xferAt x = some f → f.unit = u → f.chan = n → f.faulted = false → CanRecord s u y p →
      ∃ t, Does (.channelFault x k v) s t ∧ weakRecord s t u y p { cause := k, addr := v, engine := 1, chan := n, tid := f.tid } ∧
        (Handled s y → sameRegs s t ∧ t.xferAt x = some { f with faulted := true, sentOut := [] } ∧
          (t.chanAt u n).error = true ∧ (t.chanAt u n).faulted = h.faulted ++ [x] ∧
          (h.error = false → (t.chanAt u n).errTid = f.tid ∧ (t.chanAt u n).errCause = causeCode k ∧ (t.chanAt u n).errAddr = f.raddr)) ∧
        (¬ Handled s y → unitEnded t u))

/-- R183 to R188, R255: a fault of a PUT or GET drops its chunks and writes a weak trap record, the PUT ending there; a GET's entry takes its byte count,
with bit 63 set where a chunk was not performed. An operation of the sparse-index engine begins with its counts at zero, or ends in error where its
MODE is refused; the engine pushes an entry of the offsets it has read with the mask of their lanes; a fault of its metadata ends it in error with
a weak trap record. -/
def Obligations.EngineActionResults : Prop :=
  (∀ (s : State) (x : Nat) (f : Xfer) (u : Nat) (y : Uni), s.xferAt x = some f → f.unit = u → f.chan = 8 → RisingKeys s.hub.xfers →
     (∀ k v p, f.faulted = false → f.ring = none → CanRecord s u y p →
       ∃ t, Does (.putGetRemoteFault x k v) s t ∧ weakRecord s t u y p { cause := k, addr := v, engine := 2, chan := 8, tid := f.tid } ∧
         (Handled s y → sameRegs s t) ∧ (¬ Handled s y → unitEnded t u) ∧ (f.isGet = true → Action.getComplete x ∈ t.due ∧
           (Handled s y → t.xferAt x = some { f with todo := [], sentOut := [], bad := true, faulted := true })) ∧
         (f.isGet = false → t.xferAt x = none ∧ ∀ k, f.tok = some k →
           ∃ w, Action.combinerAdd f.core { acct := k.acct, pkg := k.pkg, value := tokValue k.exp, taint := false, pts := w } ∈ t.due)) ∧
     (∀ c id, f.isGet = true → s.runsOn u = some c → f.entry = some id → RisingKeys s.others →
       let v : Word := if f.bad then BitVec.ofNat 64 (f.bytes + 2 ^ 63) else BitVec.ofNat 64 (recLen f.record)
       ∃ t, Does (.getComplete x) s t ∧ calm s t ∧ t.xferAt x = none ∧
         ∀ q < 8, (vget {} (t.coreAt c).q q).entries = fillId id v (vget {} (s.coreAt c).q q).entries)) ∧
  (∀ (s : State) (u c : Nat) (y : Uni), u ≠ 0 → s.unitAt u = some y → s.runsOn u = some c →
     let x := s.sixAt u
     (∀ src cfg, x.run = none → x.shadow = some (src, cfg) →
       ∃ t, Does (.sixOpStart u) s t ∧ calm s t ∧ (t.sixAt u).emitted = 0#32 ∧ (t.sixAt u).consumed = 0#32 ∧ (t.sixAt u).shadow = none ∧
         if fld cfg 0 2 < 2 then
           (t.sixAt u).error = false ∧ (t.sixAt u).run = some { src := src, cfg := cfg, pos := 0, bytePos := 0, runLeft := 0, lanes := [] } ∧ Action.sixPush u ∈ t.due
         else (t.sixAt u).error = true ∧ (t.sixAt u).run = none ∧ ∃ e, Action.eventRecordArrive e ∈ t.due ∧ e.code = .sixFormat) ∧
     (∀ o g, x.run = some o →
       let q := o.queue
       let old := (vget {} (s.coreAt c).q q).entries
       let pushed (t : State) (ls : List (BitVec 32)) : Prop :=
         (vget {} (t.coreAt c).q q).entries =
           old ++ [{ val := .vector (laneTab fun i => ls.getD i 0#32), mask := BitVec.ofNat 128 (2 ^ min 128 ls.length - 1), filled := true, kind := .six,
                     id := 0, old := false, req := none }] ∧
         (t.sixAt u).emitted = x.emitted + BitVec.ofNat 32 ls.length
       let noted := s.noteSix u c o
       let read := if o.mode = 0 then noted.readBits u c 1024 o else noted.readRuns u c 1024 o
       (read = .full g → g.cfg = o.cfg → (s.coreAt c).sixMay g 128 = true →
         ∃ t, Does (.sixPush u) s t ∧ calm s t ∧ pushed t g.lanes ∧ (t.sixAt u).run = some { g with lanes := [] } ∧ Action.sixPush u ∈ t.due) ∧
       (read = .over g → g.cfg = o.cfg → (s.coreAt c).sixMay g g.lanes.length = true →
         ∃ t, Does (.sixPush u) s t ∧ calm s t ∧ pushed t g.lanes ∧ (t.sixAt u).run = none ∧ Action.sixOpStart u ∈ t.due)) ∧
     (∀ k v p, x.run.isSome = true → k ≠ .eccUncorrected → CanRecord s u y p →
       ∃ t, Does (.sixFault u k v) s t ∧ weakRecord s t u y p { cause := k, addr := v, engine := 3 } ∧
         (Handled s y → sameRegs s t ∧ (t.sixAt u).run = none ∧ (t.sixAt u).error = true ∧ Action.sixOpStart u ∈ t.due) ∧
         (¬ Handled s y → unitEnded t u)))

/-- R201 to R203, R219, R222: the load that was issued first is performed, its entry takes its bytes and logical time rises to the lines read; a
stash line is filled from its home under a lease of 64, the bytes of weak agents staying; Engine-dirty bytes go home and no other byte does, and
a line that was never filled is Invalid then. -/
def Obligations.LoadActionResults : Prop :=
  ∀ (s : State) (c : Nat),
    (∀ q r, (s.coreAt c).oldestLoad = some (q, r) → (∀ l ∈ r.lines, s.badLine l = false) → RisingKeys s.hub.ts →
      ∃ t, Does (.queueLoadFill c) s t ∧ calm s t ∧
        (vget {} (t.coreAt c).q q).entries = fillFirst (r.fmt.value (s.loadValue r)) (vget {} (s.coreAt c).q q).entries ∧
        (∀ k, k ≠ q → vget {} (t.coreAt c).q k = vget {} (s.coreAt c).q k) ∧
        (t.coreAt c).pts.toNat = r.lines.foldl (fun m l => max m (s.tsAt l).wts.toNat) (s.coreAt c).pts.toNat) ∧
    (∀ row line a pa z, line < 16 → NatMap.find row (s.coreAt c).arch.bound = some a → s.access c (a + BitVec.ofNat 64 (64 * line)) false true = .ok (pa, z) →
      s.badLine (lineOf pa) = false → cellsWf (s.coreAt c).pad.bytes = true →
      let k := row * 16 + line
      let keep := ((NatMap.find k (s.coreAt c).pad.lines).map StashLine.dirty).getD (Vector.replicate 8 0#64)
      let weak := ((NatMap.find k (s.coreAt c).pad.lines).map StashLine.mask).getD 0#64
      let now := wmax (s.coreAt c).pts (s.tsAt (lineOf pa)).wts
      ∃ t l, Does (.stashFill c row line) s t ∧ calm s t ∧ (t.coreAt c).pts = now ∧ NatMap.find k (t.coreAt c).pad.lines = some l ∧ l.pa = lineOf pa ∧
        l.dirty = keep ∧ l.filled = true ∧ l.wts = (s.tsAt (lineOf pa)).wts ∧ l.lease = now + 64#64 ∧
        ∀ i < 64, cellAt (t.coreAt c).pad.bytes ((s.coreAt c).decl.lineBase k + i) =
          if weak.getLsbD i then cellAt (s.coreAt c).pad.bytes ((s.coreAt c).decl.lineBase k + i) else cellAt s.mem (64 * lineOf pa + i)) ∧
    (∀ u y row, s.runsOn u = some c → u ≠ 0 → s.unitAt u = some y → y.spilled = false → Memory.wf s.mem = true → RisingKeys (s.coreAt c).pad.lines →
      let rows := (s.coreAt c).pad.rowLines row
      (rows.map (·.2.pa)).Nodup →
      ∃ t, Does (.stashWriteback u row) s t ∧ sameRegs s t ∧
        (∀ k l, (k, l) ∈ rows →
          (∀ i < 64, cellAt t.mem (64 * l.pa + i) =
            if l.mask.getLsbD i then cellAt (s.coreAt c).pad.bytes (y.decl.stashBase + 64 * k + i) else cellAt s.mem (64 * l.pa + i)) ∧
          if l.filled = true ∨ l.mask = 0#64 then ∃ m, NatMap.find k (t.coreAt c).pad.lines = some m ∧ m.pa = l.pa ∧ m.mask = 0#64
          else NatMap.find k (t.coreAt c).pad.lines = none) ∧
        ∀ a, (∀ k l, (k, l) ∈ rows → a / 64 ≠ l.pa) → cellAt t.mem a = cellAt s.mem a)

/-- R208, R212, R220, R350, R359 to R364, R445, R478: logical time of every sequencer that runs rises by one; a region leaves FT by who touched
it; an address-range entry takes effect; a walk installs its leaf and the directory names the holder; a stack that has nothing to replay
acknowledges an invalidation; a scrubbed word is counted, or marked bad; a partition that has drained takes its new descriptor; an event record
takes its place in the buffer, or is dropped and counted, and the report that the ranger core has halted goes to the host as well (log entry 132). -/
def Obligations.HubActionResults : Prop :=
  ∀ (s : State), RisingKeys s.others →
    (∃ t, Does .ptsTick s t ∧ calm s t ∧ Action.ptsTick ∈ t.due ∧
      t.hub = { s.hub with ticks := if s.hub.ticks < s.time / 64 then s.time / 64 else s.hub.ticks } ∧
      ∀ c < 257, (t.coreAt c).pts =
        if s.hub.ticks < s.time / 64 ∧ ((s.coreAt c).unit.isSome = true ∨ (c = rangerId ∧ s.port.boot = .running)) then (s.coreAt c).pts + 1#64 else (s.coreAt c).pts) ∧
    (∀ r touched wrote since, NatMap.find r s.hub.regions = some (.ft touched wrote since) →
      ∃ t, Does (.regionFtTimeout r) s t ∧ calm s t ∧
        NatMap.find r t.hub.regions = some (
          if s.time < since + 65536 then .ft touched wrote since
          else if touched.length = 1 then .dp touched.head? true
          else if wrote then .ft [] false s.time else .rs 0#64)) ∧
    (∀ i e, i < 64 → ∃ t, Does (.artUpdateEffect i e) s t ∧ calm s t ∧
      (∀ k < 64, vget 0#256 t.hub.art k = if k = i then e else vget 0#256 s.hub.art k) ∧
      (bitAt e 0 = true → artValid e = false → ∃ r, Action.eventRecordArrive r ∈ t.due ∧ r.code = .artInvalid)) ∧
    (∀ c va l, fld va 48 16 = 0 → cachedLeaf (s.coreAt c).tlb (s.coreAt c).part va.toNat = none → s.walk (s.coreAt c).part va = some l →
      (s.coreAt c).tlb.length < 256 → s.hub.tdir.length < 65536 →
      ∃ t, Does (.translationWalk c va) s t ∧ calm s t ∧ (t.coreAt c).tlb = (s.coreAt c).tlb ++ [l] ∧
        ∃ r ∈ t.hub.tdir, r.part = l.part ∧ r.va = l.va ∧ r.size = l.size ∧ stackOf c ∈ r.holders) ∧
    (∀ k, ∃ t, Does (.xlinvAck k) s t ∧ calm s t ∧
      (8 ≤ k ∨ (∀ v ∈ s.hub.inval, ∀ c, 32 * k ≤ c → c < 32 * k + 32 → c ≠ v.core → (s.coreAt c).xlinvHit = false) →
        t.hub.inval = (s.hub.inval.map fun v => { v with holders := v.holders.erase k }).filter fun v => !v.holders.isEmpty) ∧
      (∀ v ∈ s.hub.inval, ∀ c, k < 8 → 32 * k ≤ c → c < 32 * k + 32 → c ≠ v.core → (s.coreAt c).xlinvHit = true → k ∈ v.holders →
        v ∈ t.hub.inval ∧ Action.xlinvAck k ∈ t.due)) ∧
    (∀ w slice syn,
      (∃ t, Does (.scrub w slice 0 syn) s t ∧ calm s t ∧ t.hub = s.hub ∧ t.free = s.free + 1) ∧
      (∃ t, Does (.scrub w slice 1 syn) s t ∧ calm s t ∧
        let k := if slice then counterKey 0x00A6#16 1 (s.homeOf (32 * w)) else counterKey 0x00A6#16 5 (hbmStack (32 * w))
        NatMap.findD 0#32 k t.hub.counters =
          if NatMap.findD 0#32 k s.hub.counters = 0xFFFFFFFF#32 then 0xFFFFFFFF#32 else NatMap.findD 0#32 k s.hub.counters + 1#32) ∧
      ∃ t, Does (.scrub w slice 2 syn) s t ∧ calm s t ∧ w ∈ t.hub.bad ∧
        ∃ r, Action.eventRecordArrive r ∈ t.due ∧ r.code = .eccUncorrected ∧ r.src = if slice then 1#4 else 5#4) ∧
    (∀ p new, p < 8 → (s.hub.grants.find? fun g => decide (g.1 = p)) = some (p, new) → ((s.partAt p).quadsLost new).all s.quadIdle = true →
      (s.partAt p).windowsWithin new = true ∨ s.partIdle p = true →
      (∀ i a, (i, a) ∈ s.hub.accounts → a.st = .free ∨ (s.partAt p).hasAcct i = false ∨ new.hasAcct i = true) →
      ∃ t, Does (.drainComplete p) s t ∧ calm s t ∧ t.partAt p = new ∧ (∀ g ∈ t.hub.grants, g.1 ≠ p) ∧
        ∀ q ∈ (s.partAt p).quadsLost new, ∀ c ∈ coresOf q, t.coreAt c = Core.moved (s.coreAt c)) ∧
    (∀ e, Memory.wf s.mem = true →
      (e.code = .rangerHalt → s.port.events.length < 256 → (∀ v fs, s.port.session = some (v, fs) → fs.getLsbD 3 = false) →
        ∃ t, Does (.eventRecordArrive e) s t ∧ t.port.events = s.port.events ++ [eventBits e]) ∧
      (e.code ≠ .rangerHalt → ∃ t, Does (.eventRecordArrive e) s t ∧ t.port = s.port) ∧
      let made := s.hub.placed
      let taken := s.readNat (reservedBase + 0x10008) 8
      if (made + 2 ^ 64 - taken) % 2 ^ 64 = 1024 then
        ∃ t, Does (.eventRecordArrive e) s t ∧ calm s t ∧
          let k := counterKey 0x0093#16 5 0
          (NatMap.findD 0#32 k s.hub.counters ≠ 0xFFFFFFFF#32 → NatMap.findD 0#32 k t.hub.counters = NatMap.findD 0#32 k s.hub.counters + 1#32)
      else
        ∃ t, Does (.eventRecordArrive e) s t ∧ sameRegs s t ∧ t.readNat (reservedBase + 64 * (made % 1024)) 64 = (eventBits e).toNat ∧
          t.hub.placed = (made + 1) % 2 ^ 64 ∧ t.readNat (reservedBase + 0x10000) 8 = (made + 1) % 2 ^ 64 ∧
          ∀ a, (a < reservedBase + 64 * (made % 1024) ∨ reservedBase + 64 * (made % 1024) + 64 ≤ a) →
            (a < reservedBase + 0x10000 ∨ reservedBase + 0x10008 ≤ a) → cellAt t.mem a = cellAt s.mem a)

/-- R274, R370, R375 to R379, R384, R386: a logic domain takes its point, the combiners of its cores flush, and it leaves boost below OP7; a voltage that has risen or settled is the point of
its domain and ends the step; a row above the target moves to a free row under it; a unit that stands in the way of a step is to be pre-empted once
STEPWAIT has passed; the limits of current and of temperature act at once. -/
def Obligations.PowerStepActionResults : Prop :=
  ∀ (s : State) (d q c : Nat), RisingKeys s.power.op → RisingKeys s.power.steps → RisingKeys s.power.ups → RisingKeys s.others →
    (∀ k, ∃ t, Does (.logicStep d k) s t ∧ calm s t ∧ t.opOf d = k ∧ (∀ e, e ≠ d → t.opOf e = s.opOf e) ∧
      (isLogic d = true → k ≠ 7 → quadOfDomain d ∉ t.power.boost) ∧ (∀ j, Action.logicStep d j ∉ t.due) ∧
      (s.opOf d ≠ k → RisingKeys s.hub.combs → ∀ e ∈ coresOfDomain d, t.combAt e = [] ∧ ∀ r ∈ s.combAt e, Action.returnArrive r.ret ∈ t.due)) ∧
    (∀ k n, s.opOf d < k → NatMap.find d s.power.ups = some n → NatMap.find d s.power.waiting = none →
      (∀ e ∈ n.entries, (s.runsOn e.1).isSome = true) →
      ∃ t, Does (.sramUpstep d k) s t ∧ calm s t ∧ t.opOf d = k ∧ NatMap.find d t.power.ups = none ∧
        (∀ e ∈ coresOfDomain d, Action.unitAdmit e ∈ t.due) ∧
        ∀ u id, n.entries = [(u, id)] → s.runsOn u = some c → ∀ i < 8,
          (vget {} (t.coreAt c).q i).entries = fillId id (rvEntry 0 k) (vget {} (s.coreAt c).q i).entries) ∧
    (∀ st n, s.stepOf d = some st → st.settling = some n → st.evacs = [] → n.entries = [] → NatMap.find d s.power.waiting = none →
      (s.rowBlocked d n.point = false →
        ∃ t, Does (.stepSettle d) s t ∧ calm s t ∧ t.opOf d = n.point ∧ (∀ e ∈ coresOfDomain d, Action.unitAdmit e ∈ t.due) ∧
          t.stepOf d = if st.target < n.point then some { st with settling := none } else none) ∧
      (s.rowBlocked d n.point = true →
        ∃ t, Does (.stepSettle d) s t ∧ calm s t ∧ t.opOf d = s.opOf d ∧ t.stepOf d = some { st with settling := none })) ∧
    (∀ st row r, s.stepOf (sramDomain (quadOf c)) = some st → st.evacs = [] → st.fitted = true → row < 8192 → st.target < s.floorOf c (s.physRow c row) →
      s.freePhys c st.target = some r →
      ∃ t u, Does (.evacRowMove c row) s t ∧ sameRegs s t ∧
        ((∀ h ∈ s.holders c, ∀ l ∈ (s.padOf h.1).lines, l.2.mask = 0#64) → t.mem = s.mem) ∧ t.physRow c row = r ∧ s.floorOf c r ≤ st.target ∧
        t.stepOf (sramDomain (quadOf c)) = some u ∧ u.moved = st.moved + 1 ∧ u.target = st.target) ∧
    (∀ st, s.stepOf d = some st → st.fitted = false → c ∈ coresOfDomain d → s.fitsAt c st.target = false → s.spillNext c = none →
      (s.coreAt c).standby = none → (s.coreAt c).unit.isSome = true → (s.coreAt c).preempt = none →
      (∀ e ∈ coresOfDomain d, e ≠ c → s.fitsAt e st.target = true) →
      ∃ t, Does (.stepwaitExpire d) s t ∧ calm s t ∧ Action.stepwaitExpire d ∈ t.due ∧
        (t.coreAt c).preempt = if s.time < st.since + s.hub.stepwait.toNat then none else some .capacity) ∧
    (s.ilevelOf q = 0 →
      ∃ t, Does (.currentLimitEngage q) s t ∧ calm s t ∧ t.ilevelOf q = 1 ∧ q ∉ t.power.boost ∧ Action.currentLimitLevel2 q ∈ t.due) ∧
    (∃ t, Does (.currentLimitLevel2 q) s t ∧ calm s t ∧
      t.ilevelOf q = if s.ilevelOf q = 1 ∧ Config.sense s.free q % 2 = 1 then 2 else s.ilevelOf q) ∧
    (∃ t, Does (.thermalCrit q) s t ∧ calm s t ∧ t.ceilOf q = 0 ∧ t.opOf (logicDomain q) = 0 ∧
      ∃ r, Action.eventRecordArrive r ∈ t.due ∧ r.code = .thermalCrit)

/-- R380 to R387, R395, R396: at the boundary of a control interval the dispatcher takes the mode; each ACTIVE partition is charged the energy of
its quadrants and its part of the shared supplies, in whole microjoules with the fraction carried; a quadrant's ceiling and current level move by
its reading; a partition's cap and allowance move by its power against its budget; and the next interval is due. What the sensors read is free. -/
def Obligations.ControlIntervalResults : Prop :=
  ∀ (s : State) (rs : List Reading) (shared : Nat), (rs.map Reading.quad).Nodup → (∀ r ∈ rs, r.quad < 32) →
    RisingKeys s.power.ceil → RisingKeys s.power.cool → RisingKeys s.power.ilevel → RisingKeys s.power.cap → RisingKeys s.power.allow →
    RisingKeys s.power.energy → RisingKeys s.power.carryNj → (∀ d es e, (d, es) ∈ s.power.logicWait → e ∈ es → (s.runsOn e.1).isSome = true) →
    ∃ t, Does (.controlInterval rs shared) s t ∧ calm s t ∧ t.hub.modeDisp = s.hub.mode ∧ Action.controlInterval s.sensed (Config.sense s.free 3001) ∈ t.due ∧
      (∀ r ∈ s.sensed, 105 ≤ r.tempC → Action.thermalCrit r.quad ∈ t.due) ∧
      (∀ r ∈ rs,
        let c := s.ceilOf r.quad
        let n := NatMap.findD 0 r.quad s.power.cool
        t.ilevelOf r.quad = (if r.currentOk then s.ilevelOf r.quad - 1 else s.ilevelOf r.quad) ∧
        t.ceilOf r.quad = (if 105 ≤ r.tempC then 0 else if 95 ≤ r.tempC then c - 1 else if 88 < r.tempC then c else if 10 ≤ n + 1 then min 8 (c + 1) else c)) ∧
      ∀ p < 8, (s.partAt p).st = 1#2 →
        let used := s.partNj rs p * max 1 s.activeQuads
        let budget := s.budget p * 10000
        let c := s.capOf p
        let a := s.allowOf p
        (t.capOf p, t.allowOf p) =
          (if s.hub.mode = 2#2 then (0, 7)
           else if budget < used then (if c < 4 then (c + 1, a) else (c, a - 1))
           else if 10 * used < 9 * budget then (if a < 7 then (c, a + 1) else (c - 1, a))
           else (c, a)) ∧
        let w (p : Nat) : Nat := Config.sense s.free (1000 + p)
        let total := sumOf w s.activeParts
        let quads := sumOf (fun p => (s.partAt p).quadList.length) s.activeParts
        let byUse := if total = 0 then 0 else shared * w p / total
        let byQuads := if quads = 0 then 0 else Config.sense s.free 3000 * (s.partAt p).quadList.length / quads
        let all := NatMap.findD 0 p s.power.carryNj + sumOf Reading.energyNj (rs.filter fun r => decide (s.ownerOfQuad r.quad = some p)) + (byUse + byQuads)
        NatMap.findD 0#64 p t.power.energy = NatMap.findD 0#64 p s.power.energy + BitVec.ofNat 64 (all / 1000) ∧
        NatMap.findD 0 p t.power.carryNj = all % 1000

/-- R318, R320, R333 to R339: an open within the package takes the slots of its path and answers with the handle, or ends REFUSED where no path is
found; a flit of at most eight words goes into a slot with the words read then; it lands at the destination and is acknowledged; the
acknowledgement advances RESUME and closes a closing circuit that has none left; a lease that has run out ends the circuit; the end frees the
slots, those of a static set going back to its image, and waits for the final count, with which the handle ends; without one it ends after 2^20 steps with RESUME not final. -/
def Obligations.CircuitActionResults : Prop :=
  ∀ (s : State) (u h c : Nat) (y : Uni), u ≠ 0 → h < 16 → s.unitAt u = some y → y.st ≠ .ended → s.runsOn u = some c →
    let x := s.handleAt u h
    let b := x.block
    let home (t : State) (taint : Bool) : Prop := ∀ k, x.tok = some k →
      ∃ w, Action.combinerAdd c { acct := k.acct, pkg := k.pkg, value := tokValue k.exp, taint := taint, pts := w } ∈ t.due
    let answered (t : State) (v : Word) : Prop := ∀ id, x.entry = some id →
      ∀ q < 8, (vget {} (t.coreAt c).q q).entries = fillId id v (vget {} (s.coreAt c).q q).entries
    (x.st = .opening → x.score = c → s.glFar b = false → glStatic b = false → glDstSp b = 0 → glBarEn b = false →
      s.ownerOfQuad (quadOf (glCore b)) = some y.part →
      (∀ r, s.probe (.core (glCore b)) y.part (glWidth b) (quadOf c) 0 64 = some r → x.closeWith = .none →
        ∃ t, Does (.glopenComplete u h) s t ∧ calm s t ∧ answered t (glEntry h none) ∧ Action.guylineLeaseExpire u h ∈ t.due ∧
          t.handleAt u h =
            { x with st := .opn, width := glWidth b, lease := s.time + glLease b, path := r.1, dest := none, ring := none, entry := none } ∧
          ∀ k ∈ r.1, NatMap.find (slotKey k) t.fabric.wheels = some y.part) ∧
      (s.probe (.core (glCore b)) y.part (glWidth b) (quadOf c) 0 64 = none →
        ∃ t, Does (.glopenComplete u h) s t ∧ calm s t ∧ answered t (glEntry h (some .glNopath)) ∧ home t false ∧
          t.handleAt u h = { x with st := .ended, cause := .refused, tok := none, path := [], entry := none })) ∧
    (x.st = .opn ∨ x.st = .closing → s.glFar b = false →
      (∀ g rest, x.ending = false → x.pend = g :: rest →
        let n := min 8 (g.count - g.sent)
        ∃ t, Does (.guylineSlotSend u h) s t ∧ calm s t ∧
          t.handleAt u h = { x with sent := x.sent + n, pend := if g.sent + n = g.count then rest else { g with sent := g.sent + n } :: rest } ∧
          Action.guylineFlitLand u h x.sent (s.padRead u (g.off + 4 * g.sent) (4 * n)) ∈ t.due) ∧
      (x.ending = true → x.told = false → glStatic b = false → x.ring = none → RisingKeys s.fabric.wheels → (∀ k ∈ x.path, k.2 < 64) →
        ∃ t, Does (.guylineSlotSend u h) s t ∧ calm s t ∧ t.handleAt u h = { x with path := [], told := true } ∧
          (∀ k ∈ x.path, NatMap.find (slotKey k) t.fabric.wheels = s.staticOwner k) ∧ Action.guylineFinalCount u h x.landed ∈ t.due ∧
          Action.guylineFinalTimeout u h ∈ t.due) ∧
      (∀ pos data pas, x.told = false → x.why = none → pos = x.landed → glDstSp b = 0 → glBarEn b = false → pas.Nodup → Memory.wf s.mem = true →
        s.weakSpan c y.part (glDst b + BitVec.ofNat 64 (4 * pos)) data.length true = .ok pas →
        ∃ t, Does (.guylineFlitLand u h pos data) s t ∧ sameRegs s t ∧ t.handleAt u h = { x with landed := pos + data.length / 4 } ∧
          Action.guylineAckArrive u h (pos + data.length / 4) ∈ t.due ∧
          (∀ (i a : Nat) (v : Byte), pas[i]? = some a → data[i]? = some v → cellAt t.mem a = v) ∧ ∀ a, a ∉ pas → cellAt t.mem a = cellAt s.mem a) ∧
      (∀ pos data k v, x.told = false → x.why = none → pos = x.landed → glDstSp b = 0 → glBarEn b = false → x.ending = false →
        s.weakSpan c y.part (glDst b + BitVec.ofNat 64 (4 * pos)) data.length true = .error (k, v) →
        ∃ t, Does (.guylineFlitLand u h pos data) s t ∧ calm s t ∧ Action.guylineSlotSend u h ∈ t.due ∧
          t.handleAt u h = { x with st := .closing, why := some k, cause := .faulted, ending := true, pend := [], endAt := s.time }) ∧
      (∀ n, let m := max x.resumeW n
        ∃ t, Does (.guylineAckArrive u h n) s t ∧ calm s t ∧
          if x.st = .closing ∧ x.ending = false ∧ x.pend = [] ∧ m = x.sent then
            t.handleAt u h = { x with resumeW := m, cause := .closed, ending := true, endAt := s.time } ∧ Action.guylineSlotSend u h ∈ t.due
          else t.handleAt u h = { x with resumeW := m }) ∧
      (x.ending = false → ∃ t, Does (.guylineLeaseExpire u h) s t ∧ calm s t ∧
        if x.lease ≤ s.time then
          t.handleAt u h = { x with st := .closing, cause := .expired, ending := true, pend := [], endAt := s.time } ∧ Action.guylineSlotSend u h ∈ t.due
        else t.handleAt u h = x ∧ Action.guylineLeaseExpire u h ∈ t.due) ∧
      (∀ n, x.ending = true → x.told = true → x.cause = .closed ∨ x.cause = .expired ∨ x.cause = .preempted →
        ∃ t, Does (.guylineFinalCount u h n) s t ∧ calm s t ∧ home t false ∧
          t.handleAt u h = { x with st := .ended, ending := false, final := true, resumeW := n, tainted := false, tok := none, ring := none, dest := none }) ∧
      (∀ n p, x.ending = true → x.told = true → x.cause = .failed → CanRecord s u y p →
        ∃ t, Does (.guylineFinalCount u h n) s t ∧ home t true ∧
          (Handled s y → sameRegs s t ∧ (t.handleAt u h).st = .ended ∧ (t.handleAt u h).tainted = true) ∧ (¬ Handled s y → unitEnded t u) ∧
          weakRecord s t u y p { cause := .glBroken, engine := 4, glh := h, resume := n, sent := x.sent } ∧
          ∃ e, Action.eventRecordArrive e ∈ t.due ∧ e.code = .glBroken) ∧
      (x.ending = true → x.cause = .closed →
        ∃ t, Does (.guylineFinalTimeout u h) s t ∧ calm s t ∧
          if x.endAt + 2 ^ 20 ≤ s.time then home t false ∧
            t.handleAt u h = { x with st := .ended, ending := false, final := false, tainted := false, tok := none, ring := none, dest := none }
          else t.handleAt u h = x ∧ Action.guylineFinalTimeout u h ∈ t.due))

/-- R279, R280, R316, R318, R325 to R329, R342, R343: a packet for this package is delivered by what it carries; one for another leaves as flits in
the replay buffer of the port its flow takes, or is refused at its source where no port leads there; promoted circuits that carry little end at the
boundary of a window; a probe promotes a flow, or is remembered as abandoned; a contribution combines into the open episode of its tree, whose
result goes down from the root, fills the entries of the members that wait and opens the next episode; an episode that has waited TMO is BROKEN. -/
def Obligations.PacketFlowActionResults : Prop :=
  ∀ (s : State) (k : Packet) (c key : Nat),
    (s.behind k = false →
      (k.dpkg = s.fabric.num →
        (∀ m, k.body = .message m → ∃ t, Does (.trailPacketDeliver k) s t ∧ calm s t ∧ t.hub = { s.hub with farPods := t.hub.farPods } ∧
          Action.messageArrive m ∈ t.due ∧
          (k.tok = none → m.tok.pkg ≠ s.fabric.num → NatMap.find (farKey m.tok.pkg m.tok.acct) t.hub.farPods = some k.podid)) ∧
        (∀ r, k.body = .ret r → r.pkg ≠ s.fabric.num ∨ s.writtenOff r.acct k.spkg = false →
          ∃ t, Does (.trailPacketDeliver k) s t ∧ calm s t ∧ t.hub = { s.hub with farPods := t.hub.farPods } ∧ Action.returnArrive r ∈ t.due) ∧
        (∀ r, k.body = .ret r → r.pkg = s.fabric.num → s.writtenOff r.acct k.spkg = true →
          ∃ t, Does (.trailPacketDeliver k) s t ∧ calm s t ∧ t.hub = { s.hub with farPods := t.hub.farPods } ∧ t.due = s.due) ∧
        (∀ x va lo n p pas, k.body = .read x va lo n → s.partOfPod k.podid = some p → s.weakRead (cameBy k) p (BitVec.ofNat 64 va) n = .ok pas →
          ∃ t j, Does (.trailPacketDeliver k) s t ∧ calm s t ∧ Action.trailPacketDeliver j ∈ t.due ∧ j.dpkg = k.spkg ∧ j.dcore = k.score ∧
            j.body = .readData x lo (pas.map (cellAt s.mem))) ∧
        (∀ tree v broken p, k.body = .podDown tree v broken → s.partOfPod k.podid = some p →
          ∃ t, Does (.trailPacketDeliver k) s t ∧ calm s t ∧ Action.podBarrierResult (64 * p + tree) v broken ∈ t.due)) ∧
      (k.dpkg ≠ s.fabric.num → k.dpkg.toNat < 4096 → s.heldBack k = false →
        (∀ p, s.portFor k = some p → (s.portAt p).sends = true → (s.portAt p).replay.length + (pktFlits k).length ≤ 2048 →
          (∀ h v, s.cargo k = some (h, v) → k.cls ≠ 0#3 ∨ s.exportRoom h k.dpkg = true) →
          let x := s.portAt p
          ∃ t fs, Does (.trailPacketDeliver k) s t ∧ calm s t ∧
            t.portAt p = { x with replay := x.replay ++ fs, seqOut := x.seqOut + BitVec.ofNat 12 fs.length } ∧ fs.map Flit.data = pktFlits k ∧
            (∀ (i : Nat) (f : Flit), fs[i]? = some f → f.seq = x.seqOut + BitVec.ofNat 12 i ∧ f.ack = x.seqIn - 1 ∧
              f.pkt = if i + 1 = fs.length then some k else none)) ∧
        (∀ m, k.body = .message m → s.portFor k = none →
          ∃ t, Does (.trailPacketDeliver k) s t ∧ calm s t ∧
            (∃ e, Action.eventRecordArrive e ∈ t.due ∧ e.code = .landRefused ∧ e.acct = m.tok.acct) ∧
            ∀ q, k.tok = some q → Action.combinerAdd (dieSite 0) { acct := q.acct, pkg := q.pkg, value := tokValue q.exp, taint := false, pts := 0#64 } ∈ t.due))) ∧
    (∃ t, Does .flowWindowBoundary s t ∧ calm s t ∧ Action.flowWindowBoundary ∈ t.due ∧
      if s.time / 4096 ≤ s.hub.windows then t.fabric = s.fabric ∧ t.hub = s.hub
      else t.hub.windows = s.time / 4096 ∧ (∀ m ∈ t.fabric.meters, ∀ f ∈ m.2, f.count = 0) ∧
        ∀ q, q ∈ t.fabric.promoted ↔
          q ∈ s.fabric.promoted ∧ s.hub.meter.toNat ≤ 2 * flowCount q.flow (NatMap.findD [] q.flow.score s.fabric.meters)) ∧
    (∀ f p, s.flowOf c key = some f → NatMap.find (probeKey c key) s.fabric.probedAt = none → f.count ≠ 0 → s.hub.modeDisp = 0#2 →
      (∀ q ∈ s.fabric.promoted, f.same q.flow = false) → s.ownerOfQuad (quadOf c) = some p → f.dpkg = s.fabric.num → f.dcore < 256 →
      let w := min 32 ((f.count + 2047) / 2048)
      (∀ r, s.probe (.core f.dcore) p w (quadOf c) 0 64 = some r →
        ∃ t, Does (.flowPromoteProbe c key) s t ∧ calm s t ∧
          t.fabric.promoted = s.fabric.promoted ++ [{ key := key, flow := f, part := p, width := w, path := r.1, mark := s.fabric.nextPkt }] ∧
          ∀ e ∈ r.1, NatMap.find (slotKey e) t.fabric.wheels = some p) ∧
      (s.probe (.core f.dcore) p w (quadOf c) 0 64 = none →
        ∃ t, Does (.flowPromoteProbe c key) s t ∧ calm s t ∧ t.fabric.promoted = s.fabric.promoted ∧
          NatMap.find (probeKey c key) t.fabric.probedAt = some s.time)) ∧
    (∀ tr part v broken, s.treeOf key = some tr → part ∈ tr.participants → s.nextEpisode key part = s.openEpisode key → ¬ (part < 256 ∧ broken = true) →
      v.getLsbD 63 = false →
      let e := s.episodeAt key (s.openEpisode key)
      let value : Word := match e.value with
        | some a => tr.combine a v
        | none => BitVec.ofNat 64 (v.toNat % 2 ^ 63)
      let e1 : Episode := { e with value := some value, joined := e.joined ++ [part], broken := e.broken || broken }
      (∃ m ∈ tr.participants, m < 256 ∧ m ∉ e1.joined) ∨ (∀ m ∈ tr.participants, m ∈ e1.joined) →
      ∃ t, Does (.podBarrierCombine key (some part) v broken) s t ∧ calm s t ∧ t.episodeAt key (s.openEpisode key) = e1 ∧
        t.nextEpisode key part = s.nextEpisode key part + 1 ∧
        ((∀ m ∈ tr.participants, m ∈ e1.joined) →
          (tr.root = true → Action.podBarrierResult key value e1.broken ∈ t.due) ∧
          (tr.root = false → (s.portAt tr.up).lost = false →
            ∃ j, Action.trailPacketDeliver j ∈ t.due ∧ j.dpkg = (s.portAt tr.up).peer ∧ j.body = .podUp tr.num value e1.broken))) ∧
    (∀ tr v broken, s.treeOf key = some tr →
      (∀ b ∈ s.hub.barWaits, b.tree = key → b.num = s.openEpisode key → (s.runsOn b.unit).isSome = true) →
      ∃ t, Does (.podBarrierResult key v broken) s t ∧ calm s t ∧ t.openEpisode key = s.openEpisode key + 1 ∧
        (∀ b, b ∈ t.hub.barWaits ↔ b ∈ s.hub.barWaits ∧ ¬ (b.tree = key ∧ b.num = s.openEpisode key)) ∧
        (∀ p < 32, tr.down.getLsbD p = true →
          ∃ j, Action.trailPacketDeliver j ∈ t.due ∧ j.dpkg = (s.portAt p).peer ∧ j.body = .podDown tr.num v broken) ∧
        ∀ b d, (s.hub.barWaits.filter fun b => decide (b.tree = key) && decide (b.num = s.openEpisode key)) = [b] → b.unit ≠ 0 →
          s.runsOn b.unit = some d →
          ∀ q < 8, (vget {} (t.coreAt d).q q).entries =
            fillId b.id (BitVec.ofNat 64 (v.toNat % 2 ^ 63 + b2n broken * 2 ^ 63)) (vget {} (s.coreAt d).q q).entries) ∧
    (∀ tr e, s.treeOf key = some tr → (s.hub.episodes.find? fun e => decide (e.tree = key) && decide (e.num = s.openEpisode key)) = some e →
      (∃ m ∈ tr.participants, m ∉ e.joined) →
      (∀ b ∈ s.hub.barWaits, b.tree = key → b.num = s.openEpisode key → (s.runsOn b.unit).isSome = true) →
      ∃ t, Does (.barTimeout key) s t ∧ calm s t ∧
        if e.since + tr.tmo ≤ s.time then
          t.openEpisode key = s.openEpisode key + 1 ∧ ∃ r, Action.eventRecordArrive r ∈ t.due ∧ r.code = .barTimeout
        else t.hub = s.hub ∧ Action.barTimeout key ∈ t.due)

/-- R314, R315, R429, R433 to R440, R444, R451, R464: a port comes up where its peer is in the pod map; flits are taken in order of SEQ, held ones
leave as they are acknowledged and are resent on request; a flit whose CRC does not fit, or whose KIND is none of the four, is refused; sixteen attempts at a flit or 2^16 steps without a good flit retrain the link, and a third
failure, or the last wavelength, loses it; a loss of light restripes; a lost link resends what its peer did not accept, or gives it up. -/
def Obligations.LinkActionResults : Prop :=
  ∀ (s : State) (port : Nat), RisingKeys s.fabric.ports →
    let x := s.portAt port
    let noted (t : State) (k : Cause) : Prop := ∃ e, Action.eventRecordArrive e ∈ t.due ∧ e.code = k ∧ e.src = 3#4 ∧ e.srcid = BitVec.ofNat 12 port
    let gone (t : State) : Prop := (t.portAt port).up = false ∧ (t.portAt port).lost = true
    (∀ ident num ver mask flight, port < 32 → s.fabric.podmap ≠ [] → ¬ (x.lost = true ∧ x.replay ≠ []) →
      ((ident, num) ∈ s.fabric.podmap → ver ≠ 0#16 →
        ∃ t, Does (.linkTraining port ident num ver mask flight) s t ∧ calm s t ∧ (t.portAt port).up = true ∧ (t.portAt port).lost = false ∧
          (t.portAt port).peer = num ∧ (t.portAt port).flight = flight % 64 ∧ (t.portAt port).rxMask = mask ∧
          (x.up = false → (t.portAt port).seqIn = 0#12 ∧ (t.portAt port).seqOut = 0#12) ∧ Action.linkRetrain port ∈ t.due ∧
          ((NatMap.findD [] num.toNat s.fabric.routes).length < 4 → port ∈ NatMap.findD [] num.toNat t.fabric.routes)) ∧
      (((ident, num) ∉ s.fabric.podmap ∨ ver = 0#16) → x.up = false →
        ∃ t, Does (.linkTraining port ident num ver mask flight) s t ∧ calm s t ∧ noted t .linkMismatch ∧ (t.portAt port).up = false)) ∧
    (∀ f, x.up = true → x.lost = false → x.training = false →
      (flitGood f = true → f.kind = .trail ∨ f.kind = .circuit →
        ∃ t, Does (.flitReceive port f) s t ∧ calm s t ∧ (t.portAt port).lastGood = s.time ∧ (t.portAt port).replay = ackFlits f.ack x.replay ∧
          if f.seq = x.seqIn then
            (t.portAt port).seqIn = x.seqIn + 1 ∧ (t.portAt port).asked = none ∧
            ∀ k, f.pkt = some k → ∃ j, Action.trailPacketDeliver j ∈ t.due ∧ j.body = k.body ∧ j.dpkg = k.dpkg ∧ j.via = port + 1
          else (t.portAt port).seqIn = x.seqIn ∧ (t.portAt port).asked = some x.seqIn) ∧
      (flitGood f = false → ∃ t, Does (.flitReceive port f) s t ∧ calm s t ∧ t.portAt port = { x with asked := some x.seqIn } ∧
        let k := counterKey 0x00A8#16 3 (port + 32)
        NatMap.findD 0#32 k t.hub.counters =
          if NatMap.findD 0#32 k s.hub.counters = 0xFFFFFFFF#32 then 0xFFFFFFFF#32 else NatMap.findD 0#32 k s.hub.counters + 1#32)) ∧
    (∀ seq, x.sends = true →
      ∃ t, Does (.replayRequest port seq) s t ∧ calm s t ∧
        t.portAt port = { x with replay := (x.replay.takeWhile fun f => decide (f.seq ≠ seq)) ++ (flitsFrom seq x.replay).map fun f => { f with again := f.again + 1 } } ∧
        let k := counterKey (causeCode .linkReplay) 3 port
        (NatMap.findD 0#32 k t.hub.counters).toNat = min (2 ^ 32 - 1) ((NatMap.findD 0#32 k s.hub.counters).toNat + (flitsFrom seq x.replay).length)) ∧
    (x.up = true → x.lost = false → x.training = false →
      ∃ t, Does (.linkRetrain port) s t ∧ sameRegs s t ∧ (s.circuitsBy port = [] → t.mem = s.mem) ∧
        if (∃ f ∈ x.replay, 16 ≤ f.again) ∨ x.lastGood + 2 ^ 16 ≤ s.time then
          t.portAt port = { x with training := true } ∧ (∃ ok flight seq, Action.retrainEnd port ok flight seq ∈ t.due) ∧
          ∀ q ∈ t.fabric.promoted, ∀ w ∈ q.path, w.1 ≠ portWheel port
        else t.portAt port = x ∧ Action.linkRetrain port ∈ t.due) ∧
    (∀ flight seq, x.training = true → x.lost = false →
      (∃ t, Does (.retrainEnd port true flight seq) s t ∧ calm s t ∧ Action.linkRetrain port ∈ t.due ∧ (t.portAt port).training = false ∧
        (t.portAt port).fails = 0 ∧ (t.portAt port).flight = flight % 64 ∧ (t.portAt port).lastGood = s.time) ∧
      (x.fails < 2 → ∃ t, Does (.retrainEnd port false flight seq) s t ∧ calm s t ∧ t.portAt port = { x with fails := x.fails + 1 } ∧
        ∃ ok fl sq, Action.retrainEnd port ok fl sq ∈ t.due) ∧
      (2 ≤ x.fails → ∃ t, Does (.retrainEnd port false flight seq) s t ∧ gone t ∧ ∀ d, port ∉ NatMap.findD [] d t.fabric.routes)) ∧
    (∀ rx lost, x.up = true → x.lost = false → (if rx then x.restripeRx else x.restripeTx) = none → x.live rx &&& lost ≠ 0#16 →
      if x.live rx &&& ~~~lost = 0#16 then ∃ t, Does (.lightLoss port rx lost) s t ∧ gone t
      else
        ∃ t, Does (.lightLoss port rx lost) s t ∧ calm s t ∧ noted t .lightLoss ∧ (∃ seq, Action.restripeComplete port rx seq ∈ t.due) ∧
          let p := some (x.live rx, (x.masks rx).1 &&& ~~~lost)
          t.portAt port = if rx then { x with restripeRx := p } else { x with restripeTx := p }) ∧
    (∀ rx seq a b, (if rx then x.restripeRx else x.restripeTx) = some (a, b) →
      ∃ t, Does (.restripeComplete port rx seq) s t ∧ sameRegs s t ∧ (s.circuitsBy port = [] → t.mem = s.mem) ∧ noted t .restriped ∧ ((t.portAt port).masks rx) = (b, (x.masks rx).2) ∧
        (if rx then (t.portAt port).restripeRx else (t.portAt port).restripeTx) = none ∧
        (ones (b &&& ~~~(x.masks rx).2) < 12 → ∀ q ∈ t.fabric.promoted, ∀ w ∈ q.path, w.1 ≠ portWheel port)) ∧
    (∀ last, x.lost = true → x.replay ≠ [] → s.reachable x.peer = true →
      ∃ t, Does (.reconcile port last) s t ∧ calm s t ∧ t.portAt port = { x with replay := [] } ∧ noted t .linkLost ∧
        ∀ k ∈ wholePackets (flitsAfter last x.replay), Action.trailPacketDeliver { k with via := 0 } ∈ t.due) ∧
    (x.lost = true → x.replay ≠ [] →
      (s.time < x.lostAt + 2 ^ 20 → s.reachable x.peer = true →
        ∃ t, Does (.reconcileTimeout port) s t ∧ calm s t ∧ t.portAt port = x ∧ Action.reconcileTimeout port ∈ t.due) ∧
      (x.lostAt + 2 ^ 20 ≤ s.time →
        ∃ t, Does (.reconcileTimeout port) s t ∧ (t.portAt port).replay = [] ∧ noted t .linkLost ∧
          ∀ k q, k ∈ wholePackets x.replay → k.tok = some q → q.pkg ≠ s.fabric.num ∨ s.writtenOff q.acct k.dpkg = false →
            Action.combinerAdd (dieSite 0) { acct := q.acct, pkg := q.pkg, value := tokValue q.exp, taint := true, pts := 0#64 } ∈ t.due)) ∧
    (∃ t, Does (.laserWakeRequest port) s t ∧ calm s t ∧ t.portAt port = { x with wakeReq := true })

namespace Sys2Proof.Machine

/-- A response to a frame is among those sent: its OP and TAG, and what it answers (R448, R449). -/
def answered (s t : State) (f : Frame) (code : BitVec 16) (a0 a1 : Word) (payload : List Byte) : Prop :=
  ∃ r rest, t.port.sent = s.port.sent ++ r :: rest ∧ r.op = f.op ∧ r.tag = f.tag ∧ r.status = code ∧ r.arg0 = a0 ∧ r.arg1 = a1 ∧ r.payload = payload

end Sys2Proof.Machine

/-- R448, R450, R454, R456, R457: boot stops at a blob, a floor or firmware that is not good, and else makes partition 0 active and opens the port;
HELLO opens a session with the features both have, or is refused; a session ends by GOODBYE or a silence of a second; bulk data moves where it was
agreed; an image is installed or refused; RESET boots again and keeps what is not volatile. -/
def Obligations.HostSessionActionResults : Prop :=
  ∀ (s : State) (f : Frame),
    (s.port.boot = .off →
      let b := s.port.blob
      let s1 := s.withPower { s.power with blob := b, idleW := Config.blobIdleW b }
      let fw := parseImage s.port.flashFw
      let halts (k : BitVec 16) : Prop := ∃ t, Does .boot s t ∧ calm s t ∧ t.port = { s.port with boot := .halted k }
      (Config.blobSigned b = false → halts 0x20#16) ∧
      (Config.blobSigned b = true → s1.floorsGood = false → halts 0x21#16) ∧
      (Config.blobSigned b = true → s1.floorsGood = true →
        let good := fw.magic = 0x58445158 ∧ fw.fmtver = 1 ∧ fw.isareq ≤ 1 ∧ fw.signed = true ∧ fw.badSections = false ∧ goodSignature b s.port.flashFw fw.sigOff = true
        (¬ good → halts 0x22#16) ∧
        (good → ∃ t, Does .boot s t ∧ t.port = { s.port with boot := .running } ∧ t.partAt 0 = bootPart ∧ (t.coreAt rangerId).arch.pc = 0#64 ∧
          ∀ a ∈ [Action.ptsTick, .controlInterval [] 0, .flowWindowBoundary], a ∈ t.due))) ∧
    (let want := fld f.arg0 0 16
     let fs : BitVec 32 := BitVec.ofNat 32 (fld f.arg0 32 32) &&& 0xF#32
     (s.port.session ≠ none → ∃ t, Does (.hostHello f) s t ∧ calm s t ∧ t.port.session = s.port.session ∧ answered s t f 4#16 0#64 0#64 []) ∧
     (s.port.session = none → want = 0 → ∃ t, Does (.hostHello f) s t ∧ calm s t ∧ t.port.session = none ∧ answered s t f 2#16 0#64 0#64 []) ∧
     (s.port.session = none → want ≠ 0 →
       ∃ t, Does (.hostHello f) s t ∧ calm s t ∧ t.port.session = some (1#16, fs) ∧ Action.sessionTimeout ∈ t.due ∧
         answered s t f 0#16 (BitVec.ofNat 64 (1 + fs.toNat * 2 ^ 32)) 0#64 [])) ∧
    (∃ t, Does (.hostGoodbye f) s t ∧ calm s t ∧ t.hub = s.hub ∧ t.port.session = none ∧ answered s t f 0#16 0#64 0#64 []) ∧
    (s.port.session ≠ none → ∃ t, Does .sessionTimeout s t ∧ calm s t ∧ t.hub = s.hub ∧
      if s.port.heard + 3000000000 ≤ s.time then t.port = { s.port with session := none } else t.port = s.port ∧ Action.sessionTimeout ∈ t.due) ∧
    (∀ v fs dev host len, s.port.session = some (v, fs) → fs.getLsbD 0 = true → dev + len ≤ memTop → Memory.wf s.mem = true →
      cellsWf s.port.mem = true →
      (∃ t, Does (.rocev2BulkData true dev host len) s t ∧ sameRegs s t ∧ t.port = s.port ∧
        ∀ a, cellAt t.mem a = if dev ≤ a ∧ a < dev + len then cellAt s.port.mem (host + (a - dev)) else cellAt s.mem a) ∧
      (∃ t, Does (.rocev2BulkData false dev host len) s t ∧ calm s t ∧ t.hub = s.hub ∧
        ∀ a, cellAt t.port.mem a = if host ≤ a ∧ a < host + len then cellAt s.mem (dev + (a - host)) else cellAt s.port.mem a)) ∧
    (let p := (f.payload.getD 0 0#8).toNat
     let bs := cellsAt s.port.mem f.arg0.toNat f.arg1.toNat
     let i := parseImage bs
     let k := s.checkImage p bs i
     (k ≠ .done → ∃ t, Does (.hostLoad f) s t ∧ calm s t ∧ t.hub = s.hub ∧ answered s t f k.code 0#64 0#64 []) ∧
     (k = .done → ∃ t, Does (.hostLoad f) s t ∧ sameRegs s t ∧ t.imageOf p = some (i.image bs) ∧ answered s t f 0#16 0#64 0#64 [] ∧
       t.port.nextFw = if i.signed then some (i.firmware bs) else s.port.nextFw)) ∧
    (∃ t, Does (.hostReset f) s t ∧ t.mem = s.mem ∧ t.time = s.time ∧ answered s t f 0#16 0#64 0#64 [] ∧ t.hub = State.reset.hub ∧
      t.core = State.reset.core ∧ t.others = State.reset.others ∧ t.power = State.reset.power ∧ t.fabric = State.reset.fabric ∧ t.due = [.boot] ∧
      t.port.boot = .off ∧ t.port.session = none ∧ t.port.mem = s.port.mem ∧ t.port.flashFw = s.port.flashFw ∧ t.port.blob = s.port.blob)

/-- R314, R348, R350, R389, R390, R394, R407, R447, R453, R458, R475, R477: the commands of a session: START and LAUNCH make a launch under a job,
JOB makes, funds, releases and cancels one, ACCTRD reads an account, PART writes a descriptor or starts to drain, PODMAP, CAP and MODE set what they
name, EVENTS, COUNTERS, ATTEST and CKPTSTAT read, and SAFECKPT stops admission until its stream has been acknowledged. -/
def Obligations.HostCommandActionResults : Prop :=
  ∀ (s : State) (f : Frame),
    (s.jobNamed f = none → ∀ a ∈ [Action.hostStart f, .hostLaunch f],
      ∃ t, Does a s t ∧ calm s t ∧ t.hub = s.hub ∧ answered s t f 0x1D#16 0#64 0#64 []) ∧
    (∀ j own n, s.jobNamed f = some j → (s.accAt j).owner = some own → own.exp ≠ 127#7 → s.freeId (s.accAt j).part = some n →
      let p := (s.accAt j).part
      (∀ i, s.imageOf p = some i → s.startsGood p i f.arg1 (startSlot i) = true →
        ∃ t, Does (.hostStart f) s t ∧ calm s t ∧ accountMade t n .launch own.split.2 ∧ (∀ k < 8, Action.unitPlace n k ∈ t.due) ∧
          (t.accAt n).launch = some { startLaunch i f.arg1 (startSlot i) (s.coreAt rangerId).pts with quads := (s.partAt p).quadList } ∧ (t.accAt j).owner = some own.split.1 ∧
          answered s t f 0#16 ((accHandle n (s.accAt n)).setWidth 64) 0#64 []) ∧
      (let va := f.arg1.toNat
       let r : Block := BitVec.ofNat 512 (s.readNat va 64)
       va + 64 ≤ memTop → s.inWindows p va 64 = true → (s.imageOf p).isSome = true → s.descRefused p r false = none →
       s.hasCapacity p (descPlace r) (descPin r) ((s.unitTable p).getD (descUnit r) {}).rows = true →
       ∃ t, Does (.hostLaunch f) s t ∧ calm s t ∧ accountMade t n .launch own.split.2 ∧ (∀ k < 8, Action.unitPlace n k ∈ t.due) ∧
         (t.accAt j).owner = some own.split.1 ∧ answered s t f 0#16 (spawnEntry (.ok (accHandle n (s.accAt n)))) 0#64 [])) ∧
    (let b := ofBytes (padTo 0#8 64 f.payload)
     let h : Handle := BitVec.ofNat 32 b
     let amount : Word := BitVec.ofNat 64 (bits b 64 64)
     let acc := s.accAt (accId h)
     (∀ n, s.freeId (fld h 0 3) = some n →
       ∃ t, Does (.hostJobCreate f) s t ∧ calm s t ∧ (t.accAt n).st = .opn ∧ (t.accAt n).level = .job ∧ (t.accAt n).allow = amount ∧
         answered s t f 0#16 ((accHandle n (s.accAt n)).setWidth 64) 0#64 []) ∧
     (s.live h = true → acc.level = .job → RisingKeys s.hub.accounts →
       (∃ t, Does (.hostJobAdd f) s t ∧ calm s t ∧ answered s t f 0#16 (h.setWidth 64) 0#64 [] ∧
         (t.accAt (accId h)).allow = BitVec.ofInt 64 (max (-(2 ^ 63)) (min (2 ^ 63 - 1) (acc.allow.toInt + amount.toInt)))) ∧
       (∃ t, Does (.hostJobRelease f) s t ∧ calm s t ∧ answered s t f 0#16 (h.setWidth 64) 0#64 [] ∧
         if acc.st = .done then (t.accAt (accId h)).st = .free else (t.accAt (accId h)).released = true ∧ (t.accAt (accId h)).owner = none) ∧
       (acc.st ≠ .done → ∃ t, Does (.hostJobCancel f) s t ∧ calm s t ∧ answered s t f 0#16 (h.setWidth 64) 0#64 [] ∧
         (t.accAt (accId h)).st = .cancelling))) ∧
    (let h : Handle := BitVec.ofNat 32 (fld f.arg0 0 32)
     ∃ t, Does (.hostAcctrd f) s t ∧ calm s t ∧ t.hub = s.hub ∧
       if s.live h then answered s t f 0#16 0#64 0#64 (toBytes 64 (accountBits (accId h) (s.accAt (accId h))).toNat)
       else answered s t f 0x1D#16 0#64 0#64 []) ∧
    (let p := f.arg0.toNat
     let d := descOf (ofBytes (padTo 0#8 128 f.payload))
     ∃ t, Does (.hostPart f) s t ∧ calm s t ∧ answered s t f 0#16 0#64 0#64 [] ∧
       if s.partBad p d then t.hub = s.hub ∧ ∃ e, Action.eventRecordArrive e ∈ t.due ∧ e.code = .partInvalid
       else if d.st ≠ 2#2 ∧ (s.partAt p).givesUp d = false then t.partAt p = d
       else (t.partAt p).st = 2#2 ∧ Action.drainComplete p ∈ t.due ∧ (p, if d.st = 2#2 then { d with st := 0#2 } else d) ∈ t.hub.grants) ∧
    (∃ t, Does (.hostPodmap f) s t ∧ calm s t ∧ t.hub = s.hub ∧ answered s t f 0#16 0#64 0#64 [] ∧
      t.fabric.podmap = ((records 16 512 f.payload).map fun r => ((BitVec.ofNat 64 r : Word), BitVec.ofNat 16 (bits r 64 16))) ∧
      ∀ port < 32, ∃ ident num ver mask flight, Action.linkTraining port ident num ver mask flight ∈ t.due) ∧
    (∃ t a1, Does (.hostCap f) s t ∧ calm s t ∧ t.hub = s.hub ∧ t.power.capReq = min f.arg0.toNat 2600 ∧
      t.power.capEff = max (max t.power.capReq s.power.idleW) s.floorSum ∧
      answered s t f 0#16 (BitVec.ofNat 64 (t.power.capReq + t.power.capEff * 2 ^ 32)) a1 []) ∧
    (RisingKeys s.others → ∃ t, Does (.hostMode f) s t ∧ calm s t ∧ t.hub.mode = BitVec.ofNat 2 (fld f.arg0 0 2) ∧ answered s t f 0#16 0#64 0#64 []) ∧
    (∃ t, Does (.hostEvents f) s t ∧ calm s t ∧ t.hub = s.hub ∧ t.port.events = s.port.events.drop 64 ∧
      answered s t f 0#16 (BitVec.ofNat 64 (min 64 s.port.events.length)) 0#64 ((s.port.events.take 64).flatMap fun e => toBytes 64 e.toNat)) ∧
    (∃ t, Does (.hostCounters f) s t ∧ calm s t ∧ t.hub = s.hub ∧
      answered s t f 0#16 ((NatMap.findD 0#32 (counterKey (BitVec.ofNat 16 (fld f.arg0 16 16)) (fld f.arg0 0 4) (fld f.arg0 4 12)) s.hub.counters).setWidth 64)
        0#64 []) ∧
    (∃ t r, Does (.hostAttest f) s t ∧ calm s t ∧ t.hub = s.hub ∧ r.length = 256 ∧ answered s t f 0#16 0#64 0#64 r) ∧
    (s.port.ckpt ≠ none → ∃ t, Does (.hostSafeckpt f) s t ∧ calm s t ∧ t.hub = s.hub ∧ answered s t f 0x1A#16 0#64 0#64 []) ∧
    (s.port.ckpt = none → (∀ e ∈ s.hub.units, e.2.ctx = none ∨ e.2.rows = 0) →
      ∃ t, Does (.hostSafeckpt f) s t ∧ calm s t ∧ t.hub.noAdmit = true ∧ answered s t f 0#16 0#64 0#64 [] ∧
        t.port.ckpt = some { acked := [], total := ckptBlocks, targets := f.payload } ∧ Action.ckptBlockAck 0 ∈ t.due ∧
        ∀ c < 256, (s.coreAt c).unit.isSome = true → (t.coreAt c).preempt = some .safeTier ∧ Action.preemption c ∈ t.due) ∧
    (∀ k b, s.port.ckpt = some k → (∀ e ∈ s.hub.units, e.2.ctx = none ∨ e.2.rows = 0) →
      let acked := if b ∈ k.acked ∨ k.total ≤ b then k.acked else b :: k.acked
      ∃ t, Does (.ckptBlockAck b) s t ∧ calm s t ∧
        if s.safeReady = false then t.port = s.port ∧ Action.ckptBlockAck b ∈ t.due
        else if k.total ≤ acked.length then t.port.ckpt = none ∧ t.hub.noAdmit = false ∧ ∀ c < 256, Action.unitAdmit c ∈ t.due
        else t.port.ckpt = some { k with acked := acked } ∧ Action.ckptBlockAck ((b + 1) % k.total) ∈ t.due) ∧
    (∃ t, Does (.hostCkptstat f) s t ∧ calm s t ∧ t.hub = s.hub ∧
      let r := match s.port.ckpt with
        | some k => (k.acked.length, k.total)
        | none => s.port.lastCkpt
      answered s t f 0#16 (BitVec.ofNat 64 r.1) (BitVec.ofNat 64 r.2) [])

/-! ### Encodings and steps -/

/-- R36 to R39, R54, R58 to R64: no bit of an encoding is lost: the word of a legal instruction decodes, in its slot class, to that instruction,
with every operand at every value that the encoding admits (rows that share one encoding decode to the row that the operand selects). -/
def Obligations.DecodeEncode : Prop :=
  ∀ (i : Instr) (c : SlotClass) (w : BitVec 32), i.wf = true → encode i = some (c, w) → decodeSlot c w = .ok i.canon

/-- Words that the spec writes out decode to what it says they stand for, and a word with an unassigned opcode to nothing (R54, R83, R117, R123,
R128, R162, R330, R391 and the forms' own tables). -/
def Obligations.SampleWords : Prop :=
  decodeSlot .S 0x480157FD#32 = .ok (.cmplti 0#3 false 5#6 2#3 0x7FD#11) ∧
  decodeSlot .S 0x6A010102#32 = .ok (.fcvti .f32 0#3 false 4#6 (.reg 2#6) .i64 .zero) ∧
  decodeSlot .K 0x0200003C#32 = .ok (.call 0#3 60#21) ∧
  decodeSlot .V 0x21220307#32 = .ok (.vfma .bf16 1#3 false 8#6 (.reg 6#6) (.reg 7#6)) ∧
  decodeSlot .F 0x0120C100#32 = .ok (.exp2 .f32 1#3 false 3#6 (.reg 2#6)) ∧
  decodeSlot .K 0x40008106#32 = .ok (.engwr 0#3 0x04#8 2#6 3#6) ∧
  decodeSlot .M 0x36007C02#32 = .ok (.st .n64 0#3 1#6 (.imm 8#5) (.reg 2#6)) ∧
  decodeSlot .M 0x0D0001F0#32 = .ok (.ldq .n32 0#3 0#6 (.reg 3#6) (.imm 0#5)) ∧
  decodeSlot .M 0x5F208205#32 = .ok (.aincb 1#3 false 2#6 (.reg 4#6) (.reg 5#6)) ∧
  decodeSlot .K 0x21200184#32 = .ok (.send 1#3 (.reg 3#6) (.reg 4#6)) ∧
  decodeSlot .K 0x33027980#32 = .ok (.glstat 0#3 false 9#6 (.imm 3#5)) ∧
  decodeSlot .K 0x50014580#32 = .ok (.sysrd 0#3 false 5#6 0x0B#7) ∧
  decodeSlot .S 0x00000001#32 = .error .opcode

namespace Sys2Proof.Machine

/-- The state in which the bundle at the program counter begins to issue: time has passed, its words are read, what is due has landed. -/
def State.entering (s : State) (ws : List (BitVec 32)) : State :=
  let x : Core := { s.core with
    words := ws, header := bword ws 0, literal := bword ws 11, raised := none, want := [], popped := 0#8, pushed := 0#8, next := none,
    resumes := none, phase := .fresh }
  { s with time := s.time + 1, free := s.free + 1, core := x.enter }

/-- The bundle at the program counter begins at this step, with nothing before it: no error in its words, no trap of an argument block, of a fetch or of a landing result,
no checkpoint or quiet point, no fence and no invalidation to wait for, a legal bundle within the bounds. -/
structure State.Begins (s : State) (ws : List (BitVec 32)) : Prop where
  chosen : s.chosen = some (.sequencer s.cur)
  phase : s.core.phase = .fresh
  words : s.fetchWords = some ws
  good : s.struck (upFrom s.bundleAddr 48) = none
  args : (s.core.unit.bind fun u => (s.unitAt u).bind Uni.argFault) = none
  inside : s.core.arch.pc.toNat < s.core.code.count
  plain : bitAt (bword ws 0) 31 = false ∧ bitAt (bword ws 0) 30 = false ∧ (s.entering ws).core.trapsHere = false
  quiet : s.core.fence = none ∧ ∀ v ∈ s.hub.inval, v.core ≠ s.cur
  flags : s.core.flagged = []
  legal : illegalMarks (s.entering ws).core (decide (s.cur = rangerId)) ws = 0#12
  bounds : (s.entering ws).core.sinceCk < (s.entering ws).core.ckBound ∧ (s.entering ws).core.arch.sinceQ < (s.entering ws).core.arch.qSpan

end Sys2Proof.Machine

/-- R32, R33, R49, R56, R126, R132: a step at a bundle with one slot that decodes to an instruction runs that instruction, and then the stash rows that it
binds or unbinds change and the sequencer goes on to the successor of the bundle; or it stalls on what the instruction waits for; or it traps with the instruction's cause, the slot marked. A
step whose turn is a device action's performs that action. The host's frames are the model's third kind of turn (log entry 2). -/
def Obligations.StepRunsTheInstruction : Prop :=
  (∀ (s : State) (ws : List (BitVec 32)) (k : Nat) (i : Instr) (t : State), s.Begins ws → k < 11 → 0 < k →
    (∀ j, 0 < j → j < 11 → (j = k ↔ bword ws j ≠ 0#32)) → decodeSlot (slotClass k) (bword ws k) = .ok i →
    let e := s.entering ws
    let y : SlotI := { num := k, word := bword ws k, ins := some i }
    e.core.active y = true →
    exec i { e with core := { e.core with slot := k, word := bword ws k, raised := none, phase := .begun } } = .next t →
    (t.core.phase = .begun → e.overCap t = false → t.core.resourceCause [y] e.withholds = none → t.core.successor.1.toNat < t.core.code.count →
      t.core.queue = [] ∨ (t.core.issuedN + 1) % 2 ^ (e.partAt t.core.part).age ≠ 0 →
      step s = .next (let u := t.remapAll t.core.remap; u.withCore (u.core.finish e.core [y] t.core.successor.1 t.core.successor.2.1 t.core.successor.2.2))) ∧
    (t.core.phase = .stalled → step s = .next (e.stallOn t.core.want)) ∧
    (∀ c a, t.core.phase = .left → t.core.raised = some (c, a) → c ≠ .leaseConflict → c ≠ .xlinvReplay → lateCause c = false →
      step s = .next (e.bundleTrap c a (BitVec.ofNat 12 (2 ^ k))))) ∧
  (∀ (s : State) (n : Nat) (a : Action) (t : State), s.chosen = some (.action n) → s.due[n]? = some a →
    Does a { s with time := s.time + 1, free := s.free + 1, due := s.due.eraseIdx n } t → step s = .next { t with act := none })

/-- R45: a slot of class S, M, X or K whose predicate is false is a NOP in full: the state after it is the state before it, so that it does not pop,
push, write, update its latch, start an engine or perform an irrevocable effect, and a branch falls through. -/
def Obligations.FalsePredicateIsNop : Prop :=
  ∀ (i : Instr) (s : State), i.shape.cls = some .S ∨ i.shape.cls = some .M ∨ i.shape.cls = some .X ∨ i.shape.cls = some .K →
    s.core.arch.preg i.shape.pred.toNat = false → exec i s = .next s

/-- Every form and every device action gives a next state, whatever the state and the operands: what the spec calls a trap is a state too (R44, R355),
and no instruction of the table is refused. -/
def Obligations.EveryInstructionGoesOn : Prop := ∀ (i : Instr) (s : State), ∃ t, exec i s = .next t

namespace Sys2Proof.Machine

/-- What a checkpoint holds fits the sections of a context image (R425): its loop stack, queues, stores and late writes. -/
def FitsImage (x : Core) : Prop :=
  x.arch.loops.length ≤ 6 ∧ x.saved.length ≤ 256 ∧ (x.carry.filter Flight.late).length ≤ 64 ∧ ∀ q < 8, (vget {} x.q q).entries.length ≤ 16

end Sys2Proof.Machine

/-- R355, R356, R400, R414, R415, R424, R428: a trap in a core rolls its unit back, writes the record at the head of its evacuation slot and the context
behind it, suspends the unit, marked as trapped, and makes the partition's handler at the head of the core's queue; without a handler the unit ends
and the host is told; a unit of a cancelled account ends. A trap of the ranger core writes its record at TRAPREC and goes to RTRAP with the
checkpoint's registers, and a second one halts it. TRAPREC's address is the model's choice (log entry 13). -/
def Obligations.TrapEntry : Prop :=
  ∀ (s : State) (i : TrapInfo),
    let r := s.rollback
    let t := s.takeTrap i
    (∀ u y, s.cur ≠ rangerId → r.core.unit = some u → r.unitAt u = some y → y.st ≠ .ended → 0 < u → u < r.hub.nextUnit → RisingKeys r.hub.units →
      (r.cancelling r.core.hold = true → t.core.unit = none ∧ ∀ z, t.unitAt u = some z → z.st = .ended) ∧
      ∀ ps, r.cancelling r.core.hold = false → NoLoads r → r.slotPages r.core.part (stackOf s.cur) y.evac 0 6 = .ok ps →
        (∀ d, r.handlerDecl r.core.part = some d → r.core.handling = none → r.core.isHandler = false →
          t.core.unit = none ∧ (∃ z, t.unitAt u = some z ∧ z.st = .suspended ∧ z.ctx = some .trapped ∧ z.evac = y.evac) ∧
          t.readNat (ps.getD 0 0) 128 = i.record s.cur r.core.part 0 s.core.shadow.pc r.core.hold.acct r.core.pts % 2 ^ 1024 ∧
          (FitsImage r.core → (∀ a b, a < b → b < 6 → ps.getD a 0 + 2 ^ 16 ≤ ps.getD b 0 ∨ ps.getD b 0 + 2 ^ 16 ≤ ps.getD a 0) →
            BitVec.ofNat 64 (bits (t.slotRead ps ctxOff 512) 64 64) = s.core.shadow.pc ∧
            ∀ k < 64, BitVec.ofNat 64 (t.slotRead ps (ctxOff + 0x200 + 8 * k) 8) = vget 0#64 s.core.shadow.s k) ∧
          ∃ h, t.unitAt r.hub.nextUnit = some h ∧ h.st = .queued ∧ h.prio = 3 ∧ h.core = s.cur ∧ h.decl = d ∧
            h.argv = some (BitVec.ofNat 512 (ps.getD 0 0 + ps.getD 1 0 * 2 ^ 64 + r.core.hold.acct.toNat * 2 ^ 128)) ∧
            t.core.queue = r.hub.nextUnit :: r.core.queue ∧ Action.unitAdmit s.cur ∈ t.due) ∧
        (r.handlerDecl r.core.part = none →
          t.core.unit = none ∧ (∀ z, t.unitAt u = some z → z.st = .ended) ∧
          ∃ e, Action.eventRecordArrive e ∈ t.due ∧ e.code = .trapForward ∧ e.addr = i.addr)) ∧
    (s.cur = rangerId → s.core.unit = none →
      (s.core.inTrap = false →
        t.core.arch = { s.core.shadow with snapOk := Vector.replicate 16 false, pc := s.core.rtrap } ∧ t.core.inTrap = true ∧
        t.core.trapDone = r.core.done ∧ t.core.done = 0#3 ∧
        t.core.trapRec = BitVec.ofNat 64 rangerRecord ∧ t.core.halted = s.core.halted ∧
        t.readNat rangerRecord 128 = i.record rangerId 0 2 s.core.shadow.pc (s.hub.job.getD 0#32) s.core.pts % 2 ^ 1024 ∧
        ∀ a, a < rangerRecord ∨ rangerRecord + 128 ≤ a → cellAt t.mem a = cellAt s.mem a) ∧
      (s.core.inTrap = true → t.core.halted = true ∧ t.mem = s.mem ∧ ∃ e, Action.eventRecordArrive e ∈ t.due ∧ e.code = .rangerHalt))

/-! ### What every step keeps -/

/-- Every step keeps device memory and the host's memory in their one form (log entry 6: an unlisted byte reads 0), from every state in which they
have it, whichever agent acts. -/
def Obligations.StepKeepsMemoryCanonical : Prop := ∀ s t : State, s.Canonical → step s = .next t → t.Canonical

/-- Every step keeps the maps of the state in their one form, by rising key, the scratchpads in theirs, and the numbers of units and transfers below
the next to be given: what the statements with a premise about rising keys rest on. -/
def Obligations.StepKeepsOrder : Prop := ∀ s t : State, s.Canonical → s.Orderly → step s = .next t → t.Orderly

/-- R325, R347, R376, R394, R395, R454: after power-on boot is due and nothing has run; CKBOUND is 4,096 and QBOUND 8,192 in every partition and at the ranger core, MODE is 01 at
every core, STEPWAIT 2^20, METER 65,536, every domain stands at OP0, and every partition is OFF; and what every step keeps holds. The ranger core's
own bounds are the model's reading (log entry 131). -/
def Obligations.ResetState : Prop :=
  State.reset.Canonical ∧ State.reset.Orderly ∧ State.reset.due = [.boot] ∧ State.reset.port.boot = .off ∧
  (∀ k < 9, vget 0 State.reset.hub.ckBound k = 4096 ∧ vget 0 State.reset.hub.qBound k = 8192) ∧ (∀ p < 8, (State.reset.partAt p).st = 0#2 ∧
    (State.reset.partAt p).age = 16 ∧ (State.reset.partAt p).handler = 0xFFFF#16) ∧
  State.reset.hub.mode = 1#2 ∧ State.reset.hub.modeDisp = 1#2 ∧ (∀ c < 257, (State.reset.coreAt c).mode = 1#2 ∧ (State.reset.coreAt c).unit = none) ∧
  State.reset.hub.stepwait = 0x100000#64 ∧ State.reset.hub.meter = 65536#32 ∧ ∀ d < 69, State.reset.opOf d = 0
end

