-- ==== Sys2Proof/Laws/Maps.lean ====
section
/-! SUPPORT. Laws of the maps held as sorted lists and of the register vectors: what a read gives after a write, and that a write keeps
the one form. -/

namespace Sys2Proof.Machine

variable {α : Type}

/-! ### Maps -/

@[simp] theorem NatMap.find_nil (k : Nat) : NatMap.find k ([] : NatMap α) = none := rfl

@[simp] theorem NatMap.find_cons (k : Nat) (x : Nat × α) (xs : NatMap α) :
    NatMap.find k (x :: xs) = if x.1 = k then some x.2 else NatMap.find k xs := rfl

@[simp] theorem NatMap.find_put_self (k : Nat) (v : α) (m : NatMap α) : NatMap.find k (NatMap.put k v m) = some v := by
  induction m with
  | nil => simp [NatMap.put]
  | cons x xs ih =>
    unfold NatMap.put
    split
    · simp
    · split <;> simp [*]

theorem NatMap.find_put_ne {j k : Nat} (h : j ≠ k) (v : α) (m : NatMap α) : NatMap.find j (NatMap.put k v m) = NatMap.find j m := by
  have hk : k ≠ j := Ne.symm h
  induction m with
  | nil => simp [NatMap.put, hk]
  | cons x xs ih =>
    unfold NatMap.put
    split
    · rename_i e; subst e; simp [hk]
    · split <;> simp [*]

theorem NatMap.find_put (j k : Nat) (v : α) (m : NatMap α) :
    NatMap.find j (NatMap.put k v m) = if j = k then some v else NatMap.find j m := by
  split
  · subst_vars; simp
  · exact find_put_ne ‹_› v m

theorem NatMap.find_del_ne {j k : Nat} (h : j ≠ k) (m : NatMap α) : NatMap.find j (NatMap.del k m) = NatMap.find j m := by
  have hk : k ≠ j := Ne.symm h
  induction m with
  | nil => rfl
  | cons x xs ih =>
    unfold NatMap.del
    split
    · rename_i e; subst e; simp [hk]
    · split <;> simp [*]

/-- A key smaller than every key of a map is not in it. -/
theorem NatMap.find_below {k : Nat} {m : NatMap α} (h : ∀ x ∈ m, k < x.1) : NatMap.find k m = none := by
  induction m with
  | nil => rfl
  | cons x xs ih =>
    have := h x (by simp)
    simp [ih fun y hy => h y (by simp [hy]), Nat.ne_of_gt this]

theorem RisingKeys.tail {x : Nat × α} {xs : NatMap α} (h : RisingKeys (x :: xs)) : RisingKeys xs := by
  unfold RisingKeys at *; simp at h; simpa using h.2

theorem RisingKeys.head {x : Nat × α} {xs : NatMap α} (h : RisingKeys (x :: xs)) : ∀ y ∈ xs, x.1 < y.1 := by
  unfold RisingKeys at h
  simp at h
  exact fun y hy => h.1 y.1 y.2 hy

theorem RisingKeys.cons {x : Nat × α} {xs : NatMap α} (h : RisingKeys xs) (hx : ∀ y ∈ xs, x.1 < y.1) : RisingKeys (x :: xs) := by
  unfold RisingKeys at *
  simp only [List.map_cons, List.pairwise_cons, List.mem_map, forall_exists_index, and_imp]
  exact ⟨fun a y hy e => e ▸ hx y hy, h⟩

theorem NatMap.find_del_self {k : Nat} {m : NatMap α} (h : RisingKeys m) : NatMap.find k (NatMap.del k m) = none := by
  induction m with
  | nil => rfl
  | cons x xs ih =>
    unfold NatMap.del
    split
    · rename_i e
      exact find_below fun y hy => e ▸ h.head y hy
    · split
      · rename_i hlt
        refine find_below fun y hy => ?_
        rcases List.mem_cons.1 hy with rfl | hy
        · exact hlt
        · exact hlt.trans (h.head y hy)
      · rename_i hne _; simp [hne, ih h.tail]

theorem NatMap.keys_put {k : Nat} {v : α} {m : NatMap α} {y : Nat × α} (h : y ∈ NatMap.put k v m) : y = (k, v) ∨ y ∈ m := by
  induction m with
  | nil => simpa [NatMap.put] using h
  | cons x xs ih =>
    unfold NatMap.put at h
    split at h
    · rcases List.mem_cons.1 h with h | h
      · exact .inl h
      · exact .inr (by simp [h])
    · split at h
      · rcases List.mem_cons.1 h with h | h
        · exact .inl h
        · exact .inr h
      · rcases List.mem_cons.1 h with h | h
        · exact .inr (by simp [h])
        · rcases ih h with h | h
          · exact .inl h
          · exact .inr (by simp [h])

theorem NatMap.mem_of_mem_del {k : Nat} {m : NatMap α} {y : Nat × α} (h : y ∈ NatMap.del k m) : y ∈ m := by
  induction m with
  | nil => exact h
  | cons x xs ih =>
    unfold NatMap.del at h
    split at h
    · simp [h]
    · split at h
      · exact h
      · rcases List.mem_cons.1 h with h | h
        · simp [h]
        · simp [ih h]

theorem RisingKeys.put {m : NatMap α} (h : RisingKeys m) (k : Nat) (v : α) : RisingKeys (NatMap.put k v m) := by
  induction m with
  | nil => simp [NatMap.put, RisingKeys]
  | cons x xs ih =>
    unfold NatMap.put
    split
    · rename_i e; exact (h.tail).cons fun y hy => e ▸ h.head y hy
    · split
      · rename_i hlt
        refine h.cons fun y hy => ?_
        rcases List.mem_cons.1 hy with rfl | hy
        · exact hlt
        · exact hlt.trans (h.head y hy)
      · rename_i hne hge
        refine (ih h.tail).cons fun y hy => ?_
        rcases NatMap.keys_put hy with rfl | hy
        · exact Nat.lt_of_le_of_ne (Nat.le_of_not_lt hge) hne
        · exact h.head y hy

theorem RisingKeys.del {m : NatMap α} (h : RisingKeys m) (k : Nat) : RisingKeys (NatMap.del k m) := by
  induction m with
  | nil => exact h
  | cons x xs ih =>
    unfold NatMap.del
    split
    · exact h.tail
    · split
      · exact h
      · exact (ih h.tail).cons fun y hy => h.head y (NatMap.mem_of_mem_del hy)

theorem RisingKeys.putD [DecidableEq α] {m : NatMap α} (h : RisingKeys m) (d : α) (k : Nat) (v : α) : RisingKeys (NatMap.putD d k v m) := by
  unfold NatMap.putD
  split
  · exact h.del k
  · exact h.put k v

theorem RisingKeys.filter {m : NatMap α} (h : RisingKeys m) (f : Nat × α → Bool) : RisingKeys (m.filter f) := by
  unfold RisingKeys at *
  exact List.Pairwise.sublist (List.Sublist.map _ List.filter_sublist) h

/-- A map of which every value is changed and no key. -/
theorem RisingKeys.mapValues {β : Type} {m : NatMap α} (h : RisingKeys m) (f : Nat × α → β) : RisingKeys (m.map fun x => (x.1, f x)) := by
  unfold RisingKeys at *
  simpa [List.map_map, Function.comp_def] using h

@[simp] theorem RisingKeys.nil : RisingKeys ([] : NatMap α) := by simp [RisingKeys]

/-- What a map with a default reads after a write. -/
theorem NatMap.findD_putD [DecidableEq α] {m : NatMap α} (h : RisingKeys m) (d : α) (j k : Nat) (v : α) :
    NatMap.findD d j (NatMap.putD d k v m) = if j = k then v else NatMap.findD d j m := by
  unfold NatMap.findD NatMap.putD
  split
  · split
    · subst_vars; simp [find_del_self h]
    · simp [find_del_ne ‹_›]
  · rw [find_put]; split <;> simp

/-- The same where the value written is not the default: no order of the keys is needed. -/
theorem NatMap.findD_putD_of_ne [DecidableEq α] {m : NatMap α} {d v : α} (hv : v ≠ d) (j k : Nat) :
    NatMap.findD d j (NatMap.putD d k v m) = if j = k then v else NatMap.findD d j m := by
  unfold NatMap.findD NatMap.putD
  rw [if_neg hv, find_put]
  split <;> simp

theorem NatMap.findD_putD_ne [DecidableEq α] {j k : Nat} (h : j ≠ k) (m : NatMap α) (d v : α) :
    NatMap.findD d j (NatMap.putD d k v m) = NatMap.findD d j m := by
  unfold NatMap.findD NatMap.putD
  split
  · rw [find_del_ne h]
  · rw [find_put_ne h]

/-! ### Vectors -/

variable {n : Nat}

theorem vget_vput {i j : Nat} (d : α) (v : Vector α n) (x : α) (hi : i < n) :
    vget d (vput v i x) j = if j = i then x else vget d v j := by
  unfold vget vput
  simp only [hi, dif_pos]
  split
  · rw [Vector.getElem_set]
    by_cases e : i = j
    · rw [if_pos e, if_pos e.symm]
    · rw [if_neg e, if_neg (Ne.symm e)]
  · rename_i hj
    have e : j ≠ i := by omega
    rw [if_neg e]

@[simp] theorem vget_vput_self {i : Nat} (d : α) (v : Vector α n) (x : α) (hi : i < n) : vget d (vput v i x) i = x := by
  simp [vget_vput d v x hi]

theorem vput_past {i : Nat} (v : Vector α n) (x : α) (hi : n ≤ i) : vput v i x = v := by
  simp [vput, Nat.not_lt.2 hi]

theorem vget_vmap {β : Type} {i : Nat} (d : α) (e : β) (f : α → β) (v : Vector α n) (hi : i < n) : vget e (vmap f v) i = f (vget d v i) := by
  simp [vget, vmap, hi]

end Sys2Proof.Machine
end

