-- ==== Sys2Proof/Laws/State.lean ====
section
/-! SUPPORT. What each update of the state leaves: one lemma for each field and each update, so that no proof unfolds a record update. -/

namespace Sys2Proof.Machine

/-! ### withCore -/

@[simp] theorem State.withCore_cur (s : State) (x : Core) : (s.withCore x).cur = s.cur := rfl
@[simp] theorem State.withCore_core (s : State) (x : Core) : (s.withCore x).core = x := rfl
@[simp] theorem State.withCore_others (s : State) (x : Core) : (s.withCore x).others = s.others := rfl
@[simp] theorem State.withCore_mem (s : State) (x : Core) : (s.withCore x).mem = s.mem := rfl
@[simp] theorem State.withCore_hub (s : State) (x : Core) : (s.withCore x).hub = s.hub := rfl
@[simp] theorem State.withCore_power (s : State) (x : Core) : (s.withCore x).power = s.power := rfl
@[simp] theorem State.withCore_fabric (s : State) (x : Core) : (s.withCore x).fabric = s.fabric := rfl
@[simp] theorem State.withCore_port (s : State) (x : Core) : (s.withCore x).port = s.port := rfl
@[simp] theorem State.withCore_act (s : State) (x : Core) : (s.withCore x).act = s.act := rfl
@[simp] theorem State.withCore_due (s : State) (x : Core) : (s.withCore x).due = s.due := rfl
@[simp] theorem State.withCore_time (s : State) (x : Core) : (s.withCore x).time = s.time := rfl
@[simp] theorem State.withCore_free (s : State) (x : Core) : (s.withCore x).free = s.free := rfl

/-! ### withHub -/

@[simp] theorem State.withHub_cur (s : State) (h : Hub) : (s.withHub h).cur = s.cur := rfl
@[simp] theorem State.withHub_core (s : State) (h : Hub) : (s.withHub h).core = s.core := rfl
@[simp] theorem State.withHub_others (s : State) (h : Hub) : (s.withHub h).others = s.others := rfl
@[simp] theorem State.withHub_mem (s : State) (h : Hub) : (s.withHub h).mem = s.mem := rfl
@[simp] theorem State.withHub_hub (s : State) (h : Hub) : (s.withHub h).hub = h := rfl
@[simp] theorem State.withHub_power (s : State) (h : Hub) : (s.withHub h).power = s.power := rfl
@[simp] theorem State.withHub_fabric (s : State) (h : Hub) : (s.withHub h).fabric = s.fabric := rfl
@[simp] theorem State.withHub_port (s : State) (h : Hub) : (s.withHub h).port = s.port := rfl
@[simp] theorem State.withHub_act (s : State) (h : Hub) : (s.withHub h).act = s.act := rfl
@[simp] theorem State.withHub_due (s : State) (h : Hub) : (s.withHub h).due = s.due := rfl
@[simp] theorem State.withHub_time (s : State) (h : Hub) : (s.withHub h).time = s.time := rfl
@[simp] theorem State.withHub_free (s : State) (h : Hub) : (s.withHub h).free = s.free := rfl

/-! ### withPower -/

@[simp] theorem State.withPower_cur (s : State) (w : Power) : (s.withPower w).cur = s.cur := rfl
@[simp] theorem State.withPower_core (s : State) (w : Power) : (s.withPower w).core = s.core := rfl
@[simp] theorem State.withPower_others (s : State) (w : Power) : (s.withPower w).others = s.others := rfl
@[simp] theorem State.withPower_mem (s : State) (w : Power) : (s.withPower w).mem = s.mem := rfl
@[simp] theorem State.withPower_hub (s : State) (w : Power) : (s.withPower w).hub = s.hub := rfl
@[simp] theorem State.withPower_power (s : State) (w : Power) : (s.withPower w).power = w := rfl
@[simp] theorem State.withPower_fabric (s : State) (w : Power) : (s.withPower w).fabric = s.fabric := rfl
@[simp] theorem State.withPower_port (s : State) (w : Power) : (s.withPower w).port = s.port := rfl
@[simp] theorem State.withPower_act (s : State) (w : Power) : (s.withPower w).act = s.act := rfl
@[simp] theorem State.withPower_due (s : State) (w : Power) : (s.withPower w).due = s.due := rfl
@[simp] theorem State.withPower_time (s : State) (w : Power) : (s.withPower w).time = s.time := rfl
@[simp] theorem State.withPower_free (s : State) (w : Power) : (s.withPower w).free = s.free := rfl

/-! ### addDue -/

@[simp] theorem State.addDue_cur (s : State) (xs : List Action) : (s.addDue xs).cur = s.cur := rfl
@[simp] theorem State.addDue_core (s : State) (xs : List Action) : (s.addDue xs).core = s.core := rfl
@[simp] theorem State.addDue_others (s : State) (xs : List Action) : (s.addDue xs).others = s.others := rfl
@[simp] theorem State.addDue_mem (s : State) (xs : List Action) : (s.addDue xs).mem = s.mem := rfl
@[simp] theorem State.addDue_hub (s : State) (xs : List Action) : (s.addDue xs).hub = s.hub := rfl
@[simp] theorem State.addDue_power (s : State) (xs : List Action) : (s.addDue xs).power = s.power := rfl
@[simp] theorem State.addDue_fabric (s : State) (xs : List Action) : (s.addDue xs).fabric = s.fabric := rfl
@[simp] theorem State.addDue_port (s : State) (xs : List Action) : (s.addDue xs).port = s.port := rfl
@[simp] theorem State.addDue_act (s : State) (xs : List Action) : (s.addDue xs).act = s.act := rfl
@[simp] theorem State.addDue_due (s : State) (xs : List Action) : (s.addDue xs).due = s.due ++ xs := rfl
@[simp] theorem State.addDue_time (s : State) (xs : List Action) : (s.addDue xs).time = s.time := rfl
@[simp] theorem State.addDue_free (s : State) (xs : List Action) : (s.addDue xs).free = s.free := rfl

/-! ### tickFree -/

@[simp] theorem State.tickFree_cur (s : State) : (s.tickFree).cur = s.cur := rfl
@[simp] theorem State.tickFree_core (s : State) : (s.tickFree).core = s.core := rfl
@[simp] theorem State.tickFree_others (s : State) : (s.tickFree).others = s.others := rfl
@[simp] theorem State.tickFree_mem (s : State) : (s.tickFree).mem = s.mem := rfl
@[simp] theorem State.tickFree_hub (s : State) : (s.tickFree).hub = s.hub := rfl
@[simp] theorem State.tickFree_power (s : State) : (s.tickFree).power = s.power := rfl
@[simp] theorem State.tickFree_fabric (s : State) : (s.tickFree).fabric = s.fabric := rfl
@[simp] theorem State.tickFree_port (s : State) : (s.tickFree).port = s.port := rfl
@[simp] theorem State.tickFree_act (s : State) : (s.tickFree).act = s.act := rfl
@[simp] theorem State.tickFree_due (s : State) : (s.tickFree).due = s.due := rfl
@[simp] theorem State.tickFree_time (s : State) : (s.tickFree).time = s.time := rfl
@[simp] theorem State.tickFree_free (s : State) : (s.tickFree).free = s.free + 1 := rfl

/-! ### setUnit -/

@[simp] theorem State.setUnit_cur (s : State) (u : Nat) (x : Uni) : (s.setUnit u x).cur = s.cur := rfl
@[simp] theorem State.setUnit_core (s : State) (u : Nat) (x : Uni) : (s.setUnit u x).core = s.core := rfl
@[simp] theorem State.setUnit_others (s : State) (u : Nat) (x : Uni) : (s.setUnit u x).others = s.others := rfl
@[simp] theorem State.setUnit_mem (s : State) (u : Nat) (x : Uni) : (s.setUnit u x).mem = s.mem := rfl
@[simp] theorem State.setUnit_power (s : State) (u : Nat) (x : Uni) : (s.setUnit u x).power = s.power := rfl
@[simp] theorem State.setUnit_fabric (s : State) (u : Nat) (x : Uni) : (s.setUnit u x).fabric = s.fabric := rfl
@[simp] theorem State.setUnit_port (s : State) (u : Nat) (x : Uni) : (s.setUnit u x).port = s.port := rfl
@[simp] theorem State.setUnit_act (s : State) (u : Nat) (x : Uni) : (s.setUnit u x).act = s.act := rfl
@[simp] theorem State.setUnit_due (s : State) (u : Nat) (x : Uni) : (s.setUnit u x).due = s.due := rfl
@[simp] theorem State.setUnit_time (s : State) (u : Nat) (x : Uni) : (s.setUnit u x).time = s.time := rfl
@[simp] theorem State.setUnit_free (s : State) (u : Nat) (x : Uni) : (s.setUnit u x).free = s.free := rfl

/-! ### setAcc -/

@[simp] theorem State.setAcc_cur (s : State) (i : Nat) (a : Account) : (s.setAcc i a).cur = s.cur := rfl
@[simp] theorem State.setAcc_core (s : State) (i : Nat) (a : Account) : (s.setAcc i a).core = s.core := rfl
@[simp] theorem State.setAcc_others (s : State) (i : Nat) (a : Account) : (s.setAcc i a).others = s.others := rfl
@[simp] theorem State.setAcc_mem (s : State) (i : Nat) (a : Account) : (s.setAcc i a).mem = s.mem := rfl
@[simp] theorem State.setAcc_power (s : State) (i : Nat) (a : Account) : (s.setAcc i a).power = s.power := rfl
@[simp] theorem State.setAcc_fabric (s : State) (i : Nat) (a : Account) : (s.setAcc i a).fabric = s.fabric := rfl
@[simp] theorem State.setAcc_port (s : State) (i : Nat) (a : Account) : (s.setAcc i a).port = s.port := rfl
@[simp] theorem State.setAcc_act (s : State) (i : Nat) (a : Account) : (s.setAcc i a).act = s.act := rfl
@[simp] theorem State.setAcc_due (s : State) (i : Nat) (a : Account) : (s.setAcc i a).due = s.due := rfl
@[simp] theorem State.setAcc_time (s : State) (i : Nat) (a : Account) : (s.setAcc i a).time = s.time := rfl
@[simp] theorem State.setAcc_free (s : State) (i : Nat) (a : Account) : (s.setAcc i a).free = s.free := rfl

/-! ### setXfer -/

@[simp] theorem State.setXfer_cur (s : State) (n : Nat) (x : Xfer) : (s.setXfer n x).cur = s.cur := rfl
@[simp] theorem State.setXfer_core (s : State) (n : Nat) (x : Xfer) : (s.setXfer n x).core = s.core := rfl
@[simp] theorem State.setXfer_others (s : State) (n : Nat) (x : Xfer) : (s.setXfer n x).others = s.others := rfl
@[simp] theorem State.setXfer_mem (s : State) (n : Nat) (x : Xfer) : (s.setXfer n x).mem = s.mem := rfl
@[simp] theorem State.setXfer_power (s : State) (n : Nat) (x : Xfer) : (s.setXfer n x).power = s.power := rfl
@[simp] theorem State.setXfer_fabric (s : State) (n : Nat) (x : Xfer) : (s.setXfer n x).fabric = s.fabric := rfl
@[simp] theorem State.setXfer_port (s : State) (n : Nat) (x : Xfer) : (s.setXfer n x).port = s.port := rfl
@[simp] theorem State.setXfer_act (s : State) (n : Nat) (x : Xfer) : (s.setXfer n x).act = s.act := rfl
@[simp] theorem State.setXfer_due (s : State) (n : Nat) (x : Xfer) : (s.setXfer n x).due = s.due := rfl
@[simp] theorem State.setXfer_time (s : State) (n : Nat) (x : Xfer) : (s.setXfer n x).time = s.time := rfl
@[simp] theorem State.setXfer_free (s : State) (n : Nat) (x : Xfer) : (s.setXfer n x).free = s.free := rfl

/-! ### setPort -/

@[simp] theorem State.setPort_cur (s : State) (n : Nat) (x : Port) : (s.setPort n x).cur = s.cur := rfl
@[simp] theorem State.setPort_core (s : State) (n : Nat) (x : Port) : (s.setPort n x).core = s.core := rfl
@[simp] theorem State.setPort_others (s : State) (n : Nat) (x : Port) : (s.setPort n x).others = s.others := rfl
@[simp] theorem State.setPort_mem (s : State) (n : Nat) (x : Port) : (s.setPort n x).mem = s.mem := rfl
@[simp] theorem State.setPort_hub (s : State) (n : Nat) (x : Port) : (s.setPort n x).hub = s.hub := rfl
@[simp] theorem State.setPort_power (s : State) (n : Nat) (x : Port) : (s.setPort n x).power = s.power := rfl
@[simp] theorem State.setPort_port (s : State) (n : Nat) (x : Port) : (s.setPort n x).port = s.port := rfl
@[simp] theorem State.setPort_act (s : State) (n : Nat) (x : Port) : (s.setPort n x).act = s.act := rfl
@[simp] theorem State.setPort_due (s : State) (n : Nat) (x : Port) : (s.setPort n x).due = s.due := rfl
@[simp] theorem State.setPort_time (s : State) (n : Nat) (x : Port) : (s.setPort n x).time = s.time := rfl
@[simp] theorem State.setPort_free (s : State) (n : Nat) (x : Port) : (s.setPort n x).free = s.free := rfl

/-! ### setTs -/

@[simp] theorem State.setTs_cur (s : State) (n : Nat) (x : LineTs) : (s.setTs n x).cur = s.cur := rfl
@[simp] theorem State.setTs_core (s : State) (n : Nat) (x : LineTs) : (s.setTs n x).core = s.core := rfl
@[simp] theorem State.setTs_others (s : State) (n : Nat) (x : LineTs) : (s.setTs n x).others = s.others := rfl
@[simp] theorem State.setTs_mem (s : State) (n : Nat) (x : LineTs) : (s.setTs n x).mem = s.mem := rfl
@[simp] theorem State.setTs_power (s : State) (n : Nat) (x : LineTs) : (s.setTs n x).power = s.power := rfl
@[simp] theorem State.setTs_fabric (s : State) (n : Nat) (x : LineTs) : (s.setTs n x).fabric = s.fabric := rfl
@[simp] theorem State.setTs_port (s : State) (n : Nat) (x : LineTs) : (s.setTs n x).port = s.port := rfl
@[simp] theorem State.setTs_act (s : State) (n : Nat) (x : LineTs) : (s.setTs n x).act = s.act := rfl
@[simp] theorem State.setTs_due (s : State) (n : Nat) (x : LineTs) : (s.setTs n x).due = s.due := rfl
@[simp] theorem State.setTs_time (s : State) (n : Nat) (x : LineTs) : (s.setTs n x).time = s.time := rfl
@[simp] theorem State.setTs_free (s : State) (n : Nat) (x : LineTs) : (s.setTs n x).free = s.free := rfl

/-! ### takeSlots -/

@[simp] theorem State.takeSlots_cur (s : State) (n : Nat) (ks : List (Nat × Nat)) : (s.takeSlots n ks).cur = s.cur := rfl
@[simp] theorem State.takeSlots_core (s : State) (n : Nat) (ks : List (Nat × Nat)) : (s.takeSlots n ks).core = s.core := rfl
@[simp] theorem State.takeSlots_others (s : State) (n : Nat) (ks : List (Nat × Nat)) : (s.takeSlots n ks).others = s.others := rfl
@[simp] theorem State.takeSlots_mem (s : State) (n : Nat) (ks : List (Nat × Nat)) : (s.takeSlots n ks).mem = s.mem := rfl
@[simp] theorem State.takeSlots_hub (s : State) (n : Nat) (ks : List (Nat × Nat)) : (s.takeSlots n ks).hub = s.hub := rfl
@[simp] theorem State.takeSlots_power (s : State) (n : Nat) (ks : List (Nat × Nat)) : (s.takeSlots n ks).power = s.power := rfl
@[simp] theorem State.takeSlots_port (s : State) (n : Nat) (ks : List (Nat × Nat)) : (s.takeSlots n ks).port = s.port := rfl
@[simp] theorem State.takeSlots_act (s : State) (n : Nat) (ks : List (Nat × Nat)) : (s.takeSlots n ks).act = s.act := rfl
@[simp] theorem State.takeSlots_due (s : State) (n : Nat) (ks : List (Nat × Nat)) : (s.takeSlots n ks).due = s.due := rfl
@[simp] theorem State.takeSlots_time (s : State) (n : Nat) (ks : List (Nat × Nat)) : (s.takeSlots n ks).time = s.time := rfl
@[simp] theorem State.takeSlots_free (s : State) (n : Nat) (ks : List (Nat × Nat)) : (s.takeSlots n ks).free = s.free := rfl

/-! ### dropSlots -/

@[simp] theorem State.dropSlots_cur (s : State) (ks : List (Nat × Nat)) : (s.dropSlots ks).cur = s.cur := rfl
@[simp] theorem State.dropSlots_core (s : State) (ks : List (Nat × Nat)) : (s.dropSlots ks).core = s.core := rfl
@[simp] theorem State.dropSlots_others (s : State) (ks : List (Nat × Nat)) : (s.dropSlots ks).others = s.others := rfl
@[simp] theorem State.dropSlots_mem (s : State) (ks : List (Nat × Nat)) : (s.dropSlots ks).mem = s.mem := rfl
@[simp] theorem State.dropSlots_hub (s : State) (ks : List (Nat × Nat)) : (s.dropSlots ks).hub = s.hub := rfl
@[simp] theorem State.dropSlots_power (s : State) (ks : List (Nat × Nat)) : (s.dropSlots ks).power = s.power := rfl
@[simp] theorem State.dropSlots_port (s : State) (ks : List (Nat × Nat)) : (s.dropSlots ks).port = s.port := rfl
@[simp] theorem State.dropSlots_act (s : State) (ks : List (Nat × Nat)) : (s.dropSlots ks).act = s.act := rfl
@[simp] theorem State.dropSlots_due (s : State) (ks : List (Nat × Nat)) : (s.dropSlots ks).due = s.due := rfl
@[simp] theorem State.dropSlots_time (s : State) (ks : List (Nat × Nat)) : (s.dropSlots ks).time = s.time := rfl
@[simp] theorem State.dropSlots_free (s : State) (ks : List (Nat × Nat)) : (s.dropSlots ks).free = s.free := rfl

/-! ### setOp -/

@[simp] theorem State.setOp_cur (s : State) (n k : Nat) : (s.setOp n k).cur = s.cur := rfl
@[simp] theorem State.setOp_core (s : State) (n k : Nat) : (s.setOp n k).core = s.core := rfl
@[simp] theorem State.setOp_others (s : State) (n k : Nat) : (s.setOp n k).others = s.others := rfl
@[simp] theorem State.setOp_mem (s : State) (n k : Nat) : (s.setOp n k).mem = s.mem := rfl
@[simp] theorem State.setOp_hub (s : State) (n k : Nat) : (s.setOp n k).hub = s.hub := rfl
@[simp] theorem State.setOp_fabric (s : State) (n k : Nat) : (s.setOp n k).fabric = s.fabric := rfl
@[simp] theorem State.setOp_port (s : State) (n k : Nat) : (s.setOp n k).port = s.port := rfl
@[simp] theorem State.setOp_act (s : State) (n k : Nat) : (s.setOp n k).act = s.act := rfl
@[simp] theorem State.setOp_due (s : State) (n k : Nat) : (s.setOp n k).due = s.due := rfl
@[simp] theorem State.setOp_time (s : State) (n k : Nat) : (s.setOp n k).time = s.time := rfl
@[simp] theorem State.setOp_free (s : State) (n k : Nat) : (s.setOp n k).free = s.free := rfl

/-! ### withExports -/

@[simp] theorem State.withExports_cur (s : State) (es : List Export) : (s.withExports es).cur = s.cur := rfl
@[simp] theorem State.withExports_core (s : State) (es : List Export) : (s.withExports es).core = s.core := rfl
@[simp] theorem State.withExports_others (s : State) (es : List Export) : (s.withExports es).others = s.others := rfl
@[simp] theorem State.withExports_mem (s : State) (es : List Export) : (s.withExports es).mem = s.mem := rfl
@[simp] theorem State.withExports_hub (s : State) (es : List Export) : (s.withExports es).hub = s.hub := rfl
@[simp] theorem State.withExports_power (s : State) (es : List Export) : (s.withExports es).power = s.power := rfl
@[simp] theorem State.withExports_port (s : State) (es : List Export) : (s.withExports es).port = s.port := rfl
@[simp] theorem State.withExports_act (s : State) (es : List Export) : (s.withExports es).act = s.act := rfl
@[simp] theorem State.withExports_due (s : State) (es : List Export) : (s.withExports es).due = s.due := rfl
@[simp] theorem State.withExports_time (s : State) (es : List Export) : (s.withExports es).time = s.time := rfl
@[simp] theorem State.withExports_free (s : State) (es : List Export) : (s.withExports es).free = s.free := rfl

/-! ### respond -/

@[simp] theorem State.respond_cur (s : State) (f : Frame) (k : BitVec 16) (a b : Word) (bs : List Byte) : (s.respond f k a b bs).cur = s.cur := rfl
@[simp] theorem State.respond_core (s : State) (f : Frame) (k : BitVec 16) (a b : Word) (bs : List Byte) : (s.respond f k a b bs).core = s.core := rfl
@[simp] theorem State.respond_others (s : State) (f : Frame) (k : BitVec 16) (a b : Word) (bs : List Byte) : (s.respond f k a b bs).others = s.others := rfl
@[simp] theorem State.respond_mem (s : State) (f : Frame) (k : BitVec 16) (a b : Word) (bs : List Byte) : (s.respond f k a b bs).mem = s.mem := rfl
@[simp] theorem State.respond_hub (s : State) (f : Frame) (k : BitVec 16) (a b : Word) (bs : List Byte) : (s.respond f k a b bs).hub = s.hub := rfl
@[simp] theorem State.respond_power (s : State) (f : Frame) (k : BitVec 16) (a b : Word) (bs : List Byte) : (s.respond f k a b bs).power = s.power := rfl
@[simp] theorem State.respond_fabric (s : State) (f : Frame) (k : BitVec 16) (a b : Word) (bs : List Byte) : (s.respond f k a b bs).fabric = s.fabric := rfl
@[simp] theorem State.respond_act (s : State) (f : Frame) (k : BitVec 16) (a b : Word) (bs : List Byte) : (s.respond f k a b bs).act = s.act := rfl
@[simp] theorem State.respond_due (s : State) (f : Frame) (k : BitVec 16) (a b : Word) (bs : List Byte) : (s.respond f k a b bs).due = s.due := rfl
@[simp] theorem State.respond_time (s : State) (f : Frame) (k : BitVec 16) (a b : Word) (bs : List Byte) : (s.respond f k a b bs).time = s.time := rfl
@[simp] theorem State.respond_free (s : State) (f : Frame) (k : BitVec 16) (a b : Word) (bs : List Byte) : (s.respond f k a b bs).free = s.free := rfl

/-! ### answerFrame -/

@[simp] theorem State.answerFrame_cur (s : State) (f : Frame) (k : Status) : (s.answerFrame f k).cur = s.cur := rfl
@[simp] theorem State.answerFrame_core (s : State) (f : Frame) (k : Status) : (s.answerFrame f k).core = s.core := rfl
@[simp] theorem State.answerFrame_others (s : State) (f : Frame) (k : Status) : (s.answerFrame f k).others = s.others := rfl
@[simp] theorem State.answerFrame_mem (s : State) (f : Frame) (k : Status) : (s.answerFrame f k).mem = s.mem := rfl
@[simp] theorem State.answerFrame_hub (s : State) (f : Frame) (k : Status) : (s.answerFrame f k).hub = s.hub := rfl
@[simp] theorem State.answerFrame_power (s : State) (f : Frame) (k : Status) : (s.answerFrame f k).power = s.power := rfl
@[simp] theorem State.answerFrame_fabric (s : State) (f : Frame) (k : Status) : (s.answerFrame f k).fabric = s.fabric := rfl
@[simp] theorem State.answerFrame_act (s : State) (f : Frame) (k : Status) : (s.answerFrame f k).act = s.act := rfl
@[simp] theorem State.answerFrame_due (s : State) (f : Frame) (k : Status) : (s.answerFrame f k).due = s.due := rfl
@[simp] theorem State.answerFrame_time (s : State) (f : Frame) (k : Status) : (s.answerFrame f k).time = s.time := rfl
@[simp] theorem State.answerFrame_free (s : State) (f : Frame) (k : Status) : (s.answerFrame f k).free = s.free := rfl

/-! ### event -/

@[simp] theorem State.event_cur (s : State) (k : Cause) (src n : Nat) (p : Option Nat) (ad : Word) (h : Handle) (t : BitVec 32) (x y : Word) : (s.event k src n p ad h t x y).cur = s.cur := rfl
@[simp] theorem State.event_core (s : State) (k : Cause) (src n : Nat) (p : Option Nat) (ad : Word) (h : Handle) (t : BitVec 32) (x y : Word) : (s.event k src n p ad h t x y).core = s.core := rfl
@[simp] theorem State.event_others (s : State) (k : Cause) (src n : Nat) (p : Option Nat) (ad : Word) (h : Handle) (t : BitVec 32) (x y : Word) : (s.event k src n p ad h t x y).others = s.others := rfl
@[simp] theorem State.event_mem (s : State) (k : Cause) (src n : Nat) (p : Option Nat) (ad : Word) (h : Handle) (t : BitVec 32) (x y : Word) : (s.event k src n p ad h t x y).mem = s.mem := rfl
@[simp] theorem State.event_hub (s : State) (k : Cause) (src n : Nat) (p : Option Nat) (ad : Word) (h : Handle) (t : BitVec 32) (x y : Word) : (s.event k src n p ad h t x y).hub = s.hub := rfl
@[simp] theorem State.event_power (s : State) (k : Cause) (src n : Nat) (p : Option Nat) (ad : Word) (h : Handle) (t : BitVec 32) (x y : Word) : (s.event k src n p ad h t x y).power = s.power := rfl
@[simp] theorem State.event_fabric (s : State) (k : Cause) (src n : Nat) (p : Option Nat) (ad : Word) (h : Handle) (t : BitVec 32) (x y : Word) : (s.event k src n p ad h t x y).fabric = s.fabric := rfl
@[simp] theorem State.event_port (s : State) (k : Cause) (src n : Nat) (p : Option Nat) (ad : Word) (h : Handle) (t : BitVec 32) (x y : Word) : (s.event k src n p ad h t x y).port = s.port := rfl
@[simp] theorem State.event_act (s : State) (k : Cause) (src n : Nat) (p : Option Nat) (ad : Word) (h : Handle) (t : BitVec 32) (x y : Word) : (s.event k src n p ad h t x y).act = s.act := rfl
@[simp] theorem State.event_time (s : State) (k : Cause) (src n : Nat) (p : Option Nat) (ad : Word) (h : Handle) (t : BitVec 32) (x y : Word) : (s.event k src n p ad h t x y).time = s.time := rfl
@[simp] theorem State.event_free (s : State) (k : Cause) (src n : Nat) (p : Option Nat) (ad : Word) (h : Handle) (t : BitVec 32) (x y : Word) : (s.event k src n p ad h t x y).free = s.free := rfl

/-! ### post -/

@[simp] theorem State.post_cur (s : State) (k : Packet) : (s.post k).cur = s.cur := rfl
@[simp] theorem State.post_core (s : State) (k : Packet) : (s.post k).core = s.core := rfl
@[simp] theorem State.post_others (s : State) (k : Packet) : (s.post k).others = s.others := rfl
@[simp] theorem State.post_mem (s : State) (k : Packet) : (s.post k).mem = s.mem := rfl
@[simp] theorem State.post_hub (s : State) (k : Packet) : (s.post k).hub = s.hub := rfl
@[simp] theorem State.post_power (s : State) (k : Packet) : (s.post k).power = s.power := rfl
@[simp] theorem State.post_port (s : State) (k : Packet) : (s.post k).port = s.port := rfl
@[simp] theorem State.post_act (s : State) (k : Packet) : (s.post k).act = s.act := rfl
@[simp] theorem State.post_time (s : State) (k : Packet) : (s.post k).time = s.time := rfl
@[simp] theorem State.post_free (s : State) (k : Packet) : (s.post k).free = s.free := rfl
@[simp] theorem State.post_due (s : State) (k : Packet) : (s.post k).due = s.due ++ [.trailPacketDeliver { k with seq := s.fabric.nextPkt }] := rfl

/-! ### Updates that do nothing twice -/

@[simp] theorem State.withCore_core_self (s : State) : s.withCore s.core = s := rfl
@[simp] theorem State.withHub_hub_self (s : State) : s.withHub s.hub = s := rfl
@[simp] theorem State.withCore_withCore (s : State) (x y : Core) : (s.withCore x).withCore y = s.withCore y := rfl
@[simp] theorem State.withHub_withHub (s : State) (x y : Hub) : (s.withHub x).withHub y = s.withHub y := rfl
@[simp] theorem State.addDue_nil (s : State) : s.addDue [] = s := by simp [State.addDue]
theorem State.addDue_addDue (s : State) (xs ys : List Action) : (s.addDue xs).addDue ys = s.addDue (xs ++ ys) := by simp [State.addDue]

end Sys2Proof.Machine
end

