-- ==== Sys2Proof/Laws/Access.lean ====
section
/-! SUPPORT. What the accessors of the state read after a write through them: sequencers, units, accounts, transfers, partitions, ports
and circuit handles. -/

namespace Sys2Proof.Machine

/-! ### Sequencers -/

@[simp] theorem State.coreAt_cur (s : State) : s.coreAt s.cur = s.core := by simp [State.coreAt]

theorem State.coreAt_of_cur {s : State} {c : Nat} (h : c = s.cur) : s.coreAt c = s.core := by simp [State.coreAt, h]

@[simp] theorem State.setCore_cur (s : State) (c : Nat) (x : Core) : (s.setCore c x).cur = s.cur := by
  unfold State.setCore; split <;> rfl

/-- A sequencer replaced reads as written and every other as before; where the maps are in order, any core may be written. -/
theorem State.coreAt_setCore {s : State} (h : RisingKeys s.others) (c d : Nat) (x : Core) :
    (s.setCore c x).coreAt d = if d = c then x else s.coreAt d := by
  unfold State.setCore State.coreAt
  by_cases hc : c = s.cur
  · subst hc; simp only [if_true]; split <;> rfl
  · simp only [if_neg hc]
    by_cases hd : d = s.cur
    · subst hd; simp [Ne.symm hc]
    · simp only [if_neg hd, NatMap.findD_putD h]

/-- The same for a value that is not the reset one: no order of the keys is needed. -/
theorem State.coreAt_setCore_of_ne {s : State} {x : Core} (hx : x ≠ {}) (c d : Nat) :
    (s.setCore c x).coreAt d = if d = c then x else s.coreAt d := by
  unfold State.setCore State.coreAt
  by_cases hc : c = s.cur
  · subst hc; simp only [if_true]; split <;> rfl
  · simp only [if_neg hc]
    by_cases hd : d = s.cur
    · subst hd; simp [Ne.symm hc]
    · simp only [if_neg hd, NatMap.findD_putD_of_ne hx]

theorem State.coreAt_setCore_other {s : State} {c d : Nat} (h : d ≠ c) (x : Core) : (s.setCore c x).coreAt d = s.coreAt d := by
  unfold State.setCore State.coreAt
  by_cases hc : c = s.cur
  · subst hc; simp [h]
  · simp only [if_neg hc]
    by_cases hd : d = s.cur
    · simp [hd]
    · simp only [if_neg hd, NatMap.findD_putD_ne h]

theorem State.setCore_mem (s : State) (c : Nat) (x : Core) : (s.setCore c x).mem = s.mem := by unfold State.setCore; split <;> rfl
theorem State.setCore_hub (s : State) (c : Nat) (x : Core) : (s.setCore c x).hub = s.hub := by unfold State.setCore; split <;> rfl
theorem State.setCore_fabric (s : State) (c : Nat) (x : Core) : (s.setCore c x).fabric = s.fabric := by unfold State.setCore; split <;> rfl
theorem State.setCore_power (s : State) (c : Nat) (x : Core) : (s.setCore c x).power = s.power := by unfold State.setCore; split <;> rfl
theorem State.setCore_port (s : State) (c : Nat) (x : Core) : (s.setCore c x).port = s.port := by unfold State.setCore; split <;> rfl
theorem State.setCore_due (s : State) (c : Nat) (x : Core) : (s.setCore c x).due = s.due := by unfold State.setCore; split <;> rfl
theorem State.setCore_time (s : State) (c : Nat) (x : Core) : (s.setCore c x).time = s.time := by unfold State.setCore; split <;> rfl

/-- Writing a sequencer keeps the others in order. -/
theorem State.setCore_others {s : State} (h : RisingKeys s.others) (c : Nat) (x : Core) : RisingKeys (s.setCore c x).others := by
  unfold State.setCore; split
  · exact h
  · exact h.putD _ _ _

/-! ### Units -/

@[simp] theorem State.unitAt_setUnit_self (s : State) (u : Nat) (x : Uni) : (s.setUnit u x).unitAt u = some x := NatMap.find_put_self u x _

theorem State.unitAt_setUnit (s : State) (u v : Nat) (x : Uni) : (s.setUnit u x).unitAt v = if v = u then some x else s.unitAt v :=
  NatMap.find_put v u x _

theorem State.unitAt_modUnit (s : State) (u v : Nat) (f : Uni → Uni) :
    (s.modUnit u f).unitAt v = if v = u then (s.unitAt u).map f else s.unitAt v := by
  unfold State.modUnit
  cases h : s.unitAt u with
  | none => split <;> simp_all
  | some x => rw [State.unitAt_setUnit]; rfl

@[simp] theorem State.unitAt_setCore (s : State) (c u : Nat) (x : Core) : (s.setCore c x).unitAt u = s.unitAt u := by
  unfold State.unitAt; rw [State.setCore_hub]

@[simp] theorem State.unitAt_addDue (s : State) (xs : List Action) (u : Nat) : (s.addDue xs).unitAt u = s.unitAt u := rfl
@[simp] theorem State.unitAt_withCore (s : State) (x : Core) (u : Nat) : (s.withCore x).unitAt u = s.unitAt u := rfl
@[simp] theorem State.unitAt_setAcc (s : State) (i : Nat) (a : Account) (u : Nat) : (s.setAcc i a).unitAt u = s.unitAt u := rfl

/-! ### Accounts -/

theorem State.accAt_setAcc {s : State} (h : RisingKeys s.hub.accounts) (i j : Nat) (a : Account) :
    (s.setAcc i a).accAt j = if j = i then a else s.accAt j :=
  NatMap.findD_putD h {} j i a

theorem State.accAt_setAcc_of_ne {a : Account} (h : a ≠ {}) (s : State) (i j : Nat) :
    (s.setAcc i a).accAt j = if j = i then a else s.accAt j :=
  NatMap.findD_putD_of_ne h j i

theorem State.accAt_setAcc_other {i j : Nat} (h : j ≠ i) (s : State) (a : Account) : (s.setAcc i a).accAt j = s.accAt j :=
  NatMap.findD_putD_ne h _ _ _

@[simp] theorem State.accAt_setUnit (s : State) (u : Nat) (x : Uni) (i : Nat) : (s.setUnit u x).accAt i = s.accAt i := rfl
@[simp] theorem State.accAt_addDue (s : State) (xs : List Action) (i : Nat) : (s.addDue xs).accAt i = s.accAt i := rfl
@[simp] theorem State.accAt_withCore (s : State) (x : Core) (i : Nat) : (s.withCore x).accAt i = s.accAt i := rfl

theorem State.setAcc_rising {s : State} (h : RisingKeys s.hub.accounts) (i : Nat) (a : Account) : RisingKeys (s.setAcc i a).hub.accounts :=
  h.putD _ _ _

/-! ### Transfers, partitions, ports -/

theorem State.xferAt_setXfer (s : State) (x y : Nat) (t : Xfer) : (s.setXfer x t).xferAt y = if y = x then some t else s.xferAt y :=
  NatMap.find_put y x t _

theorem State.partAt_setPart (s : State) (p q : Nat) (d : PartDesc) (hp : p < 8) :
    (s.setPart p d).partAt q = if q = p then d else s.partAt q := by
  unfold State.setPart State.partAt
  simp only [hp, dif_pos, State.withHub]
  by_cases hq : q < 8
  · simp only [hq, dif_pos]
    rw [Vector.getElem_set]
    by_cases e : p = q
    · rw [if_pos e, if_pos e.symm]
    · rw [if_neg e, if_neg (Ne.symm e)]
  · have e : q ≠ p := by omega
    simp [hq, e]

theorem State.portAt_setPort {s : State} (h : RisingKeys s.fabric.ports) (p q : Nat) (x : Port) :
    (s.setPort p x).portAt q = if q = p then x else s.portAt q :=
  NatMap.findD_putD h {} q p x

theorem State.portAt_setPort_of_ne {x : Port} (h : x ≠ {}) (s : State) (p q : Nat) :
    (s.setPort p x).portAt q = if q = p then x else s.portAt q :=
  NatMap.findD_putD_of_ne h q p

@[simp] theorem State.portAt_addDue (s : State) (xs : List Action) (p : Nat) : (s.addDue xs).portAt p = s.portAt p := rfl
@[simp] theorem State.portAt_withHub (s : State) (h : Hub) (p : Nat) : (s.withHub h).portAt p = s.portAt p := rfl
@[simp] theorem State.portAt_withCore (s : State) (x : Core) (p : Nat) : (s.withCore x).portAt p = s.portAt p := rfl

/-! ### Slots of wheels -/

theorem State.takeSlots_wheels (s : State) (p : Nat) (ks : List (Nat × Nat)) {k : Nat × Nat} (h : k ∈ ks) :
    NatMap.find (slotKey k) (s.takeSlots p ks).fabric.wheels = some p := by
  unfold State.takeSlots
  suffices ∀ m : NatMap Nat, k ∈ ks ∨ NatMap.find (slotKey k) m = some p →
      NatMap.find (slotKey k) (ks.foldl (fun m k => NatMap.put (slotKey k) p m) m) = some p from this _ (.inl h)
  clear h
  induction ks with
  | nil => intro m h; simpa using h
  | cons x xs ih =>
    intro m h
    refine ih _ ?_
    rw [NatMap.find_put]
    rcases h with h | h
    · rcases List.mem_cons.1 h with rfl | h
      · exact .inr (by simp)
      · exact .inl h
    · exact .inr (by split <;> simp_all)

end Sys2Proof.Machine
end

