-- ==== Sys2Proof/Laws/Dispatch.lean ====
section
/-! SUPPORT. What each instruction and device action runs: one equation for each constructor, true by definition. -/

namespace Sys2Proof.Machine

theorem exec_nop (z : State) : exec (.nop) z = execNop z := rfl
theorem exec_add (z : State) (p : BitVec 3) (w : Bool) (d : BitVec 6) (a : Src) (b : Src) : exec (.add p w d a b) z = execAdd p w d a b z := rfl
theorem exec_sub (z : State) (p : BitVec 3) (w : Bool) (d : BitVec 6) (a : Src) (b : Src) : exec (.sub p w d a b) z = execSub p w d a b z := rfl
theorem exec_and (z : State) (p : BitVec 3) (w : Bool) (d : BitVec 6) (a : Src) (b : Src) : exec (.and p w d a b) z = execAnd p w d a b z := rfl
theorem exec_or (z : State) (p : BitVec 3) (w : Bool) (d : BitVec 6) (a : Src) (b : Src) : exec (.or p w d a b) z = execOr p w d a b z := rfl
theorem exec_xor (z : State) (p : BitVec 3) (w : Bool) (d : BitVec 6) (a : Src) (b : Src) : exec (.xor p w d a b) z = execXor p w d a b z := rfl
theorem exec_andn (z : State) (p : BitVec 3) (w : Bool) (d : BitVec 6) (a : Src) (b : Src) : exec (.andn p w d a b) z = execAndn p w d a b z := rfl
theorem exec_shl (z : State) (p : BitVec 3) (w : Bool) (d : BitVec 6) (a : Src) (b : Src) : exec (.shl p w d a b) z = execShl p w d a b z := rfl
theorem exec_shr (z : State) (p : BitVec 3) (w : Bool) (d : BitVec 6) (a : Src) (b : Src) : exec (.shr p w d a b) z = execShr p w d a b z := rfl
theorem exec_sra (z : State) (p : BitVec 3) (w : Bool) (d : BitVec 6) (a : Src) (b : Src) : exec (.sra p w d a b) z = execSra p w d a b z := rfl
theorem exec_rotr (z : State) (p : BitVec 3) (w : Bool) (d : BitVec 6) (a : Src) (b : Src) : exec (.rotr p w d a b) z = execRotr p w d a b z := rfl
theorem exec_min (z : State) (p : BitVec 3) (w : Bool) (d : BitVec 6) (a : Src) (b : Src) : exec (.min p w d a b) z = execMin p w d a b z := rfl
theorem exec_minn (z : State) (p : BitVec 3) (w : Bool) (d : BitVec 6) (a : Src) (b : Src) : exec (.minn p w d a b) z = execMinn p w d a b z := rfl
theorem exec_max (z : State) (p : BitVec 3) (w : Bool) (d : BitVec 6) (a : Src) (b : Src) : exec (.max p w d a b) z = execMax p w d a b z := rfl
theorem exec_maxn (z : State) (p : BitVec 3) (w : Bool) (d : BitVec 6) (a : Src) (b : Src) : exec (.maxn p w d a b) z = execMaxn p w d a b z := rfl
theorem exec_sel (z : State) (p : BitVec 3) (w : Bool) (d : BitVec 6) (a : Src) (b : Src) : exec (.sel p w d a b) z = execSel p w d a b z := rfl
theorem exec_mul (z : State) (p : BitVec 3) (w : Bool) (d : BitVec 6) (a : Src) (b : Src) : exec (.mul p w d a b) z = execMul p w d a b z := rfl
theorem exec_mulh (z : State) (p : BitVec 3) (w : Bool) (d : BitVec 6) (a : Src) (b : Src) : exec (.mulh p w d a b) z = execMulh p w d a b z := rfl
theorem exec_mulhn (z : State) (p : BitVec 3) (w : Bool) (d : BitVec 6) (a : Src) (b : Src) : exec (.mulhn p w d a b) z = execMulhn p w d a b z := rfl
theorem exec_clz (z : State) (p : BitVec 3) (w : Bool) (d : BitVec 6) (a : Src) : exec (.clz p w d a) z = execClz p w d a z := rfl
theorem exec_popc (z : State) (p : BitVec 3) (w : Bool) (d : BitVec 6) (a : Src) : exec (.popc p w d a) z = execPopc p w d a z := rfl
theorem exec_bfx (z : State) (p : BitVec 3) (w : Bool) (d : BitVec 6) (a : Src) (b : Src) : exec (.bfx p w d a b) z = execBfx p w d a b z := rfl
theorem exec_bfi (z : State) (p : BitVec 3) (w : Bool) (d : BitVec 6) (a : Src) (b : Src) : exec (.bfi p w d a b) z = execBfi p w d a b z := rfl
theorem exec_cmpeq (z : State) (p : BitVec 3) (w : Bool) (d : BitVec 6) (a : Src) (b : Src) : exec (.cmpeq p w d a b) z = execCmpeq p w d a b z := rfl
theorem exec_cmpne (z : State) (p : BitVec 3) (w : Bool) (d : BitVec 6) (a : Src) (b : Src) : exec (.cmpne p w d a b) z = execCmpne p w d a b z := rfl
theorem exec_cmplt (z : State) (p : BitVec 3) (w : Bool) (d : BitVec 6) (a : Src) (b : Src) : exec (.cmplt p w d a b) z = execCmplt p w d a b z := rfl
theorem exec_cmpltn (z : State) (p : BitVec 3) (w : Bool) (d : BitVec 6) (a : Src) (b : Src) : exec (.cmpltn p w d a b) z = execCmpltn p w d a b z := rfl
theorem exec_cmple (z : State) (p : BitVec 3) (w : Bool) (d : BitVec 6) (a : Src) (b : Src) : exec (.cmple p w d a b) z = execCmple p w d a b z := rfl
theorem exec_cmplen (z : State) (p : BitVec 3) (w : Bool) (d : BitVec 6) (a : Src) (b : Src) : exec (.cmplen p w d a b) z = execCmplen p w d a b z := rfl
theorem exec_pand (z : State) (p : BitVec 3) (w : Bool) (d : BitVec 6) (a : Src) (b : Src) : exec (.pand p w d a b) z = execPand p w d a b z := rfl
theorem exec_por (z : State) (p : BitVec 3) (w : Bool) (d : BitVec 6) (a : Src) (b : Src) : exec (.por p w d a b) z = execPor p w d a b z := rfl
theorem exec_pxor (z : State) (p : BitVec 3) (w : Bool) (d : BitVec 6) (a : Src) (b : Src) : exec (.pxor p w d a b) z = execPxor p w d a b z := rfl
theorem exec_adds2 (z : State) (p : BitVec 3) (w : Bool) (d : BitVec 6) (a : Src) (b : Src) : exec (.adds2 p w d a b) z = execAdds2 p w d a b z := rfl
theorem exec_adds3 (z : State) (p : BitVec 3) (w : Bool) (d : BitVec 6) (a : Src) (b : Src) : exec (.adds3 p w d a b) z = execAdds3 p w d a b z := rfl
theorem exec_adds6 (z : State) (p : BitVec 3) (w : Bool) (d : BitVec 6) (a : Src) (b : Src) : exec (.adds6 p w d a b) z = execAdds6 p w d a b z := rfl
theorem exec_adds10 (z : State) (p : BitVec 3) (w : Bool) (d : BitVec 6) (a : Src) (b : Src) : exec (.adds10 p w d a b) z = execAdds10 p w d a b z := rfl
theorem exec_mov (z : State) (p : BitVec 3) (w : Bool) (d : BitVec 6) (a : Src) : exec (.mov p w d a) z = execMov p w d a z := rfl
theorem exec_addi (z : State) (p : BitVec 3) (w : Bool) (d : BitVec 6) (i : BitVec 14) : exec (.addi p w d i) z = execAddi p w d i z := rfl
theorem exec_andi (z : State) (p : BitVec 3) (w : Bool) (d : BitVec 6) (i : BitVec 14) : exec (.andi p w d i) z = execAndi p w d i z := rfl
theorem exec_ori (z : State) (p : BitVec 3) (w : Bool) (d : BitVec 6) (i : BitVec 14) : exec (.ori p w d i) z = execOri p w d i z := rfl
theorem exec_xori (z : State) (p : BitVec 3) (w : Bool) (d : BitVec 6) (i : BitVec 14) : exec (.xori p w d i) z = execXori p w d i z := rfl
theorem exec_shli (z : State) (p : BitVec 3) (w : Bool) (d : BitVec 6) (i : BitVec 6) : exec (.shli p w d i) z = execShli p w d i z := rfl
theorem exec_shri (z : State) (p : BitVec 3) (w : Bool) (d : BitVec 6) (i : BitVec 6) : exec (.shri p w d i) z = execShri p w d i z := rfl
theorem exec_srai (z : State) (p : BitVec 3) (w : Bool) (d : BitVec 6) (i : BitVec 6) : exec (.srai p w d i) z = execSrai p w d i z := rfl
theorem exec_cmpeqi (z : State) (p : BitVec 3) (w : Bool) (a : BitVec 6) (d : BitVec 3) (i : BitVec 11) : exec (.cmpeqi p w a d i) z = execCmpeqi p w a d i z := rfl
theorem exec_cmplti (z : State) (p : BitVec 3) (w : Bool) (a : BitVec 6) (d : BitVec 3) (i : BitVec 11) : exec (.cmplti p w a d i) z = execCmplti p w a d i z := rfl
theorem exec_movi (z : State) (p : BitVec 3) (w : Bool) (d : BitVec 6) (i : BitVec 14) : exec (.movi p w d i) z = execMovi p w d i z := rfl
theorem exec_fadd (z : State) (f : FFmt) (p : BitVec 3) (w : Bool) (d : BitVec 6) (a : Src) (b : Src) : exec (.fadd f p w d a b) z = execFadd f p w d a b z := rfl
theorem exec_fsub (z : State) (f : FFmt) (p : BitVec 3) (w : Bool) (d : BitVec 6) (a : Src) (b : Src) : exec (.fsub f p w d a b) z = execFsub f p w d a b z := rfl
theorem exec_fmul (z : State) (f : FFmt) (p : BitVec 3) (w : Bool) (d : BitVec 6) (a : Src) (b : Src) : exec (.fmul f p w d a b) z = execFmul f p w d a b z := rfl
theorem exec_ffma (z : State) (f : FFmt) (p : BitVec 3) (w : Bool) (d : BitVec 6) (a : Src) (b : Src) : exec (.ffma f p w d a b) z = execFfma f p w d a b z := rfl
theorem exec_fmin (z : State) (f : FFmt) (p : BitVec 3) (w : Bool) (d : BitVec 6) (a : Src) (b : Src) : exec (.fmin f p w d a b) z = execFmin f p w d a b z := rfl
theorem exec_fmax (z : State) (f : FFmt) (p : BitVec 3) (w : Bool) (d : BitVec 6) (a : Src) (b : Src) : exec (.fmax f p w d a b) z = execFmax f p w d a b z := rfl
theorem exec_fcmpeq (z : State) (f : FFmt) (p : BitVec 3) (w : Bool) (d : BitVec 6) (a : Src) (b : Src) : exec (.fcmpeq f p w d a b) z = execFcmpeq f p w d a b z := rfl
theorem exec_fcmplt (z : State) (f : FFmt) (p : BitVec 3) (w : Bool) (d : BitVec 6) (a : Src) (b : Src) : exec (.fcmplt f p w d a b) z = execFcmplt f p w d a b z := rfl
theorem exec_fcmple (z : State) (f : FFmt) (p : BitVec 3) (w : Bool) (d : BitVec 6) (a : Src) (b : Src) : exec (.fcmple f p w d a b) z = execFcmple f p w d a b z := rfl
theorem exec_fcvts (z : State) (f : FFmt) (p : BitVec 3) (w : Bool) (d : BitVec 6) (a : Src) (r : Round) : exec (.fcvts f p w d a r) z = execFcvts f p w d a r z := rfl
theorem exec_fcvti (z : State) (f : FFmt) (p : BitVec 3) (w : Bool) (d : BitVec 6) (a : Src) (t : IType) (r : Round) : exec (.fcvti f p w d a t r) z = execFcvti f p w d a t r z := rfl
theorem exec_fcvtf (z : State) (f : FFmt) (p : BitVec 3) (w : Bool) (d : BitVec 6) (a : Src) (t : IType) (r : Round) : exec (.fcvtf f p w d a t r) z = execFcvtf f p w d a t r z := rfl
theorem exec_vadd (z : State) (t : VType) (p : BitVec 3) (w : Bool) (d : BitVec 6) (a : Src) (b : Src) : exec (.vadd t p w d a b) z = execVadd t p w d a b z := rfl
theorem exec_vsub (z : State) (t : VType) (p : BitVec 3) (w : Bool) (d : BitVec 6) (a : Src) (b : Src) : exec (.vsub t p w d a b) z = execVsub t p w d a b z := rfl
theorem exec_vmul (z : State) (t : VType) (p : BitVec 3) (w : Bool) (d : BitVec 6) (a : Src) (b : Src) : exec (.vmul t p w d a b) z = execVmul t p w d a b z := rfl
theorem exec_vfma (z : State) (t : VType) (p : BitVec 3) (w : Bool) (d : BitVec 6) (a : Src) (b : Src) : exec (.vfma t p w d a b) z = execVfma t p w d a b z := rfl
theorem exec_vfms (z : State) (t : VType) (p : BitVec 3) (w : Bool) (d : BitVec 6) (a : Src) (b : Src) : exec (.vfms t p w d a b) z = execVfms t p w d a b z := rfl
theorem exec_vmin (z : State) (t : VType) (p : BitVec 3) (w : Bool) (d : BitVec 6) (a : Src) (b : Src) : exec (.vmin t p w d a b) z = execVmin t p w d a b z := rfl
theorem exec_vmax (z : State) (t : VType) (p : BitVec 3) (w : Bool) (d : BitVec 6) (a : Src) (b : Src) : exec (.vmax t p w d a b) z = execVmax t p w d a b z := rfl
theorem exec_vadds (z : State) (t : VType) (p : BitVec 3) (w : Bool) (d : BitVec 6) (a : Src) (b : Src) : exec (.vadds t p w d a b) z = execVadds t p w d a b z := rfl
theorem exec_vsubs (z : State) (t : VType) (p : BitVec 3) (w : Bool) (d : BitVec 6) (a : Src) (b : Src) : exec (.vsubs t p w d a b) z = execVsubs t p w d a b z := rfl
theorem exec_vcmpeq (z : State) (t : VType) (p : BitVec 3) (w : Bool) (d : BitVec 6) (a : Src) (b : Src) : exec (.vcmpeq t p w d a b) z = execVcmpeq t p w d a b z := rfl
theorem exec_vcmplt (z : State) (t : VType) (p : BitVec 3) (w : Bool) (d : BitVec 6) (a : Src) (b : Src) : exec (.vcmplt t p w d a b) z = execVcmplt t p w d a b z := rfl
theorem exec_vcmple (z : State) (t : VType) (p : BitVec 3) (w : Bool) (d : BitVec 6) (a : Src) (b : Src) : exec (.vcmple t p w d a b) z = execVcmple t p w d a b z := rfl
theorem exec_vabs (z : State) (t : VType) (p : BitVec 3) (w : Bool) (d : BitVec 6) (a : Src) : exec (.vabs t p w d a) z = execVabs t p w d a z := rfl
theorem exec_vneg (z : State) (t : VType) (p : BitVec 3) (w : Bool) (d : BitVec 6) (a : Src) : exec (.vneg t p w d a) z = execVneg t p w d a z := rfl
theorem exec_vand (z : State) (p : BitVec 3) (w : Bool) (d : BitVec 6) (a : Src) (b : Src) : exec (.vand p w d a b) z = execVand p w d a b z := rfl
theorem exec_vor (z : State) (p : BitVec 3) (w : Bool) (d : BitVec 6) (a : Src) (b : Src) : exec (.vor p w d a b) z = execVor p w d a b z := rfl
theorem exec_vxor (z : State) (p : BitVec 3) (w : Bool) (d : BitVec 6) (a : Src) (b : Src) : exec (.vxor p w d a b) z = execVxor p w d a b z := rfl
theorem exec_vandn (z : State) (p : BitVec 3) (w : Bool) (d : BitVec 6) (a : Src) (b : Src) : exec (.vandn p w d a b) z = execVandn p w d a b z := rfl
theorem exec_vshl (z : State) (t : VType) (p : BitVec 3) (w : Bool) (d : BitVec 6) (a : Src) (b : Src) : exec (.vshl t p w d a b) z = execVshl t p w d a b z := rfl
theorem exec_vshr (z : State) (t : VType) (p : BitVec 3) (w : Bool) (d : BitVec 6) (a : Src) (b : Src) : exec (.vshr t p w d a b) z = execVshr t p w d a b z := rfl
theorem exec_vsel (z : State) (p : BitVec 3) (w : Bool) (d : BitVec 6) (a : Src) (b : Src) : exec (.vsel p w d a b) z = execVsel p w d a b z := rfl
theorem exec_vmov (z : State) (p : BitVec 3) (w : Bool) (d : BitVec 6) (a : Src) : exec (.vmov p w d a) z = execVmov p w d a z := rfl
theorem exec_vsplat (z : State) (p : BitVec 3) (w : Bool) (d : BitVec 6) (a : Src) : exec (.vsplat p w d a) z = execVsplat p w d a z := rfl
theorem exec_vins (z : State) (p : BitVec 3) (w : Bool) (d : BitVec 6) (a : Src) (b : Src) : exec (.vins p w d a b) z = execVins p w d a b z := rfl
theorem exec_vxtr (z : State) (w : Bool) (d : BitVec 6) (a : Src) (b : Src) : exec (.vxtr w d a b) z = execVxtr w d a b z := rfl
theorem exec_vcvt (z : State) (t : VType) (p : BitVec 3) (w : Bool) (d : BitVec 6) (a : Src) (s : VType) (r : Round) : exec (.vcvt t p w d a s r) z = execVcvt t p w d a s r z := rfl
theorem exec_vcvtx (z : State) (x : XType) (p : BitVec 3) (w : Bool) (d : BitVec 6) (a : Src) (s : VType) (r : Round) (n : Bool) : exec (.vcvtx x p w d a s r n) z = execVcvtx x p w d a s r n z := rfl
theorem exec_vfxadd (z : State) (p : BitVec 3) (w : Bool) (d : BitVec 6) (a : Src) (b : Src) : exec (.vfxadd p w d a b) z = execVfxadd p w d a b z := rfl
theorem exec_vfxcvt (z : State) (p : BitVec 3) (w : Bool) (d : BitVec 6) (a : Src) (b : Src) : exec (.vfxcvt p w d a b) z = execVfxcvt p w d a b z := rfl
theorem exec_vfxcvtf (z : State) (p : BitVec 3) (w : Bool) (d : BitVec 6) (a : Src) (b : Src) : exec (.vfxcvtf p w d a b) z = execVfxcvtf p w d a b z := rfl
theorem exec_vperm (z : State) (p : BitVec 3) (w : Bool) (d : BitVec 6) (a : Src) (b : Src) : exec (.vperm p w d a b) z = execVperm p w d a b z := rfl
theorem exec_vrot (z : State) (p : BitVec 3) (w : Bool) (d : BitVec 6) (a : Src) (b : Src) : exec (.vrot p w d a b) z = execVrot p w d a b z := rfl
theorem exec_vbcl (z : State) (p : BitVec 3) (w : Bool) (d : BitVec 6) (a : Src) (b : Src) : exec (.vbcl p w d a b) z = execVbcl p w d a b z := rfl
theorem exec_vredadd (z : State) (t : VType) (p : BitVec 3) (w : Bool) (d : BitVec 6) (a : Src) : exec (.vredadd t p w d a) z = execVredadd t p w d a z := rfl
theorem exec_vredmin (z : State) (t : VType) (p : BitVec 3) (w : Bool) (d : BitVec 6) (a : Src) : exec (.vredmin t p w d a) z = execVredmin t p w d a z := rfl
theorem exec_vredmax (z : State) (t : VType) (p : BitVec 3) (w : Bool) (d : BitVec 6) (a : Src) : exec (.vredmax t p w d a) z = execVredmax t p w d a z := rfl
theorem exec_vscan (z : State) (t : VType) (p : BitVec 3) (w : Bool) (d : BitVec 6) (a : Src) : exec (.vscan t p w d a) z = execVscan t p w d a z := rfl
theorem exec_vxcopy (z : State) (p : BitVec 3) (w : Bool) (d : BitVec 6) (a : Src) (b : Src) : exec (.vxcopy p w d a b) z = execVxcopy p w d a b z := rfl
theorem exec_vxrot (z : State) (p : BitVec 3) (w : Bool) (d : BitVec 6) (a : Src) (b : Src) : exec (.vxrot p w d a b) z = execVxrot p w d a b z := rfl
theorem exec_vmand (z : State) (p : BitVec 3) (w : Bool) (d : BitVec 6) (a : Src) (b : Src) : exec (.vmand p w d a b) z = execVmand p w d a b z := rfl
theorem exec_vmor (z : State) (p : BitVec 3) (w : Bool) (d : BitVec 6) (a : Src) (b : Src) : exec (.vmor p w d a b) z = execVmor p w d a b z := rfl
theorem exec_vmxor (z : State) (p : BitVec 3) (w : Bool) (d : BitVec 6) (a : Src) (b : Src) : exec (.vmxor p w d a b) z = execVmxor p w d a b z := rfl
theorem exec_vmandn (z : State) (p : BitVec 3) (w : Bool) (d : BitVec 6) (a : Src) (b : Src) : exec (.vmandn p w d a b) z = execVmandn p w d a b z := rfl
theorem exec_vmnot (z : State) (p : BitVec 3) (w : Bool) (d : BitVec 6) (a : Src) : exec (.vmnot p w d a) z = execVmnot p w d a z := rfl
theorem exec_vmpop (z : State) (w : Bool) (d : BitVec 6) (a : Src) : exec (.vmpop w d a) z = execVmpop w d a z := rfl
theorem exec_exp2 (z : State) (t : FTy) (p : BitVec 3) (w : Bool) (d : BitVec 6) (a : Src) : exec (.exp2 t p w d a) z = execExp2 t p w d a z := rfl
theorem exec_log2 (z : State) (t : FTy) (p : BitVec 3) (w : Bool) (d : BitVec 6) (a : Src) : exec (.log2 t p w d a) z = execLog2 t p w d a z := rfl
theorem exec_exp (z : State) (t : FTy) (p : BitVec 3) (w : Bool) (d : BitVec 6) (a : Src) : exec (.exp t p w d a) z = execExp t p w d a z := rfl
theorem exec_log (z : State) (t : FTy) (p : BitVec 3) (w : Bool) (d : BitVec 6) (a : Src) : exec (.log t p w d a) z = execLog t p w d a z := rfl
theorem exec_rcp (z : State) (t : FTy) (p : BitVec 3) (w : Bool) (d : BitVec 6) (a : Src) : exec (.rcp t p w d a) z = execRcp t p w d a z := rfl
theorem exec_rsqrt (z : State) (t : FTy) (p : BitVec 3) (w : Bool) (d : BitVec 6) (a : Src) : exec (.rsqrt t p w d a) z = execRsqrt t p w d a z := rfl
theorem exec_sqrt (z : State) (t : FTy) (p : BitVec 3) (w : Bool) (d : BitVec 6) (a : Src) : exec (.sqrt t p w d a) z = execSqrt t p w d a z := rfl
theorem exec_tanh (z : State) (t : FTy) (p : BitVec 3) (w : Bool) (d : BitVec 6) (a : Src) : exec (.tanh t p w d a) z = execTanh t p w d a z := rfl
theorem exec_sigmoid (z : State) (t : FTy) (p : BitVec 3) (w : Bool) (d : BitVec 6) (a : Src) : exec (.sigmoid t p w d a) z = execSigmoid t p w d a z := rfl
theorem exec_erf (z : State) (t : FTy) (p : BitVec 3) (w : Bool) (d : BitVec 6) (a : Src) : exec (.erf t p w d a) z = execErf t p w d a z := rfl
theorem exec_sin (z : State) (t : FTy) (p : BitVec 3) (w : Bool) (d : BitVec 6) (a : Src) : exec (.sin t p w d a) z = execSin t p w d a z := rfl
theorem exec_cos (z : State) (t : FTy) (p : BitVec 3) (w : Bool) (d : BitVec 6) (a : Src) : exec (.cos t p w d a) z = execCos t p w d a z := rfl
theorem exec_div (z : State) (p : BitVec 3) (w : Bool) (d : BitVec 6) (a : Src) (b : Src) : exec (.div p w d a b) z = execDiv p w d a b z := rfl
theorem exec_mxpush (z : State) (p : BitVec 3) (g : Gang) (d : BitVec 5) (a : Src) : exec (.mxpush p g d a) z = execMxpush p g d a z := rfl
theorem exec_mxshift (z : State) (p : BitVec 3) (d : BitVec 5) (a : Src) : exec (.mxshift p d a) z = execMxshift p d a z := rfl
theorem exec_mxacc (z : State) (p : BitVec 3) (g : Gang) (d : BitVec 5) (a : Src) (b : Src) : exec (.mxacc p g d a b) z = execMxacc p g d a b z := rfl
theorem exec_mxaccx (z : State) (p : BitVec 3) (g : Gang) (d : BitVec 5) (a : Src) (b : Src) : exec (.mxaccx p g d a b) z = execMxaccx p g d a b z := rfl
theorem exec_mxdrain (z : State) (p : BitVec 3) (d : BitVec 5) (a : Src) (b : Src) : exec (.mxdrain p d a b) z = execMxdrain p d a b z := rfl
theorem exec_mxzero (z : State) (p : BitVec 3) (d : BitVec 5) : exec (.mxzero p d) z = execMxzero p d z := rfl
theorem exec_mxswap (z : State) (p : BitVec 3) : exec (.mxswap p) z = execMxswap p z := rfl
theorem exec_ldq (z : State) (t : LdTy) (p : BitVec 3) (d : BitVec 6) (a : Src) (b : Src) : exec (.ldq t p d a b) z = execLdq t p d a b z := rfl
theorem exec_ldqv (z : State) (p : BitVec 3) (d : BitVec 6) (a : Src) (b : Src) : exec (.ldqv p d a b) z = execLdqv p d a b z := rfl
theorem exec_gather (z : State) (t : GaTy) (p : BitVec 3) (d : BitVec 6) (a : Src) (b : Src) : exec (.gather t p d a b) z = execGather t p d a b z := rfl
theorem exec_lds (z : State) (p : BitVec 3) (d : BitVec 6) (a : Src) (b : Src) : exec (.lds p d a b) z = execLds p d a b z := rfl
theorem exec_ldss (z : State) (p : BitVec 3) (d : BitVec 6) (a : Src) (b : Src) : exec (.ldss p d a b) z = execLdss p d a b z := rfl
theorem exec_sts (z : State) (p : BitVec 3) (d : BitVec 6) (a : Src) (b : Src) : exec (.sts p d a b) z = execSts p d a b z := rfl
theorem exec_stss (z : State) (p : BitVec 3) (d : BitVec 6) (a : Src) (b : Src) : exec (.stss p d a b) z = execStss p d a b z := rfl
theorem exec_st (z : State) (t : StTy) (p : BitVec 3) (d : BitVec 6) (a : Src) (b : Src) : exec (.st t p d a b) z = execSt t p d a b z := rfl
theorem exec_stv (z : State) (p : BitVec 3) (d : BitVec 6) (a : Src) (b : Src) : exec (.stv p d a b) z = execStv p d a b z := rfl
theorem exec_scatter (z : State) (p : BitVec 3) (d : BitVec 6) (a : Src) (b : Src) : exec (.scatter p d a b) z = execScatter p d a b z := rfl
theorem exec_pref (z : State) (p : BitVec 3) (a : Src) (b : Src) : exec (.pref p a b) z = execPref p a b z := rfl
theorem exec_prefs (z : State) (p : BitVec 3) (a : Src) (b : Src) : exec (.prefs p a b) z = execPrefs p a b z := rfl
theorem exec_smap (z : State) (p : BitVec 3) (a : Src) (b : Src) : exec (.smap p a b) z = execSmap p a b z := rfl
theorem exec_sunmap (z : State) (p : BitVec 3) (a : Src) : exec (.sunmap p a) z = execSunmap p a z := rfl
theorem exec_swb (z : State) (p : BitVec 3) (a : Src) : exec (.swb p a) z = execSwb p a z := rfl
theorem exec_sinv (z : State) (p : BitVec 3) (a : Src) : exec (.sinv p a) z = execSinv p a z := rfl
theorem exec_put (z : State) (p : BitVec 3) (a : Src) (b : Src) : exec (.put p a b) z = execPut p a b z := rfl
theorem exec_get (z : State) (p : BitVec 3) (w : Bool) (d : BitVec 6) (a : Src) (b : Src) : exec (.get p w d a b) z = execGet p w d a b z := rfl
theorem exec_aadd (z : State) (p : BitVec 3) (w : Bool) (d : BitVec 6) (a : Src) (b : Src) : exec (.aadd p w d a b) z = execAadd p w d a b z := rfl
theorem exec_afxadd (z : State) (p : BitVec 3) (w : Bool) (d : BitVec 6) (a : Src) (b : Src) : exec (.afxadd p w d a b) z = execAfxadd p w d a b z := rfl
theorem exec_afadd (z : State) (p : BitVec 3) (w : Bool) (d : BitVec 6) (a : Src) (b : Src) : exec (.afadd p w d a b) z = execAfadd p w d a b z := rfl
theorem exec_amin (z : State) (p : BitVec 3) (w : Bool) (d : BitVec 6) (a : Src) (b : Src) : exec (.amin p w d a b) z = execAmin p w d a b z := rfl
theorem exec_amax (z : State) (p : BitVec 3) (w : Bool) (d : BitVec 6) (a : Src) (b : Src) : exec (.amax p w d a b) z = execAmax p w d a b z := rfl
theorem exec_aminn (z : State) (p : BitVec 3) (w : Bool) (d : BitVec 6) (a : Src) (b : Src) : exec (.aminn p w d a b) z = execAminn p w d a b z := rfl
theorem exec_amaxn (z : State) (p : BitVec 3) (w : Bool) (d : BitVec 6) (a : Src) (b : Src) : exec (.amaxn p w d a b) z = execAmaxn p w d a b z := rfl
theorem exec_aincb (z : State) (p : BitVec 3) (w : Bool) (d : BitVec 6) (a : Src) (b : Src) : exec (.aincb p w d a b) z = execAincb p w d a b z := rfl
theorem exec_acas (z : State) (p : BitVec 3) (w : Bool) (d : BitVec 6) (a : Src) (b : BitVec 5) : exec (.acas p w d a b) z = execAcas p w d a b z := rfl
theorem exec_aswap (z : State) (p : BitVec 3) (w : Bool) (d : BitVec 6) (a : Src) (b : Src) : exec (.aswap p w d a b) z = execAswap p w d a b z := rfl
theorem exec_aand (z : State) (p : BitVec 3) (w : Bool) (d : BitVec 6) (a : Src) (b : Src) : exec (.aand p w d a b) z = execAand p w d a b z := rfl
theorem exec_aor (z : State) (p : BitVec 3) (w : Bool) (d : BitVec 6) (a : Src) (b : Src) : exec (.aor p w d a b) z = execAor p w d a b z := rfl
theorem exec_axor (z : State) (p : BitVec 3) (w : Bool) (d : BitVec 6) (a : Src) (b : Src) : exec (.axor p w d a b) z = execAxor p w d a b z := rfl
theorem exec_post (z : State) (p : BitVec 3) (s : Bool) (a : Src) (b : Src) : exec (.post p s a b) z = execPost p s a b z := rfl
theorem exec_br (z : State) (p : BitVec 3) (d : BitVec 21) : exec (.br p d) z = execBr p d z := rfl
theorem exec_call (z : State) (p : BitVec 3) (d : BitVec 21) : exec (.call p d) z = execCall p d z := rfl
theorem exec_ret (z : State) (p : BitVec 3) : exec (.ret p) z = execRet p z := rfl
theorem exec_jr (z : State) (p : BitVec 3) (a : Src) : exec (.jr p a) z = execJr p a z := rfl
theorem exec_loop (z : State) (p : BitVec 3) (c : Src) (l : BitVec 14) : exec (.loop p c l) z = execLoop p c l z := rfl
theorem exec_leave (z : State) (p : BitVec 3) (a : Src) : exec (.leave p a) z = execLeave p a z := rfl
theorem exec_qwait (z : State) (p : BitVec 3) (q : BitVec 3) (a : Src) : exec (.qwait p q a) z = execQwait p q a z := rfl
theorem exec_cpywait (z : State) (p : BitVec 3) (q : BitVec 3) (a : Src) : exec (.cpywait p q a) z = execCpywait p q a z := rfl
theorem exec_cwait (z : State) (p : BitVec 3) (c : Bool) (a : Src) : exec (.cwait p c a) z = execCwait p c a z := rfl
theorem exec_fence (z : State) (p : BitVec 3) (m : BitVec 8) : exec (.fence p m) z = execFence p m z := rfl
theorem exec_fenceComplete (z : State) : exec (.fenceComplete) z = execFenceComplete z := rfl
theorem exec_bwait (z : State) (p : BitVec 3) (s : Bool) (a : Src) : exec (.bwait p s a) z = execBwait p s a z := rfl
theorem exec_spawnLaunch (z : State) (p : BitVec 3) (w : Bool) (d : BitVec 6) (a : Src) (b : Src) : exec (.spawnLaunch p w d a b) z = execSpawnLaunch p w d a b z := rfl
theorem exec_spawnUnit (z : State) (p : BitVec 3) (w : Bool) (d : BitVec 6) (a : Src) (b : Src) : exec (.spawnUnit p w d a b) z = execSpawnUnit p w d a b z := rfl
theorem exec_send (z : State) (p : BitVec 3) (a : Src) (b : Src) : exec (.send p a b) z = execSend p a b z := rfl
theorem exec_trig (z : State) (p : BitVec 3) (a : Src) (b : Src) : exec (.trig p a b) z = execTrig p a b z := rfl
theorem exec_untrig (z : State) (p : BitVec 3) (a : Src) : exec (.untrig p a) z = execUntrig p a z := rfl
theorem exec_quiet (z : State) (p : BitVec 3) (w : Bool) (d : BitVec 6) (a : Src) : exec (.quiet p w d a) z = execQuiet p w d a z := rfl
theorem exec_bar (z : State) (p : BitVec 3) (w : Bool) (d : BitVec 6) (a : Src) (b : Src) : exec (.bar p w d a b) z = execBar p w d a b z := rfl
theorem exec_phaseOpeng (z : State) (p : BitVec 3) (w : Bool) (d : BitVec 6) (a : Src) (b : Src) : exec (.phaseOpeng p w d a b) z = execPhaseOpeng p w d a b z := rfl
theorem exec_phaseOpenp (z : State) (p : BitVec 3) (w : Bool) (d : BitVec 6) (a : Src) (b : Src) : exec (.phaseOpenp p w d a b) z = execPhaseOpenp p w d a b z := rfl
theorem exec_phaseAddl (z : State) (p : BitVec 3) (w : Bool) (d : BitVec 6) (a : Src) (b : Src) : exec (.phaseAddl p w d a b) z = execPhaseAddl p w d a b z := rfl
theorem exec_phaseClose (z : State) (p : BitVec 3) (w : Bool) (d : BitVec 6) (a : Src) (b : Src) : exec (.phaseClose p w d a b) z = execPhaseClose p w d a b z := rfl
theorem exec_phaseRelease (z : State) (p : BitVec 3) (w : Bool) (d : BitVec 6) (a : Src) (b : Src) : exec (.phaseRelease p w d a b) z = execPhaseRelease p w d a b z := rfl
theorem exec_cancel (z : State) (p : BitVec 3) (a : Src) : exec (.cancel p a) z = execCancel p a z := rfl
theorem exec_yield (z : State) (p : BitVec 3) : exec (.yield p) z = execYield p z := rfl
theorem exec_exit (z : State) (p : BitVec 3) : exec (.exit p) z = execExit p z := rfl
theorem exec_accq (z : State) (p : BitVec 3) (w : Bool) (d : BitVec 6) (a : Src) (b : Src) : exec (.accq p w d a b) z = execAccq p w d a b z := rfl
theorem exec_glopen (z : State) (p : BitVec 3) (w : Bool) (d : BitVec 6) (a : Src) (b : Src) : exec (.glopen p w d a b) z = execGlopen p w d a b z := rfl
theorem exec_glhold (z : State) (p : BitVec 3) (a : Src) (b : Src) : exec (.glhold p a b) z = execGlhold p a b z := rfl
theorem exec_glsend (z : State) (p : BitVec 3) (a : Src) (b : Src) : exec (.glsend p a b) z = execGlsend p a b z := rfl
theorem exec_glstat (z : State) (p : BitVec 3) (w : Bool) (d : BitVec 6) (a : Src) : exec (.glstat p w d a) z = execGlstat p w d a z := rfl
theorem exec_glclose (z : State) (p : BitVec 3) (a : Src) : exec (.glclose p a) z = execGlclose p a z := rfl
theorem exec_engwr (z : State) (p : BitVec 3) (e : BitVec 8) (a : BitVec 6) (b : BitVec 6) : exec (.engwr p e a b) z = execEngwr p e a b z := rfl
theorem exec_chErrclr (z : State) (p : BitVec 3) (n : BitVec 3) (a : BitVec 6) (b : BitVec 6) : exec (.chErrclr p n a b) z = execChErrclr p n a b z := rfl
theorem exec_chResume (z : State) (p : BitVec 3) (n : BitVec 3) (a : BitVec 6) (b : BitVec 6) : exec (.chResume p n a b) z = execChResume p n a b z := rfl
theorem exec_engrd (z : State) (p : BitVec 3) (e : BitVec 8) (a : BitVec 6) (b : BitVec 6) : exec (.engrd p e a b) z = execEngrd p e a b z := rfl
theorem exec_cpygo (z : State) (p : BitVec 3) (n : BitVec 3) (a : BitVec 6) (b : BitVec 6) : exec (.cpygo p n a b) z = execCpygo p n a b z := rfl
theorem exec_sixgo (z : State) (p : BitVec 3) (a : BitVec 6) (b : BitVec 6) : exec (.sixgo p a b) z = execSixgo p a b z := rfl
theorem exec_sysrd (z : State) (p : BitVec 3) (w : Bool) (d : BitVec 6) (n : BitVec 7) : exec (.sysrd p w d n) z = execSysrd p w d n z := rfl
theorem exec_syswr (z : State) (p : BitVec 3) (n : BitVec 7) (b : Src) : exec (.syswr p n b) z = execSyswr p n b z := rfl
theorem exec_syswrCkbound (z : State) (p : BitVec 3) (b : Src) : exec (.syswrCkbound p b) z = execSyswrCkbound p b z := rfl
theorem exec_syswrQbound (z : State) (p : BitVec 3) (b : Src) : exec (.syswrQbound p b) z = execSyswrQbound p b z := rfl
theorem exec_syswrArith (z : State) (p : BitVec 3) (b : Src) : exec (.syswrArith p b) z = execSyswrArith p b z := rfl
theorem exec_syswrSrseed (z : State) (p : BitVec 3) (b : Src) : exec (.syswrSrseed p b) z = execSyswrSrseed p b z := rfl
theorem exec_syswrMode (z : State) (p : BitVec 3) (b : Src) : exec (.syswrMode p b) z = execSyswrMode p b z := rfl
theorem exec_trap (z : State) (p : BitVec 3) (a : Src) : exec (.trap p a) z = execTrap p a z := rfl
theorem exec_tretRetry (z : State) (p : BitVec 3) (a : Src) : exec (.tretRetry p a) z = execTretRetry p a z := rfl
theorem exec_tretSkipk (z : State) (p : BitVec 3) (a : Src) : exec (.tretSkipk p a) z = execTretSkipk p a z := rfl
theorem exec_tretEnd (z : State) (p : BitVec 3) (a : Src) : exec (.tretEnd p a) z = execTretEnd p a z := rfl
theorem exec_xlinv (z : State) (p : BitVec 3) (a : Src) (b : Src) : exec (.xlinv p a b) z = execXlinv p a b z := rfl
theorem exec_opreq (z : State) (p : BitVec 3) (a : Src) (b : Src) : exec (.opreq p a b) z = execOpreq p a b z := rfl
theorem exec_evac (z : State) (p : BitVec 3) (w : Bool) (d : BitVec 6) (a : Src) (b : Src) : exec (.evac p w d a b) z = execEvac p w d a b z := rfl
theorem exec_partq (z : State) (p : BitVec 3) (w : Bool) (d : BitVec 6) (a : Src) (b : Src) : exec (.partq p w d a b) z = execPartq p w d a b z := rfl
theorem exec_rvset (z : State) (p : BitVec 3) (w : Bool) (d : BitVec 6) (a : Src) (b : Src) : exec (.rvset p w d a b) z = execRvset p w d a b z := rfl
theorem exec_rfloor (z : State) (p : BitVec 3) (w : Bool) (d : BitVec 6) (a : Src) (b : Src) : exec (.rfloor p w d a b) z = execRfloor p w d a b z := rfl
theorem exec_rheat (z : State) (p : BitVec 3) (w : Bool) (d : BitVec 6) (a : Src) (b : Src) : exec (.rheat p w d a b) z = execRheat p w d a b z := rfl
theorem exec_rwaveRead (z : State) (p : BitVec 3) (w : Bool) (d : BitVec 6) (a : Src) (b : Src) : exec (.rwaveRead p w d a b) z = execRwaveRead p w d a b z := rfl
theorem exec_rwavePark (z : State) (p : BitVec 3) (w : Bool) (d : BitVec 6) (a : Src) (b : Src) : exec (.rwavePark p w d a b) z = execRwavePark p w d a b z := rfl
theorem exec_rwaveWake (z : State) (p : BitVec 3) (w : Bool) (d : BitVec 6) (a : Src) (b : Src) : exec (.rwaveWake p w d a b) z = execRwaveWake p w d a b z := rfl
theorem exec_rwaveMove (z : State) (p : BitVec 3) (w : Bool) (d : BitVec 6) (a : Src) (b : Src) : exec (.rwaveMove p w d a b) z = execRwaveMove p w d a b z := rfl
theorem exec_revpost (z : State) (p : BitVec 3) (a : Src) : exec (.revpost p a) z = execRevpost p a z := rfl
theorem exec_rhframeSend (z : State) (p : BitVec 3) (w : Bool) (d : BitVec 6) (a : Src) (b : Src) : exec (.rhframeSend p w d a b) z = execRhframeSend p w d a b z := rfl
theorem exec_rhframeRecv (z : State) (p : BitVec 3) (w : Bool) (d : BitVec 6) (a : Src) (b : Src) : exec (.rhframeRecv p w d a b) z = execRhframeRecv p w d a b z := rfl
theorem exec_rsigchk (z : State) (p : BitVec 3) (w : Bool) (d : BitVec 6) (a : Src) : exec (.rsigchk p w d a) z = execRsigchk p w d a z := rfl
theorem exec_racctCreate (z : State) (p : BitVec 3) (w : Bool) (d : BitVec 6) (a : Src) (b : Src) : exec (.racctCreate p w d a b) z = execRacctCreate p w d a b z := rfl
theorem exec_racctAdd (z : State) (p : BitVec 3) (w : Bool) (d : BitVec 6) (a : Src) (b : Src) : exec (.racctAdd p w d a b) z = execRacctAdd p w d a b z := rfl
theorem exec_racctRelease (z : State) (p : BitVec 3) (w : Bool) (d : BitVec 6) (a : Src) (b : Src) : exec (.racctRelease p w d a b) z = execRacctRelease p w d a b z := rfl
theorem exec_racctCancel (z : State) (p : BitVec 3) (w : Bool) (d : BitVec 6) (a : Src) (b : Src) : exec (.racctCancel p w d a b) z = execRacctCancel p w d a b z := rfl
theorem exec_checkpointConfirm (z : State) : exec (.checkpointConfirm) z = execCheckpointConfirm z := rfl
theorem exec_anchorTokenGrant (z : State) : exec (.anchorTokenGrant) z = execAnchorTokenGrant z := rfl
theorem exec_anchorHoldExpiry (z : State) : exec (.anchorHoldExpiry) z = execAnchorHoldExpiry z := rfl
theorem exec_rollback (z : State) : exec (.rollback) z = execRollback z := rfl
theorem exec_preemption (z : State) : exec (.preemption) z = execPreemption z := rfl
theorem exec_resumeUnit (z : State) : exec (.resumeUnit) z = execResumeUnit z := rfl
theorem exec_qboundStallLimit (z : State) : exec (.qboundStallLimit) z = execQboundStallLimit z := rfl
theorem exec_unitPlace (z : State) : exec (.unitPlace) z = execUnitPlace z := rfl
theorem exec_unitAdmit (z : State) : exec (.unitAdmit) z = execUnitAdmit z := rfl
theorem exec_unitStart (z : State) : exec (.unitStart) z = execUnitStart z := rfl
theorem exec_unitAge (z : State) : exec (.unitAge) z = execUnitAge z := rfl
theorem exec_unitCancelStop (z : State) : exec (.unitCancelStop) z = execUnitCancelStop z := rfl
theorem exec_borrowRequest (z : State) : exec (.borrowRequest) z = execBorrowRequest z := rfl
theorem exec_borrowReply (z : State) : exec (.borrowReply) z = execBorrowReply z := rfl
theorem exec_combinerAdd (z : State) : exec (.combinerAdd) z = execCombinerAdd z := rfl
theorem exec_combinerFlushPeriod (z : State) : exec (.combinerFlushPeriod) z = execCombinerFlushPeriod z := rfl
theorem exec_flushRequest (z : State) : exec (.flushRequest) z = execFlushRequest z := rfl
theorem exec_returnArrive (z : State) : exec (.returnArrive) z = execReturnArrive z := rfl
theorem exec_messageArrive (z : State) : exec (.messageArrive) z = execMessageArrive z := rfl
theorem exec_messageTimeout (z : State) : exec (.messageTimeout) z = execMessageTimeout z := rfl
theorem exec_channelTakeRecord (z : State) : exec (.channelTakeRecord) z = execChannelTakeRecord z := rfl
theorem exec_channelShadowStart (z : State) : exec (.channelShadowStart) z = execChannelShadowStart z := rfl
theorem exec_ringReserve (z : State) : exec (.ringReserve) z = execRingReserve z := rfl
theorem exec_chunkPerform (z : State) : exec (.chunkPerform) z = execChunkPerform z := rfl
theorem exec_recordComplete (z : State) : exec (.recordComplete) z = execRecordComplete z := rfl
theorem exec_channelFault (z : State) : exec (.channelFault) z = execChannelFault z := rfl
theorem exec_putGetRemoteFault (z : State) : exec (.putGetRemoteFault) z = execPutGetRemoteFault z := rfl
theorem exec_getComplete (z : State) : exec (.getComplete) z = execGetComplete z := rfl
theorem exec_sixOpStart (z : State) : exec (.sixOpStart) z = execSixOpStart z := rfl
theorem exec_sixPush (z : State) : exec (.sixPush) z = execSixPush z := rfl
theorem exec_sixFault (z : State) : exec (.sixFault) z = execSixFault z := rfl
theorem exec_queueLoadFill (z : State) : exec (.queueLoadFill) z = execQueueLoadFill z := rfl
theorem exec_stashFill (z : State) : exec (.stashFill) z = execStashFill z := rfl
theorem exec_stashWriteback (z : State) : exec (.stashWriteback) z = execStashWriteback z := rfl
theorem exec_barrierArrival (z : State) : exec (.barrierArrival) z = execBarrierArrival z := rfl
theorem exec_ptsTick (z : State) : exec (.ptsTick) z = execPtsTick z := rfl
theorem exec_regionFtTimeout (z : State) : exec (.regionFtTimeout) z = execRegionFtTimeout z := rfl
theorem exec_artUpdateEffect (z : State) : exec (.artUpdateEffect) z = execArtUpdateEffect z := rfl
theorem exec_translationWalk (z : State) : exec (.translationWalk) z = execTranslationWalk z := rfl
theorem exec_xlinvAck (z : State) : exec (.xlinvAck) z = execXlinvAck z := rfl
theorem exec_trailPacketDeliver (z : State) : exec (.trailPacketDeliver) z = execTrailPacketDeliver z := rfl
theorem exec_flowWindowBoundary (z : State) : exec (.flowWindowBoundary) z = execFlowWindowBoundary z := rfl
theorem exec_flowPromoteProbe (z : State) : exec (.flowPromoteProbe) z = execFlowPromoteProbe z := rfl
theorem exec_glopenComplete (z : State) : exec (.glopenComplete) z = execGlopenComplete z := rfl
theorem exec_guylineSlotSend (z : State) : exec (.guylineSlotSend) z = execGuylineSlotSend z := rfl
theorem exec_guylineFlitLand (z : State) : exec (.guylineFlitLand) z = execGuylineFlitLand z := rfl
theorem exec_guylineAckArrive (z : State) : exec (.guylineAckArrive) z = execGuylineAckArrive z := rfl
theorem exec_guylineLeaseExpire (z : State) : exec (.guylineLeaseExpire) z = execGuylineLeaseExpire z := rfl
theorem exec_guylineFinalCount (z : State) : exec (.guylineFinalCount) z = execGuylineFinalCount z := rfl
theorem exec_guylineFinalTimeout (z : State) : exec (.guylineFinalTimeout) z = execGuylineFinalTimeout z := rfl
theorem exec_podBarrierCombine (z : State) : exec (.podBarrierCombine) z = execPodBarrierCombine z := rfl
theorem exec_podBarrierResult (z : State) : exec (.podBarrierResult) z = execPodBarrierResult z := rfl
theorem exec_barTimeout (z : State) : exec (.barTimeout) z = execBarTimeout z := rfl
theorem exec_linkTraining (z : State) : exec (.linkTraining) z = execLinkTraining z := rfl
theorem exec_flitReceive (z : State) : exec (.flitReceive) z = execFlitReceive z := rfl
theorem exec_replayRequest (z : State) : exec (.replayRequest) z = execReplayRequest z := rfl
theorem exec_linkRetrain (z : State) : exec (.linkRetrain) z = execLinkRetrain z := rfl
theorem exec_retrainEnd (z : State) : exec (.retrainEnd) z = execRetrainEnd z := rfl
theorem exec_lightLoss (z : State) : exec (.lightLoss) z = execLightLoss z := rfl
theorem exec_restripeComplete (z : State) : exec (.restripeComplete) z = execRestripeComplete z := rfl
theorem exec_reconcile (z : State) : exec (.reconcile) z = execReconcile z := rfl
theorem exec_reconcileTimeout (z : State) : exec (.reconcileTimeout) z = execReconcileTimeout z := rfl
theorem exec_laserWakeRequest (z : State) : exec (.laserWakeRequest) z = execLaserWakeRequest z := rfl
theorem exec_scrub (z : State) : exec (.scrub) z = execScrub z := rfl
theorem exec_controlInterval (z : State) : exec (.controlInterval) z = execControlInterval z := rfl
theorem exec_currentLimitEngage (z : State) : exec (.currentLimitEngage) z = execCurrentLimitEngage z := rfl
theorem exec_currentLimitLevel2 (z : State) : exec (.currentLimitLevel2) z = execCurrentLimitLevel2 z := rfl
theorem exec_thermalCrit (z : State) : exec (.thermalCrit) z = execThermalCrit z := rfl
theorem exec_logicStep (z : State) : exec (.logicStep) z = execLogicStep z := rfl
theorem exec_sramUpstep (z : State) : exec (.sramUpstep) z = execSramUpstep z := rfl
theorem exec_stepwaitExpire (z : State) : exec (.stepwaitExpire) z = execStepwaitExpire z := rfl
theorem exec_evacRowMove (z : State) : exec (.evacRowMove) z = execEvacRowMove z := rfl
theorem exec_stepSettle (z : State) : exec (.stepSettle) z = execStepSettle z := rfl
theorem exec_drainComplete (z : State) : exec (.drainComplete) z = execDrainComplete z := rfl
theorem exec_eventRecordArrive (z : State) : exec (.eventRecordArrive) z = execEventRecordArrive z := rfl
theorem exec_boot (z : State) : exec (.boot) z = execBoot z := rfl
theorem exec_hostHello (z : State) : exec (.hostHello) z = execHostHello z := rfl
theorem exec_hostGoodbye (z : State) : exec (.hostGoodbye) z = execHostGoodbye z := rfl
theorem exec_sessionTimeout (z : State) : exec (.sessionTimeout) z = execSessionTimeout z := rfl
theorem exec_hostLoad (z : State) : exec (.hostLoad) z = execHostLoad z := rfl
theorem exec_hostStart (z : State) : exec (.hostStart) z = execHostStart z := rfl
theorem exec_hostLaunch (z : State) : exec (.hostLaunch) z = execHostLaunch z := rfl
theorem exec_hostJobCreate (z : State) : exec (.hostJobCreate) z = execHostJobCreate z := rfl
theorem exec_hostJobAdd (z : State) : exec (.hostJobAdd) z = execHostJobAdd z := rfl
theorem exec_hostJobRelease (z : State) : exec (.hostJobRelease) z = execHostJobRelease z := rfl
theorem exec_hostJobCancel (z : State) : exec (.hostJobCancel) z = execHostJobCancel z := rfl
theorem exec_hostAcctrd (z : State) : exec (.hostAcctrd) z = execHostAcctrd z := rfl
theorem exec_hostPart (z : State) : exec (.hostPart) z = execHostPart z := rfl
theorem exec_hostPodmap (z : State) : exec (.hostPodmap) z = execHostPodmap z := rfl
theorem exec_hostCap (z : State) : exec (.hostCap) z = execHostCap z := rfl
theorem exec_hostMode (z : State) : exec (.hostMode) z = execHostMode z := rfl
theorem exec_hostEvents (z : State) : exec (.hostEvents) z = execHostEvents z := rfl
theorem exec_hostCounters (z : State) : exec (.hostCounters) z = execHostCounters z := rfl
theorem exec_hostAttest (z : State) : exec (.hostAttest) z = execHostAttest z := rfl
theorem exec_hostSafeckpt (z : State) : exec (.hostSafeckpt) z = execHostSafeckpt z := rfl
theorem exec_ckptBlockAck (z : State) : exec (.ckptBlockAck) z = execCkptBlockAck z := rfl
theorem exec_hostCkptstat (z : State) : exec (.hostCkptstat) z = execHostCkptstat z := rfl
theorem exec_hostReset (z : State) : exec (.hostReset) z = execHostReset z := rfl
theorem exec_rocev2BulkData (z : State) : exec (.rocev2BulkData) z = execRocev2BulkData z := rfl
theorem exec_freedRowsZeroed (z : State) : exec (.freedRowsZeroed) z = execFreedRowsZeroed z := rfl

end Sys2Proof.Machine
end

