-- ==== Sys2Proof/Laws/Memory.lean ====
section
/-! SUPPORT. Laws of byte memories: a read after a write, and that every write keeps the canonical form. -/

namespace Sys2Proof.Machine

/-- The canonical form as a map's: keys rise and no entry holds what an unlisted address reads as. -/
theorem cellsWf_iff (m : List Host.Cell) : cellsWf m = true ↔ RisingKeys m ∧ ∀ c ∈ m, c.2 ≠ 0#8 := by
  induction m with
  | nil => simp [cellsWf]
  | cons c cs ih =>
    cases cs with
    | nil => simp [cellsWf, RisingKeys]
    | cons c' cs =>
      simp only [cellsWf, Bool.and_eq_true, decide_eq_true_eq, ih]
      constructor
      · rintro ⟨⟨h0, h1⟩, hr, hz⟩
        refine ⟨hr.cons fun y hy => ?_, fun x hx => ?_⟩
        · rcases List.mem_cons.1 hy with rfl | hy
          · exact h1
          · exact h1.trans (hr.head y hy)
        · rcases List.mem_cons.1 hx with rfl | hx
          · exact h0
          · exact hz x hx
      · rintro ⟨hr, hz⟩
        exact ⟨⟨hz c (by simp), hr.head c' (by simp)⟩, hr.tail, fun x hx => hz x (by simp [hx])⟩

theorem RisingKeys.of_cellsWf {m : List Host.Cell} (h : cellsWf m = true) : RisingKeys m := ((cellsWf_iff m).1 h).1

@[simp] theorem cellsWf_nil : cellsWf [] = true := rfl

/-- A byte written keeps the canonical form. -/
theorem cellsWf_cellSet {m : List Host.Cell} (h : cellsWf m = true) (a : Nat) (b : Byte) : cellsWf (cellSet m a b) = true := by
  obtain ⟨hr, hz⟩ := (cellsWf_iff m).1 h
  refine (cellsWf_iff _).2 ⟨hr.putD _ _ _, fun c hc => ?_⟩
  unfold cellSet NatMap.putD at hc
  split at hc
  · exact hz c (NatMap.mem_of_mem_del hc)
  · rcases NatMap.keys_put hc with rfl | hc
    · assumption
    · exact hz c hc

theorem cellsWf_cellsSet {m : List Host.Cell} (h : cellsWf m = true) (a : Nat) (bs : List Byte) : cellsWf (cellsSet m a bs) = true := by
  induction bs generalizing m a with
  | nil => exact h
  | cons b bs ih => exact ih (cellsWf_cellSet h a b) (a + 1)

theorem cellsWf_cellsPut {m : List Host.Cell} (h : cellsWf m = true) (cs : List Host.Cell) : cellsWf (cellsPut m cs) = true := by
  induction cs generalizing m with
  | nil => exact h
  | cons c cs ih => exact ih (cellsWf_cellSet h c.1 c.2)

theorem cellsWf_cellsDrop {m : List Host.Cell} (h : cellsWf m = true) (lo n : Nat) : cellsWf (cellsDrop lo n m) = true := by
  obtain ⟨hr, hz⟩ := (cellsWf_iff m).1 h
  exact (cellsWf_iff _).2 ⟨hr.filter _, fun c hc => hz c (List.mem_filter.1 hc).1⟩

theorem cellsWf_putNz {m : List Host.Cell} (h : cellsWf m = true) (pa v n : Nat) : cellsWf (putNz m pa v n) = true := by
  induction n generalizing m pa v with
  | zero => exact h
  | succ n ih =>
    unfold putNz
    split
    · exact h
    · exact ih (cellsWf_cellSet h _ _) _ _

/-! ### Reads after writes -/

/-- The byte that a write names reads as written, and every other as before. -/
theorem cellAt_cellSet {m : List Host.Cell} (h : cellsWf m = true) (a i : Nat) (b : Byte) :
    cellAt (cellSet m a b) i = if i = a then b else cellAt m i :=
  NatMap.findD_putD (RisingKeys.of_cellsWf h) 0#8 i a b

theorem cellAt_cellSet_ne {i a : Nat} (h : i ≠ a) (m : List Host.Cell) (b : Byte) : cellAt (cellSet m a b) i = cellAt m i :=
  NatMap.findD_putD_ne h m 0#8 b

/-- The byte that stands at an address after a list of byte writes: the last one written there, or the old one. -/
theorem cellAt_cellsPut_other {i : Nat} (m cs : List Host.Cell) (h : ∀ c ∈ cs, c.1 ≠ i) : cellAt (cellsPut m cs) i = cellAt m i := by
  induction cs generalizing m with
  | nil => rfl
  | cons c cs ih =>
    rw [cellsPut, ih _ fun x hx => h x (by simp [hx]), cellAt_cellSet_ne (Ne.symm (h c (by simp)))]

theorem cellAt_cellsSet {m : List Host.Cell} (h : cellsWf m = true) (a i : Nat) (bs : List Byte) :
    cellAt (cellsSet m a bs) i = if a ≤ i ∧ i < a + bs.length then bs.getD (i - a) 0#8 else cellAt m i := by
  induction bs generalizing m a with
  | nil => simp [cellsSet]
  | cons b bs ih =>
    rw [cellsSet, ih (cellsWf_cellSet h a b), cellAt_cellSet h]
    by_cases e : i = a
    · subst e; simp
    · by_cases l : a ≤ i ∧ i < a + (b :: bs).length
      · have l' : a + 1 ≤ i ∧ i < a + 1 + bs.length := by simp at l; omega
        rw [if_pos l, if_pos l']
        obtain ⟨k, rfl⟩ : ∃ k, i = a + 1 + k := ⟨i - (a + 1), by omega⟩
        simp [show a + 1 + k - a = k + 1 by omega]
      · have l' : ¬ (a + 1 ≤ i ∧ i < a + 1 + bs.length) := by simp at l; omega
        rw [if_neg l, if_neg l', if_neg e]

theorem cellAt_cellsSet_other {i a : Nat} (m : List Host.Cell) (bs : List Byte) (h : i < a ∨ a + bs.length ≤ i) :
    cellAt (cellsSet m a bs) i = cellAt m i := by
  induction bs generalizing m a with
  | nil => rfl
  | cons b bs ih =>
    simp only [List.length_cons] at h
    rw [cellsSet, ih _ (by omega), cellAt_cellSet_ne (by omega)]

/-- The bytes of a range that is dropped read as unlisted ones, and every other as before. -/
theorem cellAt_cellsDrop (lo n i : Nat) (m : List Host.Cell) :
    cellAt (cellsDrop lo n m) i = if lo ≤ i ∧ i < lo + n then 0#8 else cellAt m i := by
  unfold cellAt NatMap.findD cellsDrop
  induction m with
  | nil => simp
  | cons c cs ih =>
    rw [List.filter_cons]
    by_cases e : c.1 = i
    · subst e
      by_cases l : lo ≤ c.1 ∧ c.1 < lo + n
      · rw [if_pos l] at ih ⊢
        simpa [l] using ih
      · rw [if_neg l]
        have : ¬ (lo ≤ c.1) ∨ ¬ (c.1 < lo + n) := by omega
        have hb : (!(decide (lo ≤ c.1) && decide (c.1 < lo + n))) = true := by rcases this with h | h <;> simp [h]
        rw [if_pos hb]; simp
    · split
      · simp only [NatMap.find_cons, if_neg e]; exact ih
      · rw [ih]; simp [e]

theorem cellAt_putNz_other {i pa : Nat} (m : List Host.Cell) (v n : Nat) (h : i < pa ∨ pa + n ≤ i) : cellAt (putNz m pa v n) i = cellAt m i := by
  induction n generalizing m pa v with
  | zero => rfl
  | succ n ih =>
    unfold putNz
    split
    · rfl
    · rw [ih _ _ (by omega), cellAt_cellSet_ne (by omega)]

/-- A number written to bytes that read 0 reads back byte by byte. -/
theorem cellAt_putNz {m : List Host.Cell} (hw : cellsWf m = true) {pa : Nat} (v n k : Nat)
    (hm : ∀ i, pa ≤ i → i < pa + n → cellAt m i = 0#8) (h : k < n) :
    cellAt (putNz m pa v n) (pa + k) = BitVec.ofNat 8 (v / 256 ^ k) := by
  induction n generalizing m pa v k with
  | zero => omega
  | succ n ih =>
    unfold putNz
    split
    · subst_vars; rw [hm _ (by omega) (by omega)]; simp
    · cases k with
      | zero => rw [Nat.add_zero, cellAt_putNz_other _ _ _ (by omega), cellAt_cellSet hw]; simp
      | succ k =>
        rw [show pa + (k + 1) = pa + 1 + k by omega, ih (cellsWf_cellSet hw _ _) _ k ?_ (by omega), pow_succ', Nat.div_div_eq_div_mul]
        intro i h1 h2
        rw [cellAt_cellSet_ne (by omega)]
        exact hm i (by omega) (by omega)

theorem cellsAt_length (m : List Host.Cell) (a n : Nat) : (cellsAt m a n).length = n := by
  induction n generalizing a with
  | zero => rfl
  | succ n ih => simp [cellsAt, ih]

/-- Two memories that read alike in a range give the same bytes there. -/
theorem cellsAt_congr {m m' : List Host.Cell} {a n : Nat} (h : ∀ k < n, cellAt m (a + k) = cellAt m' (a + k)) : cellsAt m a n = cellsAt m' a n := by
  induction n generalizing a with
  | zero => rfl
  | succ n ih =>
    have h0 := h 0 (by omega)
    rw [cellsAt, cellsAt, ih fun k hk => ?_]
    · simpa using h0
    · have := h (k + 1) (by omega)
      rwa [show a + 1 + k = a + (k + 1) by omega]

theorem loadNat_congr {m m' : List Host.Cell} {a n : Nat} (h : ∀ k < n, cellAt m (a + k) = cellAt m' (a + k)) : loadNat m a n = loadNat m' a n := by
  unfold loadNat; rw [cellsAt_congr h]

/-- The bytes of a number, read as a number, are its low part. -/
theorem ofBytes_of_digits {m : List Host.Cell} {a : Nat} (v n : Nat) (h : ∀ k < n, cellAt m (a + k) = BitVec.ofNat 8 (v / 256 ^ k)) :
    loadNat m a n = v % 256 ^ n := by
  unfold loadNat
  induction n generalizing a v with
  | zero => simp [cellsAt, ofBytes, Nat.mod_one]
  | succ n ih =>
    have h0 := h 0 (by omega)
    simp only [Nat.add_zero, pow_zero, Nat.div_one] at h0
    rw [cellsAt, ofBytes, h0, ih (v / 256) fun k hk => ?_]
    · have e : 256 ^ (n + 1) = 256 * 256 ^ n := pow_succ' _ _
      rw [BitVec.toNat_ofNat, e, Nat.mod_mul]
    · have := h (k + 1) (by omega)
      rw [show a + 1 + k = a + (k + 1) by omega, this, pow_succ', Nat.div_div_eq_div_mul]

/-- A number written over a range, as records and counters are, reads back, and no other byte changes. -/
theorem loadNat_putNz_cellsDrop {m : List Host.Cell} (hw : cellsWf m = true) (pa v n : Nat) :
    loadNat (putNz (cellsDrop pa n m) pa v n) pa n = v % 256 ^ n :=
  ofBytes_of_digits v n fun k hk => cellAt_putNz (cellsWf_cellsDrop hw pa n) v n k
    (fun i h1 h2 => by rw [cellAt_cellsDrop, if_pos ⟨h1, h2⟩]) hk

theorem cellAt_putNz_cellsDrop_other {i pa n : Nat} (m : List Host.Cell) (v : Nat) (h : i < pa ∨ pa + n ≤ i) :
    cellAt (putNz (cellsDrop pa n m) pa v n) i = cellAt m i := by
  rw [cellAt_putNz_other _ _ _ h, cellAt_cellsDrop, if_neg (by omega)]

/-! ### The operations over device memory -/

theorem State.putCells_wf {s : State} (h : Memory.wf s.mem = true) (cs : List Host.Cell) : Memory.wf (s.putCells cs).mem = true :=
  cellsWf_cellsPut h cs

theorem State.poke_wf {s : State} (h : Memory.wf s.mem = true) (pa : Nat) (bs : List Byte) : Memory.wf (s.poke pa bs).mem = true :=
  cellsWf_cellsSet h pa bs

theorem State.weakNat_wf {s : State} (h : Memory.wf s.mem = true) (pa n v : Nat) : Memory.wf (s.weakNat pa n v).mem = true := by
  unfold State.weakNat
  split
  · exact h
  · exact cellsWf_putNz (cellsWf_cellsDrop h _ _) _ _ _

/-- A weak write of a number is read back, and no byte outside it changes. -/
theorem State.readNat_weakNat {s : State} (h : Memory.wf s.mem = true) (pa n v : Nat) : (s.weakNat pa n v).readNat pa n = v % 256 ^ n := by
  unfold State.weakNat State.readNat
  split
  · subst_vars; simp [loadNat, cellsAt, ofBytes, Nat.mod_one]
  · exact loadNat_putNz_cellsDrop h pa v n

theorem State.weakNat_other {s : State} {i pa n : Nat} (v : Nat) (h : i < pa ∨ pa + n ≤ i) : cellAt (s.weakNat pa n v).mem i = cellAt s.mem i := by
  unfold State.weakNat
  split
  · rfl
  · exact cellAt_putNz_cellsDrop_other _ _ h

theorem State.reset_canonical : State.reset.Canonical := ⟨rfl, rfl⟩

end Sys2Proof.Machine
end

