-- ==== Sys2Proof/Laws/Slots.lean ====
section
/-! SUPPORT. What the issue of a slot can come to, said once: noting pops changes nothing that an operand reads, a slot goes on, traps,
waits or is a NOP, and a result is in flight to its register, its queue or its latch. -/

namespace Sys2Proof.Machine

/-! ### Pops -/

/-- Pops are noted and nothing else changes. -/
theorem notePops_eq (x : Core) (as : List Src) : x.notePops as = { x with popped := (x.notePops as).popped } := by
  induction as generalizing x with
  | nil => rfl
  | cons a as ih => cases a <;> first | exact ih x | (simp only [Core.notePops]; rw [ih])

theorem pops_eq (s : State) (as : List Src) : s.pops as = { s with core := { s.core with popped := (s.core.notePops as).popped } } := by
  unfold State.pops State.withCore; rw [notePops_eq]

@[simp] theorem pops_arch (s : State) (as : List Src) : (s.pops as).core.arch = s.core.arch := by rw [pops_eq]
@[simp] theorem pops_mem (s : State) (as : List Src) : (s.pops as).mem = s.mem := by rw [pops_eq]
@[simp] theorem pops_hub (s : State) (as : List Src) : (s.pops as).hub = s.hub := by rw [pops_eq]
@[simp] theorem pops_cur (s : State) (as : List Src) : (s.pops as).cur = s.cur := by rw [pops_eq]
@[simp] theorem pops_decl (s : State) (as : List Src) : (s.pops as).core.decl = s.core.decl := by rw [pops_eq]
@[simp] theorem pops_pad (s : State) (as : List Src) : (s.pops as).core.pad = s.core.pad := by rw [pops_eq]
@[simp] theorem pops_shadow (s : State) (as : List Src) : (s.pops as).core.shadow = s.core.shadow := by rw [pops_eq]
@[simp] theorem pops_level (s : State) (as : List Src) : (s.pops as).level = s.level := by rw [pops_eq]; rfl

@[simp] theorem readS_pops (s : State) (as : List Src) (t : STy) (a : Src) : (s.pops as).readS t a = s.readS t a := by
  rw [pops_eq]; cases a <;> rfl

@[simp] theorem readVM_pops (s : State) (as : List Src) (t : VTy) (a : Src) : (s.pops as).readVM t a = s.readVM t a := by
  rw [pops_eq]; cases a <;> rfl

@[simp] theorem readV_pops (s : State) (as : List Src) (t : VTy) (a : Src) : (s.pops as).readV t a = s.readV t a := by
  unfold State.readV; rw [readVM_pops]

@[simp] theorem readM_pops (s : State) (as : List Src) (a : Src) : (s.pops as).readM a = s.readM a := by
  rw [pops_eq]; cases a <;> rfl

@[simp] theorem readP_pops (s : State) (as : List Src) (a : Src) : (s.pops as).readP a = s.readP a := by
  rw [pops_eq]; cases a <;> rfl

@[simp] theorem getS_pops (s : State) (as : List Src) (t : STy) (a : Src) : (s.pops as).getS a t = s.getS a t := by
  unfold State.getS; rw [readS_pops]

@[simp] theorem getV_pops (s : State) (as : List Src) (t : VTy) (a : Src) : (s.pops as).getV t a = s.getV t a := by
  unfold State.getV; rw [readV_pops]

theorem getS_of_readS {s : State} {t : STy} {a : Src} {x : Word} (h : s.readS t a = .ok x) : s.getS a t = .ok x := by
  unfold State.getS; rw [h]; rfl

theorem getV_of_readV {s : State} {t : VTy} {a : Src} {x : Lanes} (h : s.readV t a = .ok x) : s.getV t a = .ok x := by
  unfold State.getV; rw [h]; rfl

/-! ### Outcomes -/

@[simp] theorem settle_ok (s t : State) : s.settle (.ok t) = t := rfl
@[simp] theorem settle_trap (s : State) (k : Cause) (a : Word) : s.settle (.error (.trap k a)) = s.trapSlot k a := rfl
@[simp] theorem settle_wait (s : State) (w : List Action) : s.settle (.error (.wait w)) = s.stall w := rfl

/-- A slot whose predicate is false is a NOP in full (R45). -/
theorem issue_off {s : State} {p : BitVec 3} (h : s.core.arch.preg p.toNat = false) (as : List Src) (k : State → Except Stop State) :
    s.issue p as k = .next s := by
  unfold State.issue; rw [if_neg (by simp [h])]

/-- A slot whose predicate is true comes to what its meaning says. -/
theorem issue_on {s : State} {p : BitVec 3} (h : s.core.arch.preg p.toNat = true) (as : List Src) (k : State → Except Stop State) :
    s.issue p as k = .next (s.settle (k (s.pops as))) := by
  unfold State.issue; rw [if_pos h]

theorem issue_ok {s t : State} {p : BitVec 3} {as : List Src} {k : State → Except Stop State} (h : s.core.arch.preg p.toNat = true)
    (hk : k (s.pops as) = .ok t) : s.issue p as k = .next t := by
  rw [issue_on h, hk]; rfl

theorem issue_trap {s : State} {p : BitVec 3} {as : List Src} {k : State → Except Stop State} {c : Cause} {a : Word}
    (h : s.core.arch.preg p.toNat = true) (hk : k (s.pops as) = .error (.trap c a)) : s.issue p as k = .next (s.trapSlot c a) := by
  rw [issue_on h, hk]; rfl

theorem issue_wait {s : State} {p : BitVec 3} {as : List Src} {k : State → Except Stop State} {w : List Action}
    (h : s.core.arch.preg p.toNat = true) (hk : k (s.pops as) = .error (.wait w)) : s.issue p as k = .next (s.stall w) := by
  rw [issue_on h, hk]; rfl

theorem issueV_ok {s t : State} {m : BitVec 3} {as : List Src} {k : State → LaneMask → Except Stop State}
    (hk : k (s.pops as) (s.core.arch.mreg m.toNat) = .ok t) : s.issueV m as k = .next t := by
  unfold State.issueV; rw [hk]; rfl

theorem need_true (k : Cause) (a : Word) : need true k a = .ok () := rfl

/-! ### Results -/

/-- A scalar result under NOWB goes to the latch alone (R47). -/
theorem resultS_nowb (s : State) (d : BitVec 6) (lat : Nat) (v : Word) (f : FlagSet) :
    s.resultS true d lat v f = .ok (s.fly lat .none (.scalar v) (BitVec.allOnes 128) f) := rfl

/-- A scalar result goes to its register where no queue is bound to it. -/
theorem resultS_reg {s : State} {d : BitVec 6} (h : s.core.boundQueue false d = none) (lat : Nat) (v : Word) (f : FlagSet) :
    s.resultS false d lat v f = .ok (s.fly lat (.s d) (.scalar v) (BitVec.allOnes 128) f) := by
  unfold State.resultS; simp [h]

/-- A scalar result goes to the declared queue that is bound to its register (R142). -/
theorem resultS_queue {s : State} {d : BitVec 6} {q : BitVec 3} (h : s.core.boundQueue false d = some q) (hq : s.core.hasQueue q = true)
    (lat : Nat) (v : Word) (f : FlagSet) :
    s.resultS false d lat v f =
      .ok ((s.fly lat (.queue q) (.scalar v) (BitVec.allOnes 128) f).withCore
        ((s.fly lat (.queue q) (.scalar v) (BitVec.allOnes 128) f).core.notePush q)) := by
  unfold State.resultS; simp [h, hq]

theorem resultV_nowb (s : State) (d : BitVec 6) (lat : Nat) (v : Lanes) (m c : LaneMask) (f : FlagSet) :
    s.resultV true d lat v m c f = .ok (s.fly lat (.latchV d) (.vector v) m f) := rfl

theorem resultV_reg {s : State} {d : BitVec 6} (h : s.core.boundQueue true d = none) (lat : Nat) (v : Lanes) (m c : LaneMask) (f : FlagSet) :
    s.resultV false d lat v m c f = .ok (s.fly lat (.v d) (.vector v) m f) := by
  unfold State.resultV; simp [h]

theorem resultV_queue {s : State} {d : BitVec 6} {q : BitVec 3} (h : s.core.boundQueue true d = some q) (hq : s.core.hasQueue q = true)
    (lat : Nat) (v : Lanes) (m c : LaneMask) (f : FlagSet) :
    s.resultV false d lat v m c f =
      .ok ((s.fly lat (.queue q) (.vector (mergeLanes m v 0#4096)) c f).withCore
        ((s.fly lat (.queue q) (.vector (mergeLanes m v 0#4096)) c f).core.notePush q)) := by
  unfold State.resultV; simp [h, hq]

/-! ### The ranger core's traps (R400) -/

/-- A first trap of the ranger core: its record, RTRAP, and the mark that it is in its trap entry. -/
theorem rangerTrap_first {s : State} {t : TrapInfo} (h : s.core.inTrap = false) :
    (s.rangerTrap t).core.inTrap = true ∧ (s.rangerTrap t).core.arch = { s.core.arch with pc := s.core.rtrap } ∧
      (s.rangerTrap t).core.trapRec = BitVec.ofNat 64 rangerRecord ∧
      (s.rangerTrap t).mem = (s.weakNat rangerRecord 128 (t.record rangerId 0 2 s.core.shadow.pc (s.hub.job.getD 0#32) s.core.pts)).mem := by
  unfold State.rangerTrap
  simp [h, State.withCore]

/-- A second one halts it. -/
theorem rangerTrap_second {s : State} {t : TrapInfo} (hc : s.cur = rangerId) (h : s.core.inTrap = true) :
    (s.rangerTrap t).core.halted = true ∧ (s.rangerTrap t).mem = s.mem := by
  unfold State.rangerTrap
  simp [h, hc, State.haltRanger, State.modCore, State.event, State.addDue, State.coreAt, State.setCore]

end Sys2Proof.Machine
end

