-- ==== Sys2Proof/Laws/Steps.lean ====
section
/-! SUPPORT. What one step can be, said once: time passes alone, a sequencer attempts a bundle, a device action that is due happens, or
the host port takes a frame. -/

namespace Sys2Proof.Machine

/-- Time passing in a step. -/
def State.later1 (s : State) : State := { s with time := s.time + 1, free := s.free + 1 }

/-- Every step that goes on is one of these. -/
theorem step_cases {s t : State} (h : step s = .next t) :
    (s.chosen = none ∧ t = { s with time := s.time + 1 }) ∨
    (∃ c, s.chosen = some (.sequencer c) ∧ (s.later1.focus c).issueBundle = .next t) ∨
    (∃ i a u, s.chosen = some (.action i) ∧ s.due[i]? = some a ∧
      exec a.instr { s.later1 with due := s.due.eraseIdx i, act := some a } = .next u ∧ t = { u with act := none }) ∨
    (∃ i, s.chosen = some (.action i) ∧ s.due[i]? = none ∧ t = s.later1) ∨
    (s.chosen = some .hostFrame ∧ State.actBy s.later1 .hostFrame = .next t) := by
  unfold step at h
  cases hc : s.chosen with
  | none => rw [hc] at h; simp only [Host.Outcome.next.injEq] at h; exact .inl ⟨rfl, h.symm⟩
  | some a =>
    rw [hc] at h
    cases a with
    | sequencer c => exact .inr (.inl ⟨c, rfl, h⟩)
    | hostFrame => exact .inr (.inr (.inr (.inr ⟨rfl, h⟩)))
    | action i =>
      simp only [State.actBy] at h
      cases hd : s.due[i]? with
      | none =>
        rw [hd] at h
        simp only [Host.Outcome.next.injEq] at h
        exact .inr (.inr (.inr (.inl ⟨i, rfl, hd, h.symm⟩)))
      | some x =>
        rw [hd] at h
        simp only [State.perform] at h
        split at h
        · rename_i u hu
          simp only [Host.Outcome.next.injEq] at h
          exact .inr (.inr (.inl ⟨i, x, u, rfl, hd, hu, h.symm⟩))
        · cases h
        · cases h

/-- Bringing another sequencer into focus keeps every sequencer as it reads. -/
theorem coreAt_focus {s : State} (h : RisingKeys s.others) (c d : Nat) : (s.focus c).coreAt d = s.coreAt d := by
  unfold State.focus
  split
  · rfl
  · rename_i hc
    unfold State.coreAt
    by_cases hd : d = c
    · subst hd; simp [hc]
    · simp only [if_neg hd]
      by_cases he : d = s.cur
      · subst he
        unfold NatMap.findD
        rw [NatMap.find_del_ne hd]
        have := NatMap.findD_putD h {} s.cur s.cur s.core
        unfold NatMap.findD at this
        rw [this]
      · unfold NatMap.findD
        rw [NatMap.find_del_ne hd]
        have := NatMap.findD_putD h {} d s.cur s.core
        unfold NatMap.findD at this
        rw [this, if_neg he]

@[simp] theorem focus_mem (s : State) (c : Nat) : (s.focus c).mem = s.mem := by unfold State.focus; split <;> rfl
@[simp] theorem focus_hub (s : State) (c : Nat) : (s.focus c).hub = s.hub := by unfold State.focus; split <;> rfl
@[simp] theorem focus_port (s : State) (c : Nat) : (s.focus c).port = s.port := by unfold State.focus; split <;> rfl
@[simp] theorem focus_due (s : State) (c : Nat) : (s.focus c).due = s.due := by unfold State.focus; split <;> rfl
@[simp] theorem focus_self (s : State) : s.focus s.cur = s := by unfold State.focus; simp

theorem focus_cur (s : State) (c : Nat) : (s.focus c).cur = c := by
  unfold State.focus; split
  · exact Eq.symm ‹_›
  · rfl

theorem focus_others {s : State} (h : RisingKeys s.others) (c : Nat) : RisingKeys (s.focus c).others := by
  unfold State.focus; split
  · exact h
  · exact (h.putD _ _ _).del _

end Sys2Proof.Machine
end

