-- ==== Sys2Proof/Tests/Slice0.lean ====
section
/-! SUPPORT. Tests: ill-formed terms that WellFormed refuses, words of the spec that decode to what they stand for, small effects
of one instruction, and for each statement a state and operands that meet the premises of each of its clauses. -/

open Sys2Proof Sys2Proof.Machine

namespace Sys2Proof.Tests

set_option Elab.async false

/-! ### A small machine -/

/-- A partition that owns every quadrant and all of device memory, its identity table of one 1 GiB leaf at 0x1000. -/
def part0 : PartDesc :=
  { st := 1#2, quads := 0xFFFFFFFF#32, root := 0x1000#64, acctBase := 0, acctCnt := 16, glQuota := 64, windows := [(0, 2 ^ 23 - 1)] }

/-- The unit declaration of the tests: 8 tiles, every queue, 4 stash rows, 64 KiB, one ring of 8 KiB. -/
def decl0 : UnitDecl := { entry := 0#32, nacc := 8, qmask := 0xFF#8, stash := 4, spbytes := 65536, rings := [(0, 8)] }

/-- A token of weight 2^124 of account 0. -/
def hold0 : Hold := { exp := 3#7, valid := true, acct := 0#32 }

/-- The running unit. -/
def uni0 : Uni := { decl := decl0, hold := hold0, st := .running, core := 5, started := true, evac := 0x100000#64 }

/-- The core that runs it. -/
def core0 : Core := { unit := some 1, decl := decl0, hold := hold0, code := { base := 0x10000, count := 64 } }

/-- A machine with unit 1 on core 5 under account 0. -/
def demo : State :=
  { State.reset with
    cur := 5, core := core0, mem := [(0x1000, 0x01#8), (0x1001, 0x20#8), (0x2000, 0x0B#8)]
    hub := { State.reset.hub with
      parts := State.reset.hub.parts.set 0 part0, units := [(1, uni0)], nextUnit := 2,
      accounts := [(0, { st := .opn, level := .job, out := 2 ^ 127, allow := 1000#64 })] } }

/-- The machine with a change of the core in focus. -/
def withC (f : Core → Core) : State := { demo with core := f demo.core }

/-- The machine with a change of the hub. -/
def withH (f : Hub → Hub) : State := { demo with hub := f demo.hub }

/-- The machine with the ranger core in focus. -/
def ranger : State := { demo with cur := rangerId, core := { decl := { decl0 with spbytes := 1048576 } }, others := [(5, core0)] }

/-- Core 5 with the registers of a checkpoint: s1 = 0x2000, s2 = 5. -/
def regs (f : Nat → Word) : State := withC fun x => { x with arch := { x.arch with s := Vector.ofFn fun i => f i } }

theorem test_witness_ScalarIntegerResults :
    ∃ (s : State) (p : BitVec 3) (w : Bool) (d : BitVec 6) (a b : Src) (x y : Word),
      PredOn s p ∧ s.readS .int a = .ok x ∧ s.readS .int b = .ok y ∧ FreeS s w d :=
  ⟨demo, 0#3, true, 63#6, .reg 0#6, .imm 31#5, _, _, rfl, rfl, rfl, .inl rfl⟩


/-- Addresses that translate, by evaluation. -/
theorem reaches_of {s : State} {as : List Src} {w : Bool} {vas : List Word} {ps : List Nat}
    (h : (match (s.pops as).reach w vas with | .ok r => some r.1 | .error _ => none) = some ps) : Reaches s as w vas ps := by
  unfold Reaches
  split at h
  · rename_i r hr; cases h; exact ⟨r.2, hr⟩
  · cases h

theorem test_witness_ScalarMoveFieldResults_one :
    ∃ (s : State) (p : BitVec 3) (w : Bool) (d : BitVec 6) (a : Src) (x : Word), PredOn s p ∧ FreeS s w d ∧ s.readS .int a = .ok x :=
  ⟨demo, 0#3, true, 0#6, .reg 63#6, _, rfl, .inl rfl, rfl⟩

/-- A field at bit 63 with a width of 127. -/
theorem test_witness_ScalarMoveFieldResults_two :
    ∃ (s : State) (p : BitVec 3) (w : Bool) (d : BitVec 6) (a b : Src) (x : Word),
      PredOn s p ∧ s.readS .int a = .ok x ∧ s.readS .int b = .ok 0x7F3F#64 ∧ FreeS s w d :=
  ⟨regs fun _ => 0x7F3F#64, 0#3, true, 0#6, .reg 1#6, .reg 2#6, _, rfl, rfl, rfl, .inl rfl⟩

theorem test_witness_ScalarPredicateResults_int :
    ∃ (s : State) (p : BitVec 3) (a b : Src) (x y : Word), PredOn s p ∧ s.readS .int a = .ok x ∧ s.readS .int b = .ok y :=
  ⟨demo, 0#3, .reg 0#6, .imm 0#5, _, _, rfl, rfl, rfl⟩

theorem test_witness_ScalarPredicateResults_pred :
    ∃ (s : State) (p : BitVec 3) (a b : Src) (x y : Bool), PredOn s p ∧ s.readP a = .ok x ∧ s.readP b = .ok y :=
  ⟨demo, 0#3, .reg 0#6, .reg 7#6, _, _, rfl, rfl, rfl⟩

theorem test_witness_ScalarFloatResults :
    ∀ f : FFmt, ∃ (s : State) (p : BitVec 3) (w : Bool) (d : BitVec 6) (a b : Src) (x y : Word),
      PredOn s p ∧ s.readS (FFmt.sty f) a = .ok x ∧ s.readS (FFmt.sty f) b = .ok y ∧ FreeS s w d
  | .f32 => ⟨demo, 0#3, true, 0#6, .reg 1#6, .reg 2#6, _, _, rfl, rfl, rfl, .inl rfl⟩
  | .f64 => ⟨demo, 0#3, true, 0#6, .reg 1#6, .reg 2#6, _, _, rfl, rfl, rfl, .inl rfl⟩

theorem test_witness_ScalarConversionResults :
    ∃ (s : State) (p : BitVec 3) (w : Bool) (d : BitVec 6) (a : Src) (x y z : Word),
      PredOn s p ∧ FreeS s w d ∧ s.readS .f64 a = .ok x ∧ s.readS .f32 a = .ok y ∧ s.readS .int a = .ok z :=
  ⟨demo, 0#3, true, 0#6, .reg 1#6, _, _, _, rfl, .inl rfl, rfl, rfl, rfl⟩

theorem test_witness_ScalarConversionResults_formats :
    ∀ f : FFmt, ∃ (s : State) (p : BitVec 3) (w : Bool) (d : BitVec 6) (a : Src) (x : Word),
      PredOn s p ∧ FreeS s w d ∧ s.readS (FFmt.sty f) a = .ok x
  | .f32 => ⟨demo, 0#3, true, 0#6, .reg 1#6, _, rfl, .inl rfl, rfl⟩
  | .f64 => ⟨demo, 0#3, true, 0#6, .reg 1#6, _, rfl, .inl rfl, rfl⟩

theorem test_witness_VectorArithmeticResults_float :
    ∃ (s : State) (t : VType) (w : Bool) (d : BitVec 6) (a b : Src) (x y : Lanes),
      s.readV (.ty t) a = .ok x ∧ s.readV (.ty t) b = .ok y ∧ FreeV s w d ∧ t.isFloat = true :=
  ⟨demo, .f32, true, 63#6, .reg 63#6, .reg 0#6, _, _, rfl, rfl, .inl rfl, rfl⟩

theorem test_witness_VectorArithmeticResults_int :
    ∃ (s : State) (t : VType) (w : Bool) (d : BitVec 6) (a b : Src) (x y : Lanes),
      s.readV (.ty t) a = .ok x ∧ s.readV (.ty t) b = .ok y ∧ FreeV s w d ∧ t.isFloat = false :=
  ⟨demo, .i8, true, 63#6, .reg 63#6, .reg 0#6, _, _, rfl, rfl, .inl rfl, rfl⟩

theorem test_witness_VectorLogicMoveResults_typed :
    ∃ (s : State) (t : VType) (w : Bool) (d : BitVec 6) (a b : Src) (x y : Lanes),
      s.readV (.ty t) a = .ok x ∧ s.readV (.ty t) b = .ok y ∧ FreeV s w d :=
  ⟨demo, .n16, true, 0#6, .reg 0#6, .reg 1#6, _, _, rfl, rfl, .inl rfl⟩

theorem test_witness_VectorLogicMoveResults_raw :
    ∃ (s : State) (w : Bool) (d : BitVec 6) (a b : Src) (x y : Lanes), s.readV .raw a = .ok x ∧ s.readV .raw b = .ok y ∧ FreeV s w d :=
  ⟨demo, true, 0#6, .reg 0#6, .reg 1#6, _, _, rfl, rfl, .inl rfl⟩

/-- The lane number 127. -/
theorem test_witness_VectorLogicMoveResults_scalar :
    ∃ (s : State) (w : Bool) (d : BitVec 6) (a b : Src) (x : Word), s.readS .int a = .ok x ∧ s.readS .int b = .ok 127#64 ∧ FreeV s w d :=
  ⟨regs fun _ => 127#64, true, 0#6, .reg 0#6, .reg 1#6, _, rfl, rfl, .inl rfl⟩

theorem test_witness_VectorLogicMoveResults_vxtr :
    ∃ (s : State) (w : Bool) (d : BitVec 6) (a b : Src) (x : Lanes), s.readV .raw a = .ok x ∧ s.readS .int b = .ok 127#64 ∧ FreeS s w d :=
  ⟨regs fun _ => 127#64, true, 0#6, .reg 0#6, .reg 1#6, _, rfl, rfl, .inl rfl⟩

theorem test_witness_VectorPermuteResults :
    ∃ (s : State) (w : Bool) (d : BitVec 6) (a b : Src) (x y : Lanes), s.readV .raw a = .ok x ∧ s.readV .raw b = .ok y ∧ FreeV s w d :=
  ⟨demo, true, 0#6, .reg 62#6, .reg 63#6, _, _, rfl, rfl, .inl rfl⟩

theorem test_witness_MaskResults :
    ∃ (s : State) (w : Bool) (d : BitVec 6) (a b : Src) (x y : LaneMask), s.readM a = .ok x ∧ s.readM b = .ok y ∧ FreeS s w d :=
  ⟨demo, true, 0#6, .reg 0#6, .reg 7#6, _, _, rfl, rfl, .inl rfl⟩

theorem test_witness_VectorConversionReductionResults_typed :
    ∃ (s : State) (t u : VType) (w : Bool) (d : BitVec 6) (a : Src) (x y : Lanes),
      FreeV s w d ∧ s.readV (.ty u) a = .ok x ∧ s.readV (.ty t) a = .ok y :=
  ⟨demo, .f32, .bf16, true, 0#6, .reg 0#6, _, _, .inl rfl, rfl, rfl⟩

theorem test_witness_VectorConversionReductionResults_vcvtx :
    ∃ (s : State) (k : XType) (u : VType) (w : Bool) (d : BitVec 6) (a : Src) (x : Lanes), FreeV s w d ∧ s.readV (XType.field k u) a = .ok x :=
  ⟨demo, .fromN8, .i16, true, 0#6, .reg 0#6, _, .inl rfl, rfl⟩

theorem test_witness_VectorConversionReductionResults_fx :
    ∃ (s : State) (w : Bool) (d : BitVec 6) (a b : Src) (x y z : Lanes),
      FreeV s w d ∧ s.readV .fx b = .ok y ∧ s.readV .fx a = .ok x ∧ s.readV (.ty .f32) a = .ok z :=
  ⟨demo, true, 0#6, .reg 0#6, .reg 1#6, _, _, _, .inl rfl, rfl, rfl, rfl⟩

theorem test_witness_SpecialFunctionResults :
    ∃ (s : State) (t : FTy) (w : Bool) (d : BitVec 6) (a b : Src) (x y : Lanes),
      s.readV (.ty (FTy.elem t)) a = .ok x ∧ FreeV s w d ∧ t = .f32 ∧ s.readV (.ty .f32) b = .ok y :=
  ⟨demo, .f32, true, 0#6, .reg 0#6, .reg 1#6, _, _, rfl, .inl rfl, rfl, rfl⟩

theorem test_witness_SpecialFunctionResults_bf16 :
    ∃ (s : State) (w : Bool) (d : BitVec 6) (a : Src) (x : Lanes), s.readV (.ty (FTy.elem .bf16)) a = .ok x ∧ FreeV s w d :=
  ⟨demo, true, 0#6, .reg 0#6, _, rfl, .inl rfl⟩

/-! ### The matrix array and memory -/

/-- Stream register 15 names ring 0 with entries of `64 e` bytes of BF16; the ring holds 8 KiB. -/
def streaming (e : Nat) (f : Arch → Arch) : State :=
  withC fun x => { x with
    arch := f { x.arch with g := Vector.ofFn fun i => if i.val = 15 then BitVec.ofNat 512 (e * 2 ^ 16) else 0#512 }
    pad := { x.pad with rings := Vector.ofFn fun i => if i.val = 0 then { ready := 8192 } else {} } }

/-- A plane of one row. -/
def plane0 : Plane := { rows := [some { elems := [], scales := [] }] }

theorem test_witness_MatrixLoadResults_mxpush :
    ∃ (s : State) (p : BitVec 3) (g : Gang) (a : Src), PredOn s p ∧
      streamReady s (streamOf s (Src.number a)) (tileNeeds (streamOf s (Src.number a)) (gangK g)) false ∧
      gangB g (strFmt (streamOf s (Src.number a))) = true :=
  ⟨streaming 128 id, 0#3, .g88, .reg 15#6, rfl, by unfold streamReady; decide +kernel, by decide +kernel⟩

theorem test_witness_MatrixLoadResults_mxshift :
    ∃ (s : State) (p : BitVec 3) (d : BitVec 5) (a : Src), PredOn s p ∧
      (let v := streamOf s (Src.number a)
       streamReady s v (shiftNeeds v) false ∧ fmtMx (strFmt v) = false ∧ strScaled v = false ∧
       (let q := vget {} (loadPlanes s.core.arch.planes s.core.arch.loads) (b2n (decide (d ≠ 0#5)))
        q.rows = [] ∨ (q.fmt = strFmt v ∧ q.gang = .g88))) :=
  ⟨streaming 2 id, 0#3, 0#5, .reg 15#6, rfl, by unfold streamReady; decide +kernel, by decide +kernel, by decide +kernel, .inl (by decide +kernel)⟩

/-- The last tile, 7, and the last row. -/
theorem test_witness_MatrixComputeResults_mxacc :
    ∃ (s : State) (p : BitVec 3) (g : Gang) (d : BitVec 5) (a b : Src), PredOn s p ∧ s.readS .int b = .ok 63#64 ∧
      (let v := streamOf s (Src.number a)
       d.toNat < s.core.decl.nacc ∧ d.toNat < 8 ∧ streamReady s v (rowNeeds v (gangK g)) false ∧ planeFits s (strFmt v) g) :=
  ⟨streaming 2 fun x => { x with s := Vector.replicate 64 63#64, planes := Vector.replicate 2 plane0 }, 0#3, .g88, 7#5, .reg 15#6, .reg 1#6,
    rfl, rfl, by decide +kernel, by decide, by unfold streamReady; decide +kernel, by unfold planeFits; decide +kernel⟩

/-- The last tile pair, 6 and 7. -/
theorem test_witness_MatrixComputeResults_mxaccx :
    ∃ (s : State) (p : BitVec 3) (g : Gang) (d : BitVec 5) (a b : Src) (r : Word), PredOn s p ∧ s.readS .int b = .ok r ∧
      (let v := streamOf s (Src.number a)
       d.toNat + 1 < s.core.decl.nacc ∧ d.toNat + 1 < 8 ∧ streamReady s v (rowNeeds v (gangK g)) true ∧ planeFits s (strFmt v) g) :=
  ⟨streaming 2 fun x => { x with planes := Vector.replicate 2 plane0 }, 0#3, .g88, 6#5, .reg 15#6, .reg 1#6, _,
    rfl, rfl, by decide +kernel, by decide, by unfold streamReady; decide +kernel, by unfold planeFits; decide +kernel⟩

/-- A pair drain of tiles 6 and 7 that clears, and a drain of tile 7 that does not. -/
theorem test_witness_MatrixComputeResults_mxdrain :
    ∀ c : Word, c = 0xFF#64 ∨ c = 0x3F#64 →
      ∃ (s : State) (p : BitVec 3) (d : BitVec 5) (a b : Src), PredOn s p ∧ s.readS .int b = .ok c ∧ d.toNat < 8 ∧
        (let t0 := Src.number a
         let pair := c.getLsbD 6
         let tiles := if pair then [t0, t0 + 1] else [t0]
         s.core.hasQueue (d.setWidth 3) = true ∧ (∀ k ∈ tiles, k < s.core.decl.nacc ∧ k < 8 ∧ 8 ≤ vget 8 s.core.arch.sinceBeat k) ∧
         (pair = true → t0 % 2 = 0)) := by
  rintro c (rfl | rfl)
  · exact ⟨regs fun _ => 0xFF#64, 0#3, 7#5, .reg 6#6, .reg 1#6, rfl, rfl, by decide, rfl, by decide +kernel, fun _ => rfl⟩
  · exact ⟨regs fun _ => 0x3F#64, 0#3, 7#5, .reg 7#6, .reg 1#6, rfl, rfl, by decide, rfl, by decide +kernel, fun h => by revert h; decide⟩

theorem test_witness_MatrixComputeResults_mxzero :
    ∃ (s : State) (p : BitVec 3) (d : BitVec 5), PredOn s p ∧ d.toNat < s.core.decl.nacc ∧ d.toNat < 8 :=
  ⟨demo, 0#3, 7#5, rfl, by decide +kernel, by decide⟩

theorem test_witness_QueueLoadResults_ldq :
    ∃ (s : State) (p : BitVec 3) (d : BitVec 6) (a b : Src) (x y : Word) (ty : LdTy) (ps : List Nat),
      PredOn s p ∧ NoAnchorDue s ∧ s.readS .int a = .ok x ∧ s.core.hasQueue (d.setWidth 3) = true ∧ s.readS .int b = .ok y ∧
      (x + y).toNat % (ldShape ty).1 = 0 ∧ Reaches s [a, b] false [x + y] ps :=
  ⟨regs fun _ => 0x3FFFFFF8#64, 0#3, 7#6, .reg 1#6, .imm 0#5, _, _, .i64, _, rfl, .inl (by decide), rfl, rfl, rfl, by decide +kernel, _, rfl⟩

theorem test_witness_QueueLoadResults_ldqv :
    ∃ (s : State) (p : BitVec 3) (d : BitVec 6) (a b : Src) (x y : Word) (ps : List Nat),
      PredOn s p ∧ NoAnchorDue s ∧ s.readS .int a = .ok x ∧ s.core.hasQueue (d.setWidth 3) = true ∧ s.readS .int b = .ok y ∧
      (x + y).toNat % 4 = 0 ∧ Reaches s [a, b] false (pieces (x + y) 4 128) ps :=
  ⟨regs fun _ => 0x3FFFFE00#64, 0#3, 0#6, .reg 1#6, .imm 0#5, _, _, (upFrom 0 128).map fun i => 0x3FFFFE00 + 4 * i,
    rfl, .inl (by decide), rfl, rfl, rfl, by decide +kernel, reaches_of (by decide +kernel)⟩

/-- The addresses of a gather whose offsets are all 0. -/
theorem zero_offsets : (upFrom 0 128).map (fun i => 0x3000#64 + (lane 0#4096 i).setWidth 64) = List.replicate 128 0x3000#64 := by decide +kernel

theorem test_witness_QueueLoadResults_gather :
    ∃ (s : State) (p : BitVec 3) (d : BitVec 6) (a b : Src) (x : Word) (ty : GaTy) (v : Lanes) (ps : List Nat),
      PredOn s p ∧ NoAnchorDue s ∧ s.readS .int a = .ok x ∧ s.core.hasQueue (d.setWidth 3) = true ∧ s.readV .raw b = .ok v ∧
      (let vas := (upFrom 0 128).map fun i => x + (lane v i).setWidth 64
       (∀ va ∈ vas, va.toNat % gatherSize ty = 0) ∧ Reaches s [a, b] false vas ps) :=
  ⟨regs fun _ => 0x3000#64, 0#3, 0#6, .reg 1#6, .reg 1#6, 0x3000#64, .n32, 0#4096, List.replicate 128 0x3000,
    rfl, .inl (by decide), rfl, rfl, rfl, by
      rw [zero_offsets]
      exact fun va h => by rw [List.eq_of_mem_replicate h]; decide,
    by rw [zero_offsets]; exact reaches_of (by decide +kernel)⟩

/-- The last 512 bytes of the raw region, and the last eight. -/
theorem test_witness_ScratchLoadResults :
    ∃ (s : State) (p : BitVec 3) (d : BitVec 6) (a b : Src) (x y : Word), PredOn s p ∧ NoAnchorDue s ∧
      s.readS .int a = .ok x ∧ s.readS .int b = .ok y ∧
      (let off := (x + y).toNat
       off + 512 = s.core.decl.rawBytes ∧ s.directOk off 512 = .ok () ∧ off % 4 = 0 ∧ s.core.linesToFill off 512 = [] ∧ FreeV s false d) :=
  ⟨regs fun _ => BitVec.ofNat 64 (52 * 1024 - 512), 0#3, 0#6, .reg 1#6, .imm 0#5, _, _, rfl, .inl (by decide), rfl, rfl, by decide +kernel,
    by decide +kernel, by decide +kernel, by decide +kernel, .inr fun q h => by cases h⟩

theorem test_witness_ScratchLoadResults_ldss :
    ∃ (s : State) (p : BitVec 3) (d : BitVec 6) (a b : Src) (x y : Word), PredOn s p ∧ NoAnchorDue s ∧
      s.readS .int a = .ok x ∧ s.readS .int b = .ok y ∧
      (let off := (x + y).toNat
       off + 8 = s.core.decl.rawBytes ∧ s.directOk off 8 = .ok () ∧ off % 8 = 0 ∧ s.core.linesToFill off 8 = [] ∧ FreeS s false d) :=
  ⟨regs fun _ => BitVec.ofNat 64 (52 * 1024 - 8), 0#3, 0#6, .reg 1#6, .imm 0#5, _, _, rfl, .inl (by decide), rfl, rfl, by decide +kernel,
    by decide +kernel, by decide +kernel, by decide +kernel, .inr fun q h => by cases h⟩

theorem test_witness_StoreResults_st :
    ∃ (s : State) (p : BitVec 3) (d : BitVec 6) (a b : Src) (x y : Word) (ty : StTy) (ps : List Nat), PredOn s p ∧
      s.readS .int a = .ok x ∧ s.readS .int b = .ok y ∧ (s.core.arch.sreg d + x).toNat % stSize ty = 0 ∧
      Reaches s [a, b] true [s.core.arch.sreg d + x] ps :=
  ⟨regs fun _ => 0x3FFFFFF8#64, 0#3, 1#6, .imm 0#5, .reg 2#6, _, _, .n64, _, rfl, rfl, rfl, by decide +kernel, _, rfl⟩

/-- Every lane of a vector, up to the last byte of the page. -/
theorem test_witness_StoreResults_stv :
    ∃ (s : State) (p : BitVec 3) (d : BitVec 6) (a b : Src) (x : Word) (v : Lanes) (m : LaneMask) (ps : List Nat), PredOn s p ∧
      s.readS .int a = .ok x ∧ s.readVM .raw b = .ok (v, m) ∧ (s.core.arch.sreg d + x).toNat % 4 = 0 ∧
      Reaches s [a, b] true ((maskLanes m).map fun i => s.core.arch.sreg d + x + BitVec.ofNat 64 (4 * i)) ps :=
  ⟨regs fun _ => 0x3FFFFE00#64, 0#3, 1#6, .imm 0#5, .reg 2#6, _, _, _, (upFrom 0 128).map fun i => 0x3FFFFE00 + 4 * i,
    rfl, rfl, rfl, by decide +kernel, reaches_of (by decide +kernel)⟩

theorem test_witness_StoreResults_scatter :
    ∃ (s : State) (p : BitVec 3) (d : BitVec 6) (a b : Src) (o v : Lanes) (m n : LaneMask) (ps : List Nat), PredOn s p ∧
      s.readVM .raw a = .ok (o, m) ∧ s.readVM .raw b = .ok (v, n) ∧
      (let vas := (maskLanes (m &&& n)).map fun i => s.core.arch.sreg d + (lane o i).setWidth 64
       (∀ va ∈ vas, va.toNat % 4 = 0) ∧ Reaches s [a, b] true vas ps) :=
  ⟨regs fun _ => 0x3000#64, 0#3, 1#6, .reg 1#6, .reg 2#6, 0#4096, 0#4096, BitVec.allOnes 128, BitVec.allOnes 128, List.replicate 128 0x3000,
    rfl, rfl, rfl, by
      have h : (maskLanes (BitVec.allOnes 128 &&& BitVec.allOnes 128)).map
          (fun i => (regs fun _ => 0x3000#64).core.arch.sreg 1#6 + (lane 0#4096 i).setWidth 64) = List.replicate 128 0x3000#64 := by decide +kernel
      show (∀ va ∈ List.map _ _, _) ∧ Reaches _ _ _ (List.map _ _) _
      rw [h]
      exact ⟨fun va h => by rw [List.eq_of_mem_replicate h]; decide, reaches_of (by decide +kernel)⟩⟩

/-- The last bytes of a stash row, bound to the last KiB of the page. -/
def stashed (x : Word) : State :=
  withC fun c => { c with arch := { c.arch with s := Vector.replicate 64 x, bound := [(3, 0x3FFFFC00#64)] } }

theorem test_witness_StoreResults_stss :
    ∃ (s : State) (p : BitVec 3) (d : BitVec 6) (a b : Src) (x y : Word) (ps : List Nat), PredOn s p ∧
      s.readS .int a = .ok x ∧ s.readS .int b = .ok y ∧
      (let off := (s.core.arch.sreg d + x).toNat
       let cells : List Host.Cell := (toBytes 8 y.toNat).zipIdx.map fun c => (off + c.2, c.1)
       s.directOk off 8 = .ok () ∧ off % 8 = 0 ∧ Reaches s [a, b] true ((farCells s cells).map (·.1)) ps) :=
  ⟨stashed (BitVec.ofNat 64 (64 * 1024 - 8)), 0#3, 1#6, .imm 0#5, .reg 2#6, _, _, upFrom 0x3FFFFFF8 8, rfl, rfl, rfl, by decide +kernel,
    by decide +kernel, reaches_of (by decide +kernel)⟩

theorem test_witness_StoreResults_sts :
    ∃ (s : State) (p : BitVec 3) (d : BitVec 6) (a b : Src) (x : Word) (v : Lanes) (m : LaneMask) (ps : List Nat), PredOn s p ∧
      s.readS .int a = .ok x ∧ s.readVM .raw b = .ok (v, m) ∧
      (let off := (s.core.arch.sreg d + x).toNat
       let cells := (maskLanes m).flatMap fun i => laneCells v (i, off + 4 * i)
       s.directOk off 512 = .ok () ∧ off % 4 = 0 ∧ Reaches s [a, b] true ((farCells s cells).map (·.1)) ps) :=
  ⟨regs fun _ => BitVec.ofNat 64 (52 * 1024 - 512), 0#3, 1#6, .imm 0#5, .reg 2#6, _, _, _, [], rfl, rfl, rfl, by decide +kernel,
    by decide +kernel, reaches_of (by decide +kernel)⟩

/-- Row 3, the last, bound to the last KiB of a page. -/
theorem test_witness_StashControlResults :
    ∃ (s : State) (p : BitVec 3) (a b : Src) (y : Word) (ps : List Nat), PredOn s p ∧ s.readS .int a = .ok 3#64 ∧ (3#64).toNat < s.core.decl.stash ∧
      s.readS .int b = .ok y ∧ y.toNat % 1024 = 0 ∧ Reaches s [a, b] false [y] ps :=
  ⟨regs fun _ => 0x3FFFFC00#64, 0#3, .imm 3#5, .reg 2#6, _, _, rfl, rfl, by decide +kernel, rfl, by decide +kernel, _, rfl⟩

theorem test_witness_AtomicResults :
    ∃ (s : State) (p : BitVec 3) (w : Bool) (d : BitVec 6) (a b : Src) (x y : Word) (pa : Nat), PredOn s p ∧ s.readS .int a = .ok x ∧
      s.readS .int b = .ok y ∧ (w = false → s.core.hasQueue (d.setWidth 3) = true) ∧ AtomicFree s pa ∧ Memory.wf s.mem = true ∧
      x.toNat % 8 = 0 ∧ Reaches s [a, b] true [x] [pa] :=
  ⟨regs fun _ => 0x3FFFFFF8#64, 0#3, false, 7#6, .reg 1#6, .reg 2#6, _, _, 0x3FFFFFF8, rfl, rfl, rfl, fun _ => rfl,
    ⟨fun o g ls h => (by cases h), by decide +kernel⟩, by decide +kernel, by decide +kernel, reaches_of (by decide +kernel)⟩

theorem test_witness_AtomicResults_afadd :
    ∃ (s : State) (p : BitVec 3) (w : Bool) (d : BitVec 6) (a b : Src) (x y : Word) (pa : Nat), PredOn s p ∧ s.readS .int a = .ok x ∧
      s.readS .int b = .ok y ∧ (w = false → s.core.hasQueue (d.setWidth 3) = true) ∧ AtomicFree s pa ∧ Memory.wf s.mem = true ∧
      x.toNat % 4 = 0 ∧ Reaches s [a, b] true [x] [pa] :=
  ⟨regs fun _ => 0x3FFFFFFC#64, 0#3, true, 0#6, .reg 1#6, .reg 2#6, _, _, 0x3FFFFFFC, rfl, rfl, rfl, fun h => (by cases h),
    ⟨fun o g ls h => (by cases h), by decide +kernel⟩, by decide +kernel, by decide +kernel, reaches_of (by decide +kernel)⟩

theorem test_witness_AtomicResults_acas :
    ∃ (s : State) (p : BitVec 3) (w : Bool) (d : BitVec 6) (a b : Src) (x y : Word) (pa : Nat), PredOn s p ∧ s.readS .int a = .ok x ∧
      s.readS .int b = .ok y ∧ (w = false → s.core.hasQueue (d.setWidth 3) = true) ∧ AtomicFree s pa ∧ Memory.wf s.mem = true ∧
      x.toNat % 8 = 0 ∧ Reaches s [a] true [x] [pa] :=
  ⟨regs fun _ => 0x3FFFFFF8#64, 0#3, true, 0#6, .reg 1#6, .reg 2#6, _, _, 0x3FFFFFF8, rfl, rfl, rfl, fun h => (by cases h),
    ⟨fun o g ls h => (by cases h), by decide +kernel⟩, by decide +kernel, by decide +kernel, reaches_of (by decide +kernel)⟩

theorem unspilled_of {o : Option Uni} (h : (o.all fun x => !x.spilled) = true) : ∀ x, o = some x → x.spilled = false := by
  rintro x rfl
  simpa using h

/-- The last barrier of the raw region, posted with the largest count. -/
theorem test_witness_BarrierResults_post_raw :
    ∃ (s : State) (p : BitVec 3) (a b : Src) (x n : Word) (loc : BarLoc),
      PredOn s p ∧ s.readS .int a = .ok x ∧ s.readS .int b = .ok n ∧ n.toNat = 2 ^ 40 ∧ barNamed s [a, b] true true x loc ∧ barSound s loc :=
  ⟨regs fun i => if i = 1 then BitVec.ofNat 64 (52 * 1024 - 64) else 0x10000000000#64, 0#3, .reg 1#6, .reg 2#6, _, _, .raw 1 (52 * 1024 - 64),
    rfl, rfl, rfl, by decide +kernel, ⟨by decide +kernel, rfl, by decide +kernel⟩,
    ⟨by decide +kernel, by decide +kernel, unspilled_of (by decide +kernel)⟩⟩

theorem test_witness_BarrierResults_post_mem :
    ∃ (s : State) (p : BitVec 3) (a b : Src) (x n : Word) (loc : BarLoc),
      PredOn s p ∧ s.readS .int a = .ok x ∧ s.readS .int b = .ok n ∧ n.toNat ≤ 2 ^ 40 ∧ barNamed s [a, b] false true x loc ∧ barSound s loc :=
  ⟨regs fun i => if i = 1 then 0x3FFFFFC0#64 else 1#64, 0#3, .reg 1#6, .reg 2#6, _, _, .mem 0x3FFFFFC0,
    rfl, rfl, rfl, by decide +kernel, ⟨by decide +kernel, rfl, reaches_of (by decide +kernel)⟩, by unfold barSound; decide +kernel⟩

/-- A barrier at 0x3000 that is complete. -/
theorem test_witness_BarrierResults_bwait :
    ∃ (s : State) (p : BitVec 3) (a : Src) (x : Word) (loc : BarLoc),
      PredOn s p ∧ s.readS .int a = .ok x ∧ barNamed s [a] false false x loc ∧ barState (s.barAt loc) = 1 :=
  ⟨{ regs fun _ => 0x3000#64 with mem := [(0x1000, 0x01#8), (0x1001, 0x20#8), (0x2000, 0x0B#8), (0x3008, 0x02#8)] }, 0#3, .reg 1#6, _, .mem 0x3000,
    rfl, rfl, ⟨by decide +kernel, rfl, reaches_of (by decide +kernel)⟩, by decide +kernel⟩

/-- Bytes counted on a posted barrier of 2 that has one left, and on one that is overrun. -/
theorem test_witness_BarrierResults_arrival :
    (∃ (s : State) (loc : BarLoc) (k : Nat) (w : Word), barSound s loc ∧ s.act = some (.barrierArrival loc k w) ∧
      barState (s.barAt loc) = 0 ∧ barPosted (s.barAt loc) = true ∧ barCount (s.barAt loc) - k = 1) ∧
    ∃ (s : State) (loc : BarLoc) (k : Nat) (w : Word), barSound s loc ∧ s.act = some (.barrierArrival loc k w) ∧ barState (s.barAt loc) = 2 :=
  ⟨⟨{ demo with act := some (.barrierArrival (.mem 0x3000) 1 9#64), mem := [(0x3000, 0x02#8), (0x3008, 0x01#8)] }, _, _, _,
      by unfold barSound; decide +kernel, rfl, by decide +kernel⟩,
    ⟨{ demo with act := some (.barrierArrival (.mem 0x3000) 1 9#64), mem := [(0x3008, 0x04#8)] }, _, _, _,
      by unfold barSound; decide +kernel, rfl, by decide +kernel⟩⟩

/-! ### Transfers, control and waits -/

/-- A block of 64 bytes in a scratchpad. -/
def padWith (off v : Nat) : Spad := { bytes := cellsSet [] off (toBytes 64 v) }

/-- A record of 4 bytes from device memory to device memory at 0x3000. -/
def record0 : Nat := 4 * 2 ^ 32 + 0x3000 * 2 ^ 128

/-- The block `v` in the last 64 bytes of the raw region, whose offset is in every scalar register. -/
def holding (v : Nat) : State :=
  withC fun x => { x with pad := padWith (52 * 1024 - 64) v, arch := { x.arch with s := Vector.replicate 64 (BitVec.ofNat 64 (52 * 1024 - 64)) } }

theorem test_witness_TransferFormResults_put :
    ∃ (s : State) (p : BitVec 3) (a b : Src) (x y : Word), PredOn s p ∧ s.readS .int a = .ok x ∧ s.readS .int b = .ok y ∧
      (let off := (x + y).toNat
       let r : Block := BitVec.ofNat 512 (loadNat s.core.pad.bytes off 64)
       off % 64 = 0 ∧ off + 64 ≤ s.core.decl.rawBytes ∧ recInvalid r s.core.decl.rawBytes false = false ∧ recSrcSp r ≤ 1 ∧ CanSplit s) :=
  ⟨holding record0, 0#3, .reg 1#6, .imm 0#5, _, _, rfl, rfl, rfl, by decide +kernel, by decide +kernel, by decide +kernel, by decide +kernel,
    by unfold CanSplit; decide +kernel⟩

theorem test_witness_TransferFormResults_get :
    ∃ (s : State) (p : BitVec 3) (w : Bool) (d : BitVec 6) (a b : Src) (x y : Word), PredOn s p ∧ s.readS .int a = .ok x ∧ s.readS .int b = .ok y ∧
      (let off := (x + y).toNat
       let r : Block := BitVec.ofNat 512 (loadNat s.core.pad.bytes off 64)
       off % 64 = 0 ∧ off + 64 ≤ s.core.decl.rawBytes ∧ recInvalid r s.core.decl.rawBytes false = false ∧ recSrcSp r = 2 ∧ recRem r = false ∧
         (w = false → s.core.hasQueue (d.setWidth 3) = true)) :=
  ⟨holding (record0 + 2 * 2 ^ 11), 0#3, false, 7#6, .reg 1#6, .imm 0#5, _, _, rfl, rfl, rfl, by decide +kernel, by decide +kernel, by decide +kernel,
    by decide +kernel, by decide +kernel, fun _ => rfl⟩

theorem test_witness_ControlResults :
    ∃ (s : State) (p : BitVec 3) (a : Src), PredOn s p ∧ s.readS .int a = .ok 0#64 ∧ FreeS s false 63#6 :=
  ⟨demo, 0#3, .imm 0#5, rfl, rfl, .inr fun q h => by cases h⟩

/-- A sixth entry on a stack of five. -/
theorem test_witness_ControlResults_loop :
    ∃ (s : State) (p : BitVec 3) (a : Src), PredOn s p ∧ s.readS .int a = .ok 1#64 ∧ s.core.arch.loops.length < 6 ∧
      (∀ e, s.core.arch.loops.getLast? = some e → e.last ≠ s.core.arch.pc) :=
  ⟨withC fun x => { x with arch := { x.arch with loops := List.replicate 5 { start := 1, last := 9, remaining := 1 } } }, 0#3, .imm 1#5,
    rfl, rfl, by decide +kernel, fun e h => by cases h; decide⟩

/-- All six entries left at once. -/
theorem test_witness_ControlResults_leave :
    ∃ (s : State) (p : BitVec 3) (a : Src) (x : Word) (e : LoopEntry), PredOn s p ∧ s.readS .int a = .ok x ∧ 1 ≤ x.toInt ∧
      x.toInt ≤ s.core.arch.loops.length ∧ s.core.arch.loops[s.core.arch.loops.length - x.toNat]? = some e :=
  ⟨withC fun x => { x with arch := { x.arch with loops := List.replicate 6 { start := 1, last := 9, remaining := 1 } } }, 0#3, .imm 6#5, 6#64,
    _, rfl, rfl, by decide, by decide +kernel, rfl⟩

theorem test_witness_WaitResults :
    ∃ (s : State) (p q : BitVec 3) (a : Src), PredOn s p ∧ s.readS .int a = .ok 0#64 ∧ s.core.hasQueue q = true ∧
      (0#64).toNat ≤ (s.core.queueAt q).ready ∧ (vget {} s.core.chans q.toNat).waited 0#32 = true ∧ s.outldAll ≤ 0 ∧ s.outstAll = 0 ∧ s.core.untaken = false ∧
      s.core.mode = 0#2 :=
  ⟨withC fun x => { x with mode := 0#2 }, 0#3, 7#3, .imm 0#5, rfl, rfl, rfl, by decide +kernel⟩

/-- A queue with its 16 entries ready. -/
theorem test_witness_WaitResults_sixteen :
    ∃ (s : State) (p q : BitVec 3) (a : Src), PredOn s p ∧ s.readS .int a = .ok 16#64 ∧ s.core.hasQueue q = true ∧ 16 ≤ (s.core.queueAt q).ready :=
  ⟨withC fun x => { x with
      arch := { x.arch with s := Vector.replicate 64 16#64 }
      q := Vector.replicate 8 { entries := List.replicate 16 { val := .scalar 0#64, mask := 0#128, filled := true, kind := .result, id := 0, old := false, req := none } } },
    0#3, 7#3, .reg 1#6, rfl, rfl, rfl, by decide +kernel⟩

theorem test_witness_WaitResults_cwait :
    ∃ (s : State) (p : BitVec 3) (a : Src), PredOn s p ∧ s.readS .int a = .ok 1#64 ∧ s.outstAll ≤ 1 ∧ s.core.untaken = false ∧
      (1#64 : Word) ≠ 0#64 :=
  ⟨demo, 0#3, .imm 1#5, rfl, rfl, by decide +kernel⟩

theorem test_witness_WaitResults_fence :
    ∃ (s : State) (m : BitVec 8) (ids : List Nat), s.act = some (.fenceComplete s.cur) ∧ s.core.fence = some (m, ids) ∧
      (∀ i ∈ ids, ∀ x, s.xferAt i = some x → x.live = false) ∧ (s.core.untaken = false ∧ s.core.six.run = none ∧ s.core.six.shadow = none) ∧
      (∀ h ∈ s.core.gl.toList, h.unacked = 0) :=
  ⟨{ withC fun x => { x with fence := some (0xFF#8, [1]) } with act := some (.fenceComplete 5) }, _, _, rfl, rfl,
    fun i _ x h => (by cases h), by decide +kernel,
    fun h hm => by
      have : h ∈ List.replicate 16 ({} : GlHandle) := hm
      rw [List.eq_of_mem_replicate this]; rfl⟩

/-! ### Work -/

/-- The machine with an image of one unit that declares no row. -/
def imaged (f : State → State) : State :=
  f (withH fun h => { h with images := [(0, { units := [{ decl0 with spbytes := 0, stash := 0, rings := [] }] })] })

/-- The machine with a descriptor at 0x3000, which every scalar register names. -/
def described (v : Nat) : State :=
  imaged fun s => { s with
    core := { s.core with arch := { s.core.arch with s := Vector.replicate 64 0x3000#64 } }
    mem := cellsSet s.mem 0x3000 (toBytes 64 v) }

/-- A descriptor of one unit of each extent, pinned to core 255. -/
def desc0 : Nat := 1 * 2 ^ 18 + 255 * 2 ^ 32 + 2 ^ 128 + 2 ^ 144 + 2 ^ 160

theorem test_witness_SpawnResults_refused :
    ∃ (s : State) (i : Instr) (p : BitVec 3) (w : Bool) (d : BitVec 6) (a b : Src) (x k : Word) (pa : Nat) (c : Cause),
      (i = .spawnLaunch p w d a b ∨ i = .spawnUnit p w d a b) ∧ PredOn s p ∧ s.readS .int a = .ok x ∧ s.readS .int b = .ok k ∧
      (w = false → s.core.hasQueue (d.setWidth 3) = true) ∧ x.toNat % 64 = 0 ∧ Reaches s [a, b] false [x] [pa] ∧ CanSplit s ∧ k.toNat ≤ 1 ∧
      s.descRefused s.core.part (BitVec.ofNat 512 (s.readNat pa 64)) (decide (k = 1#64)) = some c :=
  ⟨described (desc0 + 1), _, 0#3, false, 7#6, .reg 1#6, .imm 1#5, _, _, 0x3000, .spawnInvalid, .inr rfl, rfl, rfl, rfl, fun _ => rfl, by decide +kernel,
    reaches_of (by decide +kernel), by unfold CanSplit; decide +kernel, by decide +kernel, by decide +kernel⟩

theorem test_witness_SpawnResults_full :
    ∃ (s : State) (i : Instr) (p : BitVec 3) (w : Bool) (d : BitVec 6) (a b : Src) (x k : Word) (pa : Nat),
      (i = .spawnLaunch p w d a b ∨ i = .spawnUnit p w d a b) ∧ PredOn s p ∧ s.readS .int a = .ok x ∧ s.readS .int b = .ok k ∧
      (w = false → s.core.hasQueue (d.setWidth 3) = true) ∧ x.toNat % 64 = 0 ∧ Reaches s [a, b] false [x] [pa] ∧ CanSplit s ∧ k = 0#64 ∧
      s.descRefused s.core.part (BitVec.ofNat 512 (s.readNat pa 64)) false = none ∧ s.freeId s.core.part = none :=
  ⟨(fun s => { s with hub := { s.hub with accounts := (List.range 16).map fun i => (i, { st := .opn }) } }) (described desc0), _, 0#3, false, 7#6,
    .reg 1#6, .imm 0#5, _, _, 0x3000, .inl rfl, rfl, rfl, rfl, fun _ => rfl, by decide +kernel,
    reaches_of (by decide +kernel), by unfold CanSplit; decide +kernel, rfl, by decide +kernel, by decide +kernel⟩

theorem test_witness_SpawnResults_launch :
    ∃ (s : State) (i : Instr) (p : BitVec 3) (w : Bool) (d : BitVec 6) (a b : Src) (x k : Word) (pa n : Nat),
      (i = .spawnLaunch p w d a b ∨ i = .spawnUnit p w d a b) ∧ PredOn s p ∧ s.readS .int a = .ok x ∧ s.readS .int b = .ok k ∧
      (w = false → s.core.hasQueue (d.setWidth 3) = true) ∧ x.toNat % 64 = 0 ∧ Reaches s [a, b] false [x] [pa] ∧ CanSplit s ∧ k = 0#64 ∧
      (let r : Block := BitVec.ofNat 512 (s.readNat pa 64)
       s.descRefused s.core.part r false = none ∧ s.freeId s.core.part = some n ∧
       s.hasCapacity s.core.part (descPlace r) (descPin r) ((s.unitTable s.core.part).getD (descUnit r) {}).rows = true) :=
  ⟨described desc0, _, 0#3, false, 7#6, .reg 1#6, .imm 0#5, _, _, 0x3000, 1, .inl rfl, rfl, rfl, rfl, fun _ => rfl, by decide +kernel,
    reaches_of (by decide +kernel), by unfold CanSplit; decide +kernel, rfl, by decide +kernel, by decide +kernel, by
      have h1 : descPlace (BitVec.ofNat 512 ((described desc0).readNat 0x3000 64)) = 1 := by decide +kernel
      have h2 : (((described desc0).unitTable (described desc0).core.part).getD
        (descUnit (BitVec.ofNat 512 ((described desc0).readNat 0x3000 64))) {}).rows = 0 := by decide +kernel
      rw [h1, h2]
      simp [State.hasCapacity, State.eligible]⟩

theorem test_witness_SpawnResults_unit :
    ∃ (s : State) (i : Instr) (p : BitVec 3) (w : Bool) (d : BitVec 6) (a b : Src) (x k : Word) (pa : Nat),
      (i = .spawnLaunch p w d a b ∨ i = .spawnUnit p w d a b) ∧ PredOn s p ∧ s.readS .int a = .ok x ∧ s.readS .int b = .ok k ∧
      (w = false → s.core.hasQueue (d.setWidth 3) = true) ∧ x.toNat % 64 = 0 ∧ Reaches s [a, b] false [x] [pa] ∧ CanSplit s ∧ k = 1#64 ∧
      (let r : Block := BitVec.ofNat 512 (s.readNat pa 64)
       s.descRefused s.core.part r true = none ∧
       s.hasCapacity s.core.part (descPlace r) (descPin r) ((s.unitTable s.core.part).getD (descUnit r) {}).rows = true) :=
  ⟨described desc0, _, 0#3, false, 7#6, .reg 1#6, .imm 1#5, _, _, 0x3000, .inr rfl, rfl, rfl, rfl, fun _ => rfl, by decide +kernel,
    reaches_of (by decide +kernel), by unfold CanSplit; decide +kernel, by decide +kernel, by decide +kernel, by
      have h1 : descPlace (BitVec.ofNat 512 ((described desc0).readNat 0x3000 64)) = 1 := by decide +kernel
      have h2 : (((described desc0).unitTable (described desc0).core.part).getD
        (descUnit (BitVec.ofNat 512 ((described desc0).readNat 0x3000 64))) {}).rows = 0 := by decide +kernel
      rw [h1, h2]
      simp [State.hasCapacity, State.eligible]⟩

theorem test_witness_MessageAccountResults_send :
    ∃ (s : State) (p : BitVec 3) (a b : Src) (x y : Word), PredOn s p ∧ s.readS .int a = .ok x ∧ s.readS .int b = .ok y ∧ CanSplit s ∧
      x.toNat % 64 = 0 ∧ x.toNat + 64 ≤ s.core.decl.rawBytes :=
  ⟨holding 1, 0#3, .reg 1#6, .reg 2#6, _, _, rfl, rfl, rfl, by unfold CanSplit; decide +kernel, by decide +kernel, by decide +kernel⟩

/-- Slot 15, label 0xFFFE, the last unit of the table. -/
theorem test_witness_MessageAccountResults_trig :
    ∃ (s : State) (p : BitVec 3) (a b : Src) (x y : Word), PredOn s p ∧ s.readS .int a = .ok x ∧ s.readS .int b = .ok y ∧ CanSplit s ∧
      s.cancelling s.core.hold = false ∧ vget none s.core.trigs (fld x 36 4) = none ∧ fld x 16 16 < (s.unitTable s.core.part).length ∧ bitAt x 34 = false ∧
      fld x 0 16 ≠ 0xFFFF :=
  ⟨imaged fun s => { s with core := { s.core with arch := { s.core.arch with s := Vector.replicate 64 0xF00000FFFE#64 } } }, 0#3, .reg 1#6, .reg 2#6,
    0xF00000FFFE#64, _, rfl, rfl, rfl, by unfold CanSplit; decide +kernel, by decide +kernel⟩

theorem test_witness_MessageAccountResults_trig_barrier :
    ∃ (s : State) (p : BitVec 3) (a b : Src) (x y va : Word) (pa : Nat) (u : State) (l : Leaf × State), PredOn s p ∧ s.readS .int a = .ok x ∧
      s.readS .int b = .ok y ∧ CanSplit s ∧ s.cancelling s.core.hold = false ∧ vget none s.core.trigs (fld x 36 4) = none ∧
      fld x 16 16 < (s.unitTable s.core.part).length ∧ bitAt x 34 = true ∧ y = va ∧ va.toNat % 64 = 0 ∧ (s.pops [a, b]).reach false [va] = .ok ([pa], u) ∧
      u.leafFor u.cur u.core.part va = some l ∧ l.1.attr = 2#2 :=
  ⟨imaged fun s => { s with core := { s.core with arch := { s.core.arch with s := Vector.ofFn fun i => if i.val = 1 then 0x400000000#64 else 0x3000#64 } } },
    0#3, .reg 1#6, .reg 2#6, 0x400000000#64, 0x3000#64, _, 0x3000, _, _, rfl, rfl, rfl, by unfold CanSplit; decide +kernel, by decide +kernel, by decide +kernel,
    by decide +kernel, by decide, rfl, by decide, rfl, rfl, rfl⟩

theorem test_witness_MessageAccountResults_untrig :
    ∃ (s : State) (p : BitVec 3) (a : Src) (x : Word) (g : Trigger), PredOn s p ∧ s.readS .int a = .ok x ∧ vget none s.core.trigs (fld x 0 4) = some g ∧
      s.core.hold.valid = true ∧ g.tok.acct = s.core.hold.acct ∧ g.tok.pkg = s.core.hold.pkg ∧ g.asked = [] :=
  ⟨withC fun x => { x with trigs := Vector.replicate 16 (some {
      label := 1#16, unit := 0, prio := 0, bar := none, tok := { acct := 0#32, pkg := 0#16, exp := 4#7 }, pair := false, part := 0, pts := 0#64 }) }, 0#3, .imm 15#5, 15#64, _,
    rfl, rfl, rfl, rfl, rfl, rfl, rfl⟩

/-- An account of which only the unit's own weight is out. -/
theorem test_witness_MessageAccountResults_quiet :
    ∃ (s : State) (p : BitVec 3) (w : Bool) (d : BitVec 6) (a b : Src) (x y : Word), PredOn s p ∧ s.readS .int a = .ok x ∧ s.readS .int b = .ok y ∧
      MayName s (x.setWidth 32) ∧ FreeS s w d ∧ s.cancelling s.core.hold = false ∧ (s.accAt (accId (x.setWidth 32))).out = s.heldIn (x.setWidth 32) :=
  ⟨withH fun h => { h with accounts := [(0, { st := .opn, level := .launch, out := 2 ^ 124 })] }, 0#3, true, 0#6, .imm 0#5, .imm 7#5, 0#64, _,
    rfl, rfl, rfl, ⟨by decide +kernel, .inr rfl⟩, .inl rfl, by decide +kernel, by decide +kernel⟩

/-- The machine whose job 0 and graph 2 hold owner tokens, with launch 3 under the graph, and a block at the end of the raw region. -/
def phased (blk : Nat) : State :=
  { (withH fun h => { h with
      images := [(0, { units := [{ decl0 with spbytes := 0, stash := 0, rings := [] }] })]
      accounts := [(0, { st := .opn, level := .job, out := 2 ^ 127, owner := some { exp := 126#7, valid := true } }),
        (2, { st := .opn, level := .graph, out := 2 ^ 127, owner := some { exp := 0#7, valid := true, acct := 2#32 }, parentV := true }),
        (3, { st := .opn, level := .launch, out := 2 ^ 127, parentV := true, parent := 2#32 }), (4, { st := .done, level := .phase, parentV := true })] }) with
    core := (holding blk).core
    mem := cellsSet demo.mem 0x3000 (toBytes 64 desc0) }

theorem test_witness_PhaseResults_open :
    ∃ (s : State) (i : Instr) (p : BitVec 3) (w : Bool) (d : BitVec 6) (a b : Src) (x y : Word) (own : Hold) (n : Nat),
      (i = .phaseOpeng p w d a b ∨ i = .phaseOpenp p w d a b ∨ i = .phaseAddl p w d a b ∨ i = .phaseClose p w d a b ∨ i = .phaseRelease p w d a b) ∧
      PredOn s p ∧ s.readS .int a = .ok x ∧ s.readS .int b = .ok y ∧ (w = false → s.core.hasQueue (d.setWidth 3) = true) ∧ x.toNat % 64 = 0 ∧
      x.toNat + 64 ≤ s.core.decl.rawBytes ∧
      (let h := phTarget (BitVec.ofNat 512 (loadNat s.core.pad.bytes x.toNat 64))
       MayName s h ∧ RisingKeys s.hub.accounts ∧ fld y 0 4 = 0 ∧ (s.accAt (accId h)).level = .job ∧ (s.accAt (accId h)).st = .opn ∧
         (s.accAt (accId h)).owner = some own ∧ own.exp ≠ 127#7 ∧ s.freeId (s.accAt (accId h)).part = some n) :=
  ⟨phased 0, _, 0#3, false, 7#6, .reg 1#6, .imm 0#5, _, _, { exp := 126#7, valid := true }, 1, .inl rfl, rfl, rfl, rfl, fun _ => rfl, by decide +kernel, by decide +kernel,
    ⟨by decide +kernel, .inr (by decide +kernel)⟩, by unfold RisingKeys; decide +kernel, by decide +kernel⟩

theorem test_witness_PhaseResults_openp :
    ∃ (s : State) (i : Instr) (p : BitVec 3) (w : Bool) (d : BitVec 6) (a b : Src) (x y : Word) (own : Hold) (n : Nat),
      i = .phaseOpenp p w d a b ∧ PredOn s p ∧ s.readS .int a = .ok x ∧ s.readS .int b = .ok y ∧
      (let h := phTarget (BitVec.ofNat 512 (loadNat s.core.pad.bytes x.toNat 64))
       MayName s h ∧ fld y 0 4 = 1 ∧ (s.accAt (accId h)).level = .job ∧ (s.accAt (accId h)).st = .opn ∧
         (s.accAt (accId h)).owner = some own ∧ own.exp ≠ 127#7 ∧ s.freeId (s.accAt (accId h)).part = some n) :=
  ⟨phased 0, _, 0#3, false, 7#6, .reg 1#6, .imm 1#5, _, _, { exp := 126#7, valid := true }, 1, rfl, rfl, rfl, rfl,
    ⟨by decide +kernel, .inr (by decide +kernel)⟩, by decide +kernel⟩

/-- Launch 3 of graph 2 as predecessor. -/
theorem test_witness_PhaseResults_addl :
    ∃ (s : State) (p : BitVec 3) (a b : Src) (x y : Word) (own : Hold) (n pa : Nat), PredOn s p ∧ s.readS .int a = .ok x ∧ s.readS .int b = .ok y ∧
      (let r : Block := BitVec.ofNat 512 (loadNat s.core.pad.bytes x.toNat 64)
       let h := phTarget r
       let acc := s.accAt (accId h)
       MayName s h ∧ fld y 0 4 = 2 ∧ acc.level = .graph ∧ acc.st = .opn ∧ acc.owner = some own ∧ own.exp ≠ 127#7 ∧ phNpred r ≤ 8 ∧
       (∀ k ∈ phPreds r, MayName s k ∧ (let c := s.accAt (accId k)
         c.level = .launch ∧ c.parentV = true ∧ c.parent = h ∧ c.parentPkg = s.fabric.num ∧ c.st ≠ .done)) ∧
       phPreds r ≠ [] ∧ (phDesc r).toNat % 64 = 0 ∧ Reaches s [a, b] false [phDesc r] [pa] ∧ s.freeId acc.part = some n ∧
       s.descRefused acc.part (BitVec.ofNat 512 (s.readNat pa 64)) false = none) := by
  have hp : phPreds (BitVec.ofNat 512 (loadNat (phased (2 + 2 ^ 32 + 0x3000 * 2 ^ 64 + 3 * 2 ^ 128)).core.pad.bytes (52 * 1024 - 64) 64)) = [3#32] := by
    decide +kernel
  refine ⟨phased (2 + 2 ^ 32 + 0x3000 * 2 ^ 64 + 3 * 2 ^ 128), 0#3, .reg 1#6, .imm 2#5, BitVec.ofNat 64 (52 * 1024 - 64), _, { exp := 0#7, valid := true, acct := 2#32 }, 1, 0x3000, rfl, rfl, rfl,
    ⟨by decide +kernel, .inr (by decide +kernel)⟩, by decide +kernel, by decide +kernel, by decide +kernel, by decide +kernel, by decide +kernel, by decide +kernel, ?_,
    fun h => ?_, by decide +kernel, reaches_of (by decide +kernel), by decide +kernel, by decide +kernel⟩
  · intro k hk
    have hk' : k ∈ [3#32] := hp ▸ hk
    obtain rfl := List.mem_singleton.mp hk'
    exact ⟨⟨by decide +kernel, .inr (by decide +kernel)⟩, by decide +kernel⟩
  · exact absurd (hp.symm.trans h) (by decide)

theorem test_witness_PhaseResults_close :
    ∃ (s : State) (p : BitVec 3) (a b : Src) (x y : Word) (own : Hold), PredOn s p ∧ s.readS .int a = .ok x ∧ s.readS .int b = .ok y ∧
      (let h := phTarget (BitVec.ofNat 512 (loadNat s.core.pad.bytes x.toNat 64))
       MayName s h ∧ fld y 0 4 = 3 ∧ (s.accAt (accId h)).level = .graph ∧ (s.accAt (accId h)).owner = some own) :=
  ⟨phased 2, 0#3, .reg 1#6, .imm 3#5, _, _, { exp := 0#7, valid := true, acct := 2#32 }, rfl, rfl, rfl,
    ⟨by decide +kernel, .inr (by decide +kernel)⟩, by decide +kernel⟩

theorem test_witness_PhaseResults_release :
    ∃ (s : State) (p : BitVec 3) (a b : Src) (x y : Word), PredOn s p ∧ s.readS .int a = .ok x ∧ s.readS .int b = .ok y ∧
      (let h := phTarget (BitVec.ofNat 512 (loadNat s.core.pad.bytes x.toNat 64))
       MayName s h ∧ fld y 0 4 = 4 ∧ (s.accAt (accId h)).level ≠ .job ∧ (s.accAt (accId h)).st = .done) :=
  ⟨phased 4, 0#3, .reg 1#6, .imm 4#5, _, _, rfl, rfl, rfl, ⟨by decide +kernel, .inr (by decide +kernel)⟩, by decide +kernel⟩

theorem test_witness_CancelBarResults_cancel :
    ∃ (s : State) (p : BitVec 3) (a : Src) (x : Word), PredOn s p ∧ s.readS .int a = .ok x ∧ MayName s (x.setWidth 32) ∧
      (s.accAt (accId (x.setWidth 32))).st ≠ .done :=
  ⟨phased 0, 0#3, .imm 2#5, 2#64, rfl, rfl, ⟨by decide +kernel, .inr (by decide +kernel)⟩, by decide +kernel⟩

/-- The last tree, 63. -/
theorem test_witness_CancelBarResults_bar :
    ∃ (s : State) (p : BitVec 3) (w : Bool) (d : BitVec 6) (a b : Src) (x v : Word) (tr : Tree), PredOn s p ∧ s.readS .int a = .ok x ∧
      s.readS .int b = .ok v ∧ x = 63#64 ∧ s.cur < 256 ∧ s.treeOf (64 * s.core.part + x.toNat) = some tr ∧ tr.members.getLsbD s.cur = true ∧
      (∀ k v' br, Action.podBarrierCombine k (some s.cur) v' br ∈ s.due → k ≠ 64 * s.core.part + x.toNat) ∧
      (w = false → s.core.hasQueue (d.setWidth 3) = true) :=
  ⟨(fun s : State => { s with
      core := { s.core with arch := { s.core.arch with s := Vector.replicate 64 63#64 } }
      hub := { s.hub with images := [(0, { trees := [{ num := 63, op := 0#3, root := true, up := 0, down := 0#32, tmo := 1, members := 0x21#256, uslot := 0 }] })] } })
      demo, 0#3, false, 7#6, .reg 1#6, .reg 2#6, _, _, _, rfl, rfl, rfl, rfl, by decide, rfl, by decide, fun k v' br h => (by
        have h' : Action.podBarrierCombine k (some 5) v' br ∈ [Action.boot] := h
        cases List.mem_singleton.mp h'), fun _ => rfl⟩

theorem test_witness_LeaveResults :
    ∃ (s : State) (p : BitVec 3) (u : Nat), PredOn s p ∧ s.core.unit = some u ∧ s.runsOn u = some s.cur ∧ RisingKeys s.hub.units ∧ u < s.hub.nextUnit :=
  ⟨demo, 0#3, 1, rfl, rfl, by decide +kernel, by unfold RisingKeys; decide +kernel, by decide⟩

/-- A block to core 255, 32 slots wide, a lease of 64. -/
def block0 : Nat := 255 + 32 * 2 ^ 20 + 64 * 2 ^ 192 + 64 * 2 ^ 224

theorem test_witness_CircuitFormResults_glopen :
    ∃ (s : State) (p : BitVec 3) (w : Bool) (d : BitVec 6) (a b : Src) (x y : Word), PredOn s p ∧ s.readS .int a = .ok x ∧ s.readS .int b = .ok y ∧
      x.toNat % 64 = 0 ∧ x.toNat + 64 ≤ s.core.decl.rawBytes ∧ (w = false → s.core.hasQueue (d.setWidth 3) = true) ∧ fld y 0 4 = 15 ∧
      (vget {} s.core.gl (fld y 0 4)).over = true ∧ glInvalid (BitVec.ofNat 512 (loadNat s.core.pad.bytes x.toNat 64)) s.cur = false ∧ CanSplit s :=
  ⟨holding block0, 0#3, false, 0#6, .reg 1#6, .imm 15#5, _, 15#64, rfl, rfl, rfl, by decide +kernel, by decide +kernel, fun _ => rfl, by decide,
    by decide +kernel, by decide +kernel, by unfold CanSplit; decide +kernel⟩

/-- Handle 15 in each state that the clauses name. -/
def handled (k : GlHandle) (y : Word) : State :=
  withC fun x => { x with gl := vput x.gl 15 k, arch := { x.arch with s := Vector.ofFn fun i => if i.val = 1 then BitVec.ofNat 64 (52 * 1024 - 4) else y } }

theorem test_witness_CircuitFormResults_state :
    ∀ st : GlSt, st = .opn ∨ st = .closing ∨ st = .ended →
      ∃ (s : State) (p : BitVec 3) (a b : Src) (y : Word), PredOn s p ∧ s.readS .int a = .ok 15#64 ∧ s.readS .int b = .ok y ∧
        (vget {} s.core.gl 15).st = st ∧ st ≠ .free ∧ st ≠ .opening ∧ s.runsOn s.core.self = some s.cur := by
  rintro st (rfl | rfl | rfl)
  · exact ⟨handled { st := .opn } 0#64, 0#3, .imm 15#5, .reg 2#6, _, rfl, rfl, rfl, by decide +kernel, by decide, by decide, by decide +kernel⟩
  · exact ⟨handled { st := .closing } 0#64, 0#3, .imm 15#5, .reg 2#6, _, rfl, rfl, rfl, by decide +kernel, by decide, by decide, by decide +kernel⟩
  · exact ⟨handled { st := .ended } 0#64, 0#3, .imm 15#5, .reg 2#6, _, rfl, rfl, rfl, by decide +kernel, by decide, by decide, by decide +kernel⟩

/-- The last word of the raw region, with three sends already in line. -/
theorem test_witness_CircuitFormResults_glsend :
    ∃ (s : State) (p : BitVec 3) (a b : Src) (x y : Word), PredOn s p ∧ s.readS .int a = .ok x ∧ s.readS .int b = .ok y ∧
      (let n := fld y 16 20
       let k := vget {} s.core.gl (fld y 0 4)
       x.toNat % 4 = 0 ∧ n ≠ 0 ∧ x.toNat + 4 * n = s.core.decl.rawBytes ∧ k.st = .opn ∧ k.taken + n ≤ glLen k.block / 4 ∧ k.pend.length < 4) :=
  ⟨handled { st := .opn, block := BitVec.ofNat 512 block0, pend := List.replicate 3 { off := 0, count := 1, sent := 0 } } 0x1000F#64, 0#3, .reg 1#6, .reg 2#6,
    _, _, rfl, rfl, rfl, by decide +kernel⟩

theorem test_witness_CircuitFormResults_glsend_ended :
    ∃ (s : State) (p : BitVec 3) (a b : Src) (x y : Word), PredOn s p ∧ s.readS .int a = .ok x ∧ s.readS .int b = .ok y ∧
      (let n := fld y 16 20
       x.toNat % 4 = 0 ∧ n ≠ 0 ∧ x.toNat + 4 * n ≤ s.core.decl.rawBytes ∧ (vget {} s.core.gl (fld y 0 4)).st = .closing) :=
  ⟨handled { st := .closing } 0x1000F#64, 0#3, .reg 1#6, .reg 2#6,
    _, _, rfl, rfl, rfl, by decide +kernel⟩

theorem test_witness_EngineFormResults :
    ∃ (s : State) (p n : BitVec 3) (a b : BitVec 6), PredOn s p ∧ FreeS s false a ∧ FreeS s false b ∧ s.runsOn s.core.self = some s.cur ∧ CanSplit s ∧
      (s.core.arch.sreg a).toNat % 64 = 0 ∧ (vget {} s.core.chans n.toNat).pending = none ∧
      s.core.hasQueue (BitVec.ofNat 3 (fld s.core.arch.sixcfg 2 3)) = true ∧ s.core.six.shadow = none :=
  ⟨demo, 0#3, 7#3, 62#6, 63#6, rfl, .inr fun q h => (by cases h), .inr fun q h => (by cases h), by decide +kernel, by unfold CanSplit; decide +kernel,
    by decide +kernel, by decide +kernel, by decide +kernel, rfl⟩

/-- The last register that a unit may read, and OPCUR's neighbour of the ranger core. -/
theorem test_witness_SystemRegisterResults_read :
    (∃ (s : State) (w : Bool) (d : BitVec 6) (n : BitVec 7), sysReadLevel n.toNat ≤ s.level ∧ FreeS s w d ∧ s.level = 0) ∧
    ∃ (s : State) (w : Bool) (d : BitVec 6) (n : BitVec 7), sysReadLevel n.toNat ≤ s.level ∧ FreeS s w d ∧ n = 0x7F#7 :=
  ⟨⟨demo, true, 0#6, 0x0F#7, by decide, .inl rfl, by decide⟩, ⟨ranger, true, 0#6, _, by decide +kernel, .inl rfl, rfl⟩⟩

theorem test_witness_SystemRegisterResults_write :
    (∃ (s : State) (p : BitVec 3) (b : Src) (v : Word), PredOn s p ∧ s.readS .int b = .ok v ∧ s.level = 2 ∧ RisingKeys s.others) ∧
    (∃ (s : State) (p : BitVec 3) (b : Src) (v : Word), PredOn s p ∧ s.readS .int b = .ok v ∧ RisingKeys s.others ∧ s.level = 1 ∧ s.core.part = 7) ∧
    ∃ (s : State) (p : BitVec 3) (b : Src) (v : Word) (n : BitVec 7), PredOn s p ∧ s.readS .int b = .ok v ∧ (n.toNat < 0x10 ∨ s.level = 2) ∧
      n ∉ [0x02#7, 0x03#7, 0x06#7, 0x07#7, 0x08#7, 0x0E#7, 0x10#7, 0x11#7, 0x12#7] ∧ s.level = 0 :=
  ⟨⟨ranger, 0#3, .reg 1#6, _, rfl, rfl, by decide +kernel, by unfold RisingKeys; decide +kernel⟩,
    ⟨withC fun x => { x with isHandler := true, part := 7 }, 0#3, .reg 1#6, _, rfl, rfl, by unfold RisingKeys; decide +kernel, by decide +kernel, rfl⟩,
    ⟨demo, 0#3, .reg 1#6, _, 0x0F#7, rfl, rfl, .inl (by decide), by decide, by decide +kernel⟩⟩

/-- Whether a confirmation at once is made, by evaluation. -/
def Made (c : Confirmed) : Bool := match c with | .made _ => true | .waits | .replayed _ => false

theorem made_of {c : Confirmed} (h : Made c = true) : ∃ u, c = .made u := by
  cases c with
  | made u => exact ⟨u, rfl⟩
  | waits => cases h
  | replayed _ => cases h

theorem test_witness_TrapFormResults_trap :
    ∃ (s u : State) (p : BitVec 3) (a : Src) (x : Word), PredOn s p ∧ s.readS .int a = .ok x ∧ (s.pops [a]).confirm = .made u :=
  let ⟨u, h⟩ := made_of (c := (demo.pops [.reg 1#6]).confirm) (by decide +kernel)
  ⟨demo, u, 0#3, .reg 1#6, _, rfl, rfl, h⟩

/-- The ranger core in a trap whose record holds USER_TRAP. -/
def trapped : State :=
  { ranger with core := { ranger.core with inTrap := true }, mem := cellsSet ranger.mem rangerRecord [0x08#8] }

theorem test_witness_TrapFormResults_ranger :
    ∀ op : Nat, op = 0 ∨ op = 1 →
      ∃ (s u : State) (i : Instr) (p : BitVec 3) (a : Src) (x : Word), PredOn s p ∧ s.readS .int a = .ok x ∧ (s.pops [a]).confirm = .made u ∧
        (i = .tretRetry p a ∨ i = .tretSkipk p a ∨ i = .tretEnd p a) ∧ 1 ≤ s.level ∧ fld x 0 2 = op ∧ (s.pops [a]).tretOk op = true ∧
        (s.pops [a]).cur = rangerId := by
  rintro op (rfl | rfl)
  · obtain ⟨u, h⟩ := made_of (c := (trapped.pops [.imm 0#5]).confirm) (by decide +kernel)
    exact ⟨trapped, u, _, 0#3, .imm 0#5, 0#64, rfl, rfl, h, .inl rfl, by decide +kernel, by decide, by decide +kernel, by decide +kernel⟩
  · obtain ⟨u, h⟩ := made_of (c := (trapped.pops [.imm 1#5]).confirm) (by decide +kernel)
    exact ⟨trapped, u, _, 0#3, .imm 1#5, 1#64, rfl, rfl, h, .inr (.inl rfl), by decide +kernel, by decide, by decide +kernel, by decide +kernel⟩

/-- Unit 2 on core 5 handles a trap of unit 1. -/
def handler : State :=
  { demo with
    core := { core0 with
      unit := some 2, isHandler := true,
      handling := some { unit := some 1, owner := 1, acct := 0#32, recAt := 0, ctxAt := 0, cause := .userTrap, part := 0 } }
    hub := { demo.hub with units := [(1, { uni0 with st := .suspended }), (2, uni0)], nextUnit := 3 } }

theorem test_witness_TrapFormResults_handler :
    ∀ op : Nat, op ≤ 2 →
      ∃ (s : State) (p : BitVec 3) (a : Src) (x : Word), PredOn s p ∧ s.readS .int a = .ok x ∧ Made (s.pops [a]).confirm = true ∧
        1 ≤ s.level ∧ fld x 0 2 = op ∧ (s.pops [a]).tretOk op = true := by
  intro op h
  match op, h with
  | 0, _ => exact ⟨handler, 0#3, .imm 0#5, 0#64, rfl, rfl, by decide +kernel, by decide +kernel, by decide, by decide +kernel⟩
  | 1, _ => exact ⟨handler, 0#3, .imm 1#5, 1#64, rfl, rfl, by decide +kernel, by decide +kernel, by decide, by decide +kernel⟩
  | 2, _ => exact ⟨handler, 0#3, .imm 2#5, 2#64, rfl, rfl, by decide +kernel, by decide +kernel, by decide, by decide +kernel⟩

/-- The state that the return is made from, and the unit it returns to. -/
theorem test_witness_TrapFormResults_handled :
    (match (handler.pops [.imm 1#5]).confirm with
      | .made u => let k := u.closeUnit
        decide (u.cur = 5) && decide (k.cur = 5) && decide (k.core.unit = some 2) && decide (k.hub.nextUnit = 3) &&
          decide (k.core.handling.bind TrapWait.unit = some 1) &&
          (k.unitAt 1).any (fun y => y.started && decide (y.st = .suspended)) && decide (k.hub.units.map (·.1) = [1, 2])
      | _ => false) = true := by decide +kernel

theorem test_witness_PrivilegedFormResults_xlinv :
    (∃ (s : State) (p : BitVec 3) (a b : Src) (x y : Word), PredOn s p ∧ s.readS .int a = .ok x ∧ s.readS .int b = .ok y ∧ 1 ≤ s.level ∧
      s.cur = rangerId ∧ (s.partAt (fld y 8 3)).st ≠ 0#2 ∧ RisingKeys s.others) ∧
    ∃ (s : State) (p : BitVec 3) (a b : Src) (x y : Word), PredOn s p ∧ s.readS .int a = .ok x ∧ s.readS .int b = .ok y ∧ 1 ≤ s.level ∧ s.cur < 256 :=
  ⟨⟨ranger, 0#3, .reg 1#6, .imm 1#5, _, 1#64, rfl, rfl, rfl, by decide +kernel, rfl, by decide +kernel, by unfold RisingKeys; decide +kernel⟩,
    ⟨handler, 0#3, .reg 1#6, .imm 1#5, _, 1#64, rfl, rfl, rfl, by decide +kernel, by decide⟩⟩

/-- Quadrant 31, its SRAM domain to point 7 and its logic domain to boost. -/
theorem test_witness_PrivilegedFormResults_opreq :
    (∃ (s : State) (p : BitVec 3) (a b : Src) (x y : Word), PredOn s p ∧ s.readS .int a = .ok x ∧ s.readS .int b = .ok y ∧ 1 ≤ s.level ∧
      (s.cur = rangerId ∨ (s.partAt s.core.part).quads.getLsbD (fld x 1 5) = true) ∧ fld x 1 5 = 31 ∧ bitAt x 0 = true ∧ fld y 0 4 = 7) ∧
    ∃ (s : State) (p : BitVec 3) (a b : Src) (x y : Word), PredOn s p ∧ s.readS .int a = .ok x ∧ s.readS .int b = .ok y ∧ 1 ≤ s.level ∧
      (s.cur = rangerId ∨ (s.partAt s.core.part).quads.getLsbD (fld x 1 5) = true) ∧ fld x 1 5 = 31 ∧ bitAt x 0 = false ∧ fld y 0 4 = 8 :=
  ⟨⟨{ handler with core := { handler.core with arch := { s := Vector.replicate 64 63#64 } } }, 0#3, .reg 1#6, .imm 7#5, 63#64, 7#64, rfl, rfl, rfl,
      by decide +kernel, .inr (by decide +kernel), by decide, by decide, by decide⟩,
    ⟨{ handler with core := { handler.core with arch := { s := Vector.replicate 64 62#64 } } }, 0#3, .reg 1#6, .imm 8#5, 62#64, 8#64, rfl, rfl, rfl,
      by decide +kernel, .inr (by decide +kernel), by decide, by decide, by decide⟩⟩

/-- The ranger core with every scalar register at a value, and domains at points. -/
def rangerWith (v : Word) (op : NatMap Nat) : State :=
  { ranger with core := { ranger.core with arch := { s := Vector.replicate 64 v } }, power := { ranger.power with op := op } }

/-- A step that is none, one of the hub's, 67, and one of the last quadrant's SRAM, 63. -/
theorem test_witness_PrivilegedFormResults_evac :
    (∃ (s : State) (p : BitVec 3) (w : Bool) (d : BitVec 6) (a b : Src) (x y : Word), PredOn s p ∧ s.readS .int a = .ok x ∧ s.readS .int b = .ok y ∧ s.level = 2 ∧
      (w = false → s.core.hasQueue (d.setWidth 3) = true) ∧ s.opOf x.toNat ≤ fld y 0 3) ∧
    (∃ (s : State) (p : BitVec 3) (w : Bool) (d : BitVec 6) (a b : Src) (x y : Word), PredOn s p ∧ s.readS .int a = .ok x ∧ s.readS .int b = .ok y ∧ s.level = 2 ∧
      (w = false → s.core.hasQueue (d.setWidth 3) = true) ∧ isHubSram x.toNat = true ∧ fld y 0 3 < s.opOf x.toNat) ∧
    ∃ (s : State) (p : BitVec 3) (w : Bool) (d : BitVec 6) (a b : Src) (x y : Word), PredOn s p ∧ s.readS .int a = .ok x ∧ s.readS .int b = .ok y ∧ s.level = 2 ∧
      (w = false → s.core.hasQueue (d.setWidth 3) = true) ∧ isSram x.toNat = true ∧ fld y 0 3 < s.opOf x.toNat :=
  ⟨⟨rangerWith 63#64 [], 0#3, false, 7#6, .reg 1#6, .imm 0#5, _, _, rfl, rfl, rfl, by decide +kernel, fun _ => rfl, by decide +kernel⟩,
    ⟨rangerWith 67#64 [(67, 7)], 0#3, false, 7#6, .reg 1#6, .imm 6#5, _, _, rfl, rfl, rfl, by decide +kernel, fun _ => rfl, by decide +kernel, by decide +kernel⟩,
    ⟨rangerWith 63#64 [(63, 1)], 0#3, false, 7#6, .reg 1#6, .imm 0#5, _, _, rfl, rfl, rfl, by decide +kernel, fun _ => rfl, by decide +kernel, by decide +kernel⟩⟩

theorem test_witness_RangerPowerResults_absent :
    ∃ (s : State) (p : BitVec 3) (w : Bool) (d : BitVec 6) (a b : Src) (x y : Word), PredOn s p ∧ s.readS .int a = .ok x ∧ s.readS .int b = .ok y ∧ s.level = 2 ∧
      (w = false → s.core.hasQueue (d.setWidth 3) = true) ∧ 68 < x.toNat :=
  ⟨rangerWith 69#64 [], 0#3, false, 7#6, .reg 1#6, .imm 0#5, _, _, rfl, rfl, rfl, by decide +kernel, fun _ => rfl, by decide +kernel⟩

theorem test_witness_RangerPowerResults_up :
    ∃ (s : State) (p : BitVec 3) (w : Bool) (d : BitVec 6) (a b : Src) (x y : Word), PredOn s p ∧ s.readS .int a = .ok x ∧ s.readS .int b = .ok y ∧ s.level = 2 ∧
      (w = false → s.core.hasQueue (d.setWidth 3) = true) ∧ (isSram x.toNat = true ∨ isHubSram x.toNat = true) ∧ fld y 0 4 = 7 ∧
      NatMap.find x.toNat s.power.ups = none ∧ s.stepOf x.toNat = none ∧ s.opOf x.toNat < fld y 0 4 :=
  ⟨rangerWith 63#64 [], 0#3, false, 7#6, .reg 1#6, .imm 7#5, _, _, rfl, rfl, rfl, by decide +kernel, fun _ => rfl, .inl (by decide +kernel), by decide +kernel⟩

/-- A hub domain, whose rows no unit holds. -/
theorem test_witness_RangerPowerResults_down :
    ∃ (s : State) (p : BitVec 3) (w : Bool) (d : BitVec 6) (a b : Src) (x y : Word), PredOn s p ∧ s.readS .int a = .ok x ∧ s.readS .int b = .ok y ∧ s.level = 2 ∧
      (w = false → s.core.hasQueue (d.setWidth 3) = true) ∧ (isSram x.toNat = true ∨ isHubSram x.toNat = true) ∧ fld y 0 4 < 8 ∧
      NatMap.find x.toNat s.power.ups = none ∧ s.stepOf x.toNat = none ∧ fld y 0 4 < s.opOf x.toNat ∧ s.rowBlocked x.toNat (fld y 0 4) = false :=
  ⟨rangerWith 64#64 [(64, 7)], 0#3, false, 7#6, .reg 1#6, .imm 0#5, _, _, rfl, rfl, rfl, by decide +kernel, fun _ => rfl, .inr (by decide +kernel), by decide +kernel⟩

/-- The last logic domain to boost, and the domain 68. -/
theorem test_witness_RangerPowerResults_logic :
    (∃ (s : State) (a b : Src) (x y : Word), s.readS .int a = .ok x ∧ s.readS .int b = .ok y ∧ s.level = 2 ∧ isLogic x.toNat = true ∧ fld y 0 4 = 8) ∧
    ∃ (s : State) (a b : Src) (x y : Word), s.readS .int a = .ok x ∧ s.readS .int b = .ok y ∧ s.level = 2 ∧ x.toNat = 68 ∧ fld y 0 4 = 7 :=
  ⟨⟨rangerWith 59#64 [], .reg 1#6, .imm 8#5, _, _, rfl, rfl, by decide +kernel⟩,
    ⟨rangerWith 68#64 [], .reg 1#6, .imm 7#5, _, _, rfl, rfl, by decide +kernel⟩⟩

/-- The ranger core with s1 and the other scalar registers at values. -/
def rangerTwo (x y : Word) : State :=
  { ranger with core := { ranger.core with arch := { s := Vector.ofFn fun i => if i.val = 1 then x else y } } }

/-- The last port and its last wavelength, read, parked, woken, moved onto a spare that is taken and onto one that is free. -/
theorem test_witness_RangerLinkHostResults_rwave :
    ∀ y : Word, y = 0#64 ∨ y = 1#64 ∨ y = 2#64 ∨ y = 0x403#64 ∨ y = 0x303#64 →
      ∃ (s : State) (i : Instr) (p : BitVec 3) (w : Bool) (d : BitVec 6) (a b : Src) (x : Word), PredOn s p ∧ s.readS .int a = .ok x ∧
        s.readS .int b = .ok y ∧ s.level = 2 ∧ (w = false → s.core.hasQueue (d.setWidth 3) = true) ∧ RisingKeys s.fabric.ports ∧
        (i = .rwaveRead p w d a b ∨ i = .rwavePark p w d a b ∨ i = .rwaveWake p w d a b ∨ i = .rwaveMove p w d a b) ∧ fld x 0 5 = 31 ∧ fld x 5 4 = 15 ∧
        (y = 0x403#64 → 4 ≤ fld y 8 4) ∧ (y = 0x303#64 → fld y 8 4 < 4 ∧ ((s.portAt 31).spares (bitAt x 9)).getLsbD (fld y 8 4) = false) := by
  rintro y (rfl | rfl | rfl | rfl | rfl)
  · exact ⟨rangerTwo 511#64 0#64, .rwaveRead 0#3 false 7#6 (.reg 1#6) (.reg 2#6), 0#3, false, 7#6, .reg 1#6, .reg 2#6, 511#64, rfl, by decide +kernel,
      by decide +kernel, by decide +kernel, fun _ => by decide +kernel, List.Pairwise.nil, .inl rfl, by decide, by decide, fun h => absurd h (by decide), fun h => absurd h (by decide)⟩
  · exact ⟨rangerTwo 511#64 1#64, .rwaveRead 0#3 false 7#6 (.reg 1#6) (.reg 2#6), 0#3, false, 7#6, .reg 1#6, .reg 2#6, 511#64, rfl, by decide +kernel,
      by decide +kernel, by decide +kernel, fun _ => by decide +kernel, List.Pairwise.nil, .inl rfl, by decide, by decide, fun h => absurd h (by decide), fun h => absurd h (by decide)⟩
  · exact ⟨rangerTwo 511#64 2#64, .rwaveRead 0#3 false 7#6 (.reg 1#6) (.reg 2#6), 0#3, false, 7#6, .reg 1#6, .reg 2#6, 511#64, rfl, by decide +kernel,
      by decide +kernel, by decide +kernel, fun _ => by decide +kernel, List.Pairwise.nil, .inl rfl, by decide, by decide, fun h => absurd h (by decide), fun h => absurd h (by decide)⟩
  · exact ⟨rangerTwo 511#64 0x403#64, .rwaveRead 0#3 false 7#6 (.reg 1#6) (.reg 2#6), 0#3, false, 7#6, .reg 1#6, .reg 2#6, 511#64, rfl, by decide +kernel,
      by decide +kernel, by decide +kernel, fun _ => by decide +kernel, List.Pairwise.nil, .inl rfl, by decide, by decide, fun _ => by decide, fun h => absurd h (by decide)⟩
  · exact ⟨rangerTwo 511#64 0x303#64, .rwaveRead 0#3 false 7#6 (.reg 1#6) (.reg 2#6), 0#3, false, 7#6, .reg 1#6, .reg 2#6, 511#64, rfl, by decide +kernel,
      by decide +kernel, by decide +kernel, fun _ => by decide +kernel, List.Pairwise.nil, .inl rfl, by decide, by decide, fun h => absurd h (by decide), fun _ => by decide +kernel⟩

theorem test_witness_RangerLinkHostResults_revpost :
    ∃ (s : State) (p : BitVec 3) (a : Src) (x : Word), PredOn s p ∧ s.readS .int a = .ok x ∧ s.level = 2 ∧ x.toNat % 64 = 0 ∧
      x.toNat + 64 = s.core.decl.rawBytes ∧ s.port.events.length = 255 ∧ s.port.session = none :=
  ⟨{ rangerWith (BitVec.ofNat 64 (1024 * 1012 - 64)) [] with port := { ranger.port with events := List.replicate 255 0#512 } }, 0#3, .reg 1#6, _, rfl, rfl,
    by decide +kernel, by decide +kernel, by decide +kernel, by decide +kernel, rfl⟩

/-- A frame with 32 bytes that fills the raw region, none waiting, and one to send. -/
theorem test_witness_RangerLinkHostResults_rhframe :
    (∃ (s : State) (a b : Src) (x y : Word), s.readS .int a = .ok x ∧ s.readS .int b = .ok y ∧ s.level = 2 ∧ x.toNat + 32 = s.core.decl.rawBytes ∧
      bitAt y 0 = true ∧ s.port.frames = []) ∧
    (∃ (s : State) (a b : Src) (x y : Word) (f : Frame) (fs : List Frame), s.readS .int a = .ok x ∧ s.readS .int b = .ok y ∧ s.level = 2 ∧
      x.toNat + 32 ≤ s.core.decl.rawBytes ∧ bitAt y 0 = true ∧ s.port.frames = f :: fs ∧ x.toNat + 32 + f.payload.length = s.core.decl.rawBytes ∧
      cellsWf s.core.pad.bytes = true) ∧
    ∃ (s : State) (a b : Src) (x y : Word), s.readS .int a = .ok x ∧ s.readS .int b = .ok y ∧ s.level = 2 ∧
      (let n := bits (loadNat s.core.pad.bytes x.toNat 32) 64 32
       bitAt y 0 = false ∧ n ≤ 8192 ∧ x.toNat + 32 + n ≤ s.core.decl.rawBytes) :=
  ⟨⟨rangerWith (BitVec.ofNat 64 (1024 * 1012 - 32)) [], .reg 1#6, .imm 1#5, _, 1#64, rfl, rfl, by decide +kernel, by decide +kernel, by decide, rfl⟩,
    ⟨{ rangerWith (BitVec.ofNat 64 (1024 * 1012 - 33)) [] with port := { ranger.port with
        frames := [{ op := 1, tag := 0, status := 0, ver := 0, len := 1, rz := 0, arg0 := 0, arg1 := 0, payload := [7#8] }] } },
      .reg 1#6, .imm 1#5, _, 1#64, _, _, rfl, rfl, by decide +kernel, by decide +kernel, by decide, rfl, by decide +kernel, by decide +kernel⟩,
    ⟨rangerWith (BitVec.ofNat 64 (1024 * 1012 - 32)) [], .reg 1#6, .imm 0#5, _, 0#64, rfl, rfl, by decide +kernel, by decide, by decide +kernel, by decide +kernel⟩⟩

theorem test_witness_RangerLinkHostResults_rsigchk :
    ∃ (s : State) (p : BitVec 3) (w : Bool) (d : BitVec 6) (a : Src) (x : Word), PredOn s p ∧ s.readS .int a = .ok x ∧ s.level = 2 ∧
      (w = false → s.core.hasQueue (d.setWidth 3) = true) ∧ x.toNat + 128 = s.core.decl.rawBytes :=
  ⟨rangerWith (BitVec.ofNat 64 (1024 * 1012 - 128)) [], 0#3, false, 7#6, .reg 1#6, _, rfl, rfl, by decide +kernel, fun _ => rfl, by decide +kernel⟩

/-- Job 0 of the tests, its handle in a block at raw offset 0, under each operation. -/
theorem test_witness_RangerAccountResults :
    ∀ op : Nat, op ≤ 3 →
      ∃ (s : State) (i : Instr) (p : BitVec 3) (w : Bool) (d : BitVec 6) (a b : Src) (x y : Word),
        (i = .racctCreate p w d a b ∨ i = .racctAdd p w d a b ∨ i = .racctRelease p w d a b ∨ i = .racctCancel p w d a b) ∧ PredOn s p ∧
        s.readS .int a = .ok x ∧ s.readS .int b = .ok y ∧ s.level = 2 ∧ (w = false → s.core.hasQueue (d.setWidth 3) = true) ∧
        x.toNat + 64 ≤ s.core.decl.rawBytes ∧
        (let h : Handle := BitVec.ofNat 32 (loadNat s.core.pad.bytes x.toNat 64)
         fld y 0 2 = op ∧ s.freeId (fld h 0 3) = some 1 ∧ s.live h = true ∧ (s.accAt (accId h)).level = .job ∧ RisingKeys s.hub.accounts ∧
           (s.accAt (accId h)).st ≠ .done) := by
  intro op h
  match op, h with
  | 0, _ => exact ⟨ranger, _, 0#3, false, 7#6, .reg 1#6, .imm 0#5, _, 0#64, .inl rfl, rfl, rfl, rfl, by decide +kernel, fun _ => rfl, by decide +kernel,
      by decide, by decide +kernel, by decide +kernel, by decide +kernel, by unfold RisingKeys; decide +kernel, by decide +kernel⟩
  | 1, _ => exact ⟨ranger, _, 0#3, false, 7#6, .reg 1#6, .imm 1#5, _, 1#64, .inr (.inl rfl), rfl, rfl, rfl, by decide +kernel, fun _ => rfl, by decide +kernel,
      by decide, by decide +kernel, by decide +kernel, by decide +kernel, by unfold RisingKeys; decide +kernel, by decide +kernel⟩
  | 2, _ => exact ⟨ranger, _, 0#3, false, 7#6, .reg 1#6, .imm 2#5, _, 2#64, .inr (.inr (.inl rfl)), rfl, rfl, rfl, by decide +kernel, fun _ => rfl, by decide +kernel,
      by decide, by decide +kernel, by decide +kernel, by decide +kernel, by unfold RisingKeys; decide +kernel, by decide +kernel⟩
  | 3, _ => exact ⟨ranger, _, 0#3, false, 7#6, .reg 1#6, .imm 3#5, _, 3#64, .inr (.inr (.inr rfl)), rfl, rfl, rfl, by decide +kernel, fun _ => rfl, by decide +kernel,
      by decide, by decide +kernel, by decide +kernel, by decide +kernel, by unfold RisingKeys; decide +kernel, by decide +kernel⟩

theorem test_witness_RangerAccountResults_stale :
    ∃ (s : State) (b : Src) (y : Word), s.readS .int b = .ok y ∧ fld y 0 2 ≠ 0 ∧
      s.live (BitVec.ofNat 32 (loadNat s.core.pad.bytes 0 64)) = false :=
  ⟨{ ranger with hub := { ranger.hub with accounts := [] } }, .imm 1#5, 1#64, rfl, by decide, by decide +kernel⟩

/-! ### Device actions -/

/-- One withheld byte on a line read before. -/
theorem test_witness_IntervalActionResults_confirm :
    ∃ s : State, s.core.phase = .begun ∧ bitAt s.core.header 31 = true ∧ NoLoads s ∧ s.core.xlinvHit = false ∧ s.heldOff = false ∧
      s.renewable s.core.reads = true ∧ s.core.withheld.length = 1 ∧ (s.core.withheld.map WLine.pa).Nodup ∧ Memory.wf s.mem = true :=
  ⟨withC fun x => { x with phase := .begun, header := 0x80000000#32, withheld := [{ va := 0x100, pa := 0x100, data := 5#512, mask := 1#64 }], reads := [(0x100, 0#64)] },
    rfl, rfl, by unfold NoLoads; decide +kernel, rfl, by decide +kernel, by decide +kernel, rfl, by decide +kernel, by decide +kernel⟩

theorem test_witness_IntervalActionResults_anchor :
    (∃ (s : State) (c n : Nat) (rest : List Nat), c = s.cur ∧ s.hub.anchor = none ∧ s.hub.anchorQ = n :: rest ∧ c ∈ n :: rest ∧
      (∀ m ∈ n :: rest, (s.coreAt m).wantsAnchor = true)) ∧
    ∃ (s : State) (c g : Nat) (ls : List Nat), c = s.cur ∧ s.hub.anchor = some (c, g, ls) ∧ g + 16384 = s.time :=
  ⟨⟨(fun s : State => { s with core := { s.core with phase := .stalled, conflicts := 4 } }) (withH fun h => { h with anchorQ := [5] }), 5, 5, [], rfl, rfl, rfl,
      by decide, by
        intro m hm
        obtain rfl : m = 5 := by simpa using hm
        decide +kernel⟩,
    ⟨{ withH (fun h => { h with anchor := some (5, 0, [1]) }) with time := 16384 }, 5, _, _, rfl, rfl, rfl⟩⟩

theorem test_witness_IntervalActionResults_rollback :
    ∃ (s : State) (u : Nat) (k : Cause), s.core.unit = some u ∧ (k = Cause.leaseConflict ∨ k = Cause.xlinvReplay) :=
  ⟨demo, 1, .leaseConflict, rfl, .inl rfl⟩

/-- The bundle at the program counter is a Q bundle, and the unit has asked to leave. -/
def atQ (f : Core → Core) : State :=
  { withC fun x => f { x with yieldReq := true } with mem := demo.mem ++ [(0x10003, 0x40#8)] }

theorem test_witness_IntervalActionResults_preemption :
    ∃ (s : State) (c u : Nat) (y : Uni) (ps : List Nat), c = s.cur ∧ s.core.unit = some u ∧ s.unitAt u = some y ∧ (y.core = c ∧ s.circuitsInto u = false) ∧
      s.core.phase = .fresh ∧ bitAt s.nextHeader 30 = true ∧ s.core.fence = none ∧ s.leaves = true ∧ s.cancelling s.core.hold = false ∧ s.core.writesInFlight ≤ 64 ∧ NoLoads s ∧
      s.core.xlinvHit = false ∧ s.core.reads = [] ∧ s.core.preempt ≠ some .capacity ∧ s.slotPages s.core.part (stackOf c) y.evac 0 6 = .ok ps :=
  ⟨atQ id, 5, 1, uni0, [0x100000, 0x110000, 0x120000, 0x130000, 0x140000, 0x150000], rfl, rfl, rfl, by decide +kernel, rfl, by decide +kernel, rfl,
    by decide +kernel, by decide +kernel, by decide +kernel, by unfold NoLoads; decide +kernel, rfl, rfl, by decide +kernel, by decide +kernel⟩

/-- Unit 1 STANDBY on core 5. -/
def waiting (y : Uni) : State :=
  { demo with core := { core0 with unit := none, standby := some 1 }, hub := { demo.hub with units := [(1, y)] } }

theorem test_witness_IntervalActionResults_resume :
    ∃ (s : State) (c u : Nat) (y : Uni) (k : CtxKind) (ps : List Nat), c = s.cur ∧ s.core.unit = none ∧ s.core.standby = some u ∧ s.unitAt u = some y ∧
      y.ctx = some k ∧ s.cancelling y.hold = false ∧ y.eng.gl.toList.all GlHandle.over = true ∧ s.slotPages y.part (stackOf c) y.evac 0 6 = .ok ps :=
  ⟨waiting { uni0 with st := .standby, ctx := some .preempted }, 5, 1, _, _, [0x100000, 0x110000, 0x120000, 0x130000, 0x140000, 0x150000], rfl, rfl, rfl, rfl,
    rfl, by decide +kernel⟩

theorem test_witness_IntervalActionResults_stall :
    ∀ d : Nat, d = 0 ∨ d = 1 → ∃ (s : State) (n : Nat), s.core.stallFrom = some n ∧ bitAt s.core.header 30 = false ∧ s.cancelling s.core.hold = false ∧ s.core.preempt.isSome = true ∧
      s.time + d = n + 64 * s.core.qBound := by
  rintro d (rfl | rfl)
  · exact ⟨{ withC (fun x => { x with phase := .stalled, preempt := some .priority, stallFrom := some 7 }) with time := 7 + 64 * 8192 }, 7, rfl, rfl, by decide +kernel, rfl, rfl⟩
  · exact ⟨{ withC (fun x => { x with phase := .stalled, preempt := some .priority, stallFrom := some 7 }) with time := 6 + 64 * 8192 }, 7, rfl, rfl, by decide +kernel, rfl, rfl⟩

/-- A launch of a unit of PLACE `p`, pinned to core 255, the last. -/
def launched (p : Nat) : State :=
  withH fun h => { h with
    images := [(0, { units := [{ decl0 with spbytes := 0, stash := 0, rings := [] }] })]
    accounts := [(1, { st := .opn, level := .launch, out := 2 ^ 127, launch := some {
      unit := 0, prio := 1, place := p, policy := false, argshare := true, pin := 255, args := 0x3000#64, ext0 := 1, ext1 := 1, ext2 := 1, salt := 0#64,
      evac := 0x100000#64, nexts := List.replicate 8 0, given := 0, quads := List.range 32, waiting := false, starts := none, slotSize := 0, nBase := 1, pts := 0#64 } })] }

/-- Dispatcher 7 places the unit; the queue of its core full, it waits; a launch that is spread has its unit at another dispatcher. -/
theorem test_witness_DispatchActionResults_launch :
    (∃ (s : State) (i d k : Nat) (a : Account) (l : LaunchInfo), i < 16384 ∧ a = s.accAt i ∧ a.launch = some l ∧ a.st = .opn ∧ l.nextOf d + 1 = l.count ∧
      l.waiting = false ∧
      (let x := s.unitOfLaunch (accHandle i a) a.part l (l.nextOf d)
       l.dispatcher x = d ∧ s.placeOf a.part x.spot x.s8 x.s9 x.s10 x.decl.rows = some k)) ∧
    (∃ (s : State) (i d : Nat) (a : Account) (l : LaunchInfo), i < 16384 ∧ a = s.accAt i ∧ a.launch = some l ∧ a.st = .opn ∧ l.nextOf d + 1 = l.count ∧
      l.waiting = false ∧
      (let x := s.unitOfLaunch (accHandle i a) a.part l (l.nextOf d)
       l.dispatcher x = d ∧ s.placeOf a.part x.spot x.s8 x.s9 x.s10 x.decl.rows = none)) ∧
    ∃ (s : State) (i d : Nat) (a : Account) (l : LaunchInfo), i < 16384 ∧ a = s.accAt i ∧ a.launch = some l ∧ a.st = .opn ∧ l.nextOf d + 1 = l.count ∧
      l.waiting = false ∧ l.dispatcher (s.unitOfLaunch (accHandle i a) a.part l (l.nextOf d)) ≠ d ∧ l.place = 0 :=
  ⟨⟨launched 1, 1, 7, 255, _, _, by decide, rfl, rfl, rfl, rfl, rfl, by decide +kernel⟩,
    ⟨{ launched 1 with others := [(255, { queue := List.range 64 })] }, 1, 7, _, _, by decide, rfl, rfl, rfl, rfl, rfl, by decide +kernel⟩,
    ⟨launched 0, 1, 1, _, _, by decide, rfl, rfl, rfl, rfl, rfl, by decide +kernel⟩⟩

/-- A unit created by a trigger, and one put off its core with its context saved. -/
theorem test_witness_DispatchActionResults_created :
    ∀ k : Option CtxKind, k = none ∨ k = some .preempted →
      ∃ (s : State) (u c : Nat) (x : Uni), s.unitAt u = some x ∧ x.st = .created ∧ x.spot.wait = false ∧ s.cancelling x.hold = false ∧
        s.placeOf x.part x.spot x.s8 x.s9 x.s10 x.decl.rows = some c ∧ x.ctx = k := by
  rintro k (rfl | rfl)
  · exact ⟨withH fun h => { h with units := [(1, { uni0 with st := .created, spot := { pin := 255 } })] }, 1, 255, _, rfl, rfl, rfl, by decide +kernel⟩
  · exact ⟨withH fun h => { h with units := [(1, { uni0 with st := .created, spot := { pin := 255 }, ctx := some .preempted })] }, 1, 255, _, rfl, rfl, rfl,
      by decide +kernel⟩

/-- Unit 1 in the queue of core 7, with rows or a block of arguments. -/
def queued (f : Uni → Uni) : State :=
  { demo with others := [(7, { queue := [1] })], hub := { demo.hub with units := [(1, f { uni0 with st := .queued, core := 7, rows := 64 })] } }

theorem test_witness_DispatchActionResults_admit :
    ∃ (s : State) (c u : Nat) (x : Uni) (ws : List Word), (s.coreAt c).waitingMsgs = [] ∧ s.selected c = some (u, x) ∧ (s.coreAt c).standby = none ∧
      (0 < x.rows ∨ x.decl.rows = 0 ∨ s.rowsFit c x.decl.rows = true) ∧ x.spilled = false ∧ RisingKeys s.hub.units ∧ s.argBlock c x = .ok ws :=
  ⟨queued id, 7, 1, { uni0 with st := .queued, core := 7, rows := 64 }, List.replicate 8 0#64, rfl, by decide +kernel, rfl, .inl (by decide), rfl, by unfold RisingKeys; decide +kernel,
    by decide +kernel⟩

theorem test_witness_DispatchActionResults_start :
    ∃ (s : State) (c u : Nat) (y : Uni), c = s.cur ∧ s.core.unit = none ∧ s.core.standby = some u ∧ s.unitAt u = some y ∧ s.hub.noAdmit = false ∧ y.ctx = none ∧
      s.cancelling y.hold = false :=
  ⟨waiting { uni0 with st := .standby }, 5, 1, _, rfl, rfl, rfl, rfl, by decide +kernel⟩

theorem test_witness_DispatchActionResults_cancel :
    ∃ (s : State) (c u : Nat) (x : Uni), s.unitAt u = some x ∧ x.st ≠ .ended ∧ x.st ≠ .running ∧ RisingKeys s.hub.units ∧ u < s.hub.nextUnit ∧ x.hold.value ≠ 0 ∧
      RisingKeys s.hub.freedRows ∧ c = 255 ∧ x.ctx = none ∧ x.handler = none :=
  ⟨queued id, 255, 1, { uni0 with st := .queued, core := 7, rows := 64 }, rfl, by decide, by decide, by unfold RisingKeys; decide +kernel, by decide, by decide +kernel, by unfold RisingKeys; decide +kernel,
    rfl, rfl, rfl⟩

/-- A unit stalled on a borrow whose account can take 2^63 more, cannot, or is done. -/
theorem test_witness_WeightActionResults_borrow :
    ∀ n : Nat, n = 2 ^ 127 ∨ n = 2 ^ 128 - 2 ^ 63 →
      ∃ (s : State) (h : Handle) (c : Nat) (x : Core), x = s.coreAt c ∧ x.phase = .stalled ∧ x.borrow = .idle ∧ x.hold.valid = true ∧ x.hold.acct = h ∧
        x.hold.exp = 127#7 ∧ x.hold.pkg = s.fabric.num ∧ s.live h = true ∧ (s.accAt (accId h)).out = n ∧ (s.accAt (accId h)).st = .opn := by
  rintro n (rfl | rfl)
  · exact ⟨(fun s : State => { s with core := { s.core with phase := .stalled, hold := { hold0 with exp := 127#7 } } })
        (withH fun h => { h with accounts := [(0, { st := .opn, out := 2 ^ 127 })] }), 0#32, 5, _, rfl, by decide +kernel⟩
  · exact ⟨(fun s : State => { s with core := { s.core with phase := .stalled, hold := { hold0 with exp := 127#7 } } })
        (withH fun h => { h with accounts := [(0, { st := .opn, out := 2 ^ 128 - 2 ^ 63 })] }), 0#32, 5, _, rfl, by decide +kernel⟩

theorem test_witness_WeightActionResults_reply :
    ∃ (s : State) (h : Handle) (c u : Nat) (x : Core), x = s.coreAt c ∧ x.borrow = .asked ∧ x.hold.acct = h ∧ c = s.cur ∧ x.unit = some u ∧
      RisingKeys s.hub.units ∧ u < s.hub.nextUnit :=
  ⟨withC fun x => { x with borrow := .asked }, 0#32, 5, 1, _, rfl, by decide +kernel, by decide +kernel, rfl, by decide +kernel, by unfold RisingKeys; decide +kernel, by decide⟩

/-- A combiner with 32 entries of accounts 100 and up. -/
def combined : State :=
  withH fun h => { h with
    combs := [(5, (List.range 32).map fun i => { acct := BitVec.ofNat 32 (100 + i), pkg := 0#16, sum := 1, taint := false, pts := 0#64 })]
    accounts := [(0, { st := .opn, level := .job, out := 2 ^ 124 })] }

/-- A return to a full combiner, of an account it has and of one it has not, and a return home of all that is out, of less and of more. -/
theorem test_witness_WeightActionResults_returns :
    ∀ v : Nat, v = 2 ^ 123 ∨ v = 2 ^ 124 ∨ v = 2 ^ 125 →
      ∃ (s : State) (r : Ret) (h : Handle), RisingKeys s.hub.combs ∧ s.live h = true ∧ (s.combAt 5).length = 32 ∧ r.pkg = s.fabric.num ∧ s.live r.acct = true ∧
        (s.accAt (accId r.acct)).st ≠ .done ∧ r.value = v ∧ (s.accAt (accId r.acct)).out = 2 ^ 124 ∧ (s.accAt (accId r.acct)).released = false := by
  rintro v (rfl | rfl | rfl)
  · exact ⟨combined, ⟨0#32, 0#16, 2 ^ 123, false, 0#64⟩, 0#32, by unfold RisingKeys; decide +kernel, by decide +kernel, by decide +kernel, rfl, by decide +kernel, by decide +kernel, rfl,
      by decide +kernel, by decide +kernel⟩
  · exact ⟨combined, ⟨0#32, 0#16, 2 ^ 124, false, 0#64⟩, 0#32, by unfold RisingKeys; decide +kernel, by decide +kernel, by decide +kernel, rfl, by decide +kernel, by decide +kernel, rfl,
      by decide +kernel, by decide +kernel⟩
  · exact ⟨combined, ⟨0#32, 0#16, 2 ^ 125, false, 0#64⟩, 0#32, by unfold RisingKeys; decide +kernel, by decide +kernel, by decide +kernel, rfl, by decide +kernel, by decide +kernel, rfl,
      by decide +kernel, by decide +kernel⟩

theorem test_witness_WeightActionResults_combiner :
    ∃ (s : State) (r q : Ret), (∃ e ∈ s.combAt 5, e.sameAs r) ∧ (∀ e ∈ s.combAt 5, ¬ e.sameAs q) ∧ q.pkg ≠ s.fabric.num := by
  refine ⟨combined, ⟨131#32, 0#16, 1, false, 0#64⟩, ⟨131#32, 1#16, 1, false, 0#64⟩,
    ⟨⟨131#32, 0#16, 1, false, 0#64⟩, by decide +kernel, by decide, by decide⟩, ?_, by decide⟩
  intro e he h
  have hp : (combined.combAt 5).all (fun e => decide (e.pkg = 0#16)) = true := by decide +kernel
  have := of_decide_eq_true (List.all_eq_true.mp hp e he)
  exact absurd (this.symm.trans h.2) (by decide)

/-- A message of label 7 for core 5, or another. -/
def msg (label : BitVec 16) (core : BitVec 8) : Message :=
  { label := label, dcore := core, remote := false, dpkg := 0#16, payload := 1#512, srcCore := 9, unit := 9, srcPkg := 0#16, part := 0, podid := 0#16,
    tok := { acct := 0#32, pkg := 0#16, exp := 4#7 }, pts := 3#64, seq := 1 }

theorem test_witness_MessageActionResults_refused :
    ∃ (s : State) (m : Message), s.overtakes m = false ∧ s.ownerOfQuad (quadOf m.dcore.toNat) ≠ s.messagePart m :=
  ⟨withH fun h => { h with parts := h.parts.set 0 { part0 with quads := 1#32 } }, msg 7#16 255#8, by decide +kernel, by decide +kernel⟩

/-- Core 5 with 15 messages of another sender waiting. -/
def crowded : State := withC fun x => { x with arrivals := List.replicate 15 ({ msg 8#16 5#8 with srcCore := 10, unit := 10 }, 0) }

/-- Labels 0xFFFF and 7 at core 5, with 15 messages waiting there. -/
theorem test_witness_MessageActionResults_taken :
    ∀ l : BitVec 16, l = 0xFFFF#16 ∨ l = 7#16 →
      ∃ (s : State) (m : Message), m.label = l ∧ s.overtakes m = false ∧ s.messagePart m ≠ none ∧ s.ownerOfQuad (quadOf m.dcore.toNat) = s.messagePart m ∧
        (∀ k ∈ (s.coreAt m.dcore.toNat).waitingMsgs, sameStream m k.1 = false) ∧ (s.coreAt m.dcore.toNat).trigOf m = none ∧
        (s.coreAt m.dcore.toNat).arrivals.length = 15 ∧ (s.coreAt m.dcore.toNat).held = [] := by
  rintro l (rfl | rfl)
  · exact ⟨crowded, msg 0xFFFF#16 5#8, rfl, by decide +kernel, by decide +kernel, by decide +kernel, fun k hk => (by
      have hk' : k ∈ List.replicate 15 ({ msg 8#16 5#8 with srcCore := 10, unit := 10 }, 0) := by simpa using (show k ∈ List.replicate 15 _ ++ [] from hk)
      rw [List.eq_of_mem_replicate hk']; decide +kernel), by decide +kernel⟩
  · exact ⟨crowded, msg 7#16 5#8, rfl, by decide +kernel, by decide +kernel, by decide +kernel, fun k hk => (by
      have hk' : k ∈ List.replicate 15 ({ msg 8#16 5#8 with srcCore := 10, unit := 10 }, 0) := by simpa using (show k ∈ List.replicate 15 _ ++ [] from hk)
      rw [List.eq_of_mem_replicate hk']; decide +kernel), by decide +kernel⟩

theorem test_witness_MessageActionResults_matched :
    ∃ (s : State) (m : Message) (g : Trigger), s.overtakes m = false ∧ s.messagePart m ≠ none ∧ s.ownerOfQuad (quadOf m.dcore.toNat) = s.messagePart m ∧
      (∀ k ∈ (s.coreAt m.dcore.toNat).waitingMsgs, sameStream m k.1 = false) ∧ m.label ≠ 0xFFFF#16 ∧ (s.coreAt m.dcore.toNat).trigOf m = some g ∧
      s.cancelling (Tok.hold m.tok) = false ∧ s.queueRoom m.dcore.toNat = true :=
  ⟨withC fun x => { x with trigs := Vector.ofFn fun i => if i.val = 15 then some {
      label := 7#16, unit := 0, prio := 0, bar := none, tok := { acct := 0#32, pkg := 0#16, exp := 4#7 }, pair := false, part := 0, pts := 0#64 } else none },
    msg 7#16 5#8, { label := 7#16, unit := 0, prio := 0, bar := none, tok := { acct := 0#32, pkg := 0#16, exp := 4#7 }, pair := false, part := 0, pts := 0#64 },
    by decide +kernel, by decide +kernel, by decide +kernel, fun k hk => (by cases hk), by decide, by decide +kernel⟩

/-- Sixteen messages of which one has waited 2^20 steps. -/
theorem test_witness_MessageActionResults_timeout :
    ∃ (s : State) (m : Message), s.overtakes m = false ∧ RisingKeys s.others ∧ (s.coreAt m.dcore.toNat).held = [] ∧
      (s.coreAt m.dcore.toNat).arrivals.length = 16 ∧ (m, 0) ∈ (s.coreAt m.dcore.toNat).arrivals ∧ 2 ^ 20 ≤ s.time :=
  ⟨{ withC fun x => { x with arrivals := (msg 7#16 5#8, 0) :: List.replicate 15 (msg 8#16 5#8, 1) } with time := 2 ^ 20 }, msg 7#16 5#8, by decide +kernel,
    by unfold RisingKeys; decide +kernel, by decide +kernel, by decide +kernel, List.mem_cons_self, by decide⟩

/-- A transfer of unit 1 on channel `n`, numbered 1, of the record `r`. -/
def moving (n : Nat) (r : Nat) (f : Xfer → Xfer) (g : State → State) : State :=
  g (withH fun h => { h with xfers := [(1, f (newXfer hold0 1 5 0 n 7#32 0x3000#64 (BitVec.ofNat 512 r)))], nextXfer := 2 })

/-- To memory; to a ring too small by a byte, exactly free, and one byte short of room. -/
theorem test_witness_ChunkActionResults_reserve :
    (∃ (s : State) (x : Nat) (f : Xfer), s.xferAt x = some f ∧ f.started = false ∧ f.heldGet = false ∧ f.faulted = false ∧ f.tok = none ∧ recDstSp f.record ≠ 2) ∧
    (∃ (s : State) (x u : Nat) (f : Xfer), s.xferAt x = some f ∧ f.started = false ∧ f.heldGet = false ∧ f.faulted = false ∧ f.tok = none ∧ recDstSp f.record = 2 ∧
      s.recFar f.record = false ∧ s.landOf f = some u ∧ (s.declOf u).ringLen (recRing f.record) + 1 = recLen f.record) ∧
    ∃ (s : State) (x u : Nat) (f : Xfer), s.xferAt x = some f ∧ f.started = false ∧ f.heldGet = false ∧ f.faulted = false ∧ f.tok = none ∧ recDstSp f.record = 2 ∧
      s.recFar f.record = false ∧ s.landOf f = some u ∧ recLen f.record = (s.declOf u).ringLen (recRing f.record) ∧
      swzMisfit (recSwizzle f.record) ((s.declOf u).ringLen (recRing f.record)) = false ∧ s.behindAnother x u (recRing f.record) = false ∧ u ≠ 0 ∧ (s.unitAt u).isSome = true :=
  ⟨⟨moving 0 record0 id id, 1, _, rfl, rfl, rfl, rfl, rfl, by decide +kernel⟩,
    ⟨moving 0 (8193 * 2 ^ 32 + 2 * 2 ^ 13 + 2 ^ 29) id id, 1, 1, _, rfl, rfl, rfl, rfl, rfl, by decide +kernel⟩,
    ⟨moving 0 (8192 * 2 ^ 32 + 2 * 2 ^ 13 + 2 ^ 29) id id, 1, 1, _, rfl, rfl, rfl, rfl, rfl, by decide +kernel, by decide +kernel, by decide +kernel, by decide +kernel,
      by decide +kernel, by decide +kernel, by decide, rfl⟩⟩

/-- A copy of 4 bytes from address 0 to 0x3000, and the same as a reduction, fresh and done before. -/
theorem test_witness_ChunkActionResults_chunk :
    (∃ (s : State) (x lo : Nat) (f : Xfer) (ps qs : List Nat), PlainChunk s x lo f ps qs ∧ recOp f.record = 0 ∧ f.todo.erase lo = [] ∧ f.chan < 8) ∧
    (∃ (s : State) (x lo : Nat) (f : Xfer) (ps qs : List Nat) (as : List Applied), PlainChunk s x lo f ps qs ∧ recOp f.record ≠ 0 ∧
      noteApplied { (s.landerOf x f).key with slice := s.homeOf (qs.headD 0) } lo s.hub.applied = some (true, as) ∧ 8 ≤ f.chan ∧ f.isGet = true) ∧
    ∃ (s : State) (x lo : Nat) (f : Xfer) (ps qs : List Nat) (as : List Applied), PlainChunk s x lo f ps qs ∧ recOp f.record ≠ 0 ∧
      noteApplied { (s.landerOf x f).key with slice := s.homeOf (qs.headD 0) } lo s.hub.applied = some (false, as) := by
  refine ⟨⟨moving 7 record0 id id, 1, 0, newXfer hold0 1 5 0 7 7#32 0x3000#64 (BitVec.ofNat 512 record0), [0, 1, 2, 3], [0x3000, 0x3001, 0x3002, 0x3003], ?_, ?_, ?_, ?_⟩,
    ⟨moving 8 (record0 + 2) (fun t => { t with isGet := true }) id, 1, 0, { newXfer hold0 1 5 0 8 7#32 0x3000#64 (BitVec.ofNat 512 (record0 + 2)) with isGet := true },
      [0, 1, 2, 3], [0x3000, 0x3001, 0x3002, 0x3003], [{ slice := demo.homeOf 0x3000, spkg := 0#16, score := 5, chan := 8, tid := 7#32, xfer := 1, chunks := [0] }], ?_, ?_, ?_, ?_, ?_⟩,
    ⟨moving 7 (record0 + 2) id fun s => { s with hub := { s.hub with applied := [{ slice := demo.homeOf 0x3000, spkg := 0#16, score := 5, chan := 7, tid := 7#32, xfer := 1, chunks := [0] }] } },
      1, 0, newXfer hold0 1 5 0 7 7#32 0x3000#64 (BitVec.ofNat 512 (record0 + 2)), [0, 1, 2, 3], [0x3000, 0x3001, 0x3002, 0x3003],
      [{ slice := demo.homeOf 0x3000, spkg := 0#16, score := 5, chan := 7, tid := 7#32, xfer := 1, chunks := [0] }], ?_, ?_, ?_⟩⟩
  all_goals first
    | decide +kernel
    | (unfold PlainChunk; decide +kernel)

/-- Channel 7 at a record at 0x3000 with three in flight and one left under its limit, owned or not. -/
def channel (own : Nat) (h : Chan) : State :=
  { withC fun x => { x with chans := vput x.chans 7 h } with mem := cellsSet demo.mem 0x3000 (toBytes 64 (record0 + own)) }

theorem test_witness_ChannelActionResults_take :
    ∀ own : Nat, own = 0 ∨ own = 1 →
      ∃ (s : State) (u n c pa : Nat) (y : Uni), u ≠ 0 ∧ n = 7 ∧ s.unitAt u = some y ∧ s.runsOn u = some c ∧ (s.chanAt u n).walking = true ∧ (s.chanAt u n).error = false ∧
        (s.chanAt u n).owned.length = 3 ∧ ¬ ((s.chanAt u n).limited = true ∧ (s.chanAt u n).limit = 0#32) ∧ s.weakRead c y.part (s.chanAt u n).head 64 = .ok (upFrom pa 64) ∧
        (let r : Block := BitVec.ofNat 512 (s.readNat pa 64)
         recOwn r = decide (own = 1) ∧ recInvalid r (s.declOf u).rawBytes true = false) := by
  rintro own (rfl | rfl)
  · exact ⟨channel 0 { head := 0x3000#64, walking := true, owned := [9, 8, 7], limited := true, limit := 1#32 }, 1, 7, 5, 0x3000, uni0, by decide, rfl, rfl, by decide +kernel⟩
  · exact ⟨channel 1 { head := 0x3000#64, walking := true, owned := [9, 8, 7], limited := true, limit := 1#32 }, 1, 7, 5, 0x3000, uni0, by decide, rfl, rfl, by decide +kernel⟩

theorem test_witness_ChannelActionResults_shadow :
    ∃ (s : State) (u n c : Nat) (a : Word) (b : BitVec 32), s.runsOn u = some c ∧ (s.chanAt u n).pending = some (a, b) ∧ (s.chanAt u n).chainOver = true :=
  ⟨channel 0 { pending := some (0x3000#64, 1#32) }, 1, 7, 5, 0x3000#64, 1#32, by decide +kernel⟩

theorem test_witness_ChannelActionResults_complete :
    ∃ (s : State) (x : Nat) (f : Xfer) (pa : Nat) (y : Uni), s.xferAt x = some f ∧ f.unit = 1 ∧ f.chan = 7 ∧ s.unitAt 1 = some y ∧ y.st ≠ .ended ∧
      s.weakAccess f.core f.part f.raddr true = .ok pa ∧ s.struck (upFrom pa 64) = none ∧ pa % 64 = 0 ∧ Memory.wf s.mem = true ∧ RisingKeys s.hub.xfers ∧ (s.chanAt 1 7).ahead = [] :=
  ⟨moving 7 record0 id id, 1, newXfer hold0 1 5 0 7 7#32 0x3000#64 (BitVec.ofNat 512 record0), 0x3000, _, rfl, rfl, rfl, rfl, by decide, by decide +kernel, rfl, by decide, by decide +kernel,
    by unfold RisingKeys; decide +kernel, by decide +kernel⟩

/-- The weak trap record of unit 1 goes to the head of its slot, 0x100000; fifteen traps wait at its core. -/
theorem canRecord (g : State → State) (h : (g demo).core.trapq.length < 16 ∧ (g demo).cur = 5 ∧ (g demo).hub.nextUnit = 2 ∧ (g demo).hub.units = [(1, uni0)])
    (h1 : (g demo).slotPages 0 0 0x100000#64 0 1 = .ok [0x100000]) (h2 : Memory.wf (g demo).mem = true) : CanRecord (g demo) 1 uni0 0x100000 :=
  ⟨by decide, by rw [h.2.2.1]; decide, by rw [h.2.2.2]; unfold RisingKeys; decide, by unfold State.unitAt; rw [h.2.2.2]; rfl, by decide, .inl rfl, h1,
    by unfold State.coreAt; rw [h.2.1]; exact h.1, .inl rfl, h2⟩

theorem test_witness_ChannelActionResults_fault :
    ∃ (s : State) (x p : Nat) (f : Xfer), s.xferAt x = some f ∧ f.unit = 1 ∧ f.chan = 7 ∧ f.faulted = false ∧ CanRecord s 1 uni0 p :=
  ⟨moving 7 record0 id id, 1, 0x100000, newXfer hold0 1 5 0 7 7#32 0x3000#64 (BitVec.ofNat 512 record0), rfl, rfl, rfl, rfl,
    canRecord (fun s => { s with hub := { s.hub with xfers := _, nextXfer := 2 } }) (by decide +kernel) (by decide +kernel) (by decide +kernel)⟩

theorem test_witness_EngineActionResults_fault :
    ∀ g : Bool, ∃ (s : State) (x p : Nat) (f : Xfer), s.xferAt x = some f ∧ f.unit = 1 ∧ f.chan = 8 ∧ RisingKeys s.hub.xfers ∧ f.faulted = false ∧ f.ring = none ∧ f.isGet = g ∧
      CanRecord s 1 uni0 p := by
  intro g
  cases g
  · exact ⟨moving 8 record0 id id, 1, 0x100000, newXfer hold0 1 5 0 8 7#32 0x3000#64 (BitVec.ofNat 512 record0), rfl, rfl, rfl, by unfold RisingKeys; decide +kernel, rfl, rfl, rfl,
      canRecord (fun s => { s with hub := { s.hub with xfers := _, nextXfer := 2 } }) (by decide +kernel) (by decide +kernel) (by decide +kernel)⟩
  · exact ⟨moving 8 record0 (fun t => { t with isGet := true }) id, 1, 0x100000, { newXfer hold0 1 5 0 8 7#32 0x3000#64 (BitVec.ofNat 512 record0) with isGet := true }, rfl, rfl, rfl,
      by unfold RisingKeys; decide +kernel, rfl, rfl, rfl,
      canRecord (fun s => { s with hub := { s.hub with xfers := _, nextXfer := 2 } }) (by decide +kernel) (by decide +kernel) (by decide +kernel)⟩

theorem test_witness_EngineActionResults_get :
    ∃ (s : State) (x c id : Nat) (f : Xfer), s.xferAt x = some f ∧ f.chan = 8 ∧ f.isGet = true ∧ s.runsOn f.unit = some c ∧ f.entry = some id ∧ RisingKeys s.others ∧
      RisingKeys s.hub.xfers :=
  ⟨moving 8 record0 (fun t => { t with isGet := true, entry := some 1, bad := true }) id, 1, 5, 1, _, rfl, rfl, rfl, by decide +kernel, rfl, by unfold RisingKeys; decide +kernel,
    by unfold RisingKeys; decide +kernel⟩

/-- An operation with MODE 1 of queue 7, and one refused. -/
theorem test_witness_EngineActionResults_start :
    ∀ cfg : BitVec 128, cfg = 0x1D#128 ∨ cfg = 0x1E#128 →
      ∃ (s : State) (u c : Nat) (src : BitVec 128) (y : Uni), u ≠ 0 ∧ s.unitAt u = some y ∧ s.runsOn u = some c ∧ (s.sixAt u).run = none ∧ (s.sixAt u).shadow = some (src, cfg) := by
  rintro cfg (rfl | rfl)
  · exact ⟨withC fun x => { x with six := { shadow := some (0#128, 0x1D#128) } }, 1, 5, 0#128, uni0, by decide, rfl, by decide +kernel⟩
  · exact ⟨withC fun x => { x with six := { shadow := some (0#128, 0x1E#128) } }, 1, 5, 0#128, uni0, by decide, rfl, by decide +kernel⟩

/-- A bit mask of one byte at raw offset 0 whose 8 bits make lanes 120 to 127, and one that ends after it. -/
def sixOp (n : Nat) : SixOp :=
  { src := BitVec.ofNat 128 n <<< 64, cfg := 0x11C#128, pos := 8, bytePos := 0, runLeft := 0, lanes := List.replicate 128 0#32 }

theorem test_witness_EngineActionResults_push :
    (∃ (s : State) (u c : Nat) (o g : SixOp), s.runsOn u = some c ∧ (s.sixAt u).run = some o ∧
      (if o.mode = 0 then (s.noteSix u c o).readBits u c 1024 o else (s.noteSix u c o).readRuns u c 1024 o) = .full g ∧ g.cfg = o.cfg ∧ (s.coreAt c).sixMay g 128 = true) ∧
    ∃ (s : State) (u c : Nat) (o g : SixOp), s.runsOn u = some c ∧ (s.sixAt u).run = some o ∧
      (if o.mode = 0 then (s.noteSix u c o).readBits u c 1024 o else (s.noteSix u c o).readRuns u c 1024 o) = .over g ∧ g.cfg = o.cfg ∧ (s.coreAt c).sixMay g g.lanes.length = true :=
  ⟨⟨withC fun x => { x with issuedN := 128, six := { run := some (sixOp 2) } }, 1, 5, sixOp 2, sixOp 2, by decide +kernel, by decide +kernel,
      (if_pos (by decide +kernel)).trans (by rw [State.readBits, if_pos (by decide +kernel)]), rfl, by decide +kernel⟩,
    ⟨withC fun x => { x with issuedN := 128, six := { run := some { sixOp 1 with lanes := [3#32] } } }, 1, 5, { sixOp 1 with lanes := [3#32] }, { sixOp 1 with lanes := [3#32] },
      by decide +kernel, by decide +kernel, (if_pos (by decide +kernel)).trans (by rw [State.readBits, if_neg (by decide), if_pos (by decide)]), rfl, by decide +kernel⟩⟩

theorem test_witness_EngineActionResults_six :
    ∃ (s : State) (p : Nat), (s.sixAt 1).run.isSome = true ∧ CanRecord s 1 uni0 p :=
  ⟨withC fun x => { x with six := { run := some (sixOp 2) } }, 0x100000, by decide +kernel,
    canRecord (fun s => { s with core := { s.core with six := { run := some (sixOp 2) } } }) (by decide +kernel) (by decide +kernel) (by decide +kernel)⟩

/-- A queue with one load of a byte at 0x3000 outstanding. -/
def loading : State :=
  withC fun x => { x with q := vput x.q 7 { entries := [
    { val := .scalar 0#64, mask := 0#128, filled := false, kind := .load, id := 0, old := false,
      req := some { bytes := [(0x3000, none)], fmt := .scalar false, after := false } }] } }

theorem test_witness_LoadActionResults_fill :
    ∃ (s : State) (c q : Nat) (r : LoadReq), (s.coreAt c).oldestLoad = some (q, r) ∧ (∀ l ∈ r.lines, s.badLine l = false) ∧ RisingKeys s.hub.ts :=
  ⟨loading, 5, 7, { bytes := [(0x3000, none)], fmt := .scalar false, after := false }, by decide +kernel, by decide +kernel, by unfold RisingKeys; decide +kernel⟩

/-- Line 15 of row 3, bound to the last KiB of the page. -/
theorem test_witness_LoadActionResults_stash :
    ∃ (s : State) (c row line pa : Nat) (a : Word) (z : State), line < 16 ∧ NatMap.find row (s.coreAt c).arch.bound = some a ∧
      s.access c (a + BitVec.ofNat 64 (64 * line)) false true = .ok (pa, z) ∧ s.badLine (lineOf pa) = false ∧ cellsWf (s.coreAt c).pad.bytes = true :=
  ⟨stashed 0#64, 5, 3, 15, 0x3FFFFFC0, 0x3FFFFC00#64, _, by decide, by decide +kernel, rfl, by decide +kernel, by decide +kernel⟩

/-- A stash line at a physical line whose bytes of a mask are dirty under colour 7. -/
def stashLine (pa : Nat) (filled : Bool) (m : BitVec 64) : StashLine :=
  { pa := pa, filled := filled, wts := 0#64, lease := 64#64, dirty := (Vector.replicate 8 0#64).set 7 m }

/-- A line that was never filled, and one that was. -/
theorem test_witness_LoadActionResults_writeback :
    ∃ (s : State) (c u row : Nat) (y : Uni), s.runsOn u = some c ∧ u ≠ 0 ∧ s.unitAt u = some y ∧ y.spilled = false ∧ Memory.wf s.mem = true ∧
      RisingKeys (s.coreAt c).pad.lines ∧ ((s.coreAt c).pad.rowLines row).length = 2 ∧ (((s.coreAt c).pad.rowLines row).map (·.2.pa)).Nodup :=
  ⟨withC fun x => { x with pad := { x.pad with lines := [(48, stashLine 0xC0 false 1#64), (63, stashLine 0xC1 true 1#64)] } },
    5, 1, 3, uni0, by decide +kernel, by decide, rfl, rfl, by decide +kernel, by unfold RisingKeys; decide +kernel, by decide +kernel, by decide +kernel⟩

theorem test_witness_HubActionResults_region :
    ∃ (s : State) (r : Nat) (touched : List Nat) (wrote : Bool) (since : Nat), RisingKeys s.others ∧
      NatMap.find r s.hub.regions = some (.ft touched wrote since) ∧ s.time = since + 65536 :=
  ⟨{ withH (fun h => { h with regions := [(3, .ft [0] true 0)] }) with time := 65536 }, 3, [0], true, 0, by unfold RisingKeys; decide +kernel, by decide +kernel, rfl⟩

theorem test_witness_HubActionResults_art : ∃ (i : Nat) (e : BitVec 256), i = 63 ∧ bitAt e 0 = true ∧ artValid e = false := ⟨63, 1#256, rfl, by decide, by decide⟩

/-- The 256th leaf. -/
theorem test_witness_HubActionResults_walk :
    ∃ (s : State) (c : Nat) (va : Word) (l : Leaf), fld va 48 16 = 0 ∧ cachedLeaf (s.coreAt c).tlb (s.coreAt c).part va.toNat = none ∧
      s.walk (s.coreAt c).part va = some l ∧ (s.coreAt c).tlb.length = 255 ∧ s.hub.tdir.length < 65536 :=
  ⟨withC fun x => { x with tlb := List.replicate 255 { part := 1, va := 0, size := 65536, pa := 0, attr := 2#2, stack := 0 } }, 5, 0x3FFFFFFF#64,
    { part := 0, va := 0, size := 2 ^ 30, pa := 0, attr := 2#2, stack := 0 }, by decide, by decide +kernel⟩

theorem test_witness_HubActionResults_ack :
    ∃ (s : State) (k : Nat), k = 7 ∧ (∀ c, 32 * k ≤ c → c < 32 * k + 32 → (s.coreAt c).xlinvHit = false) := by
  refine ⟨demo, 7, rfl, fun c h1 h2 => ?_⟩
  have : (s : State) → s = demo → (s.coreAt c).xlinvHit = false := by
    rintro s rfl
    unfold State.coreAt
    rw [if_neg (by show ¬ c = 5; omega)]
    rfl
  exact this demo rfl

/-- Partition 0 gives up what it held of quadrant 31, which is idle. -/
theorem test_witness_HubActionResults_drain :
    ∃ (s : State) (p : Nat) (new : PartDesc), p < 8 ∧ (s.hub.grants.find? fun g => decide (g.1 = p)) = some (p, new) ∧
      ((s.partAt p).quadsLost new).all s.quadIdle = true ∧ ((s.partAt p).quadsLost new) = [31] ∧ (s.partAt p).windowsWithin new = true ∧
      (∀ i a, (i, a) ∈ s.hub.accounts → a.st = .free ∨ (s.partAt p).hasAcct i = false ∨ new.hasAcct i = true) := by
  refine ⟨withH fun h => { h with grants := [(0, { part0 with quads := 0x7FFFFFFF#32 })] }, 0, { part0 with quads := 0x7FFFFFFF#32 }, by decide, by decide +kernel, by decide +kernel,
    by decide +kernel, by decide +kernel, fun i a h => ?_⟩
  have h' : (i, a) ∈ [(0, _)] := h
  obtain ⟨rfl, rfl⟩ := Prod.mk.inj (List.mem_singleton.mp h')
  exact .inr (.inr (by decide +kernel))

/-- A full buffer and an empty one. -/
theorem test_witness_HubActionResults_event :
    (∃ s : State, Memory.wf s.mem = true ∧ (s.readNat (reservedBase + 0x10000) 8 + 2 ^ 64 - s.readNat (reservedBase + 0x10008) 8) % 2 ^ 64 = 1024) ∧
    ∃ s : State, Memory.wf s.mem = true ∧ (s.readNat (reservedBase + 0x10000) 8 + 2 ^ 64 - s.readNat (reservedBase + 0x10008) 8) % 2 ^ 64 ≠ 1024 :=
  ⟨⟨{ demo with mem := [(reservedBase + 0x10001, 4#8)] }, by decide +kernel, by decide +kernel⟩, ⟨demo, by decide +kernel, by decide +kernel⟩⟩

/-- The orders that the statement of power steps asks for. -/
def Ordered (s : State) : Prop := RisingKeys s.power.op ∧ RisingKeys s.power.steps ∧ RisingKeys s.power.ups ∧ RisingKeys s.others

/-- The machine with a change of power. -/
def withP (f : Power → Power) : State := { demo with power := f demo.power }

theorem test_witness_PowerStepActionResults_up :
    ∃ (s : State) (d k c u id : Nat) (n : Nudge), Ordered s ∧ s.opOf d < k ∧ NatMap.find d s.power.ups = some n ∧ NatMap.find d s.power.waiting = none ∧
      n.entries = [(u, id)] ∧ (∀ e ∈ n.entries, (s.runsOn e.1).isSome = true) ∧ s.runsOn u = some c :=
  ⟨withP fun p => { p with ups := [(63, { point := 7, entries := [(1, 1)] })] }, 63, 7, 5, 1, 1, { point := 7, entries := [(1, 1)] },
    by unfold Ordered RisingKeys; decide +kernel, by decide +kernel, by decide +kernel, by decide +kernel, rfl, by decide +kernel, by decide +kernel⟩

theorem test_witness_PowerStepActionResults_settle :
    ∃ (s : State) (d : Nat) (st : Step) (n : Nudge), Ordered s ∧ s.stepOf d = some st ∧ st.settling = some n ∧ st.evacs = [] ∧ n.entries = [] ∧
      NatMap.find d s.power.waiting = none ∧ s.rowBlocked d n.point = false :=
  ⟨withP fun p => { p with op := [(63, 7)], steps := [(63, { target := 0, since := 0, settling := some { point := 0, entries := [] } })] }, 63,
    { target := 0, since := 0, settling := some { point := 0, entries := [] } }, { point := 0, entries := [] },
    by unfold Ordered RisingKeys; decide +kernel, by decide +kernel, rfl, rfl, rfl, by decide +kernel, by decide +kernel⟩

/-- Row 0 is moved whatever the floors are, where some blob gives physical row 0 of core 5 a floor of 1 and row 1 a floor of 0. -/
theorem test_witness_PowerStepActionResults_evac (h0 : Config.blobFloor [] 5 0 % 8 = 1) (h1 : Config.blobFloor [] 5 1 % 8 = 0) :
    ∃ (s : State) (c row r : Nat) (st : Step), Ordered s ∧ s.stepOf (sramDomain (quadOf c)) = some st ∧ st.evacs = [] ∧ st.fitted = true ∧ row < 8192 ∧
      st.target < s.floorOf c (s.physRow c row) ∧ s.freePhys c st.target = some r := by
  let s := withP fun p => { p with steps := [(4, { target := 0, since := 0, fitted := true })], remap := [(5 * 8192, 0)] }
  have hp : s.physRow 5 0 = 0 := rfl
  have hu : s.rowsInUse 5 = [] := by decide +kernel
  have hl : upFrom 0 8704 = 0 :: 1 :: upFrom 2 8702 := rfl
  refine ⟨s, 5, 0, 1, { target := 0, since := 0, fitted := true }, by unfold Ordered RisingKeys; decide +kernel, by decide +kernel, rfl, rfl, by decide, ?_, ?_⟩
  · rw [hp]; show 0 < Config.blobFloor [] 5 0 % 8; omega
  · unfold State.freePhys
    have f0 : s.floorOf 5 0 = 1 := h0
    have f1 : s.floorOf 5 1 = 0 := h1
    simp only [hu, List.map_nil, hl, List.find?, f0, f1]
    decide

/-- Core 5 with more rows held than any point has. -/
theorem test_witness_PowerStepActionResults_wait :
    ∃ (s : State) (d c : Nat) (st : Step), Ordered s ∧ s.stepOf d = some st ∧ st.fitted = false ∧ c ∈ coresOfDomain d ∧ s.fitsAt c st.target = false ∧
      s.spillNext c = none ∧ (s.coreAt c).standby = none ∧ (s.coreAt c).unit.isSome = true ∧ (s.coreAt c).preempt = none ∧
      (∀ e ∈ coresOfDomain d, e ≠ c → s.fitsAt e st.target = true) := by
  let s : State := { withP fun p => { p with op := [(4, 7)], steps := [(4, { target := 0, since := 0 })] } with
    hub := { demo.hub with units := [(1, { uni0 with rows := 9000 })] } }
  refine ⟨s, 4, 5, { target := 0, since := 0 }, by unfold Ordered RisingKeys; decide +kernel, by decide +kernel, rfl, by decide +kernel, ?_, by decide +kernel,
    by decide +kernel, by decide +kernel, by decide +kernel, ?_⟩
  · have h : s.rowsHeld 5 = 9000 := by decide +kernel
    unfold State.fitsAt
    rw [h]
    have : s.capRowsAt 5 0 ≤ 8192 := Nat.min_le_left _ _
    simp; show s.capRowsAt 5 0 < 9000; omega
  · intro e he hne
    have hc : coresOfDomain 4 = [0, 1, 2, 3, 4, 5, 6, 7] := by decide +kernel
    rw [hc] at he
    have h : ∀ e ∈ [0, 1, 2, 3, 4, 6, 7], s.rowsHeld e = 0 := by decide +kernel
    have : s.rowsHeld e = 0 := h e (by simp at he ⊢; omega)
    simp [State.fitsAt, this]

theorem test_witness_PowerStepActionResults_current :
    ∃ (s : State) (q : Nat), Ordered s ∧ q = 31 ∧ s.ilevelOf q = 0 := ⟨demo, 31, by unfold Ordered RisingKeys; decide +kernel, rfl, by decide +kernel⟩

/-- Partition 0 active, quadrants 0 and 31 read at the limits of temperature. -/
theorem test_witness_ControlIntervalResults :
    ∃ (s : State) (rs : List Reading), (rs.map Reading.quad).Nodup ∧ (∀ r ∈ rs, r.quad < 32) ∧ rs.length = 2 ∧ RisingKeys s.power.ceil ∧ RisingKeys s.power.cool ∧
      RisingKeys s.power.ilevel ∧ RisingKeys s.power.cap ∧ RisingKeys s.power.allow ∧ RisingKeys s.power.energy ∧ RisingKeys s.power.carryNj ∧
      (∀ d es e, (d, es) ∈ s.power.logicWait → e ∈ es → (s.runsOn e.1).isSome = true) ∧ (s.partAt 0).st = 1#2 ∧ s.power.logicWait.length = 1 := by
  refine ⟨withP fun p => { p with logicWait := [(3, [(1, 1)])] },
    [{ quad := 0, energyNj := 5, coreNj := [], tempC := 105, currentOk := true }, { quad := 31, energyNj := 5, coreNj := [], tempC := 88, currentOk := false }],
    by decide, by decide, rfl, ?_, ?_, ?_, ?_, ?_, ?_, ?_, ?_, by decide +kernel, rfl⟩
  case refine_8 =>
    intro d es e h1 h2
    have h1' : (d, es) ∈ [(3, [(1, 1)])] := h1
    obtain ⟨rfl, rfl⟩ := Prod.mk.inj (List.mem_singleton.mp h1')
    obtain rfl := List.mem_singleton.mp h2
    decide +kernel
  all_goals unfold RisingKeys; decide +kernel

/-- Handle 15 of unit 1 as given, with a block to core 6. -/
def circuit (f : GlHandle → GlHandle) (g : State → State) : State :=
  g (withC fun x => { x with gl := vput x.gl 15 (f { block := BitVec.ofNat 512 (block0 - 255 + 6), entry := some 1, tok := some { acct := 0#32, pkg := 0#16, exp := 4#7 } }) })

theorem some_of {α : Type} {o : Option α} (h : o.isSome = true) : ∃ a, o = some a := Option.isSome_iff_exists.mp h

theorem test_witness_CircuitActionResults_open :
    ∃ (s : State) (u h c : Nat) (y : Uni) (r : List (Nat × Nat) × Hop × Nat), u ≠ 0 ∧ h < 16 ∧ s.unitAt u = some y ∧ y.st ≠ .ended ∧ s.runsOn u = some c ∧
      (let x := s.handleAt u h
       x.st = .opening ∧ x.score = c ∧ s.glFar x.block = false ∧ glStatic x.block = false ∧ glDstSp x.block = 0 ∧ glBarEn x.block = false ∧
       s.ownerOfQuad (quadOf (glCore x.block)) = some y.part ∧ s.probe (.core (glCore x.block)) y.part (glWidth x.block) (quadOf c) 0 64 = some r ∧ x.closeWith = .none) := by
  let s := circuit (fun k => { k with st := .opening, score := 5 }) id
  obtain ⟨r, hr⟩ := some_of (o := s.probe (.core (glCore (s.handleAt 1 15).block)) 0 (glWidth (s.handleAt 1 15).block) (quadOf 5) 0 64) (by decide +kernel)
  have h : let x := s.handleAt 1 15
      x.st = .opening ∧ x.score = 5 ∧ s.glFar x.block = false ∧ glStatic x.block = false ∧ glDstSp x.block = 0 ∧ glBarEn x.block = false ∧
        s.ownerOfQuad (quadOf (glCore x.block)) = some 0 := by decide +kernel
  obtain ⟨h1, h2, h3, h4, h5, h6, h7⟩ := h
  exact ⟨s, 1, 15, 5, uni0, r, by decide, by decide, rfl, by decide, by decide +kernel, h1, h2, h3, h4, h5, h6, h7, hr, by decide +kernel⟩

/-- No slot of any wheel is free to the partition. -/
theorem test_witness_CircuitActionResults_nopath :
    ∃ (s : State) (u h c : Nat) (y : Uni), s.unitAt u = some y ∧ y.st ≠ .ended ∧ s.runsOn u = some c ∧
      (let x := s.handleAt u h
       x.st = .opening ∧ x.score = c ∧ s.glFar x.block = false ∧ glStatic x.block = false ∧ glDstSp x.block = 0 ∧ glBarEn x.block = false ∧
       s.ownerOfQuad (quadOf (glCore x.block)) = some y.part ∧ s.probe (.core (glCore x.block)) y.part (glWidth x.block) (quadOf c) 0 64 = none) :=
  ⟨circuit (fun k => { k with st := .opening, score := 5 }) fun s => { s with hub := { s.hub with parts := s.hub.parts.set 0 { part0 with glQuota := 0 } } }, 1, 15, 5, uni0, rfl, by decide,
    by decide +kernel⟩

/-- A send of nine words with eight sent, an end with slots held, a flit that lands, one that does not, and a close whose last word is acknowledged. -/
theorem test_witness_CircuitActionResults_flow :
    (∃ (s : State) (u h c : Nat) (y : Uni) (g : GlSend) (rest : List GlSend), s.unitAt u = some y ∧ y.st ≠ .ended ∧ s.runsOn u = some c ∧
      (let x := s.handleAt u h
       (x.st = .opn ∨ x.st = .closing) ∧ s.glFar x.block = false ∧ x.ending = false ∧ x.pend = g :: rest ∧ g.sent + 1 = g.count)) ∧
    (∃ (s : State) (u h c : Nat) (y : Uni), s.unitAt u = some y ∧ y.st ≠ .ended ∧ s.runsOn u = some c ∧
      (let x := s.handleAt u h
       (x.st = .opn ∨ x.st = .closing) ∧ s.glFar x.block = false ∧ x.ending = true ∧ x.told = false ∧ glStatic x.block = false ∧ x.ring = none ∧
       RisingKeys s.fabric.wheels ∧ x.path.length = 1 ∧ ∀ k ∈ x.path, k.2 < 64)) ∧
    ∃ (s : State) (u h c : Nat) (y : Uni), s.unitAt u = some y ∧ y.st ≠ .ended ∧ s.runsOn u = some c ∧
      (let x := s.handleAt u h
       x.st = .closing ∧ s.glFar x.block = false ∧ x.ending = false ∧ x.pend = [] ∧ max x.resumeW 8 = x.sent) :=
  ⟨⟨circuit (fun k => { k with st := .opn, pend := [{ off := 0, count := 9, sent := 8 }] }) id, 1, 15, 5, uni0, { off := 0, count := 9, sent := 8 }, [], rfl, by decide,
      by decide +kernel, .inl (by decide +kernel), by decide +kernel, by decide +kernel, by decide +kernel, by decide⟩,
    ⟨circuit (fun k => { k with st := .closing, ending := true, path := [(3, 63)] }) fun s => { s with fabric := { s.fabric with wheels := [(255, 0)] } }, 1, 15, 5, uni0, rfl, by decide,
      by decide +kernel, .inr (by decide +kernel), by decide +kernel, by decide +kernel, by decide +kernel, by decide +kernel, by decide +kernel,
      by unfold RisingKeys; decide +kernel, by decide +kernel⟩,
    ⟨circuit (fun k => { k with st := .closing, sent := 8 }) id, 1, 15, 5, uni0, rfl, by decide, by decide +kernel⟩⟩

theorem test_witness_CircuitActionResults_land :
    (∃ (s : State) (u h c pos : Nat) (y : Uni) (data : List Byte) (pas : List Nat), s.unitAt u = some y ∧ y.st ≠ .ended ∧ s.runsOn u = some c ∧
      (let x := s.handleAt u h
       (x.st = .opn ∨ x.st = .closing) ∧ s.glFar x.block = false ∧ x.told = false ∧ x.why = none ∧ pos = x.landed ∧ glDstSp x.block = 0 ∧ glBarEn x.block = false ∧ pas.Nodup ∧
       Memory.wf s.mem = true ∧ s.weakSpan c y.part (glDst x.block + BitVec.ofNat 64 (4 * pos)) data.length true = .ok pas)) ∧
    ∃ (s : State) (u h c pos : Nat) (y : Uni) (data : List Byte) (k : Cause) (v : Word), s.unitAt u = some y ∧ y.st ≠ .ended ∧ s.runsOn u = some c ∧
      (let x := s.handleAt u h
       (x.st = .opn ∨ x.st = .closing) ∧ s.glFar x.block = false ∧ x.told = false ∧ x.why = none ∧ pos = x.landed ∧ glDstSp x.block = 0 ∧ glBarEn x.block = false ∧ x.ending = false ∧
       s.weakSpan c y.part (glDst x.block + BitVec.ofNat 64 (4 * pos)) data.length true = .error (k, v)) :=
  ⟨⟨circuit (fun k => { k with st := .opn, landed := 3 }) id, 1, 15, 5, 3, uni0, [1#8, 2#8, 3#8, 4#8], [12, 13, 14, 15], rfl, by decide, by decide +kernel, .inl (by decide +kernel),
      by decide +kernel, by decide +kernel, by decide +kernel, by decide +kernel, by decide +kernel, by decide +kernel, by decide, by decide +kernel, by decide +kernel⟩,
    ⟨circuit (fun k => { k with st := .opn }) fun s => { s with mem := [] }, 1, 15, 5, 0, uni0, [1#8, 2#8, 3#8, 4#8], .translation, 0#64, rfl, by decide, by decide +kernel, .inl (by decide +kernel),
      by decide +kernel⟩⟩

theorem test_witness_CircuitActionResults_final :
    (∃ (s : State) (u h c : Nat) (y : Uni), s.unitAt u = some y ∧ y.st ≠ .ended ∧ s.runsOn u = some c ∧
      (let x := s.handleAt u h
       x.st = .closing ∧ s.glFar x.block = false ∧ x.ending = true ∧ x.told = true ∧ x.cause = .closed ∧ x.endAt + 2 ^ 20 = s.time)) ∧
    ∃ (s : State) (h c p : Nat), s.runsOn 1 = some c ∧
      (let x := s.handleAt 1 h
       x.st = .closing ∧ s.glFar x.block = false ∧ x.ending = true ∧ x.told = true ∧ x.cause = .failed ∧ CanRecord s 1 uni0 p) :=
  ⟨⟨circuit (fun k => { k with st := .closing, ending := true, told := true, cause := .closed }) fun s => { s with time := 2 ^ 20 }, 1, 15, 5, uni0, rfl, by decide,
      by decide +kernel⟩,
    ⟨circuit (fun k => { k with st := .closing, ending := true, told := true, cause := .failed }) id, 15, 5, 0x100000, by decide +kernel, by decide +kernel, by decide +kernel,
      by decide +kernel, by decide +kernel, by decide +kernel,
      canRecord (fun s => circuit (fun k => { k with st := .closing, ending := true, told := true, cause := .failed }) id) (by decide +kernel) (by decide +kernel) (by decide +kernel)⟩⟩

/-! ### Packets, links and the host -/

/-- A packet with a body, for this package or another. -/
def packet (d : BitVec 16) (b : PktBody) : Packet :=
  { cls := 4#3, spkg := 9#16, score := 5, dpkg := d, dcore := 6, label := 0#16, podid := 0#16, tok := none, body := b, via := 32 }

theorem test_witness_PacketFlowActionResults_here :
    ∃ (s : State) (p : Nat) (pas : List Nat) (r : Ret), s.behind (packet 0#16 (.message (msg 7#16 5#8))) = false ∧ (0#16 : BitVec 16) = s.fabric.num ∧
      r.pkg = s.fabric.num ∧ s.writtenOff r.acct 9#16 = false ∧ s.partOfPod 0#16 = some p ∧
      s.weakRead (cameBy (packet 0#16 (.ret r))) p 0x3000#64 4 = .ok pas :=
  ⟨demo, 0, [0x3000, 0x3001, 0x3002, 0x3003], ⟨0#32, 0#16, 1, false, 0#64⟩, by decide +kernel, rfl, rfl, by decide +kernel⟩

/-- An account written off toward package 9. -/
theorem test_witness_PacketFlowActionResults_written :
    ∃ (s : State) (r : Ret), s.behind (packet 0#16 (.ret r)) = false ∧ r.pkg = s.fabric.num ∧ s.writtenOff r.acct 9#16 = true :=
  ⟨{ demo with fabric := { demo.fabric with exports := [(exportDie 0#32 9#16, 0#32, 9#16, 1, true)] } }, ⟨0#32, 0#16, 1, false, 0#64⟩, by decide +kernel, rfl, by decide +kernel⟩

/-- Port 31 is up toward package 9, its replay buffer full but for the flits of a packet. -/
def ported (f : Port → Port) (g : State → State) : State :=
  g { demo with fabric := { demo.fabric with ports := [(31, f { up := true, peer := 9#16 })] } }

theorem test_witness_PacketFlowActionResults_away :
    ∃ (s : State) (k : Packet) (p : Nat), s.behind k = false ∧ k.dpkg ≠ s.fabric.num ∧ k.dpkg.toNat < 4096 ∧ s.heldBack k = false ∧ s.portFor k = some p ∧
      (s.portAt p).sends = true ∧ (s.portAt p).replay.length + (pktFlits k).length ≤ 2048 ∧
      (∀ h v, s.cargo k = some (h, v) → k.cls ≠ 0#3 ∨ s.exportRoom h k.dpkg = true) :=
  ⟨ported id id, packet 9#16 (.ret ⟨0#32, 9#16, 1, false, 0#64⟩), 31, by decide +kernel, by decide, by decide, by decide +kernel, by decide +kernel, by decide +kernel,
    by decide +kernel, fun _ _ _ => .inl (by decide)⟩

theorem test_witness_PacketFlowActionResults_noport :
    ∃ (s : State) (k : Packet) (m : Message) (q : Tok), s.behind k = false ∧ k.dpkg ≠ s.fabric.num ∧ k.dpkg.toNat < 4096 ∧ s.heldBack k = false ∧
      k.body = .message m ∧ s.portFor k = none ∧ k.tok = some q :=
  ⟨demo, { packet 9#16 (.message (msg 7#16 5#8)) with tok := some { acct := 0#32, pkg := 0#16, exp := 4#7 } }, msg 7#16 5#8, { acct := 0#32, pkg := 0#16, exp := 4#7 },
    by decide +kernel, by decide, by decide, by decide +kernel, rfl, by decide +kernel, rfl⟩

/-- A flow of 8 KiB from core 5 to core 6. -/
def flow0 : Flow := { spkg := 0#16, score := 5, dpkg := 0#16, dcore := 6, label := 1#16, count := 8192 }

/-- The machine in open dispatch with that flow at the meter of core 5. -/
def flowing (q : Nat) : State :=
  { withH (fun h => { h with modeDisp := 0#2, parts := h.parts.set 0 { part0 with glQuota := q } }) with fabric := { demo.fabric with meters := [(5, [flow0])] } }

theorem test_witness_PacketFlowActionResults_promote :
    ∀ q : Nat, q = 0 ∨ q = 64 →
      ∃ (s : State) (c key p : Nat) (f : Flow), s.flowOf c key = some f ∧ NatMap.find (probeKey c key) s.fabric.probedAt = none ∧ f.count ≠ 0 ∧ s.hub.modeDisp = 0#2 ∧
        (∀ g ∈ s.fabric.promoted, f.same g.flow = false) ∧ s.ownerOfQuad (quadOf c) = some p ∧ f.dpkg = s.fabric.num ∧ f.dcore < 256 ∧
        (s.probe (.core f.dcore) p (min 32 ((f.count + 2047) / 2048)) (quadOf c) 0 64).isSome = decide (q = 64) := by
  rintro q (rfl | rfl)
  · exact ⟨flowing 0, 5, flow0.key, 0, flow0, by decide +kernel, by decide +kernel, by decide, rfl, fun g h => (by cases h), by decide +kernel, rfl, by decide, by decide +kernel⟩
  · exact ⟨flowing 64, 5, flow0.key, 0, flow0, by decide +kernel, by decide +kernel, by decide, rfl, fun g h => (by cases h), by decide +kernel, rfl, by decide, by decide +kernel⟩

/-- Tree 63 with members 5 and 6 and a child below port 31. -/
def tree0 : Tree := { num := 63, op := 0#3, root := true, up := 0, down := 0x80000000#32, tmo := 1, members := 0x60#256, uslot := 0 }

/-- An episode of it that core 5 has joined, and waits for. -/
def barred : State :=
  { withH (fun h => { h with
      images := [(0, { trees := [tree0] })]
      episodes := [{ tree := 63, num := 0, value := some 1#64, joined := [5], broken := false, since := 0 }]
      barWaits := [{ tree := 63, num := 0, core := 5, unit := 1, id := 1 }] }) with time := 1 }

theorem test_witness_PacketFlowActionResults_combine :
    ∃ (s : State) (key part : Nat) (tr : Tree), s.treeOf key = some tr ∧ part ∈ tr.participants ∧ s.nextEpisode key part = s.openEpisode key ∧
      ¬ (part < 256 ∧ false = true) ∧ (∃ m ∈ tr.participants, m < 256 ∧ m ∉ (s.episodeAt key (s.openEpisode key)).joined ++ [part]) :=
  ⟨barred, 63, 287, tree0, by decide +kernel, by decide +kernel, by decide +kernel, by decide, 6, by decide +kernel, by decide, by decide +kernel⟩

theorem test_witness_PacketFlowActionResults_result :
    ∃ (s : State) (key d : Nat) (tr : Tree) (b : BarWait), s.treeOf key = some tr ∧
      (∀ b ∈ s.hub.barWaits, b.tree = key → b.num = s.openEpisode key → (s.runsOn b.unit).isSome = true) ∧
      (s.hub.barWaits.filter fun b => decide (b.tree = key) && decide (b.num = s.openEpisode key)) = [b] ∧ b.unit ≠ 0 ∧ s.runsOn b.unit = some d :=
  ⟨barred, 63, 5, tree0, { tree := 63, num := 0, core := 5, unit := 1, id := 1 }, by decide +kernel, by decide +kernel, by decide +kernel, by decide, by decide +kernel⟩

theorem test_witness_PacketFlowActionResults_timeout :
    ∃ (s : State) (key : Nat) (tr : Tree) (e : Episode), s.treeOf key = some tr ∧
      (s.hub.episodes.find? fun e => decide (e.tree = key) && decide (e.num = s.openEpisode key)) = some e ∧ (∃ m ∈ tr.participants, m ∉ e.joined) ∧
      (∀ b ∈ s.hub.barWaits, b.tree = key → b.num = s.openEpisode key → (s.runsOn b.unit).isSome = true) ∧ e.since + tr.tmo = s.time :=
  ⟨barred, 63, tree0, { tree := 63, num := 0, value := some 1#64, joined := [5], broken := false, since := 0 }, by decide +kernel, by decide +kernel,
    ⟨6, by decide +kernel, by decide⟩, by decide +kernel, rfl⟩

theorem test_witness_LinkActionResults_training :
    ∃ (s : State) (port : Nat) (ident : Word) (num ver : BitVec 16), RisingKeys s.fabric.ports ∧ port = 31 ∧ s.fabric.podmap ≠ [] ∧
      ¬ ((s.portAt port).lost = true ∧ (s.portAt port).replay ≠ []) ∧ (ident, num) ∈ s.fabric.podmap ∧ ver ≠ 0#16 ∧ (ident, num + 1) ∉ s.fabric.podmap ∧
      (s.portAt port).up = false ∧ (NatMap.findD [] num.toNat s.fabric.routes).length = 3 :=
  ⟨{ demo with fabric := { demo.fabric with podmap := [(7#64, 9#16)], routes := [(9, [0, 1, 2])] } }, 31, 7#64, 9#16, 1#16, by unfold RisingKeys; decide +kernel, rfl, by decide,
    by decide +kernel, by decide, by decide, by decide, by decide +kernel, by decide +kernel⟩

/-- A held flit of port 31. -/
def flit0 (seq : BitVec 12) : Flit :=
  { seq := seq, ack := 0#12, kind := .trail, data := 0#256, crc := flitCrc 0#256 seq 0#12 .trail, pkt := none, again := if seq = 0#12 then 16 else 15 }

/-- The bytes of "123456789", whose CRC-32C the CRC's own definition gives as E3069283 (log entry 133). -/
theorem test_crc32c : crc32c (bitsOf 0x393837363534333231#72) = 0xE3069283#32 := by decide +kernel

/-- R433: a flit whose KIND is none of the four is not good, whatever its CRC; one whose CRC fits is, and is not with a bit of its data changed. -/
theorem test_flitGood :
    flitGood { flit0 5#12 with kind := .other 4#4, crc := flitCrc 0#256 5#12 0#12 (.other 4#4) } = false ∧ flitGood (flit0 5#12) = true ∧
      flitGood { flit0 5#12 with data := 1#256 } = false := by decide +kernel

theorem test_witness_LinkActionResults_up :
    ∃ (s : State) (port : Nat) (f : Flit), RisingKeys s.fabric.ports ∧ (s.portAt port).up = true ∧ (s.portAt port).lost = false ∧ (s.portAt port).training = false ∧
      f.kind = .trail ∧ flitGood f = true ∧ f.seq = (s.portAt port).seqIn ∧ (s.portAt port).sends = true ∧ flitsFrom 0xFFF#12 (s.portAt port).replay ≠ [] ∧
      (∃ g ∈ (s.portAt port).replay, 16 ≤ g.again) ∧
      (s.portAt port).restripeRx = none ∧ (s.portAt port).live true &&& 1#16 ≠ 0#16 ∧ (s.portAt port).live true &&& ~~~1#16 ≠ 0#16 ∧
      (s.portAt port).live true &&& ~~~0xFFFF#16 = 0#16 :=
  ⟨ported (fun x => { x with replay := [flit0 0xFFF#12, flit0 0#12], seqIn := 5#12 }) id, 31, flit0 5#12, by unfold RisingKeys; decide +kernel, by decide +kernel, by decide +kernel,
    by decide +kernel, rfl, by decide +kernel⟩

theorem test_witness_LinkActionResults_retrain :
    ∀ n : Nat, n = 1 ∨ n = 2 →
      ∃ (s : State) (port : Nat), RisingKeys s.fabric.ports ∧ (s.portAt port).training = true ∧ (s.portAt port).lost = false ∧ (s.portAt port).fails = n := by
  rintro n (rfl | rfl)
  · exact ⟨ported (fun x => { x with training := true, fails := 1 }) id, 31, by unfold RisingKeys; decide +kernel, by decide +kernel⟩
  · exact ⟨ported (fun x => { x with training := true, fails := 2 }) id, 31, by unfold RisingKeys; decide +kernel, by decide +kernel⟩

theorem test_witness_LinkActionResults_restripe :
    ∃ (s : State) (port : Nat) (a b : BitVec 16), RisingKeys s.fabric.ports ∧ (s.portAt port).restripeTx = some (a, b) ∧ ones (b &&& ~~~(s.portAt port).parkedTx) < 12 :=
  ⟨ported (fun x => { x with restripeTx := some (0xFFFF#16, 0x7FF#16) }) id, 31, 0xFFFF#16, 0x7FF#16, by unfold RisingKeys; decide +kernel, by decide +kernel, by decide +kernel⟩

/-- A lost port with flits, its peer reachable by another, before and at 2^20 steps. -/
theorem test_witness_LinkActionResults_lost :
    ∀ n : Nat, n = 2 ^ 20 - 1 ∨ n = 2 ^ 20 →
      ∃ (s : State) (port : Nat), RisingKeys s.fabric.ports ∧ (s.portAt port).lost = true ∧ (s.portAt port).replay ≠ [] ∧ s.reachable (s.portAt port).peer = true ∧
        s.time = (s.portAt port).lostAt + n := by
  rintro n (rfl | rfl)
  · exact ⟨ported (fun x => { x with lost := true, replay := [flit0 0#12] }) fun s => { s with time := 2 ^ 20 - 1, fabric := { s.fabric with routes := [(9, [3])] } }, 31,
      by unfold RisingKeys; decide +kernel, by decide +kernel⟩
  · exact ⟨ported (fun x => { x with lost := true, replay := [flit0 0#12] }) fun s => { s with time := 2 ^ 20, fabric := { s.fabric with routes := [(9, [3])] } }, 31,
      by unfold RisingKeys; decide +kernel, by decide +kernel⟩

/-- A frame with a payload. -/
def frame0 (a0 a1 : Word) (payload : List Byte := []) : Frame :=
  { op := 0x20#16, tag := 0xFFFF#16, status := 0#16, ver := 0#16, len := 0#32, rz := 0#32, arg0 := a0, arg1 := a1, payload := payload }

/-- The machine before boot. -/
def dark (blob fw : List Byte) : State := { demo with port := { demo.port with boot := .off, blob := blob, flashFw := fw } }

/-- Of the ways that boot ends, one is met, whatever the blob's signature and floors are. -/
theorem test_witness_HostSessionActionResults_boot :
    ∃ s : State, s.port.boot = .off ∧
      (Config.blobSigned s.port.blob = false ∨
        Config.blobSigned s.port.blob = true ∧ (s.withPower { s.power with blob := s.port.blob, idleW := Config.blobIdleW s.port.blob }).floorsGood = false ∨
        Config.blobSigned s.port.blob = true ∧ (s.withPower { s.power with blob := s.port.blob, idleW := Config.blobIdleW s.port.blob }).floorsGood = true ∧
          (parseImage s.port.flashFw).magic ≠ 0x58445158) := by
  refine ⟨dark [] [], rfl, ?_⟩
  cases Config.blobSigned (dark [] []).port.blob
  · exact .inl rfl
  · cases (State.floorsGood _)
    · exact .inr (.inl ⟨rfl, rfl⟩)
    · exact .inr (.inr ⟨rfl, rfl, by decide +kernel⟩)

/-- HELLO in a session and outside one, with VERSION 0, 1 and 0xFFFF. -/
theorem test_witness_HostSessionActionResults_hello :
    (∃ (s : State), s.port.session ≠ none) ∧
    (∀ v : Word, v = 0 ∨ v = 1 ∨ v = 0xFFFF → ∃ (s : State) (f : Frame), s.port.session = none ∧ fld f.arg0 0 16 = v.toNat) := by
  refine ⟨⟨{ demo with port := { demo.port with session := some (1#16, 1#32) } }, by decide⟩, ?_⟩
  rintro v (rfl | rfl | rfl)
  · exact ⟨demo, frame0 0xF00000000#64 0#64, rfl, by decide⟩
  · exact ⟨demo, frame0 0xF00000001#64 0#64, rfl, by decide⟩
  · exact ⟨demo, frame0 0xF0000FFFF#64 0#64, rfl, by decide⟩

/-- A session whose last frame came exactly one second ago. -/
theorem test_witness_HostSessionActionResults_timeout : ∃ s : State, s.port.session ≠ none ∧ s.port.heard + 3000000000 = s.time :=
  ⟨{ demo with time := 3000000001, port := { demo.port with session := some (1#16, 1#32), heard := 1 } }, by decide, by decide⟩

/-- A transfer that ends at the top of device memory. -/
theorem test_witness_HostSessionActionResults_bulk :
    ∃ (s : State) (v : BitVec 16) (fs : BitVec 32) (dev len : Nat), s.port.session = some (v, fs) ∧ fs.getLsbD 0 = true ∧ dev + len = memTop ∧ 0 < len ∧
      Memory.wf s.mem = true ∧ cellsWf s.port.mem = true :=
  ⟨{ demo with port := { demo.port with session := some (1#16, 1#32) } }, 1#16, 1#32, memTop - 1, 1, rfl, by decide, by decide +kernel, by decide, by decide +kernel, by decide +kernel⟩

/-- An image of one code section of one bundle of NOPs. -/
def image0 : List (Nat × Byte) :=
  [(0, 0x58#8), (1, 0x51#8), (2, 0x44#8), (3, 0x58#8), (4, 1#8), (8, 1#8), (16, 0x80#8),
   (128, 1#8), (136, 0x20#8), (138, 1#8), (144, 48#8), (152, 160#8)]

/-- The machine without units, and with that image in host memory. -/
def loadable : State := { withH (fun h => { h with units := [] }) with port := { demo.port with mem := image0 } }

theorem test_witness_HostSessionActionResults_load :
    (∃ (s : State) (f : Frame), s.checkImage (f.payload.getD 0 0#8).toNat (cellsAt s.port.mem f.arg0.toNat f.arg1.toNat)
        (parseImage (cellsAt s.port.mem f.arg0.toNat f.arg1.toNat)) = .magic) ∧
    (∃ (s : State) (f : Frame), s.checkImage (f.payload.getD 0 0#8).toNat (cellsAt s.port.mem f.arg0.toNat f.arg1.toNat)
        (parseImage (cellsAt s.port.mem f.arg0.toNat f.arg1.toNat)) = .done) :=
  ⟨⟨demo, frame0 0#64 208#64, by decide +kernel⟩, ⟨loadable, frame0 0#64 208#64, by decide +kernel⟩⟩

theorem test_witness_HostCommandActionResults_noJob : ∃ (s : State) (f : Frame), s.jobNamed f = none := ⟨demo, frame0 0x100#64 0#64, by decide +kernel⟩

/-- The machine with a job that has its token, and an image of one unit and one start. -/
def jobbed : State :=
  { withH (fun h => { h with
      accounts := [(0, { st := .opn, level := .job, out := 2 ^ 127, allow := 1000#64, owner := some { exp := 1#7, valid := true, acct := 0#32 } })]
      images := [(0, { units := [{}], starts := [(255, 0, 3, 0#64)] })] }) with act := none }

theorem test_witness_HostCommandActionResults_start :
    ∃ (s : State) (f : Frame) (j : Nat) (own : Hold) (n : Nat) (i : Image), s.jobNamed f = some j ∧ (s.accAt j).owner = some own ∧ own.exp ≠ 127#7 ∧
      s.freeId (s.accAt j).part = some n ∧ s.imageOf (s.accAt j).part = some i ∧ s.startsGood (s.accAt j).part i f.arg1 (startSlot i) = true :=
  ⟨jobbed, frame0 0#64 0x10000#64, 0, _, 1, _, by decide +kernel, rfl, by decide, by decide +kernel, rfl, by decide +kernel⟩

theorem test_witness_HostCommandActionResults_launch :
    ∃ (s : State) (f : Frame) (j : Nat) (own : Hold) (n : Nat), s.jobNamed f = some j ∧ (s.accAt j).owner = some own ∧ own.exp ≠ 127#7 ∧
      s.freeId (s.accAt j).part = some n ∧
      (let p := (s.accAt j).part
       let va := f.arg1.toNat
       let r : Block := BitVec.ofNat 512 (s.readNat va 64)
       va + 64 ≤ memTop ∧ s.inWindows p va 64 = true ∧ (s.imageOf p).isSome = true ∧ s.descRefused p r false = none ∧
       s.hasCapacity p (descPlace r) (descPin r) ((s.unitTable p).getD (descUnit r) {}).rows = true) :=
  ⟨{ jobbed with mem := cellsSet [] 0x3000 (toBytes 64 desc0) }, frame0 0#64 0x3000#64, 0, _, 1, by decide +kernel, rfl, by decide, by decide +kernel,
    by decide +kernel, by decide +kernel, by decide +kernel, by decide +kernel, by
      have h1 : descPlace (BitVec.ofNat 512 (State.readNat { jobbed with mem := cellsSet [] 0x3000 (toBytes 64 desc0) } 0x3000 64)) = 1 := by decide +kernel
      have h2 : ((State.unitTable { jobbed with mem := cellsSet [] 0x3000 (toBytes 64 desc0) } 0).getD
        (descUnit (BitVec.ofNat 512 (State.readNat { jobbed with mem := cellsSet [] 0x3000 (toBytes 64 desc0) } 0x3000 64))) {}).rows = 0 := by decide +kernel
      show State.hasCapacity _ _ (descPlace (BitVec.ofNat 512 (State.readNat { jobbed with mem := cellsSet [] 0x3000 (toBytes 64 desc0) } 0x3000 64))) _
        ((State.unitTable { jobbed with mem := cellsSet [] 0x3000 (toBytes 64 desc0) } 0).getD
        (descUnit (BitVec.ofNat 512 (State.readNat { jobbed with mem := cellsSet [] 0x3000 (toBytes 64 desc0) } 0x3000 64))) {}).rows = true
      rw [h1, h2]
      simp [State.hasCapacity, State.eligible]⟩

/-- A job that exists, open and DONE, and one to make, in partitions 0 and 7. -/
theorem test_witness_HostCommandActionResults_jobs :
    (∀ p : Nat, p = 0 ∨ p = 7 → ∃ (s : State) (h : Handle), s.freeId (fld h 0 3) = some 1 ∧ fld h 0 3 = p) ∧
    (∀ b : Bool, ∃ (s : State) (h : Handle), s.live h = true ∧ (s.accAt (accId h)).level = .job ∧ RisingKeys s.hub.accounts ∧
      decide ((s.accAt (accId h)).st = .done) = b) := by
  constructor
  · rintro p (rfl | rfl)
    · exact ⟨jobbed, 0#32, by decide +kernel, by decide +kernel⟩
    · exact ⟨withH fun h => { h with parts := h.parts.set 7 { part0 with acctBase := 1, acctCnt := 1 } }, 7#32, by decide +kernel, by decide +kernel⟩
  · rintro (_ | _)
    · exact ⟨jobbed, 0#32, by decide +kernel, by decide +kernel, by unfold RisingKeys; decide +kernel, by decide +kernel⟩
    · exact ⟨withH fun h => { h with accounts := [(0, { st := .done, level := .job })] }, 0#32, by decide +kernel, by decide +kernel, by unfold RisingKeys; decide +kernel, by decide +kernel⟩

theorem test_witness_HostCommandActionResults_account :
    (∃ (s : State) (f : Frame), s.live (BitVec.ofNat 32 (fld f.arg0 0 32)) = true) ∧ (∃ (s : State) (f : Frame), s.live (BitVec.ofNat 32 (fld f.arg0 0 32)) = false) :=
  ⟨⟨jobbed, frame0 0#64 0#64, by decide +kernel⟩, ⟨jobbed, frame0 1#64 0#64, by decide +kernel⟩⟩

/-- A partition number out of range; a descriptor that gives nothing up, of the last partition; one that drains. -/
theorem test_witness_HostCommandActionResults_part :
    (∃ (s : State) (d : PartDesc), s.partBad 8 d = true) ∧
    (∃ (s : State) (d : PartDesc), s.partBad 7 d = false ∧ d.st ≠ 2#2 ∧ (s.partAt 7).givesUp d = false) ∧
    (∃ (s : State) (d : PartDesc), s.partBad 0 d = false ∧ d.st = 2#2) ∧
    (∃ (s : State) (d : PartDesc), s.partBad 0 d = false ∧ d.st ≠ 2#2 ∧ (s.partAt 0).givesUp d = true) := by
  have h0 : State.reset.partBad 8 {} = true := by decide +kernel
  have h1 : State.reset.partBad 7 { age := 16, windows := [(0, 0x7FFF)] } = false := by decide +kernel
  have h2 : (State.reset.partAt 7).givesUp { age := 16, windows := [(0, 0x7FFF)] } = false := by decide +kernel
  have h3 : State.partBad demo 0 { part0 with st := 2#2, windows := [(0, 0x7FFF)] } = false := by decide +kernel
  have h4 : State.partBad demo 0 { part0 with quads := 1#32, windows := [(0, 0x7FFF)] } = false := by decide +kernel
  have h5 : (demo.partAt 0).givesUp { part0 with quads := 1#32, windows := [(0, 0x7FFF)] } = true := by decide +kernel
  exact ⟨⟨_, _, h0⟩, ⟨_, _, h1, by decide, h2⟩, ⟨_, _, h3, rfl⟩, ⟨_, _, h4, by decide, h5⟩⟩

theorem test_witness_HostCommandActionResults_mode : ∃ s : State, RisingKeys s.others := ⟨ranger, by unfold RisingKeys; decide +kernel⟩

/-- A checkpoint that runs, its stream ready, with one block to go. -/
theorem test_witness_HostCommandActionResults_safe :
    (∃ s : State, s.port.ckpt ≠ none) ∧
    (∃ (s : State) (c : Nat), s.port.ckpt = none ∧ (∀ e ∈ s.hub.units, e.2.ctx = none ∨ e.2.rows = 0) ∧ c < 256 ∧ (s.coreAt c).unit.isSome = true) ∧
    (∃ (s : State) (k : SafeCk) (b : Nat), s.port.ckpt = some k ∧ (∀ e ∈ s.hub.units, e.2.ctx = none ∨ e.2.rows = 0) ∧ s.safeReady = true ∧
      b ∉ k.acked ∧ b < k.total ∧ k.total ≤ k.acked.length + 1) ∧
    (∃ (s : State) (k : SafeCk), s.port.ckpt = some k ∧ (∀ e ∈ s.hub.units, e.2.ctx = none ∨ e.2.rows = 0) ∧ s.safeReady = false) := by
  have h (e : Nat × Uni) (he : e ∈ [(1, uni0)]) : e.2.ctx = none ∨ e.2.rows = 0 := by
    rw [List.mem_singleton.mp he]; exact .inl rfl
  have h1 : ({ State.reset with port := { State.reset.port with ckpt := some { acked := [0], total := 2, targets := [] } } } : State).safeReady = true := by
    decide +kernel
  have h2 : ({ demo with port := { State.reset.port with ckpt := some { acked := [0], total := 2, targets := [] } } } : State).safeReady = false := by
    decide +kernel
  exact ⟨⟨{ demo with port := { demo.port with ckpt := some { acked := [], total := 2, targets := [] } } }, by decide⟩,
    ⟨demo, 5, rfl, h, by decide, by decide +kernel⟩, ⟨_, _, 1, rfl, fun e he => (by cases he), h1, by decide, by decide, by decide⟩, ⟨_, _, rfl, h, h2⟩⟩

/-- What an outcome gives, by evaluation. -/
theorem next_with {o : Host.Outcome State Fault Refusal} (f : State → Bool)
    (h : (match o with | .next t => f t | .fault _ => false | .refused _ => false) = true) : ∃ t, o = .next t ∧ f t = true := by
  cases o with
  | next t => exact ⟨t, rfl, h⟩
  | fault _ => cases h
  | refused _ => cases h

/-- The words of a bundle with one slot. -/
def bundleOf (h : BitVec 32) (k : Nat) (w : BitVec 32) : List (BitVec 32) := (List.range 12).map fun j => if j = 0 then h else if j = k then w else 0#32

theorem begins_of {s : State} {ws : List (BitVec 32)}
    (h : (s.chosen = some (.sequencer s.cur) ∧ s.core.phase = .fresh ∧ s.fetchWords = some ws ∧ s.struck (upFrom s.bundleAddr 48) = none) ∧
      ((s.core.unit.bind fun u => (s.unitAt u).bind Uni.argFault) = none ∧ s.core.arch.pc.toNat < s.core.code.count ∧
        bitAt (bword ws 0) 31 = false ∧ bitAt (bword ws 0) 30 = false ∧ (s.entering ws).core.trapsHere = false) ∧
      (s.core.fence = none ∧ s.hub.inval = [] ∧ s.core.flagged = [] ∧ illegalMarks (s.entering ws).core (decide (s.cur = rangerId)) ws = 0#12) ∧
      (s.entering ws).core.sinceCk < (s.entering ws).core.ckBound ∧ (s.entering ws).core.arch.sinceQ < (s.entering ws).core.arch.qSpan) :
    s.Begins ws :=
  have ⟨⟨h1, h2, h3, h4⟩, ⟨h5, h6⟩, ⟨h7, h8, h9, h10⟩, h11⟩ := h
  ⟨h1, h2, h3, h4, h5, h6.1, h6.2, ⟨h7, fun v hv => by rw [h8] at hv; cases hv⟩, h9, h10, h11⟩

/-- The machine after reset with an instruction in a slot of the bundle at the program counter. -/
def placed (k w : Nat) : State :=
  { State.reset.withFetchWord 32 0 with
    mem := ((List.range 4).map fun i => (4 * k + i, BitVec.ofNat 8 (w / 256 ^ i))).filter fun c => decide (c.2 ≠ 0#8) }

/-- A bundle with one slot holds a word there and nowhere else. -/
theorem bundleOf_iff {h w : BitVec 32} {k : Nat} (hw : w ≠ 0#32) :
    ∀ j, 0 < j → j < 11 → (j = k ↔ bword (bundleOf h k w) j ≠ 0#32) := by
  intro j h1 h2
  have : bword (bundleOf h k w) j = if j = 0 then h else if j = k then w else 0#32 := by
    simp [bword, bundleOf, List.getD_eq_getElem?_getD, show j < 12 by omega]
  rw [this, if_neg (by omega)]
  split
  · exact ⟨fun _ => hw, fun _ => ‹_›⟩
  · exact ⟨fun e => absurd e ‹_›, fun e => absurd rfl e⟩

/-- An addition in slot 1. -/
theorem test_witness_StepRunsTheInstruction_runs :
    ∃ (s : State) (ws : List (BitVec 32)) (k : Nat) (i : Instr), s.Begins ws ∧ k < 11 ∧ 0 < k ∧
      (∀ j, 0 < j → j < 11 → (j = k ↔ bword ws j ≠ 0#32)) ∧ decodeSlot (slotClass k) (bword ws k) = .ok i ∧
      (s.entering ws).core.active { num := k, word := bword ws k, ins := some i } = true ∧
      ∃ t, exec i { s.entering ws with core := { (s.entering ws).core with slot := k, word := bword ws k, raised := none, phase := .begun } } = .next t ∧
        decide (t.core.phase = .begun ∧ (s.entering ws).overCap t = false ∧ (t.core.resourceCause [{ num := k, word := bword ws k, ins := some i }] (s.entering ws).withholds).isNone = true ∧
          t.core.successor.1.toNat < t.core.code.count ∧ t.core.queue = []) = true :=
  ⟨placed 1 0x01004103, bundleOf 0#32 1 0x01004103#32, 1, .add 0#3 false 1#6 (.reg 2#6) (.reg 3#6),
    begins_of (by decide +kernel),
    by decide, by decide, bundleOf_iff (by decide), by decide +kernel, by decide +kernel, next_with _ (by decide +kernel)⟩

/-- `cpywait 2,1` while DONE is 0. -/
theorem test_witness_StepRunsTheInstruction_stalls :
    ∃ (s : State) (ws : List (BitVec 32)) (k : Nat) (i : Instr), s.Begins ws ∧ k < 11 ∧ 0 < k ∧
      (∀ j, 0 < j → j < 11 → (j = k ↔ bword ws j ≠ 0#32)) ∧ decodeSlot (slotClass k) (bword ws k) = .ok i ∧
      (s.entering ws).core.active { num := k, word := bword ws k, ins := some i } = true ∧
      ∃ t, exec i { s.entering ws with core := { (s.entering ws).core with slot := k, word := bword ws k, raised := none, phase := .begun } } = .next t ∧
        decide (t.core.phase = .stalled) = true :=
  ⟨placed 10 0x1100B880, bundleOf 0#32 10 0x1100B880#32, 10, _,
    begins_of (by decide +kernel),
    by decide, by decide, bundleOf_iff (by decide), rfl, by decide +kernel, next_with _ (by decide +kernel)⟩

/-- `qwait 2,4` on an empty queue that nothing fills. -/
theorem test_witness_StepRunsTheInstruction_traps :
    ∃ (s : State) (ws : List (BitVec 32)) (k : Nat) (i : Instr), s.Begins ws ∧ k < 11 ∧ 0 < k ∧
      (∀ j, 0 < j → j < 11 → (j = k ↔ bword ws j ≠ 0#32)) ∧ decodeSlot (slotClass k) (bword ws k) = .ok i ∧
      (s.entering ws).core.active { num := k, word := bword ws k, ins := some i } = true ∧
      ∃ t, exec i { s.entering ws with core := { (s.entering ws).core with slot := k, word := bword ws k, raised := none, phase := .begun } } = .next t ∧
        (decide (t.core.phase = .left) && (match t.core.raised with
          | some (c, _) => decide (c ≠ .leaseConflict ∧ c ≠ .xlinvReplay) && !lateCause c
          | none => false)) = true :=
  ⟨placed 10 0x1000BA00, bundleOf 0#32 10 0x1000BA00#32, 10, _,
    begins_of (by decide +kernel),
    by decide, by decide, bundleOf_iff (by decide), rfl, by decide +kernel, next_with _ (by decide +kernel)⟩

/-- After power-on, boot is all that can act. -/
theorem test_witness_StepRunsTheInstruction_action :
    ∃ (s : State) (n : Nat) (a : Action), s.chosen = some (.action n) ∧ s.due[n]? = some a ∧
      ∃ t, Does a { s with time := s.time + 1, free := s.free + 1, due := s.due.eraseIdx n } t :=
  ⟨State.reset, 0, .boot, by decide +kernel, rfl, _, rfl⟩

theorem test_witness_DecodeEncode :
    ∃ (i : Instr) (c : SlotClass) (w : BitVec 32), i.wf = true ∧ encode i = some (c, w) ∧ decodeSlot c w = .ok i.canon :=
  ⟨.add 7#3 false 63#6 (.latch 7#3) (.imm 31#5), .S, 0x01EFE3EF#32, by decide, by decide +kernel, by decide +kernel⟩

theorem test_witness_FalsePredicateIsNop :
    ∃ (i : Instr) (s : State), (i.shape.cls = some .S ∨ i.shape.cls = some .M ∨ i.shape.cls = some .X ∨ i.shape.cls = some .K) ∧
      s.core.arch.preg i.shape.pred.toNat = false :=
  ⟨.ret 7#3, demo, .inr (.inr (.inr rfl)), by decide +kernel⟩

/-- A machine whose partition has a handler, or not, and whose job is cancelled, or not. -/
def trapping (handler : Bool) (cancel : Bool) : State :=
  withH fun h => { h with
    parts := h.parts.set 0 (if handler then { part0 with handler := 0#16 } else part0)
    images := [(0, { units := [{}] })]
    accounts := [(0, { st := if cancel then .cancelling else .opn, level := .job, out := 2 ^ 127, allow := 1000#64 })] }

theorem test_witness_TrapEntry :
    ∀ h c : Bool, ∃ (s : State) (u : Nat) (y : Uni), s.cur ≠ rangerId ∧ s.rollback.core.unit = some u ∧ s.rollback.unitAt u = some y ∧ y.st ≠ .ended ∧
      0 < u ∧ u < s.rollback.hub.nextUnit ∧ RisingKeys s.rollback.hub.units ∧ s.rollback.cancelling s.rollback.core.hold = c ∧ NoLoads s.rollback ∧
      (∃ ps, s.rollback.slotPages s.rollback.core.part (stackOf s.cur) y.evac 0 6 = .ok ps ∧
        ∀ a b, a < b → b < 6 → ps.getD a 0 + 2 ^ 16 ≤ ps.getD b 0 ∨ ps.getD b 0 + 2 ^ 16 ≤ ps.getD a 0) ∧
      (s.rollback.handlerDecl s.rollback.core.part).isSome = h ∧ s.rollback.core.handling = none ∧ s.rollback.core.isHandler = false ∧ FitsImage s.rollback.core := by
  intro h c
  have hr : ∀ a b, a < b → b < 6 → [0x100000, 0x110000, 0x120000, 0x130000, 0x140000, 0x150000].getD a 0 + 2 ^ 16 ≤
      [0x100000, 0x110000, 0x120000, 0x130000, 0x140000, 0x150000].getD b 0 ∨ [0x100000, 0x110000, 0x120000, 0x130000, 0x140000, 0x150000].getD b 0 + 2 ^ 16 ≤
      [0x100000, 0x110000, 0x120000, 0x130000, 0x140000, 0x150000].getD a 0 := by
    have : ∀ b < 6, ∀ a < b, [0x100000, 0x110000, 0x120000, 0x130000, 0x140000, 0x150000].getD a 0 + 2 ^ 16 ≤
      [0x100000, 0x110000, 0x120000, 0x130000, 0x140000, 0x150000].getD b 0 := by decide
    exact fun a b h1 h2 => .inl (this b h2 a h1)
  cases h <;> cases c
  · exact ⟨trapping false false, 1, uni0, by decide +kernel, by decide +kernel, by decide +kernel, by decide, by decide, by decide +kernel,
      by unfold RisingKeys; decide +kernel, by decide +kernel, by unfold NoLoads; decide +kernel, ⟨_, by decide +kernel, hr⟩, by decide +kernel, by decide +kernel,
      by decide +kernel, by unfold FitsImage; decide +kernel⟩
  · exact ⟨trapping false true, 1, uni0, by decide +kernel, by decide +kernel, by decide +kernel, by decide, by decide, by decide +kernel,
      by unfold RisingKeys; decide +kernel, by decide +kernel, by unfold NoLoads; decide +kernel, ⟨_, by decide +kernel, hr⟩, by decide +kernel, by decide +kernel,
      by decide +kernel, by unfold FitsImage; decide +kernel⟩
  · exact ⟨trapping true false, 1, uni0, by decide +kernel, by decide +kernel, by decide +kernel, by decide, by decide, by decide +kernel,
      by unfold RisingKeys; decide +kernel, by decide +kernel, by unfold NoLoads; decide +kernel, ⟨_, by decide +kernel, hr⟩, by decide +kernel, by decide +kernel,
      by decide +kernel, by unfold FitsImage; decide +kernel⟩
  · exact ⟨trapping true true, 1, uni0, by decide +kernel, by decide +kernel, by decide +kernel, by decide, by decide, by decide +kernel,
      by unfold RisingKeys; decide +kernel, by decide +kernel, by unfold NoLoads; decide +kernel, ⟨_, by decide +kernel, hr⟩, by decide +kernel, by decide +kernel,
      by decide +kernel, by unfold FitsImage; decide +kernel⟩

/-- The ranger core within a trap and outside one. -/
theorem test_witness_TrapEntry_ranger : ∀ b : Bool, ∃ s : State, s.cur = rangerId ∧ s.core.unit = none ∧ s.core.inTrap = b :=
  fun b => ⟨{ ranger with core := { ranger.core with inTrap := b } }, rfl, rfl, rfl⟩

/-- The machine with nothing due. -/
def idle : State := { State.reset with due := [] }

theorem test_witness_StepKeepsMemoryCanonical : ∃ s t : State, s.Canonical ∧ step s = .next t :=
  ⟨idle, _, by unfold State.Canonical; decide +kernel, rfl⟩

theorem test_witness_StepKeepsOrder : ∃ s t : State, s.Canonical ∧ s.Orderly ∧ step s = .next t :=
  ⟨idle, _, by unfold State.Canonical; decide +kernel, by
    constructor <;> first | (unfold RisingKeys; decide +kernel) | (unfold Spad.Tidy RisingKeys; decide +kernel) | decide +kernel, rfl⟩

/-! ### Where the clauses of a statement meet -/

/-- A direct load of the last line of a bound stash row, filled under a lease that has not run out, with no queue load before it. -/
theorem test_witness_ScratchLoadResults_stash :
    ∃ (s : State) (p : BitVec 3) (d : BitVec 6) (a b : Src) (x y : Word), PredOn s p ∧ NoAnchorDue s ∧ s.readS .int a = .ok x ∧ s.readS .int b = .ok y ∧
      (let off := (x + y).toNat
       FreeS s false d ∧ s.directOk off 8 = .ok () ∧ off % 8 = 0 ∧ s.core.linesToFill off 8 = [] ∧ s.core.oldestLoad = none ∧
         s.core.decl.stashLines off 8 ≠ []) :=
  ⟨(fun s : State => { s with core := { s.core with pad := { s.core.pad with lines := [(63, stashLine 0xFFFFFF true 0#64)] } } })
      (stashed (BitVec.ofNat 64 (64 * 1024 - 8))), 0#3, 0#6, .reg 1#6, .imm 0#5, _, _, rfl, .inl (by decide), rfl, rfl, .inr fun q h => (by cases h),
    by decide +kernel⟩

/-- A row bound and one freed. -/
theorem test_witness_StashControlResults_notes :
    ∃ (s : State) (p : BitVec 3) (a : Src), PredOn s p ∧ s.readS .int a = .ok 3#64 ∧ (3#64).toNat < s.core.decl.stash ∧
      NatMap.find 3 s.core.arch.bound = some 0x3FFFFC00#64 :=
  ⟨stashed 3#64, 0#3, .reg 1#6, rfl, rfl, by decide +kernel⟩

/-- A POST of 0 at a barrier that no token and no trigger names. -/
theorem test_witness_BarrierResults_completes :
    ∃ (s : State) (p : BitVec 3) (a b : Src) (x : Word) (loc : BarLoc),
      PredOn s p ∧ s.readS .int a = .ok x ∧ s.readS .int b = .ok 0#64 ∧ barNamed s [a, b] true true x loc ∧ barSound s loc ∧
        barCount (s.barAt loc) = 0 ∧ s.hub.barToks = [] ∧ s.trigFor loc = none :=
  ⟨regs fun _ => 0#64, 0#3, .reg 1#6, .reg 2#6, _, .raw 1 0, rfl, rfl, rfl,
    ⟨by decide +kernel, rfl, by decide +kernel⟩, ⟨by decide +kernel, by decide +kernel, unspilled_of (by decide +kernel)⟩,
    by decide +kernel⟩

/-- One above the largest count; a place one byte past the raw region; an address one byte off. -/
theorem test_witness_BarrierResults_traps :
    (∃ (s : State) (p : BitVec 3) (a b : Src) (x n : Word), PredOn s p ∧ s.readS .int a = .ok x ∧ s.readS .int b = .ok n ∧ n.toNat = 2 ^ 40 + 1) ∧
    (∃ (s : State) (p : BitVec 3) (a b : Src) (x n : Word), PredOn s p ∧ s.readS .int a = .ok x ∧ s.readS .int b = .ok n ∧ n.toNat ≤ 2 ^ 40 ∧
      s.core.decl.rawBytes + 1 = x.toNat + 64) ∧
    ∃ (s : State) (p : BitVec 3) (a b : Src) (x n : Word), PredOn s p ∧ s.readS .int a = .ok x ∧ s.readS .int b = .ok n ∧ n.toNat ≤ 2 ^ 40 ∧
      x.toNat + 64 ≤ s.core.decl.rawBytes ∧ x.toNat % 64 = 1 :=
  ⟨⟨regs fun _ => 0x10000000001#64, 0#3, .reg 1#6, .reg 2#6, _, _, rfl, rfl, rfl, by decide⟩,
    ⟨regs fun _ => BitVec.ofNat 64 (52 * 1024 - 63), 0#3, .reg 1#6, .reg 2#6, _, _, rfl, rfl, rfl, by decide +kernel⟩,
    ⟨regs fun _ => 1#64, 0#3, .reg 1#6, .reg 2#6, _, _, rfl, rfl, rfl, by decide +kernel⟩⟩

/-- A barrier at 0x3000 whose STATE is 11, and so open. -/
theorem test_witness_BarrierResults_stall :
    ∃ (s : State) (p : BitVec 3) (a : Src) (x : Word) (loc : BarLoc),
      PredOn s p ∧ s.readS .int a = .ok x ∧ barNamed s [a] false false x loc ∧ barState (s.barAt loc) = 0 :=
  ⟨{ regs fun _ => 0x3000#64 with mem := [(0x1000, 0x01#8), (0x1001, 0x20#8), (0x2000, 0x0B#8), (0x3008, 0x06#8)] }, 0#3, .reg 1#6, _, .mem 0x3000,
    rfl, rfl, ⟨by decide +kernel, rfl, reaches_of (by decide +kernel)⟩, by decide +kernel⟩

/-- The job of a unit, cancelled, with more of its weight out than the unit holds. -/
theorem test_witness_MessageAccountResults_cancelled :
    ∃ (s : State) (p : BitVec 3) (w : Bool) (d : BitVec 6) (a : Src) (x : Word), PredOn s p ∧ s.readS .int a = .ok x ∧
      MayName s (x.setWidth 32) ∧ FreeS s w d ∧ s.cancelling s.core.hold = true ∧
      ¬ ((s.accAt (accId (x.setWidth 32))).st = .done ∨ (s.accAt (accId (x.setWidth 32))).out = s.heldIn (x.setWidth 32)) :=
  ⟨withH fun h => { h with accounts := [(0, { st := .cancelling, level := .launch, out := 2 ^ 127 })] }, 0#3, true, 0#6, .imm 0#5, 0#64,
    rfl, rfl, ⟨by decide +kernel, .inr rfl⟩, .inl rfl, by decide +kernel⟩

/-- An account that is done, and a handle of another generation. -/
theorem test_witness_CancelBarResults_named :
    (∃ (s : State) (p : BitVec 3) (a : Src) (x : Word), PredOn s p ∧ s.readS .int a = .ok x ∧ MayName s (x.setWidth 32) ∧
      (s.accAt (accId (x.setWidth 32))).st = .done) ∧
    ∃ (s : State) (p : BitVec 3) (a : Src) (x : Word), PredOn s p ∧ s.readS .int a = .ok x ∧ ¬ MayName s (x.setWidth 32) :=
  ⟨⟨phased 0, 0#3, .imm 4#5, 4#64, rfl, rfl, ⟨by decide +kernel, .inr (by decide +kernel)⟩, by decide +kernel⟩,
    ⟨phased 0, 0#3, .imm 9#5, 9#64, rfl, rfl, fun h => absurd h.1 (by decide +kernel)⟩⟩

/-- No tree 64; a tree that the core is no member of. -/
theorem test_witness_CancelBarResults_tree :
    (∃ (s : State) (x : Word), x = 64#64 ∧ (∃ a : Src, s.readS .int a = .ok x) ∧ ¬ (x.toNat < 64)) ∧
    ∃ (s : State) (b : Src) (x : Word), s.readS .int b = .ok x ∧ x.toNat < 64 ∧ (s.treeOf (64 * s.core.part + x.toNat)).isNone = true :=
  ⟨⟨regs fun _ => 64#64, 64#64, rfl, ⟨.reg 1#6, rfl⟩, by decide⟩, ⟨regs fun _ => 63#64, .reg 1#6, _, rfl, by decide +kernel⟩⟩

/-- A unit below each level that the forms ask for. -/
theorem test_witness_SystemRegisterResults_denied :
    ∃ (s : State) (p : BitVec 3), PredOn s p ∧ s.level = 0 ∧ s.level < sysReadLevel 0x7F ∧ s.level < 2 ∧ s.level < 1 := ⟨demo, 0#3, rfl, by decide +kernel⟩

/-- A unit, a handler whose action is 3, and a core whose interval another holds a line of. -/
theorem test_witness_TrapFormResults_denied :
    (∃ (s : State) (p : BitVec 3) (a : Src) (x : Word), PredOn s p ∧ s.readS .int a = .ok x ∧ s.level < 1) ∧
    (∃ (s : State) (p : BitVec 3) (a : Src) (x : Word), PredOn s p ∧ s.readS .int a = .ok x ∧ 1 ≤ s.level ∧ s.tretOk (fld x 0 2) = false) ∧
    ∃ (s : State) (p : BitVec 3) (a : Src) (x : Word), PredOn s p ∧ s.readS .int a = .ok x ∧ s.core.oldestLoad = none ∧ s.core.xlinvHit = false ∧ s.heldOff = true :=
  ⟨⟨demo, 0#3, .imm 0#5, _, rfl, rfl, by decide +kernel⟩, ⟨handler, 0#3, .imm 3#5, 3#64, rfl, rfl, by decide +kernel⟩,
    ⟨(fun s : State => { s with core := { s.core with withheld := [{ va := 0x100, pa := 0x100, data := 5#512, mask := 1#64 }] } }) (withH fun h => { h with anchor := some (6, 0, [0x100]) }), 0#3, .imm 0#5, 0#64,
      rfl, rfl, by decide +kernel⟩⟩

/-- Nothing read, and one line read that can be renewed with a store withheld. -/
theorem test_witness_TrapFormResults_confirms :
    (∃ s : State, ConfirmsNow s ∧ s.core.withheld = []) ∧ ∃ s : State, ConfirmsNow s ∧ s.core.withheld.length = 1 ∧ s.core.reads.length = 1 :=
  ⟨⟨demo, by unfold ConfirmsNow; decide +kernel⟩,
    ⟨withC fun x => { x with withheld := [{ va := 0x100, pa := 0x100, data := 5#512, mask := 1#64 }], reads := [(0x100, 0#64)] }, by unfold ConfirmsNow; decide +kernel⟩⟩

/-- The ranger core at a partition that is off; a unit; a handler that names a quadrant of no one, and boost of SRAM. -/
theorem test_witness_PrivilegedFormResults_denied :
    (∃ (s : State) (b : Src) (y : Word), s.readS .int b = .ok y ∧ s.cur = rangerId ∧ (s.partAt (fld y 8 3)).st = 0#2) ∧ (∃ s : State, s.level < 1 ∧ s.level < 2) ∧
    (∃ (s : State) (a : Src) (x : Word), s.readS .int a = .ok x ∧ 1 ≤ s.level ∧ ¬ (s.cur = rangerId ∨ (s.partAt s.core.part).quads.getLsbD (fld x 1 5) = true)) ∧
    ∃ (s : State) (a b : Src) (x y : Word), s.readS .int a = .ok x ∧ s.readS .int b = .ok y ∧ 1 ≤ s.level ∧ bitAt x 0 = true ∧ fld y 0 4 = 8 :=
  ⟨⟨rangerWith 0x700#64 [], .reg 1#6, _, rfl, by decide +kernel⟩, ⟨demo, by decide +kernel⟩,
    ⟨{ handler with hub := { handler.hub with parts := handler.hub.parts.set 0 { part0 with quads := 1#32 } } }, .imm 2#5, 2#64, rfl, by decide +kernel⟩,
    ⟨handler, .imm 1#5, .imm 8#5, 1#64, 8#64, rfl, rfl, by decide +kernel⟩⟩

/-- A hub domain while it steps up, and at rest with the ranger core running its own code. -/
theorem test_witness_PrivilegedFormResults_held :
    (∃ (s : State) (a b : Src) (x y : Word), s.readS .int a = .ok x ∧ s.readS .int b = .ok y ∧ s.level = 2 ∧ isHubSram x.toNat = true ∧ fld y 0 3 < s.opOf x.toNat ∧
      (NatMap.find x.toNat s.power.ups).isSome = true ∧ NatMap.find x.toNat s.power.waiting = none) ∧
    ∃ (s : State) (a b : Src) (x y : Word), s.readS .int a = .ok x ∧ s.readS .int b = .ok y ∧ s.level = 2 ∧ isHubSram x.toNat = true ∧ fld y 0 3 < s.opOf x.toNat ∧
      NatMap.find x.toNat s.power.ups = none ∧ s.runsOn s.core.self = some s.cur :=
  ⟨⟨(fun s : State => { s with power := { s.power with ups := [(67, { point := 7, entries := [] })] } }) (rangerWith 67#64 [(67, 6)]), .reg 1#6, .imm 5#5, _, _, rfl, rfl,
      by decide +kernel⟩,
    ⟨rangerWith 67#64 [(67, 7)], .reg 1#6, .imm 6#5, _, _, rfl, rfl, by decide +kernel⟩⟩

/-- The present point of the last quadrant's SRAM, and a point that a unit of more rows than any has forbids. -/
theorem test_witness_RangerPowerResults_answered :
    (∃ (s : State) (a b : Src) (x y : Word), s.readS .int a = .ok x ∧ s.readS .int b = .ok y ∧ s.level = 2 ∧ isSram x.toNat = true ∧ fld y 0 4 = s.opOf x.toNat ∧
      NatMap.find x.toNat s.power.ups = none ∧ s.stepOf x.toNat = none ∧ NatMap.find x.toNat s.power.waiting = none ∧ s.runsOn s.core.self = some s.cur) ∧
    ∃ (s : State) (a b : Src) (x y : Word), s.readS .int a = .ok x ∧ s.readS .int b = .ok y ∧ s.level = 2 ∧ isSram x.toNat = true ∧ fld y 0 4 < s.opOf x.toNat ∧
      NatMap.find x.toNat s.power.ups = none ∧ s.stepOf x.toNat = none ∧ NatMap.find x.toNat s.power.waiting = none ∧ s.runsOn s.core.self = some s.cur ∧
      s.rowBlocked x.toNat (fld y 0 4) = true := by
  refine ⟨⟨rangerWith 63#64 [(63, 7)], .reg 1#6, .imm 7#5, _, _, rfl, rfl, by decide +kernel⟩, ?_⟩
  let s : State := (fun s : State => { s with hub := { s.hub with units := [(1, { uni0 with rows := 9000 })] } }) (rangerWith 4#64 [(4, 7)])
  refine ⟨s, .reg 1#6, .imm 0#5, 4#64, 0#64, rfl, rfl, by decide +kernel, by decide +kernel, by decide +kernel, by decide +kernel, by decide +kernel, by decide +kernel,
    by decide +kernel, ?_⟩
  unfold State.rowBlocked
  refine List.any_eq_true.mpr ⟨5, by decide +kernel, ?_⟩
  have h : (s.holders 5).map (fun u => u.2.rowBase + u.2.rows) = [9000] := by decide +kernel
  have hc : s.capRowsAt 5 0 < 9000 := Nat.lt_of_le_of_lt (Nat.min_le_left 8192 _) (by decide)
  obtain ⟨u, hu, hx⟩ := List.mem_map.mp (show 9000 ∈ (s.holders 5).map (fun u => u.2.rowBase + u.2.rows) by rw [h]; exact List.mem_singleton.mpr rfl)
  rw [Bool.or_eq_true]
  exact .inr (List.any_eq_true.mpr ⟨u, hu, by rw [hx]; exact decide_eq_true hc⟩)

/-- Unit 1 stalled with a token of exponent 127 of an account of package 9. -/
theorem test_witness_WeightActionResults_far :
    ∃ (s : State) (h : Handle) (c : Nat) (w : Hold), w = s.weightOf c ∧ (s.coreAt c).phase = .stalled ∧ (s.coreAt c).borrow = .idle ∧
      w.valid = true ∧ w.acct = h ∧ w.exp = 127#7 ∧ w.pkg ≠ s.fabric.num :=
  ⟨withC fun x => { x with phase := .stalled, hold := { hold0 with exp := 127#7, pkg := 9#16 } }, 0#32, 5, _, rfl, by decide +kernel⟩

/-- The ranger core, which creates for job 0, with a borrow on its way. -/
theorem test_witness_WeightActionResults_ranger :
    ∃ (s : State) (h j : Handle) (w : Hold), w = s.weightOf rangerId ∧ (s.coreAt rangerId).borrow = .asked ∧ w.valid = true ∧ w.acct = h ∧ s.hub.job = some j ∧
      s.live j = true :=
  ⟨{ ranger with
      core := { ranger.core with borrow := .asked }
      hub := { ranger.hub with job := some 0#32, accounts := [(0, { st := .opn, level := .job, out := 2 ^ 127, owner := some { exp := 127#7, valid := true } })] } },
    0#32, 0#32, _, rfl, by decide +kernel⟩

/-- A combiner in its first period, and at the end of it. -/
theorem test_witness_WeightActionResults_period :
    (∃ s : State, RisingKeys s.hub.combs ∧ s.time / 256 ≤ NatMap.findD 0 5 s.hub.epochs) ∧
    ∃ s : State, RisingKeys s.hub.combs ∧ s.time = 256 ∧ ¬ s.time / 256 ≤ NatMap.findD 0 5 s.hub.epochs :=
  ⟨⟨combined, by unfold RisingKeys; decide +kernel⟩, ⟨{ combined with time := 256 }, by unfold RisingKeys; decide +kernel⟩⟩

/-- A trigger that matches a message of a cancelled job. -/
theorem test_witness_MessageActionResults_cancelled :
    ∃ (s : State) (m : Message) (g : Trigger), s.overtakes m = false ∧ s.messagePart m ≠ none ∧ s.ownerOfQuad (quadOf m.dcore.toNat) = s.messagePart m ∧
      m.label ≠ 0xFFFF#16 ∧ (s.coreAt m.dcore.toNat).trigOf m = some g ∧ s.cancelling (Tok.hold m.tok) = true :=
  ⟨{ (withC fun x => { x with trigs := Vector.ofFn fun i => if i.val = 15 then some {
        label := 7#16, unit := 0, prio := 0, bar := none, tok := { acct := 0#32, pkg := 0#16, exp := 4#7 }, pair := false, part := 0, pts := 0#64 } else none }) with
      hub := { demo.hub with accounts := [(0, { st := .cancelling, level := .job, out := 2 ^ 127, allow := 1000#64 })] } },
    msg 7#16 5#8, { label := 7#16, unit := 0, prio := 0, bar := none, tok := { acct := 0#32, pkg := 0#16, exp := 4#7 }, pair := false, part := 0, pts := 0#64 },
    by decide +kernel⟩

/-- Core 5 with four queue loads outstanding. -/
def capped : Core :=
  { core0 with q := vput core0.q 7 { entries := List.replicate 4 {
      val := .scalar 0#64, mask := 0#128, filled := false, kind := .load, id := 0, old := false, req := none } } }

/-- A chunk of a core at its cap of four requests, with four queue loads outstanding. -/
theorem test_witness_ChunkActionResults_cap :
    ∃ (s : State) (x lo : Nat) (f : Xfer), s.xferAt x = some f ∧ lo ∈ f.todo ∧ f.faulted = false ∧ f.sentOut = [] ∧ f.isGet = false ∧
      s.requestRoom f.core = false :=
  ⟨moving 7 record0 id fun s => { s with core := capped, power := { s.power with cap := [(0, 4)] } }, 1, 0, newXfer hold0 1 5 0 7 7#32 0x3000#64 (BitVec.ofNat 512 record0), by decide +kernel⟩

/-- A chunk half of whose words have landed. -/
theorem test_witness_ChunkActionResults_half :
    ∃ (s : State) (x lo : Nat) (f : Xfer) (ps qs : List Nat), PlainChunk s x lo f ps qs ∧ recOp f.record = 0 ∧ (s.halfOf (s.landerOf x f) lo).isSome = true := by
  refine ⟨moving 7 record0 id fun s => { s with hub := { s.hub with halves := [{ spkg := 0#16, xfer := 1, lo := 0, words := 1#64, wts := 0#64 }] } }, 1, 0,
    newXfer hold0 1 5 0 7 7#32 0x3000#64 (BitVec.ofNat 512 record0), [0, 1, 2, 3], [0x3000, 0x3001, 0x3002, 0x3003], ?_, by decide +kernel⟩
  unfold PlainChunk; decide +kernel

/-- A partition whose handler is the first unit of its image, and a unit of it. -/
theorem test_witness_ChannelActionResults_handled : ∃ (s : State) (y : Uni), Handled s y ∧ s.unitAt 1 = some y :=
  ⟨withH fun h => { h with parts := h.parts.set 0 { part0 with handler := 0#16 }, images := [(0, { units := [{}] })] }, uni0, by unfold Handled; decide +kernel⟩

/-- A leaf of another core of stack 7 is still in use, as an invalidation waits for the stack. -/
theorem test_witness_HubActionResults_unacked :
    ∃ (s : State) (v : Inval) (k c : Nat), v ∈ s.hub.inval ∧ k = 7 ∧ c = 255 ∧ c ≠ v.core ∧ (s.coreAt c).xlinvHit = true ∧ k ∈ v.holders :=
  ⟨{ withH (fun h => { h with inval := [{ core := 5, part := 0, va := none, holders := [7] }] }) with others := [(255, { xlinvHit := true })] }, { core := 5, part := 0, va := none, holders := [7] }, 7, 255,
    List.mem_singleton.mpr rfl, by decide +kernel⟩

/-- Partition 0 gives up a window, with no unit of it running. -/
theorem test_witness_HubActionResults_window :
    ∃ (s : State) (p : Nat) (new : PartDesc), (s.hub.grants.find? fun g => decide (g.1 = p)) = some (p, new) ∧ ((s.partAt p).quadsLost new).all s.quadIdle = true ∧
      (s.partAt p).windowsWithin new = false ∧ s.partIdle p = true :=
  ⟨{ withH (fun h => { h with grants := [(0, { part0 with windows := [(0, 0x7FFF)] })], units := [] }) with core := {} }, 0, { part0 with windows := [(0, 0x7FFF)] },
    by decide +kernel⟩

/-- A logic domain that changes its point with a return in the combiner of its core 5. -/
theorem test_witness_PowerStepActionResults_logic :
    ∃ (s : State) (d e k : Nat), Ordered s ∧ RisingKeys s.hub.combs ∧ s.opOf d ≠ k ∧ e ∈ coresOfDomain d ∧ (s.combAt e).length = 32 :=
  ⟨combined, 0, 5, 7, by unfold Ordered RisingKeys; decide +kernel⟩

theorem rowBlocked_of {s : State} {d k c : Nat} (hc : c ∈ coresOfDomain d) (hu : ((s.holders c).any fun u => decide (8192 < u.2.rowBase + u.2.rows)) = true) :
    s.rowBlocked d k = true := by
  obtain ⟨u, hm, hx⟩ := List.any_eq_true.mp hu
  have h : s.capRowsAt c k < u.2.rowBase + u.2.rows := by
    unfold State.capRowsAt
    exact Nat.lt_of_le_of_lt (Nat.min_le_left ..) (of_decide_eq_true hx)
  unfold State.rowBlocked
  refine List.any_eq_true.mpr ⟨c, hc, ?_⟩
  rw [Bool.or_eq_true]
  exact .inr (List.any_eq_true.mpr ⟨u, hm, decide_eq_true h⟩)

/-- Domain 4 at the end of a step to point 0, with a unit of 9,000 rows on core 5. -/
def settlingStep : State :=
  { withP fun p => { p with op := [(4, 7)], steps := [(4, { target := 0, since := 0, settling := some { point := 0, entries := [] } })] } with
    hub := { demo.hub with units := [(1, { uni0 with rows := 9000 })] } }

/-- A step that settles under a row that a unit holds. -/
theorem test_witness_PowerStepActionResults_blocked :
    ∃ (s : State) (d : Nat) (st : Step) (n : Nudge), Ordered s ∧ s.stepOf d = some st ∧ st.settling = some n ∧ st.evacs = [] ∧ n.entries = [] ∧
      NatMap.find d s.power.waiting = none ∧ s.rowBlocked d n.point = true := by
  refine ⟨settlingStep, 4, { target := 0, since := 0, settling := some { point := 0, entries := [] } }, { point := 0, entries := [] },
    by unfold Ordered RisingKeys; decide +kernel, by decide +kernel, rfl, rfl, rfl, by decide +kernel, ?_⟩
  exact rowBlocked_of (c := 5) (by decide +kernel) (by decide +kernel)

/-- A message whose token is of package 9's account. -/
theorem test_witness_PacketFlowActionResults_far :
    ∃ (s : State) (k : Packet) (m : Message), s.behind k = false ∧ k.dpkg = s.fabric.num ∧ k.body = .message m ∧ k.tok = none ∧ m.tok.pkg ≠ s.fabric.num :=
  ⟨demo, packet 0#16 (.message { msg 7#16 5#8 with tok := { acct := 0#32, pkg := 9#16, exp := 4#7 } }), { msg 7#16 5#8 with tok := { acct := 0#32, pkg := 9#16, exp := 4#7 } },
    by decide +kernel, rfl, rfl, rfl, by decide⟩

/-- The meter of core 5 within its window and at the end of it. -/
theorem test_witness_PacketFlowActionResults_window :
    (∃ s : State, s.time / 4096 ≤ s.hub.windows ∧ s.fabric.meters ≠ []) ∧ ∃ s : State, s.time = 4096 ∧ ¬ s.time / 4096 ≤ s.hub.windows ∧ s.fabric.meters ≠ [] :=
  ⟨⟨flowing 64, by decide +kernel⟩, ⟨{ flowing 64 with time := 4096 }, by decide +kernel⟩⟩

theorem test_witness_LinkActionResults_circuits : ∃ (s : State) (port : Nat), port = 31 ∧ (s.portAt port).up = true ∧ s.circuitsBy port = [] :=
  ⟨ported id id, 31, by decide +kernel⟩

/-! ### Ill-formed terms, which WellFormed refuses -/

/-- SYSRD of 0x7F, a number that no register has (R391). -/
theorem test_wf_reserved : (Instr.sysrd 0#3 false 5#6 0x7F#7).wf = false := by decide
/-- Codes 90 and 91 in a scalar field (R40). -/
theorem test_wf_scalar_special : (Instr.add 0#3 false 1#6 (.special 2#3) (.reg 0#6)).wf = false := by decide
/-- A predicate source above p7 (R39). -/
theorem test_wf_predicate_source : (Instr.pand 0#3 false 1#6 (.reg 8#6) (.reg 0#6)).wf = false := by decide
/-- A mask source that is a small immediate (R39). -/
theorem test_wf_mask_source : (Instr.vmand 0#3 false 1#6 (.imm 0#5) (.reg 0#6)).wf = false := by decide
/-- A predicate destination above p7. -/
theorem test_wf_predicate_dest : (Instr.pand 0#3 false 8#6 (.reg 0#6) (.reg 0#6)).wf = false := by decide
/-- A queue destination above q7. -/
theorem test_wf_queue_dest : (Instr.ldqv 0#3 8#6 (.reg 0#6) (.reg 0#6)).wf = false := by decide
/-- NOWB with a destination that is not zero (R47). -/
theorem test_wf_nowb : (Instr.add 0#3 true 1#6 (.reg 0#6) (.reg 0#6)).wf = false := by decide
/-- The legal forms beside them. -/
theorem test_wf_good : (Instr.add 0#3 true 0#6 (.special 0#3) (.imm 16#5)).wf = true ∧ (Instr.pand 0#3 false 7#6 (.reg 7#6) (.reg 0#6)).wf = true := by decide

/-! ### Decoding: the words that the spec writes out -/

theorem test_decode_addi : decodeSlot .S 0x40410001#32 = .ok (.addi 2#3 false 4#6 1#14) := by decide +kernel
theorem test_decode_vadd : decodeSlot .V 0x0800C1DF#32 = .ok (.vadd .f32 0#3 false 3#6 (.reg 3#6) (.special 7#3)) := by decide +kernel
theorem test_decode_br : decodeSlot .K 0x011FFFF8#32 = .ok (.br 0#3 0x1FFFF8#21) := by decide +kernel
theorem test_decode_cmplti : decodeSlot .S 0x480157FD#32 = .ok (.cmplti 0#3 false 5#6 2#3 0x7FD#11) := by decide +kernel
theorem test_decode_fcvti : decodeSlot .S 0x6A010102#32 = .ok (.fcvti .f32 0#3 false 4#6 (.reg 2#6) .i64 .zero) := by decide +kernel
theorem test_decode_vfma : decodeSlot .V 0x21220307#32 = .ok (.vfma .bf16 1#3 false 8#6 (.reg 6#6) (.reg 7#6)) := by decide +kernel
theorem test_decode_vcvtx : decodeSlot .V 0xA800C081#32 = .ok (.vcvtx .toE4m3 0#3 false 3#6 (.reg 1#6) .f32 .near true) := by decide +kernel
theorem test_decode_engwr : decodeSlot .K 0x40008106#32 = .ok (.engwr 0#3 0x04#8 2#6 3#6) := by decide +kernel
theorem test_decode_sixgo : decodeSlot .K 0x430C020A#32 = .ok (.sixgo 0#3 4#6 5#6) := by decide +kernel
theorem test_decode_exp2 : decodeSlot .F 0x0120C100#32 = .ok (.exp2 .f32 1#3 false 3#6 (.reg 2#6)) := by decide +kernel
theorem test_decode_st : decodeSlot .M 0x36007C02#32 = .ok (.st .n64 0#3 1#6 (.imm 8#5) (.reg 2#6)) := by decide +kernel
theorem test_decode_qwait : decodeSlot .K 0x1000BA00#32 = .ok (.qwait 0#3 2#3 (.imm 4#5)) := by decide +kernel
theorem test_decode_cpygo : decodeSlot .K 0x42090090#32 = .ok (.cpygo 0#3 2#3 1#6 8#6) := by decide +kernel
theorem test_decode_acas : decodeSlot .M 0x60004206#32 = .ok (.acas 0#3 false 1#6 (.reg 4#6) 3#5) := by decide +kernel
theorem test_decode_fence : decodeSlot .K 0x13000008#32 = .ok (.fence 0#3 0x08#8) := by decide +kernel
theorem test_decode_send : decodeSlot .K 0x21200184#32 = .ok (.send 1#3 (.reg 3#6) (.reg 4#6)) := by decide +kernel
theorem test_decode_glopen : decodeSlot .K 0x30004273#32 = .ok (.glopen 0#3 false 1#6 (.reg 4#6) (.imm 3#5)) := by decide +kernel
theorem test_decode_glhold : decodeSlot .K 0x31003988#32 = .ok (.glhold 0#3 (.imm 3#5) (.reg 8#6)) := by decide +kernel
theorem test_decode_syswr : decodeSlot .K 0x51000302#32 = .ok (.syswrArith 0#3 (.reg 2#6)) := by decide +kernel
/-- Words whose opcode is assigned to nothing in their class (R54, R58, R61). -/
theorem test_decode_none : (decodeSlot .S 0x00000001#32).toOption = none ∧ (decodeSlot .X 0xFF000000#32).toOption = none := by decide +kernel

/-- Opcodes of R58 to R64 in the fields of R36 and R59, put together by hand. -/
theorem test_decode_mxpush : decodeSlot .X 0x0100C200#32 = .ok (.mxpush 0#3 .g88 3#5 (.reg 4#6)) := by decide +kernel
theorem test_decode_post : decodeSlot .M 0x68000205#32 = .ok (.post 0#3 false (.reg 4#6) (.reg 5#6)) := by decide +kernel
theorem test_decode_vredadd : decodeSlot .V 0xC020C100#32 = .ok (.vredadd .f32 1#3 false 3#6 (.reg 2#6)) := by decide +kernel
theorem test_decode_vmand : decodeSlot .V 0xE8008103#32 = .ok (.vmand 0#3 false 2#6 (.reg 2#6) (.reg 3#6)) := by decide +kernel

/-! ### Results that the spec works out -/

/-- The result that a slot puts in flight. -/
def out (s : State) (i : Instr) : Option Val :=
  match exec i s with
  | .next t => t.core.flights.getLast?.map fun f => f.val
  | .fault _ | .refused _ => none

/-- Core 5 with s1 and s2. -/
def two (a b : Word) : State := regs fun i => if i = 1 then a else if i = 2 then b else 0#64

/-- R112's examples of the three products. -/
theorem test_mul : out (two 0xFFFFFFFFFFFFFFFF 2) (.mul 0#3 false 3#6 (.reg 1#6) (.reg 2#6)) = some (.scalar 0xFFFFFFFFFFFFFFFE#64) := by decide +kernel
theorem test_mulh : out (two 0xFFFFFFFFFFFFFFFF 2) (.mulh 0#3 false 3#6 (.reg 1#6) (.reg 2#6)) = some (.scalar 0xFFFFFFFFFFFFFFFF#64) := by decide +kernel
theorem test_mulhn : out (two 0xFFFFFFFFFFFFFFFF 2) (.mulhn 0#3 false 3#6 (.reg 1#6) (.reg 2#6)) = some (.scalar 1#64) := by decide +kernel
/-- The worked extraction. -/
theorem test_bfx : out (two 0xC35A00 0x8810) (.bfx 0#3 false 6#6 (.reg 1#6) (.reg 2#6)) = some (.scalar 0xFFFFFFFFFFFFFFC3#64) := by decide +kernel
/-- R123's table: −2.5 down is −3, and to N64 it is 0. -/
theorem test_fcvti : out (two 0xC0200000 0) (.fcvti .f32 0#3 false 4#6 (.reg 1#6) .i64 .down) = some (.scalar 0xFFFFFFFFFFFFFFFD#64) := by decide +kernel
theorem test_fcvti_n64 : out (two 0xC0200000 0) (.fcvti .f32 0#3 false 4#6 (.reg 1#6) .n64 .near) = some (.scalar 0#64) := by decide +kernel
/-- CALL at bundle 40 sets s63 to 41 (R128). -/
theorem test_call : out (withC fun x => { x with arch := { x.arch with pc := 40#64 } }) (.call 0#3 60#21) = some (.scalar 41#64) := by decide +kernel

/-- Core 5 with a value in lane 0 of v1. -/
def lane0 (x : BitVec 4096) : State := withC fun c => { c with arch := { c.arch with v := vput c.arch.v 1 x } }

/-- Lane 0 of a vector result. -/
def low (v : Option Val) : Option (BitVec 32) := match v with | some (.vector x) => some (lane x 0) | some _ | none => none

/-- `exp.f32` of 1.0, and −0 under RSQRT (R190). -/
theorem test_exp : low (out (lane0 0x3F800000) (.exp .f32 0#3 false 3#6 (.reg 1#6))) = some 0x402DF854#32 := by decide +kernel
theorem test_rsqrt : low (out (lane0 0x80000000) (.rsqrt .f32 0#3 false 3#6 (.reg 1#6))) = some 0xFF800000#32 := by decide +kernel
/-- 1 + 2^−8 to BF16 (R90), and 1000.0 to E4M3 (R94). -/
theorem test_round : (bf16.round .near false false 0x101 (-8)).1 = 0x3F80 ∧ (bf16.round .up false false 0x101 (-8)).1 = 0x3F81 := by decide +kernel
theorem test_e4m3 : (e4m3.ofNum8 .near false true (fp32.decode false 0x447A0000)).1 = 0x7F ∧ (e4m3.ofNum8 .near false false (fp32.decode false 0x447A0000)).1 = 0x7E ∧
    (e5m2.ofNum8 .near false false (fp32.decode false 0x447A0000)).1 = 0x64 := by decide +kernel
/-- The worked exact sum of 04_numbers.md. -/
theorem test_beat : (beatFp .near false 0x3F800000#32
    (((bf16.decode false 0x4700, bf16.decode false 0x4700) :: (bf16.decode false 0xC700, bf16.decode false 0x4700) ::
      List.replicate 62 (bf16.decode false 0x3800, bf16.decode false 0x3880)).map fun x => Sys2Proof.Machine.Num.mul x.1 x.2)).1 = 0x3F800001#32 := by decide +kernel
/-- The worked placement. -/
theorem test_placement : placeHash 3#64 0#64 0#64 0#64 = 0xDAA66D13 := by decide +kernel
/-- The worked homing (R208). -/
theorem test_homing :
    ({ demo with hub := { demo.hub with art := demo.hub.art.set 0 (BitVec.ofNat 256 (1 + 4 * 2 + 0x40 * 2 ^ 32 + (0x40 * 2 ^ 32 + 0xFFFFF) * 2 ^ 64 + 0xF00 * 2 ^ 128)) } } :
      State).homeOf 0x4000005A40 = 9 := by decide +kernel
/-- The worked borrow: at the SEND after it the unit and the message hold exponent 66, and 1 goes home. -/
theorem test_borrow_split :
    let h : Hold := { exp := 65#7, pair := true, valid := true }
    h.split.1.exp = 66#7 ∧ h.split.1.pair = false ∧ h.split.2.exp = 66#7 ∧ h.splitReturn = 1 := by decide +kernel
/-- The worked session's HELLO: features 0xB of version 3 are answered 0xB and version 1. -/
theorem test_hello : ((State.reset.hello (frame0 0x0000000B00000003#64 0#64)).port.sent.map Frame.arg0) = [0x0000000B00000001#64] := by decide +kernel
/-- The cause of the trap that a slot takes. -/
def raisedBy (s : State) (i : Instr) : Option Cause :=
  match exec i s with
  | .next t => t.core.raised.map (·.1)
  | .fault _ | .refused _ => none
/-- XLINV by a unit that is no handler takes PRIVILEGE (R352, R363). -/
theorem test_privilege : raisedBy (withC fun x => { x with unit := none }) (.xlinv 0#3 (.reg 1#6) (.reg 2#6)) = some .privilege := by decide +kernel

end Sys2Proof.Tests
end

section
/-! Every form of classes S, M, X and K, NOP apart, runs as one `State.issue` on its own predicate field, so that with a false predicate
it leaves the state as it is (R45). -/

namespace Sys2Proof.Machine

/-- The predicate that a form's shape names decides whether it changes the state at all (R45): the test is the one that `State.issue` makes,
and a form that runs as one `State.issue` on its own predicate field is guarded by definition. -/
def GuardedByPredicate (i : Instr) (s : State) : Prop :=
  ∃ t, exec i s = .next (if s.core.arch.preg i.shape.pred.toNat then t else s)

theorem GuardedByPredicate.exec_of_false {i : Instr} {s : State} (hi : GuardedByPredicate i s)
    (hp : s.core.arch.preg i.shape.pred.toNat = false) : exec i s = .next s := by
  obtain ⟨t, ht⟩ := hi
  rw [ht, hp, if_neg Bool.false_ne_true]

theorem guardedByPredicate_nop (s : State) : GuardedByPredicate .nop s :=
  ⟨s, by rw [exec_nop, ite_self]; rfl⟩

theorem guardedByPredicate_of_clsS {i : Instr} (h : i.shape.cls = some .S) (s : State) : GuardedByPredicate i s := by
  cases i with
  | add | sub | and | or | xor | andn | shl | shr | sra | rotr | min | minn | max | maxn | sel | mul | mulh | mulhn | clz | popc | bfx
  | bfi | cmpeq | cmpne | cmplt | cmpltn | cmple | cmplen | pand | por | pxor | adds2 | adds3 | adds6 | adds10 | mov | addi | andi | ori
  | xori | shli | shri | srai | cmpeqi | cmplti | movi | fadd | fsub | fmul | ffma | fmin | fmax | fcmpeq | fcmplt | fcmple | fcvts | fcvti
  | fcvtf => exact ⟨_, rfl⟩
  | _ => cases h

theorem guardedByPredicate_of_clsM {i : Instr} (h : i.shape.cls = some .M) (s : State) : GuardedByPredicate i s := by
  cases i with
  | ldq | ldqv | gather | lds | ldss | sts | stss | st | stv | scatter | pref | prefs | smap | sunmap | swb | sinv | put | get | aadd
  | afxadd | afadd | amin | amax | aminn | amaxn | aincb | acas | aswap | aand | aor | axor | post => exact ⟨_, rfl⟩
  | _ => cases h

theorem guardedByPredicate_of_clsX {i : Instr} (h : i.shape.cls = some .X) (s : State) : GuardedByPredicate i s := by
  cases i with
  | mxpush | mxshift | mxacc | mxaccx | mxdrain | mxzero | mxswap => exact ⟨_, rfl⟩
  | _ => cases h

theorem guardedByPredicate_of_clsK {i : Instr} (h : i.shape.cls = some .K) (s : State) : GuardedByPredicate i s := by
  cases i with
  | nop => exact guardedByPredicate_nop s
  | br | call | ret | jr | loop | leave | qwait | cpywait | cwait | fence | bwait | spawnLaunch | spawnUnit | send | trig | untrig | quiet
  | bar | phaseOpeng | phaseOpenp | phaseAddl | phaseClose | phaseRelease | cancel | yield | exit | accq | glopen | glhold | glsend
  | glstat | glclose | engwr | chErrclr | chResume | engrd | cpygo | sixgo | sysrd | syswr | syswrCkbound | syswrQbound | syswrArith
  | syswrSrseed | syswrMode | trap | tretRetry | tretSkipk | tretEnd | xlinv | opreq | evac | partq | rvset | rfloor | rheat | rwaveRead
  | rwavePark | rwaveWake | rwaveMove | revpost | rhframeSend | rhframeRecv | rsigchk | racctCreate | racctAdd | racctRelease | racctCancel
    => exact ⟨_, rfl⟩
  | _ => cases h

/-- Settles O55: in each of the four classes the predicate guards the whole form. -/
theorem falsePredicateIsNop : Obligations.FalsePredicateIsNop := by
  intro i s hcls hp
  obtain hS | hM | hX | hK := hcls
  · exact (guardedByPredicate_of_clsS hS s).exec_of_false hp
  · exact (guardedByPredicate_of_clsM hM s).exec_of_false hp
  · exact (guardedByPredicate_of_clsX hX s).exec_of_false hp
  · exact (guardedByPredicate_of_clsK hK s).exec_of_false hp

end Sys2Proof.Machine
end

section
/-! The scalar integer, move, bit-field, compare and predicate forms (R104 to R119): how a result leaves a slot, what each shape
of the family completes with, what each operation computes, and the statements assembled from them. -/

namespace Sys2Proof.Machine

/-! ### Results of a slot whose pops are noted -/

@[simp] theorem pops_boundQueue (s : State) (as : List Src) (vec : Bool) (d : BitVec 6) :
    (s.pops as).core.boundQueue vec d = s.core.boundQueue vec d := by rw [pops_eq]; rfl

@[simp] theorem pops_hasQueue (s : State) (as : List Src) (q : BitVec 3) : (s.pops as).core.hasQueue q = s.core.hasQueue q := by
  rw [pops_eq]; rfl

/-- Noting a slot's pops and putting its result in flight with no push is all that the statements' `inFlight` does. -/
theorem pops_fly {g : Dest} (s : State) (as : List Src) (lat : Nat) (v : Val) (m : LaneMask) (f : FlagSet) (hg : pushOf s g = s.core.pushed) :
    (s.pops as).fly lat g v m f = inFlight s as lat g v m f := by
  rw [pops_eq]; unfold inFlight; rw [hg]; rfl

/-- A scalar result leaves its slot in each of the three places where it may go: the latch, the bound queue, the register. -/
theorem resultS_pops {s : State} {w : Bool} {d : BitVec 6} (h : FreeS s w d) (as : List Src) (lat : Nat) (v : Word) (f : FlagSet) :
    (s.pops as).resultS w d lat v f = .ok (scalarOut s as w d lat v f) := by
  cases w with
  | true => rw [resultS_nowb, pops_fly]; exacts [rfl, rfl]
  | false =>
    unfold scalarOut goalS
    cases hb : s.core.boundQueue false d with
    | none => rw [resultS_reg ((pops_boundQueue ..).trans hb), pops_fly]; exacts [rfl, rfl]
    | some q =>
      have hq : s.core.hasQueue q = true := (h.resolve_left Bool.false_ne_true) q hb
      rw [resultS_queue ((pops_boundQueue ..).trans hb) ((pops_hasQueue ..).trans hq), pops_eq]; rfl

theorem resultP_pops (s : State) (as : List Src) (w : Bool) (d : BitVec 6) (lat : Nat) (b : Bool) :
    (s.pops as).resultP w d lat b = predOut s as w d lat b := by
  cases w <;> exact pops_fly s as lat _ _ _ rfl

/-! ### What each shape of the family completes with -/

section
variable {i : Instr} {s : State} {p : BitVec 3} {w : Bool} {d : BitVec 6} {a b : Src} {x y v : Word}

theorem gives_alu2 {lat : Nat} {f : Word → Word → Word} (hp : PredOn s p) (hx : s.readS .int a = .ok x) (hy : s.readS .int b = .ok y)
    (hd : FreeS s w d) (hi : exec i s = s.alu2 p w d a b lat f) (hv : f x y = v) : Gives i s (scalarOut s [a, b] w d lat v) := by
  refine hi.trans (issue_ok hp ?_)
  rw [getS_pops, getS_of_readS hx, getS_pops, getS_of_readS hy, ← hv]
  exact resultS_pops hd _ _ _ _

theorem gives_alu3 {f : Word → Word → Word → Word} (hp : PredOn s p) (hx : s.readS .int a = .ok x) (hy : s.readS .int b = .ok y)
    (hd : FreeS s w d) (hi : exec i s = s.alu3 p w d a b f) (hv : f x y (s.core.arch.sreg d) = v) :
    Gives i s (scalarOut s [a, b] w d 1 v) := by
  refine hi.trans (issue_ok hp ?_)
  rw [getS_pops, getS_of_readS hx, getS_pops, getS_of_readS hy, pops_arch, ← hv]
  exact resultS_pops hd _ _ _ _

theorem gives_alu1 {f : Word → Word} (hp : PredOn s p) (hx : s.readS .int a = .ok x) (hd : FreeS s w d) (hi : exec i s = s.alu1 p w d a f)
    (hv : f x = v) : Gives i s (scalarOut s [a] w d 1 v) := by
  refine hi.trans (issue_ok hp ?_)
  rw [getS_pops, getS_of_readS hx, ← hv]
  exact resultS_pops hd _ _ _ _

theorem gives_aluI {f : Word → Word} (hp : PredOn s p) (hd : FreeS s w d) (hi : exec i s = s.aluI p w d f) :
    Gives i s (scalarOut s [] w d 1 (f (s.core.arch.sreg d))) :=
  hi.trans (issue_ok hp (resultS_pops hd _ _ _ _))

theorem gives_compare {f : Word → Word → Bool} {c : Bool} (hp : PredOn s p) (hx : s.readS .int a = .ok x) (hy : s.readS .int b = .ok y)
    (hi : exec i s = s.compare p w d a b f) (hc : f x y = c) : Gives i s (predOut s [a, b] w d 1 c) := by
  refine hi.trans (issue_ok hp ?_)
  rw [getS_pops, getS_of_readS hx, getS_pops, getS_of_readS hy, ← hc, ← resultP_pops]
  rfl

theorem gives_predLogic {f : Bool → Bool → Bool} {x y : Bool} (hp : PredOn s p) (hx : s.readP a = .ok x) (hy : s.readP b = .ok y)
    (hi : exec i s = s.predLogic p w d a b f) : Gives i s (predOut s [a, b] w d 1 (f x y)) := by
  refine hi.trans (issue_ok hp ?_)
  rw [readP_pops, hx, readP_pops, hy, ← resultP_pops]
  rfl

end

/-! ### Shifts, order and products (R104, R110, R111, R115) -/

theorem shiftCount_eq (y : Word) : shiftCount y = y.toNat % 64 := by
  unfold shiftCount fld bits; rw [pow_zero, Nat.div_one]; rfl

theorem shiftRight_or_shiftLeft_eq_rotateRight (x y : Word) :
    x >>> shiftCount y ||| x <<< (64 - shiftCount y) = x.rotateRight (y.toNat % 64) := by
  rw [BitVec.rotateRight_def, shiftCount_eq, Nat.mod_mod]

/-- ADDS2 to ADDS10 scale by a shift, which is a product modulo 2^64. -/
theorem shiftLeft_eq_ofNat_mul (y : Word) (k : Nat) : y <<< k = BitVec.ofNat 64 (2 ^ k) * y := by
  apply BitVec.eq_of_toNat_eq
  rw [BitVec.toNat_shiftLeft, BitVec.toNat_mul, BitVec.toNat_ofNat, Nat.mod_mul_mod, Nat.shiftLeft_eq, Nat.mul_comm]

/-- The model picks by the strict order and the rule by the other one: where the keys are equal, so are the words. -/
theorem pick_decide_lt {α : Type} [LinearOrder α] {m n : α} {u v : Word} (h : m = n → u = v) :
    pick (decide (m < n)) u v = if m ≤ n then u else v := by
  unfold pick
  simp only [decide_eq_true_eq]
  obtain hlt | heq | hgt := lt_trichotomy m n
  · rw [if_pos hlt, if_pos hlt.le]
  · rw [h heq, ite_self, ite_self]
  · rw [if_neg hgt.not_gt, if_neg hgt.not_ge]

theorem pick_slt {x y u v : Word} (h : x = y → u = v) : pick (x.slt y) u v = if x.toInt ≤ y.toInt then u else v := by
  rw [BitVec.slt_eq_decide]; exact pick_decide_lt fun e => h (BitVec.eq_of_toInt_eq e)

theorem pick_ult {x y u v : Word} (h : x = y → u = v) : pick (x.ult y) u v = if x.toNat ≤ y.toNat then u else v := by
  rw [BitVec.ult_eq_decide]; exact pick_decide_lt fun e => h (BitVec.eq_of_toNat_eq e)

/-- Bits 127 to 64 of a 128-bit number are its floor quotient by 2^64. -/
theorem extractHigh_ofInt (z : Int) : (BitVec.ofInt 128 z).extractLsb' 64 64 = BitVec.ofInt 64 (z / 2 ^ 64) := by
  apply BitVec.eq_of_toNat_eq
  rw [BitVec.extractLsb'_toNat, BitVec.toNat_ofInt, BitVec.toNat_ofInt, Nat.shiftRight_eq_div_pow]
  omega

theorem mulHigh_eq (x y : Word) : mulHigh x y = BitVec.ofInt 64 (x.toInt * y.toInt / 2 ^ 64) := by
  rw [← extractHigh_ofInt, BitVec.ofInt_mul]; rfl

theorem mulHighN_eq (x y : Word) : mulHighN x y = BitVec.ofNat 64 (x.toNat * y.toNat / 2 ^ 64) := by
  have h := extractHigh_ofInt (x.toNat * y.toNat : Nat)
  rw [BitVec.ofInt_natCast, BitVec.ofNat_mul, BitVec.ofNat_toNat, BitVec.ofNat_toNat] at h
  exact h.trans (BitVec.ofInt_natCast 64 (x.toNat * y.toNat / 2 ^ 64))

/-! ### Counts (R112) -/

theorem upFrom_eq_range' (lo n : Nat) : upFrom lo n = List.range' lo n := by
  induction n generalizing lo with
  | zero => rfl
  | succ n ih => rw [upFrom, ih, List.range'_succ]

theorem sumOf_b2n_eq_countP {α : Type} (q : α → Bool) (xs : List α) : sumOf (fun x => b2n (q x)) xs = xs.countP q := by
  induction xs with
  | nil => rfl
  | cons x xs ih => rw [sumOf, ih, List.countP_cons, Nat.add_comm]; rfl

theorem oneBits_eq {n : Nat} (x : BitVec n) : oneBits x = (List.range n).countP fun k => x.getLsbD k := by
  unfold oneBits; rw [sumOf_b2n_eq_countP, upFrom_eq_range', List.range_eq_range']

theorem lt_two_pow_bitLen (n : Nat) : n < 2 ^ bitLen n := by
  unfold bitLen
  split
  · omega
  · exact Nat.lt_log2_self

theorem bitLen_le {n k : Nat} (h : n < 2 ^ k) : bitLen n ≤ k := by
  unfold bitLen
  split
  · exact k.zero_le
  · exact (Nat.log2_lt ‹_›).mpr h

/-- The highest bit within a number's length is 1. -/
theorem testBit_of_bitLen_eq {n k : Nat} (h : bitLen n = k + 1) : n.testBit k = true := by
  unfold bitLen at h
  split at h
  · omega
  · rw [← Nat.succ.inj h]; exact Nat.testBit_log2 ‹_›

/-- CLZ counts the bits above a word's length: they are 0, and the one below them, if any, is 1. -/
theorem leadingZeros_spec (x : Word) :
    ∃ n ≤ 64, leadingZeros x = BitVec.ofNat 64 n ∧ (∀ i < n, x.getLsbD (63 - i) = false) ∧ (n < 64 → x.getLsbD (63 - n) = true) := by
  have hlen : bitLen x.toNat ≤ 64 := bitLen_le x.isLt
  refine ⟨64 - bitLen x.toNat, by omega, rfl, fun i hi => ?_, fun hn => ?_⟩
  · exact Nat.testBit_lt_two_pow ((lt_two_pow_bitLen _).trans_le (Nat.pow_le_pow_right two_pos (by omega)))
  · exact testBit_of_bitLen_eq (by omega)

/-! ### Bit fields (R113, R114) -/

/-- The low bit position that a bit-field form takes from its second source. -/
def fieldLow (y : Word) : Nat := y.toNat % 64

/-- The width that a bit-field form takes from its second source. -/
def fieldWidth (y : Word) : Nat := min (y.toNat / 2 ^ 8 % 2 ^ 7) 64

/-- The highest bit of an extracted field that lies within the word. -/
def fieldTop (y : Word) : Nat := min (fieldWidth y) (64 - fieldLow y) - 1

theorem fieldLow_lt (y : Word) : fieldLow y < 64 := Nat.mod_lt _ (by decide)

theorem fieldLow_eq (y : Word) : fld y 0 6 = fieldLow y := shiftCount_eq y

theorem fieldWidth_eq (y : Word) : min (fld y 8 7) 64 = fieldWidth y := rfl

/-- BFI merges under a mask of ones at the field. -/
theorem getLsbD_bitFieldInsert (x y z : Word) {i : Nat} (hi : i < 64) :
    (bitFieldInsert x y z).getLsbD i =
      if fieldLow y ≤ i ∧ i < fieldLow y + fieldWidth y then x.getLsbD (i - fieldLow y) else z.getLsbD i := by
  have hmask : (BitVec.ofNat 64 ((2 ^ fieldWidth y - 1) * 2 ^ fieldLow y)).getLsbD i
      = decide (fieldLow y ≤ i ∧ i < fieldLow y + fieldWidth y) := by
    rw [BitVec.getLsbD_ofNat, Nat.testBit_mul_two_pow, Nat.testBit_two_pow_sub_one, ← Bool.decide_and, ← Bool.decide_and]
    exact decide_eq_decide.mpr (by omega)
  unfold bitFieldInsert
  simp only [fieldLow_eq, fieldWidth_eq, BitVec.getLsbD_or, BitVec.getLsbD_and, BitVec.getLsbD_not, BitVec.getLsbD_shiftLeft, hmask, hi]
  by_cases hin : fieldLow y ≤ i ∧ i < fieldLow y + fieldWidth y
  · simp [hin, hin.1.not_gt]
  · simp [hin]

/-- The field that BFX cuts out of its first source, before its sign is copied upward. -/
def cutField (x y : Word) : Nat := x.toNat / 2 ^ fieldLow y % 2 ^ fieldWidth y

theorem testBit_cutField (x y : Word) (i : Nat) :
    (cutField x y).testBit i = (decide (i < fieldWidth y) && x.getLsbD (fieldLow y + i)) := by
  unfold cutField; rw [Nat.testBit_mod_two_pow, Nat.testBit_div_two_pow, Nat.add_comm]; rfl

theorem testBit_cutField_of_le {y : Word} {i : Nat} (hw : 0 < fieldWidth y) (h : i ≤ fieldTop y) (x : Word) :
    (cutField x y).testBit i = x.getLsbD (fieldLow y + i) := by
  have hlo := fieldLow_lt y
  have hi : i < fieldWidth y := by unfold fieldTop at h; omega
  rw [testBit_cutField, decide_eq_true hi, Bool.true_and]

/-- A field has no bit above its top: it ends there, or the word does. -/
theorem testBit_cutField_of_gt {y : Word} {i : Nat} (h : fieldTop y < i) (x : Word) : (cutField x y).testBit i = false := by
  rw [testBit_cutField, Bool.and_eq_false_iff, decide_eq_false_iff_not]
  have hlo := fieldLow_lt y
  unfold fieldTop at h
  obtain hn | hn := Nat.lt_or_ge i (fieldWidth y)
  · exact .inr (BitVec.getLsbD_of_ge _ _ (by omega))
  · exact .inl hn.not_gt

theorem cutField_lt (x y : Word) : cutField x y < 2 ^ (fieldTop y + 1) :=
  Nat.lt_pow_two_of_testBit _ fun _ hi => testBit_cutField_of_gt hi x

theorem bitFieldExtract_eq (x y : Word) :
    bitFieldExtract x y =
      if y.getLsbD 15 && decide (0 < fieldWidth y) && (cutField x y).testBit (fieldTop y) then
        BitVec.ofInt 64 ((cutField x y : Int) - (2 ^ (fieldTop y + 1) : Nat))
      else BitVec.ofNat 64 (cutField x y) := by
  unfold bitFieldExtract
  simp only [fieldLow_eq]
  rfl

/-- A number of `t + 1` bits whose top bit is 1, less 2^(t+1), is that number with its top bit copied upward. -/
theorem getLsbD_ofInt_sub {x t i : Nat} (hx : x < 2 ^ (t + 1)) (ht : x.testBit t = true) (hi : i < 64) :
    (BitVec.ofInt 64 ((x : Int) - (2 ^ (t + 1) : Nat))).getLsbD i = if i ≤ t then x.testBit i else true := by
  have hmsb : (BitVec.ofNat (t + 1) x).msb = true := by
    rw [BitVec.msb_eq_getLsbD_last, BitVec.getLsbD_ofNat, Nat.add_sub_cancel, ht]; simp
  have hint : (BitVec.ofNat (t + 1) x).toInt = (x : Int) - (2 ^ (t + 1) : Nat) := by
    rw [BitVec.toInt_eq_msb_cond, if_pos hmsb, BitVec.toNat_ofNat, Nat.mod_eq_of_lt hx]
  have hext : (BitVec.ofNat (t + 1) x).signExtend 64 = BitVec.ofInt 64 ((x : Int) - (2 ^ (t + 1) : Nat)) := congrArg _ hint
  rw [← hext, BitVec.getLsbD_signExtend, hmsb, BitVec.getLsbD_ofNat]
  simp only [hi, Nat.lt_succ_iff]
  split <;> simp_all

/-- BFX leaves the field at the bottom, and above it zeros, or copies of its top bit where bit 15 asks for a signed field. -/
theorem getLsbD_bitFieldExtract (x y : Word) {i : Nat} (hi : i < 64) :
    (bitFieldExtract x y).getLsbD i =
      if fieldWidth y = 0 then false
      else if i ≤ fieldTop y then x.getLsbD (fieldLow y + i) else (y.getLsbD 15 && x.getLsbD (fieldLow y + fieldTop y)) := by
  obtain hw | hw := Nat.eq_zero_or_pos (fieldWidth y)
  · have hcut : cutField x y = 0 := by unfold cutField; rw [hw, pow_zero, Nat.mod_one]
    simp [bitFieldExtract_eq, hw, hcut]
  have htop := testBit_cutField_of_le hw le_rfl x
  rw [bitFieldExtract_eq, htop, decide_eq_true hw, Bool.and_true, if_neg hw.ne']
  by_cases hsign : (y.getLsbD 15 && x.getLsbD (fieldLow y + fieldTop y)) = true
  · have hone : (cutField x y).testBit (fieldTop y) = true := htop.trans (Bool.and_eq_true_iff.mp hsign).2
    rw [if_pos hsign, getLsbD_ofInt_sub (cutField_lt x y) hone hi, hsign]
    exact ite_congr rfl (fun h => testBit_cutField_of_le hw h x) fun _ => rfl
  · rw [if_neg hsign, BitVec.getLsbD_ofNat, decide_eq_true hi, Bool.true_and, Bool.eq_false_of_not_eq_true hsign]
    split
    · exact testBit_cutField_of_le hw ‹_› x
    · exact testBit_cutField_of_gt (not_le.mp ‹_›) x

/-! ### The statements -/

/-- Settles O1: each form is the two-source shape with its own operation. -/
theorem scalarIntegerResults : Obligations.ScalarIntegerResults := by
  intro s p w d a b x y hp hx hy hd one three
  have run {i : Instr} {lat : Nat} {f : Word → Word → Word} {v : Word} (hi : exec i s = s.alu2 p w d a b lat f) (hv : f x y = v) :
      Gives i s (scalarOut s [a, b] w d lat v) := gives_alu2 hp hx hy hd hi hv
  refine ⟨run (exec_add ..) rfl, run (exec_sub ..) rfl, run (exec_and ..) rfl, run (exec_or ..) rfl, run (exec_xor ..) rfl,
    run (exec_andn ..) rfl, ?shl, ?shr, ?sra, ?rotr, ?min, ?minn, ?max, ?maxn, run (exec_mul ..) rfl, ?mulh, ?mulhn, ?adds2, ?adds3,
    ?adds6, ?adds10⟩
  case shl => exact run (exec_shl ..) (congrArg (x <<< ·) (shiftCount_eq y))
  case shr => exact run (exec_shr ..) (congrArg (x >>> ·) (shiftCount_eq y))
  case sra => exact run (exec_sra ..) (congrArg x.sshiftRight (shiftCount_eq y))
  case rotr => exact run (exec_rotr ..) (shiftRight_or_shiftLeft_eq_rotateRight x y)
  case min => exact run (exec_min ..) (pick_slt id)
  case minn => exact run (exec_minn ..) (pick_ult id)
  case max => exact run (exec_max ..) (pick_slt Eq.symm)
  case maxn => exact run (exec_maxn ..) (pick_ult Eq.symm)
  case mulh => exact run (exec_mulh ..) (mulHigh_eq x y)
  case mulhn => exact run (exec_mulhn ..) (mulHighN_eq x y)
  case adds2 => exact run (exec_adds2 ..) (congrArg (x + ·) (shiftLeft_eq_ofNat_mul y 2))
  case adds3 => exact run (exec_adds3 ..) (congrArg (x + ·) (shiftLeft_eq_ofNat_mul y 3))
  case adds6 => exact run (exec_adds6 ..) (congrArg (x + ·) (shiftLeft_eq_ofNat_mul y 6))
  case adds10 => exact run (exec_adds10 ..) (congrArg (x + ·) (shiftLeft_eq_ofNat_mul y 10))

/-- Settles O2: the immediate and one-source shapes with their operations, and the bits of the field forms. -/
theorem scalarMoveFieldResults : Obligations.ScalarMoveFieldResults := by
  constructor
  · intro s p w d i k hp hd old one
    refine ⟨gives_aluI hp hd (exec_addi ..), gives_aluI hp hd (exec_andi ..), gives_aluI hp hd (exec_ori ..),
      gives_aluI hp hd (exec_xori ..), gives_aluI hp hd (exec_shli ..), gives_aluI hp hd (exec_shri ..), gives_aluI hp hd (exec_srai ..),
      gives_aluI hp hd (exec_movi ..), fun a x hx => ⟨?mov, ?popc⟩⟩
    case mov => exact gives_alu1 hp hx hd (exec_mov ..) rfl
    case popc => exact gives_alu1 hp hx hd (exec_popc ..) (congrArg (BitVec.ofNat 64) (oneBits_eq x))
  · intro s p w d a b x y hp hx hy hd old lo n top
    refine ⟨?sel, ⟨bitFieldInsert x y old, ?bfi, fun i hi => getLsbD_bitFieldInsert x y old hi⟩,
      ⟨bitFieldExtract x y, ?bfx, fun i hi => getLsbD_bitFieldExtract x y hi⟩, ?clz⟩
    case sel => exact gives_alu3 hp hx hy hd (exec_sel ..) (ite_not ..)
    case bfi => exact gives_alu3 hp hx hy hd (exec_bfi ..) rfl
    case bfx => exact gives_alu2 hp hx hy hd (exec_bfx ..) rfl
    case clz =>
      obtain ⟨n, hn, hz, hzero, hone⟩ := leadingZeros_spec x
      exact ⟨n, hn, gives_alu1 hp hx hd (exec_clz ..) hz, hzero, hone⟩

/-- Settles O3: the compare and predicate-logic shapes, and the two compares with an immediate. -/
theorem scalarPredicateResults : Obligations.ScalarPredicateResults := by
  intro s p w d a b hp one
  refine ⟨fun x y hx hy => ?_, fun x y hx hy => ?_, fun r q i => ⟨?cmpeqi, ?cmplti⟩⟩
  · have run {i : Instr} {f : Word → Word → Bool} {c : Bool} (hi : exec i s = s.compare p w d a b f) (hc : f x y = c) :
        Gives i s (predOut s [a, b] w d 1 c) := gives_compare hp hx hy hi hc
    exact ⟨run (exec_cmpeq ..) rfl, run (exec_cmpne ..) rfl, run (exec_cmplt ..) BitVec.slt_eq_decide,
      run (exec_cmpltn ..) BitVec.ult_eq_decide, run (exec_cmple ..) BitVec.sle_eq_decide, run (exec_cmplen ..) BitVec.ule_eq_decide⟩
  · exact ⟨gives_predLogic hp hx hy (exec_pand ..), gives_predLogic hp hx hy (exec_por ..), gives_predLogic hp hx hy (exec_pxor ..)⟩
  case cmpeqi =>
    refine (exec_cmpeqi ..).trans (issue_ok hp ?_)
    rw [resultP_pops, pops_arch]
  case cmplti =>
    refine (exec_cmplti ..).trans (issue_ok hp ?_)
    rw [resultP_pops, pops_arch, BitVec.slt_eq_decide]

end Sys2Proof.Machine
end

section
set_option Elab.async false
/-! The word of a legal instruction decodes to that instruction (R36 to R39, R58 to R64): what each field of a word format holds, what the codes of
types and operands give back, which reserved bits are clear, and, class by class, what the decoder answers. -/

namespace Sys2Proof

/-! ### Codes (R39, R59, R60, R122) -/

@[simp] theorem Src.ofCode_code (a : Src) : Src.ofCode a.code = a := by
  cases a with
  | reg n => rw [Src.code, Src.ofCode, if_pos (by rw [BitVec.getLsbD_append]; rfl)]; exact congrArg _ BitVec.extractLsb'_append_eq_right
  | latch n | pop n | peek n | special n | imm n => revert n; decide

@[simp] theorem VType.ofCode_code (t : VType) : VType.ofCode t.code = t := by cases t <;> rfl
@[simp] theorem IType.ofCode_code (t : IType) : IType.ofCode t.code = t := by cases t <;> rfl
@[simp] theorem Gang.ofCode_code (g : Gang) : Gang.ofCode g.code = g := by cases g <;> rfl
@[simp] theorem Round.ofCode_code (r : Round) : Round.ofCode r.code = some r := by cases r <;> rfl

/-! ### The branch format, of which every other is a case (R36) -/

theorem brW_and_brW (op op' : BitVec 8) (p p' : BitVec 3) (x x' : BitVec 21) :
    brW op p x &&& brW op' p' x' = brW (op &&& op') (p &&& p') (x &&& x') := by
  unfold brW; rw [BitVec.and_append, BitVec.and_append]

/-- A word is put together from its fields. -/
theorem brW_fields (x : BitVec 32) : brW (fOp x) (fP x) (x.extractLsb' 0 21) = x := by
  unfold brW fOp fP
  rw [BitVec.extractLsb'_append_extractLsb'_eq_extractLsb' (by rfl), BitVec.extractLsb'_append_extractLsb'_eq_extractLsb' (by rfl)]
  exact BitVec.extractLsb'_eq_self

section
variable (op : BitVec 8) (p : BitVec 3) (x : BitVec 21)

@[simp] theorem fOp_brW : fOp (brW op p x) = op := BitVec.extractLsb'_append_eq_left

@[simp] theorem fRow_brW : fRow (brW op p x) = op.extractLsb' 3 5 := BitVec.extractLsb'_append_eq_of_le (by decide)

@[simp] theorem fT_brW : fT (brW op p x) = op.extractLsb' 0 3 := BitVec.extractLsb'_append_eq_of_le (by decide)

@[simp] theorem fP_brW : fP (brW op p x) = p := by
  unfold fP brW
  rw [BitVec.extractLsb'_append_eq_of_add_le (by decide)]; exact BitVec.extractLsb'_append_eq_left

theorem extractLsb'_brW {lo n : Nat} (h : lo + n ≤ 21) : (brW op p x).extractLsb' lo n = x.extractLsb' lo n := by
  unfold brW
  rw [BitVec.extractLsb'_append_eq_of_add_le (by omega), BitVec.extractLsb'_append_eq_of_add_le h]

theorem getLsbD_brW {k : Nat} (h : k < 21) : (brW op p x).getLsbD k = x.getLsbD k := by
  unfold brW
  rw [BitVec.getLsbD_append, if_pos (by omega), BitVec.getLsbD_append, if_pos h]

/-- The bits of a word under a mask, field by field. -/
theorem brW_and (m : BitVec 32) : brW op p x &&& m = brW (op &&& fOp m) (p &&& fP m) (x &&& m.extractLsb' 0 21) := by
  conv_lhs => rw [← brW_fields m, brW_and_brW]

end

/-! ### The immediate and the register format -/

section
variable (op : BitVec 8) (p : BitVec 3) (w : Bool) (d : BitVec 6) (i : BitVec 14) (a b : BitVec 7)

theorem immW_eq_brW : immW op p w d i = brW op p (BitVec.ofBool w ++ (d ++ i)) := rfl
theorem regW_eq_immW : regW op p w d a b = immW op p w d (a ++ b) := rfl

@[simp] theorem fOp_immW : fOp (immW op p w d i) = op := fOp_brW ..
@[simp] theorem fP_immW : fP (immW op p w d i) = p := fP_brW ..

@[simp] theorem fW_immW : fW (immW op p w d i) = w := by
  unfold fW
  rw [immW_eq_brW, getLsbD_brW _ _ _ (by decide), BitVec.getLsbD_append, if_neg (by decide)]
  cases w <;> rfl

theorem extractLow20_immW {lo n : Nat} (h : lo + n ≤ 20) : (immW op p w d i).extractLsb' lo n = (d ++ i).extractLsb' lo n := by
  rw [immW_eq_brW, extractLsb'_brW _ _ _ (by omega), BitVec.extractLsb'_append_eq_of_add_le (by omega)]

@[simp] theorem fD_immW : fD (immW op p w d i) = d := by
  unfold fD; rw [extractLow20_immW _ _ _ _ _ (by decide)]; exact BitVec.extractLsb'_append_eq_left

@[simp] theorem extractLow14_immW {lo n : Nat} (h : lo + n ≤ 14) : (immW op p w d i).extractLsb' lo n = i.extractLsb' lo n := by
  rw [extractLow20_immW _ _ _ _ _ (by omega), BitVec.extractLsb'_append_eq_of_add_le h]

/-- The bits of a word under a mask, field by field. -/
theorem immW_and (m : BitVec 32) : immW op p w d i &&& m =
    immW (op &&& m.extractLsb' 24 8) (p &&& m.extractLsb' 21 3) (w && m.getLsbD 20) (d &&& m.extractLsb' 14 6) (i &&& m.extractLsb' 0 14) := by
  have hw : m.extractLsb' 20 1 = BitVec.ofBool (m.getLsbD 20) := by
    ext k hk
    obtain rfl : k = 0 := by omega
    simp
  have hm : m.extractLsb' 0 21 = BitVec.ofBool (m.getLsbD 20) ++ (m.extractLsb' 14 6 ++ m.extractLsb' 0 14) := by
    rw [← hw, BitVec.extractLsb'_append_extractLsb'_eq_extractLsb' (by rfl), BitVec.extractLsb'_append_extractLsb'_eq_extractLsb' (by rfl)]
  rw [immW_eq_brW, brW_and, hm, BitVec.and_append, BitVec.and_append, BitVec.ofBool_and_ofBool]
  rfl

@[simp] theorem fOp_regW : fOp (regW op p w d a b) = op := fOp_brW ..
@[simp] theorem fRow_regW : fRow (regW op p w d a b) = op.extractLsb' 3 5 := fRow_brW ..
@[simp] theorem fT_regW : fT (regW op p w d a b) = op.extractLsb' 0 3 := fT_brW ..
@[simp] theorem fP_regW : fP (regW op p w d a b) = p := fP_brW ..
@[simp] theorem fW_regW : fW (regW op p w d a b) = w := fW_immW ..
@[simp] theorem fD_regW : fD (regW op p w d a b) = d := fD_immW ..

/-- What FENCE, the waits and the queue forms read in the destination's low bits. -/
@[simp] theorem extractQ_regW : (regW op p w d a b).extractLsb' 14 3 = d.extractLsb' 0 3 := by
  rw [regW_eq_immW, extractLow20_immW _ _ _ _ _ (by decide), BitVec.extractLsb'_append_eq_of_le (by decide)]

@[simp] theorem getElem_regW_flag (x : BitVec 5) (f : Bool) : (regW op p w (x ++ BitVec.ofBool f) a b)[14] = f := by
  rw [← BitVec.getLsbD_eq_getElem, regW_eq_immW, immW_eq_brW, getLsbD_brW _ _ _ (by decide), BitVec.getLsbD_append, if_pos (by decide),
    BitVec.getLsbD_append, if_neg (by decide), BitVec.getLsbD_append, if_pos (by decide)]
  cases f <;> rfl

@[simp] theorem extractA_regW : (regW op p w d a b).extractLsb' 7 7 = a := by
  rw [regW_eq_immW, extractLow14_immW _ _ _ _ _ (by decide)]; exact BitVec.extractLsb'_append_eq_left

@[simp] theorem extractLow7_regW {lo n : Nat} (h : lo + n ≤ 7) : (regW op p w d a b).extractLsb' lo n = b.extractLsb' lo n := by
  rw [regW_eq_immW, extractLow14_immW _ _ _ _ _ (by omega), BitVec.extractLsb'_append_eq_of_add_le h]

@[simp] theorem getElem_regW_selector (x : BitVec 3) (r : BitVec 3) (n : Bool) : (regW op p w d a (x ++ (r ++ BitVec.ofBool n)))[0] = n := by
  rw [← BitVec.getLsbD_eq_getElem, regW_eq_immW, immW_eq_brW, getLsbD_brW _ _ _ (by decide)]
  iterate 5 rw [BitVec.getLsbD_append, if_pos (by decide)]
  cases n <;> rfl

/-- The bits of a word under a mask, field by field. -/
theorem regW_and (m : BitVec 32) : regW op p w d a b &&& m =
    regW (op &&& m.extractLsb' 24 8) (p &&& m.extractLsb' 21 3) (w && m.getLsbD 20) (d &&& m.extractLsb' 14 6) (a &&& m.extractLsb' 7 7)
      (b &&& m.extractLsb' 0 7) := by
  have hm : m.extractLsb' 0 14 = m.extractLsb' 7 7 ++ m.extractLsb' 0 7 := by
    rw [BitVec.extractLsb'_append_extractLsb'_eq_extractLsb' (by rfl)]
  rw [regW_eq_immW, immW_and, hm, BitVec.and_append]; rfl

@[simp] theorem fA_regW (a : Src) : fA (regW op p w d a.code b) = a := by
  unfold fA; rw [extractA_regW, Src.ofCode_code]

@[simp] theorem fB_regW (b : Src) : fB (regW op p w d a b.code) = b := by
  unfold fB; rw [extractLow7_regW _ _ _ _ _ _ (by decide), BitVec.extractLsb'_eq_self, Src.ofCode_code]

/-- The selector of a conversion in the field of source two: a type, a rounding mode and a bit (R60). -/
@[simp] theorem rnd_regW (x : BitVec 3) (r : Round) (y : BitVec 1) (k : Round → Except DecodeError Instr) :
    rnd (regW op p w d a (x ++ (r.code ++ y))) k = k r := by
  unfold rnd
  rw [extractLow7_regW _ _ _ _ _ _ (by decide), BitVec.extractLsb'_append_eq_of_add_le (by decide), BitVec.extractLsb'_append_eq_left,
    Round.ofCode_code]

@[simp] theorem rnd_regW_itype (t : IType) (r : Round) (k : Round → Except DecodeError Instr) :
    rnd (regW op p w d a ((0#1 ++ t.code) ++ (r.code ++ 0#1))) k = k r := rnd_regW _ _ _ _ _ (0#1 ++ t.code) r _ k

@[simp] theorem extractType_selector (x : BitVec 3) (r : BitVec 3) (y : BitVec 1) : (x ++ (r ++ y)).extractLsb' 4 3 = x :=
  BitVec.extractLsb'_append_eq_left

@[simp] theorem extractIType_selector (x : BitVec 1) (t : BitVec 2) (r : BitVec 3) (y : BitVec 1) :
    ((x ++ t) ++ (r ++ y)).extractLsb' 4 2 = t := by
  rw [BitVec.extractLsb'_append_eq_of_le (by decide)]; exact BitVec.extractLsb'_append_eq_right

end

@[simp] theorem extractPair_selector (x : BitVec 1) (q : BitVec 5) (y : BitVec 1) : (x ++ (q ++ y)).extractLsb' 1 5 = q := by
  rw [BitVec.extractLsb'_append_eq_of_add_le (by decide)]; exact BitVec.extractLsb'_append_eq_left

/-! ### The channel control registers (R250) -/

@[simp] theorem channel_high (x n : BitVec 3) (y : BitVec 2) : (x ++ (n ++ y)).extractLsb' 5 3 = x := BitVec.extractLsb'_append_eq_left
@[simp] theorem channel_low (x n : BitVec 3) (y : BitVec 2) : (x ++ (n ++ y)).extractLsb' 0 2 = y := by
  rw [BitVec.extractLsb'_append_eq_of_add_le (by decide)]; exact BitVec.extractLsb'_append_eq_right
@[simp] theorem channel_number (x n : BitVec 3) (y : BitVec 2) : (x ++ (n ++ y)).extractLsb' 2 3 = n := by
  rw [BitVec.extractLsb'_append_eq_of_add_le (by decide)]; exact BitVec.extractLsb'_append_eq_left

/-! ### The loop, matrix and coprocessor formats -/

section
variable (op : BitVec 8) (p : BitVec 3)

theorem loopW_eq_brW (c : BitVec 7) (l : BitVec 14) : loopW op p c l = brW op p (c ++ l) := rfl

@[simp] theorem fOp_loopW (c : BitVec 7) (l : BitVec 14) : fOp (loopW op p c l) = op := fOp_brW ..
@[simp] theorem fP_loopW (c : BitVec 7) (l : BitVec 14) : fP (loopW op p c l) = p := fP_brW ..

@[simp] theorem fC_loopW (c : Src) (l : BitVec 14) : fC (loopW op p c.code l) = c := by
  unfold fC; rw [loopW_eq_brW, extractLsb'_brW _ _ _ (by decide), BitVec.extractLsb'_append_eq_left, Src.ofCode_code]

@[simp] theorem extractLast_loopW (c : BitVec 7) (l : BitVec 14) : (loopW op p c l).extractLsb' 0 14 = l := by
  rw [loopW_eq_brW, extractLsb'_brW _ _ _ (by decide)]; exact BitVec.extractLsb'_append_eq_right

variable (g : BitVec 2) (t : BitVec 5) (e : BitVec 8) (c d : BitVec 6) (a b : BitVec 7)

theorem mxW_eq_brW : mxW op p g t a b = brW op p (g ++ (t ++ (a ++ b))) := rfl

@[simp] theorem fOp_mxW : fOp (mxW op p g t a b) = op := fOp_brW ..
@[simp] theorem fP_mxW : fP (mxW op p g t a b) = p := fP_brW ..

@[simp] theorem extractGang_mxW : (mxW op p g t a b).extractLsb' 19 2 = g := by
  rw [mxW_eq_brW, extractLsb'_brW _ _ _ (by decide)]; exact BitVec.extractLsb'_append_eq_left

@[simp] theorem extractTile_mxW : (mxW op p g t a b).extractLsb' 14 5 = t := by
  rw [mxW_eq_brW, extractLsb'_brW _ _ _ (by decide), BitVec.extractLsb'_append_eq_of_add_le (by decide)]
  exact BitVec.extractLsb'_append_eq_left

@[simp] theorem fA_mxW (a : Src) : fA (mxW op p g t a.code b) = a := by
  unfold fA
  rw [mxW_eq_brW, extractLsb'_brW _ _ _ (by decide), BitVec.extractLsb'_append_eq_of_add_le (by decide),
    BitVec.extractLsb'_append_eq_of_add_le (by decide), BitVec.extractLsb'_append_eq_left, Src.ofCode_code]

@[simp] theorem fB_mxW (b : Src) : fB (mxW op p g t a b.code) = b := by
  unfold fB
  rw [mxW_eq_brW, extractLsb'_brW _ _ _ (by decide)]
  iterate 3 rw [BitVec.extractLsb'_append_eq_of_add_le (by decide)]
  rw [BitVec.extractLsb'_eq_self, Src.ofCode_code]

/-- The bits of a word under a mask, field by field. -/
theorem mxW_and (m : BitVec 32) : mxW op p g t a b &&& m =
    mxW (op &&& m.extractLsb' 24 8) (p &&& m.extractLsb' 21 3) (g &&& m.extractLsb' 19 2) (t &&& m.extractLsb' 14 5) (a &&& m.extractLsb' 7 7)
      (b &&& m.extractLsb' 0 7) := by
  have hm : m.extractLsb' 0 21 = m.extractLsb' 19 2 ++ (m.extractLsb' 14 5 ++ (m.extractLsb' 7 7 ++ m.extractLsb' 0 7)) := by
    iterate 3 rw [BitVec.extractLsb'_append_extractLsb'_eq_extractLsb' (by rfl)]
  rw [mxW_eq_brW, brW_and, hm]
  iterate 3 rw [BitVec.and_append]
  rfl

theorem copW_eq_brW : copW op p e c d = brW op p (e ++ (c ++ (d ++ 0#1))) := rfl

@[simp] theorem fOp_copW : fOp (copW op p e c d) = op := fOp_brW ..
@[simp] theorem fP_copW : fP (copW op p e c d) = p := fP_brW ..

@[simp] theorem extractReg_copW : (copW op p e c d).extractLsb' 13 8 = e := by
  rw [copW_eq_brW, extractLsb'_brW _ _ _ (by decide)]; exact BitVec.extractLsb'_append_eq_left

@[simp] theorem extractRegHigh_copW : (copW op p e c d).extractLsb' 18 3 = e.extractLsb' 5 3 := by
  rw [copW_eq_brW, extractLsb'_brW _ _ _ (by decide), BitVec.extractLsb'_append_eq_of_le (by decide)]

@[simp] theorem extractRegMid_copW : (copW op p e c d).extractLsb' 15 3 = e.extractLsb' 2 3 := by
  rw [copW_eq_brW, extractLsb'_brW _ _ _ (by decide), BitVec.extractLsb'_append_eq_of_le (by decide)]

@[simp] theorem extractRegLow_copW : (copW op p e c d).extractLsb' 13 2 = e.extractLsb' 0 2 := by
  rw [copW_eq_brW, extractLsb'_brW _ _ _ (by decide), BitVec.extractLsb'_append_eq_of_le (by decide)]

@[simp] theorem extractA_copW : (copW op p e c d).extractLsb' 7 6 = c := by
  rw [copW_eq_brW, extractLsb'_brW _ _ _ (by decide), BitVec.extractLsb'_append_eq_of_add_le (by decide)]
  exact BitVec.extractLsb'_append_eq_left

@[simp] theorem extractB_copW : (copW op p e c d).extractLsb' 1 6 = d := by
  rw [copW_eq_brW, extractLsb'_brW _ _ _ (by decide), BitVec.extractLsb'_append_eq_of_add_le (by decide),
    BitVec.extractLsb'_append_eq_of_add_le (by decide)]
  exact BitVec.extractLsb'_append_eq_left

/-- Bit 0 of the coprocessor format is 0. -/
theorem copW_and_one : copW op p e c d &&& 1#32 = 0#32 := by
  have h : (e ++ (c ++ (d ++ 0#1)) : BitVec 21) &&& (0#8 ++ (0#6 ++ (0#6 ++ 1#1))) = 0#8 ++ (0#6 ++ (0#6 ++ 0#1)) := by
    iterate 3 rw [BitVec.and_append]
    simp only [BitVec.and_zero, BitVec.zero_and]
  rw [copW_eq_brW, brW_and]
  refine (congrArg (brW _ _) h).trans ?_
  simp [fOp, fP]
  rfl

end

/-! ### Reserved bits (R54) -/

@[simp] theorem immW_zero : immW 0#8 0#3 false 0#6 0#14 = 0#32 := rfl
@[simp] theorem regW_zero : regW 0#8 0#3 false 0#6 0#7 0#7 = 0#32 := rfl
@[simp] theorem mxW_zero : mxW 0#8 0#3 0#2 0#5 0#7 0#7 = 0#32 := rfl

theorem zero_append_and {m n : Nat} (x : BitVec n) (y : BitVec m) : (0#m ++ x) &&& (y ++ 0#n) = 0#(m + n) := by
  rw [BitVec.and_append, BitVec.zero_and, BitVec.and_zero, BitVec.zero_append_zero]

section
variable (op : BitVec 8) (p : BitVec 3) (w : Bool) (d : BitVec 6) (a b : BitVec 7)

@[simp] theorem regW_and_b : regW op p w d a 0#7 &&& 0x7F#32 = 0#32 := by simp [regW_and]
@[simp] theorem regW_and_p : regW op 0#3 w d a b &&& 0xE00000#32 = 0#32 := by simp [regW_and]
@[simp] theorem regW_and_pb : regW op 0#3 w d a 0#7 &&& 0xE0007F#32 = 0#32 := by simp [regW_and]
@[simp] theorem regW_and_w : regW op p false d a b &&& 0x100000#32 = 0#32 := by simp [regW_and]
@[simp] theorem regW_and_wd : regW op p false 0#6 a b &&& 0x1FC000#32 = 0#32 := by simp [regW_and]
@[simp] theorem regW_and_wdb : regW op p false 0#6 a 0#7 &&& 0x1FC07F#32 = 0#32 := by simp [regW_and]
@[simp] theorem regW_and_wdab : regW op p false 0#6 0#7 0#7 &&& 0x1FFFFF#32 = 0#32 := by simp [regW_and]

@[simp] theorem regW_and_queue (q : BitVec 3) : regW op p false (0#3 ++ q) a 0#7 &&& 0x1E007F#32 = 0#32 := by
  rw [regW_and]; exact (congrArg (regW _ _ _ · _ _) (zero_append_and q 7#3)).trans (by simp)

@[simp] theorem regW_and_flag (q : BitVec 1) : regW op p false (0#5 ++ q) a b &&& 0x1F8000#32 = 0#32 := by
  rw [regW_and]; exact (congrArg (regW _ _ _ · _ _) (zero_append_and q 0x1F#5)).trans (by simp)

@[simp] theorem regW_and_flag_b (q : BitVec 1) : regW op p false (0#5 ++ q) a 0#7 &&& 0x1F807F#32 = 0#32 := by
  rw [regW_and]; exact (congrArg (regW _ _ _ · _ _) (zero_append_and q 0x1F#5)).trans (by simp)

@[simp] theorem regW_and_round (r : Round) : regW op p w d a (0#3 ++ (r.code ++ 0#1)) &&& 0x71#32 = 0#32 := by
  cases r <;> simp [regW_and, Round.code]

@[simp] theorem regW_and_itype (t : IType) (r : Round) :
    regW op p w d a ((0#1 ++ t.code) ++ (r.code ++ 0#1)) &&& 0x41#32 = 0#32 := by
  cases t <;> cases r <;> simp [regW_and, IType.code, Round.code]

@[simp] theorem regW_and_vtype (t : VType) (r : Round) : regW op p w d a (t.code ++ (r.code ++ 0#1)) &&& 1#32 = 0#32 := by
  cases t <;> cases r <;> simp [regW_and, VType.code, Round.code]

@[simp] theorem regW_and_pair (q : BitVec 5) : regW op p w d a (0#1 ++ (q ++ 0#1)) &&& 0x41#32 = 0#32 := by
  have h : ∀ q : BitVec 5, (0#1 ++ (q ++ 0#1)) &&& 0x41#7 = 0#7 := by decide
  rw [regW_and]; exact (congrArg (regW _ _ _ _ _ ·) (h q)).trans (by simp)

@[simp] theorem immW_and_count (k : BitVec 6) : immW op p w d (0#8 ++ k) &&& 0x3FC0#32 = 0#32 := by
  rw [immW_and]; exact (congrArg (immW _ _ _ _ ·) (zero_append_and k 0xFF#8)).trans (by simp)

@[simp] theorem immW_and_colours (k : BitVec 8) : immW op p false 0#6 (0#6 ++ k) &&& 0x1FFF00#32 = 0#32 := by
  rw [immW_and]; exact (congrArg (immW _ _ _ _ ·) (zero_append_and k 0x3F#6)).trans (by simp)

variable (g : BitVec 2) (t : BitVec 5)

@[simp] theorem mxW_and_b : mxW op p g t a 0#7 &&& 0x7F#32 = 0#32 := by simp [mxW_and]
@[simp] theorem mxW_and_g : mxW op p 0#2 t a b &&& 0x180000#32 = 0#32 := by simp [mxW_and]
@[simp] theorem mxW_and_gb : mxW op p 0#2 t a 0#7 &&& 0x18007F#32 = 0#32 := by simp [mxW_and]
@[simp] theorem mxW_and_gab : mxW op p 0#2 t 0#7 0#7 &&& 0x183FFF#32 = 0#32 := by simp [mxW_and]
@[simp] theorem mxW_and_gtab : mxW op p 0#2 0#5 0#7 0#7 &&& 0x1FFFFF#32 = 0#32 := by simp [mxW_and]

end

end Sys2Proof
end

section
set_option Elab.async false
/-! What the decoder answers, class by class, for the word of a legal instruction (R58 to R64). -/

namespace Sys2Proof

/-- The forms of slots S0 and S1 but the floating ones, whose latency tells them (R50). -/
theorem decodeS_encode_integer {i : Instr} {x : BitVec 32} (hi : i.shape.lat ≠ 4) (hx : encode i = some (.S, x)) : decodeS x = .ok i.canon := by
  cases i with
  | add | sub | and | or | xor | andn | shl | shr | sra | rotr | min | minn | max | maxn | sel | mul | mulh | mulhn | bfx | bfi | cmpeq | cmpne
  | cmplt | cmpltn | cmple | cmplen | pand | por | pxor | adds2 | adds3 | adds6 | adds10 | addi | andi | ori | xori | movi =>
    cases hx; simp [decodeS, Instr.canon]
  | clz | popc | mov => cases hx; simp [decodeS, Instr.canon, rz]
  | shli | shri | srai => cases hx; simp [decodeS, Instr.canon, rz, BitVec.extractLsb'_append_eq_right, -Nat.reduceAdd]
  | cmpeqi | cmplti =>
    cases hx; simp [decodeS, Instr.canon, BitVec.extractLsb'_append_eq_left, BitVec.extractLsb'_append_eq_right, -Nat.reduceAdd]
  | fadd | fsub | fmul | ffma | fmin | fmax | fcmpeq | fcmplt | fcmple | fcvts | fcvti | fcvtf => exact absurd rfl hi
  | _ => cases hx

theorem decodeS_encode_float {i : Instr} {x : BitVec 32} (hi : i.shape.lat = 4) (hx : encode i = some (.S, x)) : decodeS x = .ok i.canon := by
  cases i with
  | fadd f | fsub f | fmul f | ffma f | fmin f | fmax f | fcmpeq f | fcmplt f | fcmple f =>
    cases hx; cases f <;> simp [decodeS, Instr.canon, FFmt.op]
  | fcvts f | fcvti f | fcvtf f => cases hx; cases f <;> simp [decodeS, Instr.canon, FFmt.op, rz, -Nat.reduceAdd]
  | add | sub | and | or | xor | andn | shl | shr | sra | rotr | min | minn | max | maxn | sel | mul | mulh | mulhn | clz | popc | bfx | bfi
  | cmpeq | cmpne | cmplt | cmpltn | cmple | cmplen | pand | por | pxor | adds2 | adds3 | adds6 | adds10 | mov | addi | andi | ori | xori | shli
  | shri | srai | cmpeqi | cmplti | movi => cases hi
  | _ => cases hx

theorem decodeS_encode {i : Instr} {x : BitVec 32} (hx : encode i = some (.S, x)) : decodeS x = .ok i.canon :=
  (em (i.shape.lat = 4)).elim (decodeS_encode_float · hx) (decodeS_encode_integer · hx)

theorem decodeV_encode {i : Instr} {x : BitVec 32} (hx : encode i = some (.V, x)) : decodeV x = .ok i.canon := by
  cases i with
  | vadd t | vsub t | vmul t | vfma t | vfms t | vmin t | vmax t | vadds t | vsubs t | vcmpeq t | vcmplt t | vcmple t | vshl t | vshr t =>
    cases hx; simp [decodeV, Instr.canon, BitVec.extractLsb'_append_eq_left, BitVec.extractLsb'_append_eq_right, -Nat.reduceAdd]
  | vabs t | vneg t | vredadd t | vredmin t | vredmax t | vscan t =>
    cases hx; simp [decodeV, Instr.canon, rz, BitVec.extractLsb'_append_eq_left, BitVec.extractLsb'_append_eq_right, -Nat.reduceAdd]
  | vand | vor | vxor | vandn | vsel | vins | vfxadd | vfxcvt | vfxcvtf | vperm | vrot | vbcl | vxcopy | vxrot | vmand | vmor | vmxor | vmandn =>
    cases hx; simp [decodeV, Instr.canon]
  | vmov | vsplat | vxtr | vmnot | vmpop => cases hx; simp [decodeV, Instr.canon, rz]
  | vcvt =>
    cases hx; simp [decodeV, Instr.canon, rz, BitVec.extractLsb'_append_eq_left, BitVec.extractLsb'_append_eq_right, -Nat.reduceAdd]
  | vcvtx k =>
    cases hx; cases k <;> simp [decodeV, Instr.canon, rz, XType.code, -Nat.reduceAdd]
  | _ => cases hx

theorem decodeF_encode {i : Instr} {x : BitVec 32} (hx : encode i = some (.F, x)) : decodeF x = .ok i.canon := by
  cases i with
  | exp2 t | log2 t | exp t | log t | rcp t | rsqrt t | sqrt t | tanh t | sigmoid t | erf t | sin t | cos t =>
    cases hx; cases t <;> simp [decodeF, Instr.canon, FTy.op, rz]
  | div => cases hx; simp [decodeF, Instr.canon]
  | _ => cases hx

theorem decodeX_encode {i : Instr} {x : BitVec 32} (hx : encode i = some (.X, x)) : decodeX x = .ok i.canon := by
  cases i with
  | mxpush | mxshift | mxacc | mxaccx | mxdrain | mxzero | mxswap => cases hx; simp [decodeX, Instr.canon, rz]
  | _ => cases hx

theorem decodeM_encode {i : Instr} {x : BitVec 32} (hx : encode i = some (.M, x)) : decodeM x = .ok i.canon := by
  cases i with
  | ldq t => cases hx; cases t <;> simp [decodeM, Instr.canon, LdTy.code, rz]
  | gather t => cases hx; cases t <;> simp [decodeM, Instr.canon, GaTy.code, rz]
  | st t => cases hx; cases t <;> simp [decodeM, Instr.canon, StTy.code, rz]
  | ldqv | lds | ldss | sts | stss | stv | scatter | pref | prefs | smap | sunmap | swb | sinv | put =>
    cases hx; simp [decodeM, Instr.canon, rz]
  | get | aadd | afxadd | afadd | amin | amax | aminn | amaxn | aincb | aswap | aand | aor | axor => cases hx; simp [decodeM, Instr.canon]
  | acas => cases hx; simp [decodeM, Instr.canon, rz, -Nat.reduceAdd]
  | post p f => cases hx; simp [decodeM, Instr.canon, rz, -Nat.reduceAdd]
  | _ => cases hx

/-- SYSWR of a register that has a row of its own is not legal (R54). -/
theorem sysOwnRow_of_wf {p : BitVec 3} {n : BitVec 7} {b : Src} (h : (Instr.syswr p n b).wf = true) : sysOwnRow n = false := by
  simp [Instr.wf, Instr.shape] at h
  exact h.1.1.1.2

theorem decodeK_encode {i : Instr} {x : BitVec 32} (hi : i.wf = true) (hn : i ≠ .nop) (hx : encode i = some (.K, x)) : decodeK x = .ok i.canon := by
  cases i with
  | nop => exact absurd rfl hn
  | br | call => cases hx; simp [decodeK, Instr.canon, extractLsb'_brW]
  | loop => cases hx; simp [decodeK, Instr.canon]
  | ret | jr | leave | send | trig | untrig | quiet | cancel | yield | exit | glhold | glsend | glstat | glclose | sysrd | trap | tretRetry | tretSkipk
  | tretEnd | xlinv | opreq | revpost | rsigchk =>
    cases hx; simp [decodeK, Instr.canon, rz]
  | qwait | cpywait => cases hx; simp [decodeK, Instr.canon, rz, BitVec.extractLsb'_append_eq_right, -Nat.reduceAdd]
  | cwait | bwait => cases hx; simp [decodeK, Instr.canon, rz, -Nat.reduceAdd]
  | fence => cases hx; simp [decodeK, Instr.canon, rz, BitVec.extractLsb'_append_eq_right, -Nat.reduceAdd]
  | spawnLaunch | spawnUnit | bar | phaseOpeng | phaseOpenp | phaseAddl | phaseClose | phaseRelease | accq | glopen | evac | partq | rvset | rfloor | rheat
  | rwaveRead | rwavePark | rwaveWake | rwaveMove | rhframeSend | rhframeRecv | racctCreate | racctAdd | racctRelease | racctCancel =>
    cases hx; simp [decodeK, Instr.canon]
  | engwr | engrd | sixgo => cases hx; simp [decodeK, Instr.canon, rz, copW_and_one]
  | chErrclr | chResume | cpygo => cases hx; simp [decodeK, Instr.canon, rz, copW_and_one, -Nat.reduceAdd]
  | syswrCkbound | syswrQbound | syswrArith | syswrSrseed | syswrMode => cases hx; simp [decodeK, Instr.canon, rz]
  | syswr p n b =>
    cases hx
    have hn := sysOwnRow_of_wf hi
    simp [decodeK, Instr.canon, rz]
    split <;> simp_all [sysOwnRow]
  | _ => cases hx

/-- A word that a class decodes to an instruction is not the all-zero word: opcode and row 0 are unassigned in every class. -/
theorem decodeSlot_eq_of_ok {f : BitVec 32 → Except DecodeError Instr} {c : SlotClass} {x : BitVec 32} {i : Instr}
    (h0 : f 0#32 = .error .opcode) (hc : decodeSlot c x = if x = 0#32 then .ok .nop else f x) (hf : f x = .ok i) : decodeSlot c x = .ok i := by
  have hx : x ≠ 0#32 := by
    rintro rfl
    cases h0.symm.trans hf
  rw [hc, if_neg hx, hf]

/-- Settles O52: the all-zero word is NOP, and each class decodes its own forms. -/
theorem decodeEncode : Obligations.DecodeEncode := by
  intro i c x hi hx
  by_cases hn : i = .nop
  · subst hn; cases hx; rfl
  cases c with
  | S => exact decodeSlot_eq_of_ok (by decide) rfl (decodeS_encode hx)
  | V => exact decodeSlot_eq_of_ok (by decide) rfl (decodeV_encode hx)
  | F => exact decodeSlot_eq_of_ok (by decide) rfl (decodeF_encode hx)
  | M => exact decodeSlot_eq_of_ok (by decide) rfl (decodeM_encode hx)
  | X => exact decodeSlot_eq_of_ok (by decide) rfl (decodeX_encode hx)
  | K => exact decodeSlot_eq_of_ok (by decide) rfl (decodeK_encode hi hn hx)

/-- Settles O53: each word is decoded. -/
theorem sampleWords : Obligations.SampleWords := by
  unfold Obligations.SampleWords
  decide

end Sys2Proof
end

section
namespace Sys2Proof.Machine

theorem State.reset_orderly : State.reset.Orderly where
  others := RisingKeys.nil
  hub := ⟨RisingKeys.nil, RisingKeys.nil, RisingKeys.nil, RisingKeys.nil, RisingKeys.nil, RisingKeys.nil⟩
  power := ⟨RisingKeys.nil, RisingKeys.nil, RisingKeys.nil, RisingKeys.nil, RisingKeys.nil, RisingKeys.nil, RisingKeys.nil, RisingKeys.nil,
    RisingKeys.nil, RisingKeys.nil⟩
  fabric := ⟨RisingKeys.nil, RisingKeys.nil⟩
  pads := ⟨⟨rfl, RisingKeys.nil⟩, fun _ h => (List.not_mem_nil h).elim, fun _ h => (List.not_mem_nil h).elim⟩
  units := fun _ h => (List.not_mem_nil h).elim
  xfers := fun _ h => (List.not_mem_nil h).elim

/-- No sequencer has run after power-on. -/
theorem State.reset_coreAt (c : Nat) : State.reset.coreAt c = {} := by
  unfold State.coreAt; split <;> rfl

/-- Settles O60. -/
theorem resetState : Obligations.ResetState := by
  refine ⟨State.reset_canonical, State.reset_orderly, rfl, rfl, by decide, by decide, rfl, rfl, fun c _ => ?_, rfl, rfl, fun d _ => rfl⟩
  rw [State.reset_coreAt]
  exact ⟨rfl, rfl⟩

end Sys2Proof.Machine
end

section
set_option Elab.async false
/-! Every row of the opcode table goes on (R44, R355): a slot form runs as one issue, and a device action takes up the arguments at hand. -/

namespace Sys2Proof.Machine

/-- The actions of intervals and units that branch on more than their arguments. -/
def branchingWork : List Instr :=
  [.anchorHoldExpiry, .preemption, .resumeUnit, .flushRequest]

theorem goesOn_of_branchingWork {i : Instr} (hi : i ∈ branchingWork) (s : State) : ∃ t, exec i s = .next t := by
  unfold branchingWork at hi
  fin_cases hi
  all_goals
    simp only [exec_anchorHoldExpiry, execAnchorHoldExpiry, exec_preemption, execPreemption, exec_resumeUnit, execResumeUnit, exec_flushRequest,
      execFlushRequest]
    repeat' first | with_reducible exact ⟨_, rfl⟩ | split

/-- The actions of transfers, walks and flows that do. -/
def branchingEngines : List Instr :=
  [.ringReserve, .chunkPerform, .recordComplete, .channelFault, .putGetRemoteFault, .getComplete, .sixFault, .ptsTick, .translationWalk,
  .flowWindowBoundary, .flowPromoteProbe, .glopenComplete]

theorem goesOn_of_branchingEngines {i : Instr} (hi : i ∈ branchingEngines) (s : State) : ∃ t, exec i s = .next t := by
  unfold branchingEngines at hi
  fin_cases hi
  all_goals
    simp only [exec_ringReserve, execRingReserve, exec_chunkPerform, execChunkPerform, exec_recordComplete, execRecordComplete, exec_channelFault,
      execChannelFault, exec_putGetRemoteFault, execPutGetRemoteFault, exec_getComplete, execGetComplete, exec_sixFault, execSixFault,
      exec_ptsTick, execPtsTick, exec_translationWalk, execTranslationWalk, exec_flowWindowBoundary, execFlowWindowBoundary,
      exec_flowPromoteProbe, execFlowPromoteProbe, exec_glopenComplete, execGlopenComplete]
    repeat' first | with_reducible exact ⟨_, rfl⟩ | split

/-- The actions of circuits, links, power and the host that do. -/
def branchingFabric : List Instr :=
  [.guylineAckArrive, .guylineLeaseExpire, .retrainEnd, .currentLimitEngage, .rocev2BulkData]

theorem goesOn_of_branchingFabric {i : Instr} (hi : i ∈ branchingFabric) (s : State) : ∃ t, exec i s = .next t := by
  unfold branchingFabric at hi
  fin_cases hi
  all_goals
    simp only [exec_guylineAckArrive, execGuylineAckArrive, exec_guylineLeaseExpire, execGuylineLeaseExpire, exec_retrainEnd, execRetrainEnd,
      exec_currentLimitEngage, execCurrentLimitEngage, exec_rocev2BulkData, execRocev2BulkData]
    repeat' first | with_reducible exact ⟨_, rfl⟩ | split

theorem exists_ite_next {c : Prop} [Decidable c] (a b : State) :
    ∃ t, (if c then .next a else .next b : Host.Outcome State Fault Refusal) = .next t := by
  split <;> exact ⟨_, rfl⟩

/-- An event record is dropped or takes its place. -/
theorem goesOn_eventRecordArrive (s : State) : ∃ t, exec .eventRecordArrive s = .next t := by
  rw [exec_eventRecordArrive, execEventRecordArrive]
  split
  · exact exists_ite_next ..
  · exact ⟨_, rfl⟩

/-- Settles O56: a form has answered once it issues, and an action once its arguments are taken up. -/
theorem everyInstructionGoesOn : Obligations.EveryInstructionGoesOn := by
  intro i s
  cases i with
  | nop | add | sub | and | or | xor | andn | shl | shr | sra | rotr | min | minn | max | maxn | sel | mul | mulh | mulhn | clz | popc | bfx
  | bfi | cmpeq | cmpne | cmplt | cmpltn | cmple | cmplen | pand | por | pxor | adds2 | adds3 | adds6 | adds10 | mov | addi | andi | ori |
  xori | shli | shri | srai | cmpeqi | cmplti | movi | fadd | fsub | fmul | ffma | fmin | fmax | fcmpeq | fcmplt | fcmple | fcvts | fcvti |
  fcvtf | vadd | vsub | vmul | vfma | vfms | vmin | vmax | vadds | vsubs | vcmpeq | vcmplt | vcmple | vabs | vneg | vand | vor | vxor |
  vandn | vshl | vshr | vsel | vmov | vsplat | vins | vxtr | vcvt | vcvtx | vfxadd | vfxcvt | vfxcvtf | vperm | vrot | vbcl | vredadd |
  vredmin | vredmax | vscan | vxcopy | vxrot | vmand | vmor | vmxor | vmandn | vmnot | vmpop | exp2 | log2 | exp | log | rcp | rsqrt | sqrt
  | tanh | sigmoid | erf | sin | cos | div | mxpush | mxshift | mxacc | mxaccx | mxdrain | mxzero | mxswap | ldq | ldqv | gather | lds |
  ldss | sts | stss | st | stv | scatter | pref | prefs | smap | sunmap | swb | sinv | put | get | aadd | afxadd | afadd | amin | amax |
  aminn | amaxn | aincb | acas | aswap | aand | aor | axor | post | br | call | ret | jr | loop | leave | qwait | cpywait | cwait | fence |
  bwait | spawnLaunch | spawnUnit | send | trig | untrig | quiet | bar | phaseOpeng | phaseOpenp | phaseAddl | phaseClose | phaseRelease |
  cancel | yield | exit | accq | glopen | glhold | glsend | glstat | glclose | engwr | chErrclr | chResume | engrd | cpygo | sixgo | sysrd |
  syswr | syswrCkbound | syswrQbound | syswrArith | syswrSrseed | syswrMode | trap | tretRetry | tretSkipk | tretEnd | xlinv | opreq | evac
  | partq | rvset | rfloor | rheat | rwaveRead | rwavePark | rwaveWake | rwaveMove | revpost | rhframeSend | rhframeRecv | rsigchk |
  racctCreate | racctAdd | racctRelease | racctCancel => exact ⟨_, rfl⟩
  | anchorHoldExpiry | preemption | resumeUnit | flushRequest =>
    exact goesOn_of_branchingWork (by decide) s
  | ringReserve | chunkPerform | recordComplete | channelFault | putGetRemoteFault | getComplete | sixFault | ptsTick | translationWalk | flowWindowBoundary | flowPromoteProbe | glopenComplete =>
    exact goesOn_of_branchingEngines (by decide) s
  | guylineAckArrive | guylineLeaseExpire | retrainEnd | currentLimitEngage | rocev2BulkData =>
    exact goesOn_of_branchingFabric (by decide) s
  | eventRecordArrive => exact goesOn_eventRecordArrive s
  | _ =>
    simp only [exec_fenceComplete, execFenceComplete, exec_checkpointConfirm, execCheckpointConfirm, exec_anchorTokenGrant, execAnchorTokenGrant,
      exec_rollback, execRollback, exec_qboundStallLimit, execQboundStallLimit, exec_unitPlace, execUnitPlace, exec_unitAdmit,
      execUnitAdmit, exec_unitStart, execUnitStart, exec_unitAge, execUnitAge, exec_unitCancelStop, execUnitCancelStop, exec_borrowRequest,
      execBorrowRequest, exec_borrowReply, execBorrowReply, exec_combinerAdd, execCombinerAdd, exec_combinerFlushPeriod,
      execCombinerFlushPeriod, exec_returnArrive, execReturnArrive, exec_messageArrive, execMessageArrive, exec_messageTimeout,
      execMessageTimeout, exec_channelTakeRecord, execChannelTakeRecord, exec_channelShadowStart, execChannelShadowStart, exec_sixOpStart,
      execSixOpStart, exec_sixPush, execSixPush, exec_queueLoadFill, execQueueLoadFill, exec_stashFill, execStashFill, exec_stashWriteback,
      execStashWriteback, exec_barrierArrival, execBarrierArrival, exec_regionFtTimeout, execRegionFtTimeout, exec_artUpdateEffect,
      execArtUpdateEffect, exec_xlinvAck, execXlinvAck, exec_trailPacketDeliver, execTrailPacketDeliver, exec_guylineSlotSend,
      execGuylineSlotSend, exec_guylineFlitLand, execGuylineFlitLand, exec_guylineFinalCount, execGuylineFinalCount,
      exec_guylineFinalTimeout, execGuylineFinalTimeout, exec_podBarrierCombine, execPodBarrierCombine, exec_podBarrierResult,
      execPodBarrierResult, exec_barTimeout, execBarTimeout, exec_linkTraining, execLinkTraining, exec_flitReceive, execFlitReceive,
      exec_replayRequest, execReplayRequest, exec_linkRetrain, execLinkRetrain, exec_lightLoss, execLightLoss, exec_restripeComplete,
      execRestripeComplete, exec_reconcile, execReconcile, exec_reconcileTimeout, execReconcileTimeout, exec_laserWakeRequest,
      execLaserWakeRequest, exec_scrub, execScrub, exec_controlInterval, execControlInterval, exec_currentLimitLevel2,
      execCurrentLimitLevel2, exec_thermalCrit, execThermalCrit, exec_logicStep, execLogicStep, exec_sramUpstep, execSramUpstep,
      exec_stepwaitExpire, execStepwaitExpire, exec_evacRowMove, execEvacRowMove, exec_stepSettle, execStepSettle, exec_drainComplete,
      execDrainComplete, exec_boot, execBoot, exec_hostHello, execHostHello, exec_hostGoodbye, execHostGoodbye, exec_sessionTimeout,
      execSessionTimeout, exec_hostLoad, execHostLoad, exec_hostStart, execHostStart, exec_hostLaunch, execHostLaunch, exec_hostJobCreate,
      execHostJobCreate, exec_hostJobAdd, execHostJobAdd, exec_hostJobRelease, execHostJobRelease, exec_hostJobCancel, execHostJobCancel,
      exec_hostAcctrd, execHostAcctrd, exec_hostPart, execHostPart, exec_hostPodmap, execHostPodmap, exec_hostCap, execHostCap,
      exec_hostMode, execHostMode, exec_hostEvents, execHostEvents, exec_hostCounters, execHostCounters, exec_hostAttest, execHostAttest,
      exec_hostSafeckpt, execHostSafeckpt, exec_ckptBlockAck, execCkptBlockAck, exec_hostCkptstat, execHostCkptstat, exec_hostReset,
      execHostReset, exec_freedRowsZeroed, execFreedRowsZeroed]
    split <;> exact ⟨_, rfl⟩

end Sys2Proof.Machine
end

section
set_option Elab.async false
/-! The scalar floating forms and conversions (R105, R109, R120 to R125). -/

namespace Sys2Proof.Machine

section
variable {i : Instr} {s : State} {f : FFmt} {p : BitVec 3} {w : Bool} {d : BitVec 6} {a b : Src} {x y : Word}

/-- A floating operand is the low bits of its field (R105). -/
theorem getF_pops (h : s.readS (FFmt.sty f) a = .ok x) (as : List Src) : (s.pops as).getF f a = .ok (x.toNat % 2 ^ (FFmt.fmt f).width) := by
  unfold State.getF; rw [getS_pops, getS_of_readS h]; rfl

theorem gives_fpu2 {op : Fmt → Round → Bool → Nat → Nat → Nat × FlagSet} (hp : PredOn s p) (hx : s.readS (FFmt.sty f) a = .ok x)
    (hy : s.readS (FFmt.sty f) b = .ok y) (hd : FreeS s w d) (hi : exec i s = s.fpu2 f p w d a b op) :
    let r := op (FFmt.fmt f) (arithRM s.core.arch.arith) (arithFTZ s.core.arch.arith) (x.toNat % 2 ^ (FFmt.fmt f).width)
      (y.toNat % 2 ^ (FFmt.fmt f).width)
    Gives i s (scalarOut s [a, b] w d 4 (BitVec.ofNat 64 r.1) r.2) := by
  refine hi.trans (issue_ok hp ?_)
  rw [getF_pops hx, getF_pops hy, State.rm, State.ftz, pops_arch]
  exact resultS_pops hd _ _ _ _

theorem gives_fpuCompare {op : Sys2Proof.Machine.Num → Sys2Proof.Machine.Num → Bool} (hp : PredOn s p) (hx : s.readS (FFmt.sty f) a = .ok x)
    (hy : s.readS (FFmt.sty f) b = .ok y) (hi : exec i s = s.fpuCompare f p w d a b op) :
    Gives i s (predOut s [a, b] w d 4 (op ((FFmt.fmt f).decode (arithFTZ s.core.arch.arith) (x.toNat % 2 ^ (FFmt.fmt f).width))
      ((FFmt.fmt f).decode (arithFTZ s.core.arch.arith) (y.toNat % 2 ^ (FFmt.fmt f).width)))) := by
  refine hi.trans (issue_ok hp ?_)
  rw [getF_pops hx, getF_pops hy, State.ftz, pops_arch, ← resultP_pops]
  rfl

theorem gives_ffma (hp : PredOn s p) (hx : s.readS (FFmt.sty f) a = .ok x) (hy : s.readS (FFmt.sty f) b = .ok y) (hd : FreeS s w d) :
    let n := 2 ^ (FFmt.fmt f).width
    let r := (FFmt.fmt f).fma (arithRM s.core.arch.arith) (arithFTZ s.core.arch.arith) false (x.toNat % n) (y.toNat % n)
      ((s.core.arch.sreg d).toNat % n)
    Gives (.ffma f p w d a b) s (scalarOut s [a, b] w d 4 (BitVec.ofNat 64 r.1) r.2) := by
  refine (exec_ffma ..).trans (issue_ok hp ?_)
  rw [getF_pops hx, getF_pops hy, State.rm, State.ftz, pops_arch]
  exact resultS_pops hd _ _ _ _

end

/-- Settles O4: the two-source shape, the compare and the fused form. -/
theorem scalarFloatResults : Obligations.ScalarFloatResults := by
  intro s f p w d a b x y hp hx hy hd g n rm ftz u v four
  exact ⟨gives_fpu2 hp hx hy hd (exec_fadd ..), gives_fpu2 hp hx hy hd (exec_fsub ..), gives_fpu2 hp hx hy hd (exec_fmul ..),
    gives_ffma hp hx hy hd, gives_fpu2 hp hx hy hd (exec_fmin ..), gives_fpu2 hp hx hy hd (exec_fmax ..),
    gives_fpuCompare hp hx hy (exec_fcmpeq ..), gives_fpuCompare hp hx hy (exec_fcmplt ..), gives_fpuCompare hp hx hy (exec_fcmple ..)⟩

/-! ### Conversions (R123 to R125) -/

section
variable {s : State} {p : BitVec 3} {w : Bool} {d : BitVec 6} {a : Src} {x : Word} {r : Round} {t : IType} {f : FFmt}

theorem gives_fcvts_f32 (hp : PredOn s p) (hd : FreeS s w d) (hx : s.readS .f64 a = .ok x) :
    let v := fp32.ofNum r (arithFTZ s.core.arch.arith) (fp64.decode (arithFTZ s.core.arch.arith) x.toNat)
    Gives (.fcvts .f32 p w d a r) s (scalarOut s [a] w d 4 (BitVec.ofNat 64 v.1) v.2) := by
  refine (exec_fcvts ..).trans (issue_ok hp ?_)
  have hw : x.toNat % 2 ^ (FFmt.fmt .f64).width = x.toNat := Nat.mod_eq_of_lt x.isLt
  dsimp only
  rw [getF_pops (f := .f64) hx, hw, State.ftz, pops_arch]
  exact resultS_pops hd _ _ _ _

theorem gives_fcvts_f64 (hp : PredOn s p) (hd : FreeS s w d) (hx : s.readS .f32 a = .ok x) :
    let v := fp64.ofNum r (arithFTZ s.core.arch.arith) (fp32.decode (arithFTZ s.core.arch.arith) (x.toNat % 2 ^ 32))
    Gives (.fcvts .f64 p w d a r) s (scalarOut s [a] w d 4 (BitVec.ofNat 64 v.1) v.2) := by
  refine (exec_fcvts ..).trans (issue_ok hp ?_)
  dsimp only
  rw [getF_pops (f := .f32) hx, State.ftz, pops_arch]
  exact resultS_pops hd _ _ _ _

theorem gives_fcvtf (hp : PredOn s p) (hd : FreeS s w d) (hx : s.readS .int a = .ok x) :
    let v := (FFmt.fmt f).ofInt r (arithFTZ s.core.arch.arith) (intOf (IType.width t) (IType.signed t) x.toNat)
    Gives (.fcvtf f p w d a t r) s (scalarOut s [a] w d 4 (BitVec.ofNat 64 v.1) v.2) := by
  refine (exec_fcvtf ..).trans (issue_ok hp ?_)
  rw [getS_pops, getS_of_readS hx, State.ftz, pops_arch]
  exact resultS_pops hd _ _ _ _

theorem gives_fcvti (hp : PredOn s p) (hd : FreeS s w d) (hx : s.readS (FFmt.sty f) a = .ok x) :
    let v := ((FFmt.fmt f).decode (arithFTZ s.core.arch.arith) (x.toNat % 2 ^ (FFmt.fmt f).width)).toIntTy r (IType.width t) (IType.signed t)
    Gives (.fcvti f p w d a t r) s (scalarOut s [a] w d 4 (BitVec.ofInt 64 (intOf (IType.width t) (IType.signed t) v.1)) v.2) := by
  refine (exec_fcvti ..).trans (issue_ok hp ?_)
  rw [getF_pops hx, State.ftz, pops_arch]
  exact resultS_pops hd _ _ _ _

end

/-- A number within the bounds of its type is written and read back (R81). -/
theorem intOf_wrapTo {t : IType} {v : Int} (hlo : intMin (IType.width t) (IType.signed t) ≤ v)
    (hhi : v ≤ intMax (IType.width t) (IType.signed t)) : intOf (IType.width t) (IType.signed t) (wrapTo (IType.width t) v) = v := by
  cases t <;> simp only [IType.width, IType.signed, intMin, intMax, intOf, wrapTo, Nat.testBit_eq_decide_div_mod_eq, Bool.true_and,
    Bool.false_and, decide_eq_true_eq, if_true] at * <;> norm_num at * <;> omega

/-- A value converted to an integer type, as a number: NaN gives 0, an infinity and a value past a bound the bound, each with IV (R123). -/
theorem toIntTy_fin {t : IType} {r : Round} {v : Sys2Proof.Machine.Num} (hv : ∃ s m e, v = .fin s m e) :
    let n := IType.width t
    let sg := IType.signed t
    let q := v.toInt r
    (intOf n sg (v.toIntTy r n sg).1, (v.toIntTy r n sg).2) =
      if q.1 < intMin n sg then (intMin n sg, fIV) else if intMax n sg < q.1 then (intMax n sg, fIV) else (q.1, if q.2 then 0#6 else fNX) := by
  obtain ⟨s, m, e, rfl⟩ := hv
  have hle : intMin (IType.width t) (IType.signed t) ≤ intMax (IType.width t) (IType.signed t) := by cases t <;> decide
  intro n sg q
  change (intOf n sg (wrapTo n (satTo n sg q.1).1), if (satTo n sg q.1).2 then fIV else flagIf (!q.2) fNX) = _
  unfold satTo
  split
  · rw [intOf_wrapTo le_rfl hle]; rfl
  · split
    · rw [intOf_wrapTo hle le_rfl]; rfl
    · rw [intOf_wrapTo (not_lt.mp ‹_›) (not_lt.mp ‹_›)]
      cases q.2 <;> rfl

/-- Settles O5. -/
theorem scalarConversionResults : Obligations.ScalarConversionResults := by
  intro s p w d a t r x hp hd ftz four
  refine ⟨gives_fcvts_f32 hp hd, gives_fcvts_f64 hp hd, fun hx f => gives_fcvtf hp hd hx, fun f hx => ?_⟩
  have h := gives_fcvti (r := r) (t := t) hp hd hx
  have hle : intMin (IType.width t) (IType.signed t) ≤ intMax (IType.width t) (IType.signed t) := by cases t <;> decide
  have hzero : intOf (IType.width t) (IType.signed t) 0 = 0 := by cases t <;> rfl
  intro v lo hi out
  change Gives _ s (out (intOf _ _ (v.toIntTy r (IType.width t) (IType.signed t)).1) (v.toIntTy r _ _).2) at h
  cases hv : v with
  | nan => rw [hv] at h; simpa [Num.toIntTy, hzero] using h
  | inf neg =>
    rw [hv] at h
    cases neg with
    | true => simpa [Num.toIntTy, intOf_wrapTo le_rfl hle] using h
    | false => simpa [Num.toIntTy, intOf_wrapTo hle le_rfl] using h
  | fin z m e =>
    have hq := congrArg (fun k : Int × FlagSet => out k.1 k.2) (toIntTy_fin (t := t) (r := r) ⟨z, m, e, hv⟩)
    simp only [apply_ite Prod.fst, apply_ite Prod.snd, apply_ite₂ out] at hq
    rw [hv] at h hq
    rw [hq] at h
    exact h

end Sys2Proof.Machine
end

section
set_option Elab.async false
/-! The vector forms that act element by element or lane by lane (R137 to R152, R158, R159): how a vector or mask result leaves its slot, what
each shape of the family completes with, and the statements assembled from them. -/

namespace Sys2Proof.Machine

/-! ### Results of a slot whose pops are noted -/

/-- A vector result leaves its slot in each of the three places where it may go: the latch, the bound queue, the register. -/
theorem resultV_pops {s : State} {w : Bool} {d : BitVec 6} (h : FreeV s w d) (as : List Src) (lat : Nat) (v : Lanes) (m c : LaneMask)
    (f : FlagSet) : (s.pops as).resultV w d lat v m c f = .ok (vectorOut s as w d lat v m c f) := by
  unfold vectorOut
  cases w with
  | true => rw [resultV_nowb, pops_fly, if_pos rfl]; rfl
  | false =>
    rw [if_neg Bool.false_ne_true]
    cases hb : s.core.boundQueue true d with
    | none => rw [resultV_reg ((pops_boundQueue ..).trans hb), pops_fly]; rfl
    | some q =>
      have hq : s.core.hasQueue q = true := (h.resolve_left Bool.false_ne_true) q hb
      rw [resultV_queue ((pops_boundQueue ..).trans hb) ((pops_hasQueue ..).trans hq), pops_eq]; rfl

theorem resultM_pops (s : State) (as : List Src) (w : Bool) (d : BitVec 6) (lat : Nat) (v m : LaneMask) :
    (s.pops as).resultM w d lat v m = maskOut s as w d lat v m := by
  cases w <;> exact pops_fly s as lat _ _ _ rfl

/-! ### Lanes without flags -/

theorem foldl_or_noFlags {α : Type} {f : α → BitVec 32 × FlagSet} (h : ∀ i, (f i).2 = 0#6) (is : List α) :
    (is.map f).foldl (fun g r => g ||| r.2) noFlags = 0#6 := by
  induction is with
  | nil => rfl
  | cons i is ih => rw [List.map_cons, List.foldl_cons, h i]; exact ih

/-- Lanes none of which raises a flag raise none together. -/
theorem runLanes_flags {m : LaneMask} {f : Nat → BitVec 32 × FlagSet} (h : ∀ i, (f i).2 = 0#6) : (runLanes m f).2 = 0#6 := by
  refine foldl_or_noFlags (fun i => ?_) _
  split
  · exact h i
  · rfl

theorem runElems_flags {w : Nat} {f : Nat → Nat × FlagSet} (h : ∀ k, (f k).2 = 0#6) (n k : Nat) : (runElems w f n k).2 = 0#6 := by
  induction n generalizing k with
  | zero => rfl
  | succ n ih => rw [runElems, h, ih]; rfl

/-! ### What each shape of the family completes with -/

section
variable {i : Instr} {s : State} {t : VType} {p : BitVec 3} {w : Bool} {d : BitVec 6} {a b : Src} {x y : Lanes}

theorem gives_vec2 {lat : Nat} {f : State → Nat → Nat → Nat × FlagSet} {g : Nat → Nat → Nat × FlagSet} (hx : s.readV (.ty t) a = .ok x)
    (hy : s.readV (.ty t) b = .ok y) (hd : FreeV s w d) (hi : exec i s = s.vec2 t p w d a b lat f) (hg : f (s.pops [a, b]) = g) :
    Gives i s (lanesOut s [a, b] p w d lat (byLane2 t (s.core.arch.mreg p.toNat) g x y)) := by
  refine hi.trans (issueV_ok ?_)
  rw [getV_pops, getV_of_readV hx, getV_pops, getV_of_readV hy, hg]
  exact resultV_pops hd _ _ _ _ _ _

theorem gives_vec3 {lat : Nat} {f : State → Nat → Nat → Nat → Nat × FlagSet} {g : Nat → Nat → Nat → Nat × FlagSet}
    (hx : s.readV (.ty t) a = .ok x) (hy : s.readV (.ty t) b = .ok y) (hd : FreeV s w d) (hi : exec i s = s.vec3 t p w d a b lat f)
    (hg : f (s.pops [a, b]) = g) :
    Gives i s (lanesOut s [a, b] p w d lat
      (runLanes (s.core.arch.mreg p.toNat) fun i => laneOp3 (elemWidth t) g (lane x i) (lane y i) (lane (s.core.arch.vreg d) i))) := by
  refine hi.trans (issueV_ok ?_)
  rw [getV_pops, getV_of_readV hx, getV_pops, getV_of_readV hy, hg, pops_arch]
  exact resultV_pops hd _ _ _ _ _ _

theorem gives_vec1 {lat : Nat} {f : Nat → Nat} (hx : s.readV (.ty t) a = .ok x) (hd : FreeV s w d)
    (hi : exec i s = s.vec1 t p w d a lat f) :
    Gives i s (lanesOut s [a] p w d lat
      (runLanes (s.core.arch.mreg p.toNat) fun i => laneOp2 (elemWidth t) (fun u _ => (f u, 0#6)) (lane x i) 0#32)) := by
  refine hi.trans (issueV_ok ?_)
  rw [getV_pops, getV_of_readV hx]
  unfold lanesOut
  rw [runLanes_flags fun i => runElems_flags (fun _ => rfl) _ _]
  exact resultV_pops hd _ _ _ _ _ _

theorem gives_vecRaw {lat : Nat} {f : Lanes → Lanes → Nat → BitVec 32} {g : Nat → BitVec 32} (hx : s.readV .raw a = .ok x)
    (hy : s.readV .raw b = .ok y) (hd : FreeV s w d) (hi : exec i s = s.vecRaw p w d a b lat f) (hg : f x y = g) :
    Gives i s (lanesOut s [a, b] p w d lat (runLanes (s.core.arch.mreg p.toNat) fun i => (g i, 0#6))) := by
  refine hi.trans (issueV_ok ?_)
  rw [getV_pops, getV_of_readV hx, getV_pops, getV_of_readV hy, ← hg]
  unfold lanesOut
  rw [runLanes_flags fun _ => rfl]
  exact resultV_pops hd _ _ _ _ _ _

/-- A compare sets a lane's bit when its relation, by type, holds for each element of the lane (R149). -/
theorem gives_vecCompare {ff : Sys2Proof.Machine.Num → Sys2Proof.Machine.Num → Bool} {fi : Int → Int → Bool}
    (hx : s.readV (.ty t) a = .ok x) (hy : s.readV (.ty t) b = .ok y) (hi : exec i s = s.vecCompare t p w d a b ff fi) :
    Gives i s (maskOut s [a, b] w d 2 (maskTab fun i => (List.range (32 / elemWidth t)).all fun k =>
      if t.isFloat then
        ff ((elemFmt t).decode (arithFTZ s.core.arch.arith) (elemAt (elemWidth t) k (lane x i)))
          ((elemFmt t).decode (arithFTZ s.core.arch.arith) (elemAt (elemWidth t) k (lane y i)))
      else fi (elemInt t (elemAt (elemWidth t) k (lane x i))) (elemInt t (elemAt (elemWidth t) k (lane y i))))
      (s.core.arch.mreg p.toNat)) := by
  refine hi.trans (issueV_ok ?_)
  rw [getV_pops, getV_of_readV hx, getV_pops, getV_of_readV hy, State.ftz, pops_arch, ← resultM_pops]
  simp only [upFrom_eq_range', ← List.range_eq_range']
  rfl

theorem gives_maskLogic {f : LaneMask → LaneMask → LaneMask} {x y : LaneMask} (hx : s.readM a = .ok x) (hy : s.readM b = .ok y)
    (hi : exec i s = s.maskLogic p w d a b f) : Gives i s (maskOut s [a, b] w d 1 (f x y) (s.core.arch.mreg p.toNat)) := by
  refine hi.trans (issueV_ok ?_)
  rw [readM_pops, hx, readM_pops, hy, ← resultM_pops]
  rfl

end

/-! ### Element operations by type -/

/-- An operation by type under the modes of a slot whose pops are noted. -/
theorem byType_pops (s : State) (as : List Src) (t : VType) (ff : Fmt → Round → Bool → Nat → Nat → Nat × FlagSet) (fi : Int → Int → Int) :
    byType t (fun g u v => ff g (s.pops as).rm (s.pops as).ftz u v) fi =
      if t.isFloat then ff (elemFmt t) (arithRM s.core.arch.arith) (arithFTZ s.core.arch.arith)
      else fun u v => (wrapTo (elemWidth t) (fi (elemInt t u) (elemInt t v)), 0#6) := by
  funext u v
  unfold byType State.rm State.ftz
  rw [pops_arch]
  split <;> rfl

/-- The fused form by type: one rounding, or a natural number modulo the width. -/
theorem fmaByType_pops (s : State) (as : List Src) (t : VType) :
    (fun x y z => if t.isFloat then (elemFmt t).fma (s.pops as).rm (s.pops as).ftz false x y z
      else (wrapTo (elemWidth t) ((x * y + z : Nat) : Int), noFlags)) =
      if t.isFloat then (elemFmt t).fma (arithRM s.core.arch.arith) (arithFTZ s.core.arch.arith) false
      else fun u v z => ((u * v + z) % 2 ^ elemWidth t, 0#6) := by
  funext u v z
  unfold State.rm State.ftz wrapTo
  rw [pops_arch]
  split
  · rfl
  · rw [← Int.natCast_mod, Int.toNat_natCast]; rfl

theorem minMaxOp_float {t : VType} (h : t.isFloat = true) (ftz big : Bool) (u v : Nat) :
    minMaxOp t ftz big u v = (elemFmt t).minMax ftz big u v := if_pos h

theorem minMaxOp_int {t : VType} (h : t.isFloat = false) (ftz big : Bool) (u v : Nat) :
    minMaxOp t ftz big u v = if decide (elemInt t u < elemInt t v) != big then u else v := if_neg (by simp [h])

/-- Settles O6: the two- and three-source shapes with their element operations. -/
theorem vectorArithmeticResults : Obligations.VectorArithmeticResults := by
  intro s t p w d a b x y hx hy hd m rm ftz n g fl lat out wrap sat third
  have run {i : Instr} {l : Nat} {f : State → Nat → Nat → Nat × FlagSet} {h : Nat → Nat → Nat × FlagSet}
      (hi : exec i s = s.vec2 t p w d a b l f) (hf : f (s.pops [a, b]) = h) : Gives i s (out l h) := gives_vec2 hx hy hd hi hf
  refine ⟨run (exec_vadd ..) (byType_pops s _ t Fmt.add _), run (exec_vsub ..) (byType_pops s _ t Fmt.sub _),
    run (exec_vmul ..) (byType_pops s _ t Fmt.mul _), gives_vec3 hx hy hd (exec_vfma ..) (fmaByType_pops s _ t),
    gives_vec3 hx hy hd (exec_vfms ..) ?vfms, run (exec_vadds ..) rfl, run (exec_vsubs ..) rfl, fun hf => ⟨?fmin, ?fmax⟩,
    fun hf => ⟨?imin, ?imax⟩⟩
  case vfms => funext u v z; rw [State.rm, State.ftz, pops_arch]
  case fmin => exact run (exec_vmin ..) (by funext u v; rw [minMaxOp_float hf, State.ftz, pops_arch]; rfl)
  case fmax => exact run (exec_vmax ..) (by funext u v; rw [minMaxOp_float hf, State.ftz, pops_arch]; rfl)
  case imin => exact run (exec_vmin ..) (by funext u v; rw [minMaxOp_int hf]; by_cases h : elemInt t u < elemInt t v <;> simp [h, noFlags])
  case imax => exact run (exec_vmax ..) (by funext u v; rw [minMaxOp_int hf]; by_cases h : elemInt t u < elemInt t v <;> simp [h, noFlags])

/-! ### Signs, shifts and fields (R147, R148, R152) -/

theorem signBit_elemFmt {t : VType} (h : t.isFloat = true) : (elemFmt t).signBit = 2 ^ (elemWidth t - 1) := by
  have hw : (elemFmt t).eb + (elemFmt t).fb = elemWidth t - 1 := by
    cases t with
    | f32 | bf16 | f16 => rfl
    | i32 | n32 | i16 | n16 | i8 => cases h
  unfold Fmt.signBit; rw [hw]

theorem signOp_eq (t : VType) (neg : Bool) (u : Nat) : signOp t neg u =
    if t.isFloat then
      (if ((elemFmt t).decode false u).isNan then (elemFmt t).nanBits
       else if neg && !u.testBit (elemWidth t - 1) then u % 2 ^ (elemWidth t - 1) + 2 ^ (elemWidth t - 1) else u % 2 ^ (elemWidth t - 1))
    else wrapTo (elemWidth t) (if neg || decide (intOf (elemWidth t) true u < 0) then -intOf (elemWidth t) true u
      else intOf (elemWidth t) true u) := by
  unfold signOp
  split
  · rename_i h
    dsimp only
    rw [← signBit_elemFmt h]
    unfold Fmt.signed
    cases neg <;> simp
  · rfl

theorem fld_zero {w : Nat} (x : BitVec w) (n : Nat) : fld x 0 n = x.toNat % 2 ^ n := by
  unfold fld bits; rw [pow_zero, Nat.div_one]

theorem shr_eq (t : VType) :
    (fun u v => (wrapTo (elemWidth t) (intOf (elemWidth t) (elemSigned t) u / (2 ^ elemShift t v : Nat)), noFlags)) =
      fun u v => (wrapTo (elemWidth t) (elemInt t u / 2 ^ (v % elemWidth t)), 0#6) := by
  funext u v; rw [Nat.cast_pow]; rfl

/-- Settles O7: the compare, shift, sign and whole-lane shapes, and the moves one by one. -/
theorem vectorLogicMoveResults : Obligations.VectorLogicMoveResults := by
  refine ⟨fun s t p w d a b => ?_, fun s p w d a b => ?_⟩
  · intro m ftz n g
    refine ⟨?compare, fun x hx hd => ?_, fun x y hx hy hd => ?_⟩
    case compare =>
      intro x y hx hy rel
      have run {i : Instr} (ff : Sys2Proof.Machine.Num → Sys2Proof.Machine.Num → Bool) (fi : Int → Int → Bool)
          (hi : exec i s = s.vecCompare t p w d a b ff fi) : Gives i s (maskOut s [a, b] w d 2 (maskTab (rel ff fi)) m) :=
        gives_vecCompare hx hy hi
      exact ⟨run Num.eq (fun u v => decide (u = v)) (exec_vcmpeq ..), run Num.lt (fun u v => decide (u < v)) (exec_vcmplt ..),
        run (fun u v => u.lt v || u.eq v) (fun u v => decide (u ≤ v)) (exec_vcmple ..),
        fun hd => ⟨gives_vec2 hx hy hd (exec_vshl ..) rfl, gives_vec2 hx hy hd (exec_vshr ..) (shr_eq t)⟩⟩
    · have run {i : Instr} (neg : Bool) (hi : exec i s = s.vec1 t p w d a 2 (signOp t neg)) := gives_vec1 hx hd hi
      simp only [signOp_eq] at run
      exact ⟨run false (exec_vabs ..), run true (exec_vneg ..)⟩
    · exact ⟨gives_vecRaw hx hy hd (exec_vand ..) rfl, gives_vecRaw hx hy hd (exec_vor ..) rfl, gives_vecRaw hx hy hd (exec_vxor ..) rfl,
        gives_vecRaw hx hy hd (exec_vandn ..) rfl⟩
  · intro m all
    refine ⟨fun x y hx hy hd => ⟨?vsel, ?vmov⟩, fun x y hx hy hd => ⟨?vsplat, ?vins⟩, fun x y hx hy hd => ?vxtr⟩
    case vsel =>
      refine (exec_vsel ..).trans (issueV_ok ?_)
      rw [getV_pops, getV_of_readV hx, getV_pops, getV_of_readV hy]
      exact resultV_pops hd _ _ _ _ _ _
    case vmov =>
      refine (exec_vmov ..).trans (issueV_ok ?_)
      rw [getV_pops, getV_of_readV hx]
      exact resultV_pops hd _ _ _ _ _ _
    case vsplat =>
      refine (exec_vsplat ..).trans (issueV_ok ?_)
      rw [getS_pops, getS_of_readS hx]
      exact resultV_pops hd _ _ _ _ _ _
    case vins =>
      refine (exec_vins ..).trans (issueV_ok ?_)
      rw [getS_pops, getS_of_readS hx, getS_pops, getS_of_readS hy, pops_arch]
      dsimp only [bind, Except.bind]
      rw [show fld y 0 7 = y.toNat % 128 from fld_zero y 7]
      exact resultV_pops hd _ _ _ _ _ _
    case vxtr =>
      refine (exec_vxtr ..).trans (issueV_ok ?_)
      rw [getV_pops, getV_of_readV hx, getS_pops, getS_of_readS hy]
      dsimp only [bind, Except.bind]
      rw [show fld y 0 7 = y.toNat % 128 from fld_zero y 7]
      exact resultS_pops hd _ _ _ _

/-- Settles O8: each permute is the whole-lane shape with its own lane. -/
theorem vectorPermuteResults : Obligations.VectorPermuteResults := by
  intro s p w d a b x y hx hy hd low out first
  have run {i : Instr} {lat : Nat} {f : Lanes → Lanes → Nat → BitVec 32} {from' : Nat → Nat} (hi : exec i s = s.vecRaw p w d a b lat f)
      (hf : f x y = fun i => lane x (from' i)) : Gives i s (out lat from') := gives_vecRaw hx hy hd hi hf
  refine ⟨run (exec_vperm ..) ?_, run (exec_vrot ..) ?_, run (exec_vbcl ..) ?_, run (exec_vxcopy ..) ?_, run (exec_vxrot ..) ?_⟩
  all_goals
    funext i
    simp only [fld_zero, low, first, Nat.mul_comm]

/-- Settles O9: the mask shape, the complement and the count. -/
theorem maskResults : Obligations.MaskResults := by
  intro s p w d a b x y hx hy m
  refine ⟨gives_maskLogic hx hy (exec_vmand ..), gives_maskLogic hx hy (exec_vmor ..), gives_maskLogic hx hy (exec_vmxor ..),
    gives_maskLogic (f := fun x y => x &&& ~~~y) hx hy (exec_vmandn ..), ?vmnot, fun hd => ?vmpop⟩
  case vmnot =>
    refine (exec_vmnot ..).trans (issueV_ok ?_)
    rw [readM_pops, hx, ← resultM_pops]
    rfl
  case vmpop =>
    refine (exec_vmpop ..).trans (issueV_ok ?_)
    rw [readM_pops, hx, ← oneBits_eq]
    exact resultS_pops hd _ _ _ _

end Sys2Proof.Machine
end

section
set_option Elab.async false
/-! The vector conversions, the FX64 forms, the reductions and the scan (R153 to R161), and the special functions (R189 to R191): what each
shape completes with, and the two statements assembled from them. -/

namespace Sys2Proof.Machine

theorem upFrom_zero (n : Nat) : upFrom 0 n = List.range n := by rw [upFrom_eq_range', List.range_eq_range']

theorem notePops_withArch (x : Core) (as : List Src) (r : Arch) : Core.notePops { x with arch := r } as = { x.notePops as with arch := r } := by
  induction as generalizing x with
  | nil => rfl
  | cons a as ih =>
    cases a with
    | pop q => exact ih { x with popped := x.popped ||| (1#8 <<< q.toNat) }
    | _ => exact ih x

/-- Noting pops and writing the registers of a slot's core go past each other. -/
theorem pops_withArch (s : State) (as : List Src) (r : Arch) :
    (s.pops as).withCore { (s.pops as).core with arch := r } = State.pops { s with core := { s.core with arch := r } } as :=
  (congrArg (s.withCore ·) (notePops_withArch s.core as r)).symm

section
variable {i : Instr} {s : State} {t : VType} {p : BitVec 3} {w : Bool} {d : BitVec 6} {a b : Src} {x y : Lanes}

theorem gives_convert {field : VTy} {r : Round} {sw dw : Nat} {f : Bool → Nat → BitVec 32 → Nat × FlagSet} {c : Lanes × FlagSet × Lanes}
    (hx : s.readV field a = .ok x) (hd : FreeV s w d) (hi : exec i s = s.convert p w d a field r sw dw f)
    (hc : convLanes (s.core.arch.mreg p.toNat) (f (arithFTZ s.core.arch.arith)) (decide (r = .stoch)) sw dw x s.core.arch.gens = c) :
    Gives i s (vectorOut { s with core := { s.core with arch := { s.core.arch with gens := c.2.2 } } } [a] w d 3 c.1
      (s.core.arch.mreg p.toNat) (s.core.arch.mreg p.toNat) c.2.1) := by
  refine hi.trans (issueV_ok ?_)
  rw [getV_pops, getV_of_readV hx, State.ftz, pops_arch]
  dsimp only [bind, Except.bind]
  rw [hc, pops_withArch]
  exact resultV_pops (s := { s with core := { s.core with arch := { s.core.arch with gens := c.2.2 } } }) hd _ _ _ _ _ _

theorem gives_vecFx {ta : VTy} {lat : Nat} {f : State → Lanes → Lanes → Nat → Nat × FlagSet} {g : Nat → Nat × FlagSet}
    (hx : s.readV ta a = .ok x) (hy : s.readV .fx b = .ok y) (hd : FreeV s w d) (hi : exec i s = s.vecFx p w d a b ta lat f)
    (hg : f (s.pops [a, b]) x y = g) :
    Gives i s (vectorOut s [a, b] w d lat (runFx (s.core.arch.mreg p.toNat) g).1
      (maskTab fun i => (s.core.arch.mreg p.toNat).getLsbD (i / 2 * 2)) (s.core.arch.mreg p.toNat)
      (runFx (s.core.arch.mreg p.toNat) g).2) := by
  refine hi.trans (issueV_ok ?_)
  rw [getV_pops, getV_of_readV hx, getV_pops, getV_of_readV hy, ← hg]
  exact resultV_pops hd _ _ _ _ _ _

/-- The result of each cluster's pairwise tree stands in its lane 0 (R160). -/
theorem gives_reduce {f : State → Nat → Nat → Nat × FlagSet} {absent : Nat} {g : Nat → Nat → Nat × FlagSet} {rs : List (Option Nat × FlagSet)}
    (hx : s.readV (.ty t) a = .ok x) (hd : FreeV s w d) (hi : exec i s = s.reduce t p w d a f absent) (hg : f (s.pops [a]) = g)
    (hr : (List.range 8).map (fun c => treeUp g (treeLevels t)
      (clusterElems t (arithFTZ s.core.arch.arith) (s.core.arch.mreg p.toNat) x c)) = rs) :
    Gives i s (vectorOut s [a] w d 6
      (laneTab fun i => if i % 16 = 0 then BitVec.ofNat 32 (((rs.getD (i / 16) (none, 0#6)).1).getD absent) else 0#32)
      (s.core.arch.mreg p.toNat &&& maskTab fun i => i % 16 = 0) (s.core.arch.mreg p.toNat)
      (rs.foldl (fun h c => h ||| c.2) 0#6)) := by
  refine hi.trans (issueV_ok ?_)
  rw [getV_pops, getV_of_readV hx, hg, upFrom_zero, State.ftz, pops_arch, ← hr]
  exact resultV_pops hd _ _ _ _ _ _

theorem gives_sfu {t : FTy} {lat : Nat} {f : Fmt → Bool → Sys2Proof.Machine.Num → Nat × FlagSet} (hx : s.readV (.ty (FTy.elem t)) a = .ok x)
    (hd : FreeV s w d) (hi : exec i s = s.sfu t p w d a lat f) :
    Gives i s (lanesOut s [a] p w d lat (runLanes (s.core.arch.mreg p.toNat) fun i => laneOp2 (elemWidth (FTy.elem t))
      (fun u _ => f (elemFmt (FTy.elem t)) (arithFTZ s.core.arch.arith) ((elemFmt (FTy.elem t)).decode (arithFTZ s.core.arch.arith) u))
      (lane x i) 0#32)) := by
  refine hi.trans (issueV_ok ?_)
  rw [getV_pops, getV_of_readV hx, State.ftz, pops_arch]
  exact resultV_pops hd _ _ _ _ _ _

end

theorem minMaxOp_pops (s : State) (as : List Src) (t : VType) (big : Bool) :
    (fun u v => (minMaxOp t (s.pops as).ftz big u v, noFlags)) = fun u v =>
      ((if t.isFloat then (elemFmt t).minMax (arithFTZ s.core.arch.arith) big u v
        else if decide (elemInt t u < elemInt t v) != big then u else v), 0#6) := by
  funext u v; rw [State.ftz, pops_arch]; rfl

/-- Settles O10: the conversion, FX64 and reduction shapes, and the scan of its own. -/
theorem vectorConversionReductionResults : Obligations.VectorConversionReductionResults := by
  intro s t u p w d a r x hd m rm ftz fl g conv sum best trees reduced
  have hsum : sumOp t (s.pops [a]) = sum := byType_pops s [a] t Fmt.add _
  refine ⟨fun hx => gives_convert hx hd (exec_vcvt ..) rfl, fun k n hx => gives_convert hx hd (exec_vcvtx ..) rfl,
    fun b y hy => ⟨fun hx => ⟨gives_vecFx hx hy hd (exec_vfxadd ..) rfl, gives_vecFx hx hy hd (exec_vfxcvtf ..) ?_⟩,
      fun hx => gives_vecFx hx hy hd (exec_vfxcvt ..) ?_⟩,
    fun hx => ⟨gives_reduce hx hd (exec_vredadd ..) hsum rfl, gives_reduce hx hd (exec_vredmin ..) (minMaxOp_pops ..) rfl,
      gives_reduce hx hd (exec_vredmax ..) (minMaxOp_pops ..) rfl, ?vscan⟩⟩
  · rw [State.rm, State.ftz, pops_arch]
  · rw [State.ftz, pops_arch]
  case vscan =>
    refine (exec_vscan ..).trans (issueV_ok ?_)
    rw [getV_pops, getV_of_readV hx, hsum, upFrom_zero, State.ftz, pops_arch]
    exact resultV_pops hd _ _ _ _ _ _

/-- Settles O11: the one-source shape with each function, and DIV of its own. -/
theorem specialFunctionResults : Obligations.SpecialFunctionResults := by
  intro s t p w d a x hx hd m ftz g out
  have run {i : Instr} {lat : Nat} {f : Fmt → Bool → Sys2Proof.Machine.Num → Nat × FlagSet} (hi : exec i s = s.sfu t p w d a lat f) :
      Gives i s (out lat f) := gives_sfu hx hd hi
  refine ⟨run (exec_exp2 ..), run (exec_log2 ..), run (exec_exp ..), run (exec_log ..), run (exec_rcp ..), run (exec_rsqrt ..),
    run (exec_tanh ..), run (exec_sigmoid ..), run (exec_erf ..), run (exec_sin ..), run (exec_cos ..), run (exec_sqrt ..),
    fun b y ht hy => ?div⟩
  subst ht
  have hx : s.getV (.ty .f32) a = .ok x := getV_of_readV hx
  refine (exec_div ..).trans (issueV_ok ?_)
  rw [getV_pops, hx, getV_pops, getV_of_readV hy, State.ftz, State.rm, pops_arch]
  exact resultV_pops hd _ _ _ _ _ _

end Sys2Proof.Machine
end

section
set_option Elab.async false
/-! The matrix array (R165 to R182): what a form reads of its stream register and its ring, what loads a plane, and what a beat, a drain,
a clear and a swap leave. -/

namespace Sys2Proof.Machine

/-! ### The steps that the forms share -/

/-- A stream register read by a form is the one that the statements name; beside the pops and the snapshot nothing changes. -/
theorem snapshot_pops (s : State) (as : List Src) (k : Nat) : ∃ P X Y u,
    u = { s with core := { s.core with popped := P, arch := { s.core.arch with snap := X, snapOk := Y } } } ∧
      (s.pops as).snapshot k = (streamOf s k, u) := by
  rw [pops_eq]
  unfold State.snapshot streamOf
  dsimp only
  split
  · exact ⟨_, s.core.arch.snap, s.core.arch.snapOk, _, rfl, rfl⟩
  · exact ⟨_, _, _, _, rfl, rfl⟩

/-- A ring of `len` bytes with `n` of its ready bytes popped: they are held (R199). -/
def Ring.popped (r : Ring) (n len : Nat) : Ring :=
  { r with head := (r.head + n) % len, ready := r.ready - n, held := r.held + n }

/-- The state with the entry at the head of a stream's ring popped. -/
def State.ringPopped (s : State) (g : Block) : State :=
  let k := strRing g
  let r := (vget {} s.core.pad.rings k).popped (strEntry g) (s.core.decl.ringLen k)
  s.withCore { s.core with pad := { s.core.pad with rings := vput s.core.pad.rings k r } }

theorem popRing_ok {s : State} {g : Block} (h : strEntry g ≤ (vget {} s.core.pad.rings (strRing g)).ready) :
    s.popRing g = .ok (entryBytes s g, s.ringPopped g) := by
  unfold State.popRing; exact if_neg (Nat.not_lt.2 h)

theorem strRing_lt (g : Block) : strRing g < 8 := Nat.mod_lt _ (by decide)

/-- Popping the entry of a ring is what the statements say of it. -/
theorem entryPopped_ringPopped (s : State) (g : Block) : entryPopped s (s.ringPopped g) g := by
  refine ⟨vget_vput_self _ _ _ (strRing_lt g), fun j _ hne => ?_, rfl⟩
  exact (vget_vput _ _ _ (strRing_lt g)).trans (if_neg hne)

theorem needStream_ok {s : State} {g : Block} {n : Nat × Nat} {fx : Bool}
    (h : strInvalid g (s.core.decl.ringLen (strRing g)) n.1 n.2 fx = false) : s.needStream g n fx = .ok () := by
  unfold State.needStream; rw [h]; rfl

/-! ### Loads of a plane -/

/-- Settles O12: the snapshot, the tests and the pop in order, and what the load of a plane leaves. -/
theorem matrixLoadResults : Obligations.MatrixLoadResults := by
  intro s p g d a hp v f
  obtain ⟨P, X, Y, u, hu, hsnap⟩ := snapshot_pops s [a] (Src.number a)
  constructor
  · intro ⟨hv, hr⟩ hg
    have run : Gives (.mxpush p g d a) s ((u.ringPopped v).loadPlane
        { left := 4, plane := decide (d ≠ 0#5), shift := false, fmt := f, gang := g,
          rows := (upFrom 0 (64 * gangK g)).map (tileRow v (entryBytes u v)) }) := by
      refine (exec_mxpush ..).trans (issue_ok hp ?_)
      rw [hsnap]
      dsimp only
      rw [needStream_ok (by rw [hu]; exact hv), hg, popRing_ok (by rw [hu]; exact hr)]
      rfl
    subst hu
    exact ⟨_, run, ⟨rfl, rfl, rfl, rfl, rfl, rfl, rfl, rfl, rfl⟩, entryPopped_ringPopped s v, rfl, rfl⟩
  · intro ⟨hv, hr⟩ hmx hsc hq
    let q := vget {} (loadPlanes s.core.arch.planes s.core.arch.loads) (b2n (decide (d ≠ 0#5)))
    have hfits : (!fmtMx f && !strScaled v && (q.rows.isEmpty || (decide (q.fmt = f) && decide (q.gang = .g88)))) = true := by
      simpa only [hmx, hsc, Bool.not_false, Bool.true_and, Bool.or_eq_true, Bool.and_eq_true, List.isEmpty_iff, decide_eq_true_eq] using hq
    have run : Gives (.mxshift p d a) s ((u.ringPopped v).loadPlane
        { left := 4, plane := decide (d ≠ 0#5), shift := true, fmt := f, gang := .g88,
          rows := [{ elems := elemCodes (fmtWidth f) 64 (entryBytes u v), scales := [] }] }) := by
      refine (exec_mxshift ..).trans (issue_ok hp ?_)
      rw [hsnap]
      dsimp only
      rw [needStream_ok (by rw [hu]; exact hv), popRing_ok (by rw [hu]; exact hr),
        show loadPlanes u.core.arch.planes u.core.arch.loads = loadPlanes s.core.arch.planes s.core.arch.loads by rw [hu], hfits]
      rfl
    subst hu
    exact ⟨_, run, ⟨rfl, rfl, rfl, rfl, rfl, rfl, rfl, rfl, rfl⟩, entryPopped_ringPopped s v, rfl, rfl⟩

/-! ### Rows of a tile -/

theorem packLanes_lt (xs : List (BitVec 32)) : packLanes xs < 2 ^ (32 * xs.length) := by
  induction xs with
  | nil => exact Nat.one_pos
  | cons x xs ih =>
    have hx := x.isLt
    rw [packLanes, List.length_cons, Nat.mul_succ, Nat.pow_add]
    omega

theorem packLanes_div (xs : List (BitVec 32)) (j : Nat) : BitVec.ofNat 32 (packLanes xs / 2 ^ (32 * j)) = xs.getD j 0#32 := by
  induction xs generalizing j with
  | nil => simp [packLanes]
  | cons x xs ih =>
    cases j with
    | zero => apply BitVec.eq_of_toNat_eq; simp [packLanes, Nat.mod_eq_of_lt x.isLt]
    | succ j =>
      have hx := x.isLt
      have hdiv : (x.toNat + 2 ^ 32 * packLanes xs) / 2 ^ 32 = packLanes xs := by omega
      rw [packLanes, Nat.mul_succ, Nat.add_comm (32 * j), Nat.pow_add, ← Nat.div_div_eq_div_mul, hdiv, ih]
      rfl

theorem toNat_ofNat_packLanes {w : Nat} {xs : List (BitVec 32)} (h : w = 32 * xs.length) : (BitVec.ofNat w (packLanes xs)).toNat = packLanes xs := by
  subst h; rw [BitVec.toNat_ofNat, Nat.mod_eq_of_lt (packLanes_lt xs)]

/-- The element of a row that is packed from what `f` gives. -/
theorem rowElem_packLanes (f : Nat → BitVec 32) {j : Nat} (hj : j < 64) :
    rowElem (BitVec.ofNat 2048 (packLanes ((upFrom 0 64).map f))) j = f j := by
  have hlen : 2048 = 32 * ((upFrom 0 64).map f).length := by rw [upFrom_zero, List.length_map, List.length_range]
  rw [rowElem, toNat_ofNat_packLanes hlen, packLanes_div, upFrom_zero]
  simp [hj]

theorem tileRow_setRow {a : Arch} {t r : Nat} (x : TileRow) (ht : t < 8) (hr : r < 64) (k i : Nat) :
    (a.setRow t r x).tileRow k i = if k = t ∧ i = r then x else a.tileRow k i := by
  unfold Arch.setRow Arch.tileRow
  rw [vget_vput _ _ _ ht]
  by_cases hk : k = t
  · subst hk; simp [vget_vput _ _ _ hr]
  · simp [hk]

/-- Clearing a list of rows clears just those. -/
theorem tileRow_clear {rows : List (Nat × Nat)} (h : ∀ r ∈ rows, r.1 < 8 ∧ r.2 < 64) (a : Arch) (k i : Nat) :
    (rows.foldl (fun a r => a.setRow r.1 r.2 0#2048) a).tileRow k i = if (k, i) ∈ rows then 0#2048 else a.tileRow k i := by
  induction rows generalizing a with
  | nil => rfl
  | cons r rows ih =>
    obtain ⟨hr, hrows⟩ := List.forall_mem_cons.1 h
    rw [List.foldl_cons, ih hrows, tileRow_setRow _ hr.1 hr.2]
    by_cases h1 : (k, i) ∈ rows
    · simp [h1]
    · by_cases h2 : k = r.1 ∧ i = r.2
      · simp [h2.1, h2.2]
      · have : (k, i) ≠ r := fun e => h2 ⟨congrArg Prod.fst e, congrArg Prod.snd e⟩
        simp [h1, h2, this]

/-- Clearing rows changes the tiles alone. -/
theorem clear_frame (rows : List (Nat × Nat)) (a : Arch) :
    ∃ A, rows.foldl (fun a r => a.setRow r.1 r.2 0#2048) a = { a with a := A } := by
  induction rows generalizing a with
  | nil => exact ⟨a.a, rfl⟩
  | cons r rows ih => exact ih (a.setRow r.1 r.2 0#2048)

/-! ### Beats -/

theorem needTile_ok {s : State} {t : Nat} (h : t < s.core.decl.nacc) : s.needTile t = .ok () := by
  unfold State.needTile; rw [decide_eq_true h]; rfl

/-- A beat whose tiles are declared, whose stream is ready and whose plane fits goes on with the plane and the entry. -/
theorem beat_ok {s : State} {as : List Src} {k : Nat} {g : Gang} {tiles : List Nat} {fx : Bool} (ht : ∀ t ∈ tiles, t < s.core.decl.nacc)
    (hs : streamReady s (streamOf s k) (rowNeeds (streamOf s k) (gangK g)) fx) (hp : planeFits s (strFmt (streamOf s k)) g) :
    ∃ P X Y u, u = { s with core := { s.core with popped := P, arch := { s.core.arch with snap := X, snapOk := Y } } } ∧
      (s.pops as).beat g tiles k fx =
        .ok (streamOf s k, vget {} s.core.arch.planes (b2n s.core.arch.active), entryBytes s (streamOf s k), u.ringPopped (streamOf s k)) := by
  obtain ⟨P, X, Y, u, hu, hsnap⟩ := snapshot_pops s as k
  obtain ⟨hv, hr⟩ := hs
  obtain ⟨hne, hfull, hfit⟩ := hp
  refine ⟨P, X, Y, u, hu, ?_⟩
  have htiles (a : List Nat) (h : ∀ t ∈ a, t < s.core.decl.nacc) : (forIn a PUnit.unit fun t (_ : PUnit) => do
      (s.pops as).needTile t; pure (ForInStep.yield PUnit.unit) : Except Stop PUnit) = .ok PUnit.unit := by
    induction a with
    | nil => rfl
    | cons t a ih =>
      obtain ⟨h1, h2⟩ := List.forall_mem_cons.1 h
      rw [List.forIn_cons, needTile_ok (by rw [pops_decl]; exact h1)]
      exact ih h2
  have hplane : vget {} u.core.arch.planes (b2n u.core.arch.active) = vget {} s.core.arch.planes (b2n s.core.arch.active) := by rw [hu]
  have hrows : (!(vget {} s.core.arch.planes (b2n s.core.arch.active)).rows.isEmpty &&
      (vget {} s.core.arch.planes (b2n s.core.arch.active)).rows.all Option.isSome) = true := by
    simpa [hne] using hfull
  have hbytes : entryBytes u (streamOf s k) = entryBytes s (streamOf s k) := by rw [hu]; rfl
  unfold State.beat
  rw [htiles _ ht, hsnap]
  dsimp only [bind, Except.bind]
  rw [needStream_ok (by rw [hu]; exact hv), hplane, hrows, hfit, popRing_ok (by rw [hu]; exact hr), hbytes]
  rfl

/-- A beat leaves its registers, marks its tiles and puts its flags in flight. -/
theorem beatDone_eq (s : State) (a : Arch) (tiles : List Nat) (f : FlagSet) : ∃ F, s.beatDone a tiles f =
    { s with core := { s.core with flights := F, arch := { a with sinceBeat := tiles.foldl (fun v i => vput v i 0) a.sinceBeat } } } := by
  unfold State.beatDone
  dsimp only
  split
  · exact ⟨_, rfl⟩
  · exact ⟨_, rfl⟩

theorem extractLsb'_append_setWidth (x : Word) : x.extractLsb' 32 32 ++ x.setWidth 32 = x := by
  ext i hi
  simp only [BitVec.getElem_append, BitVec.getElem_setWidth, BitVec.getElem_extractLsb']
  split
  · exact BitVec.getLsbD_eq_getElem hi
  · rw [show 32 + (i - 32) = i by omega]; exact BitVec.getLsbD_eq_getElem hi

section
variable {s : State} {p : BitVec 3} {g : Gang} {d : BitVec 5} {a b : Src} {r : Word}

theorem mxacc_result (hp : PredOn s p) (hr : s.readS .int b = .ok r) (hacc : d.toNat < s.core.decl.nacc) (h8 : d.toNat < 8)
    (hs : streamReady s (streamOf s (Src.number a)) (rowNeeds (streamOf s (Src.number a)) (gangK g)) false)
    (hf : planeFits s (strFmt (streamOf s (Src.number a))) g) :
    let v := streamOf s (Src.number a)
    let q := vget {} s.core.arch.planes (b2n s.core.arch.active)
    let row := r.toNat % 64
    let ftz := arithFTZ s.core.arch.arith
    let ps (j : Nat) := products q.fmt ftz j (rowVals v ftz (entryBytes s v) (64 * gangK g)) (q.rows.filterMap id)
    let old (j : Nat) : BitVec 32 := rowElem (s.core.arch.tileRow d.toNat row) j
    ∃ t, Gives (.mxacc p g d a b) s t ∧ arrayFrame s t ∧ entryPopped s t v ∧ vget 8 t.core.arch.sinceBeat d.toNat = 0 ∧
      (∀ j < 64, rowElem (t.core.arch.tileRow d.toNat row) j =
        if fmtInt (strFmt v) then beatInt (old j) (ps j) else (beatFp (arithRM s.core.arch.arith) ftz (old j) (ps j)).1) ∧
      ∀ k i, i < 64 → (k ≠ d.toNat ∨ i ≠ row) → t.core.arch.tileRow k i = s.core.arch.tileRow k i := by
  intro v q row ftz ps old
  obtain ⟨P, X, Y, u, hu, hbeat⟩ := beat_ok (as := [a, b]) (tiles := [d.toNat]) (by simpa using hacc) hs hf
  have hrow : row < 64 := Nat.mod_lt _ (by decide)
  let out (j : Nat) : BitVec 32 × FlagSet :=
    if fmtInt (strFmt v) then (beatInt (old j) (ps j), noFlags) else beatFp (arithRM s.core.arch.arith) ftz (old j) (ps j)
  let new := BitVec.ofNat 2048 (packLanes (((upFrom 0 64).map out).map (·.1)))
  obtain ⟨F, hdone⟩ := beatDone_eq (u.ringPopped v) ((u.ringPopped v).core.arch.setRow d.toNat row new) [d.toNat]
    (((upFrom 0 64).map out).foldl (fun f o => f ||| o.2) noFlags)
  have run : Gives (.mxacc p g d a b) s ((u.ringPopped v).beatDone ((u.ringPopped v).core.arch.setRow d.toNat row new) [d.toNat]
      (((upFrom 0 64).map out).foldl (fun f o => f ||| o.2) noFlags)) := by
    refine (exec_mxacc ..).trans (issue_ok hp ?_)
    rw [getS_pops, getS_of_readS hr, hbeat]
    dsimp only [bind, Except.bind]
    rw [fld_zero]
    subst hu
    rfl
  rw [hdone] at run
  subst hu
  refine ⟨_, run, ⟨rfl, rfl, rfl, rfl, rfl, rfl, rfl, rfl, rfl⟩, entryPopped_ringPopped s v, vget_vput_self _ _ _ h8, fun j hj => ?_,
    fun k i hi hne => ?_⟩
  · refine (congrArg (rowElem · j) (tileRow_setRow new h8 hrow d.toNat row)).trans ?_
    rw [if_pos ⟨rfl, rfl⟩]
    dsimp only [new]
    rw [List.map_map, rowElem_packLanes _ hj]
    exact apply_ite Prod.fst _ _ _
  · exact (tileRow_setRow new h8 hrow k i).trans (if_neg (by tauto))

theorem mxaccx_result (hp : PredOn s p) (hr : s.readS .int b = .ok r) (hacc : d.toNat + 1 < s.core.decl.nacc) (h8 : d.toNat + 1 < 8)
    (hs : streamReady s (streamOf s (Src.number a)) (rowNeeds (streamOf s (Src.number a)) (gangK g)) true)
    (hf : planeFits s (strFmt (streamOf s (Src.number a))) g) :
    let v := streamOf s (Src.number a)
    let q := vget {} s.core.arch.planes (b2n s.core.arch.active)
    let row := r.toNat % 64
    let ftz := arithFTZ s.core.arch.arith
    let ps (j : Nat) := products q.fmt ftz j (rowVals v ftz (entryBytes s v) (64 * gangK g)) (q.rows.filterMap id)
    let old (k j : Nat) : BitVec 32 := rowElem (s.core.arch.tileRow k row) j
    ∃ t, Gives (.mxaccx p g d a b) s t ∧ arrayFrame s t ∧ entryPopped s t v ∧
      (∀ j < 64, rowElem (t.core.arch.tileRow (d.toNat + 1) row) j ++ rowElem (t.core.arch.tileRow d.toNat row) j =
        (beatFx (strFxp v) (old (d.toNat + 1) j ++ old d.toNat j) (ps j)).1) ∧
      ∀ k i, i < 64 → ((k ≠ d.toNat ∧ k ≠ d.toNat + 1) ∨ i ≠ row) → t.core.arch.tileRow k i = s.core.arch.tileRow k i := by
  intro v q row ftz ps old
  obtain ⟨P, X, Y, u, hu, hbeat⟩ := beat_ok (as := [a, b]) (tiles := [d.toNat, d.toNat + 1]) (by simpa using ⟨by omega, hacc⟩) hs hf
  have hrow : row < 64 := Nat.mod_lt _ (by decide)
  have h8' : d.toNat < 8 := by omega
  let out (j : Nat) : Word × FlagSet := beatFx (strFxp v) (old (d.toNat + 1) j ++ old d.toNat j) (ps j)
  let lo := BitVec.ofNat 2048 (packLanes (((upFrom 0 64).map out).map fun o => o.1.setWidth 32))
  let hi := BitVec.ofNat 2048 (packLanes (((upFrom 0 64).map out).map fun o => o.1.extractLsb' 32 32))
  obtain ⟨F, hdone⟩ := beatDone_eq (u.ringPopped v) (((u.ringPopped v).core.arch.setRow d.toNat row lo).setRow (d.toNat + 1) row hi)
    [d.toNat, d.toNat + 1] (((upFrom 0 64).map out).foldl (fun f o => f ||| o.2) noFlags)
  have run : Gives (.mxaccx p g d a b) s ((u.ringPopped v).beatDone
      (((u.ringPopped v).core.arch.setRow d.toNat row lo).setRow (d.toNat + 1) row hi) [d.toNat, d.toNat + 1]
      (((upFrom 0 64).map out).foldl (fun f o => f ||| o.2) noFlags)) := by
    refine (exec_mxaccx ..).trans (issue_ok hp ?_)
    rw [getS_pops, getS_of_readS hr, hbeat]
    dsimp only [bind, Except.bind]
    rw [fld_zero]
    subst hu
    rfl
  rw [hdone] at run
  subst hu
  have hrows (k i : Nat) : (((s.core.arch.setRow d.toNat row lo).setRow (d.toNat + 1) row hi).tileRow k i) =
      if k = d.toNat + 1 ∧ i = row then hi else if k = d.toNat ∧ i = row then lo else s.core.arch.tileRow k i := by
    rw [tileRow_setRow hi h8 hrow, tileRow_setRow lo h8' hrow]
  refine ⟨_, run, ⟨rfl, rfl, rfl, rfl, rfl, rfl, rfl, rfl, rfl⟩, entryPopped_ringPopped s v, fun j hj => ?_, fun k i _ hne => ?_⟩
  · have hhi : rowElem hi j = (out j).1.extractLsb' 32 32 := by dsimp only [hi]; rw [List.map_map, rowElem_packLanes _ hj]; rfl
    have hlo : rowElem lo j = (out j).1.setWidth 32 := by dsimp only [lo]; rw [List.map_map, rowElem_packLanes _ hj]; rfl
    refine (congrArg₂ (fun x y => rowElem x j ++ rowElem y j) (hrows (d.toNat + 1) row) (hrows d.toNat row)).trans ?_
    rw [if_pos ⟨rfl, rfl⟩, if_neg (by omega), if_pos ⟨rfl, rfl⟩, hhi, hlo]
    exact extractLsb'_append_setWidth _
  · exact (hrows k i).trans (by rw [if_neg (by tauto), if_neg (by tauto)])

/-- The rows that a drain reads are the ones that the statement lists. -/
theorem drainRows_eq (t : Nat) (c : Word) : drainRows t c =
    if c.getLsbD 6 then [(t, c.toNat % 64), (t + 1, c.toNat % 64)]
    else [(t, c.toNat % 64 / 2 * 2), (t, c.toNat % 64 / 2 * 2 + 1)] := by
  unfold drainRows; rw [fld_zero]; rfl

theorem setWidth_zero_append (d : BitVec 5) : (0#1 ++ d).setWidth 3 = d.setWidth 3 := by
  decide +revert

end

/-- A drain whose tiles are declared, late enough and paired on an even tile puts its rows in flight and clears them where it is asked to. -/
theorem mxdrain_gives {s : State} {p : BitVec 3} {d : BitVec 5} {a b : Src} {c : Word} (hp : PredOn s p) (hc : s.readS .int b = .ok c)
    (hq : s.core.hasQueue (d.setWidth 3) = true)
    (ht : ∀ k ∈ if c.getLsbD 6 then [Src.number a, Src.number a + 1] else [Src.number a],
      k < s.core.decl.nacc ∧ k < 8 ∧ 8 ≤ vget 8 s.core.arch.sinceBeat k)
    (heven : c.getLsbD 6 = true → Src.number a % 2 = 0) :
    let rows := drainRows (Src.number a) c
    let part (k : Nat) : TileRow := s.core.arch.tileRow (rows.getD k (0, 0)).1 (rows.getD k (0, 0)).2
    let out := inFlight s [a, b] 6 (.queue (d.setWidth 3))
      (.vector (laneTab fun i => if c.getLsbD 6 then rowElem (part (i % 2)) (i / 2) else rowElem (part (i / 64)) (i % 64)))
      (BitVec.allOnes 128) 0#6
    Gives (.mxdrain p d a b) s (out.withCore { out.core with
      arch := if c.getLsbD 7 then rows.foldl (fun a r => a.setRow r.1 r.2 0#2048) s.core.arch else s.core.arch }) := by
  intro rows part out
  have h0 := ht (Src.number a) (by split <;> simp)
  have h1 (hpair : c.getLsbD 6 = true) := ht (Src.number a + 1) (by simp [hpair])
  have htile (k : Nat) (hk : k < s.core.decl.nacc) : (s.pops [a, b]).needTile k = .ok () := needTile_ok (by rw [pops_decl]; exact hk)
  have hearly (k : Nat) (hk : 8 ≤ vget 8 s.core.arch.sinceBeat k) : decide (vget 8 s.core.arch.sinceBeat k < 8) = false :=
    decide_eq_false (Nat.not_lt.2 hk)
  refine (exec_mxdrain ..).trans (issue_ok hp ?_)
  rw [getS_pops, getS_of_readS hc, State.needQueue, pops_hasQueue, setWidth_zero_append, hq, pops_arch]
  dsimp only [bind, Except.bind, bitAt]
  rw [need_true, htile _ h0.1]
  cases hpair : c.getLsbD 6 with
  | false =>
    rw [hearly _ h0.2.2]
    dsimp only [out, part, rows]
    rw [hpair, pops_eq]
    rfl
  | true =>
    rw [if_pos rfl, htile _ (h1 hpair).1, hearly _ h0.2.2, hearly _ (h1 hpair).2.2, heven hpair]
    dsimp only [out, part, rows]
    rw [hpair, pops_eq]
    rfl

theorem mem_drainRows {t : Nat} {c : Word} (h : ∀ k ∈ if c.getLsbD 6 then [t, t + 1] else [t], k < 8) :
    ∀ r ∈ drainRows t c, r.1 < 8 ∧ r.2 < 64 := by
  have hrow : c.toNat % 64 < 64 := Nat.mod_lt _ (by decide)
  rw [drainRows_eq]
  cases hpair : c.getLsbD 6 with
  | false =>
    simp only [hpair, Bool.false_eq_true, if_false, List.forall_mem_cons, List.not_mem_nil, IsEmpty.forall_iff, implies_true, and_true] at h ⊢
    omega
  | true =>
    simp only [hpair, if_true, List.forall_mem_cons, List.not_mem_nil, IsEmpty.forall_iff, implies_true, and_true] at h ⊢
    omega

/-- Settles O13: the two beats, the drain with its clears, and the two forms that change the array alone. -/
theorem matrixComputeResults : Obligations.MatrixComputeResults := by
  refine ⟨fun s p g d a b r hp hr => ⟨mxacc_result hp hr, mxaccx_result hp hr⟩,
    fun s p d hp => ⟨fun a b c hc _ => ?drain, fun hacc h8 => ?zero, (exec_mxswap ..).trans (issue_ok hp rfl)⟩⟩
  case drain =>
    intro t0 row pair q tiles rows part hq ht heven
    have hrows : drainRows t0 c = rows := drainRows_eq t0 c
    have hin : ∀ r ∈ rows, r.1 < 8 ∧ r.2 < 64 := hrows ▸ mem_drainRows fun k hk => (ht k hk).2.1
    obtain ⟨A, hA⟩ := clear_frame rows s.core.arch
    have hclear := tileRow_clear hin s.core.arch
    have run := mxdrain_gives hp hc hq ht heven
    dsimp only at run
    rw [hrows, hA] at run
    rw [hA] at hclear
    refine ⟨_, run, ?_⟩
    cases c.getLsbD 7 with
    | false => exact ⟨⟨rfl, rfl, rfl, rfl, rfl, rfl, rfl, rfl, rfl⟩, rfl, fun k i _ _ => (if_neg (by simp)).symm⟩
    | true => exact ⟨⟨rfl, rfl, rfl, rfl, rfl, rfl, rfl, rfl, rfl⟩, rfl, fun k i _ _ => (hclear k i).trans (by simp)⟩
  case zero =>
    have run : Gives (.mxzero p d) s (s.withCore { s.core with arch :=
        { s.core.arch with a := vput s.core.arch.a d.toNat (Vector.replicate 64 0#2048) } }) := by
      refine (exec_mxzero ..).trans (issue_ok hp ?_)
      rw [needTile_ok (by rw [pops_decl]; exact hacc)]
      rfl
    refine ⟨_, run, ⟨rfl, rfl, rfl, rfl, rfl, rfl, rfl, rfl, rfl⟩, fun k i _ hi => ?_⟩
    unfold Arch.tileRow
    rw [State.withCore_core, vget_vput _ _ _ h8]
    split
    · simp [vget, hi]
    · rfl

end Sys2Proof.Machine
end

section
set_option Elab.async false
/-! Translation as the memory forms use it (R237, R238, R359 to R364): it fills caches and their directory, and nothing else of the machine. -/

namespace Sys2Proof.Machine

/-- The translation caches of a state, with the leaves that the interval used: all that a translation changes. -/
def State.withCaches (s : State) (tlb used : List Leaf) (others : NatMap Core) (dir : List TRec) (mem : List (Nat × Nat × Word)) (dies : List (Nat × Leaf)) :
    State :=
  { s with core := { s.core with tlb := tlb, used := used }, others := others, hub := { s.hub with tdir := dir, walkerMem := mem, dies := dies } }

/-- One state is the other but for its translation caches. -/
def CachesOnly (s t : State) : Prop := ∃ L U O D W E, t = s.withCaches L U O D W E

theorem CachesOnly.refl (s : State) : CachesOnly s s := ⟨_, _, _, _, _, _, rfl⟩

theorem CachesOnly.trans {s t u : State} (h : CachesOnly s t) (k : CachesOnly t u) : CachesOnly s u := by
  obtain ⟨_, _, _, _, _, _, rfl⟩ := h
  obtain ⟨L, U, O, D, W, E, rfl⟩ := k
  exact ⟨L, U, O, D, W, E, rfl⟩

theorem cachesOnly_setCore (s : State) (c : Nat) (L U : List Leaf) :
    CachesOnly s (s.setCore c { s.coreAt c with tlb := L, used := U }) := by
  unfold State.setCore State.coreAt
  split
  · exact ⟨L, U, _, _, _, _, rfl⟩
  · exact ⟨_, _, _, _, _, _, rfl⟩

theorem cachesOnly_dropLeaf (s : State) (r : TRec) (cs : List Nat) : CachesOnly s (s.dropLeaf r cs) := by
  induction cs generalizing s with
  | nil => exact .refl s
  | cons c cs ih => exact (cachesOnly_setCore s c _ _).trans (ih _)

theorem cachesOnly_trimDir (s : State) : CachesOnly s s.trimDir := by
  unfold State.trimDir
  split
  · exact .refl s
  · split
    · exact .refl s
    · rename_i r rs _
      have hdir : CachesOnly s (s.withHub { s.hub with tdir := rs }) := ⟨_, _, _, _, _, _, rfl⟩
      exact (hdir.trans (cachesOnly_dropLeaf _ r _)).trans ⟨_, _, _, _, _, _, rfl⟩

theorem cachesOnly_noteWalk (s : State) (k p va : Nat) : CachesOnly s (s.noteWalk k p va) := ⟨_, _, _, _, _, _, rfl⟩

theorem cachesOnly_installLeaf (s : State) (c : Nat) (l : Leaf) : CachesOnly s (s.installLeaf c l) := by
  have hdir (t : State) (D : List TRec) (h : t.hub = s.hub) : CachesOnly t (t.withHub { s.hub with tdir := D }) := by
    rw [← h]; exact ⟨_, _, _, _, _, _, rfl⟩
  refine ((cachesOnly_setCore s c _ (s.coreAt c).used).trans (hdir _ _ ?_)).trans (cachesOnly_trimDir _)
  unfold State.setCore; split <;> rfl

theorem cachesOnly_leafFor {s t : State} {c p : Nat} {va : Word} {l : Leaf} (h : s.leafFor c p va = some (l, t)) : CachesOnly s t := by
  unfold State.leafFor at h
  split at h
  · cases h
  · split at h
    · cases h; exact .refl s
    · obtain ⟨m, -, hm⟩ := Option.map_eq_some_iff.1 h
      cases hm
      exact (cachesOnly_installLeaf s c l).trans (cachesOnly_noteWalk ..)

theorem cachesOnly_access {s t : State} {c : Nat} {va : Word} {w q : Bool} {pa : Nat} (h : s.access c va w q = .ok (pa, t)) : CachesOnly s t := by
  unfold State.access at h
  split at h
  · split at h
    · cases h; exact .refl s
    · cases h
  · split at h
    · cases h
    · rename_i l s1 hl
      have h1 := cachesOnly_leafFor hl
      split at h
      · cases h
      · split at h
        · cases h
        · cases h
          split
          · exact h1.trans (cachesOnly_setCore s1 c (s1.coreAt c).tlb _)
          · exact h1

theorem cachesOnly_reach {s t : State} {w : Bool} {vas : List Word} {ps : List Nat} (h : s.reach w vas = .ok (ps, t)) : CachesOnly s t := by
  induction vas generalizing s ps with
  | nil => cases h; exact .refl _
  | cons va vas ih =>
    unfold State.reach at h
    split at h
    · cases h
    · rename_i pa s1 ha
      split at h
      · rename_i ps' u hr
        cases h
        exact (cachesOnly_access ha).trans (ih hr)
      · cases h

theorem reach_length {s t : State} {w : Bool} {vas : List Word} {ps : List Nat} (h : s.reach w vas = .ok (ps, t)) : ps.length = vas.length := by
  induction vas generalizing s ps with
  | nil => cases h; rfl
  | cons va vas ih =>
    unfold State.reach at h
    split at h
    · cases h
    · split at h
      · rename_i hr
        cases h
        rw [List.length_cons, List.length_cons, ih hr]
      · cases h

theorem aligned_ok {n : Nat} {vas : List Word} (h : ∀ va ∈ vas, va.toNat % n = 0) : aligned n vas = .ok () := by
  induction vas with
  | nil => rfl
  | cons va vas ih =>
    obtain ⟨h1, h2⟩ := List.forall_mem_cons.1 h
    rw [aligned, if_pos h1, ih h2]

end Sys2Proof.Machine
end

section
set_option Elab.async false
/-! The queue loads and the stores of the memory forms (R201, R203, R206, R237 to R243). -/

namespace Sys2Proof.Machine

/-! ### Queue loads -/

theorem queueAt_vput (x : Core) (k : BitVec 3) (y : Queue) (j : BitVec 3) :
    Core.queueAt { x with q := vput x.q k.toNat y } j = if j = k then y else x.queueAt j := by
  unfold Core.queueAt
  rw [vget_vput _ _ _ k.isLt]
  simp only [← BitVec.toNat_inj]

/-- A queue entry reserved for a load of the bytes at `pas`, and the load made due (R203, R240). -/
theorem loadQueued_queueLoad {s u : State} {as : List Src} (h : CachesOnly (s.pops as) u) (d : BitVec 6) (pas : List Nat) (fmt : LoadFmt)
    (vec : Bool) : memFrame s (u.queueLoad d pas fmt vec).noResult ∧ loadQueued s (u.queueLoad d pas fmt vec).noResult (d.setWidth 3) pas fmt := by
  obtain ⟨L, U, O, D, W, E, rfl⟩ := h
  rw [pops_eq]
  refine ⟨⟨rfl, rfl, rfl, rfl, fun _ => rfl⟩, ⟨?entry, ?queued, ?load⟩, fun j hj => (queueAt_vput _ _ _ _).trans (if_neg hj),
    List.mem_append_right _ (List.mem_singleton_self _)⟩
  case queued => exact congrArg Queue.entries ((queueAt_vput _ _ _ _).trans (if_pos rfl))
  case load => exact ⟨rfl, rfl, rfl⟩

theorem needAnchor_ok {s : State} (h : NoAnchorDue s) (as : List Src) : (s.pops as).needAnchor = .ok () := by
  rw [State.needAnchor, pops_eq, if_neg]
  rintro ⟨h4, hn⟩
  exact h.elim (fun hlt => Nat.not_lt.2 h4 hlt) hn

theorem needQueue_ok {s : State} {d : BitVec 6} (h : s.core.hasQueue (d.setWidth 3) = true) (as : List Src) :
    (s.pops as).needQueue d = .ok () := by
  rw [State.needQueue, pops_hasQueue, h, need_true]

/-- Settles O14: each of the three forms tests its queue, its alignment and its anchor, reaches its addresses and issues the load. -/
theorem queueLoadResults : Obligations.QueueLoadResults := by
  intro s p d a b x ps hp hanchor hx hq k
  refine ⟨fun ty y hy hal ⟨u, hu⟩ => ⟨_, (exec_ldq ..).trans (issue_ok hp ?ldq), loadQueued_queueLoad (cachesOnly_reach hu) d _ _ false⟩,
    fun y hy hal ⟨u, hu⟩ => ⟨_, (exec_ldqv ..).trans (issue_ok hp ?ldqv), loadQueued_queueLoad (cachesOnly_reach hu) d _ _ true⟩,
    fun ty v hv hal ⟨u, hu⟩ => ⟨_, (exec_gather ..).trans (issue_ok hp ?gather), loadQueued_queueLoad (cachesOnly_reach hu) d _ _ true⟩⟩
  case ldq =>
    rw [getS_pops, getS_of_readS hx, getS_pops, getS_of_readS hy, needQueue_ok hq]
    dsimp only [bind, Except.bind]
    rw [aligned_ok (by simpa using hal), needAnchor_ok hanchor, hu]
    rfl
  case ldqv =>
    rw [getS_pops, getS_of_readS hx, getS_pops, getS_of_readS hy, needQueue_ok hq]
    dsimp only [bind, Except.bind]
    rw [aligned_ok (by simpa using hal), needAnchor_ok hanchor, hu]
    rfl
  case gather =>
    rw [getS_pops, getS_of_readS hx, getV_pops, getV_of_readV hv, needQueue_ok hq]
    dsimp only [bind, Except.bind]
    rw [aligned_ok hal, needAnchor_ok hanchor, hu]
    rfl

/-! ### The store-withhold buffer -/

theorem getLsbD_setField {w : Nat} (x : BitVec w) (lo n v : Nat) {i : Nat} (hi : i < w) :
    (setField x lo n v).getLsbD i = if lo ≤ i ∧ i < lo + n then v.testBit (i - lo) else x.getLsbD i := by
  have hmask : ((2 ^ n - 1) * 2 ^ lo).testBit i = decide (lo ≤ i ∧ i < lo + n) := by
    rw [Nat.testBit_mul_two_pow, Nat.testBit_two_pow_sub_one, ← Bool.decide_and]
    exact decide_eq_decide.2 (by omega)
  have hval : (v % 2 ^ n * 2 ^ lo).testBit i = (decide (lo ≤ i ∧ i < lo + n) && v.testBit (i - lo)) := by
    rw [Nat.testBit_mul_two_pow, Nat.testBit_mod_two_pow, ← Bool.and_assoc, ← Bool.decide_and]
    congr 1
    exact decide_eq_decide.2 (by omega)
  unfold setField
  rw [BitVec.getLsbD_or, BitVec.getLsbD_and, BitVec.getLsbD_not, BitVec.getLsbD_ofNat, BitVec.getLsbD_ofNat, hmask, hval]
  by_cases h : lo ≤ i ∧ i < lo + n
  · simp [h, hi]
  · simp [h, hi]

theorem ofNat_fld {w : Nat} (x : BitVec w) (lo n : Nat) : BitVec.ofNat n (fld x lo n) = x.extractLsb' lo n := by
  apply BitVec.eq_of_toNat_eq
  rw [BitVec.toNat_ofNat, fld, bits, Nat.mod_mod, BitVec.extractLsb'_toNat, Nat.shiftRight_eq_div_pow]

/-- The byte at an address as a list of withheld lines gives it. -/
def heldByte (ws : List WLine) (pa : Nat) : Option Byte :=
  (ws.find? fun w => decide (w.pa = lineOf pa)).bind fun w =>
    if w.mask.getLsbD (pa % 64) then some (BitVec.ofNat 8 (fld w.data (8 * (pa % 64)) 8)) else none

theorem forwarded_eq (x : Core) (pa : Nat) : x.forwarded pa = heldByte x.withheld pa := rfl

/-- A line with one byte stored gives that byte, and every other of its bytes as before. -/
theorem byte_put (w : WLine) {i j : Nat} (hi : i < 64) (hj : j < 64) (b : Byte) :
    (if (w.put i b).mask.getLsbD j then some (BitVec.ofNat 8 (fld (w.put i b).data (8 * j) 8)) else none) =
      if j = i then some b else if w.mask.getLsbD j then some (BitVec.ofNat 8 (fld w.data (8 * j) 8)) else none := by
  have hmask : (w.put i b).mask.getLsbD j = (w.mask.getLsbD j || decide (j = i)) := by
    unfold WLine.put
    rw [BitVec.getLsbD_or, BitVec.getLsbD_ofNat, Nat.testBit_two_pow]
    simp [hj, eq_comm]
  have hdata : (w.put i b).data.extractLsb' (8 * j) 8 = if j = i then b else w.data.extractLsb' (8 * j) 8 := by
    unfold WLine.put
    ext k hk
    rw [BitVec.getElem_extractLsb', getLsbD_setField _ _ _ _ (by omega)]
    by_cases h : j = i
    · subst h; simp [hk, BitVec.getElem_eq_testBit_toNat]
    · rw [if_neg (by omega)]; simp [h]
  rw [hmask, ofNat_fld, ofNat_fld, hdata]
  by_cases h : j = i
  · simp [h]
  · simp [h]

theorem heldByte_withholdByte (ws : List WLine) (c : Nat × Nat × Byte) (pa : Nat) :
    heldByte (withholdByte ws c) pa = if c.2.1 = pa then some c.2.2 else heldByte ws pa := by
  have hoff : pa % 64 < 64 := Nat.mod_lt _ (by decide)
  have hc : c.2.1 % 64 < 64 := Nat.mod_lt _ (by decide)
  have hsame (h : lineOf c.2.1 = lineOf pa) : (pa % 64 = c.2.1 % 64) = (c.2.1 = pa) := by
    unfold lineOf at h; exact propext ⟨fun e => by omega, fun e => by rw [e]⟩
  have hline (w : WLine) (rest : List WLine) (h : w.pa = lineOf c.2.1) : heldByte (w.put (c.2.1 % 64) c.2.2 :: rest) pa =
      if c.2.1 = pa then some c.2.2 else heldByte (w :: rest) pa := by
    have hpa : (w.put (c.2.1 % 64) c.2.2).pa = w.pa := rfl
    unfold heldByte
    rw [List.find?_cons, List.find?_cons, hpa]
    by_cases hl : w.pa = lineOf pa
    · simp only [hl, decide_true, Option.bind_some, byte_put w hc hoff, hsame (h ▸ hl)]
    · have : c.2.1 ≠ pa := fun e => hl (e ▸ h)
      simp only [hl, decide_false, this, if_false]
  induction ws with
  | nil =>
    refine (hline { va := lineOf c.1, pa := lineOf c.2.1, data := 0#512, mask := 0#64 } [] rfl).trans ?_
    have hnone : heldByte [{ va := lineOf c.1, pa := lineOf c.2.1, data := 0#512, mask := 0#64 }] pa = none := by
      unfold heldByte
      rw [List.find?_singleton]
      split
      · exact if_neg (by simp)
      · rfl
    rw [hnone]
    rfl
  | cons w rest ih =>
    unfold withholdByte
    split
    · rename_i h; exact hline w rest h
    · rename_i h
      unfold heldByte at ih ⊢
      rw [List.find?_cons, List.find?_cons]
      by_cases hl : w.pa = lineOf pa
      · have : c.2.1 ≠ pa := fun e => h (hl.trans (by rw [e]))
        simp [hl, this]
      · simp only [hl, decide_false]; exact ih

theorem heldByte_foldl (cs : List (Nat × Nat × Byte)) (ws : List WLine) (pa : Nat) : heldByte (cs.foldl withholdByte ws) pa =
    (((cs.map (·.2)).reverse.find? fun c => decide (c.1 = pa)).map (·.2)).or (heldByte ws pa) := by
  induction cs generalizing ws with
  | nil => rfl
  | cons c cs ih =>
    rw [List.foldl_cons, ih, heldByte_withholdByte, List.map_cons, List.reverse_cons, List.find?_append, Option.map_or, Option.or_assoc]
    congr 1
    by_cases h : c.2.1 = pa
    · simp [h]
    · simp [h]

/-- Bytes withheld are what later loads find (R206). -/
theorem storesHeld_withhold (s : State) (cs : List (Nat × Nat × Byte)) : storesHeld s (s.withhold cs) (cs.map (·.2)) := by
  intro pa
  unfold State.withhold Core.withhold
  cases cs with
  | nil => rfl
  | cons c cs => exact heldByte_foldl (c :: cs) s.core.withheld pa

/-! ### Stores -/

/-- A form that has reached its addresses and withholds bytes leaves just that. -/
theorem memFrame_withhold {s u : State} {as : List Src} (h : CachesOnly (s.pops as) u) (cs : List (Nat × Nat × Byte)) :
    memFrame s (u.withhold cs) ∧ storesHeld s (u.withhold cs) (cs.map (·.2)) ∧ (u.withhold cs).core.flights = s.core.flights := by
  have hu : memFrame s u ∧ u.core.forwarded = s.core.forwarded ∧ u.core.flights = s.core.flights := by
    obtain ⟨L, U, O, D, W, E, rfl⟩ := h
    rw [pops_eq]
    exact ⟨⟨rfl, rfl, rfl, rfl, fun _ => rfl⟩, rfl, rfl⟩
  obtain ⟨⟨harch, hbytes, hlatches, hport, hmem⟩, hfwd, hfl⟩ := hu
  have hcore : (u.core.withhold cs).arch = u.core.arch ∧ (u.core.withhold cs).pad = u.core.pad ∧
      (u.core.withhold cs).latches = u.core.latches ∧ (u.core.withhold cs).flights = u.core.flights := by
    unfold Core.withhold; split <;> exact ⟨rfl, rfl, rfl, rfl⟩
  obtain ⟨h1, h2, h3, h4⟩ := hcore
  refine ⟨⟨h1.trans harch, (congrArg Spad.bytes h2).trans hbytes, h3.trans hlatches, hport, hmem⟩, fun pa => ?_, h4.trans hfl⟩
  rw [storesHeld_withhold u cs pa, hfwd]

theorem storeBytes_cells (va : Word) (pa : Nat) (bs : List Byte) :
    (storeBytes va pa bs).map (·.2) = bs.zipIdx.map fun b => (pa + b.2, b.1) := by
  unfold storeBytes; rw [List.map_map]; rfl

theorem zipIdx_map_add (pa : Nat) (bs : List Byte) : (bs.zipIdx.map fun b => (pa + b.2, b.1)) = (upFrom pa bs.length).zip bs := by
  induction bs generalizing pa with
  | nil => rfl
  | cons b bs ih =>
    rw [List.length_cons, upFrom, List.zip_cons_cons, ← ih, List.zipIdx_cons, List.map_cons, List.zipIdx_succ, List.map_map]
    congr 1
    exact List.map_congr_left fun c _ => congrArg (·, c.1) (by simp only [Function.comp]; omega)

theorem toBytes_length (n x : Nat) : (toBytes n x).length = n := by
  induction n generalizing x with
  | zero => rfl
  | succ n ih => rw [toBytes, List.length_cons, ih]

/-- The lanes of a vector store, each with its two addresses, give the same cells as the lanes with the physical ones. -/
theorem laneStores_cells (v : Lanes) {ls : List Nat} {vas : List Word} {ps : List Nat} (h : ps.length = vas.length) :
    ((ls.zip (vas.zip ps)).flatMap (laneStores v)).map (·.2) = (ls.zip ps).flatMap (laneCells v) := by
  have hzip : ls.zip ps = (ls.zip (vas.zip ps)).map (Prod.map id Prod.snd) := by
    rw [← List.zip_map_right, List.map_snd_zip h.le]
  rw [hzip, List.map_flatMap, List.flatMap_map]
  exact List.flatMap_congr fun q _ => storeBytes_cells q.2.1 q.2.2 _

theorem getVM_pops {s : State} {t : VTy} {a : Src} {x : Lanes × LaneMask} (h : s.readVM t a = .ok x) (as : List Src) :
    (s.pops as).getVM t a = .ok x := by
  unfold State.getVM; rw [readVM_pops, h]; rfl

theorem directOk_pops (s : State) (as : List Src) (off n : Nat) : (s.pops as).directOk off n = s.directOk off n := by rw [pops_eq]; rfl

theorem farCells_swap (far : List (Word × Byte)) {ps : List Nat} (h : ps.length = far.length) :
    ((far.zip ps).map fun c => (c.1.1.toNat, c.2, c.1.2)).map (·.2) = ps.zip (far.map (·.2)) := by
  induction far generalizing ps with
  | nil => simp
  | cons c far ih =>
    cases ps with
    | nil => rfl
    | cons p ps => simpa using ih (ps := ps) (by simpa using h)

/-- A direct store whose bytes are addressable and whose stash bytes translate (R201, R242). -/
theorem directStore_ok {s : State} {as : List Src} {va : Word} {n al : Nat} {cells : List Host.Cell} {ps : List Nat}
    (hok : s.directOk va.toNat n = .ok ()) (hal : va.toNat % al = 0) (hr : Reaches s as true ((farCells s cells).map (·.1)) ps) :
    ∃ t, (s.pops as).directStore va n al cells = .ok t ∧ directStored s t cells ps := by
  obtain ⟨u, hu⟩ := hr
  have hfar : (cells.filterMap fun c => ((s.pops as).core.decl.stashPlace c.1).bind fun p =>
      ((s.pops as).core.stashVa p.1 p.2).map fun v => (v, c.2)) = farCells s cells := by rw [pops_eq]; rfl
  have hlen : ps.length = (farCells s cells).length := by rw [reach_length hu, List.length_map]
  obtain ⟨hframe, hheld, hfl⟩ := memFrame_withhold (cachesOnly_reach hu)
    (((farCells s cells).zip ps).map fun c => (c.1.1.toNat, c.2, c.1.2))
  rw [farCells_swap _ hlen] at hheld
  let held := u.withhold (((farCells s cells).zip ps).map fun c => (c.1.1.toNat, c.2, c.1.2))
  let raw := cells.filter fun c => (s.core.decl.stashPlace c.1).isNone
  refine ⟨if raw.isEmpty then held.noResult else held.fly 1 (.raw raw) (.pred false) (BitVec.allOnes 128) noFlags, ?_, ?_⟩
  · unfold State.directStore
    rw [directOk_pops, hok]
    dsimp only [bind, Except.bind]
    rw [aligned_ok (by simpa using hal)]
    dsimp only
    rw [hfar, hu, pops_decl]
    rfl
  · cases hraw : raw with
    | nil => exact ⟨hframe, hheld, _, congrArg (· ++ _) hfl, rfl, (if_pos hraw).symm⟩
    | cons c cs =>
      have hne : raw ≠ [] := hraw ▸ List.cons_ne_nil c cs
      exact ⟨hframe, hheld, _, congrArg (· ++ _) hfl, rfl, ((if_neg hne).trans (congrArg Dest.raw hraw)).symm⟩

/-- Settles O16: the three stores to device memory withhold what they have reached, and the two direct ones are one operation. -/
theorem storeResults : Obligations.StoreResults := by
  intro s p d a b ps hp base
  refine ⟨?st, ?stv, ?scatter, ?stss, ?sts⟩
  case st =>
    intro ty x y hx hy hal ⟨u, hu⟩
    have hcells := memFrame_withhold (cachesOnly_reach hu) (storeBytes (base + x) (ps.headD 0) (toBytes (stSize ty) y.toNat))
    obtain ⟨pa, rfl⟩ : ∃ pa, ps = [pa] := List.length_eq_one_iff.1 (reach_length hu)
    have hspread : (spread (stSize ty) [pa]).zip (toBytes (stSize ty) y.toNat) =
        (storeBytes (base + x) pa (toBytes (stSize ty) y.toNat)).map (·.2) := by
      rw [storeBytes_cells, zipIdx_map_add, toBytes_length]; simp [spread]
    refine ⟨State.noResult _, (exec_st ..).trans (issue_ok hp ?_), hcells.1, hspread ▸ hcells.2.1⟩
    rw [getS_pops, getS_of_readS hx, getS_pops, getS_of_readS hy, pops_arch]
    dsimp only [bind, Except.bind]
    rw [aligned_ok (by simpa using hal), hu]
    rfl
  case stv =>
    intro x v m hx hv hal ls ⟨u, hu⟩
    have hcells := memFrame_withhold (cachesOnly_reach hu)
      ((ls.zip ((ls.map fun i => base + x + BitVec.ofNat 64 (4 * i)).zip ps)).flatMap (laneStores v))
    rw [laneStores_cells v (reach_length hu)] at hcells
    refine ⟨State.noResult _, (exec_stv ..).trans (issue_ok hp ?_), hcells.1, hcells.2.1⟩
    rw [getS_pops, getS_of_readS hx, getVM_pops hv, pops_arch]
    dsimp only [bind, Except.bind]
    rw [aligned_ok (by simpa using hal), hu]
    rfl
  case scatter =>
    intro o v m n ho hv ls vas hal ⟨u, hu⟩
    have hcells := memFrame_withhold (cachesOnly_reach hu) ((ls.zip (vas.zip ps)).flatMap (laneStores v))
    rw [laneStores_cells v (reach_length hu)] at hcells
    refine ⟨State.noResult _, (exec_scatter ..).trans (issue_ok hp ?_), hcells.1, hcells.2.1⟩
    rw [getVM_pops ho, getVM_pops hv, pops_arch]
    dsimp only [bind, Except.bind]
    rw [aligned_ok hal, hu]
    rfl
  case stss =>
    intro x y hx hy off cells hok hal hr
    obtain ⟨t, ht, hstored⟩ := directStore_ok hok hal hr
    refine ⟨t, (exec_stss ..).trans (issue_ok hp ?_), hstored⟩
    rw [getS_pops, getS_of_readS hx, getS_pops, getS_of_readS hy, pops_arch]
    exact ht
  case sts =>
    intro x v m hx hv off cells hok hal hr
    obtain ⟨t, ht, hstored⟩ := directStore_ok hok hal hr
    refine ⟨t, (exec_sts ..).trans (issue_ok hp ?_), hstored⟩
    rw [getS_pops, getS_of_readS hx, getVM_pops hv, pops_arch]
    exact ht

end Sys2Proof.Machine
end

section
set_option Elab.async false
/-! Loads performed at home (R203, R219, R446) and direct loads of the scratchpad (R195, R201, R242): what they leave of the machine. -/

namespace Sys2Proof.Machine

/-! ### What performed loads leave -/

/-- One state is the other but for what loads change that are performed: queues, logical time, versions read, the stash, translation caches,
and what an uncorrectable error stops (accounts, triggers, the ranger core). Registers, results in flight and every byte of memory stay. -/
def LoadsOnly (s t : State) : Prop := ∃ Q P R G H L U D O B F E,
  t = { s with
    core := { s.core with q := Q, pts := P, reads := R, trigs := G, halted := H, tlb := L, used := U, pad := D },
    others := O, hub := B, fabric := F, due := E }

theorem LoadsOnly.refl (s : State) : LoadsOnly s s := ⟨_, _, _, _, _, _, _, _, _, _, _, _, rfl⟩

theorem LoadsOnly.trans {s t u : State} (h : LoadsOnly s t) (k : LoadsOnly t u) : LoadsOnly s u := by
  obtain ⟨_, _, _, _, _, _, _, _, _, _, _, _, rfl⟩ := h
  obtain ⟨_, _, _, _, _, _, _, _, _, _, _, _, rfl⟩ := k
  exact ⟨_, _, _, _, _, _, _, _, _, _, _, _, rfl⟩

theorem LoadsOnly.withHub (s : State) (h : Hub) : LoadsOnly s (s.withHub h) := ⟨_, _, _, _, _, _, _, _, _, _, _, _, rfl⟩
theorem LoadsOnly.addDue (s : State) (xs : List Action) : LoadsOnly s (s.addDue xs) := ⟨_, _, _, _, _, _, _, _, _, _, _, _, rfl⟩
theorem LoadsOnly.event (s : State) (k : Cause) (a b : Nat) (p : Option Nat) (ad : Word) (h : Handle) (t : BitVec 32) (x y : Word) :
    LoadsOnly s (s.event k a b p ad h t x y) := .addDue ..
theorem LoadsOnly.post (s : State) (k : Packet) : LoadsOnly s (s.post k) := ⟨_, _, _, _, _, _, _, _, _, _, _, _, rfl⟩

theorem LoadsOnly.of_caches {s t : State} (h : CachesOnly s t) : LoadsOnly s t := by
  obtain ⟨_, _, _, _, _, _, rfl⟩ := h
  exact ⟨_, _, _, _, _, _, _, _, _, _, _, _, rfl⟩

/-- A sequencer's part that loads may change, changed. -/
theorem LoadsOnly.setCore (s : State) (c : Nat) {y : Core} (h : ∃ Q P R G H L U D,
    y = { s.coreAt c with q := Q, pts := P, reads := R, trigs := G, halted := H, tlb := L, used := U, pad := D }) : LoadsOnly s (s.setCore c y) := by
  obtain ⟨_, _, _, _, _, _, _, _, rfl⟩ := h
  unfold State.setCore State.coreAt
  split
  · exact ⟨_, _, _, _, _, _, _, _, _, _, _, _, rfl⟩
  · exact ⟨_, _, _, _, _, _, _, _, _, _, _, _, rfl⟩

theorem LoadsOnly.each {s : State} {f : State → Nat → State} (h : ∀ t i, LoadsOnly t (f t i)) (is : List Nat) : LoadsOnly s (s.each f is) := by
  induction is generalizing s with
  | nil => exact .refl s
  | cons i is ih => exact (h s i).trans ih

theorem LoadsOnly.foldl {α : Type} {s : State} {f : State → α → State} (h : ∀ t x, LoadsOnly t (f t x)) (xs : List α) :
    LoadsOnly s (xs.foldl f s) := by
  induction xs generalizing s with
  | nil => exact .refl s
  | cons x xs ih => exact (h s x).trans ih

theorem LoadsOnly.ite {s t u : State} {p : Prop} [Decidable p] (ht : LoadsOnly s t) (hu : LoadsOnly s u) : LoadsOnly s (if p then t else u) := by
  split
  · exact ht
  · exact hu

/-! ### Cancellation -/

theorem loadsOnly_cancelOne (s : State) (i : Nat) : LoadsOnly s (s.cancelOne i) := by
  unfold State.cancelOne
  refine .ite (.refl s) ?_
  have back (t : State) (v : Nat) (a : List Action) : LoadsOnly t (if v = 0 then t else t.addDue a) := .ite (.refl t) (.addDue ..)
  exact (LoadsOnly.withHub s _).trans ((back _ _ _).trans (back _ _ _))

theorem loadsOnly_cancelAll (s : State) (is : List Nat) : LoadsOnly s (s.cancelAll is) := by
  induction is generalizing s with
  | nil => exact .refl s
  | cons i is ih => exact (loadsOnly_cancelOne s i).trans (ih _)

theorem loadsOnly_giveHold (s : State) (site : Nat) (h : Hold) (b : Bool) (w : Word) : LoadsOnly s (s.giveHold site h b w) :=
  .ite (.refl s) (.addDue ..)

theorem loadsOnly_dropTriggers (s : State) (ids : List Nat) (c : Nat) : LoadsOnly s (s.dropTriggers ids c) := by
  unfold State.dropTriggers
  refine .ite (.refl s) ?_
  exact (LoadsOnly.setCore s c ⟨_, _, _, _, _, _, _, _, rfl⟩).trans (.foldl (fun t u => loadsOnly_giveHold ..) _)

theorem loadsOnly_noticeAll (s : State) (h : Handle) (es : List (Nat × Handle × BitVec 16 × Nat × Bool)) : LoadsOnly s (s.noticeAll h es) := by
  induction es generalizing s with
  | nil => exact .refl s
  | cons e es ih => exact (LoadsOnly.ite (.post ..) (.refl s)).trans (ih _)

theorem loadsOnly_cancelAcc (s : State) (i : Nat) : LoadsOnly s (s.cancelAcc i) := by
  unfold State.cancelAcc State.cancelList
  refine .ite (.refl s) ?_
  exact (((loadsOnly_cancelAll s _).trans (.addDue ..)).trans (.each (fun t c => loadsOnly_dropTriggers ..) _)).trans
    (.each (fun t j => loadsOnly_noticeAll ..) _)

/-! ### Uncorrectable errors -/

theorem loadsOnly_haltRanger (s : State) : LoadsOnly s s.haltRanger :=
  (LoadsOnly.setCore s rangerId ⟨_, _, _, _, _, _, _, _, rfl⟩).trans (.event ..)

theorem loadsOnly_eccStop (s : State) (h : Hold) (p pa : Nat) : LoadsOnly s (s.eccStop h p pa) :=
  (LoadsOnly.event s ..).trans (.ite (loadsOnly_cancelAcc ..) (.refl _))

theorem loadsOnly_eccAt (s : State) (c pa : Nat) : LoadsOnly s (s.eccAt c pa) := by
  unfold State.eccAt
  refine .ite ?_ (loadsOnly_eccStop ..)
  split
  · exact (loadsOnly_eccStop ..).trans (loadsOnly_haltRanger _)
  · exact (LoadsOnly.event s ..).trans (loadsOnly_haltRanger _)

/-! ### Lines read and queue loads performed -/

theorem loadsOnly_touch (s : State) (b : Bool) (pa k : Nat) (w : Bool) (t : Word) : LoadsOnly s (s.touch b pa k w t) := by
  unfold State.touch
  refine .ite (.refl s) ?_
  have h (rs : NatMap Region) := LoadsOnly.withHub s { s.hub with regions := rs }
  exact .ite ((h _).trans (.addDue ..)) (h _)

theorem loadsOnly_holdLine (s : State) (c l : Nat) : LoadsOnly s (s.holdLine c l) := by
  unfold State.holdLine
  refine .ite ?_ (.refl s)
  split
  · exact .ite (.withHub ..) (.refl s)
  · exact .refl s

theorem loadsOnly_loadTs (s : State) (p : Word) (l : Nat) : LoadsOnly s (s.loadTs p l).1 := .withHub ..

theorem loadsOnly_readLine (s : State) (c l : Nat) (b : Bool) : LoadsOnly s (s.readLine c l b) :=
  (((loadsOnly_loadTs s ..).trans (loadsOnly_touch ..)).trans (.setCore _ c ⟨_, _, _, _, _, _, _, _, rfl⟩)).trans (loadsOnly_holdLine ..)

theorem loadsOnly_readLines (s : State) (c : Nat) (b : Bool) (ls : List Nat) : LoadsOnly s (s.readLines c b ls) := by
  induction ls generalizing s with
  | nil => exact .refl s
  | cons l ls ih => exact (loadsOnly_readLine s c l b).trans (ih _)

theorem loadsOnly_fillLoad (s : State) (c : Nat) : LoadsOnly s (s.fillLoad c) := by
  unfold State.fillLoad
  split
  · exact .refl s
  · refine .ite ?_ ?_
    · exact (LoadsOnly.setCore s c ⟨_, _, _, _, _, _, _, _, rfl⟩).trans (loadsOnly_eccAt ..)
    · exact (loadsOnly_readLines ..).trans (.setCore _ c ⟨_, _, _, _, _, _, _, _, rfl⟩)

theorem loadsOnly_fillLoads (s : State) (c n : Nat) : LoadsOnly s (s.fillLoads c n) := by
  induction n generalizing s with
  | zero => exact .refl s
  | succ n ih => exact .ite ((loadsOnly_fillLoad s c).trans (ih _)) (.refl s)

/-- With no load outstanding there is none to perform. -/
theorem fillLoads_none {s : State} {c : Nat} (h : (s.coreAt c).oldestLoad = none) (n : Nat) : s.fillLoads c n = s := by
  cases n with
  | zero => rfl
  | succ n => unfold State.fillLoads; rw [h]; rfl

theorem loadsOnly_fillStash (s : State) (c r l : Nat) : LoadsOnly s (s.fillStash c r l) := by
  unfold State.fillStash
  dsimp only
  split
  · exact .refl s
  · split
    · exact .refl s
    · rename_i pa s1 hs1
      have h1 := LoadsOnly.of_caches (cachesOnly_access hs1)
      refine .ite (h1.trans (loadsOnly_eccAt ..)) ?_
      exact ((((h1.trans (loadsOnly_loadTs ..)).trans (.withHub ..)).trans (loadsOnly_touch ..)).trans (loadsOnly_holdLine ..)).trans
        (.setCore _ c ⟨_, _, _, _, _, _, _, _, rfl⟩)

theorem loadsOnly_fillStashAll (s : State) (rs : List (Nat × Nat)) : LoadsOnly s (s.fillStashAll rs) := by
  induction rs generalizing s with
  | nil => exact .refl s
  | cons r rs ih => exact (loadsOnly_fillStash ..).trans (ih _)

theorem loadsOnly_loadsBefore (s : State) (off n : Nat) : LoadsOnly s (s.loadsBefore off n) :=
  (loadsOnly_fillLoads ..).trans (loadsOnly_fillStashAll ..)

/-! ### Direct loads of the scratchpad -/

theorem loadsOnly_readStash (s : State) (off n k : Nat) : LoadsOnly s (s.readStash off n k) := by
  unfold State.readStash
  dsimp only
  split
  · exact .refl s
  · refine LoadsOnly.trans (.ite ?_ (.refl s)) (loadsOnly_holdLine ..)
    exact ⟨_, _, _, _, _, _, _, _, _, _, _, _, rfl⟩

theorem loadsOnly_readStashAll (s : State) (off n : Nat) (rs : List (Nat × Nat)) : LoadsOnly s (s.readStashAll off n rs) := by
  induction rs generalizing s with
  | nil => exact .refl s
  | cons r rs ih => exact (loadsOnly_readStash ..).trans (ih _)

/-- Reading lines at the stash notes their versions and holds them: the bytes of the scratchpad and what is withheld stay. -/
theorem readStashAll_pad (s : State) (off n : Nat) (rs : List (Nat × Nat)) : (s.readStashAll off n rs).core.pad = s.core.pad := by
  have hold (t : State) (c l : Nat) : (t.holdLine c l).core = t.core := by
    unfold State.holdLine; split
    · split
      · split <;> rfl
      · rfl
    · rfl
  induction rs generalizing s with
  | nil => rfl
  | cons r rs ih =>
    refine (ih _).trans ?_
    unfold State.readStash
    dsimp only
    split
    · rfl
    · rw [hold]; split <;> rfl

/-- A direct load whose offsets are addressable and whose lines are present (R195, R201). -/
theorem directLoad_ok {s : State} {as : List Src} {va : Word} {n al : Nat} (ha : NoAnchorDue s) (hok : s.directOk va.toNat n = .ok ())
    (hal : va.toNat % al = 0) (hfill : s.core.linesToFill va.toNat n = []) :
    let here := if s.core.decl.stashLines va.toNat n = [] then s.pops as else (s.pops as).loadsBefore va.toNat n
    (s.pops as).directLoad va n al = .ok ((upFrom va.toNat n).map here.core.directByte,
      here.readStashAll va.toNat n (s.core.decl.stashLines va.toNat n)) := by
  intro here
  have hfill' : (s.pops as).core.linesToFill va.toNat n = [] := by rw [pops_eq]; exact hfill
  unfold State.directLoad
  dsimp only
  rw [directOk_pops, hok]
  dsimp only [bind, Except.bind]
  rw [aligned_ok (by simpa using hal), hfill', pops_decl]
  dsimp only [here]
  cases hl : s.core.decl.stashLines va.toNat n with
  | nil => rfl
  | cons l ls =>
    rw [needAnchor_ok ha]
    rfl

/-- Beside its loads and the result in flight a slot leaves the machine as it was. -/
theorem resultV_loadsOnly {s u : State} {as : List Src} {d : BitVec 6} (h : LoadsOnly (s.pops as) u) (hd : FreeV s false d) (lat : Nat)
    (v : Lanes) (m c : LaneMask) : ∃ t, u.resultV false d lat v m c = .ok t ∧
      t.core.flights = (vectorOut s as false d lat v m c).core.flights ∧ ∃ F P, t = u.withCore { u.core with flights := F, pushed := P } := by
  have hb : u.core.boundQueue true d = s.core.boundQueue true d ∧ (∀ q, u.core.hasQueue q = s.core.hasQueue q) ∧
      ∀ g x k, (u.fly lat g x k noFlags).core.flights = (inFlight s as lat g x k 0#6).core.flights := by
    obtain ⟨_, _, _, _, _, _, _, _, _, _, _, _, rfl⟩ := h
    rw [pops_eq]
    exact ⟨rfl, fun _ => rfl, fun _ _ _ => rfl⟩
  obtain ⟨hb, hq, hf⟩ := hb
  unfold vectorOut
  cases hs : s.core.boundQueue true d with
  | none => exact ⟨_, resultV_reg (hb.trans hs) .., hf .., _, u.core.pushed, rfl⟩
  | some q =>
    exact ⟨_, resultV_queue (hb.trans hs) ((hq q).trans (hd.resolve_left Bool.false_ne_true q hs)) .., hf .., _, _, rfl⟩

theorem resultS_loadsOnly {s u : State} {as : List Src} {d : BitVec 6} (h : LoadsOnly (s.pops as) u) (hd : FreeS s false d) (lat : Nat)
    (v : Word) : ∃ t, u.resultS false d lat v = .ok t ∧
      t.core.flights = (scalarOut s as false d lat v).core.flights ∧ ∃ F P, t = u.withCore { u.core with flights := F, pushed := P } := by
  have hb : u.core.boundQueue false d = s.core.boundQueue false d ∧ (∀ q, u.core.hasQueue q = s.core.hasQueue q) ∧
      ∀ g x k, (u.fly lat g x k noFlags).core.flights = (inFlight s as lat g x k 0#6).core.flights := by
    obtain ⟨_, _, _, _, _, _, _, _, _, _, _, _, rfl⟩ := h
    rw [pops_eq]
    exact ⟨rfl, fun _ => rfl, fun _ _ _ => rfl⟩
  obtain ⟨hb, hq, hf⟩ := hb
  unfold scalarOut goalS
  cases hs : s.core.boundQueue false d with
  | none => exact ⟨_, resultS_reg (hb.trans hs) .., hf .., _, u.core.pushed, rfl⟩
  | some q =>
    exact ⟨_, resultS_queue (hb.trans hs) ((hq q).trans (hd.resolve_left Bool.false_ne_true q hs)) .., hf .., _, _, rfl⟩

/-- Settles O15: the load is performed where its lines are, and its result is in flight from a state that loads alone have changed. -/
theorem scratchLoadResults : Obligations.ScratchLoadResults := by
  intro s p d a b x y hp hanchor hx hy off here bytes frame
  let read (n : Nat) : State := (here n).readStashAll off n (s.core.decl.stashLines off n)
  have hhere (n : Nat) : LoadsOnly (s.pops [a, b]) (here n) := .ite (.refl _) (loadsOnly_loadsBefore ..)
  have hread (n : Nat) : LoadsOnly (s.pops [a, b]) (read n) := (hhere n).trans (loadsOnly_readStashAll ..)
  have hkept (n : Nat) (hfill : s.core.linesToFill off n = []) (h : s.core.oldestLoad = none ∨ s.core.decl.stashLines off n = []) :
      here n = s.pops [a, b] := by
    dsimp only [here]
    split
    · rfl
    · rename_i hl
      have hnone : ((s.pops [a, b]).coreAt (s.pops [a, b]).cur).oldestLoad = none := by
        rw [State.coreAt, if_pos rfl, pops_eq]; exact h.resolve_right hl
      have hfill' : (s.pops [a, b]).core.linesToFill off n = [] := by rw [pops_eq]; exact hfill
      rw [State.loadsBefore, fillLoads_none hnone, hfill']
      rfl
  have hframe {t : State} {n : Nat} (hfill : s.core.linesToFill off n = [])
      (ht : ∃ F P, t = (read n).withCore { (read n).core with flights := F, pushed := P }) : frame t n := by
    obtain ⟨F, P, rfl⟩ := ht
    have hsame : (read n).core.arch = s.core.arch ∧ (read n).mem = s.mem ∧ (read n).port = s.port ∧ (read n).core.latches = s.core.latches := by
      obtain ⟨_, _, _, _, _, _, _, _, _, _, _, _, h⟩ := hread n
      rw [h, pops_eq]
      exact ⟨rfl, rfl, rfl, rfl⟩
    obtain ⟨harch, hmem, hport, hlatch⟩ := hsame
    refine ⟨harch, hmem, hport, fun h => ?_⟩
    have hk := hkept n hfill h
    have hpad : (read n).core.pad = s.core.pad := by
      dsimp only [read]; rw [readStashAll_pad, hk, pops_pad]
    refine ⟨⟨harch, congrArg Spad.bytes hpad, hlatch, hport, fun i => by rw [State.withCore_mem, hmem]⟩, fun o => ?_⟩
    rw [hk, pops_eq]
    rfl
  refine ⟨fun hok hal hfill hd => ?lds, fun hok hal hfill hd => ?ldss⟩
  case lds =>
    obtain ⟨t, ht, hfl, hsame⟩ := resultV_loadsOnly (hread 512) hd 5 (BitVec.ofNat 4096 (bytes 512)) (BitVec.allOnes 128) (BitVec.allOnes 128)
    refine ⟨t, (exec_lds ..).trans (issue_ok hp ?_), hframe hfill hsame, hfl⟩
    rw [getS_pops, getS_of_readS hx, getS_pops, getS_of_readS hy]
    dsimp only [bind, Except.bind]
    rw [directLoad_ok hanchor hok hal hfill]
    exact ht
  case ldss =>
    obtain ⟨t, ht, hfl, hsame⟩ := resultS_loadsOnly (hread 8) hd 5 (BitVec.ofNat 64 (bytes 8))
    refine ⟨t, (exec_ldss ..).trans (issue_ok hp ?_), hframe hfill hsame, hfl⟩
    rw [getS_pops, getS_of_readS hx, getS_pops, getS_of_readS hy]
    dsimp only [bind, Except.bind]
    rw [directLoad_ok hanchor hok hal hfill]
    exact ht

end Sys2Proof.Machine
end

section
set_option Elab.async false
/-! Prefetches and stash control (R202, R244, R245): what a write-back leaves, and what each form notes. -/

namespace Sys2Proof.Machine

/-! ### Write-back -/

/-- One state is the other but for what a write-back changes beside memory: scratchpads, the times of weak writes, the hub's records. -/
def WriteBackOnly (s t : State) : Prop := ∃ D W O M H E,
  t = { s with core := { s.core with pad := D, weak := W }, others := O, mem := M, hub := H, due := E }

theorem WriteBackOnly.refl (s : State) : WriteBackOnly s s := ⟨_, _, _, _, _, _, rfl⟩

theorem WriteBackOnly.trans {s t u : State} (h : WriteBackOnly s t) (k : WriteBackOnly t u) : WriteBackOnly s u := by
  obtain ⟨_, _, _, _, _, _, rfl⟩ := h
  obtain ⟨_, _, _, _, _, _, rfl⟩ := k
  exact ⟨_, _, _, _, _, _, rfl⟩

theorem WriteBackOnly.setCore (s : State) (c : Nat) {y : Core} (h : ∃ D W, y = { s.coreAt c with pad := D, weak := W }) :
    WriteBackOnly s (s.setCore c y) := by
  obtain ⟨_, _, rfl⟩ := h
  unfold State.setCore State.coreAt
  split
  · exact ⟨_, _, _, _, _, _, rfl⟩
  · exact ⟨_, _, _, _, _, _, rfl⟩

@[simp] theorem setCore_mem (s : State) (c : Nat) (x : Core) : (s.setCore c x).mem = s.mem := by unfold State.setCore; split <;> rfl
@[simp] theorem modCore_mem (s : State) (c : Nat) (f : Core → Core) : (s.modCore c f).mem = s.mem := setCore_mem ..
@[simp] theorem modUnit_mem (s : State) (u : Nat) (f : Uni → Uni) : (s.modUnit u f).mem = s.mem := by unfold State.modUnit; split <;> rfl

@[simp] theorem touch_mem (s : State) (b : Bool) (pa k : Nat) (w : Bool) (t : Word) : (s.touch b pa k w t).mem = s.mem := by
  obtain ⟨_, _, _, _, _, _, _, _, _, _, _, _, h⟩ := loadsOnly_touch s b pa k w t
  rw [h]

theorem writeBackOnly_touch (s : State) (b : Bool) (pa k : Nat) (w : Bool) (t : Word) : WriteBackOnly s (s.touch b pa k w t) := by
  unfold State.touch
  dsimp only
  split
  · exact .refl s
  · split <;> exact ⟨_, _, _, _, _, _, rfl⟩

theorem writeBackOnly_modPad (s : State) (u : Nat) (f : Spad → Spad) : WriteBackOnly s (s.modPad u f) := by
  unfold State.modPad
  split
  · exact .setCore s _ ⟨_, _, rfl⟩
  · unfold State.modUnit
    split
    · exact ⟨_, _, _, _, _, _, rfl⟩
    · exact .refl s

@[simp] theorem modPad_mem (s : State) (u : Nat) (f : Spad → Spad) : (s.modPad u f).mem = s.mem := by
  unfold State.modPad; split <;> simp

/-- A time of weak writes stands in no register of a context image. -/
theorem engPieces_weak (e : Engines) (w : Vector Word 8) (now : Nat) : engPieces e { e with weak := w } now = [] := by
  unfold engPieces
  simp

theorem writeBackOnly_raiseWeak (s : State) (u k : Nat) (w : Word) : WriteBackOnly s (s.raiseWeak u k w) ∧ (s.raiseWeak u k w).mem = s.mem := by
  unfold State.raiseWeak State.modEng
  split
  · exact ⟨.setCore s _ ⟨_, _, rfl⟩, modCore_mem ..⟩
  · split
    · exact ⟨.refl s, rfl⟩
    · dsimp only
      simp only [engPieces_weak, ite_self, List.isEmpty_nil, if_true]
      exact ⟨⟨_, _, _, _, _, _, rfl⟩, rfl⟩

/-- Every colour of a line's weak bytes raised in turn. -/
theorem writeBackOnly_raiseAll {p : Nat → Prop} [DecidablePred p] (s : State) (u : Nat) (w : Word) (ks : List Nat) :
    WriteBackOnly s (ks.foldl (fun s k => if p k then s.raiseWeak u k w else s) s) ∧
      (ks.foldl (fun s k => if p k then s.raiseWeak u k w else s) s).mem = s.mem := by
  induction ks generalizing s with
  | nil => exact ⟨.refl s, rfl⟩
  | cons k ks ih =>
    rw [List.foldl_cons]
    split
    · have h := writeBackOnly_raiseWeak s u k w
      exact ⟨h.1.trans (ih _).1, (ih _).2.trans h.2⟩
    · exact ih s

/-- One line gone home: beside its cells memory stays. -/
theorem writeBackOnly_line {p : Nat → Prop} [DecidablePred p] (s : State) (u pa k ln : Nat) (b : Bool) (t w : Word) (ts : LineTs)
    (f : Spad → Spad) (ks : List Nat) (cells : List Host.Cell) :
    let r := (ks.foldl (fun s k => if p k then s.raiseWeak u k w else s) (((s.touch b pa k true t).setTs ln ts).modPad u f)).putCells cells
    WriteBackOnly s r ∧ r.mem = cellsPut s.mem cells := by
  have hts (x : State) : WriteBackOnly x (x.setTs ln ts) := ⟨_, _, _, _, _, _, rfl⟩
  obtain ⟨hall, hmem⟩ := writeBackOnly_raiseAll (p := p) (((s.touch b pa k true t).setTs ln ts).modPad u f) u w ks
  refine ⟨((((writeBackOnly_touch ..).trans (hts _)).trans (writeBackOnly_modPad ..)).trans hall).trans ⟨_, _, _, _, _, _, rfl⟩, ?_⟩
  refine (congrArg (cellsPut · cells) hmem).trans ?_
  rw [modPad_mem, State.setTs_mem, touch_mem]

/-- A write-back changes scratchpads and hub, and of memory at most the weak bytes of the lines that it is given (R202). -/
theorem writeBackOnly_writeBack (s : State) (u : Nat) (cs : BitVec 8) (ls : List (Nat × StashLine)) : WriteBackOnly s (s.writeBack u cs ls) ∧
    ∀ a, (¬ ∃ l ∈ ls, ∃ i < 64, (l.2.weak cs).getLsbD i = true ∧ a = l.2.pa * 64 + i) → cellAt (s.writeBack u cs ls).mem a = cellAt s.mem a := by
  induction ls generalizing s with
  | nil => exact ⟨.refl s, fun _ _ => rfl⟩
  | cons kl ls ih =>
    obtain ⟨k, l⟩ := kl
    have hrest {a : Nat} (h : ¬ ∃ l' ∈ (k, l) :: ls, ∃ i < 64, (l'.2.weak cs).getLsbD i = true ∧ a = l'.2.pa * 64 + i) :
        ¬ ∃ l' ∈ ls, ∃ i < 64, (l'.2.weak cs).getLsbD i = true ∧ a = l'.2.pa * 64 + i := fun ⟨l', hl', e⟩ => h ⟨l', List.mem_cons_of_mem _ hl', e⟩
    rw [State.writeBack]
    dsimp only
    split
    · exact ⟨(ih s).1, fun a h => (ih s).2 a (hrest h)⟩
    · refine ⟨(writeBackOnly_line ..).1.trans (ih _).1, fun a h => ((ih _).2 a (hrest h)).trans ?_⟩
      rw [(writeBackOnly_line ..).2]
      refine cellAt_cellsPut_other _ _ fun c hc hca => ?_
      obtain ⟨i, hi, hci⟩ := List.mem_filterMap.1 hc
      rw [upFrom_zero, List.mem_range] at hi
      split at hci
      · rename_i hm
        cases hci
        exact h ⟨(k, l), List.mem_cons_self, i, hi, hm, hca.symm⟩
      · cases hci

/-- A row written back changes of memory only its Engine-dirty bytes, and no register. -/
theorem stashFrame_writeBackRow (s : State) (row : Nat) :
    stashFrame s (s.writeBackRow row) row ∧ (s.writeBackRow row).core.arch = s.core.arch := by
  obtain ⟨honly, hmem⟩ := writeBackOnly_writeBack s s.core.self 0xFF#8 (s.core.pad.rowLines row)
  have harch : (s.writeBackRow row).core.arch = s.core.arch := by
    obtain ⟨_, _, _, _, _, _, h⟩ := honly
    unfold State.writeBackRow
    rw [h]
  refine ⟨⟨by rw [harch], fun a ha => hmem a fun ⟨l, hl, i, hi, hm, e⟩ => ha ⟨l, hl, i, hi, hm, e⟩⟩, harch⟩

theorem rowLines_dropRow (p : Spad) (row : Nat) : (p.dropRow row).rowLines row = [] := by
  unfold Spad.rowLines Spad.dropRow
  rw [List.filter_filter, List.filter_eq_nil_iff]
  intro l _
  simp

/-! ### The forms -/

theorem needRow_ok {s : State} {x : Word} (as : List Src) (h : x.toNat < s.core.decl.stash) : (s.pops as).needRow x = .ok () := by
  unfold State.needRow; rw [pops_decl, decide_eq_true h, need_true]

/-- A row noted to be bound anew as the bundle commits: nothing else changes yet. -/
theorem notes_rebind {s u : State} {as : List Src} (h : CachesOnly (s.pops as) u) (row : Nat) (v : Option Word) :
    memFrame s (u.rebind row v).noResult ∧ (u.rebind row v).noResult.core.pad = s.core.pad ∧
      (u.rebind row v).noResult.core.remap = s.core.remap ++ [(row, v)] := by
  obtain ⟨_, _, _, _, _, _, rfl⟩ := h
  rw [pops_eq]
  exact ⟨⟨rfl, rfl, rfl, rfl, fun _ => rfl⟩, rfl, rfl⟩

theorem memFrame_noResult (s : State) (as : List Src) : memFrame s (s.pops as).noResult := by
  rw [pops_eq]; exact ⟨rfl, rfl, rfl, rfl, fun _ => rfl⟩

/-- PREFS makes fills due of lines of the row that its address names, and of no other (R244). -/
theorem prefs_gives {s : State} {p : BitVec 3} {a b : Src} {x y : Word} (hp : PredOn s p) (hx : s.readS .int a = .ok x)
    (hy : s.readS .int b = .ok y) : ∃ as, Gives (.prefs p a b) s ((s.pops [a, b]).noResult.addDue as) ∧
      ∀ e ∈ as, ∃ r l, e = Action.stashFill s.cur r l ∧ (s.core.decl.stashPlace (x + y).toNat).map (·.1) = some r := by
  have nothing : (s.pops [a, b]).noResult.addDue [] = (s.pops [a, b]).noResult := by
    unfold State.addDue; rw [List.append_nil]
  have run {t : State} (h : execPrefs p a b s = .next t) : Gives (.prefs p a b) s t := (exec_prefs ..).trans h
  unfold execPrefs at run
  cases hplace : s.core.decl.stashPlace (x + y).toNat with
  | none =>
    refine ⟨[], run (issue_ok hp ?_), fun e h => by cases h⟩
    rw [getS_pops, getS_of_readS hx, getS_pops, getS_of_readS hy, pops_decl]
    dsimp only [bind, Except.bind]
    rw [hplace, nothing]
    rfl
  | some q =>
    by_cases hva : ((s.pops [a, b]).core.stashVa q.1 0).isNone = true
    · refine ⟨[], run (issue_ok hp ?_), fun e h => by cases h⟩
      rw [getS_pops, getS_of_readS hx, getS_pops, getS_of_readS hy, pops_decl]
      dsimp only [bind, Except.bind]
      rw [hplace]
      dsimp only
      rw [if_pos hva, nothing]
      rfl
    · refine ⟨?fills, run (issue_ok hp ?go), ?named⟩
      case go =>
        rw [getS_pops, getS_of_readS hx, getS_pops, getS_of_readS hy, pops_decl]
        dsimp only [bind, Except.bind]
        rw [hplace]
        dsimp only
        rw [if_neg hva]
        rfl
      case named =>
        intro e he
        obtain ⟨l, -, rfl⟩ := List.mem_map.1 he
        exact ⟨q.1, l, by rw [pops_cur], rfl⟩

/-- Settles O17: the commit of a row by its write-back, and each of the six forms. -/
theorem stashControlResults : Obligations.StashControlResults := by
  constructor
  · intro s row v t
    obtain ⟨⟨-, hmem⟩, harch⟩ := stashFrame_writeBackRow s row
    have ht : t.core.arch = { (s.writeBackRow row).core.arch with bound := match v with
        | some y => NatMap.put row y (s.writeBackRow row).core.arch.bound
        | none => NatMap.del row (s.writeBackRow row).core.arch.bound } := rfl
    rw [harch] at ht
    exact ⟨⟨by simp only [ht], hmem⟩, rowLines_dropRow .., congrArg Arch.bound ht⟩
  · intro s p a b x hp hx row inRange notes
    refine ⟨fun y hy => ⟨?pref, ?prefs, ?smap⟩, ?sunmap, ?swb, ?sinv⟩
    case pref =>
      let known := decide ((s.pops [a, b]).cur = rangerId) || (cachedLeaf (s.pops [a, b]).core.tlb (s.pops [a, b]).core.part (x + y).toNat).isSome
      have run : Gives (.pref p a b) s (if known then (s.pops [a, b]).noResult
          else (s.pops [a, b]).noResult.addDue [.translationWalk (s.pops [a, b]).cur (x + y)]) := by
        refine (exec_pref ..).trans (issue_ok hp ?_)
        rw [getS_pops, getS_of_readS hx, getS_pops, getS_of_readS hy]
        rfl
      refine ⟨_, run, ?_⟩
      rw [pops_cur]
      split
      · exact ⟨memFrame_noResult .., .inl (by rw [pops_eq]; rfl)⟩
      · exact ⟨memFrame_noResult .., .inr (by rw [pops_eq]; rfl)⟩
    case prefs =>
      obtain ⟨as, run, has⟩ := prefs_gives hp hx hy
      refine ⟨_, run, memFrame_noResult .., fun r line h => ?_⟩
      obtain h | h := List.mem_append.1 h
      · exact .inl (by rw [pops_eq] at h; exact h)
      · obtain ⟨q, l, e, hq⟩ := has _ h
        cases e
        exact .inr hq
    case smap =>
      intro ps hrow hal ⟨u, hu⟩
      refine ⟨_, (exec_smap ..).trans (issue_ok hp ?_), notes_rebind (cachesOnly_reach hu) row (some y)⟩
      rw [getS_pops, getS_of_readS hx, getS_pops, getS_of_readS hy]
      dsimp only [bind, Except.bind]
      rw [needRow_ok _ hrow, aligned_ok (by simpa using hal), hu]
      rfl
    case sunmap =>
      intro hrow
      refine ⟨_, (exec_sunmap ..).trans (issue_ok hp ?_), notes_rebind (as := [a]) (.refl _) row none⟩
      rw [getS_pops, getS_of_readS hx]
      dsimp only [bind, Except.bind]
      rw [needRow_ok _ hrow]
      rfl
    case swb =>
      intro hrow
      obtain ⟨hframe, harch⟩ := stashFrame_writeBackRow (s.pops [a]) row
      rw [pops_eq] at hframe harch
      refine ⟨State.noResult _, (exec_swb ..).trans (issue_ok hp ?_), hframe, harch⟩
      rw [getS_pops, getS_of_readS hx, pops_eq]
      dsimp only [bind, Except.bind]
      rw [← pops_eq, needRow_ok _ hrow, pops_eq]
      rfl
    case sinv =>
      intro hrow
      refine ⟨_, (exec_sinv ..).trans (issue_ok hp ?_), notes_rebind (as := [a]) (.refl _) row (NatMap.find row s.core.arch.bound)⟩
      rw [getS_pops, getS_of_readS hx]
      dsimp only [bind, Except.bind]
      rw [needRow_ok _ hrow, pops_arch]
      rfl

end Sys2Proof.Machine
end

section
set_option Elab.async false
/-! The atomics (R222, R239, R256, R257): one event at the home slice, and the word that each form writes. -/

namespace Sys2Proof.Machine

theorem intOf_true {w : Nat} (hw : 0 < w) (u : Nat) : intOf w true u = (BitVec.ofNat w u).toInt := by
  have hmsb : (BitVec.ofNat w u).msb = u.testBit (w - 1) := by
    rw [BitVec.msb_eq_getLsbD_last, BitVec.getLsbD_ofNat, decide_eq_true (by omega), Bool.true_and]
  rw [BitVec.toInt_eq_msb_cond, hmsb, BitVec.toNat_ofNat]
  rfl

/-- Bytes written from an address up are read back there. -/
theorem cellsAt_cellsSet {m : List Host.Cell} (h : cellsWf m = true) (pa : Nat) (bs : List Byte) : cellsAt (cellsSet m pa bs) pa bs.length = bs := by
  induction bs generalizing m pa with
  | nil => rfl
  | cons b bs ih =>
    rw [List.length_cons, cellsAt, cellsSet, ih (cellsWf_cellSet h pa b), cellAt_cellsSet_other _ _ (.inl (Nat.lt_succ_self pa)), cellAt_cellSet h, if_pos rfl]

@[simp] theorem touch_core (s : State) (b : Bool) (pa k : Nat) (w : Bool) (t : Word) : (s.touch b pa k w t).core = s.core := by
  unfold State.touch
  dsimp only
  split
  · rfl
  · split <;> rfl

/-- The word of a home slice replaced, by a sequencer with no load outstanding (R222). -/
theorem atomicAt_eq {s : State} (h : s.core.oldestLoad = none) (pa n : Nat) (f : Nat → Nat) :
    (s.atomicAt pa n f).1 = s.readNat pa n ∧ (s.atomicAt pa n f).2.mem = cellsSet s.mem pa (toBytes n (f (s.readNat pa n))) ∧
      ∃ p, (s.atomicAt pa n f).2.core = { s.core with pts := p } := by
  have hcur : (s.coreAt s.cur).oldestLoad = none := by rw [State.coreAt, if_pos rfl]; exact h
  unfold State.atomicAt State.poke
  rw [fillLoads_none hcur]
  simp only [State.setTs_core, touch_core, State.setTs_mem, touch_mem, State.withCore_mem, State.withCore_core]
  exact ⟨trivial, trivial, _, rfl⟩

/-- An atomic at an aligned address that translates, with nothing to wait for (R239, R256, R257). -/
theorem atomic_ok {s : State} {as : List Src} {w : Bool} {d : BitVec 6} {va : Word} {pa n : Nat} (f : Nat → Nat)
    (hq : w = false → s.core.hasQueue (d.setWidth 3) = true) (hfree : AtomicFree s pa) (hwf : Memory.wf s.mem = true) (hal : va.toNat % n = 0)
    (hr : Reaches s as true [va] [pa]) : ∃ t, (s.pops as).atomic w d va n f = .ok t ∧ atomicDone s t w (d.setWidth 3) pa n f := by
  obtain ⟨u, hu⟩ := hr
  obtain ⟨hanchor, hload, hstruck⟩ := hfree
  have hsame : u.cur = s.cur ∧ u.hub.anchor = s.hub.anchor ∧ u.core.oldestLoad = s.core.oldestLoad ∧ u.struck [pa] = s.struck [pa] ∧
      u.mem = s.mem ∧ u.core.arch = s.core.arch := by
    obtain ⟨_, _, _, _, _, _, h⟩ := cachesOnly_reach hu
    rw [h, pops_eq]
    exact ⟨rfl, rfl, rfl, rfl, rfl, rfl⟩
  obtain ⟨hcur, hanc, hold, hstr, hmem, harch⟩ := hsame
  have hheld : u.lineHeld (lineOf pa) = false := by
    unfold State.lineHeld
    rw [hanc, hcur]
    split
    · rename_i o g ls he
      rcases hanchor o g ls he with h | h
      · simp [h]
      · simp [h]
    · rfl
  obtain ⟨hword, hnew, p, hcore⟩ := atomicAt_eq (hold.trans hload) pa n f
  have hread : u.readNat pa n = s.readNat pa n := by unfold State.readNat; rw [hmem]
  rw [hread] at hword hnew
  rw [hmem] at hnew
  have run (t : State) (ht : t = if w then (u.atomicAt pa n f).2.noResult else ((u.atomicAt pa n f).2.returned d (u.atomicAt pa n f).1 n).noResult) :
      (s.pops as).atomic w d va n f = .ok t := by
    unfold State.atomic
    have hal' : aligned n [va] = .ok () := aligned_ok (by simpa using hal)
    cases w with
    | true =>
      dsimp only [bind, Except.bind]
      rw [if_neg (by decide), hal', hu]
      dsimp only [List.headD_cons]
      refine (if_neg (ne_true_of_eq_false hheld)).trans ?_
      rw [hstr, hstruck, ht]
      rfl
    | false =>
      dsimp only [bind, Except.bind]
      rw [if_pos (by decide), needQueue_ok (hq rfl), hal', hu]
      dsimp only [List.headD_cons]
      refine (if_neg (ne_true_of_eq_false hheld)).trans ?_
      rw [hstr, hstruck, ht]
      rfl
  generalize u.atomicAt pa n f = r at hword hnew hcore run
  have hdone : cellsAt r.2.mem pa n = toBytes n (f (s.readNat pa n)) ∧ (∀ a, a < pa ∨ pa + n ≤ a → cellAt r.2.mem a = cellAt s.mem a) ∧
      r.2.core.arch = s.core.arch := by
    rw [hnew, hcore]
    refine ⟨?_, fun a ha => cellAt_cellsSet_other _ _ (by rw [toBytes_length]; exact ha), harch⟩
    exact (congrArg (cellsAt _ pa) (toBytes_length n _).symm).trans (cellsAt_cellsSet hwf pa _)
  obtain ⟨hat, hother, hregs⟩ := hdone
  cases w with
  | true => exact ⟨_, run _ rfl, hat, hother, hregs, fun h => by cases h⟩
  | false =>
    refine ⟨_, run _ rfl, hat, hother, hregs, fun _ => ⟨?entry, ?last, ?kind, ?word⟩⟩
    case last =>
      refine (congrArg (fun y : Queue => y.entries.getLast?) ((queueAt_vput _ _ _ _).trans (if_pos rfl))).trans ?_
      exact List.getLast?_concat
    case kind => rfl
    case word => rw [← hword]; simp [List.map_map]

/-- An atomic of one operand on an 8-byte word. -/
theorem gives_atomic8 {i : Instr} {s : State} {p : BitVec 3} {w : Bool} {d : BitVec 6} {a b : Src} {x y : Word} {pa : Nat} {f : Nat → Nat → Nat}
    {g : Nat → Nat} (hp : PredOn s p) (hx : s.readS .int a = .ok x) (hy : s.readS .int b = .ok y)
    (hq : w = false → s.core.hasQueue (d.setWidth 3) = true) (hfree : AtomicFree s pa) (hwf : Memory.wf s.mem = true) (hal : x.toNat % 8 = 0)
    (hr : Reaches s [a, b] true [x] [pa]) (hi : exec i s = s.atomic8 p w d a b f) (hg : (fun o => f o y.toNat) = g) :
    ∃ t, Gives i s t ∧ atomicDone s t w (d.setWidth 3) pa 8 g := by
  obtain ⟨t, ht, hdone⟩ := atomic_ok (w := w) g hq hfree hwf hal hr
  refine ⟨t, hi.trans (issue_ok hp ?_), hdone⟩
  rw [getS_pops, getS_of_readS hx, getS_pops, getS_of_readS hy, ← ht, ← hg]
  rfl

theorem slt64_toInt (y : Word) (o : Nat) : slt64 y.toNat o = decide (y.toInt < (BitVec.ofNat 64 o).toInt) := by
  unfold slt64; rw [intOf_true (by decide), intOf_true (by decide), BitVec.ofNat_toNat, BitVec.setWidth_eq]

theorem slt64_toInt_right (y : Word) (o : Nat) : slt64 o y.toNat = decide ((BitVec.ofNat 64 o).toInt < y.toInt) := by
  unfold slt64; rw [intOf_true (by decide), intOf_true (by decide), BitVec.ofNat_toNat, BitVec.setWidth_eq]

/-- Settles O18: the one-operand atomics with each word of the table, AFADD on four bytes, and ACAS with its register pair. -/
theorem atomicResults : Obligations.AtomicResults := by
  intro s p w d a b x y pa hp hx hy hq hfree hwf k v does signed
  refine ⟨fun hal hr => ?words, fun hal hr => ?afadd, fun r hal hr => ?acas⟩
  case words =>
    have run {i : Instr} {f : Nat → Nat → Nat} {g : Nat → Nat} (hi : exec i s = s.atomic8 p w d a b f) (hg : (fun o => f o v) = g) :
        does i 8 g := gives_atomic8 hp hx hy hq hfree hwf hal hr hi hg
    refine ⟨run (exec_aadd ..) rfl, run (exec_afxadd ..) ?fx, run (exec_amin ..) ?min, run (exec_amax ..) ?max, run (exec_aminn ..) rfl,
      run (exec_amaxn ..) ?maxn, run (exec_aincb ..) rfl, run (exec_aswap ..) rfl, run (exec_aand ..) rfl, run (exec_aor ..) rfl,
      run (exec_axor ..) rfl⟩
    case fx =>
      funext o
      rw [intOf_true (by decide), intOf_true (by decide), BitVec.ofNat_toNat, BitVec.setWidth_eq]
    case min =>
      funext o
      rw [slt64_toInt]
      by_cases h : signed o ≤ y.toInt
      · rw [if_pos h, if_neg (by simpa using h)]
      · rw [if_neg h, if_pos (by simpa using h)]
    case max =>
      funext o
      rw [slt64_toInt_right]
      by_cases h : y.toInt ≤ signed o
      · rw [if_pos h, if_neg (by simpa using h)]
      · rw [if_neg h, if_pos (by simpa using h)]
    case maxn =>
      funext o
      rw [Nat.max_def]
      by_cases h : v ≤ o
      · rw [if_pos h]; split <;> omega
      · rw [if_neg h, if_pos (by omega)]
  case afadd =>
    obtain ⟨t, ht, hdone⟩ := atomic_ok (w := w) (fun o => (fp32.add .near false o (v % 2 ^ 32)).1) hq hfree hwf hal hr
    refine ⟨t, (exec_afadd ..).trans (issue_ok hp ?_), hdone⟩
    rw [getS_pops, getS_of_readS hx, getS_pops, getS_of_readS hy, ← ht]
    rfl
  case acas =>
    obtain ⟨t, ht, hdone⟩ := atomic_ok (w := w)
      (fun o => if o = (s.core.arch.sreg (r ++ 0#1)).toNat then (s.core.arch.sreg (r ++ 1#1)).toNat else o) hq hfree hwf hal hr
    refine ⟨t, (exec_acas ..).trans (issue_ok hp ?_), hdone⟩
    rw [getS_pops, getS_of_readS hx, pops_arch, ← ht]
    rfl

end Sys2Proof.Machine
end

section
set_option Elab.async false
/-! Byte-counting barriers (R232, R233, R258 to R260): the fields of a record, where it stands, and what POST, BWAIT and an arrival do. -/

namespace Sys2Proof.Machine

theorem need_false (k : Cause) (a : Word) : need false k a = .error (.trap k a) := rfl

/-! ### Fields of a bit vector -/

theorem testBit_fld {w : Nat} (x : BitVec w) (lo n i : Nat) : (fld x lo n).testBit i = (decide (i < n) && x.getLsbD (lo + i)) := by
  unfold fld bits
  rw [Nat.testBit_mod_two_pow, Nat.testBit_div_two_pow, Nat.add_comm]
  rfl

theorem fld_setField_same {w lo n : Nat} (x : BitVec w) (v : Nat) (h : lo + n ≤ w) : fld (setField x lo n v) lo n = v % 2 ^ n := by
  apply Nat.eq_of_testBit_eq
  intro i
  rw [testBit_fld, Nat.testBit_mod_two_pow]
  by_cases hi : i < n
  · rw [getLsbD_setField _ _ _ _ (by omega), if_pos (by omega), Nat.add_sub_cancel_left]
  · simp [hi]

theorem fld_setField_other {w lo n lo' n' : Nat} (x : BitVec w) (v : Nat) (h : lo' + n' ≤ lo ∨ lo + n ≤ lo') :
    fld (setField x lo n v) lo' n' = fld x lo' n' := by
  apply Nat.eq_of_testBit_eq
  intro i
  rw [testBit_fld, testBit_fld]
  by_cases hi : i < n'
  · by_cases hw : lo' + i < w
    · rw [getLsbD_setField _ _ _ _ hw, if_neg (by omega)]
    · rw [BitVec.getLsbD_of_ge _ _ (by omega), BitVec.getLsbD_of_ge _ _ (by omega)]
  · simp [hi]

theorem bitAt_eq_fld {w : Nat} (x : BitVec w) (i : Nat) : bitAt x i = decide (fld x i 1 = 1) := by
  have h : fld x i 1 = b2n (x.getLsbD i) := by
    apply Nat.eq_of_testBit_eq
    intro j
    rw [testBit_fld]
    cases j with
    | zero => cases x.getLsbD i <;> simp [b2n]
    | succ j => cases x.getLsbD i <;> simp [b2n, Nat.testBit_succ]
  rw [h]
  unfold bitAt
  cases x.getLsbD i <;> rfl

/-- A record with its fields set reads as just those fields. -/
theorem barReads_barWith (b : Block) (count : Int) (posted : Bool) {st : Nat} (hst : st < 3) (high : Word) (arrived : Nat) :
    barReads (barWith b count posted st high arrived) count posted st high arrived := by
  unfold barReads barWith
  have hposted : b2n posted % 2 ^ 1 = b2n posted := by cases posted <;> rfl
  refine ⟨?_, ?_, ?_, ?_, ?_⟩
  · rw [fld_setField_other _ _ (by decide), fld_setField_other _ _ (by decide), fld_setField_other _ _ (by decide),
      fld_setField_other _ _ (by decide), fld_setField_same _ _ (by decide), Nat.mod_eq_of_lt (BitVec.isLt _)]
  · unfold barPosted
    rw [bitAt_eq_fld, fld_setField_other _ _ (by decide), fld_setField_other _ _ (by decide), fld_setField_other _ _ (by decide),
      fld_setField_same _ _ (by decide), hposted]
    cases posted <;> rfl
  · unfold barState
    rw [fld_setField_other _ _ (by decide), fld_setField_other _ _ (by decide), fld_setField_same _ _ (by decide),
      Nat.mod_eq_of_lt (by omega), if_neg (by omega)]
  · unfold barHigh
    rw [fld_setField_other _ _ (by decide), fld_setField_same _ _ (by decide), Nat.mod_eq_of_lt (BitVec.isLt _), BitVec.ofNat_toNat,
      BitVec.setWidth_eq]
  · exact fld_setField_same _ _ (by decide)

/-! ### What the hub reads of a state -/

section
variable {s t : State} (hm : t.mem = s.mem) (hh : t.hub = s.hub)
include hm hh

/-- A walk reads device memory and the hub's tables, and no sequencer (R359). -/
theorem walkStep_congr (p va a lvl : Nat) : t.walkStep p va a lvl = s.walkStep p va a lvl := by
  unfold State.walkStep State.owns State.inWindows State.partAt State.readNat
  rw [hm, hh]

theorem walkFrom_congr (p va lvl a : Nat) : t.walkFrom p va lvl a = s.walkFrom p va lvl a := by
  induction lvl generalizing a with
  | zero => unfold State.walkFrom; rw [walkStep_congr hm hh]
  | succ lvl ih =>
    unfold State.walkFrom
    rw [walkStep_congr hm hh]
    split
    · rfl
    · exact ih _
    · rfl

theorem walkTrail_congr (p va lvl a : Nat) : t.walkTrail p va lvl a = s.walkTrail p va lvl a := by
  induction lvl generalizing a with
  | zero => rfl
  | succ lvl ih =>
    unfold State.walkTrail
    rw [walkStep_congr hm hh]
    dsimp only
    split
    · rw [ih]
    · rfl
    · rfl

theorem hubAccess_congr (p k : Nat) (va : Word) (w : Bool) : t.hubAccess p k va w = s.hubAccess p k va w := by
  have hwalk : t.walk p va = s.walk p va := by
    unfold State.walk State.partAt; rw [walkFrom_congr hm hh, hh]
  have hstruck : t.walkStruck p va = s.walkStruck p va := by
    unfold State.walkStruck State.struck State.partAt State.readNat
    dsimp only
    rw [hm, hh, walkTrail_congr hm hh]
  unfold State.hubAccess
  rw [hwalk, hstruck]

theorem slotPages_congr (p k : Nat) (base : Word) (i n : Nat) : t.slotPages p k base i n = s.slotPages p k base i n := by
  induction n generalizing i with
  | zero => rfl
  | succ n ih =>
    unfold State.slotPages
    dsimp only
    rw [hubAccess_congr hm hh, ih]

end

theorem slotRead_congr {s t : State} (hm : t.mem = s.mem) (ps : List Nat) (off n : Nat) : t.slotRead ps off n = s.slotRead ps off n := by
  unfold State.slotRead State.readNat; rw [hm]

/-! ### Scratchpads -/

theorem coreAt_withCore (s : State) (x : Core) (c : Nat) : (s.withCore x).coreAt c = if c = s.cur then x else s.coreAt c := by
  unfold State.coreAt State.withCore
  split
  · rfl
  · rfl

/-- A unit runs where it ran when the sequencer in focus keeps its unit. -/
theorem runsOn_withCore {s : State} {x : Core} (h : x.unit = s.core.unit) (u : Nat) : (s.withCore x).runsOn u = s.runsOn u := by
  have hunit (c : Nat) : ((s.withCore x).coreAt c).unit = (s.coreAt c).unit := by
    rw [coreAt_withCore]
    split
    · rename_i e; rw [h, e, State.coreAt, if_pos rfl]
    · rfl
  unfold State.runsOn State.unitAt
  rw [State.withCore_hub]
  split
  · rfl
  · split
    · rw [hunit]
    · rfl

theorem padOf_withCore {s : State} {x : Core} (h : x.unit = s.core.unit) (hp : x.pad = s.core.pad) (u : Nat) :
    (s.withCore x).padOf u = s.padOf u := by
  have hpad (c : Nat) : ((s.withCore x).coreAt c).pad = (s.coreAt c).pad := by
    rw [coreAt_withCore]
    split
    · rename_i e; rw [hp, e, State.coreAt, if_pos rfl]
    · rfl
  unfold State.padOf State.unitAt
  rw [runsOn_withCore h, State.withCore_hub]
  split
  · exact hpad _
  · rfl

theorem padRead_withCore {s : State} {x : Core} (h : x.unit = s.core.unit) (hp : x.pad = s.core.pad) (u off n : Nat) :
    (s.withCore x).padRead u off n = s.padRead u off n := by
  unfold State.padRead State.unitAt
  rw [State.withCore_hub]
  split
  · rw [padOf_withCore h hp]
  · rw [slotPages_congr (s := s) (t := s.withCore x) rfl rfl, padOf_withCore h hp]
    split
    · split
      · rfl
      · rw [slotRead_congr (s := s) (t := s.withCore x) rfl]
    · rfl

/-- The scratchpad of a unit that runs in focus, where it has not been spilled. -/
theorem padRead_here {s : State} {u : Nat} (hrun : s.runsOn u = some s.cur) (hsp : ∀ x, s.unitAt u = some x → x.spilled = false) (off n : Nat) :
    s.padRead u off n = cellsAt s.core.pad.bytes off n := by
  have hpad : s.padOf u = s.core.pad := by
    unfold State.padOf
    rw [hrun]
    dsimp only
    rw [State.coreAt, if_pos rfl]
  unfold State.padRead
  cases hu : s.unitAt u with
  | none =>
    by_cases h0 : u = 0
    · subst h0; rw [if_pos rfl, hpad]
    · unfold State.runsOn at hrun
      rw [if_neg h0, hu] at hrun
      cases hrun
  | some x =>
    dsimp only
    rw [hsp x hu, if_neg Bool.false_ne_true, hpad]

theorem padWrite_here {s : State} {u : Nat} (hrun : s.runsOn u = some s.cur) (hsp : ∀ x, s.unitAt u = some x → x.spilled = false) (off : Nat)
    (bs : List Byte) :
    s.padWrite u off bs = s.withCore { s.core with pad := { s.core.pad with bytes := cellsSet s.core.pad.bytes off bs } } := by
  have hmod (f : Spad → Spad) : s.modPad u f = s.withCore { s.core with pad := f s.core.pad } := by
    unfold State.modPad
    rw [hrun]
    dsimp only
    unfold State.modCore State.setCore State.coreAt
    rw [if_pos rfl, if_pos rfl]
    rfl
  unfold State.padWrite
  cases hu : s.unitAt u with
  | none =>
    by_cases h0 : u = 0
    · subst h0; rw [if_pos rfl, hmod]
    · unfold State.runsOn at hrun
      rw [if_neg h0, hu] at hrun
      cases hrun
  | some x =>
    dsimp only
    rw [hsp x hu, if_neg Bool.false_ne_true, hmod]

/-! ### The place of a record -/

theorem barAt_withCore {s : State} {x : Core} (h : x.unit = s.core.unit) (hp : x.pad = s.core.pad) (loc : BarLoc) :
    (s.withCore x).barAt loc = s.barAt loc := by
  cases loc with
  | mem pa => rfl
  | raw u off => exact congrArg (fun l => BitVec.ofNat 512 (ofBytes l)) (padRead_withCore h hp u off 64)

theorem ofNat_ofBytes_toBytes (b : Block) : BitVec.ofNat 512 (ofBytes (toBytes 64 b.toNat)) = b := by
  have h (n v : Nat) : ofBytes (toBytes n v) = v % 256 ^ n := by
    induction n generalizing v with
    | zero => rw [pow_zero, Nat.mod_one]; rfl
    | succ n ih =>
      have e : 256 ^ (n + 1) = 256 * 256 ^ n := pow_succ' _ _
      rw [toBytes, ofBytes, ih, BitVec.toNat_ofNat, e, Nat.mod_mul]
  rw [h]
  apply BitVec.eq_of_toNat_eq
  rw [BitVec.toNat_ofNat]
  have := b.isLt
  omega

/-- Two states of which one is the other but for the bytes of the scratchpad in focus, device memory and the times of lines. -/
def BytesOnly (s t : State) : Prop := ∃ B M T,
  t = { s with core := { s.core with pad := { s.core.pad with bytes := B } }, mem := M, hub := { s.hub with ts := T } }

/-- A barrier's record written is read back, and of memory its 64 bytes alone change. -/
theorem setBar_sound {s : State} {loc : BarLoc} (h : barSound s loc) (b : Block) :
    BytesOnly s (s.setBar loc b) ∧ barSound (s.setBar loc b) loc ∧ (s.setBar loc b).barAt loc = b ∧ barFrame s (s.setBar loc b) loc := by
  cases loc with
  | mem pa =>
    refine ⟨⟨s.core.pad.bytes, _, _, rfl⟩, State.weakNat_wf h .., ?_, fun a ha => State.weakNat_other _ (ha pa rfl)⟩
    have hread : (s.setBar (.mem pa) b).readNat pa 64 = b.toNat % 256 ^ 64 := State.readNat_weakNat h ..
    unfold State.barAt
    dsimp only
    rw [hread]
    have hlt := b.isLt
    rw [Nat.mod_eq_of_lt (by omega), BitVec.ofNat_toNat, BitVec.setWidth_eq]
  | raw u off =>
    obtain ⟨hwf, hrun, hsp⟩ := h
    have hset : s.setBar (.raw u off) b = s.withCore { s.core with pad := { s.core.pad with
        bytes := cellsSet s.core.pad.bytes off (toBytes 64 b.toNat) } } := padWrite_here hrun hsp ..
    have hrun' : (s.setBar (.raw u off) b).runsOn u = some (s.setBar (.raw u off) b).cur := by
      rw [hset, runsOn_withCore]
      exacts [hrun, rfl]
    have hsp' : ∀ x, (s.setBar (.raw u off) b).unitAt u = some x → x.spilled = false := by rw [hset]; exact hsp
    refine ⟨⟨_, s.mem, s.hub.ts, hset⟩, ⟨by rw [hset]; exact cellsWf_cellsSet hwf .., hrun', hsp'⟩, ?_, fun a _ => by rw [hset]; rfl⟩
    have hread := padRead_here hrun' hsp' off 64
    refine (congrArg (fun l => BitVec.ofNat 512 (ofBytes l)) (hread.trans ?_)).trans (ofNat_ofBytes_toBytes b)
    rw [hset]
    exact (congrArg (cellsAt _ off) (toBytes_length 64 _).symm).trans (cellsAt_cellsSet hwf off _)

/-! ### Completions -/

/-- Memory and the registers in focus are as they were. -/
def SameBytes (s t : State) : Prop := t.mem = s.mem ∧ t.core.arch = s.core.arch

theorem SameBytes.refl (s : State) : SameBytes s s := ⟨rfl, rfl⟩
theorem SameBytes.trans {s t u : State} (h : SameBytes s t) (k : SameBytes t u) : SameBytes s u := ⟨k.1.trans h.1, k.2.trans h.2⟩
theorem SameBytes.addDue (s : State) (xs : List Action) : SameBytes s (s.addDue xs) := ⟨rfl, rfl⟩
theorem SameBytes.withHub (s : State) (h : Hub) : SameBytes s (s.withHub h) := ⟨rfl, rfl⟩
theorem SameBytes.setAcc (s : State) (i : Nat) (a : Account) : SameBytes s (s.setAcc i a) := ⟨rfl, rfl⟩
theorem SameBytes.post (s : State) (k : Packet) : SameBytes s (s.post k) := ⟨rfl, rfl⟩

theorem SameBytes.ite {s t u : State} {p : Prop} [Decidable p] (ht : SameBytes s t) (hu : SameBytes s u) : SameBytes s (if p then t else u) := by
  split
  · exact ht
  · exact hu

theorem SameBytes.modCore (s : State) (c : Nat) {f : Core → Core} (h : ∀ x, (f x).arch = x.arch) : SameBytes s (s.modCore c f) := by
  unfold State.modCore State.setCore State.coreAt
  split
  · exact ⟨rfl, h _⟩
  · exact ⟨rfl, rfl⟩

theorem sameBytes_giveToks (s : State) (site : Nat) (pts : Word) (ts : List Tok) : SameBytes s (s.giveToks site pts ts) := by
  induction ts generalizing s with
  | nil => exact .refl s
  | cons t ts ih => exact (SameBytes.addDue s _).trans (ih _)

theorem sameBytes_borrow (s : State) (h : Handle) : SameBytes s (s.borrow h).1 := by
  unfold State.borrow
  dsimp only
  split
  · exact .refl s
  · split
    · exact (SameBytes.setAcc s ..).trans (.addDue ..)
    · exact .setAcc s ..

theorem sameBytes_setTrig (s : State) (c k : Nat) (t : Option Trigger) : SameBytes s (s.setTrig c k t) := .modCore s c fun _ => rfl

theorem sameBytes_giveHold (s : State) (site : Nat) (h : Hold) (b : Bool) (w : Word) : SameBytes s (s.giveHold site h b w) :=
  .ite (.refl s) (.addDue ..)

theorem sameBytes_modUnit (s : State) (u : Nat) (f : Uni → Uni) : SameBytes s (s.modUnit u f) := by
  unfold State.modUnit; split
  · exact ⟨rfl, rfl⟩
  · exact .refl s

theorem sameBytes_newUnit (s : State) (x : Uni) : SameBytes s (s.newUnit x).2 := by
  unfold State.newUnit
  dsimp only
  split <;> split <;> exact ⟨rfl, rfl⟩

theorem sameBytes_enqueue (s : State) (u c : Nat) (b : Bool) : SameBytes s (s.enqueue u c b) := by
  unfold State.enqueue
  refine SameBytes.trans ?_ (.addDue ..)
  refine SameBytes.trans ?_ (.modCore _ c fun _ => rfl)
  exact sameBytes_modUnit s u _

theorem sameBytes_spawnTriggered (s : State) (c : Nat) (t : Trigger) (v : Block) (x y : Word) (h : Hold) (p : Word) :
    SameBytes s (s.spawnTriggered c t v x y h p) := by
  unfold State.spawnTriggered
  exact .ite ((sameBytes_newUnit ..).trans (sameBytes_enqueue ..)) ((sameBytes_newUnit ..).trans (.addDue ..))

theorem sameBytes_spawnBarrier (s : State) (c k : Nat) (t : Trigger) (r : Block) : SameBytes s (s.spawnBarrier c k t r) := by
  refine SameBytes.trans ?_ (sameBytes_spawnTriggered ..)
  have h := sameBytes_setTrig s c k (some { t with tok := { t.tok with exp := t.held.split.1.exp }, pair := t.held.split.1.pair })
  exact .ite h (h.trans (.addDue ..))

theorem sameBytes_fireBarrier (s : State) (c k : Nat) (t : Trigger) (r : Block) : SameBytes s (s.fireBarrier c k t r) := by
  unfold State.fireBarrier
  refine .ite (.ite ?_ ?_) (sameBytes_spawnBarrier ..)
  · have h := sameBytes_borrow s t.tok.acct
    split
    all_goals rename_i e; rw [e] at h
    · exact h.trans (sameBytes_spawnBarrier ..)
    · exact h.trans ((sameBytes_setTrig ..).trans (sameBytes_giveHold ..))
    · exact h
  · have h := sameBytes_setTrig s c k (some { t with asked := t.asked ++ [r] })
    exact .ite (h.trans (.post ..)) h

/-- What a completion or an overrun sets in motion writes no byte of memory and no register in focus. -/
theorem sameBytes_barDone (s : State) (loc : BarLoc) (b : Block) (done : Bool) : SameBytes s (s.barDone loc b done) := by
  unfold State.barDone
  have h := (SameBytes.withHub s { s.hub with barToks := s.hub.barToks.filter fun t => decide (t.loc ≠ loc) }).trans
    (sameBytes_giveToks _ (s.barSite loc) (barHigh b) ((s.hub.barToks.filter fun t => decide (t.loc = loc)).map BarTok.tok))
  dsimp only
  split
  · split
    · exact h.trans (sameBytes_fireBarrier ..)
    · exact h
  · exact h

theorem trigFor_congr {s t : State} (h : ∀ c, (t.coreAt c).trigs = (s.coreAt c).trigs) (loc : BarLoc) : t.trigFor loc = s.trigFor loc := by
  have hat : t.trigAt loc = s.trigAt loc := by funext k c; unfold State.trigAt; rw [h]
  unfold State.trigFor; rw [hat]

theorem trigFor_bytesOnly {s t : State} (h : BytesOnly s t) (loc : BarLoc) : t.trigFor loc = s.trigFor loc := by
  refine trigFor_congr (fun c => ?_) loc
  obtain ⟨_, _, _, rfl⟩ := h
  unfold State.coreAt
  split <;> rfl

/-- The same record stands where only the tokens that barriers hold have changed. -/
theorem barAt_barToks {s : State} {loc : BarLoc} (h : barSound s loc) (ts : List BarTok) :
    (s.withHub { s.hub with barToks := ts }).barAt loc = s.barAt loc := by
  cases loc with
  | mem pa => rfl
  | raw u off =>
    obtain ⟨-, hrun, hsp⟩ := h
    have hrun' : (s.withHub { s.hub with barToks := ts }).runsOn u = some s.cur := hrun
    exact congrArg (fun l => BitVec.ofNat 512 (ofBytes l)) ((padRead_here hrun' hsp off 64).trans (padRead_here hrun hsp off 64).symm)

/-- A completion with no token to return and no trigger to fire. -/
theorem barDone_none {s : State} {loc : BarLoc} (b : Block) (ht : ∀ k ∈ s.hub.barToks, k.loc ≠ loc) (hf : s.trigFor loc = none) :
    s.barDone loc b true = s.withHub { s.hub with barToks := s.hub.barToks.filter fun t => decide (t.loc ≠ loc) } := by
  have hit : s.hub.barToks.filter (fun t => decide (t.loc = loc)) = [] :=
    List.filter_eq_nil_iff.2 fun k hk => by simpa using ht k hk
  have hf' : (s.withHub { s.hub with barToks := s.hub.barToks.filter fun t => decide (t.loc ≠ loc) }).trigFor loc = none :=
    (trigFor_congr (fun _ => rfl) loc).trans hf
  unfold State.barDone
  rw [hit]
  simp only [List.map_nil, State.giveToks, if_true, hf']

/-! ### POST and arrivals -/

theorem barSound_addDue {s : State} {loc : BarLoc} (h : barSound s loc) (xs : List Action) : barSound (s.addDue xs) loc ∧
    (s.addDue xs).barAt loc = s.barAt loc := by
  cases loc with
  | mem pa => exact ⟨h, rfl⟩
  | raw u off =>
    obtain ⟨hwf, hrun, hsp⟩ := h
    have hrun' : (s.addDue xs).runsOn u = some s.cur := hrun
    exact ⟨⟨hwf, hrun', hsp⟩,
      congrArg (fun l => BitVec.ofNat 512 (ofBytes l)) ((padRead_here hrun' hsp off 64).trans (padRead_here hrun hsp off 64).symm)⟩

/-- A record written after its warning is on its way. -/
theorem setBar_rz {s : State} {loc : BarLoc} (h : barSound s loc) (r b : Block) :
    let t := (s.barRz loc r).setBar loc b
    barSound t loc ∧ t.barAt loc = b ∧ barFrame s t loc ∧ t.core.arch = s.core.arch ∧ t.hub.barToks = s.hub.barToks ∧
      t.trigFor loc = s.trigFor loc := by
  obtain ⟨honly, hsound, hread, hframe⟩ := setBar_sound (barSound_addDue h (s.barWarn loc r)).1 b
  refine ⟨hsound, hread, hframe, ?_, ?_, (trigFor_bytesOnly honly loc).trans (trigFor_congr (fun _ => rfl) loc)⟩
  all_goals
    obtain ⟨_, _, _, e⟩ := honly
    unfold State.barRz
    rw [e]
    rfl

/-- POST writes the record of the rule (R259). What a completion sets in motion leaves a record in device memory; one in a scratchpad stays where
no token and no trigger wait for the completion. -/
theorem barPost_record {s : State} {loc : BarLoc} (h : barSound s loc) (n : Nat) :
    let r := s.barAt loc
    let fresh := decide (barState r ≠ 0)
    let count := (if fresh then 0 else barCount r) + n
    let rec' := barWith r count true (b2n (decide (count = 0))) (if fresh then 0#64 else barHigh r) (if fresh then 0 else barArrived r)
    count ≠ 0 ∨ (∃ pa, loc = .mem pa) ∨ ((∀ k ∈ s.hub.barToks, k.loc ≠ loc) ∧ s.trigFor loc = none) →
      (s.barPost loc n).barAt loc = rec' ∧ barFrame s (s.barPost loc n) loc ∧ (s.barPost loc n).core.arch = s.core.arch := by
  intro r fresh count rec' hcase
  obtain ⟨hsound, hread, hframe, harch, htoks, htrig⟩ := setBar_rz h r rec'
  by_cases hc : count = 0
  · obtain ⟨pa, rfl⟩ | ⟨ht, hf⟩ := hcase.resolve_left (not_not_intro hc)
    · have hpost : s.barPost (.mem pa) n = _ := if_pos hc
      obtain ⟨hmem, hregs⟩ := sameBytes_barDone ((s.barRz (.mem pa) r).setBar (.mem pa) rec') (.mem pa) rec' true
      rw [hpost]
      refine ⟨?_, fun a ha => (congrArg (cellAt · a) hmem).trans (hframe a ha), hregs.trans harch⟩
      exact (congrArg (fun m => BitVec.ofNat 512 (ofBytes (cellsAt m pa 64))) hmem).trans hread
    · have hpost : s.barPost loc n = _ := (if_pos hc).trans (barDone_none rec' (htoks ▸ ht) (htrig.trans hf))
      rw [hpost]
      exact ⟨(barAt_barToks hsound _).trans hread, hframe, harch⟩
  · have hpost : s.barPost loc n = (s.barRz loc r).setBar loc rec' := if_neg hc
    rw [hpost]
    exact ⟨hread, hframe, harch⟩

/-- Counted bytes at an open barrier that they do not complete, and at an overrun one (R232, R233). -/
theorem barArrive_record {s : State} {loc : BarLoc} (h : barSound s loc) (n : Nat) (w : Word) :
    let r := s.barAt loc
    let left := barCount r - n
    (barState r = 0 → (barPosted r = true → 0 < left) →
      barReads ((s.barArrive loc n w).barAt loc) left (barPosted r) 0 (wmax (barHigh r) w) (barArrived r + n) ∧ barFrame s (s.barArrive loc n w) loc) ∧
    (barState r = 2 →
      barReads ((s.barArrive loc n w).barAt loc) left (barPosted r) 2 (wmax (barHigh r) w) (barArrived r + n) ∧
        barFrame s (s.barArrive loc n w) loc) := by
  intro r left
  have hset (st : Nat) (hst : st < 3) (b' : Block) (hb : b' = barWith r left (barPosted r) st (wmax (barHigh r) w) (barArrived r + n))
      (harr : s.barArrive loc n w = (s.barRz loc r).setBar loc b') :
      barReads ((s.barArrive loc n w).barAt loc) left (barPosted r) st (wmax (barHigh r) w) (barArrived r + n) ∧
        barFrame s (s.barArrive loc n w) loc := by
    obtain ⟨-, hread, hframe, -⟩ := setBar_rz h r b'
    rw [harr, hread]
    exact ⟨hb ▸ barReads_barWith _ _ _ hst _ _, hframe⟩
  refine ⟨fun hopen hleft => hset 0 (by decide) _ rfl ?_, fun hover => hset 2 (by decide) _ rfl ?_⟩
  · have hnot : (barPosted r && decide (left = 0)) = false := by
      cases hp : barPosted r with
      | false => rfl
      | true => have := hleft hp; simp; omega
    refine (if_neg ?_).trans ?_
    · rintro (hne | ⟨hp, hneg⟩)
      · exact hne hopen
      · exact absurd (hleft hp) (not_lt_of_gt hneg)
    · exact hnot ▸ rfl
  · exact (if_pos (.inl (by rw [hover]; decide))).trans (if_pos hover)

/-! ### The barrier that a form names -/

theorem barAt_pops (s : State) (as : List Src) (loc : BarLoc) : (s.pops as).barAt loc = s.barAt loc :=
  barAt_withCore (x := s.core.notePops as) (by rw [notePops_eq]) (by rw [notePops_eq]) loc

theorem barSound_pops {s : State} {loc : BarLoc} (h : barSound s loc) (as : List Src) : barSound (s.pops as) loc := by
  cases loc with
  | mem pa => exact (congrArg (fun m => Memory.wf m = true) (pops_mem s as)).mpr h
  | raw u off =>
    obtain ⟨hwf, hrun, hsp⟩ := h
    have hrun' : (s.pops as).runsOn u = some s.cur := (runsOn_withCore (x := s.core.notePops as) (by rw [notePops_eq]) u).trans hrun
    exact ⟨by rw [pops_pad]; exact hwf, by rw [pops_cur]; exact hrun', by unfold State.unitAt; rw [pops_hub]; exact hsp⟩

/-- What a form that names a barrier goes on with: nothing but caches has changed, and nothing at all for a barrier in the raw region. -/
theorem barHere_ok {s : State} {as : List Src} {raw write : Bool} {x : Word} {loc : BarLoc} (h : barNamed s as raw write x loc) :
    ∃ t, (s.pops as).barHere raw write x = .ok (loc, t) ∧ CachesOnly (s.pops as) t ∧ ((∃ pa, loc = .mem pa) ∨ t = s.pops as) := by
  obtain ⟨hal, hloc⟩ := h
  have haligned : aligned 64 [x] = .ok () := aligned_ok (by simpa using hal)
  unfold State.barHere
  cases loc with
  | mem pa =>
    obtain ⟨rfl, t, ht⟩ := hloc
    refine ⟨t, ?_, cachesOnly_reach ht, .inl ⟨pa, rfl⟩⟩
    rw [if_neg Bool.false_ne_true, haligned, ht]
    rfl
  | raw u off =>
    obtain ⟨rfl, rfl, rfl, hin⟩ := hloc
    refine ⟨s.pops as, ?_, .refl _, .inr rfl⟩
    have hself : (s.pops as).core.self = s.core.self := by rw [pops_eq]; rfl
    rw [if_pos rfl, pops_decl, decide_eq_true hin, need_true, haligned, hself]
    rfl

theorem barSound_cachesOnly_mem {s t : State} {pa : Nat} (h : CachesOnly s t) (hs : barSound s (.mem pa)) : barSound t (.mem pa) := by
  obtain ⟨_, _, _, _, _, _, rfl⟩ := h; exact hs

theorem barHere_outside {s : State} (as : List Src) {raw write : Bool} {x : Word} (hraw : raw = true)
    (h : s.core.decl.rawBytes < x.toNat + 64) : (s.pops as).barHere raw write x = .error (.trap .scratchRange x) := by
  unfold State.barHere
  rw [if_pos hraw, pops_decl, decide_eq_false (by omega), need_false]
  rfl

theorem barHere_unaligned {s : State} (as : List Src) {raw write : Bool} {x : Word} (hraw : raw = true → x.toNat + 64 ≤ s.core.decl.rawBytes)
    (h : x.toNat % 64 ≠ 0) : (s.pops as).barHere raw write x = .error (.trap .align x) := by
  have haligned : aligned 64 [x] = .error (.trap .align x) := if_neg h
  unfold State.barHere
  cases raw with
  | false => rw [if_neg Bool.false_ne_true, haligned]; rfl
  | true => rw [if_pos rfl, pops_decl, decide_eq_true (hraw rfl), need_true, haligned]; rfl

theorem trigFor_pops (s : State) (as : List Src) (loc : BarLoc) : (s.pops as).trigFor loc = s.trigFor loc := by
  refine trigFor_congr (fun c => ?_) loc
  unfold State.coreAt
  rw [pops_eq]
  dsimp only
  split <;> rfl

/-- A form that names a barrier finds the record, the registers and the memory that it had before it looked. -/
theorem barHere_sound {s t : State} {as : List Src} {loc : BarLoc} (h : CachesOnly (s.pops as) t) (hloc : (∃ pa, loc = .mem pa) ∨ t = s.pops as) :
    t.barAt loc = s.barAt loc ∧ (barSound s loc → barSound t loc) ∧ t.core.arch = s.core.arch ∧ t.mem = s.mem := by
  obtain ⟨pa, rfl⟩ | rfl := hloc
  · have hsame : t.mem = s.mem ∧ t.core.arch = s.core.arch := by
      obtain ⟨_, _, _, _, _, _, rfl⟩ := h; exact ⟨pops_mem s as, pops_arch s as⟩
    refine ⟨?_, fun hs => barSound_cachesOnly_mem h (barSound_pops hs as), hsame.2, hsame.1⟩
    exact congrArg (fun m => BitVec.ofNat 512 (ofBytes (cellsAt m pa 64))) hsame.1
  · exact ⟨barAt_pops .., fun hs => barSound_pops hs as, pops_arch .., pops_mem ..⟩

/-- Settles O19: a form that names a barrier finds its record, and POST, BWAIT and an arrival set the fields of the rule in it. -/
theorem barrierResults : Obligations.BarrierResults := by
  unfold Obligations.BarrierResults
  intro s p sx a b x n loc r fresh count
  refine ⟨?post, ?traps, ?bwait, ?arrive⟩
  case post =>
    intro hp hx hn hrange hnamed hsound
    obtain ⟨t, ht, hcaches, hloc⟩ := barHere_ok hnamed
    obtain ⟨hrec, hs, harch, hmem⟩ := barHere_sound hcaches hloc
    refine ⟨(t.barPost loc n.toNat).noResult, barWith r count true (b2n (decide (count = 0))) (if fresh then 0#64 else barHigh r)
      (if fresh then 0 else barArrived r), (exec_post ..).trans (issue_ok hp ?_), ?reads, ?record⟩
    · rw [getS_pops, getS_of_readS hx, getS_pops, getS_of_readS hn]
      dsimp only [bind, Except.bind]
      rw [decide_eq_true hrange, need_true]
      dsimp only
      rw [ht]
      rfl
    case reads =>
      have h := barReads_barWith r count true (st := b2n (decide (count = 0))) (by cases decide (count = 0) <;> decide)
        (if fresh then 0#64 else barHigh r) (if fresh then 0 else barArrived r)
      have hst : b2n (decide (count = 0)) = if count = 0 then 1 else 0 := by by_cases hc : count = 0 <;> simp [hc, b2n]
      exact hst ▸ h
    case record =>
      intro hcase
      have hpost := barPost_record (hs hsound) n.toNat
      rw [hrec] at hpost
      have hwaits : ((∀ k ∈ s.hub.barToks, k.loc ≠ loc) ∧ s.trigFor loc = none) →
          (∃ pa, loc = .mem pa) ∨ ((∀ k ∈ t.hub.barToks, k.loc ≠ loc) ∧ t.trigFor loc = none) := by
        rintro ⟨htoks, htrig⟩
        refine hloc.imp_right ?_
        rintro rfl
        exact ⟨(pops_hub s _).symm ▸ htoks, (trigFor_pops s _ loc).trans htrig⟩
      obtain ⟨hread, hframe, hregs⟩ := hpost (hcase.imp_right hwaits)
      exact ⟨(barAt_withCore (s := t.barPost loc n.toNat) (x := (t.barPost loc n.toNat).noResult.core) rfl rfl loc).trans hread, fun c hc => (hframe c hc).trans (congrArg (cellAt · c) hmem), hregs.trans harch⟩
  case traps =>
    intro hp hx hn
    have run (k : Cause) (v : Word) (hk : (do
        need (decide (n.toNat ≤ 2 ^ 40)) .postRange n
        let (loc, s1) ← (s.pops [a, b]).barHere sx true x
        pure (s1.barPost loc n.toNat).noResult : Except Stop State) = .error (.trap k v)) :
        Gives (.post p sx a b) s (s.trapSlot k v) := by
      refine (exec_post ..).trans (issue_trap hp ?_)
      rw [getS_pops, getS_of_readS hx, getS_pops, getS_of_readS hn]
      exact hk
    refine ⟨fun hover => run _ _ ?_, fun hrange hraw hbad => run _ _ ?_, fun hrange hraw hal => run _ _ ?_⟩
    · rw [decide_eq_false (by omega), need_false]; rfl
    · rw [decide_eq_true hrange, need_true, barHere_outside _ hraw hbad]; rfl
    · rw [decide_eq_true hrange, need_true, barHere_unaligned _ hraw hal]; rfl
  case bwait =>
    intro hp hx hnamed
    obtain ⟨t, ht, hcaches, hloc⟩ := barHere_ok hnamed
    obtain ⟨hrec, -, harch, hmem⟩ := barHere_sound hcaches hloc
    refine ⟨fun hopen => ⟨if (s.pops [a]).core.stallFrom.isNone then (s.pops [a]).barWarn loc r else [],
      (exec_bwait ..).trans (issue_wait hp ?_)⟩, fun hover =>
      ⟨(t.withCore { t.core with pts := wmax t.core.pts (barHigh r) }).barRz loc r, (exec_bwait ..).trans (issue_ok hp ?_), ?_, harch, hmem⟩⟩
    · rw [getS_pops, getS_of_readS hx]
      dsimp only [bind, Except.bind]
      rw [ht]
      dsimp only
      rw [hrec, if_pos hopen]
    · rw [getS_pops, getS_of_readS hx]
      dsimp only [bind, Except.bind]
      rw [ht]
      dsimp only
      rw [hrec, if_neg hover]
      rfl
    · have hpts : t.core.pts = s.core.pts := by
        obtain ⟨_, _, _, _, _, _, rfl⟩ := hcaches
        rw [pops_eq]; rfl
      exact congrArg (wmax · (barHigh r)) hpts
  case arrive =>
    intro k w hsound hact left
    refine ⟨s.barArrive loc k w, ?_, barArrive_record hsound k w⟩
    exact (exec_barrierArrival s).trans (by unfold execBarrierArrival; rw [hact])

end Sys2Proof.Machine
end

section
set_option Elab.async false
/-! PUT and GET (R246, R247, R255, R268). -/

namespace Sys2Proof.Machine

/-- One state is the other but for actions made due. -/
def DueOnly (s t : State) : Prop := ∃ xs, t = s.addDue xs

theorem dueOnly_refl (s : State) : DueOnly s s := ⟨[], by unfold State.addDue; rw [List.append_nil]⟩

theorem DueOnly.ite {s t u : State} {p : Prop} [Decidable p] (ht : DueOnly s t) (hu : DueOnly s u) : DueOnly s (if p then t else u) := by
  split
  · exact ht
  · exact hu

theorem dueOnly_giveBack (s : State) (site : Nat) (h : Handle) (pkg : BitVec 16) (v : Nat) (taint : Bool) (pts : Word) :
    DueOnly s (s.giveBack site h pkg v taint pts) := ⟨_, rfl⟩

theorem dueOnly_recordRz (s : State) (c p : Nat) (r : Block) (addr : Word) : DueOnly s (s.recordRz c p r addr) := .ite ⟨_, rfl⟩ (dueOnly_refl s)

/-- The sequencer in focus with another holding. -/
def State.withHold (s : State) (h : Hold) : State := { s with core := { s.core with hold := h } }

theorem weightOf_here {s : State} (h : s.cur ≠ rangerId) : s.weightOf s.cur = s.core.hold := by
  unfold State.weightOf; rw [if_neg h, State.coreAt, if_pos rfl]

theorem setWeight_here {s : State} (h : s.cur ≠ rangerId) (k : Hold) : s.setWeight s.cur k = s.withHold k := by
  unfold State.setWeight State.modCore State.setCore State.coreAt
  rw [if_neg h, if_pos rfl, if_pos rfl]
  rfl

/-- A unit that can split gives a token and keeps its part; what a split sends home is made due (R270, R273). -/
theorem splitHere_ok {s : State} (h : CanSplit s) :
    ∃ t, s.splitHere = .ok (s.core.hold.split.2, t) ∧ DueOnly (s.withHold s.core.hold.split.1) t := by
  obtain ⟨hcur, hvalid, hexp⟩ := h
  refine ⟨_, ?_, DueOnly.ite (p := s.core.hold.splitReturn = 0) (dueOnly_refl _) (dueOnly_giveBack _ s.cur s.core.hold.acct s.core.hold.pkg
    s.core.hold.splitReturn false s.core.pts)⟩
  unfold State.splitHere
  rw [weightOf_here hcur]
  dsimp only
  rw [setWeight_here hcur]
  exact (if_neg (not_not_intro hvalid)).trans (if_neg hexp)

theorem canSplit_pops {s : State} (h : CanSplit s) (as : List Src) : CanSplit (s.pops as) := by
  rw [pops_eq]; exact h

/-- The record of a PUT or GET at an aligned offset of the raw region. -/
theorem rawRecord_ok {s : State} (as : List Src) {off : Word} (hal : off.toNat % 64 = 0) (hin : off.toNat + 64 ≤ s.core.decl.rawBytes) :
    (s.pops as).rawRecord off = .ok (BitVec.ofNat 512 (loadNat s.core.pad.bytes off.toNat 64)) := by
  unfold State.rawRecord
  rw [pops_decl, pops_pad, decide_eq_true hin, need_true, aligned_ok (by simpa using hal)]
  rfl

/-- The transfer of a PUT or GET added under the next number, after its warning. -/
theorem xferAt_addXfer {s t : State} (h : DueOnly s t) (x : Xfer) : (t.addXfer x).2.xferAt s.hub.nextXfer = some x := by
  obtain ⟨_, rfl⟩ := h
  exact NatMap.find_put_self ..

/-- A GET with its entry reserved, numbered and, unless it waits for a confirmation, started (R255). -/
def State.beginGet (s : State) (t : Xfer) : State :=
  (if t.heldGet then (s.addXfer t).2 else (s.addXfer t).2.addDue [.ringReserve s.hub.nextXfer]).noResult

theorem beginGet_frame {s t : State} (h : DueOnly s t) (x : Xfer) :
    (t.beginGet x).core.arch = s.core.arch ∧ (t.beginGet x).mem = s.mem ∧ (t.beginGet x).port = s.port ∧
      (t.beginGet x).core.nextPg = s.core.nextPg ∧ (t.beginGet x).core.hold = s.core.hold ∧ (t.beginGet x).core.q = s.core.q ∧
      (t.beginGet x).xferAt s.hub.nextXfer = some x ∧ (x.heldGet = false → Action.ringReserve s.hub.nextXfer ∈ (t.beginGet x).due) := by
  obtain ⟨_, rfl⟩ := h
  unfold State.beginGet
  cases hx : x.heldGet with
  | true => exact ⟨rfl, rfl, rfl, rfl, rfl, rfl, NatMap.find_put_self .., nofun⟩
  | false => exact ⟨rfl, rfl, rfl, rfl, rfl, rfl, NatMap.find_put_self .., fun _ => List.mem_append_right _ (List.mem_singleton_self _)⟩

/-- Settles O20: PUT splits a token and GET reserves its entry; each then numbers its transfer and starts it, or leaves it to wait. -/
theorem transferFormResults : Obligations.TransferFormResults := by
  unfold Obligations.TransferFormResults
  intro s p w d a b x y hp hx hy off r n made hal hin hvalid
  have hrec : (s.pops [a, b]).rawRecord (x + y) = .ok r := rawRecord_ok [a, b] hal hin
  refine ⟨?put, ?get⟩
  case put =>
    intro hsrc hsplit
    obtain ⟨t, ht, hdue⟩ := splitHere_ok (canSplit_pops hsplit [a, b])
    have hrz := dueOnly_recordRz t.nextPut.2 s.cur s.core.part r (x + y)
    have run : Gives (.put p a b) s
        ((((t.nextPut.2.recordRz s.cur s.core.part r (x + y)).addXfer
          { newXfer s.core.hold s.core.self s.cur s.core.part 8 t.nextPut.1 (x + y) r with tok := some s.core.hold.split.2 }).2.addDue
            [.ringReserve (t.nextPut.2.recordRz s.cur s.core.part r (x + y)).hub.nextXfer]).noResult) := by
      refine (exec_put ..).trans (issue_ok hp ?_)
      rw [getS_pops, getS_of_readS hx, getS_pops, getS_of_readS hy]
      dsimp only [bind, Except.bind]
      rw [hrec]
      dsimp only
      rw [pops_decl, hvalid, decide_eq_true hsrc, Bool.not_false, Bool.and_self, need_true]
      dsimp only
      rw [ht, pops_eq]
      rfl
    refine ⟨_, run, ?_⟩
    obtain ⟨xs, rfl⟩ := hdue
    obtain ⟨ys, hys⟩ := hrz
    rw [hys, pops_eq]
    exact ⟨⟨rfl, rfl, rfl⟩, rfl, rfl, NatMap.find_put_self .., List.mem_append_right _ (List.mem_singleton_self _)⟩
  case get =>
    intro hsrc hrem hq held
    have hneed : need (!recInvalid r (s.pops [a, b]).core.decl.rawBytes false && decide (recSrcSp r = 2) && !recRem r) .recordInvalid (x + y) =
        .ok () := by
      rw [pops_decl, hvalid, hrem, decide_eq_true hsrc]; rfl
    have hheld : (!bitAt (s.pops [a, b]).core.header 31) = held := by rw [pops_eq]
    let u := (s.pops [a, b]).nextPut.2
    cases w with
    | true =>
      have run : Gives (.get p true d a b) s
          ((u.recordRz s.cur s.core.part r (x + y)).beginGet { made with isGet := true, entry := none, heldGet := held }) := by
        refine (exec_get ..).trans (issue_ok hp ?_)
        rw [getS_pops, getS_of_readS hx, getS_pops, getS_of_readS hy]
        dsimp only [bind, Except.bind]
        rw [hrec]
        simp only [Bool.not_true, if_false, Bool.false_eq_true, hneed, if_true, hheld]
        dsimp only [pure, Except.pure, u, made]
        rw [pops_eq]
        rfl
      obtain ⟨harch, hmem, hport, hpg, hhold, hqs, hxfer, hdue⟩ := beginGet_frame (dueOnly_recordRz u s.cur s.core.part r (x + y))
        { made with isGet := true, entry := none, heldGet := held }
      have hu : u.core.q = s.core.q ∧ u.core.arch = s.core.arch ∧ u.mem = s.mem ∧ u.port = s.port ∧ u.core.nextPg = s.core.nextPg + 1 ∧
          u.core.hold = s.core.hold ∧ u.hub.nextXfer = n := by
        dsimp only [u]; rw [pops_eq]; exact ⟨rfl, rfl, rfl, rfl, rfl, rfl, rfl⟩
      obtain ⟨uq, uarch, umem, uport, upg, uhold, unext⟩ := hu
      rw [unext] at hxfer hdue
      exact ⟨_, run, ⟨harch.trans uarch, hmem.trans umem, hport.trans uport⟩, hpg.trans upg, hhold.trans uhold, hqs.trans uq, hxfer, hdue⟩
    | false =>
      let v := (u.reserve d .load none false).2
      have run : Gives (.get p false d a b) s
          ((v.recordRz s.cur s.core.part r (x + y)).beginGet { made with isGet := true, entry := some s.hub.nextEntry, heldGet := held }) := by
        refine (exec_get ..).trans (issue_ok hp ?_)
        rw [getS_pops, getS_of_readS hx, getS_pops, getS_of_readS hy]
        dsimp only [bind, Except.bind]
        rw [hrec]
        simp only [Bool.not_false, if_true, if_false, Bool.false_eq_true, needQueue_ok (hq rfl), hneed, hheld]
        dsimp only [pure, Except.pure, u, v, made]
        rw [pops_eq]
        rfl
      obtain ⟨harch, hmem, hport, hpg, hhold, hqs, hxfer, hdue⟩ := beginGet_frame (dueOnly_recordRz v s.cur s.core.part r (x + y))
        { made with isGet := true, entry := some s.hub.nextEntry, heldGet := held }
      have hv : v.core.arch = s.core.arch ∧ v.mem = s.mem ∧ v.port = s.port ∧ v.core.nextPg = s.core.nextPg + 1 ∧
          v.core.hold = s.core.hold ∧ v.hub.nextXfer = n := by
        dsimp only [v, u]; rw [pops_eq]; exact ⟨rfl, rfl, rfl, rfl, rfl, rfl⟩
      obtain ⟨varch, vmem, vport, vpg, vhold, vnext⟩ := hv
      have hqueue : (v.core.queueAt (d.setWidth 3)).entries = (s.core.queueAt (d.setWidth 3)).entries ++
          [{ freshEntry s with kind := .load }] := by
        dsimp only [v, u]; rw [pops_eq]
        exact congrArg Queue.entries ((queueAt_vput _ _ _ _).trans (if_pos rfl))
      rw [vnext] at hxfer hdue
      refine ⟨_, run, ⟨harch.trans varch, hmem.trans vmem, hport.trans vport⟩, hpg.trans vpg, hhold.trans vhold, ?_, hxfer, hdue⟩
      refine ⟨{ freshEntry s with kind := .load }, ?_, rfl, rfl, rfl, rfl⟩
      unfold Core.queueAt
      rw [hqs]
      exact hqueue

end Sys2Proof.Machine
end

section
set_option Elab.async false
/-! Control flow (R126 to R135), and waits and fences (R228, R229, R241, R254, R261, R262). -/

namespace Sys2Proof.Machine

/-! ### Control -/

/-- Settles O21: each form's operand is read, and its target noted. -/
theorem controlResults : Obligations.ControlResults := by
  unfold Obligations.ControlResults
  intro s p d a x l hp pc jumps
  refine ⟨exec_nop s, (exec_br ..).trans (issue_ok hp rfl), (exec_ret ..).trans (issue_ok hp rfl), ?call, ?operand⟩
  case call =>
    intro hfree
    refine (exec_call ..).trans (issue_ok hp ?_)
    rw [resultS_pops hfree]
    rfl
  case operand =>
    intro hx
    have hread : (s.pops [a]).getS a = .ok x := by rw [getS_pops, getS_of_readS hx]
    refine ⟨?jr, ?last, ?push, ?leave⟩
    case jr =>
      refine (exec_jr ..).trans (issue_ok hp ?_)
      rw [hread]
      rfl
    case last =>
      intro hneg
      refine (exec_loop ..).trans (issue_ok hp ?_)
      rw [hread]
      dsimp only [bind, Except.bind]
      rw [decide_eq_false (not_lt_of_ge hneg), pops_arch]
      rfl
    case push =>
      intro hpos hroom hlast
      have hfresh : decide (s.core.arch.loops.getLast?.map LoopEntry.last = some pc) = false := by
        refine decide_eq_false fun h => ?_
        obtain ⟨e, he, hpc⟩ := Option.map_eq_some_iff.1 h
        exact hlast e he hpc
      refine (exec_loop ..).trans (issue_ok hp ?_)
      rw [hread]
      dsimp only [bind, Except.bind]
      rw [decide_eq_true hpos, pops_arch, hfresh, decide_eq_true hroom]
      rfl
    case leave =>
      intro hone hmany e he
      refine (exec_leave ..).trans (issue_ok hp ?_)
      rw [hread]
      dsimp only [bind, Except.bind]
      rw [decide_eq_true hone, pops_arch, decide_eq_true hmany]
      have hout : s.core.arch.loops.getD (s.core.arch.loops.length - x.toNat) { start := 0#64, last := 0#64, remaining := 0#64 } = e := by
        rw [List.getD_eq_getElem?_getD, he]; rfl
      rw [hout]
      rfl

/-! ### Weak times -/

theorem le_wmax_left (a b : Word) : a.toNat ≤ (wmax a b).toNat := by
  unfold wmax; split <;> omega

theorem le_wmax_right (a b : Word) : b.toNat ≤ (wmax a b).toNat := by
  unfold wmax; split <;> omega

/-- The times of the weak writes of the sequencer in focus rise, colour by colour. -/
def WeakRises (s t : State) : Prop := ∀ k, (vget 0#64 s.core.weak k).toNat ≤ (vget 0#64 t.core.weak k).toNat

theorem WeakRises.of_core {s t : State} (h : t.core.weak = s.core.weak) : WeakRises s t := fun _ => by rw [h]

theorem WeakRises.trans {s t u : State} (h : WeakRises s t) (k : WeakRises t u) : WeakRises s u := fun j => (h j).trans (k j)

theorem weakRises_modCore (s : State) (c : Nat) {f : Core → Core}
    (h : ∀ x k, (vget 0#64 x.weak k).toNat ≤ (vget 0#64 (f x).weak k).toNat) : WeakRises s (s.modCore c f) := by
  unfold State.modCore State.setCore State.coreAt
  split
  · exact h s.core
  · exact .of_core rfl

theorem weakRises_modPad (s : State) (u : Nat) (f : Spad → Spad) : WeakRises s (s.modPad u f) := by
  unfold State.modPad
  split
  · exact weakRises_modCore _ _ fun _ _ => Nat.le_refl _
  · unfold State.modUnit
    split <;> exact .of_core rfl

theorem weakRises_raiseWeak (s : State) (u j : Nat) (w : Word) : WeakRises s (s.raiseWeak u j w) := by
  unfold State.raiseWeak State.modEng
  split
  · refine weakRises_modCore _ _ fun x k => ?_
    have hweak : vget 0#64 x.engines.weak k = vget 0#64 x.weak k := rfl
    dsimp only
    by_cases hj : j < 8
    · rw [vget_vput _ _ _ hj, ← hweak]
      split
      · rename_i e; rw [e]; exact le_wmax_left ..
      · exact Nat.le_refl _
    · rw [vput_past _ _ (by omega)]; exact Nat.le_refl _
  · split
    · exact .of_core rfl
    · dsimp only
      simp only [engPieces_weak, ite_self, List.isEmpty_nil, if_true]
      exact .of_core rfl

theorem weakRises_raiseAll {p : Nat → Prop} [DecidablePred p] (s : State) (u : Nat) (w : Word) (ks : List Nat) :
    WeakRises s (ks.foldl (fun s k => if p k then s.raiseWeak u k w else s) s) := by
  induction ks generalizing s with
  | nil => exact .of_core rfl
  | cons k ks ih =>
    rw [List.foldl_cons]
    split
    · exact (weakRises_raiseWeak s u k w).trans (ih _)
    · exact ih s

theorem weakRises_writeBack (s : State) (u : Nat) (cs : BitVec 8) (ls : List (Nat × StashLine)) : WeakRises s (s.writeBack u cs ls) := by
  induction ls generalizing s with
  | nil => exact .of_core rfl
  | cons kl ls ih =>
    obtain ⟨k, l⟩ := kl
    rw [State.writeBack]
    dsimp only
    split
    · exact ih s
    · have htouch {b : Bool} {pa j : Nat} {t : Word} {ln : Nat} {ts : LineTs} : WeakRises s ((s.touch b pa j true t).setTs ln ts) :=
        .of_core (congrArg Core.weak (touch_core ..))
      refine WeakRises.trans ?_ (ih _)
      exact (htouch.trans (weakRises_modPad _ _ _)).trans ((weakRises_raiseAll _ _ _ _).trans (.of_core rfl))

/-- The top of some colours' times lies at or above each of them (R228). -/
theorem le_weakTop (x : Core) {m : BitVec 8} {k : Nat} (hk : k < 8) (hm : m.getLsbD k = true) :
    (vget 0#64 x.weak k).toNat ≤ (x.weakTop m).toNat := by
  have hfold (ks : List Nat) (t : Word) :
      t.toNat ≤ (ks.foldl (fun t k => if m.getLsbD k then wmax t (vget 0#64 x.weak k) else t) t).toNat ∧
        (k ∈ ks → (vget 0#64 x.weak k).toNat ≤ (ks.foldl (fun t k => if m.getLsbD k then wmax t (vget 0#64 x.weak k) else t) t).toNat) := by
    induction ks generalizing t with
    | nil => exact ⟨Nat.le_refl _, nofun⟩
    | cons j ks ih =>
      rw [List.foldl_cons]
      obtain ⟨hrest, hmem⟩ := ih (if m.getLsbD j then wmax t (vget 0#64 x.weak j) else t)
      refine ⟨Nat.le_trans ?_ hrest, fun h => ?_⟩
      · split
        · exact le_wmax_left ..
        · exact Nat.le_refl _
      · obtain rfl | h := List.mem_cons.1 h
        · rw [if_pos hm] at hrest ⊢
          exact (le_wmax_right ..).trans hrest
        · exact hmem h
  refine (hfold (upFrom 0 8) 0#64).2 ?_
  rw [upFrom_zero]
  exact List.mem_range.2 hk

/-! ### Waits and fences -/

/-- The order that a fence or a CWAIT gives the weak writes of some colours (R202, R228): logical time is past every one of them. -/
theorem afterFence_here (s : State) (m : BitVec 8) :
    (s.afterFence s.cur m).core.arch = s.core.arch ∧ s.core.pts.toNat ≤ (s.afterFence s.cur m).core.pts.toNat ∧
      (∀ k < 8, m.getLsbD k = true → (vget 0#64 s.core.weak k).toNat ≤ (s.afterFence s.cur m).core.pts.toNat) ∧
      (s.afterFence s.cur m).cur = s.cur := by
  have hrise := weakRises_writeBack s s.core.self m s.core.pad.lines
  have hhere : s.coreAt s.cur = s.core := if_pos rfl
  obtain ⟨harch, hpts, hcur⟩ : (s.writeBack s.core.self m s.core.pad.lines).core.arch = s.core.arch ∧
      (s.writeBack s.core.self m s.core.pad.lines).core.pts = s.core.pts ∧ (s.writeBack s.core.self m s.core.pad.lines).cur = s.cur := by
    obtain ⟨_, _, _, _, _, _, h⟩ := (writeBackOnly_writeBack s s.core.self m s.core.pad.lines).1
    rw [h]
    exact ⟨rfl, rfl, rfl⟩
  generalize hw : s.writeBack s.core.self m s.core.pad.lines = w at *
  have hafter : s.afterFence s.cur m = { w with core := { w.core with pts := wmax w.core.pts (w.core.weakTop m) } } := by
    unfold State.afterFence State.modCore State.setCore
    rw [hhere]
    dsimp only
    rw [hw, if_pos hcur.symm, State.coreAt, if_pos hcur.symm]
  rw [hafter]
  refine ⟨harch, hpts ▸ le_wmax_left .., fun k hk hm => ?_, hcur⟩
  exact ((hrise k).trans (le_weakTop w.core hk hm)).trans (le_wmax_right ..)

/-- Settles O22: each wait's condition is the one that its form tests. -/
theorem waitResults : Obligations.WaitResults := by
  unfold Obligations.WaitResults
  intro s p q a m n hp hn
  have hread : (s.pops [a]).getS a = .ok n := by rw [getS_pops, getS_of_readS hn]
  have hself : ((s.pops [a]).coreAt (s.pops [a]).cur).self = (s.coreAt s.cur).self := by
    unfold State.coreAt; rw [if_pos rfl, if_pos rfl, pops_eq]; rfl
  have hmine : (s.pops [a]).xfersOf (s.pops [a]).cur = s.xfersOf s.cur := by
    unfold State.xfersOf; rw [hself, pops_hub, pops_cur]
  have hld : (s.pops [a]).outldAll = s.outldAll := by unfold State.outldAll State.outld; rw [hmine, pops_eq]
  have hst : (s.pops [a]).outstAll = s.outstAll := by unfold State.outstAll State.outst; rw [hmine, pops_eq]
  have huntaken : (s.pops [a]).core.untaken = s.core.untaken := by rw [pops_eq]; rfl
  refine ⟨?qwait, ?cpywait, ?loads, ?stores, ?order, ?fence, ?complete⟩
  case qwait =>
    intro hq h16 hready
    refine (exec_qwait ..).trans (issue_ok hp ?_)
    have hr : ((s.pops [a]).core.queueAt q) = s.core.queueAt q := by rw [pops_eq]; rfl
    rw [hread]
    dsimp only [bind, Except.bind]
    rw [pops_hasQueue, hq, need_true, decide_eq_true h16]
    exact if_pos (hr ▸ hready)
  case cpywait =>
    intro hwaited
    have hc : (s.pops [a]).core.chans = s.core.chans := by rw [pops_eq]
    refine (exec_cpywait ..).trans (issue_ok hp ?_)
    rw [hread]
    exact if_pos (hc ▸ hwaited)
  case loads =>
    intro hle hun
    refine (exec_cwait ..).trans (issue_ok hp ?_)
    rw [hread]
    exact (if_neg (by simp [hld, huntaken, hun, hle])).trans rfl
  case stores =>
    intro hle hun hne
    refine (exec_cwait ..).trans (issue_ok hp ?_)
    rw [hread]
    refine (if_neg (by simp [hst, huntaken, hun, hle])).trans (if_neg ?_)
    simp [hne]
  case order =>
    intro h0 hun hz
    obtain ⟨harch, hpts, hweak, -⟩ := afterFence_here (s.pops [a]) 0xFF#8
    refine ⟨(s.pops [a]).afterFence (s.pops [a]).cur 0xFF#8, (exec_cwait ..).trans (issue_ok hp ?_), harch.trans (pops_arch ..), ?_, fun k hk => ?_⟩
    · rw [hread]
      refine (if_neg (by simp [hst, huntaken, hun, h0])).trans (if_pos ?_)
      simp [hz]
    · exact (congrArg BitVec.toNat (by rw [pops_eq])).trans_le hpts
    · refine (congrArg BitVec.toNat (by rw [pops_eq])).trans_le (hweak k hk ?_)
      interval_cases k <;> rfl
  case fence =>
    intro hmode
    have hneed : need (decide (s.core.mode = 0#2)) .fenceUntracked = .ok () := by rw [decide_eq_true hmode, need_true]
    by_cases hm : m = 0#8
    · refine ⟨s, (exec_fence ..).trans (issue_ok hp ?_), rfl, fun _ => rfl, fun h => absurd hm h⟩
      exact (congrArg (· >>= _) hneed).trans (if_pos hm)
    · refine ⟨{ s with core := { s.core with fence := some (m, (s.hub.xfers.filter fun t => decide (t.2.unit = s.core.self) && t.2.live &&
        m.getLsbD (recColour t.2.record)).map (·.1)) } }, (exec_fence ..).trans (issue_ok hp ?_), rfl, fun h => absurd h hm, fun _ => ⟨_, rfl, ?_⟩⟩
      · exact (congrArg (· >>= _) hneed).trans (if_neg hm)
      · intro e he hu hl hc
        refine List.mem_map_of_mem (List.mem_filter.2 ⟨he, ?_⟩)
        simp [hu, hl, hc]
  case complete =>
    intro hact ids hfence hids hun hsix hgl
    obtain ⟨harch, -, hweak, hcur⟩ := afterFence_here s m
    have hopen : (ids.any fun i => match s.xferAt i with
        | some t => t.live && m.getLsbD (recColour t.record)
        | none => false) = false := by
      refine List.any_eq_false.2 fun i hi => ?_
      cases hx : s.xferAt i with
      | none => simp
      | some x =>
        cases hlive : x.live with
        | false => simp [hlive]
        | true => simp [hlive, hids i hi x hx hlive]
    have hsparse : (m.getLsbD 0 && (s.core.six.run.isSome || s.core.six.shadow.isSome)) = false := by
      cases h0 : m.getLsbD 0 with
      | false => rfl
      | true => obtain ⟨hr, hs⟩ := hsix h0; rw [hr, hs]; rfl
    have hcirc : (s.core.gl.toList.any fun h => h.holdsFence m) = false := by
      refine List.any_eq_false.2 fun h hh => ?_
      unfold GlHandle.holdsFence
      cases hc : m.getLsbD h.colour with
      | false => simp
      | true => simp [hgl h hh hc]
    have hhere : s.coreAt s.cur = s.core := if_pos rfl
    have hdone : s.completeFence s.cur = (s.afterFence s.cur m).modCore s.cur fun y => { y with fence := none } := by
      unfold State.completeFence
      rw [hhere]
      dsimp only
      rw [hfence]
      dsimp only
      refine if_neg (ne_true_of_eq_false ?_)
      exact Bool.or_eq_false_iff.2 ⟨Bool.or_eq_false_iff.2 ⟨Bool.or_eq_false_iff.2 ⟨hopen, hun⟩, hsparse⟩, hcirc⟩
    refine ⟨s.completeFence s.cur, (exec_fenceComplete s).trans (by unfold execFenceComplete; rw [hact]), ?_⟩
    rw [hdone]
    unfold State.modCore State.setCore State.coreAt
    rw [hcur, if_pos rfl, if_pos rfl]
    exact ⟨rfl, harch, hweak⟩

end Sys2Proof.Machine
end

section
set_option Elab.async false
/-! SPAWN (R296, R297). -/

namespace Sys2Proof.Machine

/-! ### A form that split a token -/

/-- What a form of work finds once it has read its operands and split a token: noted pops, translation caches, the holding and actions made due
are all that differ. -/
def SplitFrom (s t : State) : Prop := ∃ P L U O D W E xs,
  t = ((({ s with core := { s.core with popped := P } }).withCaches L U O D W E).withHold s.core.hold.split.1).addDue xs

theorem SplitFrom.addDue {s t : State} (h : SplitFrom s t) (ys : List Action) : SplitFrom s (t.addDue ys) := by
  obtain ⟨P, L, U, O, D, W, E, xs, rfl⟩ := h
  exact ⟨P, L, U, O, D, W, E, xs ++ ys, congrArg (fun l => State.mk _ _ _ _ _ _ _ _ _ l _ _) (List.append_assoc ..)⟩

theorem SplitFrom.ite {s t u : State} {p : Prop} [Decidable p] (ht : SplitFrom s t) (hu : SplitFrom s u) : SplitFrom s (if p then t else u) := by
  split
  · exact ht
  · exact hu

/-- The split of a unit that can split, after it has translated. -/
theorem splitHere_reached {s u : State} {as : List Src} (h : CanSplit s) (hu : CachesOnly (s.pops as) u) :
    ∃ t, u.splitHere = .ok (s.core.hold.split.2, t) ∧ SplitFrom s t := by
  obtain ⟨L, U, O, D, W, E, rfl⟩ := hu
  rw [pops_eq]
  have hcan : CanSplit (({ s with core := { s.core with popped := (s.core.notePops as).popped } } : State).withCaches L U O D W E) := h
  obtain ⟨t, ht, xs, rfl⟩ := splitHere_ok hcan
  exact ⟨_, ht, _, L, U, O, D, W, E, xs, rfl⟩

/-- The same sequencer, memory and host port. -/
def SameCore (s t : State) : Prop := t.core = s.core ∧ t.mem = s.mem ∧ t.port = s.port

theorem workFrame_split {s t u : State} (h : SplitFrom s t) (hu : SameCore t u) :
    workFrame s u ∧ u.core.hold = s.core.hold.split.1 ∧ u.core.q = s.core.q ∧ u.core.pts = s.core.pts := by
  obtain ⟨hcore, hmem, hport⟩ := hu
  unfold workFrame
  rw [hcore, hmem, hport]
  obtain ⟨_, _, _, _, _, _, _, _, rfl⟩ := h
  exact ⟨⟨rfl, rfl, rfl⟩, rfl, rfl, rfl⟩

/-! ### The entry of an answer -/

/-- The answer of a form of work takes its place at the queue's tail, and of the rest only what is due grows (R203, R293). -/
theorem entry_work {s : State} (w : Bool) (d : BitVec 6) (v : Word) :
    let t := s.entry w d v
    t.core.arch = s.core.arch ∧ t.core.hold = s.core.hold ∧ t.mem = s.mem ∧ t.port = s.port ∧ workEntry s t w d v ∧
      t.hub.accounts = s.hub.accounts ∧ t.hub.units = s.hub.units ∧ (∀ a ∈ s.due, a ∈ t.due) := by
  cases w with
  | true => exact ⟨rfl, rfl, rfl, rfl, rfl, rfl, rfl, fun _ h => h⟩
  | false =>
    refine ⟨rfl, rfl, rfl, rfl, ⟨_, congrArg Queue.entries ((queueAt_vput _ _ _ _).trans (if_pos rfl)), rfl, ?_⟩, rfl, rfl,
      fun _ h => List.mem_append_left _ h⟩
    dsimp only [Option.map_some]
    rw [List.map_map]
    rfl

theorem workEntry_congr {s u t : State} {w : Bool} {d : BitVec 6} {v : Word} (h : u.core.q = s.core.q) (ht : workEntry u t w d v) :
    workEntry s t w d v := by
  unfold workEntry Core.queueAt at ht ⊢
  rw [h] at ht
  exact ht

/-- An answer given by a form that split a token. -/
theorem entry_split {s t u : State} (h : SplitFrom s t) (hu : SameCore t u) (w : Bool) (d : BitVec 6) (v : Word) :
    workFrame s (u.entry w d v) ∧ (u.entry w d v).core.hold = s.core.hold.split.1 ∧ workEntry s (u.entry w d v) w d v := by
  obtain ⟨⟨harch, hmem, hport⟩, hhold, hq, -⟩ := workFrame_split h hu
  obtain ⟨earch, ehold, emem, eport, eentry, -⟩ := entry_work (s := u) w d v
  exact ⟨⟨earch.trans harch, emem.trans hmem, eport.trans hport⟩, ehold.trans hhold, workEntry_congr hq eentry⟩

/-! ### What the tables say, as the form finds them -/

/-- The rows that admission counts on are the power part's alone (R372, R376). -/
theorem admitRows_congr {s t : State} (h : t.power = s.power) (c : Nat) : t.admitRows c = s.admitRows c := by
  have hup (k lo n : Nat) : t.rowsUpTo c k lo n = s.rowsUpTo c k lo n := by
    induction n generalizing lo with
    | zero => rfl
    | succ n ih => unfold State.rowsUpTo State.floorOf; rw [ih, h]
  unfold State.admitRows State.capRows State.capRowsAt State.stepOf State.opOf
  simp only [hup, h]

section
variable {s t : State} (h : SplitFrom s t)
include h

theorem accAt_split (i : Nat) : t.accAt i = s.accAt i := by obtain ⟨_, _, _, _, _, _, _, _, rfl⟩ := h; rfl
theorem accounts_split : t.hub.accounts = s.hub.accounts := by obtain ⟨_, _, _, _, _, _, _, _, rfl⟩ := h; rfl
theorem nextUnit_split : t.hub.nextUnit = s.hub.nextUnit := by obtain ⟨_, _, _, _, _, _, _, _, rfl⟩ := h; rfl
theorem unitTable_split (p : Nat) : t.unitTable p = s.unitTable p := by obtain ⟨_, _, _, _, _, _, _, _, rfl⟩ := h; rfl
theorem freeId_split (p : Nat) : t.freeId p = s.freeId p := by obtain ⟨_, _, _, _, _, _, _, _, rfl⟩ := h; rfl
theorem descRefused_split (p : Nat) (r : Block) (unit : Bool) : t.descRefused p r unit = s.descRefused p r unit := by
  obtain ⟨_, _, _, _, _, _, _, _, rfl⟩ := h; rfl
theorem partAt_split (p : Nat) : t.partAt p = s.partAt p := by obtain ⟨_, _, _, _, _, _, _, _, rfl⟩ := h; rfl
theorem launchInfo_split (p : Nat) (r : Block) (pts : Word) : t.launchInfo p r pts = s.launchInfo p r pts := by
  simp only [State.launchInfo, unitTable_split h, partAt_split h]
theorem hasCapacity_split (p place pin rows : Nat) : t.hasCapacity p place pin rows = s.hasCapacity p place pin rows := by
  have hrows (c : Nat) : t.admitRows c = s.admitRows c := admitRows_congr (by obtain ⟨_, _, _, _, _, _, _, _, rfl⟩ := h; rfl) c
  unfold State.hasCapacity State.eligible
  simp only [hrows, partAt_split h]

end

/-- A descriptor's warning leaves a form where it was. -/
theorem splitFrom_descRz {s t : State} (h : SplitFrom s t) (r : Block) (p : Nat) :
    SplitFrom s (if descRz r then t.event .engineRz 5 0 (some p) else t) := .ite (h.addDue _) h

/-- The state of an account just made in a partition under a parent's token (R269, R283). -/
def newLaunchAcc (s : State) (p n : Nat) (tok : Tok) (r : Block) (pts : Word) : Account :=
  { st := .opn, taint := false, npred := 0, preds := [], launch := some (s.launchInfo p r pts), out := 2 ^ 127, level := .launch, part := p
    gen := (s.accAt n).gen, parentV := true, pexp := tok.exp, parent := tok.acct, parentPkg := tok.pkg }

theorem accAt_newLaunch (u s : State) (p n : Nat) (tok : Tok) (r : Block) (pts : Word) :
    (u.setAcc n (newLaunchAcc s p n tok r pts)).accAt n = newLaunchAcc s p n tok r pts := by
  have hout : (newLaunchAcc s p n tok r pts).out ≠ 0 := (by decide : 2 ^ 127 ≠ 0)
  rw [State.accAt_setAcc_of_ne fun e => hout (congrArg Account.out e), if_pos rfl]

/-- A handle carries its account's generation (R266). -/
theorem accHandle_congr (i : Nat) {a b : Account} (h : a.gen = b.gen) : accHandle i a = accHandle i b := by
  unfold accHandle; rw [h]

/-- A refused descriptor: its cause, and the token goes home (R297). -/
theorem makeLaunch_refused {s t : State} (h : SplitFrom s t) {p : Nat} {r : Block} {c : Cause} (hc : s.descRefused p r false = some c) (tok : Tok)
    (pts : Word) :
    ∃ u, SplitFrom s u ∧ t.makeLaunch p tok [] pts r = (.error c, u.tokenHome tok.acct tok.pkg tok.exp) := by
  have hrz := splitFrom_descRz h r p
  refine ⟨_, hrz, ?_⟩
  unfold State.makeLaunch
  dsimp only
  rw [descRefused_split hrz, hc]

/-- A launch with capacity and an account to take (R269, R291). -/
theorem makeLaunch_ok {s t : State} (h : SplitFrom s t) {p n : Nat} {r : Block} (hok : s.descRefused p r false = none) (hn : s.freeId p = some n)
    (hroom : s.hasCapacity p (descPlace r) (descPin r) ((s.unitTable p).getD (descUnit r) {}).rows = true) (tok : Tok) (pts : Word) :
    ∃ u, SplitFrom s u ∧ t.makeLaunch p tok [] pts r =
      (.ok (accHandle n (s.accAt n)), (u.setAcc n (newLaunchAcc s p n tok r pts)).addDue (placers n)) := by
  have hrz := splitFrom_descRz h r p
  refine ⟨_, hrz, ?_⟩
  unfold State.makeLaunch
  dsimp only
  generalize (if descRz r = true then t.event .engineRz 5 0 (some p) else t) = u at hrz ⊢
  have hcap : u.hasCapacity p (u.launchInfo p r pts).place (u.launchInfo p r pts).pin (u.launchRows p (u.launchInfo p r pts)) = true := by
    unfold State.launchRows
    rw [hasCapacity_split hrz, launchInfo_split hrz, unitTable_split hrz]
    exact hroom
  have hnone : u.predsOf [] = ([], false, false) := rfl
  have hnew (a : Account) : u.newAcc p .launch (some (tok.acct, tok.pkg, tok.exp)) a = some (n, u.setAcc n
      { a with out := 2 ^ 127, level := .launch, part := p, gen := (s.accAt n).gen, parentV := true, pexp := tok.exp, parent := tok.acct,
               parentPkg := tok.pkg }) := by
    unfold State.newAcc
    rw [freeId_split hrz, hn, ← accAt_split hrz]
    rfl
  rw [descRefused_split hrz, hok]
  dsimp only
  rw [hcap, hnone]
  dsimp only
  rw [hnew]
  dsimp only
  rw [launchInfo_split hrz]
  refine (if_neg Bool.false_ne_true).trans ((if_neg AccSt.noConfusion).trans (if_pos rfl |>.trans ?_))
  exact Prod.ext (congrArg Except.ok (accHandle_congr n ((congrArg Account.gen (accAt_newLaunch u s p n tok r pts)).trans rfl))) rfl

theorem makeLaunch_noAccount {s t : State} (h : SplitFrom s t) {p : Nat} {r : Block} (hok : s.descRefused p r false = none)
    (hn : s.freeId p = none) (tok : Tok) (pts : Word) :
    ∃ u, SplitFrom s u ∧ t.makeLaunch p tok [] pts r = (.error .noAccount, u.tokenHome tok.acct tok.pkg tok.exp) := by
  have hrz := splitFrom_descRz h r p
  refine ⟨_, hrz, ?_⟩
  unfold State.makeLaunch State.newAcc
  dsimp only
  rw [descRefused_split hrz, hok, freeId_split hrz, hn]
  rfl

theorem makeUnit_refused {s t : State} (h : SplitFrom s t) {p : Nat} {r : Block} {c : Cause} (hc : s.descRefused p r true = some c) (tok : Tok)
    (pts : Word) :
    ∃ u, SplitFrom s u ∧ t.makeUnit p tok pts r = (.error c, u.tokenHome tok.acct tok.pkg tok.exp) := by
  have hrz := splitFrom_descRz h r p
  refine ⟨_, hrz, ?_⟩
  unfold State.makeUnit
  dsimp only
  rw [descRefused_split hrz, hc]

/-- A new unit takes the next number; no sequencer and no memory changes (R284). -/
theorem newUnit_spec (s : State) (x : Uni) :
    (s.newUnit x).1 = s.hub.nextUnit ∧ SameCore s (s.newUnit x).2 ∧ (s.newUnit x).2.unitAt s.hub.nextUnit = some x := by
  have hput := NatMap.find_put_self s.hub.nextUnit x s.hub.units
  unfold State.newUnit
  dsimp only
  refine ⟨rfl, ?_, ?_⟩ <;> split <;> split <;> first | exact ⟨rfl, rfl, rfl⟩ | exact hput

/-- The unit of a descriptor, with its slot (R296). -/
def unitMade (s u : State) (p : Nat) (tok : Tok) (pts : Word) (r : Block) : Uni :=
  { index := descUnit r, part := p, decl := (s.unitTable p).getD (descUnit r) {}, hold := Tok.hold tok, prio := descPrio r,
    spot := { place := descPlace r, pin := descPin r, salt := 0#64, wait := false }, args := some (descArgs r), pts := pts
    evac := match (if tok.pkg = u.fabric.num then u.launchOf tok.acct else none) with
      | some l => u.freeExtra l p
      | none => 0#64 }

/-- A unit with capacity, made outside a launch (R296). -/
theorem makeUnit_ok {s t : State} (h : SplitFrom s t) {p : Nat} {r : Block} (hok : s.descRefused p r true = none)
    (hroom : s.hasCapacity p (descPlace r) (descPin r) ((s.unitTable p).getD (descUnit r) {}).rows = true) (tok : Tok) (pts : Word) :
    ∃ u x, SplitFrom s u ∧ x.index = descUnit r ∧ x.part = p ∧ x.hold = Tok.hold tok ∧ x.prio = descPrio r ∧ x.st = .created ∧
      x.args = some (descArgs r) ∧
      t.makeUnit p tok pts r = (.ok (), (u.newUnit x).2.addDue [.unitPlace (16384 + s.hub.nextUnit) 0]) := by
  have hrz := splitFrom_descRz h r p
  unfold State.makeUnit
  dsimp only
  generalize (if descRz r = true then t.event .engineRz 5 0 (some p) else t) = u at hrz ⊢
  rw [descRefused_split hrz, hok, unitTable_split hrz, hasCapacity_split hrz, hroom]
  refine ⟨u, unitMade s u p tok pts r, hrz, rfl, rfl, rfl, rfl, rfl, rfl, ?_⟩
  rw [← nextUnit_split hrz, ← (newUnit_spec u _).1]
  exact if_neg fun e => e.1 rfl

/-! ### SPAWN -/

/-- A unit that can split has weight to split (R357). -/
theorem needWeight_ok {s : State} (h : CanSplit s) (as : List Src) : (s.pops as).needWeight = .ok () := by
  obtain ⟨hcur, hvalid, -⟩ := h
  unfold State.needWeight
  rw [pops_cur, if_neg hcur, pops_eq]
  exact (congrArg (need · .weightNone) hvalid).trans rfl

/-- SPAWN comes to its launch or its unit with the descriptor read and a token split. -/
theorem spawn_split {s : State} {as : List Src} {w : Bool} {d : BitVec 6} {x k : Word} {pa : Nat}
    (hq : w = false → s.core.hasQueue (d.setWidth 3) = true) (hal : x.toNat % 64 = 0) (hr : Reaches s as false [x] [pa]) (hs : CanSplit s)
    (hk : k.toNat ≤ 1) :
    let r : Block := BitVec.ofNat 512 (s.readNat pa 64)
    ∃ t, SplitFrom s t ∧ (s.pops as).spawn w d x k =
      if k = 0#64 then .ok ((t.makeLaunch s.core.part s.core.hold.split.2 [] s.core.pts r).2.entry w d
        (spawnEntry (t.makeLaunch s.core.part s.core.hold.split.2 [] s.core.pts r).1))
      else .ok ((t.makeUnit s.core.part s.core.hold.split.2 s.core.pts r).2.entry w d
        (spawnEntry ((t.makeUnit s.core.part s.core.hold.split.2 s.core.pts r).1.map fun _ => s.core.hold.acct))) := by
  intro r
  obtain ⟨u, hu⟩ := hr
  have hcur := hs.1
  obtain ⟨t, ht, hsplit⟩ := splitHere_reached hs (cachesOnly_reach hu)
  have hblock : (s.pops as).blockAt x = .ok (r, u) := by
    unfold State.blockAt
    rw [aligned_ok (by simpa using hal), hu]
    dsimp only [bind, Except.bind, pure, Except.pure]
    have hmem : u.mem = s.mem := by obtain ⟨_, _, _, _, _, _, rfl⟩ := cachesOnly_reach hu; exact pops_mem s as
    unfold State.readNat
    rw [hmem]
    rfl
  have hneed : need (decide (k.toNat ≤ 1) && !(decide ((s.pops as).cur = rangerId) && decide (k = 1#64))) .spawnInvalid = .ok () := by
    rw [pops_cur, decide_eq_true hk, decide_eq_false hcur, Bool.false_and, Bool.not_false, Bool.and_self, need_true]
  have hweight : (s.pops as).needWeight = .ok () := needWeight_ok hs as
  have hhere : u.cur ≠ rangerId ∧ u.holdHere = s.core.hold ∧ u.partHere = s.core.part := by
    have hu' : u.cur = s.cur ∧ u.core.hold = s.core.hold ∧ u.core.part = s.core.part := by
      obtain ⟨_, _, _, _, _, _, rfl⟩ := cachesOnly_reach hu
      rw [pops_eq]; exact ⟨rfl, rfl, rfl⟩
    obtain ⟨huc, huh, hup⟩ := hu'
    have hne : u.cur ≠ rangerId := huc ▸ hcur
    exact ⟨hne, (weightOf_here hne).trans huh, (if_neg hne).trans hup⟩
  obtain ⟨-, hhold, hpart⟩ := hhere
  have hpts : t.core.pts = s.core.pts := (workFrame_split hsplit ⟨rfl, rfl, rfl⟩).2.2.2
  refine ⟨t, hsplit, ?_⟩
  have hrun : (s.pops as).spawn w d x k = (do
      let (t, s2) ← u.splitHere
      if k = 0#64 then
        let (h, s3) := s2.makeLaunch u.partHere t [] s2.core.pts r
        pure (s3.entry w d (spawnEntry h))
      else
        let (h, s3) := s2.makeUnit u.partHere t s2.core.pts r
        pure (s3.entry w d (spawnEntry (h.map fun _ => u.holdHere.acct)))) := by
    unfold State.spawn
    rw [hneed, hweight, hblock]
    cases w with
    | true => rfl
    | false => rw [needQueue_ok (hq rfl) as]; rfl
  rw [hrun, ht, hhold, hpart]
  dsimp only [bind, Except.bind]
  rw [hpts]
  rfl

/-- The two rows of SPAWN read their operands and do the same. -/
theorem gives_spawn {s t : State} {i : Instr} {p : BitVec 3} {w : Bool} {d : BitVec 6} {a b : Src} {x k : Word}
    (hi : i = .spawnLaunch p w d a b ∨ i = .spawnUnit p w d a b) (hp : PredOn s p) (hx : s.readS .int a = .ok x) (hk : s.readS .int b = .ok k)
    (h : (s.pops [a, b]).spawn w d x k = .ok t) : Gives i s t := by
  have run : (do let x ← (s.pops [a, b]).getS a; let k ← (s.pops [a, b]).getS b; (s.pops [a, b]).spawn w d x k : Except Stop State) = .ok t := by
    rw [getS_pops, getS_of_readS hx, getS_pops, getS_of_readS hk]
    exact h
  obtain rfl | rfl := hi
  · exact (exec_spawnLaunch ..).trans (issue_ok hp run)
  · exact (exec_spawnUnit ..).trans (issue_ok hp run)

/-- Settles O23: the descriptor is read, a token split, and the launch or the unit made, or the cause answered. -/
theorem spawnResults : Obligations.SpawnResults := by
  unfold Obligations.SpawnResults
  intro s i p w d a b x k pa hi hp hx hk hq hal hreach hsplit r part tok goes
  have goesOf {t u : State} {v : Word} (ht : SplitFrom s t) (hu : SameCore t u) (hrun : (s.pops [a, b]).spawn w d x k = .ok (u.entry w d v)) :
      goes (u.entry w d v) v := ⟨gives_spawn hi hp hx hk hrun, entry_split ht hu w d v⟩
  refine ⟨?refused, ?launch, ?unit⟩
  case refused =>
    intro c hk1 hc
    obtain ⟨t, ht, hrun⟩ := spawn_split hq hal hreach hsplit hk1
    have hboth : ∃ u, SplitFrom s u ∧ (s.pops [a, b]).spawn w d x k =
        .ok ((u.tokenHome tok.acct tok.pkg tok.exp).entry w d (spawnEntry (.error c))) := by
      by_cases h0 : k = 0#64
      · rw [h0] at hc
        obtain ⟨u, hu, he⟩ := makeLaunch_refused ht hc tok s.core.pts
        exact ⟨u, hu, hrun.trans ((if_pos h0).trans (by rw [he]))⟩
      · have h1 : k = 1#64 := by
          have := (BitVec.toNat_ne_iff_ne (x := k) (y := 0#64)).2 h0
          exact BitVec.eq_of_toNat_eq (by simp at this ⊢; omega)
        rw [h1] at hc
        obtain ⟨u, hu, he⟩ := makeUnit_refused ht hc tok s.core.pts
        exact ⟨u, hu, hrun.trans ((if_neg h0).trans (by rw [he]; rfl))⟩
    obtain ⟨u, hu, hgo⟩ := hboth
    obtain ⟨-, -, -, -, -, hacc, -, hdue⟩ := entry_work (s := u.tokenHome tok.acct tok.pkg tok.exp) w d (spawnEntry (.error c))
    exact ⟨_, goesOf (u := u.tokenHome tok.acct tok.pkg tok.exp) hu ⟨rfl, rfl, rfl⟩ hgo, hacc.trans (accounts_split (hu.addDue _)), hdue _ (List.mem_append_right _ (List.mem_singleton_self _))⟩
  case launch =>
    intro h0 hok
    obtain ⟨t, ht, hrun⟩ := spawn_split (k := k) hq hal hreach hsplit (by rw [h0]; decide)
    refine ⟨fun hn => ?_, fun n hn hroom => ?_⟩
    · obtain ⟨u, hu, he⟩ := makeLaunch_noAccount ht hok hn tok s.core.pts
      obtain ⟨-, -, -, -, -, hacc, -⟩ := entry_work (s := u.tokenHome tok.acct tok.pkg tok.exp) w d (spawnEntry (.error .noAccount))
      exact ⟨_, goesOf (u := u.tokenHome tok.acct tok.pkg tok.exp) hu ⟨rfl, rfl, rfl⟩ (hrun.trans ((if_pos h0).trans (by rw [he]))),
        hacc.trans (accounts_split (hu.addDue _))⟩
    · obtain ⟨u, hu, he⟩ := makeLaunch_ok ht hok hn hroom tok s.core.pts
      let v := (u.setAcc n (newLaunchAcc s part n tok r s.core.pts)).addDue (placers n)
      obtain ⟨-, -, -, -, -, hacc, -, hdue⟩ := entry_work (s := v) w d (spawnEntry (.ok (accHandle n (s.accAt n))))
      have hat : (v.entry w d (spawnEntry (.ok (accHandle n (s.accAt n))))).accAt n = newLaunchAcc s part n tok r s.core.pts :=
        (congrArg (NatMap.findD ({} : Account) n) hacc).trans (accAt_newLaunch u s part n tok r s.core.pts :)
      refine ⟨_, goesOf (u := v) hu ⟨rfl, rfl, rfl⟩ (hrun.trans ((if_pos h0).trans (by rw [he]))), ?_, fun j hj => hdue _ ?_, ?_⟩
      · unfold accountMade
        rw [hat]
        exact ⟨rfl, rfl, rfl, rfl, rfl, rfl, rfl⟩
      · refine List.mem_append_right _ (List.mem_map_of_mem ?_)
        rw [upFrom_zero]
        exact List.mem_range.2 hj
      · rw [hat]; rfl
  case unit =>
    intro h1 hok hroom
    obtain ⟨t, ht, hrun⟩ := spawn_split (k := k) hq hal hreach hsplit (by rw [h1]; decide)
    obtain ⟨u, y, hu, hindex, hpart, hhold, hprio, hst, hargs, he⟩ := makeUnit_ok ht hok hroom tok s.core.pts
    obtain ⟨-, hsame, hat⟩ := newUnit_spec u y
    let v := (u.newUnit y).2.addDue [.unitPlace (16384 + s.hub.nextUnit) 0]
    obtain ⟨-, -, -, -, -, -, hunits, hdue⟩ := entry_work (s := v) w d (spawnEntry (.ok s.core.hold.acct))
    have h0 : k ≠ 0#64 := by rw [h1]; decide
    refine ⟨_, goesOf (u := v) hu hsame (hrun.trans ((if_neg h0).trans (by rw [he]; rfl))),
      hdue _ (List.mem_append_right _ (List.mem_singleton_self _)), y, ?_, hindex, hpart, hhold, hprio, hst, hargs⟩
    rw [nextUnit_split hu] at hat
    exact (congrArg (NatMap.find s.hub.nextUnit) hunits).trans hat

end Sys2Proof.Machine
end

section
set_option Elab.async false
/-! SEND, triggers, QUIET and ACCQ (R299 to R305). -/

namespace Sys2Proof.Machine

/-! ### SEND -/

/-- Metering a flow changes its meters and what is due (R325). -/
theorem meter_only (s : State) (c : Nat) (d : BitVec 16) (k : Nat) (l : BitVec 16) (n : Nat) :
    ∃ F xs, s.meter c d k l n = { s with fabric := { s.fabric with meters := F }, due := s.due ++ xs } := by
  unfold State.meter State.meterAt
  dsimp only
  split
  · exact ⟨_, [], by rw [List.append_nil]⟩
  · exact ⟨_, _, rfl⟩

/-- A message sent is due, at its core here or as a packet to another package (R299, R316). -/
theorem sendMessage_spec (s : State) (m : Message) :
    SameCore s (s.sendMessage m) ∧
      if m.remote ∧ m.dpkg ≠ s.fabric.num then
        Action.trailPacketDeliver { cls := 0#3, spkg := s.fabric.num, score := m.srcCore, dpkg := m.dpkg, dcore := m.dcore.toNat, label := m.label,
                                    podid := m.podid, tok := some m.tok, body := .message m, seq := s.fabric.nextPkt } ∈ (s.sendMessage m).due
      else Action.messageArrive m ∈ (s.sendMessage m).due := by
  obtain ⟨F, xs, hm⟩ := meter_only (s.withHub { s.hub with nextEntry := s.hub.nextEntry + 1 }) m.srcCore
    (if m.remote then m.dpkg else s.fabric.num) m.dcore.toNat m.label 64
  unfold State.sendMessage
  rw [hm]
  by_cases h : m.remote = true ∧ m.dpkg ≠ s.fabric.num
  · rw [if_pos h]
    dsimp only
    rw [if_pos h]
    exact ⟨⟨rfl, rfl, rfl⟩, List.mem_append_right _ (List.mem_singleton_self _)⟩
  · rw [if_neg h]
    dsimp only
    rw [if_neg h]
    exact ⟨⟨rfl, rfl, rfl⟩, List.mem_append_right _ (List.mem_singleton_self _)⟩

/-! ### Triggers -/

/-- Memory, and of the sequencer in focus the registers and the triggers, as they were. -/
def KeepsTrigs (s t : State) : Prop := SameBytes s t ∧ t.core.trigs = s.core.trigs

theorem KeepsTrigs.refl (s : State) : KeepsTrigs s s := ⟨.refl s, rfl⟩

theorem KeepsTrigs.trans {s t u : State} (h : KeepsTrigs s t) (k : KeepsTrigs t u) : KeepsTrigs s u := ⟨h.1.trans k.1, k.2.trans h.2⟩

theorem KeepsTrigs.ite {s t u : State} {p : Prop} [Decidable p] (ht : KeepsTrigs s t) (hu : KeepsTrigs s u) : KeepsTrigs s (if p then t else u) := by
  split
  · exact ht
  · exact hu

theorem KeepsTrigs.addDue (s : State) (xs : List Action) : KeepsTrigs s (s.addDue xs) := ⟨.addDue s xs, rfl⟩

theorem KeepsTrigs.modCore (s : State) (c : Nat) {f : Core → Core} (h : ∀ x, (f x).arch = x.arch) (ht : ∀ x, (f x).trigs = x.trigs) :
    KeepsTrigs s (s.modCore c f) := by
  refine ⟨.modCore s c h, ?_⟩
  unfold State.modCore State.setCore State.coreAt
  split
  · exact ht _
  · rfl

theorem keepsTrigs_enqueue (s : State) (u c : Nat) (b : Bool) : KeepsTrigs s (s.enqueue u c b) := by
  unfold State.enqueue
  refine KeepsTrigs.trans ?_ (.addDue ..)
  refine KeepsTrigs.trans ?_ (.modCore _ c (fun _ => rfl) fun _ => rfl)
  refine ⟨sameBytes_modUnit s u _, ?_⟩
  unfold State.modUnit
  split <;> rfl

theorem keepsTrigs_spawnTriggered (s : State) (c : Nat) (t : Trigger) (v : Block) (x y : Word) (h : Hold) (p : Word) :
    KeepsTrigs s (s.spawnTriggered c t v x y h p) := by
  have hnew (k : Uni) : KeepsTrigs s (s.newUnit k).2 := ⟨sameBytes_newUnit s k, congrArg Core.trigs (newUnit_spec s k).2.1.1⟩
  unfold State.spawnTriggered
  exact .ite ((hnew _).trans (keepsTrigs_enqueue ..)) ((hnew _).trans (.addDue ..))

theorem keepsTrigs_offer {s t : State} {m : Message} (h : s.offer m = some t) : KeepsTrigs s t := by
  unfold State.offer at h
  dsimp only at h
  split at h
  · cases h; exact .addDue ..
  · split at h
    · cases h
    · split at h
      · cases h; exact .addDue ..
      · split at h
        · cases h; exact keepsTrigs_spawnTriggered ..
        · cases h

theorem keepsTrigs_offerAll (s : State) (kept ms : List (Message × Nat)) : KeepsTrigs s (s.offerAll kept ms).1 := by
  induction ms generalizing s kept with
  | nil => exact .refl s
  | cons e es ih =>
    rw [State.offerAll]
    split
    · exact ih s _
    · split
      · rename_i h; exact (keepsTrigs_offer h).trans (ih _ _)
      · exact ih s _

/-- Messages offered to a trigger spawn units and leave the trigger (R300, R301). -/
theorem keepsTrigs_drainMsgs (s : State) (c : Nat) : KeepsTrigs s (s.drainMsgs c) := by
  unfold State.drainMsgs
  exact .ite (.refl s) ((keepsTrigs_offerAll ..).trans (.modCore _ c (fun _ => rfl) fun _ => rfl))

theorem setTrig_here (s : State) (k : Nat) (t : Option Trigger) :
    s.setTrig s.cur k t = { s with core := { s.core with trigs := vput s.core.trigs k t } } := by
  unfold State.setTrig State.modCore State.setCore State.coreAt
  rw [if_pos rfl, if_pos rfl]

theorem split_names (h : Hold) : h.split.1.valid = h.valid ∧ h.split.1.acct = h.acct ∧ h.split.1.pkg = h.pkg := by
  unfold Hold.split; split <;> exact ⟨rfl, rfl, rfl⟩

/-- A unit is cancelled, or not, whatever it split. -/
theorem cancelling_split {s t : State} (h : SplitFrom s t) : t.cancelling t.core.hold = s.cancelling s.core.hold := by
  obtain ⟨hv, ha, hp⟩ := split_names s.core.hold
  obtain ⟨_, _, _, _, _, _, _, _, rfl⟩ := h
  have hhold : ∀ k : Hold, k.valid = s.core.hold.valid → k.acct = s.core.hold.acct → k.pkg = s.core.hold.pkg →
      s.cancelling k = s.cancelling s.core.hold := by
    intro k hv ha hp; unfold State.cancelling; rw [hv, ha, hp]
  exact hhold _ hv ha hp

/-- The trigger that TRIG registers (R301). -/
def trigMade (s : State) (x : Word) (bar : Option BarLoc) : Trigger :=
  { label := BitVec.ofNat 16 (fld x 0 16), unit := fld x 16 16, prio := fld x 32 2, bar := bar, tok := s.core.hold.split.2, pair := false,
    part := s.core.part, pts := s.core.pts }

/-- TRIG comes to a registered trigger once its barrier, if it names one, has been found. -/
theorem trig_split {s u : State} {as : List Src} {x : Word} {bar : Option BarLoc} (hs : CanSplit s) (hlive : s.cancelling s.core.hold = false)
    (hu : CachesOnly (s.pops as) u) :
    let k := fld x 36 4
    ∃ t, (do
      let (t, s2) ← u.splitHere
      pure (if s2.cancelling s2.core.hold then s2.giveTok s2.cur t false s2.core.pts
        else (s2.setTrig s2.cur k (some (s2.triggerOf x bar t))).drainMsgs s2.cur) : Except Stop State) = .ok t ∧
      t.core.arch = s.core.arch ∧ t.mem = s.mem ∧ vget none t.core.trigs k = some (trigMade s x bar) := by
  intro k
  obtain ⟨t, ht, hsplit⟩ := splitHere_reached hs hu
  obtain ⟨⟨harch, hmem, -⟩, -, -, hpts⟩ := workFrame_split hsplit ⟨rfl, rfl, rfl⟩
  have hpart : t.core.part = s.core.part := by obtain ⟨_, _, _, _, _, _, _, _, rfl⟩ := hsplit; rfl
  have hmade : t.triggerOf x bar s.core.hold.split.2 = trigMade s x bar := by
    unfold State.triggerOf trigMade; rw [hpts, hpart]
  obtain ⟨⟨dmem, darch⟩, dtrigs⟩ := keepsTrigs_drainMsgs (t.setTrig t.cur k (some (trigMade s x bar))) t.cur
  refine ⟨(t.setTrig t.cur k (some (trigMade s x bar))).drainMsgs t.cur, ?_, ?_, ?_, ?_⟩
  · rw [ht, ← hmade]
    exact congrArg Except.ok (if_neg (ne_true_of_eq_false ((cancelling_split hsplit).trans hlive)))
  · rw [darch, setTrig_here]; exact harch
  · rw [dmem, setTrig_here]; exact hmem
  · rw [dtrigs, setTrig_here]
    refine (vget_vput _ _ _ ?_).trans (if_pos rfl)
    exact Nat.mod_lt _ (by decide)

/-! ### QUIET and ACCQ -/

theorem notePops_withPts (x : Core) (as : List Src) (w : Word) : Core.notePops { x with pts := w } as = { x.notePops as with pts := w } := by
  induction as generalizing x with
  | nil => rfl
  | cons a as ih =>
    cases a with
    | pop q => exact ih { x with popped := x.popped ||| (1#8 <<< q.toNat) }
    | _ => exact ih x

theorem weightOf_pops (s : State) (as : List Src) (c : Nat) : (s.pops as).weightOf c = s.weightOf c := by
  have hhold : ((s.pops as).coreAt c).hold = (s.coreAt c).hold := by
    unfold State.coreAt
    rw [pops_cur, pops_eq]
    split <;> rfl
  unfold State.weightOf State.live State.accAt
  rw [hhold, pops_hub, pops_eq]

/-- A form that may name an account does so without a trap (R266, R352). -/
theorem needAccount_ok {s : State} {h : Handle} (hm : MayName s h) (as : List Src) : (s.pops as).needAccount h = .ok () := by
  obtain ⟨hlive, hwho⟩ := hm
  have hpart : (s.pops as).partHere = s.partHere := by unfold State.partHere State.accAt; rw [pops_cur, pops_hub, pops_eq]
  have hl : (s.pops as).live h = true := by unfold State.live State.accAt at hlive ⊢; rw [pops_hub]; exact hlive
  unfold State.needAccount State.accAt
  rw [hl, hpart, pops_cur, pops_hub, Bool.true_and]
  have : (decide (s.cur = rangerId) || decide ((s.accAt (accId h)).part = s.partHere)) = true := by simpa using hwho
  exact (congrArg (need · .accountStale) this).trans rfl

/-- Settles O24: SEND and TRIG split a token for what they send or register, UNTRIG gives one home, and QUIET and ACCQ read the record. -/
theorem messageAccountResults : Obligations.MessageAccountResults := by
  unfold Obligations.MessageAccountResults
  intro s p w d a b x y hp hx hy
  have hreadX (as : List Src) : (s.pops as).getS a = .ok x := by rw [getS_pops, getS_of_readS hx]
  have hreadY : (s.pops [a, b]).getS b = .ok y := by rw [getS_pops, getS_of_readS hy]
  refine ⟨?send, ?trig, ?untrig, ?accounts⟩
  case send =>
    intro hsplit hal hin m
    obtain ⟨t, ht, hfrom⟩ := splitHere_reached hsplit (.refl (s.pops [a, b]))
    have hm : t.messageOf (BitVec.ofNat 512 (loadNat s.core.pad.bytes x.toNat 64)) y s.core.hold.split.2 = m := by
      obtain ⟨_, _, _, _, _, _, _, _, rfl⟩ := hfrom; rfl
    have hfab : t.fabric = s.fabric := by obtain ⟨_, _, _, _, _, _, _, _, rfl⟩ := hfrom; rfl
    obtain ⟨hsame, hdue⟩ := sendMessage_spec t m
    obtain ⟨hframe, hhold, -⟩ := workFrame_split hfrom hsame
    rw [hfab] at hdue
    refine ⟨t.sendMessage m, (exec_send ..).trans (issue_ok hp ?_), hframe, hhold, hdue⟩
    rw [hreadX, hreadY]
    dsimp only [bind, Except.bind]
    rw [needWeight_ok hsplit, rawRecord_ok [a, b] hal hin]
    dsimp only
    rw [ht]
    exact congrArg (fun m => Except.ok (t.sendMessage m)) hm
  case trig =>
    intro k g hsplit hlive hfree hunit
    have run {bar : Option BarLoc} {u : State} (hu : CachesOnly (s.pops [a, b]) u) (hlabel : bitAt x 34 = true ∨ fld x 0 16 ≠ 0xFFFF)
        (hbar : (if bitAt x 34 then ((s.pops [a, b]).triggerBar y).map fun r => (some r.1, r.2) else .ok (none, s.pops [a, b])) =
          .ok (bar, u)) :
        ∃ t, Gives (.trig p a b) s t ∧ t.core.arch = s.core.arch ∧ t.mem = s.mem ∧ vget none t.core.trigs k = some (trigMade s x bar) := by
      obtain ⟨t, ht, hframe⟩ := trig_split (x := x) (bar := bar) hsplit hlive hu
      refine ⟨t, (exec_trig ..).trans (issue_ok hp ?_), hframe⟩
      have htrigs : (s.pops [a, b]).core.trigs = s.core.trigs := by rw [pops_eq]
      have htable : ((s.pops [a, b]).unitTable (s.pops [a, b]).core.part) = s.unitTable s.core.part := by rw [pops_eq]; rfl
      have hlab : (bitAt x 34 || decide (fld x 0 16 ≠ 0xFFFF)) = true := by simpa using hlabel
      rw [hreadX, hreadY]
      dsimp only [bind, Except.bind]
      rw [htrigs, hfree, htable, decide_eq_true hunit, hlab, needWeight_ok hsplit, Option.isNone_none, need_true, need_true]
      dsimp only
      by_cases hb : bitAt x 34 = true
      · rw [if_pos hb] at hbar ⊢
        rw [hbar]
        exact ht
      · rw [if_neg hb] at hbar ⊢
        cases hbar
        exact ht
    refine ⟨fun hmsg hlabel => run (.refl _) (.inr hlabel) (if_neg (ne_true_of_eq_false hmsg)), fun pa va l u hbar hy' hal hreach hleaf hattr => ?_⟩
    have hfound : ((s.pops [a, b]).triggerBar y) = .ok (.mem pa, l.2) := by
      unfold State.triggerBar
      rw [hy', aligned_ok (by simpa using hal), hreach]
      dsimp only [bind, Except.bind]
      rw [hleaf]
      dsimp only
      rw [decide_eq_true hattr]
      rfl
    obtain ⟨t, hrun, -, -, ht⟩ := run ((cachesOnly_reach hreach).trans (cachesOnly_leafFor hleaf)) (.inl hbar)
      ((if_pos hbar).trans (by rw [hfound]; rfl))
    exact ⟨t, hrun, ht⟩
  case untrig =>
    intro k
    have htrigs : (s.pops [a]).core.trigs = s.core.trigs := by rw [pops_eq]
    have hhold : (s.pops [a]).core.hold = s.core.hold := by rw [pops_eq]
    refine ⟨fun hfree => (exec_untrig ..).trans (issue_ok hp ?_), fun g hg hvalid hacct hpkg hasked => ?_⟩
    · rw [hreadX]
      dsimp only [bind, Except.bind]
      rw [htrigs, hfree]
      rfl
    · have hvalue : g.held.value ≠ 0 := by
        have : 0 < tokValue g.tok.exp := Nat.two_pow_pos _
        unfold Hold.value Trigger.held
        dsimp only
        rw [if_pos rfl]
        omega
      have hgive (u : State) : u.giveHold s.cur g.held false s.core.pts =
          u.giveBack s.cur g.tok.acct g.tok.pkg g.held.value false s.core.pts := if_neg hvalue
      refine ⟨((s.pops [a]).setTrig (s.pops [a]).cur k none).giveHold s.cur g.held false s.core.pts, (exec_untrig ..).trans (issue_ok hp ?_), ?_⟩
      · rw [hreadX]
        dsimp only [bind, Except.bind]
        rw [htrigs, hg]
        dsimp only
        rw [hhold, hvalid, decide_eq_true hacct, decide_eq_true hpkg, hasked, pops_eq]
        rfl
      · rw [hgive, setTrig_here, pops_eq]
        refine ⟨⟨rfl, rfl, rfl⟩, ?_, List.mem_append_right _ (List.mem_singleton_self _)⟩
        exact (vget_vput _ _ _ (Nat.mod_lt _ (by decide))).trans (if_pos rfl)
  case accounts =>
    intro h r hname hfree settled answers
    have hacc (as : List Src) (i : Nat) : (s.pops as).accAt i = s.accAt i := by unfold State.accAt; rw [pops_hub]
    have hheld : (s.pops [a]).heldIn h = s.heldIn h := by
      unfold State.heldIn State.holdHere; rw [pops_cur, weightOf_pops, pops_eq]
    have hcancel : (s.pops [a]).cancelling (s.pops [a]).core.hold = s.cancelling s.core.hold := by rw [pops_eq]; rfl
    have hpts (v : Word) (lat : Nat) (n : Word) : ((s.pops [a]).withCore { (s.pops [a]).core with pts := v }).resultS w d lat n =
        .ok (scalarOut { s with core := { s.core with pts := v } } [a] w d lat n) := by
      have hfree' : FreeS { s with core := { s.core with pts := v } } w d := hfree
      refine (congrArg (State.resultS · w d lat n) ?_).trans (resultS_pops hfree' [a] lat n noFlags)
      exact congrArg (s.withCore ·) (notePops_withPts s.core [a] v).symm
    have run (v : Nat) (hv : (if decide (r.st = .done) || decide (r.out = s.heldIn h) then r.status else 2 + b2n r.fault * 2 ^ 8) = v)
        (hgo : ((decide (r.st = .done) || decide (r.out = s.heldIn h)) || s.cancelling s.core.hold) = true) : answers v := by
      refine (exec_quiet ..).trans (issue_ok hp ?_)
      rw [hreadX]
      dsimp only [bind, Except.bind]
      rw [needAccount_ok hname]
      dsimp only
      rw [hacc, hheld, hcancel, if_pos hgo, hpts]
      have hnow : (s.pops [a]).core.pts = s.core.pts := by rw [pops_eq]
      rw [hnow, ← hv]
    refine ⟨fun hset => run _ (if_pos (by simpa [settled] using hset)) (by simp [settled] at hset ⊢; tauto), fun hset hcan =>
      run _ (if_neg (by simpa [settled] using hset)) (by rw [hcan, Bool.or_true]), (exec_accq ..).trans (issue_ok hp ?_)⟩
    rw [hreadX, hreadY]
    dsimp only [bind, Except.bind]
    rw [needAccount_ok hname]
    dsimp only
    rw [hacc, resultS_pops hfree]
    rfl

end Sys2Proof.Machine
end

section
set_option Elab.async false
/-! PHASE (R306). -/

namespace Sys2Proof.Machine

/-! ### A form that has read its operands -/

/-- What a form of work finds before it starts anything: noted pops, translation caches and actions made due are all that differ. -/
def NotedOnly (s t : State) : Prop := ∃ P L U O D W E xs,
  t = (({ s with core := { s.core with popped := P } }).withCaches L U O D W E).addDue xs

theorem NotedOnly.addDue {s t : State} (h : NotedOnly s t) (ys : List Action) : NotedOnly s (t.addDue ys) := by
  obtain ⟨P, L, U, O, D, W, E, xs, rfl⟩ := h
  exact ⟨P, L, U, O, D, W, E, xs ++ ys, congrArg (fun l => State.mk _ _ _ _ _ _ _ _ _ l _ _) (List.append_assoc ..)⟩

theorem notedOnly_pops (s : State) (as : List Src) : NotedOnly s (s.pops as) := by
  rw [pops_eq]
  obtain ⟨xs, e⟩ := dueOnly_refl ({ s with core := { s.core with popped := (s.core.notePops as).popped } } : State)
  exact ⟨(s.core.notePops as).popped, s.core.tlb, s.core.used, s.others, s.hub.tdir, s.hub.walkerMem, s.hub.dies, xs, e⟩

theorem notedOnly_engineRz (s : State) (as : List Src) (bad : Bool) : NotedOnly s ((s.pops as).engineRz bad) := by
  unfold State.engineRz
  split
  · exact (notedOnly_pops s as).addDue _
  · exact notedOnly_pops s as

theorem NotedOnly.caches {s t u : State} (h : NotedOnly s t) (k : CachesOnly t u) : NotedOnly s u := by
  obtain ⟨P, _, _, _, _, _, _, xs, rfl⟩ := h
  obtain ⟨L, U, O, D, W, E, rfl⟩ := k
  exact ⟨P, L, U, O, D, W, E, xs, rfl⟩

theorem entry_noted {s t u : State} (h : NotedOnly s t) (hu : SameCore t u) (w : Bool) (d : BitVec 6) (v : Word) :
    workFrame s (u.entry w d v) ∧ workEntry s (u.entry w d v) w d v := by
  obtain ⟨hcore, hmem, hport⟩ := hu
  obtain ⟨earch, -, emem, eport, eentry, -⟩ := entry_work (s := u) w d v
  unfold workFrame
  rw [earch, emem, eport, hcore, hmem, hport]
  have hq : u.core.q = s.core.q := by rw [hcore]; obtain ⟨_, _, _, _, _, _, _, _, rfl⟩ := h; rfl
  refine ⟨?_, workEntry_congr hq eentry⟩
  obtain ⟨_, _, _, _, _, _, _, _, rfl⟩ := h
  exact ⟨rfl, rfl, rfl⟩

section
variable {s t : State} (h : NotedOnly s t)
include h

theorem accAt_noted (i : Nat) : t.accAt i = s.accAt i := by obtain ⟨_, _, _, _, _, _, _, _, rfl⟩ := h; rfl
theorem accounts_noted : t.hub.accounts = s.hub.accounts := by obtain ⟨_, _, _, _, _, _, _, _, rfl⟩ := h; rfl
theorem freeId_noted (p : Nat) : t.freeId p = s.freeId p := by obtain ⟨_, _, _, _, _, _, _, _, rfl⟩ := h; rfl
theorem descRefused_noted (p : Nat) (r : Block) (unit : Bool) : t.descRefused p r unit = s.descRefused p r unit := by
  obtain ⟨_, _, _, _, _, _, _, _, rfl⟩ := h; rfl
theorem descendants_noted (i : Nat) : t.descendants i = s.descendants i := by
  have hunder (j n : Nat) : t.under i j n = s.under i j n := by
    induction n generalizing j with
    | zero => rfl
    | succ n ih =>
      unfold State.under
      dsimp only
      rw [accAt_noted h, ih]
      obtain ⟨_, _, _, _, _, _, _, _, rfl⟩ := h; rfl
  unfold State.descendants State.accList
  simp only [accAt_noted h, accounts_noted h, hunder]

/-- A form that may name an account finds it so (R266, R352). -/
theorem needAccount_noted {k : Handle} (hm : MayName s k) : t.needAccount k = .ok () := by
  obtain ⟨hlive, hwho⟩ := hm
  have hneed : t.needAccount k = s.needAccount k := by obtain ⟨_, _, _, _, _, _, _, _, rfl⟩ := h; rfl
  rw [hneed]
  unfold State.needAccount
  have : (s.live k && (decide (s.cur = rangerId) || decide ((s.accAt (accId k)).part = s.partHere))) = true := by simp [hlive, hwho]
  exact (congrArg (need · .accountStale) this).trans rfl

end

/-! ### Owner tokens -/

/-- A split of an owner token that needs no borrow (R270, R306). -/
theorem splitOwner_ok {s : State} {i : Nat} {own : Hold} (h : (s.accAt i).owner = some own) (hexp : own.exp ≠ 127#7) :
    ∃ xs, s.splitOwner i = (.ok own.split.2, (s.setAcc i { s.accAt i with owner := some own.split.1 }).addDue xs) := by
  unfold State.splitOwner
  dsimp only
  rw [h]
  dsimp only
  rw [if_neg hexp]
  by_cases hr : own.splitReturn = 0
  · obtain ⟨xs, e⟩ := dueOnly_refl (s.setAcc i { s.accAt i with owner := some own.split.1 })
    exact ⟨xs, Prod.ext rfl ((if_pos hr).trans e)⟩
  · exact ⟨_, Prod.ext rfl (if_neg hr)⟩

/-- An account replaced in the same state of life leaves the ids that are free (R350). -/
theorem freeId_setAcc {s : State} (hs : RisingKeys s.hub.accounts) {i : Nat} {a : Account} (h : a.st = (s.accAt i).st) (p : Nat) :
    (s.setAcc i a).freeId p = s.freeId p := by
  have hst (j : Nat) : ((s.setAcc i a).accAt j).st = (s.accAt j).st := by
    rw [State.accAt_setAcc hs]
    split
    · rename_i e; rw [e, h]
    · rfl
  have hpart : (s.setAcc i a).partAt p = s.partAt p := rfl
  unfold State.freeId
  rw [hpart]
  simp only [hst]

theorem free_of_freeId {s : State} {p n : Nat} (h : s.freeId p = some n) : (s.accAt n).st = .free := by
  unfold State.freeId at h
  dsimp only at h
  split at h
  · simpa using List.find?_some h
  · cases h

/-- The record of an account just made under a parent's token (R269, R283). -/
def accMade (s : State) (p n : Nat) (lvl : Level) (tok : Tok) : Account :=
  { st := .opn, out := 2 ^ 127, level := lvl, part := p, gen := (s.accAt n).gen, parentV := true, pexp := tok.exp, parent := tok.acct
    parentPkg := tok.pkg }

/-- An account with its whole weight out is found where it was put. -/
theorem accAt_of_out {u : State} {n : Nat} {a : Account} (h : a.out = 2 ^ 127) : (u.setAcc n a).accAt n = a := by
  have hout : a.out ≠ 0 := h.trans_ne (by decide)
  rw [State.accAt_setAcc_of_ne fun e => hout (congrArg Account.out e), if_pos rfl]

theorem accAt_accMade (u s : State) (p n : Nat) (lvl : Level) (tok : Tok) (own : Option Hold) :
    (u.setAcc n { accMade s p n lvl tok with owner := own }).accAt n = { accMade s p n lvl tok with owner := own } :=
  accAt_of_out rfl

/-- An account made under another (R306): the record of the new one, and what the owner keeps. -/
theorem openUnder_ok {s : State} (hs : RisingKeys s.hub.accounts) {h : Handle} {own : Hold} {lvl : Level} {n : Nat}
    (hst : (s.accAt (accId h)).st = .opn) (howner : (s.accAt (accId h)).owner = some own) (hexp : own.exp ≠ 127#7)
    (hn : s.freeId (s.accAt (accId h)).part = some n) :
    ∃ t, s.openUnder h lvl = (.ok (accHandle n (s.accAt n)), t) ∧ SameCore s t ∧ accountMade t n lvl own.split.2 ∧
      (t.accAt n).owner = some { exp := 0#7, valid := true, acct := accHandle n (s.accAt n), pkg := s.fabric.num } ∧
      (t.accAt (accId h)).owner = some own.split.1 := by
  obtain ⟨xs, hsplit⟩ := splitOwner_ok howner hexp
  have hne : accId h ≠ n := by
    intro e
    have := free_of_freeId hn
    rw [← e, hst] at this
    cases this
  have hfree := (freeId_setAcc hs (i := accId h) (a := { s.accAt (accId h) with owner := some own.split.1 }) rfl (s.accAt (accId h)).part).trans hn
  generalize hu : (s.setAcc (accId h) { s.accAt (accId h) with owner := some own.split.1 }).addDue xs = u at hsplit
  have hufree : u.freeId (s.accAt (accId h)).part = some n := by rw [← hu]; exact hfree
  have hurise : RisingKeys u.hub.accounts := by rw [← hu]; exact State.setAcc_rising hs _ _
  have hun : u.accAt n = s.accAt n := by rw [← hu]; exact State.accAt_setAcc_other (Ne.symm hne) _ _
  have huh : (u.accAt (accId h)).owner = some own.split.1 := by
    rw [← hu]
    exact congrArg Account.owner ((State.accAt_setAcc hs _ _ _).trans (if_pos rfl))
  have hnew : u.newAcc (s.accAt (accId h)).part lvl (some (own.split.2.acct, own.split.2.pkg, own.split.2.exp)) { st := .opn } =
      some (n, u.setAcc n (accMade s (s.accAt (accId h)).part n lvl own.split.2)) := by
    unfold State.newAcc
    rw [hufree]
    exact congrArg (fun a : Account => some (n, u.setAcc n { accMade s (s.accAt (accId h)).part n lvl own.split.2 with gen := a.gen })) hun
  have hmade := accAt_accMade u s (s.accAt (accId h)).part n lvl own.split.2 none
  have hhandle : accHandle n ((u.setAcc n (accMade s (s.accAt (accId h)).part n lvl own.split.2)).accAt n) = accHandle n (s.accAt n) :=
    accHandle_congr n ((congrArg Account.gen hmade).trans rfl)
  let o : Option Hold := some { exp := 0#7, valid := true, acct := accHandle n (s.accAt n), pkg := s.fabric.num }
  have hfab : u.fabric = s.fabric := by rw [← hu]; rfl
  refine ⟨(u.setAcc n (accMade s (s.accAt (accId h)).part n lvl own.split.2)).setAcc n
    { accMade s (s.accAt (accId h)).part n lvl own.split.2 with owner := o }, ?_, ?_, ?_, ?_, ?_⟩
  · unfold State.openUnder
    dsimp only
    rw [hsplit]
    dsimp only
    rw [hnew]
    dsimp only
    rw [hhandle]
    refine Prod.ext rfl ?_
    exact congrArg (fun a : Account => State.setAcc _ n { a with owner := o }) hmade
  · rw [← hu]; exact ⟨rfl, rfl, rfl⟩
  · unfold accountMade
    rw [accAt_accMade]
    exact ⟨rfl, rfl, rfl, rfl, rfl, rfl, rfl⟩
  · rw [accAt_accMade]
  · rw [State.accAt_setAcc_other hne, State.accAt_setAcc_other hne]
    exact huh

/-! ### CLOSE and RELEASE -/

/-- The owner token goes home and the record keeps none (R306). -/
theorem returnOwner_ok {s : State} (hs : RisingKeys s.hub.accounts) {i : Nat} {own : Hold} (h : (s.accAt i).owner = some own) :
    SameCore s (s.returnOwner i) ∧ (s.returnOwner i).accAt i = { s.accAt i with owner := none } ∧
      Action.returnArrive { acct := accHandle i (s.accAt i), pkg := s.fabric.num, value := own.value, taint := false, pts := 0#64 } ∈
        (s.returnOwner i).due := by
  unfold State.returnOwner
  dsimp only
  rw [h]
  exact ⟨⟨rfl, rfl, rfl⟩, (State.accAt_setAcc hs _ _ _).trans (if_pos rfl), List.mem_append_right _ (List.mem_singleton_self _)⟩

theorem freeAll_frame {s : State} (hs : RisingKeys s.hub.accounts) (is : List Nat) :
    SameCore s (s.freeAll is) ∧ RisingKeys (s.freeAll is).hub.accounts := by
  induction is generalizing s with
  | nil => exact ⟨⟨rfl, rfl, rfl⟩, hs⟩
  | cons i is ih => exact ih (State.setAcc_rising hs _ _)

/-- An account freed with those below it (R266, R283). -/
theorem freeAcc_st {s : State} (hs : RisingKeys s.hub.accounts) (i : Nat) : ((s.freeAcc i).accAt i).st = .free :=
  congrArg Account.st ((State.accAt_setAcc hs _ _ _).trans (if_pos rfl))

/-! ### ADDL -/

/-- What a new account is (R269, R283): the lowest free id, with the whole weight out, under its parent's token. -/
theorem newAcc_spec {s : State} {p n : Nat} (hn : s.freeId p = some n) {lvl : Level} {tok : Tok} {a : Account} {x : Option (Nat × State)}
    (hx : s.newAcc p lvl (some (tok.acct, tok.pkg, tok.exp)) a = x) :
    ∃ b, x = some (n, s.setAcc n b) ∧ (s.setAcc n b).accAt n = b ∧ b.st = a.st ∧ b.npred = a.npred ∧ b.parent = tok.acct ∧ b.pexp = tok.exp ∧
      b.gen = (s.accAt n).gen := by
  unfold State.newAcc at hx
  rw [hn] at hx
  exact ⟨_, hx.symm, accAt_of_out rfl, rfl, rfl, rfl, rfl, rfl⟩

/-- A launch deferred behind predecessors that have not retired (R283, R306). -/
theorem makeLaunch_deferred {s : State} {p n : Nat} {r : Block} {hs : List Handle} (hok : s.descRefused p r false = none)
    (hn : s.freeId p = some n) (hne : hs ≠ []) (hopen : ∀ k ∈ hs, (s.accAt (accId k)).st ≠ .done) (tok : Tok) (pts : Word) :
    ∃ t, s.makeLaunch p tok hs pts r = (.ok (accHandle n (s.accAt n)), t) ∧ SameCore s t ∧ (t.accAt n).st = .deferred ∧
      (t.accAt n).npred = hs.length ∧ (t.accAt n).parent = tok.acct ∧ (t.accAt n).pexp = tok.exp := by
  have hrz : DueOnly s (if descRz r then s.event .engineRz 5 0 (some p) else s) := .ite ⟨_, rfl⟩ (dueOnly_refl s)
  unfold State.makeLaunch
  dsimp only
  generalize (if descRz r = true then s.event .engineRz 5 0 (some p) else s) = u at hrz ⊢
  obtain ⟨xs, rfl⟩ := hrz
  have hpreds : (s.addDue xs).predsOf hs = (hs, false, false) := by
    have hall : hs.filter (fun h => decide ((s.accAt (accId h)).st ≠ .done)) = hs :=
      List.filter_eq_self.2 fun k hk => decide_eq_true (hopen k hk)
    have hnone : hs.filter (fun h => decide ((s.accAt (accId h)).st = .done)) = [] :=
      List.filter_eq_nil_iff.2 fun k hk => by simpa using hopen k hk
    have hacc (i : Nat) : (s.addDue xs).accAt i = s.accAt i := rfl
    unfold State.predsOf
    simp only [hacc, hall, hnone]
    rfl
  have hempty : hs.isEmpty = false := by simpa using hne
  have hdesc : (s.addDue xs).descRefused p r false = none := hok
  have hid : (s.addDue xs).freeId p = some n := hn
  rw [hdesc, hpreds]
  dsimp only
  rw [hempty]
  split
  · rename_i hnew
    obtain ⟨_, e, -⟩ := newAcc_spec hid hnew
    cases e
  · rename_i i t hnew
    obtain ⟨b, e, hat, hst, hnpred, hparent, hpexp, hgen⟩ := newAcc_spec hid hnew
    cases e
    refine ⟨(s.addDue xs).setAcc n b, ?_, ⟨rfl, rfl, rfl⟩, ?_, ?_, ?_, ?_⟩
    · rw [hat, accHandle_congr n hgen]
      rfl
    all_goals rw [hat]
    exacts [hst, hnpred, hparent, hpexp]

/-! ### A block read after a warning -/

/-- A leaf is found as well when actions are made due. -/
theorem leafFor_addDue {s t : State} {c p : Nat} {va : Word} {l : Leaf} (h : s.leafFor c p va = some (l, t)) (xs : List Action) :
    ∃ u, (s.addDue xs).leafFor c p va = some (l, u) := by
  have hwalk : (s.addDue xs).walk p va = s.walk p va := by
    have hroot : (s.addDue xs).partAt p = s.partAt p := rfl
    unfold State.walk; rw [hroot, walkFrom_congr (s := s) (t := s.addDue xs) rfl rfl]
  have hcore : (s.addDue xs).coreAt c = s.coreAt c := rfl
  unfold State.leafFor at h ⊢
  rw [hwalk, hcore]
  split at h
  · cases h
  · rename_i hva
    rw [if_neg hva]
    cases hc : cachedLeaf (s.coreAt c).tlb p va.toNat with
    | some m => rw [hc] at h; cases h; exact ⟨_, rfl⟩
    | none =>
      rw [hc] at h
      obtain ⟨m, hm, e⟩ := Option.map_eq_some_iff.1 h
      cases e
      exact ⟨_, by rw [hm]; rfl⟩

theorem access_addDue {s t : State} {c pa : Nat} {va : Word} {w q : Bool} (h : s.access c va w q = .ok (pa, t)) (xs : List Action) :
    ∃ u, (s.addDue xs).access c va w q = .ok (pa, u) := by
  have hcore : (s.addDue xs).coreAt c = s.coreAt c := rfl
  have hstruck : (s.addDue xs).walkStruck (s.coreAt c).part va = s.walkStruck (s.coreAt c).part va := by
    have hroot : (s.addDue xs).partAt (s.coreAt c).part = s.partAt (s.coreAt c).part := rfl
    unfold State.walkStruck State.struck
    dsimp only
    rw [hroot, walkTrail_congr (s := s) (t := s.addDue xs) rfl rfl]
    rfl
  unfold State.access at h ⊢
  split at h
  · rename_i hr
    rw [if_pos hr]
    split at h
    · rename_i hm; rw [if_pos hm]; cases h; exact ⟨_, rfl⟩
    · cases h
  · rename_i hr
    rw [if_neg hr, hcore]
    cases hl : s.leafFor c (s.coreAt c).part va with
    | none => rw [hl] at h; cases h
    | some lt =>
      obtain ⟨u, hu⟩ := leafFor_addDue (l := lt.1) (t := lt.2) hl xs
      rw [hl] at h
      rw [hu]
      dsimp only at h ⊢
      rw [hstruck]
      split at h
      · cases h
      · rename_i hs
        rw [if_neg hs]
        split at h
        · cases h
        · rename_i ha
          rw [if_neg ha]
          cases h
          exact ⟨_, rfl⟩

/-- The block that ADDL's descriptor names, read after the control block's warning. -/
theorem blockAt_noted {s : State} {as : List Src} {va : Word} {pa : Nat} (hal : va.toNat % 64 = 0) (hr : Reaches s as false [va] [pa])
    {t : State} (ht : DueOnly (s.pops as) t) :
    ∃ u, t.blockAt va = .ok (BitVec.ofNat 512 (s.readNat pa 64), u) ∧ CachesOnly t u := by
  obtain ⟨v, hv⟩ := hr
  obtain ⟨xs, rfl⟩ := ht
  unfold State.reach at hv
  split at hv
  · cases hv
  · rename_i pa' s1 hacc
    rw [State.reach] at hv
    cases hv
    obtain ⟨u, hu⟩ := access_addDue hacc xs
    have hcaches := cachesOnly_access hu
    have hreach : ((s.pops as).addDue xs).reach false [va] = .ok ([pa], u) := by
      unfold State.reach
      rw [show ((s.pops as).addDue xs).access ((s.pops as).addDue xs).cur va false true = .ok (pa, u) from hu]
      rfl
    have hmem : u.mem = s.mem := by obtain ⟨_, _, _, _, _, _, rfl⟩ := hcaches; exact pops_mem s as
    refine ⟨u, ?_, hcaches⟩
    unfold State.blockAt
    rw [aligned_ok (by simpa using hal), hreach]
    unfold State.readNat
    rw [← hmem]
    rfl

theorem mapM_ok {α : Type} {f : α → Except Stop Unit} {l : List α} (h : ∀ x ∈ l, f x = .ok ()) : l.mapM f = .ok (l.map fun _ => ()) := by
  induction l with
  | nil => rfl
  | cons x l ih =>
    obtain ⟨hx, hl⟩ := List.forall_mem_cons.1 h
    rw [List.mapM_cons, hx, ih hl]
    rfl

/-- ADDL's split and launch once its descriptor has been read (R306). -/
theorem addl_ok {s u : State} (hu : NotedOnly s u) (hs : RisingKeys s.hub.accounts) {h : Handle} {own : Hold} {n : Nat} {r : Block}
    {hs' : List Handle} (hst : (s.accAt (accId h)).st = .opn) (ho : (s.accAt (accId h)).owner = some own) (hexp : own.exp ≠ 127#7)
    (hn : s.freeId (s.accAt (accId h)).part = some n) (hne : hs' ≠ []) (hopen : ∀ k ∈ hs', (s.accAt (accId k)).st ≠ .done)
    (hok : s.descRefused (s.accAt (accId h)).part r false = none) :
    ∃ v z, u.splitOwner (accId h) = (.ok own.split.2, v) ∧
      v.makeLaunch (s.accAt (accId h)).part own.split.2 hs' v.core.pts r = (.ok (accHandle n (s.accAt n)), z) ∧ SameCore u z ∧
      (z.accAt n).st = .deferred ∧ (z.accAt n).npred = hs'.length ∧ (z.accAt n).parent = own.split.2.acct ∧ (z.accAt n).pexp = own.split.2.exp := by
  have hurise : RisingKeys u.hub.accounts := by rw [accounts_noted hu]; exact hs
  obtain ⟨xs, hsplit⟩ := splitOwner_ok ((congrArg Account.owner (accAt_noted hu (accId h))).trans ho) hexp
  have hvacc (j : Nat) : ((u.setAcc (accId h) { u.accAt (accId h) with owner := some own.split.1 }).addDue xs).accAt j =
      if j = accId h then { s.accAt j with owner := some own.split.1 } else s.accAt j := by
    refine (State.accAt_setAcc hurise _ _ _).trans ?_
    simp only [accAt_noted hu]
    split
    · rename_i e; rw [e]
    · rfl
  have hvid : ((u.setAcc (accId h) { u.accAt (accId h) with owner := some own.split.1 }).addDue xs).freeId (s.accAt (accId h)).part = some n :=
    (freeId_setAcc (i := accId h) (a := { u.accAt (accId h) with owner := some own.split.1 }) hurise rfl (s.accAt (accId h)).part).trans
      ((freeId_noted hu _).trans hn)
  have hvdesc : ((u.setAcc (accId h) { u.accAt (accId h) with owner := some own.split.1 }).addDue xs).descRefused (s.accAt (accId h)).part r false =
      none := (descRefused_noted hu _ _ _).trans hok
  have hvsame : SameCore u ((u.setAcc (accId h) { u.accAt (accId h) with owner := some own.split.1 }).addDue xs) := ⟨rfl, rfl, rfl⟩
  generalize (u.setAcc (accId h) { u.accAt (accId h) with owner := some own.split.1 }).addDue xs = v at *
  have hnh : n ≠ accId h := by
    intro e
    have := free_of_freeId hn
    rw [e] at this
    exact absurd (hst.symm.trans this) (by decide)
  have hvopen : ∀ k ∈ hs', (v.accAt (accId k)).st ≠ .done := by
    intro k hk
    rw [hvacc]
    split
    · rename_i e; rw [e]; exact fun e' => absurd (hst.symm.trans e') (by decide)
    · exact hopen k hk
  obtain ⟨z, hz, hsame, hrest⟩ := makeLaunch_deferred hvdesc hvid hne hvopen own.split.2 v.core.pts
  rw [hvacc, if_neg hnh] at hz
  exact ⟨v, z, hsplit, hz, ⟨hsame.1.trans hvsame.1, hsame.2.1.trans hvsame.2.1, hsame.2.2.trans hvsame.2.2⟩, hrest⟩

/-! ### PHASE -/

/-- PHASE once its block has been read and its account named. -/
def State.phaseOp (s : State) (w : Bool) (d : BitVec 6) (op : Nat) (b : Block) : Except Stop State := do
  let h := phTarget b
  let a := s.accAt (accId h)
  let _ ← if op = 2 then (phPreds b).mapM fun k => s.needAccount k else .ok []
  match op with
  | 0 => do
    need (a.takes [.phase, .job]) .accountClosed
    pure ((s.openUnder h .graph).2.entry w d (spawnEntry (s.openUnder h .graph).1))
  | 1 => do
    need (a.takes [.job]) .accountClosed
    pure ((s.openUnder h .phase).2.entry w d (spawnEntry (s.openUnder h .phase).1))
  | 2 => do
    need (a.takes [.graph]) .accountClosed
    let child (k : Handle) : Bool :=
      let c := s.accAt (accId k)
      decide (c.level = .launch) && c.parentV && decide (c.parent = h) && decide (c.parentPkg = s.fabric.num)
    need (decide (phNpred b ≤ 8) && (phPreds b).all child) .accountOp
    let (r, s1) ← s.blockAt (phDesc b)
    match s1.splitOwner (accId h) with
    | (.error k, s2) => pure (s2.entry w d (spawnEntry (.error k)))
    | (.ok t, s2) =>
      let (e, s3) := s2.makeLaunch a.part t (phPreds b) s2.core.pts r
      pure (s3.entry w d (spawnEntry e))
  | 3 => do
    need (decide (a.level = .graph) || decide (a.level = .phase)) .accountOp
    pure ((s.returnOwner (accId h)).entry w d (spawnEntry (.ok h)))
  | _ => do
    need (decide (a.level ≠ .job)) .accountOp
    need (decide (a.st = .done)) .accountBusy
    pure (((s.freeAll (s.descendants (accId h))).freeAcc (accId h)).entry w d (spawnEntry (.ok h)))

/-- OPENG and OPENP. -/
theorem phaseOp_make {s : State} {w : Bool} {d : BitVec 6} {k : Nat} {b : Block} {lvl : Level} {ls : List Level}
    (h : (k = 0 ∧ lvl = .graph ∧ ls = [.phase, .job]) ∨ (k = 1 ∧ lvl = .phase ∧ ls = [.job])) :
    s.phaseOp w d k b = (do
      need ((s.accAt (accId (phTarget b))).takes ls) .accountClosed
      pure ((s.openUnder (phTarget b) lvl).2.entry w d (spawnEntry (s.openUnder (phTarget b) lvl).1))) := by
  obtain ⟨rfl, rfl, rfl⟩ | ⟨rfl, rfl, rfl⟩ := h <;> rfl

/-- PHASE tests its queue, reads its block and names its account; its operation follows (R306). -/
theorem phase_op {s : State} {as : List Src} {w : Bool} {d : BitVec 6} {x y : Word} {r : Block}
    (hq : w = false → s.core.hasQueue (d.setWidth 3) = true) (hraw : (s.pops as).rawRecord x = .ok r) (hk : fld y 0 4 ≤ 4)
    (hm : MayName s (phTarget r)) : (s.pops as).phase w d x y = ((s.pops as).engineRz (phRz r)).phaseOp w d (fld y 0 4) r := by
  have hneed : ((s.pops as).engineRz (phRz r)).needAccount (phTarget r) = .ok () := needAccount_noted (notedOnly_engineRz s as (phRz r)) hm
  unfold State.phase
  cases w with
  | true =>
    rw [hraw]
    dsimp only [bind, Except.bind, Bool.not_true]
    rw [if_neg (by decide), decide_eq_true hk, need_true]
    dsimp only
    rw [hneed]
    rfl
  | false =>
    rw [needQueue_ok (hq rfl), hraw]
    dsimp only [bind, Except.bind, Bool.not_false]
    rw [if_pos (by decide), decide_eq_true hk, need_true]
    dsimp only
    rw [hneed]
    rfl

/-- The rows of PHASE read their operands and do the same. -/
theorem gives_phase {s t : State} {i : Instr} {p : BitVec 3} {w : Bool} {d : BitVec 6} {a b : Src} {x y : Word}
    (hi : i = .phaseOpeng p w d a b ∨ i = .phaseOpenp p w d a b ∨ i = .phaseAddl p w d a b ∨ i = .phaseClose p w d a b ∨ i = .phaseRelease p w d a b)
    (hp : PredOn s p) (hx : s.readS .int a = .ok x) (hy : s.readS .int b = .ok y) (h : (s.pops [a, b]).phase w d x y = .ok t) : Gives i s t := by
  have run : (do let x ← (s.pops [a, b]).getS a; let y ← (s.pops [a, b]).getS b; (s.pops [a, b]).phase w d x y : Except Stop State) = .ok t := by
    rw [getS_pops, getS_of_readS hx, getS_pops, getS_of_readS hy]
    exact h
  obtain rfl | rfl | rfl | rfl | rfl := hi
  · exact (exec_phaseOpeng ..).trans (issue_ok hp run)
  · exact (exec_phaseOpenp ..).trans (issue_ok hp run)
  · exact (exec_phaseAddl ..).trans (issue_ok hp run)
  · exact (exec_phaseClose ..).trans (issue_ok hp run)
  · exact (exec_phaseRelease ..).trans (issue_ok hp run)

theorem takes_of {a : Account} {ls : List Level} {own : Hold} (hst : a.st = .opn) (ho : a.owner = some own) (hl : a.level ∈ ls) :
    a.takes ls = true := by
  unfold Account.takes
  rw [hst, ho]
  simpa using hl

/-- Settles O25: PHASE reads its block, names its account, and makes, closes or frees one. -/
theorem phaseResults : Obligations.PhaseResults := by
  unfold Obligations.PhaseResults
  intro s i p w d a b x y hi hp hx hy hq hal hin r h acc op hm hs goes
  have hraw : (s.pops [a, b]).rawRecord x = .ok r := rawRecord_ok [a, b] hal hin
  have hnote := notedOnly_engineRz s [a, b] (phRz r)
  generalize ht : (s.pops [a, b]).engineRz (phRz r) = t at hnote
  have hacc (i : Nat) : t.accAt i = s.accAt i := accAt_noted hnote i
  have hfab : t.fabric = s.fabric := by obtain ⟨_, _, _, _, _, _, _, _, rfl⟩ := hnote; rfl
  have hrise : RisingKeys t.hub.accounts := by rw [accounts_noted hnote]; exact hs
  have goesOf {u : State} {v : Word} (k : Nat) (hop : op = k) (hk : k ≤ 4) (hu : SameCore t u)
      (hrun : t.phaseOp w d k r = .ok (u.entry w d v)) : goes (u.entry w d v) v := by
    refine ⟨gives_phase hi hp hx hy ((phase_op hq hraw (hop.trans_le hk) hm).trans ?_), entry_noted hnote hu w d v⟩
    rw [ht, ← hop] at *
    exact hrun
  have hentry (u : State) (v : Word) (j : Nat) : (u.entry w d v).accAt j = u.accAt j :=
    congrArg (NatMap.findD ({} : Account) j) (entry_work (s := u) w d v).2.2.2.2.2.1
  have hdue {u : State} (v : Word) {x : Action} (hx : x ∈ u.due) : x ∈ (u.entry w d v).due := (entry_work (s := u) w d v).2.2.2.2.2.2.2 x hx
  refine ⟨?make, ?add, ?close, ?release⟩
  case make =>
    intro own n lvl hlvl hst ho hexp hn
    have hmade := openUnder_ok (lvl := lvl) hrise ((congrArg Account.st (hacc (accId h))).trans hst)
      ((congrArg Account.owner (hacc (accId h))).trans ho) hexp (by rw [hacc, freeId_noted hnote]; exact hn)
    rw [hacc, hfab] at hmade
    obtain ⟨u, hu, hsame, hnew, howner, hkept⟩ := hmade
    have run (k : Nat) (ls : List Level) (hop : op = k) (hk : k ≤ 4) (hl : acc.level ∈ ls)
        (hrun : (s.accAt (accId h)).takes ls = true → t.phaseOp w d k r = .ok (u.entry w d (spawnEntry (.ok (accHandle n (s.accAt n)))))) :
        goes (u.entry w d (spawnEntry (.ok (accHandle n (s.accAt n))))) (spawnEntry (.ok (accHandle n (s.accAt n)))) :=
      goesOf k hop hk hsame (hrun (takes_of hst ho hl))
    refine ⟨u.entry w d (spawnEntry (.ok (accHandle n (s.accAt n)))), ?_, ?_, by rw [hentry]; exact howner, by rw [hentry]; exact hkept⟩
    · obtain ⟨hop, rfl, hl⟩ | ⟨hop, rfl, hl⟩ := hlvl
      · refine run 0 [.phase, .job] hop (by decide) (by simpa using hl) fun htakes => ?_
        rw [phaseOp_make (lvl := .graph) (ls := [.phase, .job]) (.inl ⟨rfl, rfl, rfl⟩), hacc, htakes, hu]
        rfl
      · refine run 1 [.job] hop (by decide) (by simpa using hl) fun htakes => ?_
        rw [phaseOp_make (lvl := .phase) (ls := [.job]) (.inr ⟨rfl, rfl, rfl⟩), hacc, htakes, hu]
        rfl
    · unfold accountMade at hnew ⊢
      rw [hentry]
      exact hnew
  case add =>
    intro own n pa hop hlvl hst ho hexp hcount hpreds hne hal' hreach hn hok
    have hdueonly : DueOnly (s.pops [a, b]) t := by rw [← ht]; exact .ite ⟨_, rfl⟩ (dueOnly_refl _)
    obtain ⟨u, hblock, hcaches⟩ := blockAt_noted hal' hreach hdueonly
    have hu := hnote.caches hcaches
    have hopen : ∀ k ∈ phPreds r, (s.accAt (accId k)).st ≠ .done := fun k hk => (hpreds k hk).2.2.2.2.2
    obtain ⟨v, z, hsplit, hmade, hsame, hzst, hznpred, hzparent, hzpexp⟩ := addl_ok hu hs hst ho hexp hn hne hopen hok
    have hvalid : (decide (phNpred r ≤ 8) && (phPreds r).all fun k =>
        decide ((t.accAt (accId k)).level = .launch) && (t.accAt (accId k)).parentV && decide ((t.accAt (accId k)).parent = h) &&
          decide ((t.accAt (accId k)).parentPkg = t.fabric.num)) = true := by
      refine Bool.and_eq_true_iff.2 ⟨decide_eq_true hcount, List.all_eq_true.2 fun k hk => ?_⟩
      obtain ⟨-, hlaunch, hpv, hpar, hpkg, -⟩ := hpreds k hk
      rw [hacc, hfab]
      simp [hlaunch, hpv, hpar, hpkg]
    have hnames : (phPreds r).mapM (fun k => t.needAccount k) = .ok ((phPreds r).map fun _ => ()) :=
      mapM_ok fun k hk => needAccount_noted hnote (hpreds k hk).1
    have htakes : (t.accAt (accId h)).takes [.graph] = true := by rw [hacc]; exact takes_of hst ho (by simpa using hlvl)
    refine ⟨z.entry w d (spawnEntry (.ok (accHandle n (s.accAt n)))), ?_, by rw [hentry]; exact hzst, by rw [hentry]; exact hznpred,
      by rw [hentry]; exact hzparent, by rw [hentry]; exact hzpexp⟩
    have hrun : t.phaseOp w d 2 r = .ok (z.entry w d (spawnEntry (.ok (accHandle n (s.accAt n))))) := by
      unfold State.phaseOp
      dsimp only
      rw [if_pos rfl, hnames]
      dsimp only [bind, Except.bind]
      rw [htakes, hvalid, hblock]
      dsimp only [need_true]
      rw [hsplit]
      dsimp only
      rw [hacc, hmade]
      rfl
    refine ⟨gives_phase hi hp hx hy ((phase_op hq hraw (hop.trans_le (by decide)) hm).trans ?_),
      entry_noted hu hsame w d (spawnEntry (.ok (accHandle n (s.accAt n))))⟩
    rw [ht]
    exact (congrArg (t.phaseOp w d · r) hop).trans hrun
  case close =>
    intro own hop hlvl ho
    obtain ⟨hsame, hat, hback⟩ := returnOwner_ok hrise ((congrArg Account.owner (hacc (accId h))).trans ho)
    have hlevel : (decide (acc.level = .graph) || decide (acc.level = .phase)) = true := by simpa using hlvl
    rw [hacc, hfab] at hback
    have hh : accHandle (accId h) (s.accAt (accId h)) = h := by simpa [State.live] using And.left (by simpa [State.live] using hm.1)
    rw [hh] at hback
    refine ⟨_, goesOf (u := t.returnOwner (accId h)) 3 hop (by decide) hsame ?_, ?_, hdue _ hback⟩
    · have hneed : need (decide ((t.accAt (accId h)).level = .graph) || decide ((t.accAt (accId h)).level = .phase)) .accountOp = .ok () := by
        rw [hacc]; exact congrArg (need · .accountOp) hlevel
      exact congrArg (· >>= fun _ => pure ((t.returnOwner (accId h)).entry w d (spawnEntry (.ok h)))) hneed
    · rw [hentry, hat, hacc]
  case release =>
    intro hop hlvl hst
    have hall := freeAll_frame hrise (t.descendants (accId h))
    refine ⟨_, goesOf (u := (t.freeAll (t.descendants (accId h))).freeAcc (accId h)) 4 hop (by decide) hall.1 ?_, ?_⟩
    · unfold State.phaseOp
      dsimp only
      rw [hacc, decide_eq_true hlvl, decide_eq_true hst]
      rfl
    · rw [hentry]
      exact freeAcc_st hall.2 _

end Sys2Proof.Machine
end

section
set_option Elab.async false
/-! CANCEL (R282, R307) and BAR (R308, R342, R343). -/

namespace Sys2Proof.Machine

/-! ### CANCEL -/

/-- One state is the other but for triggers, packets and what is due. -/
def TrigsOnly (s t : State) : Prop := ∃ T O F D, t = { s with core := { s.core with trigs := T }, others := O, fabric := F, due := D }

theorem TrigsOnly.refl (s : State) : TrigsOnly s s := ⟨_, _, _, _, rfl⟩

theorem TrigsOnly.trans {s t u : State} (h : TrigsOnly s t) (k : TrigsOnly t u) : TrigsOnly s u := by
  obtain ⟨_, _, _, _, rfl⟩ := h
  obtain ⟨T, O, F, D, rfl⟩ := k
  exact ⟨T, O, F, D, rfl⟩

theorem TrigsOnly.ite {s t u : State} {p : Prop} [Decidable p] (ht : TrigsOnly s t) (hu : TrigsOnly s u) : TrigsOnly s (if p then t else u) := by
  split
  · exact ht
  · exact hu

theorem TrigsOnly.each {s : State} {f : State → Nat → State} (h : ∀ s i, TrigsOnly s (f s i)) (is : List Nat) : TrigsOnly s (s.each f is) := by
  induction is generalizing s with
  | nil => exact .refl s
  | cons i is ih => exact (h s i).trans ih

theorem trigsOnly_dropTriggers (s : State) (ids : List Nat) (c : Nat) : TrigsOnly s (s.dropTriggers ids c) := by
  have hset (x : Core) (T : Vector (Option Trigger) 16) (hx : x = s.coreAt c) : TrigsOnly s (s.setCore c { x with trigs := T }) := by
    subst hx
    unfold State.setCore State.coreAt
    split
    · exact ⟨_, _, _, _, rfl⟩
    · exact ⟨_, _, _, _, rfl⟩
  have hgive (us : List Trigger) (t : State) : TrigsOnly t (us.foldl (fun s u => s.giveHold c u.held false 0#64) t) := by
    induction us generalizing t with
    | nil => exact .refl t
    | cons u us ih => exact (TrigsOnly.ite (.refl t) ⟨_, _, _, _, rfl⟩).trans (ih _)
  unfold State.dropTriggers
  exact .ite (.refl s) ((hset _ _ rfl).trans (hgive _ _))

theorem trigsOnly_noticeAll (s : State) (h : Handle) (es : List (Nat × Handle × BitVec 16 × Nat × Bool)) : TrigsOnly s (s.noticeAll h es) := by
  induction es generalizing s with
  | nil => exact .refl s
  | cons e es ih => exact (TrigsOnly.ite ⟨_, _, _, _, rfl⟩ (.refl s)).trans (ih _)

/-- An account marked as cancelling (R282). -/
def Marked (a : Account) : Prop := a.st = .cancelling ∧ a.cancel = true

/-- What cancelling one account does to the records: its own is marked unless it is done or free, and no other changes. -/
theorem cancelOne_spec (s : State) (i : Nat) :
    (∃ A D, s.cancelOne i = { s with hub := { s.hub with accounts := A }, due := D }) ∧
      (∀ j, j ≠ i → (s.cancelOne i).accAt j = s.accAt j) ∧
      ((s.accAt i).st = .done ∨ (s.accAt i).st = .free → (s.cancelOne i).accAt i = s.accAt i) ∧
      (¬ ((s.accAt i).st = .done ∨ (s.accAt i).st = .free) → Marked ((s.cancelOne i).accAt i)) := by
  by_cases h : (s.accAt i).st = .done ∨ (s.accAt i).st = .free
  · have e : s.cancelOne i = s := if_pos h
    rw [e]
    exact ⟨⟨_, _, rfl⟩, fun _ _ => rfl, fun _ => rfl, fun hn => absurd h hn⟩
  · have hback {t u : State} {v : Nat} {r : Ret} (ht : DueOnly t u) : DueOnly t (if v = 0 then u else u.addDue [.returnArrive r]) := by
      obtain ⟨xs, rfl⟩ := ht
      split
      · exact ⟨xs, rfl⟩
      · exact ⟨xs ++ [_], congrArg (fun l => State.mk _ _ _ _ _ _ _ _ _ l _ _) (List.append_assoc ..)⟩
    let a : Account := { s.accAt i with st := .cancelling, cancel := true, owner := none, launch := (s.accAt i).launch.map LaunchInfo.spent }
    have e : DueOnly (s.setAcc i a) (s.cancelOne i) := by
      have hne : s.cancelOne i = _ := if_neg h
      rw [hne]
      exact hback (hback (dueOnly_refl _))
    have hat (j : Nat) : (s.setAcc i a).accAt j = if j = i then a else s.accAt j :=
      State.accAt_setAcc_of_ne (fun e => (by decide : AccSt.cancelling ≠ .free) (congrArg Account.st e)) s i j
    obtain ⟨xs, e⟩ := e
    rw [e]
    refine ⟨⟨_, _, rfl⟩, fun j hj => (hat j).trans (if_neg hj), fun hd => absurd hd h, fun _ => ?_⟩
    have : ((s.setAcc i a).addDue xs).accAt i = a := (hat i).trans (if_pos rfl)
    rw [this]
    exact ⟨rfl, rfl⟩

/-- Cancelling a list of accounts marks each that is not done or free. -/
theorem cancelAll_spec (s : State) (is : List Nat) :
    (∃ A D, s.cancelAll is = { s with hub := { s.hub with accounts := A }, due := D }) ∧
      (∀ j, Marked (s.accAt j) → Marked ((s.cancelAll is).accAt j)) ∧
      (∀ j ∈ is, ¬ ((s.accAt j).st = .done ∨ (s.accAt j).st = .free) → Marked ((s.cancelAll is).accAt j)) := by
  induction is generalizing s with
  | nil => exact ⟨⟨_, _, rfl⟩, fun _ h => h, nofun⟩
  | cons i is ih =>
    obtain ⟨⟨A, D, hone⟩, hother, hsame, hmark⟩ := cancelOne_spec s i
    obtain ⟨⟨A', D', hall⟩, hkeep, hrest⟩ := ih (s.cancelOne i)
    have hkept (j : Nat) (hj : Marked (s.accAt j)) : Marked ((s.cancelOne i).accAt j) := by
      by_cases e : j = i
      · subst e
        refine hmark ?_
        rw [hj.1]
        decide
      · rw [hother j e]; exact hj
    refine ⟨⟨A', D', ?_⟩, fun j hj => hkeep j (hkept j hj), fun j hj hlive => ?_⟩
    · rw [State.cancelAll, hall, hone]
    · by_cases e : j = i
      · subst e; exact hkeep j (hmark hlive)
      · refine hrest j ((List.mem_cons.1 hj).resolve_left e) ?_
        rw [hother j e]; exact hlive

/-- CANCEL of an account that is not done marks it and every account below it that is not done (R282). -/
theorem cancelAcc_spec {s : State} {i : Nat} (hlive : (s.accAt i).st ≠ .free) (h : (s.accAt i).st ≠ .done) :
    (s.cancelAcc i).core.arch = s.core.arch ∧ (s.cancelAcc i).mem = s.mem ∧ (s.cancelAcc i).port = s.port ∧
      ∀ j, j = i ∨ j ∈ s.descendants i → (s.accAt j).st ≠ .done → Marked ((s.cancelAcc i).accAt j) := by
  obtain ⟨⟨A, D, hall⟩, -, hmark⟩ := cancelAll_spec s (i :: s.descendants i)
  have honly : TrigsOnly (s.cancelAll (i :: s.descendants i)) (s.cancelAcc i) := by
    have e : s.cancelAcc i = _ := if_neg h
    rw [e]
    have hdue (t : State) (xs : List Action) : TrigsOnly t (t.addDue xs) := ⟨_, _, _, _, rfl⟩
    unfold State.cancelList
    exact ((hdue _ _).trans (.each (fun s c => trigsOnly_dropTriggers s _ c) _)).trans (.each (fun s j => trigsOnly_noticeAll s _ _) _)
  obtain ⟨T, O, F, D', hend⟩ := honly
  rw [hend]
  refine ⟨by rw [hall], by rw [hall], by rw [hall], fun j hj hd => ?_⟩
  refine hmark j (by simpa using hj) ?_
  rintro (hdone | hfree)
  · exact hd hdone
  · obtain rfl | hj := hj
    · exact hlive hfree
    · unfold State.descendants at hj
      have := (List.mem_filter.1 hj).2
      simp [hfree] at this

/-! ### BAR -/

/-- One state is the other but for the episodes of trees, packets and what is due. -/
def PodOnly (s t : State) : Prop := ∃ E B F D, t = { s with hub := { s.hub with episodes := E, barNext := B }, fabric := F, due := D }

theorem PodOnly.refl (s : State) : PodOnly s s := ⟨_, _, _, _, rfl⟩

theorem PodOnly.trans {s t u : State} (h : PodOnly s t) (k : PodOnly t u) : PodOnly s u := by
  obtain ⟨_, _, _, _, rfl⟩ := h
  obtain ⟨E, B, F, D, rfl⟩ := k
  exact ⟨E, B, F, D, rfl⟩

theorem PodOnly.ite {s t u : State} {p : Prop} [Decidable p] (ht : PodOnly s t) (hu : PodOnly s u) : PodOnly s (if p then t else u) := by
  split
  · exact ht
  · exact hu

theorem podOnly_setEpisode (s : State) (e : Episode) : PodOnly s (s.setEpisode e) := ⟨_, _, _, _, rfl⟩

theorem podOnly_keepEpisode (s : State) (t : Tree) (e : Episode) : PodOnly s (s.keepEpisode t e) := .ite ⟨_, _, _, _, rfl⟩ (podOnly_setEpisode s e)

theorem podOnly_episodeDone (s : State) (key : Nat) (t : Tree) (e : Episode) : PodOnly s (s.episodeDone key t e) :=
  .ite ⟨_, _, _, _, rfl⟩ (.ite ⟨_, _, _, _, rfl⟩ ⟨_, _, _, _, rfl⟩)

theorem barNext_keepEpisode (s : State) (t : Tree) (e : Episode) : (s.keepEpisode t e).hub.barNext = s.hub.barNext := by
  unfold State.keepEpisode; split <;> rfl

theorem barNext_episodeDone (s : State) (key : Nat) (t : Tree) (e : Episode) : (s.episodeDone key t e).hub.barNext = s.hub.barNext := by
  unfold State.episodeDone; dsimp only; split
  · rfl
  · split <;> rfl

/-- One contribution to a tree (R343): the participant's next episode alone moves on. -/
theorem contributeOne_tree {s : State} {key : Nat} {t : Tree} (ht : s.treeOf key = some t) (part : Nat) (v : Option Word) (broken : Bool) :
    PodOnly s (s.contributeOne key part v broken) ∧
      (s.contributeOne key part v broken).hub.barNext = NatMap.put (key * 512 + part) (s.nextEpisode key part + 1) s.hub.barNext := by
  unfold State.contributeOne
  rw [ht]
  dsimp only
  generalize (if decide (s.nextEpisode key part < s.openEpisode key) = true then _ else _ : Episode) = e1
  generalize hs1 : (s.setEpisode e1).withHub { (s.setEpisode e1).hub with barNext := NatMap.put (key * 512 + part) (s.nextEpisode key part + 1) s.hub.barNext } = s1
  have h1 : PodOnly s s1 ∧ s1.hub.barNext = NatMap.put (key * 512 + part) (s.nextEpisode key part + 1) s.hub.barNext := by
    rw [← hs1]; exact ⟨⟨_, _, _, _, rfl⟩, rfl⟩
  have h2 {b : Bool} : PodOnly s (if b then s1.addDue [.barTimeout key] else s1) ∧
      (if b then s1.addDue [.barTimeout key] else s1).hub.barNext = NatMap.put (key * 512 + part) (s.nextEpisode key part + 1) s.hub.barNext := by
    split
    · exact ⟨h1.1.trans ⟨_, _, _, _, rfl⟩, h1.2⟩
    · exact h1
  split
  · exact ⟨h2.1.trans (podOnly_keepEpisode ..), (barNext_keepEpisode ..).trans h2.2⟩
  · split
    · exact ⟨h2.1.trans (podOnly_episodeDone ..), (barNext_episodeDone ..).trans h2.2⟩
    · exact h2

theorem podOnly_contributeOne (s : State) (key part : Nat) (v : Option Word) (broken : Bool) : PodOnly s (s.contributeOne key part v broken) := by
  cases ht : s.treeOf key with
  | none =>
    have e : s.contributeOne key part v broken = s := by unfold State.contributeOne; rw [ht]
    rw [e]; exact .refl s
  | some t => exact (contributeOne_tree ht part v broken).1

theorem treeOf_podOnly {s t : State} (h : PodOnly s t) (key : Nat) : t.treeOf key = s.treeOf key := by obtain ⟨_, _, _, _, rfl⟩ := h; rfl

theorem findD_put (m : NatMap Nat) (k j v : Nat) : NatMap.findD 0 k (NatMap.put j v m) = if k = j then v else NatMap.findD 0 k m := by
  unfold NatMap.findD
  rw [NatMap.find_put]
  split <;> rfl

/-- Another participant's contribution leaves a core's next episode. -/
theorem nextEpisode_contributeOne_other {s : State} {key part q : Nat} (hq : q ≠ part) (v : Option Word) (broken : Bool) :
    (s.contributeOne key q v broken).nextEpisode key part = s.nextEpisode key part := by
  cases ht : s.treeOf key with
  | none =>
    have e : s.contributeOne key q v broken = s := by unfold State.contributeOne; rw [ht]
    rw [e]
  | some t =>
    unfold State.nextEpisode
    rw [(contributeOne_tree ht q v broken).2, findD_put, if_neg (by omega)]

/-- The lost children that count in an episode move no core on (R343). -/
theorem settleTree_spec (s : State) (key : Nat) {part : Nat} (hp : part < 256) :
    PodOnly s (s.settleTree key) ∧ (s.settleTree key).nextEpisode key part = s.nextEpisode key part := by
  have hfold (qs : List Nat) (h : ∀ q ∈ qs, 256 ≤ q) (t : State) :
      PodOnly t (qs.foldl (fun s q => s.contributeOne key q none true) t) ∧
        (qs.foldl (fun s q => s.contributeOne key q none true) t).nextEpisode key part = t.nextEpisode key part := by
    induction qs generalizing t with
    | nil => exact ⟨.refl t, rfl⟩
    | cons q qs ih =>
      obtain ⟨hq, hqs⟩ := List.forall_mem_cons.1 h
      obtain ⟨hrest, hnext⟩ := ih hqs (t.contributeOne key q none true)
      exact ⟨(podOnly_contributeOne ..).trans hrest, hnext.trans (nextEpisode_contributeOne_other (by omega) _ _)⟩
  unfold State.settleTree
  cases ht : s.treeOf key with
  | none => exact ⟨.refl s, rfl⟩
  | some t =>
    dsimp only
    split
    · rename_i hall
      refine hfold _ (fun q hq => ?_) s
      have := List.all_eq_true.1 (Bool.and_eq_true_iff.1 hall).2 q hq
      simpa using (Bool.and_eq_true_iff.1 this).1
    · exact ⟨.refl s, rfl⟩

/-- A core's contribution to a tree that it is a member of (R308, R343). -/
theorem contribute_spec {s : State} {key part : Nat} {t : Tree} (ht : s.treeOf key = some t) (hp : part < 256) (v : Option Word) (broken : Bool) :
    PodOnly s (s.contribute key part v broken) ∧ (s.contribute key part v broken).nextEpisode key part = s.nextEpisode key part + 1 := by
  obtain ⟨honly, hnext⟩ := contributeOne_tree ht part v broken
  obtain ⟨hsettle, hkeep⟩ := settleTree_spec (s.contributeOne key part v broken) key hp
  refine ⟨honly.trans hsettle, hkeep.trans ?_⟩
  unfold State.nextEpisode
  rw [hnext, findD_put, if_pos rfl]
  rfl

/-- The contributions of a core that are still due, made first (R308). -/
theorem joinEarlier_spec {s : State} {key part : Nat} {t : Tree} (ht : s.treeOf key = some t) (hp : part < 256) :
    PodOnly s (s.joinEarlier key part) ∧
      (s.joinEarlier key part).nextEpisode key part = s.nextEpisode key part + (s.due.filter (joinsAs key part)).length := by
  have hfold (as : List Action) (u : State) (hu : u.treeOf key = some t) :
      PodOnly u (as.foldl (fun s _ => s.contribute key part none true) u) ∧
        (as.foldl (fun s _ => s.contribute key part none true) u).nextEpisode key part = u.nextEpisode key part + as.length := by
    induction as generalizing u with
    | nil => exact ⟨.refl u, rfl⟩
    | cons a as ih =>
      obtain ⟨hone, hnext⟩ := contribute_spec hu hp none true
      obtain ⟨hrest, hcount⟩ := ih (u.contribute key part none true) ((treeOf_podOnly hone key).trans hu)
      refine ⟨hone.trans hrest, hcount.trans ?_⟩
      rw [hnext, List.length_cons]
      omega
  have h := hfold (s.due.filter (joinsAs key part)) { s with due := s.due.filter fun a => !joinsAs key part a } ht
  exact ⟨PodOnly.trans ⟨_, _, _, _, rfl⟩ h.1, h.2⟩

/-- BAR once the core is known to be a member: it contributes, and its entry waits, or is filled where the result has come. -/
def State.joinBar (s : State) (w : Bool) (d : BitVec 6) (key : Nat) (v : Word) : State :=
  let c := s.cur
  let s := s.joinEarlier key c
  let n := s.nextEpisode key c
  let s1 := s.withCore { s.core with joined := if s.core.joined.contains key then s.core.joined else s.core.joined ++ [key] }
  if n < s1.openEpisode key then
    (s1.entry w d (podEntry ((s1.episodeAt key n).value.getD 0#64) true)).contribute key c (some v) false
  else
    (if w then s1
      else
        let r := s1.reserve d .work none false
        r.2.withHub { r.2.hub with barWaits := r.2.hub.barWaits ++ [{ tree := key, num := n, core := c, unit := s1.core.self, id := r.1 }] }).contribute
          key c (some v) false

/-- A reserved entry stands at its queue's tail (R203). -/
theorem reserve_entries (s : State) (d : BitVec 6) (k : QKind) :
    ((s.reserve d k none false).2.core.queueAt (d.setWidth 3)).entries =
      (s.core.queueAt (d.setWidth 3)).entries ++ [{ freshEntry s with kind := k }] :=
  congrArg Queue.entries ((queueAt_vput _ _ _ _).trans (if_pos rfl))

/-- A member's contribution, as R308 says it. -/
theorem joinBar_spec {s z : State} {P : BitVec 8} (hz : z = { s with core := { s.core with popped := P } }) {key : Nat} {t : Tree}
    (ht : s.treeOf key = some t) (hcur : s.cur < 256) (w : Bool) (d : BitVec 6) (v : Word) :
    let r := z.joinEarlier key s.cur
    workFrame s (z.joinBar w d key v) ∧ key ∈ (z.joinBar w d key v).core.joined ∧
      (z.joinBar w d key v).nextEpisode key s.cur = s.nextEpisode key s.cur + (s.due.filter (joinsAs key s.cur)).length + 1 ∧
      if r.nextEpisode key s.cur < r.openEpisode key then
        workEntry s (z.joinBar w d key v) w d (podEntry ((r.episodeAt key (r.nextEpisode key s.cur)).value.getD 0#64) true)
      else
        laterEntry s (z.joinBar w d key v) w d .work ∧ (w = false →
          ({ tree := key, num := r.nextEpisode key s.cur, core := s.cur, unit := s.core.self, id := s.hub.nextEntry } : BarWait) ∈
            (z.joinBar w d key v).hub.barWaits) := by
  intro r
  have hzt : z.treeOf key = some t := by rw [hz]; exact ht
  have hzcur : z.cur = s.cur := by rw [hz]
  obtain ⟨honly, hnext⟩ := joinEarlier_spec hzt hcur
  have hcount : r.nextEpisode key s.cur = s.nextEpisode key s.cur + (s.due.filter (joinsAs key s.cur)).length := by rw [hnext, hz]; rfl
  let J := if r.core.joined.contains key then r.core.joined else r.core.joined ++ [key]
  have hmem : key ∈ J := by
    dsimp only [J]
    split
    · rename_i h; exact List.contains_iff_mem.1 h
    · exact List.mem_append_right _ (List.mem_singleton_self _)
  let s1 := r.withCore { r.core with joined := J }
  have hrt : r.treeOf key = some t := (treeOf_podOnly honly key).trans hzt
  have hr : r.cur = s.cur ∧ r.core = z.core ∧ r.mem = s.mem ∧ r.port = s.port ∧ r.hub.nextEntry = s.hub.nextEntry := by
    obtain ⟨_, _, _, _, e⟩ := honly
    rw [show r = _ from e, hz]
    exact ⟨rfl, rfl, rfl, rfl, rfl⟩
  obtain ⟨-, hrcore, hrmem, hrport, hrid⟩ := hr
  have hstep (u : State) (hu : u.treeOf key = some t) (hn : u.nextEpisode key s.cur = r.nextEpisode key s.cur)
      (hf : workFrame s u) (hj : u.core.joined = J) :
      workFrame s (u.contribute key s.cur (some v) false) ∧ key ∈ (u.contribute key s.cur (some v) false).core.joined ∧
        (u.contribute key s.cur (some v) false).nextEpisode key s.cur = s.nextEpisode key s.cur + (s.due.filter (joinsAs key s.cur)).length + 1 ∧
        (u.contribute key s.cur (some v) false).core = u.core ∧ (u.contribute key s.cur (some v) false).hub.barWaits = u.hub.barWaits := by
    obtain ⟨hpod, hone⟩ := contribute_spec hu hcur (some v) false
    refine ⟨?_, ?_, by rw [hone, hn, hcount], ?_, ?_⟩
    all_goals obtain ⟨_, _, _, _, e⟩ := hpod
    · unfold workFrame at hf ⊢; rw [e]; exact hf
    · rw [e]; exact hj ▸ hmem
    · rw [e]
    · rw [e]
  have hz1 : workFrame s s1 := ⟨by dsimp only [s1, State.withCore]; rw [hrcore, hz], hrmem, hrport⟩
  have hq1 : s1.core.q = s.core.q := by dsimp only [s1, State.withCore]; rw [hrcore, hz]
  by_cases hlate : r.nextEpisode key s.cur < r.openEpisode key
  · rw [if_pos hlate]
    have hbar : z.joinBar w d key v = (s1.entry w d (podEntry ((r.episodeAt key (r.nextEpisode key s.cur)).value.getD 0#64) true)).contribute key
        s.cur (some v) false := by
      unfold State.joinBar
      rw [hzcur]
      exact if_pos hlate
    generalize podEntry ((r.episodeAt key (r.nextEpisode key s.cur)).value.getD 0#64) true = e at hbar ⊢
    obtain ⟨earch, -, emem, eport, eentry, -⟩ := entry_work (s := s1) w d e
    have hE : (s1.entry w d e).treeOf key = some t ∧ (s1.entry w d e).nextEpisode key s.cur = r.nextEpisode key s.cur ∧
        (s1.entry w d e).core.joined = J := by
      cases w <;> exact ⟨hrt, rfl, rfl⟩
    obtain ⟨hEt, hEn, hEj⟩ := hE
    obtain ⟨h1, h2, h3, hcore, -⟩ := hstep _ hEt hEn ⟨earch.trans hz1.1, emem.trans hz1.2.1, eport.trans hz1.2.2⟩ hEj
    rw [hbar]
    refine ⟨h1, h2, h3, workEntry_congr hq1 ?_⟩
    unfold workEntry at eentry ⊢
    rw [hcore]
    exact eentry
  · rw [if_neg hlate]
    cases w with
    | true =>
      have hbar : z.joinBar true d key v = s1.contribute key s.cur (some v) false := by
        unfold State.joinBar
        rw [hzcur]
        exact if_neg hlate
      obtain ⟨h1, h2, h3, hcore, -⟩ := hstep s1 hrt rfl hz1 rfl
      rw [hbar]
      refine ⟨h1, h2, h3, ?_, nofun⟩
      unfold laterEntry
      rw [hcore]
      exact hq1
    | false =>
      let b : BarWait := { tree := key, num := r.nextEpisode key s.cur, core := s.cur, unit := s.core.self, id := s.hub.nextEntry }
      let u := (s1.reserve d .work none false).2.withHub { (s1.reserve d .work none false).2.hub with
        barWaits := (s1.reserve d .work none false).2.hub.barWaits ++ [b] }
      have hself : s1.core.self = s.core.self := by dsimp only [s1, State.withCore]; rw [hrcore, hz]; rfl
      have hid : (s1.reserve d .work none false).1 = s.hub.nextEntry := hrid
      have hbar : z.joinBar false d key v = u.contribute key s.cur (some v) false := by
        unfold State.joinBar
        rw [hzcur]
        refine (if_neg hlate).trans ?_
        dsimp only [u, b]
        rw [← hself, ← hid]
        rfl
      obtain ⟨h1, h2, h3, hcore, hwaits⟩ := hstep u hrt rfl ⟨hz1.1, hz1.2.1, hz1.2.2⟩ rfl
      rw [hbar]
      refine ⟨h1, h2, h3, ?_, fun _ => ?_⟩
      · refine ⟨{ freshEntry s with kind := .work }, ?_, rfl, rfl, rfl, rfl⟩
        have hnew : (u.core.queueAt (d.setWidth 3)).entries = (s1.core.queueAt (d.setWidth 3)).entries ++ [{ freshEntry s1 with kind := .work }] :=
          reserve_entries s1 d .work
        have hfresh : freshEntry s1 = freshEntry s := by unfold freshEntry; rw [← hrid]; rfl
        rw [hcore, hnew, hfresh]
        unfold Core.queueAt
        rw [hq1]
      · rw [hwaits]
        exact List.mem_append_right _ (List.mem_singleton_self _)

theorem need_bind_false {b : Bool} (h : b = false) (k : Cause) (a : Word) (f : Unit → Except Stop State) :
    (need b k a >>= f) = .error (.trap k a) := by rw [h]; rfl

theorem needAccount_not {s : State} {h : Handle} (hm : ¬ MayName s h) (as : List Src) :
    (s.pops as).needAccount h = .error (.trap .accountStale 0#64) := by
  have hpart : (s.pops as).needAccount h = s.needAccount h := by
    unfold State.needAccount State.live State.partHere State.accAt
    rw [pops_cur, pops_hub, pops_eq]
  rw [hpart]
  unfold State.needAccount
  have : (s.live h && (decide (s.cur = rangerId) || decide ((s.accAt (accId h)).part = s.partHere))) = false := by
    refine Bool.eq_false_iff.2 fun e => hm ?_
    obtain ⟨hl, hw⟩ := Bool.and_eq_true_iff.1 e
    exact ⟨hl, by simpa using hw⟩
  exact (congrArg (need · .accountStale) this).trans rfl

/-- Settles O26: CANCEL marks the accounts it reaches, and BAR joins the next episode of its tree. -/
theorem cancelBarResults : Obligations.CancelBarResults := by
  unfold Obligations.CancelBarResults
  intro s p w d a b x v hp hx hv
  have hreadX (as : List Src) : (s.pops as).getS a = .ok x := by rw [getS_pops, getS_of_readS hx]
  refine ⟨?cancel, ?bar⟩
  case cancel =>
    intro h
    have hacc (i : Nat) : (s.pops [a]).accAt i = s.accAt i := by unfold State.accAt; rw [pops_hub]
    have run (hm : MayName s h) : Gives (.cancel p a) s ((s.pops [a]).cancelAcc (accId h)) := by
      refine (exec_cancel ..).trans (issue_ok hp ?_)
      rw [hreadX]
      dsimp only [bind, Except.bind]
      rw [needAccount_ok hm]
      rfl
    refine ⟨fun hm hd => ?_, fun hm hd => ⟨_, run hm, ?_⟩, fun hm => (exec_cancel ..).trans (issue_trap hp ?_)⟩
    · have e : (s.pops [a]).cancelAcc (accId h) = s.pops [a] := if_pos (by rw [hacc]; exact hd)
      exact e ▸ run hm
    · have hfree : (s.accAt (accId h)).st ≠ .free := by
        have := hm.1
        unfold State.live at this
        simpa using (Bool.and_eq_true_iff.1 this).2
      obtain ⟨harch, hmem, hport, hmarked⟩ := cancelAcc_spec (s := s.pops [a]) (by rw [hacc]; exact hfree) (by rw [hacc]; exact hd)
      refine ⟨⟨harch.trans (pops_arch ..), hmem.trans (pops_mem ..), hport.trans (by rw [pops_eq])⟩, fun i hi hdi => hmarked i ?_ ?_⟩
      · rw [descendants_noted (notedOnly_pops s [a])]
        exact hi
      · rw [hacc]; exact hdi
    · rw [hreadX]
      dsimp only [bind, Except.bind]
      rw [needAccount_not hm]
  case bar =>
    intro hq key member
    have hpart : (s.pops [a, b]).core.part = s.core.part := by rw [pops_eq]
    have hread : (s.pops [a, b]).getS b = .ok v := by rw [getS_pops, getS_of_readS hv]
    have htree (k : Nat) : (s.pops [a, b]).treeOf k = s.treeOf k := by unfold State.treeOf State.imageOf; rw [pops_hub]
    have hqueue (hw : w = false) : (s.pops [a, b]).needQueue d = .ok () := needQueue_ok (hq hw) _
    refine ⟨fun hm => ?_, fun hm => ?_⟩
    · obtain ⟨h64, hcur, tr, htr, hbit⟩ := hm
      have hpure {c : Prop} [Decidable c] {t u : State} : (if c then pure t else pure u : Except Stop State) = .ok (if c then t else u) := by
        split <;> rfl
      have run : Gives (.bar p w d a b) s ((s.pops [a, b]).joinBar w d key v) := by
        refine (exec_bar ..).trans (issue_ok hp ?_)
        rw [hreadX, hread]
        dsimp only [bind, Except.bind]
        cases w with
        | true =>
          rw [if_neg (by decide), hpart, if_pos h64, htree, htr]
          dsimp only
          rw [pops_cur, decide_eq_true hcur, hbit, Bool.and_self, need_true]
          refine hpure.trans (congrArg Except.ok ?_)
          unfold State.joinBar
          rw [pops_cur]
        | false =>
          rw [if_pos (by decide), hqueue rfl]
          dsimp only
          rw [hpart, if_pos h64, htree, htr]
          dsimp only
          rw [pops_cur, decide_eq_true hcur, hbit, Bool.and_self, need_true]
          refine hpure.trans (congrArg Except.ok ?_)
          unfold State.joinBar
          rw [pops_cur]
      refine ⟨_, run, joinBar_spec (pops_eq s [a, b]) htr hcur w d v⟩
    · refine (exec_bar ..).trans (issue_trap hp ?_)
      have hnot : (match (if x.toNat < 64 then s.treeOf key else none) with
          | some t => decide (s.cur < 256) && t.members.getLsbD s.cur
          | none => false) = false := by
        by_cases h64 : x.toNat < 64
        · rw [if_pos h64]
          cases htr : s.treeOf key with
          | none => rfl
          | some tr => exact Bool.eq_false_iff.2 fun e => hm ⟨h64, by simpa using (Bool.and_eq_true_iff.1 e).1, tr, htr, (Bool.and_eq_true_iff.1 e).2⟩
        · rw [if_neg h64]
      rw [hreadX, hread]
      dsimp only [bind, Except.bind]
      cases w with
      | true =>
        rw [if_neg (by decide), hpart, htree, pops_cur]
        exact need_bind_false hnot _ _ _
      | false =>
        rw [if_pos (by decide), hqueue rfl]
        dsimp only
        rw [hpart, htree, pops_cur]
        exact need_bind_false hnot _ _ _

end Sys2Proof.Machine
end

section
set_option Elab.async false
/-! The engine registers, channels and the sparse-index engine (R162 to R165, R183, R184, R250, R251, R253). -/

namespace Sys2Proof.Machine

/-! ### Engine registers -/

theorem engineRz_due (s : State) (bad : Bool) : DueOnly s (s.engineRz bad) := by
  unfold State.engineRz
  split
  · exact ⟨_, rfl⟩
  · exact dueOnly_refl s

/-- A write of a stream register (R163). -/
def State.streamed (s : State) (n : Nat) (v : BitVec 128) : State :=
  let x := s.core
  s.withCore { x with arch := { x.arch with
    g := vput x.arch.g (n / 4) (setField (vget 0#512 x.arch.g (n / 4)) (128 * (n % 4)) 128 (v &&& streamMask (n % 4)).toNat)
    snapOk := vput x.arch.snapOk (n / 4) false } }

/-- The words of the stream registers after a write of one. -/
theorem word_streamed (s : State) {n : Nat} (hn : n < 0x40) (v : BitVec 128) {k j : Nat} (hk : k < 16) (hj : j < 4) :
    BitVec.ofNat 128 (fld (vget 0#512 (s.streamed n v).core.arch.g k) (128 * j) 128) =
      if n = 4 * k + j then v &&& streamMask j else BitVec.ofNat 128 (fld (vget 0#512 s.core.arch.g k) (128 * j) 128) := by
  have hg : n / 4 < 16 := by omega
  unfold State.streamed
  rw [State.withCore_core, vget_vput _ _ _ hg]
  by_cases hkn : k = n / 4
  · rw [if_pos hkn, ← hkn]
    by_cases hjn : j = n % 4
    · rw [if_pos (by omega), ← hjn, fld_setField_same _ _ (by omega)]
      exact BitVec.eq_of_toNat_eq (by rw [BitVec.toNat_ofNat, Nat.mod_mod, Nat.mod_eq_of_lt (v &&& streamMask j).isLt])
    · rw [if_neg (by omega), fld_setField_other _ _ (by omega)]
  · rw [if_neg hkn, if_neg (by omega)]

/-- What ENGWR comes to, but for actions made due: a stream register, SIXSRC, SIXCFG, or nothing. -/
theorem engWrite_due (s : State) (e : BitVec 8) (v : BitVec 128) :
    DueOnly (if e.toNat < 0x40 then s.streamed e.toNat v
      else if e.toNat = 0x60 then s.withCore { s.core with arch := { s.core.arch with sixsrc := v } }
      else if e.toNat = 0x61 then s.withCore { s.core with arch := { s.core.arch with sixcfg := v &&& sixMask } }
      else s) (s.engWrite e v) := by
  unfold State.engWrite
  dsimp only
  split
  · exact engineRz_due _ _
  split
  · exact dueOnly_refl _
  split
  · exact engineRz_due _ _
  · exact dueOnly_refl _

/-! ### Channels -/

/-- What a change of a channel of the sequencer in focus leaves: its channels, transfers and actions due are all that differ. -/
def ChanStep (s t : State) (cs : Vector Chan 8) : Prop := ∃ X xs, t =
  (({ s with core := { s.core with chans := cs }, hub := { s.hub with xfers := X } } : State)).addDue xs

theorem ChanStep.refl (s : State) : ChanStep s s s.core.chans := ⟨s.hub.xfers, dueOnly_refl s⟩

theorem ChanStep.addDue {s t : State} {cs : Vector Chan 8} (h : ChanStep s t cs) (ys : List Action) : ChanStep s (t.addDue ys) cs := by
  obtain ⟨X, xs, rfl⟩ := h
  exact ⟨X, xs ++ ys, congrArg (fun l => State.mk _ _ _ _ _ _ _ _ _ l _ _) (List.append_assoc ..)⟩

theorem ChanStep.due {s t u : State} {cs : Vector Chan 8} (h : ChanStep s t cs) (k : DueOnly t u) : ChanStep s u cs := by
  obtain ⟨ys, rfl⟩ := k; exact h.addDue ys

theorem ChanStep.resume {s t : State} {cs : Vector Chan 8} (h : ChanStep s t cs) (xs : List Nat) : ChanStep s (t.each State.resumeXfer xs) cs := by
  induction xs generalizing t with
  | nil => exact h
  | cons x xs ih =>
    refine ih ?_
    unfold State.resumeXfer
    split
    · exact h
    · obtain ⟨X, ys, rfl⟩ := h
      exact (show ChanStep s _ cs from ⟨_, ys, rfl⟩).addDue _

section
variable {s t : State} {cs : Vector Chan 8} (h : ChanStep s t cs) {u : Nat} (hu : s.runsOn u = some s.cur)
include h hu

theorem ChanStep.runs : t.runsOn u = some t.cur := by
  obtain ⟨X, xs, rfl⟩ := h
  exact (runsOn_withCore (s := s) (x := { s.core with chans := cs }) rfl u).trans hu

theorem ChanStep.chanAt (n : Nat) : t.chanAt u n = vget {} cs n := by
  unfold State.chanAt State.engOf
  rw [h.runs hu]
  dsimp only
  rw [State.coreAt_cur]
  obtain ⟨X, xs, rfl⟩ := h
  rfl

theorem ChanStep.setChan (n : Nat) (c : Chan) : ChanStep s (t.setChan u n c) (vput cs n c) := by
  unfold State.setChan State.modEng
  rw [h.runs hu]
  dsimp only
  unfold State.modCore State.setCore
  rw [State.coreAt_cur, if_pos rfl]
  obtain ⟨X, xs, rfl⟩ := h
  exact ⟨X, xs, rfl⟩

end

/-- ERRCLR leaves ERROR clear (R253). -/
theorem errClear_chan {s : State} {u : Nat} (hu : s.runsOn u = some s.cur) (n : Nat) (hn : n < 8) :
    ∃ cs, ChanStep s (s.errClear u n) cs ∧ (vget {} cs n).error = false ∧ (vget {} cs n).parked = (vget {} s.core.chans n).parked ∧
      (vget {} cs n).walking = (vget {} s.core.chans n).walking := by
  have hold := (ChanStep.refl s).chanAt hu n
  unfold State.errClear
  dsimp only
  rw [hold]
  split
  · exact ⟨_, ChanStep.refl s, by simp_all, rfl, rfl⟩
  · generalize vget {} s.core.chans n = c
    have hset := (ChanStep.refl s).setChan hu n { c with error := false, faulted := [] }
    refine ⟨_, (hset.resume c.faulted).addDue _, ?_⟩
    rw [vget_vput_self _ _ _ hn]
    exact ⟨rfl, rfl, rfl⟩

/-- RESUME has a parked channel walk again (R250). -/
theorem ChanStep.unpark {s t : State} {cs : Vector Chan 8} (h : ChanStep s t cs) {u : Nat} (hu : s.runsOn u = some s.cur) (n : Nat) (hn : n < 8) :
    ∃ ds, ChanStep s (t.unpark u n) ds ∧ (vget {} ds n).error = (vget {} cs n).error ∧ (vget {} ds n).parked = false ∧
      (vget {} ds n).walking = ((vget {} cs n).walking || (vget {} cs n).parked) := by
  unfold State.unpark
  dsimp only
  rw [h.chanAt hu]
  split
  · rename_i hp
    have hset := h.setChan hu n { vget {} cs n with parked := false, walking := true }
    refine ⟨_, hset.addDue _, ?_⟩
    rw [vget_vput_self _ _ _ hn, hp, Bool.or_true]
    exact ⟨rfl, rfl, rfl⟩
  · rename_i hp
    rw [Bool.not_eq_true] at hp
    exact ⟨cs, h, rfl, hp, by rw [hp, Bool.or_false]⟩

/-- A write of CHnCTL (R250, R253). -/
theorem chanControl_chan {s : State} (hu : s.runsOn s.core.self = some s.cur) (n : BitVec 3) (v : BitVec 128) :
    ∃ cs, ChanStep s (s.chanControl n v) cs ∧ (vget {} cs n.toNat).error = ((vget {} s.core.chans n.toNat).error && !bitAt v 0) ∧
      (vget {} cs n.toNat).parked = ((vget {} s.core.chans n.toNat).parked && !bitAt v 1) ∧
      (vget {} cs n.toNat).walking = ((vget {} s.core.chans n.toNat).walking || ((vget {} s.core.chans n.toNat).parked && bitAt v 1)) := by
  have hn : n.toNat < 8 := n.isLt
  have first : ∃ cs, ChanStep s (if bitAt v 0 then s.errClear s.core.self n.toNat else s) cs ∧
      (vget {} cs n.toNat).error = ((vget {} s.core.chans n.toNat).error && !bitAt v 0) ∧
      (vget {} cs n.toNat).parked = (vget {} s.core.chans n.toNat).parked ∧
      (vget {} cs n.toNat).walking = (vget {} s.core.chans n.toNat).walking := by
    cases bitAt v 0 with
    | true =>
      obtain ⟨cs, h, he, hp, hw⟩ := errClear_chan hu n.toNat hn
      exact ⟨cs, h, by rw [he]; simp, hp, hw⟩
    | false => exact ⟨_, ChanStep.refl s, by simp, rfl, rfl⟩
  obtain ⟨cs, h, he, hp, hw⟩ := first
  unfold State.chanControl
  dsimp only
  cases hb : bitAt v 1 with
  | true =>
    obtain ⟨ds, k, ke, kp, kw⟩ := h.unpark hu n.toNat hn
    exact ⟨ds, k.due (engineRz_due _ _), ke.trans he, by rw [kp]; simp, by rw [kw, hw, hp]; simp⟩
  | false => exact ⟨cs, h.due (engineRz_due _ _), he, by rw [hp]; simp, by rw [hw]; simp⟩

theorem ChanStep.frame {s t : State} {cs : Vector Chan 8} (h : ChanStep s t cs) : workFrame s t ∧ t.core.chans = cs := by
  obtain ⟨X, xs, rfl⟩ := h
  exact ⟨⟨rfl, rfl, rfl⟩, rfl⟩

theorem pops_nil (s : State) : s.pops [] = s := rfl

/-! ### The obligation -/

/-- A channel that CPYGO names (R251): it begins the chain at once, or leaves it in shadow. -/
def Chan.begun (c : Chan) (t : Tok) (head : Word) (limit : BitVec 32) : Chan :=
  if c.free then { c with toks := c.toks ++ [t] }.startChain head limit else { c with toks := c.toks ++ [t], pending := some (head, limit) }

/-- CPYGO on a channel of the unit that runs here (R251). -/
theorem cpygo_run {s : State} {p n : BitVec 3} {a b : BitVec 6} (hp : PredOn s p) (hsplit : CanSplit s) (hu : s.runsOn s.core.self = some s.cur)
    (hal : (s.core.arch.sreg a).toNat % 64 = 0) (hpend : (vget {} s.core.chans n.toNat).pending = none) :
    ∃ t, Gives (.cpygo p n a b) s t ∧ ChanStep (s.withHold s.core.hold.split.1) t (vput s.core.chans n.toNat
      ((vget {} s.core.chans n.toNat : Chan).begun s.core.hold.split.2 (s.core.arch.sreg a) ((s.core.arch.sreg b).setWidth 32))) := by
  obtain ⟨t, ht, hdue⟩ := splitHere_ok hsplit
  have hstep : ChanStep (s.withHold s.core.hold.split.1) t s.core.chans := (ChanStep.refl _).due hdue
  have hrun : (s.withHold s.core.hold.split.1).runsOn s.core.self = some (s.withHold s.core.hold.split.1).cur :=
    (runsOn_withCore (x := { s.core with hold := s.core.hold.split.1 }) rfl s.core.self).trans hu
  have hchan := hstep.chanAt hrun n.toNat
  have hnone : (s.chanAt s.core.self n.toNat).pending.isSome = false := by
    rw [(ChanStep.refl s).chanAt hu, hpend]; rfl
  have hset := hstep.setChan hrun n.toNat
    ((vget {} s.core.chans n.toNat : Chan).begun s.core.hold.split.2 (s.core.arch.sreg a) ((s.core.arch.sreg b).setWidth 32))
  generalize hnew : (vget {} s.core.chans n.toNat : Chan).begun s.core.hold.split.2 (s.core.arch.sreg a) ((s.core.arch.sreg b).setWidth 32) = new at *
  cases hfree : (vget {} s.core.chans n.toNat : Chan).free with
  | true =>
    refine ⟨(t.setChan s.core.self n.toNat new).addDue [.channelTakeRecord s.core.self n.toNat], (exec_cpygo ..).trans (issue_ok hp ?_), hset.addDue _⟩
    dsimp only [bind, Except.bind]
    rw [pops_nil, hsplit.2.1, need_true]
    dsimp only
    rw [aligned_ok (by simpa using hal)]
    dsimp only
    rw [hnone, ht]
    dsimp only
    rw [hchan, hfree, ← hnew]
    unfold Chan.begun
    rw [hfree]
    rfl
  | false =>
    refine ⟨t.setChan s.core.self n.toNat new, (exec_cpygo ..).trans (issue_ok hp ?_), hset⟩
    dsimp only [bind, Except.bind]
    rw [pops_nil, hsplit.2.1, need_true]
    dsimp only
    rw [aligned_ok (by simpa using hal)]
    dsimp only
    rw [hnone, ht]
    dsimp only
    rw [hchan, hfree, ← hnew]
    unfold Chan.begun
    rw [hfree]
    rfl

/-- Settles O29: the fields of the engine registers, and what each form leaves of its channel or operation. -/
theorem engineFormResults : Obligations.EngineFormResults := by
  unfold Obligations.EngineFormResults
  intro s p n e a b hp v
  refine ⟨?write, ?read, ?control, ?start, ?sparse⟩
  case write =>
    obtain ⟨xs, hxs⟩ := engWrite_due s e v
    refine ⟨s.engWrite e v, (exec_engwr ..).trans (issue_ok hp rfl), ?_⟩
    rw [hxs]
    by_cases hlow : e.toNat < 0x40
    · have h60 : e ≠ 0x60#8 := by rintro rfl; exact absurd hlow (by decide)
      have h61 : e ≠ 0x61#8 := by rintro rfl; exact absurd hlow (by decide)
      rw [if_pos hlow, if_neg h60, if_neg h61]
      refine ⟨rfl, rfl, rfl, fun k j hk hj => word_streamed s hlow v hk hj, fun k hk => ?_, rfl, rfl⟩
      refine (vget_vput false s.core.arch.snapOk false (by omega)).trans ?_
      by_cases h : k = e.toNat / 4
      · rw [if_pos h, if_pos h.symm]
      · rw [if_neg h, if_neg (Ne.symm h)]
    · rw [if_neg hlow]
      have past (k j : Nat) (hk : k < 16) (hj : j < 4) : ¬ e.toNat = 4 * k + j := by omega
      have gone (k : Nat) (hk : k < 16) : ¬ e.toNat / 4 = k := by omega
      by_cases h60 : e = 0x60#8
      · subst h60
        exact ⟨rfl, rfl, rfl, fun k j hk hj => (if_neg (past k j hk hj)).symm, fun k hk => (if_neg (gone k hk)).symm, rfl, rfl⟩
      · have h60' : ¬ e.toNat = 0x60 := fun h => h60 (BitVec.eq_of_toNat_eq h)
        rw [if_neg h60', if_neg h60]
        by_cases h61 : e = 0x61#8
        · subst h61
          exact ⟨rfl, rfl, rfl, fun k j hk hj => (if_neg (past k j hk hj)).symm, fun k hk => (if_neg (gone k hk)).symm, rfl, rfl⟩
        · have h61' : ¬ e.toNat = 0x61 := fun h => h61 (BitVec.eq_of_toNat_eq h)
          rw [if_neg h61', if_neg h61]
          exact ⟨rfl, rfl, rfl, fun k j hk hj => (if_neg (past k j hk hj)).symm, fun k hk => (if_neg (gone k hk)).symm, rfl, rfl⟩
  case read =>
    intro ha hb
    refine (exec_engrd ..).trans (issue_ok hp ?_)
    have hfirst := resultS_pops (as := []) ha 4 ((s.engRead e).setWidth 64) 0#6
    dsimp only [bind, Except.bind]
    rw [pops_nil] at hfirst ⊢
    rw [show s.resultS false a 4 ((s.engRead e).setWidth 64) = _ from hfirst]
    have hb' : FreeS (scalarOut s [] false a 4 ((s.engRead e).setWidth 64)) false b := hb
    exact resultS_pops (as := []) hb' 4 ((s.engRead e >>> 64).setWidth 64) 0#6
  case control =>
    intro i hi hu old
    obtain ⟨cs, h, he, hpk, hw⟩ := chanControl_chan hu n v
    obtain ⟨hframe, rfl⟩ := h.frame
    refine ⟨s.chanControl n v, ?_, hframe, he, hpk, hw⟩
    rcases hi with rfl | rfl
    · exact (exec_chErrclr ..).trans (issue_ok hp rfl)
    · exact (exec_chResume ..).trans (issue_ok hp rfl)
  case start =>
    intro hsplit hu hal hpend old limit
    obtain ⟨t, ht, hstep⟩ := cpygo_run (b := b) hp hsplit hu hal hpend
    obtain ⟨hframe, hchans⟩ := hstep.frame
    have hhold : t.core.hold = s.core.hold.split.1 := by obtain ⟨_, _, rfl⟩ := hstep; rfl
    refine ⟨t, ht, hframe, hhold, ?_⟩
    exact (congrArg (vget {} · n.toNat) hchans).trans (vget_vput_self _ _ _ n.isLt)
  case sparse =>
    intro hq hnone
    refine (exec_sixgo ..).trans (issue_ok hp ?_)
    dsimp only [bind, Except.bind]
    rw [pops_nil, hq, need_true]
    dsimp only
    rw [hnone]
    rfl

end Sys2Proof.Machine
end

section
set_option Elab.async false
/-! System registers (R391 to R398). -/

namespace Sys2Proof.Machine

/-! ### Changes of many sequencers -/

/-- States that differ in their sequencers alone. -/
def CoresOnly (s t : State) : Prop := ∃ k O, t = { s with core := k, others := O }

theorem CoresOnly.refl (s : State) : CoresOnly s s := ⟨_, _, rfl⟩
theorem CoresOnly.trans {s t u : State} (h : CoresOnly s t) (k : CoresOnly t u) : CoresOnly s u := by
  obtain ⟨_, _, rfl⟩ := h; obtain ⟨_, _, rfl⟩ := k; exact ⟨_, _, rfl⟩

theorem coresOnly_setCore (s : State) (c : Nat) (x : Core) : CoresOnly s (s.setCore c x) := by
  unfold State.setCore
  split
  · exact ⟨_, _, rfl⟩
  · exact ⟨_, _, rfl⟩

/-- One sequencer changed by `g`, every other as it was. -/
def CoreStep (s t : State) (c : Nat) (g : Core → Core) : Prop :=
  CoresOnly s t ∧ RisingKeys t.others ∧ ∀ d, t.coreAt d = if d = c then g (s.coreAt d) else s.coreAt d

theorem coreStep_modCore {s : State} (h : RisingKeys s.others) (c : Nat) (g : Core → Core) : CoreStep s (s.modCore c g) c g := by
  refine ⟨coresOnly_setCore .., State.setCore_others h _ _, fun d => ?_⟩
  unfold State.modCore
  rw [State.coreAt_setCore h]
  split
  · rename_i e; rw [e]
  · rfl

theorem coreStep_none {s : State} (h : RisingKeys s.others) (c : Nat) {g : Core → Core} (hg : g (s.coreAt c) = s.coreAt c) : CoreStep s s c g := by
  refine ⟨CoresOnly.refl s, h, fun d => ?_⟩
  split
  · rename_i e; rw [e, hg]
  · rfl

/-- A step for each of a list of sequencers changes those and no other. -/
theorem each_coreStep {s : State} {f : State → Nat → State} {g : Nat → Core → Core} {cs : List Nat} (hcs : cs.Nodup) (hs : RisingKeys s.others)
    (h : ∀ t c, CoresOnly s t → RisingKeys t.others → CoreStep t (f t c) c (g c)) :
    CoresOnly s (s.each f cs) ∧ RisingKeys (s.each f cs).others ∧
      ∀ d, (s.each f cs).coreAt d = if d ∈ cs then g d (s.coreAt d) else s.coreAt d := by
  induction cs generalizing s with
  | nil => exact ⟨CoresOnly.refl s, hs, fun d => (if_neg List.not_mem_nil).symm⟩
  | cons c cs ih =>
    obtain ⟨hc, hnd⟩ := List.nodup_cons.1 hcs
    obtain ⟨honly, hrise, hread⟩ := h s c (CoresOnly.refl s) hs
    obtain ⟨konly, krise, kread⟩ := ih hnd hrise fun t d ht => h t d (honly.trans ht)
    refine ⟨honly.trans konly, krise, fun d => ?_⟩
    unfold State.each
    rw [kread, hread]
    by_cases hd : d = c
    · subst hd; rw [if_neg hc, if_pos rfl, if_pos (by simp)]
    · simp [hd]

theorem upFrom_nodup (n m : Nat) : (upFrom n m).Nodup := by rw [upFrom_eq_range']; exact List.nodup_range'
theorem mem_upFrom_zero {n c : Nat} : c ∈ upFrom 0 n ↔ c < n := by rw [upFrom_zero, List.mem_range]

/-- Whether a sequencer holds no running unit, and is of the partition where one is named (R395). -/
def State.idleIn (s : State) (p : Option Nat) (c : Nat) (x : Core) : Bool :=
  x.unit.isNone && (match p with
    | some k => decide (s.ownerOfQuad (quadOf c) = some k)
    | none => true)

/-- What a bound or mode written for idle sequencers changes (R395). -/
theorem eachIdle_spec {s : State} (h : RisingKeys s.others) (p : Option Nat) (f : Core → Core) :
    CoresOnly s (s.eachIdle p f) ∧ ∀ d, (s.eachIdle p f).coreAt d = if d < 256 ∧ s.idleIn p d (s.coreAt d) = true then f (s.coreAt d) else s.coreAt d := by
  have step (t : State) (c : Nat) (ht : CoresOnly s t) (hr : RisingKeys t.others) :
      CoreStep t (if (t.coreAt c).unit.isNone ∧ (match p with
          | some k => decide (t.ownerOfQuad (quadOf c) = some k)
          | none => true) = true then t.setCore c (f (t.coreAt c)) else t) c
        fun x => if s.idleIn p c x = true then f x else x := by
    have howner : t.ownerOfQuad (quadOf c) = s.ownerOfQuad (quadOf c) := by obtain ⟨_, _, rfl⟩ := ht; rfl
    have hidle : ((t.coreAt c).unit.isNone = true ∧ (match p with
        | some k => decide (t.ownerOfQuad (quadOf c) = some k)
        | none => true) = true) ↔ s.idleIn p c (t.coreAt c) = true := by
      unfold State.idleIn
      rw [howner, Bool.and_eq_true]
    by_cases hc : s.idleIn p c (t.coreAt c) = true
    · rw [if_pos (hidle.2 hc)]
      refine ⟨coresOnly_setCore .., State.setCore_others hr _ _, fun d => ?_⟩
      rw [State.coreAt_setCore hr]
      by_cases hd : d = c
      · subst hd; rw [if_pos rfl, if_pos rfl]; exact (if_pos hc).symm
      · rw [if_neg hd, if_neg hd]
    · rw [if_neg fun e => hc (hidle.1 e)]
      exact coreStep_none hr c (if_neg hc)
  obtain ⟨honly, -, hread⟩ := each_coreStep (upFrom_nodup 0 256) h step
  refine ⟨honly, fun d => (hread d).trans ?_⟩
  by_cases hd : d < 256
  · simp [hd, mem_upFrom_zero]
  · simp [hd, mem_upFrom_zero]

theorem unit_pops (s : State) (as : List Src) (c : Nat) : ((s.pops as).coreAt c).unit = (s.coreAt c).unit := by
  rw [pops_eq]
  unfold State.coreAt
  dsimp only
  split
  · rfl
  · rfl

/-- What a form writes for idle sequencers: they have it, and what runs keeps its registers (R395). -/
theorem idleWrite {s : State} (hs : RisingKeys s.others) (as : List Src) {H : Hub} (hq : ∀ q, ((s.pops as).withHub H).ownerOfQuad q = s.ownerOfQuad q)
    (p : Option Nat) {f : Core → Core} (harch : ∀ x, (f x).arch = x.arch) {P : Core → Prop} (hP : ∀ x, P (f x)) :
    let t := ((s.pops as).withHub H).eachIdle p f
    workFrame s t ∧ t.hub = H ∧ idleCores s t p P := by
  have hrise : RisingKeys ((s.pops as).withHub H).others := by rw [pops_eq]; exact hs
  obtain ⟨honly, hread⟩ := eachIdle_spec hrise p f
  have hunit (c : Nat) : (((s.pops as).withHub H).coreAt c).unit = (s.coreAt c).unit := unit_pops s as c
  generalize hu : (s.pops as).withHub H = u at *
  generalize ht : u.eachIdle p f = t at *
  have hcur : t.cur = u.cur := by obtain ⟨_, _, e⟩ := honly; rw [e]
  have hcore := hread u.cur
  rw [State.coreAt_of_cur hcur.symm, State.coreAt_cur] at hcore
  have hcorearch : t.core.arch = u.core.arch := by
    rw [hcore]
    split
    · exact harch _
    · rfl
  have hframe : u.core.arch = s.core.arch ∧ u.mem = s.mem ∧ u.port = s.port ∧ u.hub = H := by
    rw [← hu, pops_eq]; exact ⟨rfl, rfl, rfl, rfl⟩
  have hrest : t.mem = u.mem ∧ t.port = u.port ∧ t.hub = u.hub := by obtain ⟨_, _, e⟩ := honly; rw [e]; exact ⟨rfl, rfl, rfl⟩
  obtain ⟨earch, emem, eport, ehub⟩ := hframe
  obtain ⟨rmem, rport, rhub⟩ := hrest
  refine ⟨⟨hcorearch.trans earch, rmem.trans emem, rport.trans eport⟩, rhub.trans ehub, fun c hc hnone howner => ?_⟩
  rw [hread, if_pos]
  · exact hP _
  refine ⟨hc, ?_⟩
  unfold State.idleIn
  rw [hunit, hnone, hq]
  cases p with
  | none => rfl
  | some k => simpa using howner k rfl

/-! ### The obligation -/

theorem level_pops (s : State) (as : List Src) : (s.pops as).level = s.level := by rw [pops_eq]; rfl
theorem boundKey_pops (s : State) (as : List Src) : (s.pops as).boundKey s.cur = if s.cur = rangerId then 8 else s.core.part := by
  unfold State.boundKey
  rw [pops_eq, State.coreAt_of_cur rfl]

theorem cur_pops (s : State) (as : List Src) : (s.pops as).cur = s.cur := by rw [pops_eq]
theorem clampBound_eq (v : Word) : clampBound v = max 16 (v.toNat % 2 ^ 16) := by unfold clampBound fld bits; simp

section
variable {s : State} {p : BitVec 3} {b : Src} {v : Word} (hp : PredOn s p) (hb : s.readS .int b = .ok v)
include hp hb

/-- A write of CKBOUND (R394, R395). -/
theorem syswrCkbound_ok (hs : RisingKeys s.others) (hl : 1 ≤ s.level) {k : Nat} (hk : k = if s.cur = rangerId then 8 else s.core.part)
    (hk9 : k < 9) :
    ∃ t, Gives (.syswrCkbound p b) s t ∧ workFrame s t ∧
      (∀ j < 9, vget 4096 t.hub.ckBound j = if j = k then max 16 (v.toNat % 2 ^ 16) else vget 4096 s.hub.ckBound j) ∧
      (k < 8 → idleCores s t (some k) fun c => c.ckBound = max 16 (v.toNat % 2 ^ 16)) := by
  have run : Gives (.syswrCkbound p b) s ((s.pops [b]).setCkBound k (clampBound v)) := by
    refine (exec_syswrCkbound ..).trans (issue_ok hp ?_)
    dsimp only [bind, Except.bind]
    rw [level_pops, decide_eq_true hl, need_true, getS_pops, getS_of_readS hb]
    dsimp only
    rw [cur_pops, boundKey_pops, ← hk]
    rfl
  rw [clampBound_eq] at run
  have hub : (s.pops [b]).hub = s.hub := by rw [pops_eq]
  unfold State.setCkBound at run
  rw [hub] at run
  obtain ⟨hframe, ehub, hidle⟩ := idleWrite hs [b] (H := { s.hub with ckBound := vput s.hub.ckBound k (max 16 (v.toNat % 2 ^ 16)) })
    (fun q => by rw [pops_eq]; rfl) (some k) (f := fun x => { x with ckBound := max 16 (v.toNat % 2 ^ 16) }) (fun _ => rfl)
    (P := fun c => c.ckBound = max 16 (v.toNat % 2 ^ 16)) (fun _ => rfl)
  refine ⟨_, run, hframe, fun j _ => ?_, fun _ => hidle⟩
  rw [ehub]
  exact vget_vput _ _ _ hk9

/-- A write of QBOUND (R394, R395). -/
theorem syswrQbound_ok (hs : RisingKeys s.others) (hl : 1 ≤ s.level) {k : Nat} (hk : k = if s.cur = rangerId then 8 else s.core.part)
    (hk9 : k < 9) :
    ∃ t, Gives (.syswrQbound p b) s t ∧ workFrame s t ∧
      (∀ j < 9, vget 8192 t.hub.qBound j = if j = k then max 16 (v.toNat % 2 ^ 16) else vget 8192 s.hub.qBound j) ∧
      (k < 8 → idleCores s t (some k) fun c => c.qBound = max 16 (v.toNat % 2 ^ 16)) := by
  have run : Gives (.syswrQbound p b) s ((s.pops [b]).setQBound k (clampBound v)) := by
    refine (exec_syswrQbound ..).trans (issue_ok hp ?_)
    dsimp only [bind, Except.bind]
    rw [level_pops, decide_eq_true hl, need_true, getS_pops, getS_of_readS hb]
    dsimp only
    rw [cur_pops, boundKey_pops, ← hk]
    rfl
  rw [clampBound_eq] at run
  have hub : (s.pops [b]).hub = s.hub := by rw [pops_eq]
  unfold State.setQBound at run
  rw [hub] at run
  obtain ⟨hframe, ehub, hidle⟩ := idleWrite hs [b] (H := { s.hub with qBound := vput s.hub.qBound k (max 16 (v.toNat % 2 ^ 16)) })
    (fun q => by rw [pops_eq]; rfl) (some k) (f := fun x => { x with qBound := max 16 (v.toNat % 2 ^ 16) }) (fun _ => rfl)
    (P := fun c => c.qBound = max 16 (v.toNat % 2 ^ 16)) (fun _ => rfl)
  refine ⟨_, run, hframe, fun j _ => ?_, fun _ => hidle⟩
  rw [ehub]
  exact vget_vput _ _ _ hk9

/-- A write of MODE (R394 to R396). -/
theorem syswrMode_ok (hs : RisingKeys s.others) (hl : s.level = 2) :
    ∃ t, Gives (.syswrMode p b) s t ∧ workFrame s t ∧ t.hub.mode = v.setWidth 2 ∧ idleCores s t none fun c => c.mode = v.setWidth 2 := by
  have run : Gives (.syswrMode p b) s ((s.pops [b]).setMode (v.setWidth 2)) := by
    refine (exec_syswrMode ..).trans (issue_ok hp ?_)
    dsimp only [bind, Except.bind]
    rw [level_pops, decide_eq_true hl.ge, need_true, getS_pops, getS_of_readS hb]
    rfl
  unfold State.setMode at run
  obtain ⟨hframe, ehub, hidle⟩ := idleWrite hs [b] (H := { (s.pops [b]).hub with mode := v.setWidth 2 })
    (fun q => by rw [pops_eq]; rfl) none (f := fun x => { x with mode := v.setWidth 2 }) (fun _ => rfl)
    (P := fun c => c.mode = v.setWidth 2) (fun _ => rfl)
  exact ⟨_, run, hframe, by rw [ehub], hidle⟩

/-- The registers that SYSWR does not write are read-only (R393). -/
theorem syswr_readonly {n : BitVec 7} (hl : n.toNat < 0x10 ∨ s.level = 2)
    (hn : n ∉ [0x02#7, 0x03#7, 0x06#7, 0x07#7, 0x08#7, 0x0E#7, 0x10#7, 0x11#7, 0x12#7]) :
    Gives (.syswr p n b) s (s.trapSlot .sysregReadonly 0#64) := by
  have hneed : (decide (n.toNat < 0x10) || decide (2 ≤ (s.pops [b]).level)) = true := by
    rw [level_pops, Bool.or_eq_true, decide_eq_true_iff, decide_eq_true_iff]; omega
  refine (exec_syswr ..).trans (issue_trap hp ?_)
  dsimp only [bind, Except.bind]
  rw [hneed, need_true, getS_pops, getS_of_readS hb]
  dsimp only
  have apart {k : BitVec 7} (hk : k ∈ [0x02#7, 0x03#7, 0x06#7, 0x07#7, 0x08#7, 0x0E#7, 0x10#7, 0x11#7, 0x12#7]) : n.toNat ≠ k.toNat :=
    fun e => hn (BitVec.eq_of_toNat_eq e ▸ hk)
  split
  · exact absurd ‹_› (apart (k := 0x08#7) (by simp))
  · exact absurd ‹_› (apart (k := 0x10#7) (by simp))
  · exact absurd ‹_› (apart (k := 0x11#7) (by simp))
  · exact absurd ‹_› (apart (k := 0x12#7) (by simp))
  · rfl

end

/-- Settles O30: each register is read and written as the tables say, at the levels they allow. -/
theorem systemRegisterResults : Obligations.SystemRegisterResults := by
  unfold Obligations.SystemRegisterResults
  intro s p w d n b v hp x both denied
  refine ⟨?read, ?values, ?readDenied, ?writeDenied, ?boundDenied, ?modeDenied, ?write⟩
  case read =>
    intro hl hd
    refine (exec_sysrd ..).trans (issue_ok hp ?_)
    dsimp only [bind, Except.bind]
    rw [pops_nil, decide_eq_true hl, need_true]
    exact resultS_pops (as := []) hd 4 (s.sysread n.toNat) 0#6
  case values =>
    refine ⟨rfl, rfl, rfl, rfl, rfl, rfl, rfl, rfl, rfl, ?_⟩
    rintro k rfl
    have hkey : s.boundKey s.cur = if s.cur = rangerId then 8 else s.core.part := by unfold State.boundKey; rw [State.coreAt_cur]
    rw [← hkey]
    exact ⟨rfl, rfl⟩
  case readDenied =>
    intro hl
    refine (exec_sysrd ..).trans (issue_trap hp ?_)
    dsimp only [bind, Except.bind]
    rw [level_pops, decide_eq_false (by omega), need_false]
  case writeDenied =>
    intro hn hl
    refine (exec_syswr ..).trans (issue_trap hp ?_)
    dsimp only [bind, Except.bind]
    rw [level_pops, decide_eq_false (by omega), decide_eq_false (by omega), Bool.or_false, need_false]
  case boundDenied =>
    intro hl
    refine ⟨(exec_syswrCkbound ..).trans (issue_trap hp ?_), (exec_syswrQbound ..).trans (issue_trap hp ?_)⟩
    · dsimp only [bind, Except.bind]
      rw [level_pops, decide_eq_false (by omega), need_false]
    · dsimp only [bind, Except.bind]
      rw [level_pops, decide_eq_false (by omega), need_false]
  case modeDenied =>
    intro hl
    refine (exec_syswrMode ..).trans (issue_trap hp ?_)
    dsimp only [bind, Except.bind]
    rw [level_pops, decide_eq_false (by omega), need_false]
  case write =>
    intro hb
    have hboth (f : Arch → Arch) : (s.pops [b]).bothCopies f = both f := by
      dsimp only [both, x]; rw [pops_eq]; rfl
    refine ⟨?qbind, ?hub, ?readonly, ?arith, ?seed, ?bounds, ?mode⟩
    case qbind =>
      refine (exec_syswr ..).trans (issue_ok hp ?_)
      dsimp only [bind, Except.bind]
      rw [decide_eq_true (by decide), Bool.true_or, need_true, getS_pops, getS_of_readS hb]
      exact congrArg Except.ok (hboth _)
    case hub =>
      intro hl
      have hneed (n : BitVec 7) : (decide (n.toNat < 0x10) || decide (2 ≤ (s.pops [b]).level)) = true := by
        rw [level_pops, hl]; simp
      refine ⟨?_, ?_, ?_⟩
      · refine (exec_syswr ..).trans (issue_ok hp ?_)
        dsimp only [bind, Except.bind]
        rw [hneed, need_true, getS_pops, getS_of_readS hb]
        dsimp only [x]
        rw [pops_eq]
        rfl
      · refine (exec_syswr ..).trans (issue_ok hp ?_)
        dsimp only [bind, Except.bind]
        rw [hneed, need_true, getS_pops, getS_of_readS hb]
        dsimp only [x]
        rw [pops_eq]
        rfl
      · refine (exec_syswr ..).trans (issue_ok hp ?_)
        dsimp only [bind, Except.bind]
        rw [hneed, need_true, getS_pops, getS_of_readS hb]
        dsimp only [x]
        rw [pops_eq]
        rfl
    case readonly => exact fun hl hn => syswr_readonly hp hb hl hn
    case arith =>
      refine (exec_syswrArith ..).trans (issue_ok hp ?_)
      dsimp only [bind, Except.bind]
      rw [getS_pops, getS_of_readS hb]
      exact congrArg Except.ok (hboth _)
    case seed =>
      refine (exec_syswrSrseed ..).trans (issue_ok hp ?_)
      dsimp only [bind, Except.bind]
      rw [getS_pops, getS_of_readS hb]
      exact congrArg Except.ok (hboth _)
    case bounds => exact fun hs hl k hk hk9 => ⟨syswrCkbound_ok hp hb hs hl hk hk9, syswrQbound_ok hp hb hs hl hk hk9⟩
    case mode => exact fun hs hl => syswrMode_ok hp hb hs hl

end Sys2Proof.Machine
end

section
set_option Elab.async false
/-! Operating points, floors and heaters (R371 to R379, R405 to R407), and the forms of privilege (R364, R401 to R404). -/

namespace Sys2Proof.Machine

/-! ### Rows, as the power part and the units have them -/

section
variable {s t : State} (hpower : t.power = s.power)
include hpower

theorem floorOf_congr (c r : Nat) : t.floorOf c r = s.floorOf c r := by unfold State.floorOf; rw [hpower]
theorem opOf_congr (d : Nat) : t.opOf d = s.opOf d := by unfold State.opOf; rw [hpower]
theorem stepOf_congr (d : Nat) : t.stepOf d = s.stepOf d := by unfold State.stepOf; rw [hpower]

theorem rowsUpTo_congr (c k lo n : Nat) : t.rowsUpTo c k lo n = s.rowsUpTo c k lo n := by
  induction n generalizing lo with
  | zero => rfl
  | succ n ih => unfold State.rowsUpTo; rw [ih, floorOf_congr hpower]

theorem capRowsAt_congr (c k : Nat) : t.capRowsAt c k = s.capRowsAt c k := by unfold State.capRowsAt; rw [rowsUpTo_congr hpower]

theorem physRow_congr (c i : Nat) : t.physRow c i = s.physRow c i := by
  unfold State.physRow State.tableGood State.rowsByFloor State.blobRow
  simp only [floorOf_congr hpower, capRowsAt_congr hpower, hpower]

theorem waysAt_congr (i k : Nat) : t.waysAt i k = s.waysAt i k := by
  unfold State.waysAt State.wayFloor State.blobWay
  rw [hpower]

theorem waysLost_congr (d k : Nat) : t.waysLost d k = s.waysLost d k := by
  unfold State.waysLost
  simp only [waysAt_congr hpower, opOf_congr hpower]

end

section
variable {s t : State} (hunits : t.hub.units = s.hub.units)
include hunits

theorem holders_congr (c : Nat) : t.holders c = s.holders c := by unfold State.holders; rw [hunits]
theorem rowsInUse_congr (c : Nat) : t.rowsInUse c = s.rowsInUse c := by unfold State.rowsInUse; rw [holders_congr hunits]

variable (hpower : t.power = s.power)
include hpower

theorem rowBlocked_congr (d k : Nat) : t.rowBlocked d k = s.rowBlocked d k := by
  unfold State.rowBlocked State.badRow
  simp only [rowsInUse_congr hunits, holders_congr hunits, floorOf_congr hpower, physRow_congr hpower, capRowsAt_congr hpower]

theorem floorQuery_congr (who index mode k : Nat) : t.floorQuery who index mode k = s.floorQuery who index mode k := by
  have hways (i w : Nat) : t.wayFloor i w = s.wayFloor i w := by unfold State.wayFloor State.blobWay; rw [hpower]
  unfold State.floorQuery
  simp only [rowsInUse_congr hunits, floorOf_congr hpower, physRow_congr hpower, capRowsAt_congr hpower, rowsUpTo_congr hpower,
    waysAt_congr hpower, hways]

end

/-! ### Entries that come later -/

/-- A state in which an entry has been reserved: queues, the pops and pushes noted and the next number are all that differ. -/
def LaterFrom (s t : State) : Prop := ∃ Q P K n, t =
  { s with core := { s.core with q := Q, popped := P, pushed := K }, hub := { s.hub with nextEntry := n } }

/-- A reserved entry, and where it is to be filled. -/
theorem later_spec (s : State) (as : List Src) (w : Bool) (d : BitVec 6) :
    ∃ t, (s.pops as).later w d = ((if w then [] else [(s.core.self, s.hub.nextEntry)]), t) ∧ LaterFrom s t ∧ laterEntry s t w d .work ∧
      (w = false → (t.core.queueAt (d.setWidth 3)).entries = (s.core.queueAt (d.setWidth 3)).entries ++ [freshEntry s]) := by
  rw [pops_eq]
  cases w with
  | true => exact ⟨_, rfl, ⟨_, _, _, _, rfl⟩, rfl, nofun⟩
  | false =>
    have hq := reserve_entries { s with core := { s.core with popped := (s.core.notePops as).popped } } d .work
    exact ⟨_, rfl, ⟨_, _, _, _, rfl⟩, ⟨freshEntry s, hq, rfl, rfl, rfl, rfl⟩, fun _ => hq⟩

section
variable {s t : State} (h : LaterFrom s t)
include h

theorem LaterFrom.power : t.power = s.power := by obtain ⟨_, _, _, _, rfl⟩ := h; rfl
theorem LaterFrom.units : t.hub.units = s.hub.units := by obtain ⟨_, _, _, _, rfl⟩ := h; rfl
theorem LaterFrom.due : t.due = s.due := by obtain ⟨_, _, _, _, rfl⟩ := h; rfl
theorem LaterFrom.runs {u : Nat} (hu : s.runsOn u = some s.cur) : t.runsOn u = some t.cur := by
  obtain ⟨Q, P, K, n, rfl⟩ := h
  exact (runsOn_withCore (s := s) (x := { s.core with q := Q, popped := P, pushed := K }) rfl u).trans hu

/-- What a form leaves once its entry is reserved and it has changed the power part and made actions due. -/
theorem LaterFrom.frame (W : Power) (xs : List Action) {w : Bool} {d : BitVec 6} (he : laterEntry s t w d .work) :
    workFrame s ((t.withPower W).addDue xs) ∧ laterEntry s ((t.withPower W).addDue xs) w d .work := by
  refine ⟨?_, he⟩
  obtain ⟨_, _, _, _, rfl⟩ := h
  exact ⟨rfl, rfl, rfl⟩

end

/-- A form that changed nothing but what it noted. -/
theorem withPower_addDue_self (s : State) : (s.withPower s.power).addDue [] = s := by
  unfold State.addDue State.withPower; rw [List.append_nil]

/-- A sequencer with the entries of a number filled. -/
def Core.answered (x : Core) (id : Nat) (v : Word) : Core :=
  { x with q := vmap (fun y => { entries := fillId id v y.entries, retained := fillId id v y.retained }) x.q }

theorem answer_cur {s : State} {u : Nat} (hu : s.runsOn u = some s.cur) (id : Nat) (v : Word) :
    s.answer u id v = s.withCore (s.core.answered id v) := by
  unfold State.answer
  rw [hu]
  dsimp only
  unfold State.modCore State.setCore
  rw [State.coreAt_cur, if_pos rfl]
  rfl

/-- An entry reserved by the unit that runs here, and answered at once. -/
theorem answer_here {s t : State} (h : LaterFrom s t) {w : Bool} {d : BitVec 6} (hu : s.runsOn s.core.self = some s.cur)
    (he : laterEntry s t w d .work)
    (hq : w = false → (t.core.queueAt (d.setWidth 3)).entries = (s.core.queueAt (d.setWidth 3)).entries ++ [freshEntry s])
    (xs : List Action) (v : Word) :
    let r := (t.addDue xs).answerAll v (if w then [] else [(s.core.self, s.hub.nextEntry)])
    workFrame s r ∧ r.power = s.power ∧ answeredEntry s r w d v := by
  have hrun : (t.addDue xs).runsOn s.core.self = some (t.addDue xs).cur := h.runs hu
  cases w with
  | true =>
    obtain ⟨Q, P, K, n, rfl⟩ := h
    exact ⟨⟨rfl, rfl, rfl⟩, rfl, he⟩
  | false =>
    intro r
    have hr : r = (t.addDue xs).withCore (t.core.answered s.hub.nextEntry v) := answer_cur hrun ..
    rw [hr]
    refine ⟨?_, h.power, ?_⟩
    · obtain ⟨_, _, _, _, rfl⟩ := h; exact ⟨rfl, rfl, rfl⟩
    · have hget := vget_vmap (n := 8) ({} : Queue) ({} : Queue)
        (fun y => { entries := fillId s.hub.nextEntry v y.entries, retained := fillId s.hub.nextEntry v y.retained }) t.core.q (d.setWidth 3).isLt
      exact (congrArg Queue.entries hget).trans (congrArg (fillId s.hub.nextEntry v) (hq rfl))

/-! ### RVSET (R405) -/

section
variable {s : State} {p : BitVec 3} {w : Bool} {d : BitVec 6} {a b : Src} {x y : Word} (hp : PredOn s p) (hx : s.readS .int a = .ok x)
  (hy : s.readS .int b = .ok y) (hl : s.level = 2) (hq : w = false → s.core.hasQueue (d.setWidth 3) = true)
include hp hx hy hl hq

/-- A request that RVSET refuses is answered at once. -/
theorem rvset_refused (h : 68 < x.toNat ∨ 8 < fld y 0 4 ∨ (fld y 0 4 = 8 ∧ ¬ isLogic x.toNat = true)) :
    Gives (.rvset p w d a b) s ((s.pops [a, b]).entry w d (rvEntry 2 (if x.toNat ≤ 68 then s.opOf x.toNat else 0))) := by
  refine (exec_rvset ..).trans (issue_ok hp ?_)
  rw [getS_pops, getS_of_readS hx, getS_pops, getS_of_readS hy]
  dsimp only [bind, Except.bind]
  rw [level_pops, decide_eq_true hl.ge, need_true]
  dsimp only
  cases w with
  | true =>
    rw [if_neg (by decide), if_pos h, opOf_congr (s := s) (by rw [pops_eq])]
    rfl
  | false =>
    rw [if_pos (by decide), needQueue_ok (hq rfl)]
    dsimp only
    rw [if_pos h, opOf_congr (s := s) (by rw [pops_eq])]
    rfl

/-- A request that RVSET takes reserves its entry first. -/
theorem rvset_taken (h : ¬ (68 < x.toNat ∨ 8 < fld y 0 4 ∨ (fld y 0 4 = 8 ∧ ¬ isLogic x.toNat = true))) :
    ∃ t, LaterFrom s t ∧ laterEntry s t w d .work ∧
      (w = false → (t.core.queueAt (d.setWidth 3)).entries = (s.core.queueAt (d.setWidth 3)).entries ++ [freshEntry s]) ∧
      Gives (.rvset p w d a b) s
        (if isSram x.toNat || isHubSram x.toNat then
          t.rvsetSram x.toNat { point := fld y 0 4, entries := if w then [] else [(s.core.self, s.hub.nextEntry)] }
        else t.withPower { t.power with
          req := NatMap.putD 0 x.toNat (fld y 0 4) t.power.req
          logicWait := NatMap.put x.toNat
            (NatMap.findD [] x.toNat t.power.logicWait ++ if w then [] else [(s.core.self, s.hub.nextEntry)]) t.power.logicWait }) := by
  obtain ⟨t, ht, hlater, hent, hfresh⟩ := later_spec s [a, b] w d
  refine ⟨t, hlater, hent, hfresh, (exec_rvset ..).trans (issue_ok hp ?_)⟩
  rw [getS_pops, getS_of_readS hx, getS_pops, getS_of_readS hy]
  dsimp only [bind, Except.bind]
  rw [level_pops, decide_eq_true hl.ge, need_true]
  dsimp only
  have hdone : ((if isSram x.toNat || isHubSram x.toNat then
        pure (t.rvsetSram x.toNat { point := fld y 0 4, entries := if w then [] else [(s.core.self, s.hub.nextEntry)] })
      else pure (t.withPower { t.power with
          req := NatMap.putD 0 x.toNat (fld y 0 4) t.power.req
          logicWait := NatMap.put x.toNat
            (NatMap.findD [] x.toNat t.power.logicWait ++ if w then [] else [(s.core.self, s.hub.nextEntry)]) t.power.logicWait }) :
        Except Stop State)) = .ok _ := (apply_ite Except.ok _ _ _).symm
  cases w with
  | true =>
    rw [if_neg (by decide), if_neg h, ht]
    exact hdone
  | false =>
    rw [if_pos (by decide), needQueue_ok (hq rfl)]
    dsimp only
    rw [if_neg h, ht]
    exact hdone

end

/-! ### An SRAM domain at rest (R375 to R379) -/

/-- The step that an RVSET to a lower point begins (R376). -/
def Nudge.step (n : Nudge) (now : Nat) : Step :=
  { target := min n.point n.point, since := now, fitted := true, out := true, settling := some n }

section
variable {t : State} {d : Nat} {n : Nudge} (hups : NatMap.find d t.power.ups = none) (hstep : t.stepOf d = none)
include hups hstep

/-- Nothing is under way, so that the request is taken at once. -/
theorem setSram_rest : t.setSram d n =
    if n.point = t.opOf d then (t.retest d).answerAll (rvEntry 0 (t.opOf d)) n.entries
    else if n.point < t.opOf d then
      if t.rowBlocked d n.point then t.answerAll (rvEntry 1 (t.opOf d)) n.entries
      else (t.withPower { t.power with steps := NatMap.put d (n.step t.time) t.power.steps }).addDue [.stepSettle d]
    else (t.withPower { t.power with ups := NatMap.put d n t.power.ups }).addDue [.sramUpstep d n.point] := by
  unfold State.setSram State.endStep
  dsimp only
  rw [hups, hstep]
  rfl

/-- A higher point is taken once the voltage has risen (R375). -/
theorem rvsetSram_up (h : t.opOf d < n.point) :
    t.rvsetSram d n = (t.withPower { t.power with ups := NatMap.put d n t.power.ups }).addDue [.sramUpstep d n.point] := by
  have hset := setSram_rest (n := n) hups hstep
  rw [if_neg (by omega), if_neg (by omega)] at hset
  unfold State.rvsetSram
  dsimp only
  rw [hset, if_neg]
  rintro ⟨-, e⟩
  have hsome : (NatMap.find d (NatMap.put d n t.power.ups)).isNone = false := by rw [NatMap.find_put_self]; rfl
  exact Bool.false_ne_true (hsome.symm.trans e)

/-- A lower point goes through a step unless a row in use forbids it (R376, R378). -/
theorem rvsetSram_down (h : n.point < t.opOf d) (hb : t.rowBlocked d n.point = false) :
    t.rvsetSram d n = (t.withPower { t.power with steps := NatMap.put d (n.step t.time) t.power.steps }).addDue
        [.stepSettle d] := by
  have hset := setSram_rest (n := n) hups hstep
  rw [if_neg (by omega), if_pos h, hb, if_neg (by decide)] at hset
  unfold State.rvsetSram
  dsimp only
  rw [hset, if_neg]
  rintro ⟨e, -⟩
  have hsome : (NatMap.find d (NatMap.put d (n.step t.time) t.power.steps)).isNone = false := by rw [NatMap.find_put_self]; rfl
  exact Bool.false_ne_true (hsome.symm.trans e)

omit hups hstep in
/-- A request answered at once leaves the power part as it was. -/
theorem rvsetSram_answered (hw : NatMap.find d t.power.waiting = none) {u : State} (hset : t.setSram d n = u) (hu : u.power = t.power) :
    t.rvsetSram d n = u := by
  unfold State.rvsetSram State.takeHeld
  dsimp only
  rw [hset, hu, hw]
  split
  · rfl
  · rfl

end

/-! ### Heaters (R407, R443) -/

/-- A heater set, and the record of a saturated one on its way. -/
def State.heated (s : State) (port wl : Nat) (rx : Bool) (v : BitVec 16) : State :=
  let s1 := { s with fabric := { s.fabric with heaters := NatMap.put (ringKey port wl rx) v s.fabric.heaters } }
  let s2 := if heaterSat v then
    s1.event .heaterSat 3 port none 0#64 0#32 0#32 (BitVec.ofNat 64 (wl + b2n rx * 2 ^ 4)) (v.setWidth 64) else s1
  s2.tickFree

theorem heated_frame (s : State) (port wl : Nat) (rx : Bool) (v : BitVec 16) :
    let t := s.heated port wl rx v
    t.core = s.core ∧ t.mem = s.mem ∧ t.port = s.port ∧ t.power = s.power ∧ t.heaterOf (ringKey port wl rx) = v := by
  have hput : NatMap.findD 0x8000#16 (ringKey port wl rx) (NatMap.put (ringKey port wl rx) v s.fabric.heaters) = v := by
    unfold NatMap.findD; rw [NatMap.find_put_self]; rfl
  unfold State.heated
  dsimp only
  split
  · exact ⟨rfl, rfl, rfl, rfl, hput⟩
  · exact ⟨rfl, rfl, rfl, rfl, hput⟩

/-! ### The obligation -/

theorem isLogic_sram {d : Nat} (h : isLogic d = true ∨ d = 68) : (isSram d || isHubSram d) = false := by
  unfold isLogic at h
  unfold isSram isHubSram
  rcases h with h | rfl
  · simp only [Bool.and_eq_true, decide_eq_true_iff] at h
    simp; omega
  · rfl

theorem sram_valid {d : Nat} (h : isSram d = true ∨ isHubSram d = true) : d ≤ 68 ∧ (isSram d || isHubSram d) = true := by
  refine ⟨?_, by simpa using h⟩
  unfold isSram isHubSram at h
  simp only [Bool.and_eq_true, decide_eq_true_iff] at h
  omega

/-- Settles O33: each request at rest is taken, stepped, refused or answered as its point asks; floors are read, and heaters set. -/
theorem rangerPowerResults : Obligations.RangerPowerResults := by
  unfold Obligations.RangerPowerResults
  intro s p w d a b x y hp hx hy hl hq
  refine ⟨?rvset, ?rfloor, ?rheat⟩
  case rvset =>
    intro dom k nudge
    refine ⟨fun hbad => ?refused, fun hsram hk hups hstep => ?sram, fun hlogic hk hk8 => ?logic⟩
    case refused =>
      have hrun := rvset_refused (w := w) (d := d) hp hx hy hl hq (hbad.imp_right (Or.imp_right (And.imp_right fun h => by rw [h]; decide)))
      obtain ⟨hframe, hent⟩ := entry_noted (notedOnly_pops s [a, b]) ⟨rfl, rfl, rfl⟩ w d (rvEntry 2 (if dom ≤ 68 then s.opOf dom else 0))
      refine ⟨_, hrun, hframe, ?_, hent⟩
      cases w with
      | true => rw [pops_eq]; rfl
      | false => rw [pops_eq]; rfl
    case sram =>
      obtain ⟨hdom, hs⟩ := sram_valid hsram
      obtain ⟨t, hlater, hent, hfresh, hrun⟩ := rvset_taken (w := w) (d := d) hp hx hy hl hq (by omega)
      rw [if_pos hs] at hrun
      have hups' : NatMap.find dom t.power.ups = none := by rw [hlater.power]; exact hups
      have hstep' : t.stepOf dom = none := (stepOf_congr hlater.power dom).trans hstep
      have hop := opOf_congr hlater.power dom
      have hblock := rowBlocked_congr hlater.units hlater.power dom k
      have hset := setSram_rest (n := nudge) hups' hstep'
      refine ⟨fun hup => ?_, fun hdown hfree => ?_, fun hwait hu => ⟨fun hsame => ?_, fun hdown hblocked => ?_⟩⟩
      · rw [rvsetSram_up hups' hstep' (by rw [hop]; exact hup)] at hrun
        obtain ⟨hframe, he⟩ := hlater.frame { t.power with ups := NatMap.put dom nudge t.power.ups } [.sramUpstep dom k] hent
        refine ⟨_, hrun, hframe, he, ?_, List.mem_append_right _ (List.mem_singleton_self _)⟩
        exact congrArg (fun W : Power => { W with ups := NatMap.put dom nudge W.ups }) hlater.power
      · rw [rvsetSram_down hups' hstep' (by rw [hop]; exact hdown) (by rw [hblock]; exact hfree)] at hrun
        obtain ⟨hframe, he⟩ := hlater.frame { t.power with steps := NatMap.put dom (nudge.step t.time) t.power.steps } [.stepSettle dom] hent
        exact ⟨_, hrun, hframe, he, List.mem_append_right _ (List.mem_singleton_self _), _, NatMap.find_put_self .., Nat.min_self k, rfl⟩
      · obtain ⟨hframe, hpow, he⟩ := answer_here hlater hu hent hfresh ((coresOfDomain dom).map Action.unitAdmit) (rvEntry 0 k)
        rw [if_pos (by rw [hop]; exact hsame), hop, ← hsame] at hset
        rw [rvsetSram_answered (by rw [hlater.power]; exact hwait) hset (hpow.trans hlater.power.symm)] at hrun
        exact ⟨_, hrun, hframe, hpow, he⟩
      · obtain ⟨hframe, hpow, he⟩ := answer_here hlater hu hent hfresh [] (rvEntry 1 (s.opOf dom))
        have hnil : t.addDue [] = t := by unfold State.addDue; rw [List.append_nil]
        rw [hnil] at hframe hpow he
        have hne : ¬ nudge.point = t.opOf dom := by rw [hop]; exact hdown.ne
        rw [if_neg hne, if_pos (by rw [hop]; exact hdown), if_pos (by rw [hblock]; exact hblocked), hop] at hset
        rw [rvsetSram_answered (by rw [hlater.power]; exact hwait) hset (hpow.trans hlater.power.symm)] at hrun
        exact ⟨_, hrun, hframe, hpow, he⟩
    case logic =>
      have hnot : ¬ (68 < x.toNat ∨ 8 < fld y 0 4 ∨ (fld y 0 4 = 8 ∧ ¬ isLogic x.toNat = true)) := by
        rintro (h | h | ⟨h8, h⟩)
        · rcases hlogic with hlog | h68
          · unfold isLogic at hlog; simp only [Bool.and_eq_true, decide_eq_true_iff] at hlog; omega
          · omega
        · omega
        · exact h (hk8 h8)
      obtain ⟨t, hlater, hent, -, hrun⟩ := rvset_taken (w := w) (d := d) hp hx hy hl hq hnot
      rw [if_neg (by rw [isLogic_sram hlogic]; decide), hlater.power] at hrun
      obtain ⟨hframe, he⟩ := hlater.frame { s.power with
        req := NatMap.putD 0 dom k s.power.req
        logicWait := NatMap.put dom (NatMap.findD [] dom s.power.logicWait ++ nudge.entries) s.power.logicWait } [] hent
      have hnil (u : State) : u.addDue [] = u := by unfold State.addDue; rw [List.append_nil]
      rw [hnil] at hframe he
      exact ⟨_, hrun, hframe, he, rfl⟩
  case rfloor =>
    have hq' := floorQuery_congr (s := s) (t := s.pops [a, b]) (by rw [pops_eq]) (by rw [pops_eq]) (fld x 0 9) (fld y 0 16) (fld y 16 3) (fld y 20 3)
    have hrun : Gives (.rfloor p w d a b) s ((s.pops [a, b]).entry w d
        (BitVec.ofNat 64 ((s.floorQuery (fld x 0 9) (fld y 0 16) (fld y 16 3) (fld y 20 3)).getD (2 ^ 63)))) := by
      refine (exec_rfloor ..).trans (issue_ok hp ?_)
      rw [getS_pops, getS_of_readS hx, getS_pops, getS_of_readS hy]
      dsimp only [bind, Except.bind]
      rw [level_pops, decide_eq_true hl.ge, need_true]
      dsimp only
      cases w with
      | true => rw [if_neg (by decide), hq']; rfl
      | false =>
        rw [if_pos (by decide), needQueue_ok (hq rfl)]
        dsimp only
        rw [hq']; rfl
    obtain ⟨hframe, hent⟩ := entry_noted (notedOnly_pops s [a, b]) ⟨rfl, rfl, rfl⟩ w d
      (BitVec.ofNat 64 ((s.floorQuery (fld x 0 9) (fld y 0 16) (fld y 16 3) (fld y 20 3)).getD (2 ^ 63)))
    refine ⟨_, hrun, hframe, ?_, hent⟩
    cases w with
    | true => rw [pops_eq]; rfl
    | false => rw [pops_eq]; rfl
  case rheat =>
    intro k v
    have hheat : (s.pops [a, b]).heaterOf k = s.heaterOf k := by unfold State.heaterOf; rw [pops_eq]
    have hrun : Gives (.rheat p w d a b) s (((s.pops [a, b]).heated (fld x 0 5) (fld x 5 4) (bitAt x 9) v).entry w d (BitVec.ofNat 64
        (v.toNat + (Config.photodiode (s.free * 1024 + k)).toNat * 2 ^ 16 + b2n (heaterSat v) * 2 ^ 32))) := by
      refine (exec_rheat ..).trans (issue_ok hp ?_)
      rw [getS_pops, getS_of_readS hx, getS_pops, getS_of_readS hy]
      dsimp only [bind, Except.bind]
      rw [level_pops, decide_eq_true hl.ge, need_true]
      dsimp only
      cases w with
      | true =>
        rw [if_neg (by decide), hheat, show (s.pops [a, b]).free = s.free by rw [pops_eq]]
        rfl
      | false =>
        rw [if_pos (by decide), needQueue_ok (hq rfl)]
        dsimp only
        rw [hheat, show (s.pops [a, b]).free = s.free by rw [pops_eq]]
        rfl
    obtain ⟨hcore, hmem, hport, hpow, hv⟩ := heated_frame (s.pops [a, b]) (fld x 0 5) (fld x 5 4) (bitAt x 9) v
    generalize hu : (s.pops [a, b]).heated (fld x 0 5) (fld x 5 4) (bitAt x 9) v = u at *
    obtain ⟨hframe, hent⟩ := entry_noted (notedOnly_pops s [a, b]) ⟨hcore, hmem, hport⟩ w d (BitVec.ofNat 64
        (v.toNat + (Config.photodiode (s.free * 1024 + k)).toNat * 2 ^ 16 + b2n (heaterSat v) * 2 ^ 32))
    refine ⟨_, hrun, hframe, ?_, ?_, hent⟩
    · cases w with
      | true => exact hv
      | false => exact hv
    · cases w with
      | true => exact hpow.trans (by rw [pops_eq])
      | false => exact hpow.trans (by rw [pops_eq])

end Sys2Proof.Machine
end

section
set_option Elab.async false
/-! Invalidation, partition queries, operating points asked for, and evacuation (R364, R401 to R404). -/

namespace Sys2Proof.Machine

/-! ### XLINV (R364, R401) -/

/-- What an invalidation leaves: no record of what it names in the directory, and no leaf of it in the caches of the holders. -/
theorem invalidate_spec {s : State} (hs : RisingKeys s.others) (p : Nat) (va : Option Nat) :
    let t := s.invalidate p va
    t.core.arch = s.core.arch ∧ t.mem = s.mem ∧ (∀ r ∈ t.hub.tdir, named r.part r.va r.size p va = false) ∧
      ∀ c < 256, (∃ r ∈ s.hub.tdir, named r.part r.va r.size p va = true ∧ stackOf c ∈ r.holders) →
        ∀ l ∈ (t.coreAt c).tlb, named l.part l.va l.size p va = false := by
  intro t
  dsimp only [t]
  unfold State.invalidate
  dsimp only
  generalize hhs : ((s.hub.tdir.filter fun r => named r.part r.va r.size p va).flatMap TRec.holders).eraseDups = hs'
  have hholder (c : Nat) (h : ∃ r ∈ s.hub.tdir, named r.part r.va r.size p va = true ∧ stackOf c ∈ r.holders) : stackOf c ∈ hs' := by
    obtain ⟨r, hr, hn, hc⟩ := h
    rw [← hhs, List.mem_eraseDups, List.mem_flatMap]
    exact ⟨r, List.mem_filter.2 ⟨hr, hn⟩, hc⟩
  have hdir (r : TRec) (hr : r ∈ s.hub.tdir.filter fun r => !named r.part r.va r.size p va) : named r.part r.va r.size p va = false := by
    simpa using (List.mem_filter.1 hr).2
  generalize hu : s.withHub _ = u
  have hrise : RisingKeys u.others := by rw [← hu]; exact hs
  have huframe : u.core.arch = s.core.arch ∧ u.mem = s.mem ∧ u.hub.tdir = s.hub.tdir.filter fun r => !named r.part r.va r.size p va := by
    rw [← hu]; exact ⟨rfl, rfl, rfl⟩
  obtain ⟨uarch, umem, udir⟩ := huframe
  split
  · rename_i hempty
    refine ⟨uarch, umem, by rw [udir]; exact hdir, fun c _ h => ?_⟩
    exact absurd (hholder c h) (by rw [List.isEmpty_iff.1 hempty]; exact List.not_mem_nil)
  · obtain ⟨honly, -, hread⟩ := each_coreStep (f := fun s c => s.modCore c fun x => x.invalidate p va) (g := fun _ x => x.invalidate p va)
      ((upFrom_nodup 0 256).filter fun c => hs'.contains (stackOf c)) hrise fun t c _ ht => coreStep_modCore ht c _
    generalize hv : u.each _ _ = v at honly hread
    have hvframe : v.core.arch = u.core.arch ∧ v.mem = u.mem ∧ v.hub = u.hub := by
      have hcur : v.cur = u.cur := by obtain ⟨_, _, rfl⟩ := honly; rfl
      have hcore := hread v.cur
      rw [State.coreAt_cur, hcur, State.coreAt_cur] at hcore
      refine ⟨?_, ?_⟩
      · rw [hcore]
        split
        · rfl
        · rfl
      · obtain ⟨_, _, rfl⟩ := honly; exact ⟨rfl, rfl⟩
    obtain ⟨varch, vmem, vhub⟩ := hvframe
    refine ⟨varch.trans uarch, vmem.trans umem, ?_, fun c hc h l hl => ?_⟩
    · show ∀ r ∈ v.hub.tdir, _
      rw [vhub, udir]; exact hdir
    · have hl' : l ∈ (v.coreAt c).tlb := hl
      rw [hread, if_pos (List.mem_filter.2 ⟨mem_upFrom_zero.2 hc, by simpa using hholder c h⟩)] at hl'
      simpa using (List.mem_filter.1 hl').2

/-! ### EVAC (R374, R376, R404) -/

section
variable {s : State} {p : BitVec 3} {w : Bool} {d : BitVec 6} {a b : Src} {x y : Word} (hp : PredOn s p) (hx : s.readS .int a = .ok x)
  (hy : s.readS .int b = .ok y)
include hp hx hy

section
variable (hl : s.level = 2) (hq : w = false → s.core.hasQueue (d.setWidth 3) = true)
include hl hq

/-- An EVAC of no step is answered at once. -/
theorem evac_refused (h : (!(isSram x.toNat || isHubSram x.toNat) || decide (s.opOf x.toNat ≤ fld y 0 3)) = true) :
    Gives (.evac p w d a b) s ((s.pops [a, b]).entry w d (BitVec.ofNat 64 (2 ^ 63))) := by
  refine (exec_evac ..).trans (issue_ok hp ?_)
  rw [getS_pops, getS_of_readS hx, getS_pops, getS_of_readS hy]
  dsimp only [bind, Except.bind]
  rw [level_pops, decide_eq_true hl.ge, need_true]
  dsimp only
  cases w with
  | true =>
    rw [if_neg (by decide), opOf_congr (s := s) (by rw [pops_eq]), if_pos h]
    rfl
  | false =>
    rw [if_pos (by decide), needQueue_ok (hq rfl)]
    dsimp only
    rw [opOf_congr (s := s) (by rw [pops_eq]), if_pos h]
    rfl

/-- An EVAC of a step reserves its entry first. -/
theorem evac_taken (h : isSram x.toNat = true ∨ isHubSram x.toNat = true) (hop : fld y 0 3 < s.opOf x.toNat) :
    ∃ t, LaterFrom s t ∧ laterEntry s t w d .work ∧
      (w = false → (t.core.queueAt (d.setWidth 3)).entries = (s.core.queueAt (d.setWidth 3)).entries ++ [freshEntry s]) ∧
      Gives (.evac p w d a b) s
        (t.evacSram x.toNat { point := fld y 0 3, entries := if w then [] else [(s.core.self, s.hub.nextEntry)] }) := by
  obtain ⟨t, ht, hlater, hent, hfresh⟩ := later_spec s [a, b] w d
  have hno : ¬ (!(isSram x.toNat || isHubSram x.toNat) || decide (s.opOf x.toNat ≤ fld y 0 3)) = true := by
    rw [(sram_valid h).2, decide_eq_false (by omega)]; decide
  refine ⟨t, hlater, hent, hfresh, (exec_evac ..).trans (issue_ok hp ?_)⟩
  rw [getS_pops, getS_of_readS hx, getS_pops, getS_of_readS hy]
  dsimp only [bind, Except.bind]
  rw [level_pops, decide_eq_true hl.ge, need_true]
  dsimp only
  cases w with
  | true =>
    rw [if_neg (by decide), opOf_congr (s := s) (by rw [pops_eq]), if_neg hno, ht]
    rfl
  | false =>
    rw [if_pos (by decide), needQueue_ok (hq rfl)]
    dsimp only
    rw [opOf_congr (s := s) (by rw [pops_eq]), if_neg hno, ht]
    rfl

end

/-- PARTQ answers with a word of the descriptor (R402). -/
theorem partq_run (hl : 1 ≤ s.level) (hq : w = false → s.core.hasQueue (d.setWidth 3) = true) :
    Gives (.partq p w d a b) s ((s.pops [a, b]).entry w d
      ((s.partAt (if s.cur = rangerId then fld x 0 3 else s.core.part)).word (fld y 0 4))) := by
  have hpart (k : Nat) : (s.pops [a, b]).partAt k = s.partAt k := by rw [pops_eq]; rfl
  have hcore : (s.pops [a, b]).core.part = s.core.part := by rw [pops_eq]
  refine (exec_partq ..).trans (issue_ok hp ?_)
  rw [getS_pops, getS_of_readS hx, getS_pops, getS_of_readS hy]
  dsimp only [bind, Except.bind]
  rw [level_pops, decide_eq_true hl, need_true]
  dsimp only
  cases w with
  | true => rw [if_neg (by decide), cur_pops, hcore, hpart]; rfl
  | false =>
    rw [if_pos (by decide), needQueue_ok (hq rfl)]
    dsimp only
    rw [cur_pops, hcore, hpart]; rfl

/-- XLINV, from its operands (R401). -/
theorem xlinv_run (hl : 1 ≤ s.level) :
    Gives (.xlinv p a b) s
      (if s.cur = rangerId ∧ (s.partAt (if s.cur = rangerId then fld y 8 3 else s.core.part)).st = 0#2 then s.pops [a, b]
      else (s.pops [a, b]).invalidate (if s.cur = rangerId then fld y 8 3 else s.core.part) (if bitAt y 0 then none else some x.toNat)) := by
  have hpart (k : Nat) : (s.pops [a, b]).partAt k = s.partAt k := by rw [pops_eq]; rfl
  have hcore : (s.pops [a, b]).core.part = s.core.part := by rw [pops_eq]
  refine (exec_xlinv ..).trans (issue_ok hp ?_)
  rw [getS_pops, getS_of_readS hx, getS_pops, getS_of_readS hy]
  dsimp only [bind, Except.bind]
  rw [level_pops, decide_eq_true hl, need_true]
  dsimp only
  rw [cur_pops, hcore, hpart]
  exact (apply_ite Except.ok _ _ _).symm

/-- OPREQ, where its domain is the caller's and its point is one (R403). -/
theorem opreq_run (hl : 1 ≤ s.level) (hm : s.cur = rangerId ∨ (s.partAt s.core.part).quads.getLsbD (fld x 1 5) = true) (hk : fld y 0 4 ≤ 8)
    (h8 : bitAt x 0 = true → fld y 0 4 ≠ 8) :
    Gives (.opreq p a b) s ((s.pops [a, b]).withPower
      (if bitAt x 0 then { s.power with held := NatMap.put (sramDomain (fld x 1 5)) (fld y 0 4) s.power.held }
      else { s.power with req := NatMap.putD 0 (logicDomain (fld x 1 5)) (fld y 0 4) s.power.req })) := by
  have hpart (k : Nat) : (s.pops [a, b]).partAt k = s.partAt k := by rw [pops_eq]; rfl
  have hcore : (s.pops [a, b]).core.part = s.core.part := by rw [pops_eq]
  have hpow : (s.pops [a, b]).power = s.power := by rw [pops_eq]
  have hneed : (decide (s.cur = rangerId) || (s.partAt s.core.part).quads.getLsbD (fld x 1 5)) = true := by simpa using hm
  have hpoint : (!(bitAt x 0 && decide (fld y 0 4 = 8))) = true := by
    cases hb : bitAt x 0 with
    | true => rw [decide_eq_false (h8 hb)]; rfl
    | false => rfl
  refine (exec_opreq ..).trans (issue_ok hp ?_)
  rw [getS_pops, getS_of_readS hx, getS_pops, getS_of_readS hy]
  dsimp only [bind, Except.bind]
  rw [level_pops, decide_eq_true hl, need_true]
  dsimp only
  rw [cur_pops, hcore, hpart, hneed, decide_eq_true hk, hpoint, Bool.and_self, Bool.and_self, need_true, hpow]
  rfl

/-- OPREQ of a point that the caller may not ask for traps (R403). -/
theorem opreq_invalid (hl : 1 ≤ s.level)
    (h : ¬ ((s.cur = rangerId ∨ (s.partAt s.core.part).quads.getLsbD (fld x 1 5) = true) ∧ fld y 0 4 ≤ 8 ∧
      (bitAt x 0 = true → fld y 0 4 ≠ 8))) : Gives (.opreq p a b) s (s.trapSlot .opreqInvalid 0#64) := by
  have hpart (k : Nat) : (s.pops [a, b]).partAt k = s.partAt k := by rw [pops_eq]; rfl
  have hcore : (s.pops [a, b]).core.part = s.core.part := by rw [pops_eq]
  have hneed : ((decide (s.cur = rangerId) || (s.partAt s.core.part).quads.getLsbD (fld x 1 5)) && decide (fld y 0 4 ≤ 8) &&
      !(bitAt x 0 && decide (fld y 0 4 = 8))) = false := by
    refine Bool.eq_false_iff.2 fun e => h ?_
    simp only [Bool.and_eq_true, Bool.or_eq_true, decide_eq_true_iff, Bool.not_eq_true', Bool.and_eq_false_imp, decide_eq_false_iff_not] at e
    exact ⟨e.1.1, e.1.2, e.2⟩
  refine (exec_opreq ..).trans (issue_trap hp ?_)
  rw [getS_pops, getS_of_readS hx, getS_pops, getS_of_readS hy]
  dsimp only [bind, Except.bind]
  rw [level_pops, decide_eq_true hl, need_true]
  dsimp only
  rw [cur_pops, hcore, hpart, hneed, need_false]

end

/-! ### The obligation -/

/-- A form of privilege below its level traps before it reads (R56, R353). -/
theorem privileged_denied {s : State} {p : BitVec 3} (hp : PredOn s p) (w : Bool) (d : BitVec 6) (a b : Src) (hl : s.level < 1) :
    ∀ i ∈ [Instr.xlinv p a b, .partq p w d a b, .opreq p a b], Gives i s (s.trapSlot .privilege 0#64) := by
  have hno : decide (1 ≤ (s.pops [a, b]).level) = false := by rw [level_pops]; exact decide_eq_false (by omega)
  intro i hi
  simp only [List.mem_cons, List.not_mem_nil, or_false] at hi
  rcases hi with rfl | rfl | rfl
  · refine (exec_xlinv ..).trans (issue_trap hp ?_)
    dsimp only [bind, Except.bind]
    rw [hno, need_false]
  · refine (exec_partq ..).trans (issue_trap hp ?_)
    dsimp only [bind, Except.bind]
    rw [hno, need_false]
  · refine (exec_opreq ..).trans (issue_trap hp ?_)
    dsimp only [bind, Except.bind]
    rw [hno, need_false]

theorem entry_power (s : State) (w : Bool) (d : BitVec 6) (v : Word) : (s.entry w d v).power = s.power := by
  cases w with
  | true => rfl
  | false => rfl

theorem sram_not_hub {d : Nat} (h : isSram d = true) : isHubSram d = false := by
  unfold isSram at h
  unfold isHubSram
  simp only [Bool.and_eq_true, decide_eq_true_iff] at h
  simp; omega

/-- Settles O32: what an invalidation leaves out, what a query reads, and what becomes of each request for a point or a step. -/
theorem privilegedFormResults : Obligations.PrivilegedFormResults := by
  unfold Obligations.PrivilegedFormResults
  intro s p w d a b x y hp hx hy
  refine ⟨privileged_denied hp w d a b, fun hl => ?evacDenied, fun hl => ⟨?xlinv, fun hq => ?partq, ?opreq, fun hl hq => ?evac⟩⟩
  case evacDenied =>
    refine (exec_evac ..).trans (issue_trap hp ?_)
    dsimp only [bind, Except.bind]
    rw [level_pops, decide_eq_false (by omega), need_false]
  case xlinv =>
    have hrun := xlinv_run hp hx hy hl
    refine ⟨fun hc hst => ?_, fun hst hs => ?_⟩
    · rw [if_pos ⟨hc, hst⟩] at hrun; exact hrun
    · rw [if_neg fun e => hst e.1 e.2] at hrun
      have hrise : RisingKeys (s.pops [a, b]).others := by rw [pops_eq]; exact hs
      obtain ⟨harch, hmem, hdir, hcaches⟩ := invalidate_spec hrise (if s.cur = rangerId then fld y 8 3 else s.core.part)
        (if bitAt y 0 then none else some x.toNat)
      refine ⟨_, hrun, harch.trans (pops_arch ..), hmem.trans (pops_mem ..), hdir, fun c hc h => hcaches c hc ?_⟩
      rw [pops_eq]; exact h
  case partq =>
    obtain ⟨hframe, hent⟩ := entry_noted (notedOnly_pops s [a, b]) ⟨rfl, rfl, rfl⟩ w d
      ((s.partAt (if s.cur = rangerId then fld x 0 3 else s.core.part)).word (fld y 0 4))
    exact ⟨_, partq_run hp hx hy hl hq, hframe, hent⟩
  case opreq =>
    intro q k mine
    refine ⟨fun h => opreq_invalid hp hx hy hl h, fun hm => ⟨fun hb hk => ?_, fun hb hk => ?_⟩⟩
    · have hrun := opreq_run hp hx hy hl hm hk.le fun _ => hk.ne
      rw [if_pos hb] at hrun
      exact hrun
    · have hrun := opreq_run hp hx hy hl hm hk fun e => absurd e (by rw [hb]; decide)
      rw [hb, if_neg (by decide)] at hrun
      exact hrun
  case evac =>
    intro dom k
    refine ⟨fun hno => ?refused, fun hhub hop hups hu => ?hub, fun hsram hop hups => ?announced, fun hsram hop hups hwait => ?held⟩
    case refused =>
      have hrun := evac_refused (w := w) (d := d) hp hx hy hl hq (by
        rcases hno with ⟨h, h'⟩ | h
        · rw [h, h']; rfl
        · rw [decide_eq_true h, Bool.or_true])
      obtain ⟨hframe, hent⟩ := entry_noted (notedOnly_pops s [a, b]) ⟨rfl, rfl, rfl⟩ w d (BitVec.ofNat 64 (2 ^ 63))
      exact ⟨_, hrun, hframe, (entry_power ..).trans (by rw [pops_eq]), hent⟩
    case hub =>
      obtain ⟨t, hlater, hent, hfresh, hrun⟩ := evac_taken (w := w) (d := d) hp hx hy hl hq (.inr hhub) hop
      obtain ⟨hframe, hpow, he⟩ := answer_here hlater hu hent hfresh [] (BitVec.ofNat 64 (s.waysLost dom k))
      have hnil : t.addDue [] = t := by unfold State.addDue; rw [List.append_nil]
      rw [hnil] at hframe hpow he
      unfold State.evacSram at hrun
      rw [hlater.power, if_neg (by rw [hups]; decide), if_pos hhub, waysLost_congr hlater.power] at hrun
      exact ⟨_, hrun, hframe, hpow, he⟩
    case announced =>
      obtain ⟨t, hlater, hent, -, hrun⟩ := evac_taken (w := w) (d := d) hp hx hy hl hq (.inl hsram) hop
      unfold State.evacSram State.announce at hrun
      rw [hlater.power, if_neg (by rw [hups]; decide), if_neg (by rw [sram_not_hub hsram]; decide)] at hrun
      dsimp only at hrun
      obtain ⟨hframe, he⟩ := hlater.frame _ _ hent
      refine ⟨_, hrun, hframe, he, ?_, ?_⟩
      · by_cases hc : t.due.contains (.stepwaitExpire dom) = true
        · exact List.mem_append_left _ (by simpa using hc)
        · exact List.mem_append_right _ (by rw [if_neg hc]; exact List.mem_singleton_self _)
      · exact congrArg (Option.map Step.target) (NatMap.find_put_self ..)
    case held =>
      obtain ⟨t, hlater, hent, -, hrun⟩ := evac_taken (w := w) (d := d) hp hx hy hl hq hsram hop
      have hups' : (NatMap.find dom t.power.ups).isSome = true := by rw [hlater.power]; exact hups
      have hwait' : NatMap.find dom t.power.waiting = none := by rw [hlater.power]; exact hwait
      unfold State.evacSram at hrun
      rw [if_pos hups'] at hrun
      unfold State.holdRequest at hrun
      dsimp only at hrun
      rw [hwait'] at hrun
      have hnil (u : State) : u.addDue [] = u := by unfold State.addDue; rw [List.append_nil]
      let n : Nudge := { point := k, entries := if w then [] else [(s.core.self, s.hub.nextEntry)], evac := true }
      obtain ⟨hframe, he⟩ := hlater.frame { t.power with waiting := NatMap.put dom n t.power.waiting } [] hent
      rw [hnil] at hframe he
      exact ⟨_, hrun, hframe, he, stepOf_congr hlater.power dom, NatMap.find_put_self ..⟩

end Sys2Proof.Machine
end

section
set_option Elab.async false
/-! RACCT (R283, R382, R407). -/

namespace Sys2Proof.Machine

/-! ### Operations on a job account -/

/-- What an operation on accounts leaves of a form's frame: the registers, the queues, and memory. -/
def QueueFrame (s t : State) : Prop := t.core.arch = s.core.arch ∧ t.core.q = s.core.q ∧ t.mem = s.mem ∧ t.port = s.port

theorem QueueFrame.of_sameCore {s t : State} (h : SameCore s t) : QueueFrame s t := by
  obtain ⟨hcore, hmem, hport⟩ := h
  exact ⟨by rw [hcore], by rw [hcore], hmem, hport⟩

theorem QueueFrame.of_noted {s t u : State} (h : NotedOnly s t) (k : QueueFrame t u) : QueueFrame s u := by
  obtain ⟨karch, kq, kmem, kport⟩ := k
  obtain ⟨_, _, _, _, _, _, _, _, rfl⟩ := h
  exact ⟨karch, kq, kmem, kport⟩

/-- The answer of a form that has changed accounts alone: its entry, and the records as the change left them. -/
theorem QueueFrame.entry {s u : State} (h : QueueFrame s u) (w : Bool) (d : BitVec 6) (v : Word) :
    workFrame s (u.entry w d v) ∧ workEntry s (u.entry w d v) w d v ∧ ∀ i, (u.entry w d v).accAt i = u.accAt i := by
  obtain ⟨harch, hq, hmem, hport⟩ := h
  obtain ⟨earch, -, emem, eport, eentry, eacc, -⟩ := entry_work (s := u) w d v
  exact ⟨⟨earch.trans harch, emem.trans hmem, eport.trans hport⟩, workEntry_congr hq eentry, fun i => congrArg (NatMap.findD ({} : Account) i) eacc⟩

/-- CANCEL changes triggers, records of accounts, packets and actions due, and nothing else. -/
theorem cancelAcc_frame (s : State) (i : Nat) : QueueFrame s (s.cancelAcc i) := by
  by_cases h : (s.accAt i).st = .done
  · have e : s.cancelAcc i = s := if_pos h
    rw [e]; exact ⟨rfl, rfl, rfl, rfl⟩
  · obtain ⟨⟨A, D, hall⟩, -, -⟩ := cancelAll_spec s (i :: s.descendants i)
    have honly : TrigsOnly (s.cancelAll (i :: s.descendants i)) (s.cancelAcc i) := by
      have e : s.cancelAcc i = _ := if_neg h
      rw [e]
      have hdue (t : State) (xs : List Action) : TrigsOnly t (t.addDue xs) := ⟨_, _, _, _, rfl⟩
      unfold State.cancelList
      exact ((hdue _ _).trans (.each (fun s c => trigsOnly_dropTriggers s _ c) _)).trans (.each (fun s j => trigsOnly_noticeAll s _ _) _)
    obtain ⟨_, _, _, _, e⟩ := honly
    rw [e, hall]
    exact ⟨rfl, rfl, rfl, rfl⟩

/-- A job account made (R283, R407): open, with the allowance and its owner token. -/
theorem jobOp_create {s : State} {h : Handle} {amount : Word} {n : Nat} (hn : s.freeId (fld h 0 3) = some n) :
    ∃ u, s.jobOp 0 h amount = ((accHandle n (s.accAt n)).setWidth 64, u) ∧ QueueFrame s u ∧ (u.accAt n).st = .opn ∧ (u.accAt n).level = .job ∧
      (u.accAt n).allow = amount ∧
      (u.accAt n).owner = some { exp := 0#7, valid := true, acct := accHandle n (s.accAt n), pkg := s.fabric.num } := by
  have hactive : (s.partAt (fld h 0 3)).st = 1#2 := by
    unfold State.freeId at hn
    dsimp only at hn
    split at hn
    · assumption
    · cases hn
  let b : Account := { st := .opn, allow := amount, stopped := decide (amount.toInt ≤ 0), out := 2 ^ 127, level := .job, part := fld h 0 3,
                       gen := (s.accAt n).gen }
  have hnew : s.newAcc (fld h 0 3) .job none { st := .opn, allow := amount, stopped := decide (amount.toInt ≤ 0) } =
      some (n, s.setAcc n b) := by
    unfold State.newAcc; rw [hn]; rfl
  have hread : (s.setAcc n b).accAt n = b := accAt_of_out rfl
  have hgen : accHandle n b = accHandle n (s.accAt n) := accHandle_congr n rfl
  let o : Hold := { exp := 0#7, valid := true, acct := accHandle n b, pkg := s.fabric.num }
  have hfinal : ((s.setAcc n b).setAcc n { b with owner := some o }).accAt n = { b with owner := some o } := accAt_of_out rfl
  refine ⟨(s.setAcc n b).setAcc n { b with owner := some o }, ?_, ⟨rfl, rfl, rfl, rfl⟩, ?_⟩
  · unfold State.jobOp
    dsimp only
    rw [if_pos rfl, if_neg (fun e => e hactive), hnew]
    dsimp only
    rw [hread, hgen]
    exact Prod.ext rfl (by dsimp only [o]; rw [hgen])
  · rw [hfinal]
    exact ⟨rfl, rfl, rfl, congrArg (fun k : Handle => some ({ exp := 0#7, valid := true, acct := k, pkg := s.fabric.num } : Hold)) hgen⟩

theorem jobOp_stale {s : State} {h : Handle} (amount : Word) {op : Nat} (hop : op ≠ 0) (hl : s.live h = false) :
    s.jobOp op h amount = (BitVec.ofNat 64 ((causeCode .accountStale).toNat * 2 ^ 32 + 2 ^ 63), s) := by
  unfold State.jobOp
  dsimp only
  rw [if_neg hop, if_pos (by rw [hl]; decide)]

section
variable {s : State} {h : Handle} (amount : Word) (hl : s.live h = true) (hjob : (s.accAt (accId h)).level = .job)
include hl hjob

/-- An allowance added to (R382). -/
theorem jobOp_add :
    s.jobOp 1 h amount = (h.setWidth 64, s.setAcc (accId h) { s.accAt (accId h) with
      allow := addClamped (s.accAt (accId h)).allow amount
      stopped := (s.accAt (accId h)).stopped || decide ((addClamped (s.accAt (accId h)).allow amount).toInt ≤ 0) }) := by
  unfold State.jobOp
  dsimp only
  rw [if_neg (by decide), if_neg (by rw [hl]; decide), if_neg (fun e => e hjob)]
  rfl

theorem jobOp_release :
    s.jobOp 2 h amount = (h.setWidth 64, if (s.accAt (accId h)).st = .done then (s.freeAll (s.descendants (accId h))).freeAcc (accId h)
      else (s.setAcc (accId h) { s.accAt (accId h) with released := true }).returnOwner (accId h)) := by
  unfold State.jobOp
  dsimp only
  rw [if_neg (by decide), if_neg (by rw [hl]; decide), if_neg (fun e => e hjob)]
  rfl

theorem jobOp_cancel : s.jobOp 3 h amount = (h.setWidth 64, s.cancelAcc (accId h)) := by
  unfold State.jobOp
  dsimp only
  rw [if_neg (by decide), if_neg (by rw [hl]; decide), if_neg (fun e => e hjob)]
  rfl

end

/-- A job released (R407): freed where it is done, and else marked, its owner token returned. -/
theorem releaseJob {s : State} (hs : RisingKeys s.hub.accounts) (i : Nat) :
    let u := if (s.accAt i).st = .done then (s.freeAll (s.descendants i)).freeAcc i
      else (s.setAcc i { s.accAt i with released := true }).returnOwner i
    QueueFrame s u ∧ if (s.accAt i).st = .done then (u.accAt i).st = .free else (u.accAt i).released = true ∧ (u.accAt i).owner = none := by
  by_cases hd : (s.accAt i).st = .done
  · obtain ⟨hframe, hrise⟩ := freeAll_frame hs (s.descendants i)
    simp only [if_pos hd]
    exact ⟨.of_sameCore hframe, freeAcc_st hrise i⟩
  · simp only [if_neg hd]
    have hrel : ({ s.accAt i with released := true } : Account).released = true := rfl
    generalize ({ s.accAt i with released := true } : Account) = b at *
    have hread : (s.setAcc i b).accAt i = b := (State.accAt_setAcc hs _ _ _).trans (if_pos rfl)
    have hrise : RisingKeys (s.setAcc i b).hub.accounts := State.setAcc_rising hs _ _
    cases ho : b.owner with
    | none =>
      have e : (s.setAcc i b).returnOwner i = s.setAcc i b := by
        unfold State.returnOwner
        dsimp only
        rw [hread, ho]
      rw [e, hread]
      exact ⟨⟨rfl, rfl, rfl, rfl⟩, hrel, ho⟩
    | some own =>
      obtain ⟨hframe, hacc, -⟩ := returnOwner_ok hrise (i := i) (own := own) (by rw [hread]; exact ho)
      rw [hacc, hread]
      exact ⟨.of_sameCore hframe, hrel, rfl⟩

/-! ### The obligation -/

/-- The four forms of RACCT are one operation (R407). -/
theorem racct_run {s : State} {i : Instr} {p : BitVec 3} {w : Bool} {d : BitVec 6} {a b : Src} {x y : Word}
    (hi : i = .racctCreate p w d a b ∨ i = .racctAdd p w d a b ∨ i = .racctRelease p w d a b ∨ i = .racctCancel p w d a b)
    (hp : PredOn s p) (hx : s.readS .int a = .ok x) (hy : s.readS .int b = .ok y) (hl : s.level = 2)
    (hq : w = false → s.core.hasQueue (d.setWidth 3) = true) (hin : x.toNat + 64 ≤ s.core.decl.rawBytes) {v : Word} {u : State}
    (h : (s.pops [a, b]).jobOp (fld y 0 2) (BitVec.ofNat 32 (loadNat s.core.pad.bytes x.toNat 64))
      (BitVec.ofNat 64 (bits (loadNat s.core.pad.bytes x.toNat 64) 64 64)) = (v, u)) : Gives i s (u.entry w d v) := by
  have hbody : (do
      need (decide (2 ≤ (s.pops [a, b]).level)) .privilege
      let x ← (s.pops [a, b]).getS a
      let y ← (s.pops [a, b]).getS b
      (s.pops [a, b]).racct w d x y : Except Stop State) = .ok (u.entry w d v) := by
    rw [getS_pops, getS_of_readS hx, getS_pops, getS_of_readS hy]
    dsimp only [bind, Except.bind]
    rw [level_pops, decide_eq_true hl.ge, need_true]
    dsimp only
    unfold State.racct
    dsimp only [bind, Except.bind]
    rw [pops_decl, pops_pad, decide_eq_true hin, need_true, h]
    cases w with
    | true => rfl
    | false =>
      rw [if_pos (by decide), needQueue_ok (hq rfl)]
      rfl
  rcases hi with rfl | rfl | rfl | rfl
  · exact (exec_racctCreate ..).trans (issue_ok hp hbody)
  · exact (exec_racctAdd ..).trans (issue_ok hp hbody)
  · exact (exec_racctRelease ..).trans (issue_ok hp hbody)
  · exact (exec_racctCancel ..).trans (issue_ok hp hbody)

/-- Settles O35: each operation of RACCT finds the block and the account as its operands name them, and changes that record. -/
theorem rangerAccountResults : Obligations.RangerAccountResults := by
  unfold Obligations.RangerAccountResults
  intro s i p w d a b x y hi hp hx hy hl hq hin r h amount acc op goes
  have hnoted := notedOnly_pops s [a, b]
  have hlive : (s.pops [a, b]).live h = s.live h := by unfold State.live; rw [accAt_noted hnoted]
  have haccs (j : Nat) : (s.pops [a, b]).accAt j = s.accAt j := accAt_noted hnoted j
  have run {v : Word} {u : State} (e : (s.pops [a, b]).jobOp op h amount = (v, u)) (hu : QueueFrame (s.pops [a, b]) u) :
      goes (u.entry w d v) v ∧ ∀ j, (u.entry w d v).accAt j = u.accAt j := by
    obtain ⟨hframe, hent, hacc⟩ := (QueueFrame.of_noted hnoted hu).entry w d v
    exact ⟨⟨racct_run hi hp hx hy hl hq hin e, hframe, hent⟩, hacc⟩
  refine ⟨fun n hop hn => ?create, fun hop hlv hjob hs => ?change, fun hop hlv => ?stale⟩
  case create =>
    obtain ⟨u, e, hu, hst, hlevel, hallow, howner⟩ := jobOp_create (s := s.pops [a, b]) (h := h) (amount := amount)
      (by rw [freeId_noted hnoted]; exact hn)
    rw [haccs] at e howner
    rw [show (s.pops [a, b]).fabric.num = s.fabric.num by rw [pops_eq]] at howner
    obtain ⟨hgoes, hacc⟩ := run (by rw [hop]; exact e) hu
    refine ⟨_, hgoes, ?_⟩
    rw [hacc]
    exact ⟨hst, hlevel, hallow, howner⟩
  case change =>
    have hlv' : (s.pops [a, b]).live h = true := by rw [hlive]; exact hlv
    have hjob' : ((s.pops [a, b]).accAt (accId h)).level = .job := by rw [haccs]; exact hjob
    have hs' : RisingKeys (s.pops [a, b]).hub.accounts := by rw [accounts_noted hnoted]; exact hs
    refine ⟨fun h1 => ?_, fun h2 => ?_, fun h3 hnd => ?_⟩
    · have e := jobOp_add amount hlv' hjob'
      generalize hb : ({ (s.pops [a, b]).accAt (accId h) with
        allow := addClamped ((s.pops [a, b]).accAt (accId h)).allow amount
        stopped := ((s.pops [a, b]).accAt (accId h)).stopped ||
          decide ((addClamped ((s.pops [a, b]).accAt (accId h)).allow amount).toInt ≤ 0) } : Account) = k at e
      obtain ⟨hgoes, hacc⟩ := run (u := (s.pops [a, b]).setAcc (accId h) k) (by rw [h1]; exact e) ⟨rfl, rfl, rfl, rfl⟩
      refine ⟨_, hgoes, ?_⟩
      rw [hacc, State.accAt_setAcc hs', if_pos rfl, ← hb]
      exact congrArg (fun c : Account => addClamped c.allow amount) (haccs (accId h))
    · obtain ⟨hframe, hst⟩ := releaseJob hs' (accId h)
      obtain ⟨hgoes, hacc⟩ := run (by rw [h2]; exact jobOp_release amount hlv' hjob') hframe
      refine ⟨_, hgoes, ?_⟩
      rw [hacc]
      rw [haccs] at hst
      simpa only [haccs] using hst
    · obtain ⟨hgoes, hacc⟩ := run (by rw [h3]; exact jobOp_cancel amount hlv' hjob') (cancelAcc_frame _ _)
      refine ⟨_, hgoes, ?_⟩
      rw [hacc]
      have hfree : (s.accAt (accId h)).st ≠ .free := by
        unfold State.live at hlv
        simp only [Bool.and_eq_true, decide_eq_true_iff] at hlv
        exact hlv.2
      obtain ⟨-, -, -, hmark⟩ := cancelAcc_spec (s := s.pops [a, b]) (i := accId h) (by rw [haccs]; exact hfree) (by rw [haccs]; exact hnd)
      exact (hmark (accId h) (.inl rfl) (by rw [haccs]; exact hnd)).1
  case stale =>
    obtain ⟨hgoes, -⟩ := run (jobOp_stale amount hop (by rw [hlive]; exact hlv)) ⟨rfl, rfl, rfl, rfl⟩
    exact ⟨_, hgoes⟩

end Sys2Proof.Machine
end

section
set_option Elab.async false
/-! Taking a trap (R400, R446): an uncorrectable error is reported and writes no trap record. -/

namespace Sys2Proof.Machine

/-- The ranger core after power-on. -/
def rangerAtReset : State := { State.reset with cur := rangerId, core := {} }

/-- An uncorrectable error at address 0. -/
def struckTrap : TrapInfo := { cause := .eccUncorrected }

/-- Refutes O57: an uncorrectable error (R446), the one cause at which the ranger core takes no trap of its own. -/
theorem not_trapEntry : ¬ Obligations.TrapEntry := by
  unfold Obligations.TrapEntry
  intro h
  obtain ⟨-, hranger⟩ := h rangerAtReset struckTrap
  obtain ⟨htrap, -⟩ := hranger rfl rfl
  obtain ⟨-, hin, -⟩ := htrap rfl
  have hout : (rangerAtReset.takeTrap struckTrap).core.inTrap = false := by decide +kernel
  rw [hout] at hin
  cases hin

end Sys2Proof.Machine
end

section
set_option Elab.async false
/-! Where a statement about the end of a unit takes no order of the sequencers for granted (R284, R355): a list of sequencers with two entries of one
number. -/

namespace Sys2Proof.Machine

/-! ### The counterexamples -/

/-- A trap that waits for a handler. -/
def trapAhead : TrapWait := { unit := none, owner := 1, acct := 0#32, recAt := 0, ctxAt := 0, cause := .userTrap, part := 0 }

/-- A handler unit of core 7. -/
def handlerUnit : Uni := { st := .standby, core := 7, handler := some trapAhead }

/-- Sequencers in which core 7 is listed twice: its first entry falls to the reset value, and so out of the list, as its STANDBY unit leaves. -/
def twiceListed (u : Nat) : NatMap Core := [(7, { standby := some u }), (7, { standby := some u, trapq := [trapAhead] })]

/-- A machine whose partition has a handler, with a transfer of unit `u` under way. -/
def twiceState (u : Nat) : State :=
  { State.reset with
    others := twiceListed u
    hub := { State.reset.hub with
      parts := State.reset.hub.parts.set 0 { st := 1#2, handler := 0#16 }
      images := [(0, { units := [{}] })]
      xfers := [(1, { unit := u, core := 7, part := 0, chan := 8, isGet := false, tid := 0#32, raddr := 0#64, record := 0#512, todo := [] })]
      units := [(u, handlerUnit)], nextUnit := u + 1 } }

/-- The ranger core in focus, running number 0, which the table of units has too. -/
def exitTwice : State := { twiceState 0 with cur := rangerId, core := { unit := some 0 } }

theorem exitTwice_unit : ((exitTwice.closeUnit.endRunning exitTwice.closeUnit.cur false false).unitAt 0).map Uni.st = some .queued := by
  decide +kernel

/-- Refutes O27: where number 0 stands in the table of units, and the list of sequencers holds a core twice, the handler of the next trap
puts the unit that has ended back into the queue. -/
theorem not_leaveResults : ¬ Obligations.LeaveResults := by
  unfold Obligations.LeaveResults
  intro h
  obtain ⟨-, hexit⟩ := h exitTwice 0#3 rfl
  obtain ⟨t, ht, -, -, -, -, hend⟩ := hexit 0 rfl rfl (by unfold RisingKeys; decide +kernel) (by decide)
  have hrun : Gives (.exit 0#3) exitTwice (exitTwice.closeUnit.endRunning exitTwice.closeUnit.cur false false) :=
    (exec_exit ..).trans (issue_ok rfl rfl)
  rw [Host.Outcome.next.inj (ht.symm.trans hrun)] at hend
  obtain ⟨y, hy, hst⟩ := Option.map_eq_some_iff.1 exitTwice_unit
  rw [hend y hy] at hst
  cases hst

/-- Refutes O37: with the list of sequencers holding a core twice, the unit that a cancellation ends is queued again. -/
theorem not_dispatchActionResults : ¬ Obligations.DispatchActionResults := by
  unfold Obligations.DispatchActionResults
  intro h
  obtain ⟨-, -, -, -, hcancel, -⟩ := h (twiceState 1) 0
  obtain ⟨t, ht, -, hend, -⟩ := hcancel 1 handlerUnit rfl (by decide) (by decide) (by unfold RisingKeys; decide +kernel) (by decide)
  have hunit : ((({ twiceState 1 with act := some (.unitCancelStop 1) } : State).discard 1).unitAt 1).map Uni.st = some .queued := by
    decide +kernel
  have hrun : Does (.unitCancelStop 1) (twiceState 1) (({ twiceState 1 with act := some (.unitCancelStop 1) } : State).discard 1) := rfl
  rw [Host.Outcome.next.inj (ht.symm.trans hrun)] at hend
  obtain ⟨y, hy, hst⟩ := Option.map_eq_some_iff.1 hunit
  rw [hend y hy] at hst
  cases hst

end Sys2Proof.Machine
end

section
set_option Elab.async false
/-! Returning from a trap (R355, R357, R400): a trap that waits behind the handler. -/

namespace Sys2Proof.Machine

/-! ### The counterexample -/

/-- The state of a confirmation that is made. -/
def Confirmed.state : Confirmed → State
  | .made u => u
  | .waits => State.reset
  | .replayed u => u

/-- The state that an outcome goes on in. -/
def nextState (o : Host.Outcome State Fault Refusal) : State :=
  match o with
  | .next t => t
  | .fault _ => State.reset
  | .refused _ => State.reset

/-- A trap of a weak agent of unit 1. -/
def weakAhead : TrapWait := { unit := none, owner := 1, acct := 0#32, recAt := 0, ctxAt := 0, cause := .userTrap, part := 0 }

/-- The trap of unit 1 that unit 2 handles. -/
def trapHandled : TrapWait := { weakAhead with unit := some 1 }

/-- Unit 2 on core 5 handles a trap of unit 1, a second one waits, and their partition has no handler any more. -/
def returning : State :=
  { State.reset with
    cur := 5, core := { unit := some 2, isHandler := true, handling := some trapHandled, trapq := [weakAhead] }
    hub := { State.reset.hub with
      units := [(1, { st := .suspended, started := true, core := 5 }), (2, { st := .running, started := true, core := 5, handler := some trapHandled })]
      nextUnit := 3 } }

/-- The state from which unit 2 returns. -/
def returningClosed : State := ((returning.pops [.imm 0#5]).confirm.state).closeUnit

theorem returning_unit : ((nextState (exec (.tretRetry 0#3 (.imm 0#5)) returning)).unitAt 1).map Uni.st ≠ some .queued := by decide +kernel

/-- Refutes O31: where a second trap of the unit waits behind the handler, and its partition has no handler any more, the return from the first
queues the unit and the end of the handler then ends it. -/
theorem not_trapFormResults : ¬ Obligations.TrapFormResults := by
  unfold Obligations.TrapFormResults
  intro h
  obtain ⟨-, -, -, hconfirm⟩ := h returning (.tretRetry 0#3 (.imm 0#5)) 0#3 (.imm 0#5) 0#64 rfl rfl
  obtain ⟨u, hu, -, -, htret⟩ := hconfirm ⟨by decide +kernel, by decide +kernel, by decide +kernel, .inl (by decide +kernel)⟩
  have hstate : (returning.pops [.imm 0#5]).confirm.state = u := congrArg Confirmed.state hu
  obtain ⟨-, hcore⟩ := htret (.inl rfl) (by decide +kernel) (by decide +kernel)
  obtain ⟨t, ht, -, hunit⟩ := hcore (by decide +kernel)
  have hnext : nextState (exec (.tretRetry 0#3 (.imm 0#5)) returning) = t := congrArg nextState ht
  rw [← hstate] at hunit
  have hy : ∃ y, returningClosed.unitAt 1 = some y ∧ (y.started = true ∧ y.st = .suspended ∧ returningClosed.cancelling y.hold = false) := by
    refine ⟨{ st := .suspended, started := true, core := 5 }, ?_⟩
    decide +kernel
  obtain ⟨y, hy, hstarted, hst, hcancel⟩ := hy
  have hz := hunit trapHandled 1 2 y (by decide +kernel) rfl (by decide +kernel) (by decide) (by decide +kernel) hy hstarted hst (by decide +kernel)
    (by unfold RisingKeys; decide +kernel)
  unfold returningClosed at hcancel
  rw [hcancel, if_neg (by decide)] at hz
  obtain ⟨z, hz, hqueued, -⟩ := hz
  refine returning_unit ?_
  rw [hnext, hz, Option.map_some, hqueued]

end Sys2Proof.Machine
end

section
set_option Elab.async false
/-! A borrow of the ranger core (R272): its entry in the list of sequencers falls to the reset value, and so out of the list. -/

namespace Sys2Proof.Machine

/-! ### The counterexample -/

/-- The ranger core's job, account 0, which holds its owner token. -/
def borrowerJob : Account := { st := .opn, level := .job, owner := some { exp := 127#7, valid := true } }

/-- Core 0 in focus, and the ranger core, which waits for a borrow, listed twice. -/
def borrower : State :=
  { State.reset with
    cur := 0, core := {}, others := [(256, { borrow := .asked }), (256, { borrow := .saturated })]
    hub := { State.reset.hub with job := some 0#32, accounts := [(0, borrowerJob)] } }

theorem borrower_granted : ((borrower.takeBorrow 256 0#32 0#16 none).coreAt 256).borrow = .saturated := by decide +kernel

/-- Refutes O38: the grant puts the ranger core back to its reset value, which leaves the list of sequencers, and a second entry of the list then
stands for it. -/
theorem not_weightActionResults : ¬ Obligations.WeightActionResults := by
  unfold Obligations.WeightActionResults
  intro h
  obtain ⟨hborrow, -⟩ := h
  obtain ⟨-, hreply⟩ := hborrow borrower 0#32 256 { borrow := .asked } { exp := 127#7, valid := true } rfl (by decide +kernel)
  obtain ⟨-, hranger, -⟩ := hreply (by decide) rfl rfl rfl
  obtain ⟨t, ht, -, hcore, -⟩ := hranger 0#32 borrowerJob rfl rfl (by decide +kernel) (by decide +kernel)
  have hrun : Does (.borrowReply 256 0#32 0#16 none) borrower
      (({ borrower with act := some (.borrowReply 256 0#32 0#16 none) } : State).takeBorrow 256 0#32 0#16 none) := rfl
  rw [Host.Outcome.next.inj (ht.symm.trans hrun)] at hcore
  have hsat := congrArg Core.borrow hcore
  rw [show (({ borrower with act := some (.borrowReply 256 0#32 0#16 none) } : State).takeBorrow 256 0#32 0#16 none).coreAt 256
    = (borrower.takeBorrow 256 0#32 0#16 none).coreAt 256 from rfl, borrower_granted] at hsat
  cases hsat

end Sys2Proof.Machine
end

section
set_option Elab.async false
/-! Messages at their destination core (R280, R282, R292, R300), and what an action of the device leaves alone. -/

namespace Sys2Proof.Machine

/-! ### Registers and memory as they were -/

theorem calm_refl (s : State) : calm s s := ⟨rfl, rfl, rfl, rfl⟩

theorem calm.trans {s t u : State} (h : calm s t) (k : calm t u) : calm s u := by
  obtain ⟨hm, hc, ha, hs⟩ := h
  obtain ⟨km, kc, ka, ks⟩ := k
  exact ⟨km.trans hm, kc.trans hc, ka.trans ha, ks.trans hs⟩

/-- A sequencer replaced by one with the same registers and checkpoint. -/
theorem calm_setCore {s : State} {c : Nat} {x : Core} (ha : x.arch = (s.coreAt c).arch) (hs : x.shadow = (s.coreAt c).shadow) :
    calm s (s.setCore c x) := by
  refine ⟨State.setCore_mem .., State.setCore_cur .., ?_⟩
  unfold State.setCore
  split
  · next h => rw [h, State.coreAt_cur] at ha hs; exact ⟨ha, hs⟩
  · exact ⟨rfl, rfl⟩

theorem calm_modCore (s : State) (c : Nat) {f : Core → Core} (ha : ∀ x, (f x).arch = x.arch) (hs : ∀ x, (f x).shadow = x.shadow) :
    calm s (s.modCore c f) := calm_setCore (ha _) (hs _)

theorem calm_modUnit (s : State) (u : Nat) (f : Uni → Uni) : calm s (s.modUnit u f) := by
  unfold State.modUnit; split <;> exact calm_refl s

/-- Only the hub's records and what is due differ. -/
def HubDue (s t : State) : Prop := ∃ h xs, t = { s with hub := h, due := xs }

theorem HubDue.calm {s t : State} (h : HubDue s t) : calm s t := by
  obtain ⟨_, _, rfl⟩ := h; exact calm_refl s

theorem HubDue.coreAt {s t : State} (h : HubDue s t) (c : Nat) : t.coreAt c = s.coreAt c := by
  obtain ⟨_, _, rfl⟩ := h; rfl

theorem hubDue_newUnit (s : State) (x : Uni) : HubDue s (s.newUnit x).2 := by
  unfold State.newUnit
  dsimp only
  split <;> split <;> exact ⟨_, _, rfl⟩

/-! ### The queue of a core -/

theorem mem_due_addDue {s : State} {xs : List Action} {a : Action} (h : a ∈ xs) : a ∈ (s.addDue xs).due := List.mem_append_right _ h

/-- A unit queued on a core (R284). -/
theorem addUnit_spec (s : State) (x : Uni) (c : Nat) :
    let t := (s.addUnit x c false).2
    calm s t ∧ t.unitAt s.hub.nextUnit = some { x with st := .queued, core := c, stamp := (s.coreAt c).issuedN, aged := 0 } ∧
      (t.coreAt c).queue = (s.coreAt c).queue ++ [s.hub.nextUnit] := by
  obtain ⟨hnum, -, hunit⟩ := newUnit_spec s x
  have hnew := hubDue_newUnit s x
  unfold State.addUnit State.enqueue
  dsimp only
  rw [hnum]
  generalize (s.newUnit x).2 = n at hunit hnew ⊢
  have hmod : HubDue s (n.modUnit s.hub.nextUnit fun y => { y with st := .queued, core := c, stamp := (n.coreAt c).issuedN, aged := 0 }) := by
    obtain ⟨_, _, rfl⟩ := hnew
    unfold State.modUnit
    split <;> exact ⟨_, _, rfl⟩
  have hat : (n.modUnit s.hub.nextUnit fun y => { y with st := .queued, core := c, stamp := (n.coreAt c).issuedN, aged := 0 }).unitAt s.hub.nextUnit
      = some { x with st := .queued, core := c, stamp := (s.coreAt c).issuedN, aged := 0 } := by
    rw [State.unitAt_modUnit, if_pos rfl, hunit, hnew.coreAt]; rfl
  generalize (n.modUnit s.hub.nextUnit fun y => { y with st := .queued, core := c, stamp := (n.coreAt c).issuedN, aged := 0 }) = q at hmod hat ⊢
  refine ⟨hmod.calm.trans (calm_modCore q c (fun _ => rfl) fun _ => rfl), ?_, ?_⟩
  · rw [State.unitAt_addDue, State.modCore, State.unitAt_setCore, hat]
  · change ((q.modCore c _).coreAt c).queue = _
    rw [State.modCore, State.coreAt_setCore_of_ne (fun e => List.append_ne_nil_of_right_ne_nil _ (List.cons_ne_nil _ _) (congrArg Core.queue e)),
      if_pos rfl, hmod.coreAt]
    rfl

/-! ### Messages -/

/-- A token of a message goes home. -/
theorem dropMessage_spec (s : State) (m : Message) :
    calm s (s.dropMessage m) ∧ (s.dropMessage m).hub = s.hub ∧
      Action.combinerAdd m.dcore.toNat { acct := m.tok.acct, pkg := m.tok.pkg, value := tokValue m.tok.exp, taint := false, pts := m.pts } ∈ (s.dropMessage m).due :=
  ⟨calm_refl s, rfl, mem_due_addDue (List.mem_singleton_self _)⟩

/-- A message that waits at a core whose arrival buffer has room. -/
theorem parkMessage_spec {s : State} {m : Message} (hroom : (s.coreAt m.dcore.toNat).arrivals.length < 16)
    (hheld : (s.coreAt m.dcore.toNat).held = []) :
    calm s (s.parkMessage m) ∧ (s.parkMessage m).hub = s.hub ∧
      ((s.parkMessage m).coreAt m.dcore.toNat).arrivals = (s.coreAt m.dcore.toNat).arrivals ++ [(m, s.time)] ∧
      Action.messageTimeout m.dcore.toNat ∈ (s.parkMessage m).due := by
  have hset := calm_modCore s m.dcore.toNat (f := fun x => { x with
    arrivals := ((s.coreAt m.dcore.toNat).waitingMsgs ++ [(m, s.time)]).take 16, held := ((s.coreAt m.dcore.toNat).waitingMsgs ++ [(m, s.time)]).drop 16 })
    (fun _ => rfl) fun _ => rfl
  have htake : ((s.coreAt m.dcore.toNat).waitingMsgs ++ [(m, s.time)]).take 16 = (s.coreAt m.dcore.toNat).arrivals ++ [(m, s.time)] := by
    unfold Core.waitingMsgs
    rw [hheld, List.append_nil, List.take_of_length_le]
    rw [List.length_append]; simpa using hroom
  have harr : ((s.setMsgs m.dcore.toNat ((s.coreAt m.dcore.toNat).waitingMsgs ++ [(m, s.time)])).coreAt m.dcore.toNat).arrivals
      = (s.coreAt m.dcore.toNat).arrivals ++ [(m, s.time)] := by
    unfold State.setMsgs State.modCore
    rw [htake, State.coreAt_setCore_of_ne (fun e => List.append_ne_nil_of_right_ne_nil _ (List.cons_ne_nil _ _) (congrArg Core.arrivals e)), if_pos rfl]
  have hhub : (s.setMsgs m.dcore.toNat ((s.coreAt m.dcore.toNat).waitingMsgs ++ [(m, s.time)])).hub = s.hub := State.setCore_hub ..
  unfold State.parkMessage
  dsimp only
  split
  · next h => exact ⟨hset, hhub, harr, by simpa using h⟩
  · exact ⟨hset, hhub, harr, mem_due_addDue (List.mem_singleton_self _)⟩

/-- The messages that are refused one after the other (R300): only what is due grows, each token going home. -/
theorem refuseMessages_spec (ms : List (Message × Nat)) (s : State) :
    ∃ xs, ms.foldl (fun s e => s.refuseMessage e.1) s = s.addDue xs ∧ ∀ e ∈ ms,
      Action.combinerAdd e.1.dcore.toNat { acct := e.1.tok.acct, pkg := e.1.tok.pkg, value := tokValue e.1.tok.exp, taint := false, pts := e.1.pts } ∈ xs := by
  induction ms generalizing s with
  | nil => exact ⟨[], (State.addDue_nil s).symm, fun _ h => absurd h List.not_mem_nil⟩
  | cons e es ih =>
    obtain ⟨xs, hxs, hmem⟩ := ih (s.refuseMessage e.1)
    rw [List.foldl_cons, hxs]
    unfold State.refuseMessage State.event State.dropMessage State.giveTok State.giveBack
    rw [State.addDue_addDue, State.addDue_addDue]
    refine ⟨_, rfl, fun f hf => ?_⟩
    rcases List.mem_cons.1 hf with rfl | hf
    · exact List.mem_append_left _ (List.mem_append_left _ (List.mem_singleton_self _))
    · exact List.mem_append_right _ (List.mem_append_right _ (hmem f hf))

/-- The messages that have waited too long leave the buffer of their core (R300). -/
theorem expireMsgs_spec {s : State} {c : Nat} (ho : RisingKeys s.others) (hheld : (s.coreAt c).held = []) (hlen : (s.coreAt c).arrivals.length ≤ 16) :
    calm s (s.expireMsgs c) ∧ (∀ e, e ∈ ((s.expireMsgs c).coreAt c).arrivals ↔ e ∈ (s.coreAt c).arrivals ∧ s.time < e.2 + 2 ^ 20) ∧
      ∀ e ∈ (s.coreAt c).arrivals, e.2 + 2 ^ 20 ≤ s.time →
        Action.combinerAdd e.1.dcore.toNat { acct := e.1.tok.acct, pkg := e.1.tok.pkg, value := tokValue e.1.tok.exp, taint := false, pts := e.1.pts }
          ∈ (s.expireMsgs c).due := by
  have hall : (s.coreAt c).waitingMsgs = (s.coreAt c).arrivals := by unfold Core.waitingMsgs; rw [hheld, List.append_nil]
  unfold State.expireMsgs
  dsimp only
  rw [hall]
  obtain ⟨xs, hxs, hmem⟩ := refuseMessages_spec ((s.coreAt c).arrivals.filter fun e => decide (e.2 + 2 ^ 20 ≤ s.time))
    (s.setMsgs c ((s.coreAt c).arrivals.filter fun e => !decide (e.2 + 2 ^ 20 ≤ s.time)))
  rw [hxs]
  have hset : calm s (s.setMsgs c ((s.coreAt c).arrivals.filter fun e => !decide (e.2 + 2 ^ 20 ≤ s.time))) :=
    calm_modCore s c (fun _ => rfl) fun _ => rfl
  have harr : ∀ e, e ∈ ((s.setMsgs c ((s.coreAt c).arrivals.filter fun e => !decide (e.2 + 2 ^ 20 ≤ s.time))).coreAt c).arrivals
      ↔ e ∈ (s.coreAt c).arrivals ∧ s.time < e.2 + 2 ^ 20 := by
    intro e
    unfold State.setMsgs State.modCore
    rw [State.coreAt_setCore ho, if_pos rfl]
    dsimp only
    rw [List.take_of_length_le ((List.length_filter_le ..).trans hlen), List.mem_filter]
    simp
  generalize s.setMsgs c _ = u at hset harr ⊢
  have hhome : ∀ e ∈ (s.coreAt c).arrivals, e.2 + 2 ^ 20 ≤ s.time → Action.combinerAdd e.1.dcore.toNat
      { acct := e.1.tok.acct, pkg := e.1.tok.pkg, value := tokValue e.1.tok.exp, taint := false, pts := e.1.pts } ∈ (u.addDue xs).due :=
    fun e he ht => mem_due_addDue (hmem e (List.mem_filter.2 ⟨he, decide_eq_true ht⟩))
  split
  · exact ⟨hset, harr, hhome⟩
  · exact ⟨hset, harr, fun e he ht => List.mem_append_left _ (hhome e he ht)⟩

/-- A message that its core may take, with none of its stream before it. -/
theorem takeMessage_offered {s : State} {m : Message} (hlast : s.overtakes m = false) (hpart : s.messagePart m ≠ none)
    (hown : s.ownerOfQuad (quadOf m.dcore.toNat) = s.messagePart m)
    (hfirst : ∀ k ∈ (s.coreAt m.dcore.toNat).waitingMsgs, sameStream m k.1 = false) :
    s.takeMessage m = (s.offer m).getD (s.parkMessage m) := by
  have hnone : ((s.coreAt m.dcore.toNat).waitingMsgs.any fun k => sameStream m k.1) = false := List.any_eq_false.2 fun k hk => by
    rw [hfirst k hk]; decide
  unfold State.takeMessage
  dsimp only
  rw [hlast, if_neg Bool.false_ne_true, if_neg (not_or.2 ⟨hpart, not_not.2 hown⟩), hnone, if_neg Bool.false_ne_true]
  cases s.offer m <;> rfl

/-- Settles O39: a message that its core cannot name is refused; else it is consumed, dropped, queued as a unit or parked, as its label and its
trigger say. -/
theorem messageActionResults : Obligations.MessageActionResults := by
  unfold Obligations.MessageActionResults
  intro s m c home hlast
  refine ⟨fun hbad => ?_, fun hpart hown hfirst => ?_, fun ho hheld hlen => ?_⟩
  · refine ⟨({ s with act := some (.messageArrive m) } : State).refuseMessage m, ?_, calm_refl s, rfl, ?_, _, mem_due_addDue (List.mem_singleton_self _), rfl, rfl, rfl⟩
    · refine congrArg Host.Outcome.next ?_
      unfold State.takeMessage
      dsimp only
      rw [show State.overtakes { s with act := some (.messageArrive m) } m = false from hlast, if_neg Bool.false_ne_true]
      exact if_pos hbad
    · exact List.mem_append_left _ (mem_due_addDue (List.mem_singleton_self _))
  · let s1 : State := { s with act := some (.messageArrive m) }
    have hrun : Does (.messageArrive m) s ((s1.offer m).getD (s1.parkMessage m)) :=
      congrArg Host.Outcome.next (takeMessage_offered (s := s1) hlast hpart hown hfirst)
    refine ⟨fun hl => ?_, fun hl ht hroom hheld => ?_, fun g hl ht hcan => ?_, fun g hl ht hcan hroom => ?_⟩
    · rw [show s1.offer m = some (s1.dropMessage m) from if_pos hl] at hrun
      exact ⟨_, hrun, dropMessage_spec s1 m⟩
    · rw [show s1.offer m = none from (if_neg hl).trans (by rw [show (s1.coreAt m.dcore.toNat).trigOf m = none from ht])] at hrun
      exact ⟨_, hrun, parkMessage_spec (s := s1) hroom hheld⟩
    · rw [show s1.offer m = some (s1.dropMessage m) from
        (if_neg hl).trans (by rw [show (s1.coreAt m.dcore.toNat).trigOf m = some g from ht]; exact if_pos hcan)] at hrun
      exact ⟨_, hrun, dropMessage_spec s1 m⟩
    · have hoffer : s1.offer m = some (s1.spawnTriggered c g m.payload (BitVec.ofNat 64 m.srcCore) (m.srcPkg.setWidth 64) (Tok.hold m.tok) m.pts) :=
        (if_neg hl).trans (by
          rw [show (s1.coreAt m.dcore.toNat).trigOf m = some g from ht]
          exact (if_neg (by rw [show s1.cancelling (Tok.hold m.tok) = false from hcan]; exact Bool.false_ne_true)).trans (if_pos hroom))
      rw [hoffer] at hrun
      have hspawn : ∃ x : Uni, s1.spawnTriggered c g m.payload (BitVec.ofNat 64 m.srcCore) (m.srcPkg.setWidth 64) (Tok.hold m.tok) m.pts
          = (s1.addUnit x c false).2 ∧ x.index = g.unit ∧ x.part = g.part ∧ x.prio = g.prio ∧ x.hold = Tok.hold m.tok ∧ x.argv = some m.payload ∧
            x.s8 = BitVec.ofNat 64 m.srcCore ∧ x.s9 = m.srcPkg.setWidth 64 ∧ x.s10 = g.label.setWidth 64 :=
        ⟨_, if_pos (of_decide_eq_true hroom), rfl, rfl, rfl, rfl, rfl, rfl, rfl, rfl⟩
      obtain ⟨x, hx, hi, hp, hprio, hh, ha, h8, h9, h10⟩ := hspawn
      have hlab : g.label = m.label := by
        unfold Core.trigOf at ht
        obtain ⟨k, -, hk⟩ := List.exists_of_findSome?_eq_some ht
        obtain ⟨y, -, hy⟩ := Option.bind_eq_some_iff.1 hk
        split at hy
        · next hm => cases hy; exact hm.2
        · cases hy
      rw [hx] at hrun
      obtain ⟨hcalm, hunit, hqueue⟩ := addUnit_spec s1 x c
      exact ⟨_, _, hrun, hcalm, hunit, rfl, rfl, hi, hp, hprio, hh, ha, h8, h9, h10.trans (by rw [hlab]), hqueue⟩
  · obtain ⟨hcalm, harr, hhome⟩ := expireMsgs_spec (s := { s with act := some (.messageTimeout c) }) (c := c) ho hheld hlen
    exact ⟨_, rfl, hcalm, harr, fun hm ht => hhome _ hm (by simpa using ht)⟩

end Sys2Proof.Machine
end

section
set_option Elab.async false
/-! A weak trap that ends its unit (R253, R355): a list of sequencers with two entries of one number. -/

namespace Sys2Proof.Machine

/-! ### The counterexample -/

/-- A transfer of unit 1, a handler of core 7, on channel `n`. -/
def handlerXfer (n : Nat) : Xfer :=
  { unit := 1, core := 7, part := 0, chan := n, isGet := false, tid := 0#32, raddr := 0#64, record := 0#512, todo := [] }

/-- The handler unit of core 7, with a slot for its records. -/
def recordedUnit : Uni := { handlerUnit with evac := 0x100000#64 }

/-- Unit 1 waits on core 7, which is listed twice; its slot translates, and a record of channel 0 and a PUT of it are under way. -/
def twiceRecorded : State :=
  { State.reset with
    others := twiceListed 1, mem := [(0x1000, 0x01#8), (0x1001, 0x20#8), (0x2000, 0x0B#8)]
    hub := { State.reset.hub with
      parts := State.reset.hub.parts.set 0
        { st := 1#2, quads := 0xFFFFFFFF#32, root := 0x1000#64, windows := [(0, 2 ^ 23 - 1)], handler := 0#16 }
      images := [(0, { units := [{}] })]
      xfers := [(1, handlerXfer 0), (2, handlerXfer 8)]
      units := [(1, recordedUnit)], nextUnit := 2, nextXfer := 3 } }

theorem twiceRecorded_canRecord : CanRecord twiceRecorded 1 recordedUnit 0x100000 := by
  unfold CanRecord RisingKeys
  decide +kernel

theorem twiceRecorded_unhandled : ¬ Handled twiceRecorded recordedUnit := fun h => absurd h.2 (by decide)

theorem channelFault_queues :
    ((({ twiceRecorded with act := some (.channelFault 1 .align 0#64) } : State).chanFault 1 (handlerXfer 0) .align 0#64).unitAt 1).map Uni.st = some .queued := by decide +kernel

theorem putGetFault_queues :
    ((({ twiceRecorded with act := some (.putGetRemoteFault 2 .align 0#64) } : State).putGetFault 2 (handlerXfer 8) .align 0#64).unitAt 1).map Uni.st = some .queued := by decide +kernel

/-- A fault of a record that has had none (R253). -/
theorem does_channelFault {s : State} {x : Nat} {f : Xfer} (hx : s.xferAt x = some f) (hf : f.faulted = false) (k : Cause) (v : Word) :
    Does (.channelFault x k v) s (({ s with act := some (.channelFault x k v) } : State).chanFault x f k v) := by
  unfold Does
  rw [show Action.instr (.channelFault x k v) = .channelFault from rfl, exec_channelFault]
  unfold execChannelFault
  dsimp only
  rw [show State.xferAt { s with act := some (.channelFault x k v) } x = some f from hx]
  dsimp only
  rw [hf, if_neg Bool.false_ne_true]

/-- A fault of a PUT or GET that has had none (R255). -/
theorem does_putGetFault {s : State} {x : Nat} {f : Xfer} (hx : s.xferAt x = some f) (hf : f.faulted = false) (k : Cause) (v : Word) :
    Does (.putGetRemoteFault x k v) s (({ s with act := some (.putGetRemoteFault x k v) } : State).putGetFault x f k v) := by
  unfold Does
  rw [show Action.instr (.putGetRemoteFault x k v) = .putGetRemoteFault from rfl, exec_putGetRemoteFault]
  unfold execPutGetRemoteFault
  dsimp only
  rw [show State.xferAt { s with act := some (.putGetRemoteFault x k v) } x = some f from hx]
  dsimp only
  rw [hf, if_neg Bool.false_ne_true]

/-- Refutes O41: the unit that a channel's fault ends is queued again by the handler of the next trap, where the list of sequencers holds its
core twice. -/
theorem not_channelActionResults : ¬ Obligations.ChannelActionResults := by
  unfold Obligations.ChannelActionResults
  intro h
  obtain ⟨-, -, -, hfault⟩ := h twiceRecorded 1 0 recordedUnit (by decide) (by decide) rfl
  obtain ⟨t, ht, -, -, hend⟩ := hfault 1 (handlerXfer 0) .align 0#64 0x100000 rfl rfl rfl rfl twiceRecorded_canRecord
  have hrun := does_channelFault (x := 1) (s := twiceRecorded) rfl rfl .align 0#64
  have hended := hend twiceRecorded_unhandled
  rw [Host.Outcome.next.inj (ht.symm.trans hrun)] at hended
  obtain ⟨y, hy, hst⟩ := Option.map_eq_some_iff.1 channelFault_queues
  have hst' := hended y hy
  rw [hst] at hst'
  cases hst'

/-- Refutes O42: the same of the fault of a PUT. -/
theorem not_engineActionResults : ¬ Obligations.EngineActionResults := by
  unfold Obligations.EngineActionResults
  intro h
  obtain ⟨hput, -⟩ := h
  obtain ⟨hfault, -⟩ := hput twiceRecorded 2 (handlerXfer 8) 1 recordedUnit rfl rfl rfl (by unfold RisingKeys; decide)
  obtain ⟨t, ht, -, -, hend, -⟩ := hfault .align 0#64 0x100000 rfl rfl twiceRecorded_canRecord
  have hrun := does_putGetFault (x := 2) (s := twiceRecorded) rfl rfl .align 0#64
  have hended := hend twiceRecorded_unhandled
  rw [Host.Outcome.next.inj (ht.symm.trans hrun)] at hended
  obtain ⟨y, hy, hst⟩ := Option.map_eq_some_iff.1 putGetFault_queues
  have hst' := hended y hy
  rw [hst] at hst'
  cases hst'

end Sys2Proof.Machine
end

section
set_option Elab.async false
/-! A stash line filled (R201, R219): a list of line times with two entries of one line. -/

namespace Sys2Proof.Machine

/-! ### The counterexample -/

/-- The ranger core with row 0 bound to address 0, whose line's times are listed twice. -/
def twiceTimed : State :=
  { State.reset with
    cur := rangerId, core := { arch := { bound := [(0, 0#64)] } }
    hub := { State.reset.hub with ts := [(0, {}), (0, { wts := 5#64 })] } }

theorem twiceTimed_filled : ((NatMap.find 0 ((twiceTimed.fillStash rangerId 0 0).coreAt rangerId).pad.lines).map StashLine.wts) = some 5#64 := by
  decide +kernel

/-- Refutes O43: the read of a line at time 0 puts its times back to the reset value, which leaves the list, and a second entry of the list then
stands for it. -/
theorem not_loadActionResults : ¬ Obligations.LoadActionResults := by
  unfold Obligations.LoadActionResults
  intro h
  obtain ⟨-, hfill, -⟩ := h twiceTimed rangerId
  obtain ⟨t, l, ht, -, -, hl, -, -, -, hw, -⟩ := hfill 0 0 0#64 0 twiceTimed (by decide) rfl rfl rfl rfl
  have hrun : Does (.stashFill rangerId 0 0) twiceTimed (({ twiceTimed with act := some (.stashFill rangerId 0 0) } : State).fillStash rangerId 0 0) := rfl
  rw [Host.Outcome.next.inj (ht.symm.trans hrun)] at hl
  have hfive : (some l).map StashLine.wts = some 5#64 := hl ▸ twiceTimed_filled
  have hzero : (twiceTimed.tsAt (lineOf 0)).wts = 0#64 := rfl
  rw [Option.map_some, hw, hzero] at hfive
  cases hfive

end Sys2Proof.Machine
end

section
set_option Elab.async false
/-! One bundle issued (R32, R33, R49, R56, R126, R132). -/

namespace Sys2Proof.Machine

/-! ### Landing leaves the bundle alone -/

/-- The bundle at hand as it was: its words, its header and how far it has come. -/
def Core.sameBundle (x y : Core) : Prop := y.words = x.words ∧ y.header = x.header ∧ y.phase = x.phase

theorem sameBundle_landedDest (x : Core) (f : Flight) : x.sameBundle (landedDest x f) := by
  unfold landedDest
  split
  all_goals first | exact ⟨rfl, rfl, rfl⟩ | (split <;> exact ⟨rfl, rfl, rfl⟩)

theorem sameBundle_land (x : Core) (f : Flight) : x.sameBundle (x.land f) := by
  unfold Core.land
  dsimp only
  split <;> exact sameBundle_landedDest x f

theorem sameBundle_landAll (fs : List Flight) (x : Core) : x.sameBundle (x.landAll fs) := by
  induction fs generalizing x with
  | nil => exact ⟨rfl, rfl, rfl⟩
  | cons f fs ih =>
    obtain ⟨hw, hh, hp⟩ := ih (x.land f)
    obtain ⟨kw, kh, kp⟩ := sameBundle_land x f
    exact ⟨hw.trans kw, hh.trans kh, hp.trans kp⟩

/-- A bundle that begins to issue: its words and header stay, and it has begun (R34). -/
theorem enter_bundle (x : Core) : x.enter.words = x.words ∧ x.enter.header = x.header ∧ x.enter.phase = .begun := by
  have hadv : x.sameBundle x.advance :=
    sameBundle_landAll x.due { x with arch := if x.atCk then x.arch else x.arch.tick, flights := x.nearer.filter fun f => decide (f.left ≠ 0) }
  obtain ⟨hw, hh, -⟩ := hadv
  unfold Core.enter
  dsimp only
  split <;> split <;> exact ⟨hw, hh, rfl⟩

/-! ### The only slot of a bundle -/

theorem slotsOf_single {ws : List (BitVec 32)} {k : Nat} {i : Instr} (hlo : 0 < k) (hhi : k < 11)
    (honly : ∀ j, 0 < j → j < 11 → (j = k ↔ bword ws j ≠ 0#32)) (hdec : decodeSlot (slotClass k) (bword ws k) = .ok i) :
    slotsOf ws = [{ num := k, word := bword ws k, ins := some i }] := by
  have hmem : ∀ j, j ∈ upFrom 1 10 ↔ 0 < j ∧ j < 11 := fun j => by
    rw [upFrom_eq_range', List.mem_range'_1]; omega
  have heach : ∀ j ∈ upFrom 1 10, (if bword ws j = 0#32 then none
      else some ({ num := j, word := bword ws j, ins := (decodeSlot (slotClass j) (bword ws j)).toOption } : SlotI))
      = (Option.guard (fun j => decide (j = k)) j).map fun _ => ({ num := k, word := bword ws k, ins := some i } : SlotI) := by
    intro j hj
    obtain ⟨h0, h11⟩ := (hmem j).1 hj
    by_cases hk : j = k
    · subst hk
      rw [if_neg ((honly j h0 h11).1 rfl), hdec, Option.guard, if_pos (decide_eq_true rfl)]
      rfl
    · rw [if_pos (not_not.1 fun h => hk ((honly j h0 h11).2 h)), Option.guard, if_neg (by simpa using hk)]
      rfl
  unfold slotsOf
  rw [List.filterMap_congr heach, ← List.map_filterMap, List.filterMap_eq_filter, List.filter_eq,
    List.count_eq_one_of_mem (upFrom_nodup 1 10) ((hmem k).2 ⟨hlo, hhi⟩)]
  rfl

/-- Trying a bundle of one slot is trying that slot, whether its form waits or not. -/
theorem tryBundle_single (e : State) (y : SlotI) :
    e.tryBundle [y] = { trySlots { st := e, before := e } [y] with causes := byWord (trySlots { st := e, before := e } [y]).causes } := by
  unfold State.tryBundle
  cases h : waitForm y.ins <;> simp [h]

theorem byWord_nil : byWord [] = [] := rfl

theorem byWord_single {k : Nat} (hk : k < 12) (c : Cause) (a : Word) : byWord [(k, c, a)] = [(k, c, a)] := by
  unfold byWord
  interval_cases k <;> rfl

theorem overCap_self (e : State) : e.overCap e = false := by
  unfold State.overCap
  cases e.requestCap e.cur with
  | none => rfl
  | some k => simp

/-! ### From the step to the slots -/

/-- A legal bundle within its bounds that is neither a checkpoint nor a quiet point goes on to its slots. -/
theorem checkBundle_plain {e : State} (hlegal : illegalMarks e.core (decide (e.cur = rangerId)) e.core.words = 0#12)
    (hc : bitAt e.core.header 31 = false) (hq : bitAt e.core.header 30 = false) (htraps : e.core.trapsHere = false)
    (hck : e.core.sinceCk < e.core.ckBound) (hqs : e.core.arch.sinceQ < e.core.arch.qSpan) : e.checkBundle = e.issueSlots := by
  unfold State.checkBundle
  dsimp only
  rw [if_neg (not_not.2 hlegal), hc, hq, htraps, decide_eq_false (Nat.not_le.2 hck), decide_eq_false (Nat.not_le.2 hqs)]
  rfl

/-- The state of a bundle whose words are read. -/
def State.fetched (s : State) (ws : List (BitVec 32)) : State :=
  { s with
    time := s.time + 1, free := s.free + 1,
    core := { s.core with
      words := ws, header := bword ws 0, literal := bword ws 11, raised := none, want := [], popped := 0#8, pushed := 0#8, next := none,
      resumes := none, phase := .fresh } }

/-- A bundle before which nothing is in the way comes to its checks. -/
theorem beginBundle_clear {s : State} {ws : List (BitVec 32)} (hwords : s.fetchWords = some ws) (hgood : s.struck (upFrom s.bundleAddr 48) = none)
    (hargs : (s.core.unit.bind fun u => (s.unitAt u).bind Uni.argFault) = none) (hinside : s.core.arch.pc.toNat < s.core.code.count)
    (hq : bitAt (bword ws 0) 30 = false) (hfence : s.core.fence = none) (hinval : ∀ v ∈ s.hub.inval, v.core ≠ s.cur) (hflags : s.core.flagged = []) :
    ({ s with time := s.time + 1, free := s.free + 1 } : State).beginBundle = (s.entering ws).checkBundle := by
  have hin : ¬ s.core.code.count ≤ s.core.arch.pc.toNat := Nat.not_le.2 hinside
  have hwait : (s.hub.inval.any fun v => decide (v.core = s.cur)) = false := by simpa using hinval
  have harg : (s.core.unit.bind fun u => (s.unitAt u).bind fun y => y.argFault.map fun f => (u, f.1, f.2)) = none := by
    cases hu : s.core.unit with
    | none => rfl
    | some u =>
      cases hy : s.unitAt u with
      | none => simp [hy]
      | some y => simp_all
  unfold State.beginBundle
  rw [show State.fetchWords { s with time := s.time + 1, free := s.free + 1 } = some ws from hwords]
  dsimp only
  rw [show State.struck { s with time := s.time + 1, free := s.free + 1 } (upFrom (State.bundleAddr { s with time := s.time + 1, free := s.free + 1 }) 48)
    = none from hgood]
  dsimp only
  split
  · next heq => exact absurd (harg.symm.trans heq) nofun
  · have hquiet : ∀ b : Bool, ¬ (bitAt (bword ws 0) 30 && b) = true := fun b => by rw [hq, Bool.false_and]; exact Bool.false_ne_true
    refine (if_neg hin).trans ((if_neg (hquiet _)).trans ((if_neg (hquiet _)).trans ((if_neg (show ¬ s.core.fence.isSome = true from ?_)).trans
      ((if_neg (show ¬ (s.hub.inval.any fun v => decide (v.core = s.cur)) = true from ?_)).trans ?_))))
    · rw [hfence]
      exact Bool.false_ne_true
    · rw [hwait]
      exact Bool.false_ne_true
    · split
      · next heq => exact absurd (hflags.symm.trans heq) nofun
      · rfl

/-- A bundle that begins with nothing before it comes to its slots. -/
theorem step_begins {s : State} {ws : List (BitVec 32)} (h : s.Begins ws) : step s = (s.entering ws).issueSlots := by
  obtain ⟨hchosen, hphase, hwords, hgood, hargs, hinside, ⟨hc, hq, htraps⟩, ⟨hfence, hinval⟩, hflags, hlegal, hck, hqs⟩ := h
  obtain ⟨hw, hh, -⟩ := enter_bundle (s.fetched ws).core
  have hbegin := beginBundle_clear hwords hgood hargs hinside hq hfence hinval hflags
  have hcheck : (s.entering ws).checkBundle = (s.entering ws).issueSlots :=
    checkBundle_plain ((congrArg (illegalMarks _ _) hw).trans hlegal) ((congrArg (bitAt · 31) hh).trans hc) ((congrArg (bitAt · 30) hh).trans hq) htraps hck hqs
  unfold step
  rw [hchosen]
  dsimp only
  unfold State.actBy
  dsimp only
  rw [show State.focus { s with time := s.time + 1, free := s.free + 1 } s.cur = { s with time := s.time + 1, free := s.free + 1 } from
    focus_self { s with time := s.time + 1, free := s.free + 1 }]
  unfold State.issueBundle
  rw [show ({ s with time := s.time + 1, free := s.free + 1 } : State).core.phase = .fresh from hphase]
  exact hbegin.trans hcheck

/-- The only slot of a bundle is all that issues. -/
theorem slots_single {s : State} {ws : List (BitVec 32)} {y : SlotI} (hslots : slotsOf ws = [y]) (hactive : (s.entering ws).core.active y = true) :
    (s.entering ws).core.slots = [y] := by
  unfold Core.slots
  rw [show (s.entering ws).core.words = ws from (enter_bundle (s.fetched ws).core).1, hslots, List.filter_cons_of_pos hactive, List.filter_nil]

/-! ### The three ways of a slot -/

section
variable {e : State} {y : SlotI} (hslots : e.core.slots = [y])
include hslots

/-- A bundle whose only slot issues commits. -/
theorem issueSlots_did {t : State} (hphase : e.core.phase ≠ .stalled) (htry : e.trySlot y = .did t) (hcap : e.overCap t = false)
    (hres : t.core.resourceCause [y] e.withholds = none) (hsucc : t.core.successor.1.toNat < t.core.code.count)
    (hage : t.core.queue = [] ∨ (t.core.issuedN + 1) % 2 ^ (e.partAt t.core.part).age ≠ 0) :
    e.issueSlots = .next ((t.remapAll t.core.remap).withCore
      ((t.remapAll t.core.remap).core.finish e.core [y] t.core.successor.1 t.core.successor.2.1 t.core.successor.2.2)) := by
  have hr : trySlots { st := e, before := e } [y] = { st := t, before := t } := by simp only [trySlots, htry, Bool.false_eq_true, if_false]
  have hend : (t.core.queue.isEmpty || decide ((t.core.issuedN + 1) % 2 ^ (e.partAt t.core.part).age ≠ 0)) = true := by
    rcases hage with h | h
    · rw [h]; rfl
    · rw [decide_eq_true h, Bool.or_true]
  unfold State.issueSlots
  dsimp only
  rw [hslots, tryBundle_single, hr, byWord_nil]
  dsimp only
  rw [if_neg (fun h => hphase h.1), hcap]
  unfold State.settleBundle
  dsimp only [List.map_nil, List.find?_nil]
  rw [hres]
  dsimp only
  rw [decide_eq_false (Nat.not_le.2 hsucc), hend]
  rfl

/-- A bundle whose only slot waits stalls. -/
theorem issueSlots_waits {want : List Action} (htry : e.trySlot y = .waits want) : e.issueSlots = .next (e.stallOn want) := by
  have hr : trySlots { st := e, before := e } [y] = { st := e, before := e, waits := some want } := by
    simp only [trySlots, htry, Bool.false_eq_true, if_false, Option.getD_none, List.nil_append]
  unfold State.issueSlots
  dsimp only
  rw [hslots, tryBundle_single, hr]

/-- A bundle whose only slot has a cause traps with it, that slot marked. -/
theorem issueSlots_cause {c : Cause} {a : Word} (hnum : y.num < 12) (hphase : e.core.phase ≠ .stalled) (htry : e.trySlot y = .cause c a)
    (hlate : lateCause c = false) : e.issueSlots = .next (e.bundleTrap c a (BitVec.ofNat 12 (2 ^ y.num))) := by
  have hr : trySlots { st := e, before := e } [y] = { st := e, before := e, causes := [(y.num, c, a)] } := by
    simp only [trySlots, htry, Bool.false_eq_true, if_false, List.nil_append]
  have hmask : marks [y.num] = BitVec.ofNat 12 (2 ^ y.num) := BitVec.zero_or
  unfold State.issueSlots
  dsimp only
  rw [hslots, tryBundle_single, hr, byWord_single hnum]
  dsimp only
  rw [if_neg (fun h => hphase h.1), overCap_self]
  unfold State.settleBundle
  rw [List.map_singleton, hmask, List.find?_cons_of_pos (by rw [hlate]; rfl)]
  rfl

end

/-- Settles O54: a bundle that begins runs its only slot, and a device action whose turn it is is performed. -/
theorem stepRunsTheInstruction : Obligations.StepRunsTheInstruction := by
  unfold Obligations.StepRunsTheInstruction
  refine ⟨fun s ws k i t hbegins hhi hlo honly hdec hactive hexec => ?_, fun s n a t hchosen hdue hdoes => ?_⟩
  · have hslots := slots_single (slotsOf_single hlo hhi honly hdec) hactive
    have hphase : (s.entering ws).core.phase ≠ .stalled := by
      rw [show (s.entering ws).core.phase = .begun from (enter_bundle (s.fetched ws).core).2.2]
      decide
    have hstep := step_begins hbegins
    refine ⟨fun hp hcap hres hsucc hage => ?_, fun hp => ?_, fun c a hp hraised hlease hxl hlate => ?_⟩
    · exact hstep.trans (issueSlots_did hslots hphase (by unfold State.trySlot State.withCore; dsimp only; rw [hexec]; dsimp only; rw [hp]) hcap hres hsucc hage)
    · exact hstep.trans (issueSlots_waits hslots (by unfold State.trySlot State.withCore; dsimp only; rw [hexec]; dsimp only; rw [hp]))
    · refine hstep.trans (issueSlots_cause (y := { num := k, word := bword ws k, ins := some i }) hslots (by dsimp only; omega) hphase ?_ hlate)
      unfold State.trySlot State.withCore
      dsimp only
      rw [hexec]
      dsimp only
      rw [hp, hraised]
      exact if_neg (not_or.2 ⟨hlease, hxl⟩)
  · unfold step
    rw [hchosen]
    dsimp only
    unfold State.actBy
    dsimp only
    rw [hdue]
    unfold State.perform
    dsimp only
    rw [show exec a.instr _ = _ from hdoes]

end Sys2Proof.Machine
end

section
set_option Elab.async false
/-! Boot and the host's session (R448, R450, R454, R456, R457). -/

namespace Sys2Proof.Machine

/-! ### Responses -/

/-- The frame of a response is the last one sent. -/
theorem answered_respond {s u : State} (hsent : u.port.sent = s.port.sent) (f : Frame) (code : BitVec 16) (a0 a1 : Word) (bs : List Byte) :
    answered s (u.respond f code a0 a1 bs) f code a0 a1 bs :=
  ⟨_, [], congrArg (· ++ [_]) hsent, rfl, rfl, rfl, rfl, rfl, rfl⟩

/-- A response later than others leaves what was answered. -/
theorem answered.more {s t u : State} {f : Frame} {code : BitVec 16} {a0 a1 : Word} {bs : List Byte} (h : answered s t f code a0 a1 bs)
    (hu : ∃ rs, u.port.sent = t.port.sent ++ rs) : answered s u f code a0 a1 bs := by
  obtain ⟨r, rest, hsent, hr⟩ := h
  obtain ⟨rs, hrs⟩ := hu
  exact ⟨r, rest ++ rs, by rw [hrs, hsent, List.append_assoc, List.cons_append], hr⟩

/-! ### Weak writes -/

theorem weakTsAll_spec (ls : List Nat) (s : State) (top : Word) : ∃ x, (s.weakTsAll top ls).1 = { s with hub := { s.hub with ts := x } } := by
  induction ls generalizing s top with
  | nil => exact ⟨_, rfl⟩
  | cons l ls ih =>
    obtain ⟨x, hx⟩ := ih (s.setTs l (weakTs (s.tsAt l))) (wmax top (weakTs (s.tsAt l)).wts)
    exact ⟨x, hx⟩

/-- A weak write changes its bytes and the timestamps of their lines (R227). -/
theorem weakPoke_spec (s : State) (pa : Nat) (bs : List Byte) :
    ∃ x, s.weakPoke pa bs = { s with mem := cellsSet s.mem pa bs, hub := { s.hub with ts := x } } := by
  obtain ⟨x, hx⟩ := weakTsAll_spec (linesOf pa bs.length) s 0#64
  refine ⟨x, ?_⟩
  unfold State.weakPoke State.weakWrite
  dsimp only
  rw [hx]
  rfl

theorem placeSections_spec (xs : List Sect) (s : State) : ∃ m x, s.placeSections xs = { s with mem := m, hub := { s.hub with ts := x } } := by
  induction xs generalizing s with
  | nil => exact ⟨_, _, rfl⟩
  | cons e es ih =>
    obtain ⟨x, hx⟩ := weakPoke_spec s e.load e.data
    obtain ⟨m, y, hy⟩ := ih (s.weakPoke e.load e.data)
    refine ⟨m, y, (show _ = (s.weakPoke e.load e.data).placeSections es from rfl).trans (hy.trans ?_)⟩
    rw [hx]

/-- A byte among those at an address. -/
theorem getD_cellsAt (m : List Host.Cell) (a n k : Nat) (h : k < n) : (cellsAt m a n).getD k 0#8 = cellAt m (a + k) := by
  induction n generalizing a k with
  | zero => omega
  | succ n ih =>
    cases k with
    | zero => rfl
    | succ k =>
      rw [cellsAt, List.getD_cons_succ, ih (a + 1) k (by omega)]
      congr 1
      omega

/-- A run of bytes copied from another memory. -/
theorem cellAt_copied {m n : List Host.Cell} (h : cellsWf m = true) (dst src len a : Nat) :
    cellAt (cellsSet m dst (cellsAt n src len)) a = if dst ≤ a ∧ a < dst + len then cellAt n (src + (a - dst)) else cellAt m a := by
  rw [cellAt_cellsSet h, cellsAt_length]
  split
  · next hin => exact getD_cellsAt n src len (a - dst) (by omega)
  · rfl

/-! ### Boot -/

theorem recap_spec (s : State) : ∃ W xs, s.recap.1 = { s with power := W, due := xs } := by
  unfold State.recap
  dsimp only
  split
  · exact ⟨_, _, rfl⟩
  · exact ⟨_, _, rfl⟩

theorem floorsGood_congr {s t : State} (h : t.power = s.power) : t.floorsGood = s.floorsGood := by
  unfold State.floorsGood
  simp only [capRowsAt_congr h]

/-- The ranger core starts at bundle 0 (R454). -/
theorem startRanger_spec (s : State) (i : Image) :
    ((s.startRanger i).coreAt rangerId).arch.pc = 0#64 ∧ (s.startRanger i).port = s.port ∧ (s.startRanger i).hub = { s.hub with firmware := i } := by
  unfold State.startRanger
  dsimp only
  refine ⟨?_, State.setCore_port _ _ _, State.setCore_hub _ _ _⟩
  rw [State.coreAt_setCore_of_ne (fun h => absurd (show rangerDecl.spbytes = ({} : UnitDecl).spbytes from congrArg (fun x : Core => x.decl.spbytes) h) (by decide)), if_pos rfl]

/-- The state whose blob has been read. -/
def State.blobRead (s : State) : State := s.withPower { s.power with blob := s.port.blob, idleW := Config.blobIdleW s.port.blob }

/-- The state whose firmware has been placed and whose partition 0 is active. -/
def State.firmwarePlaced (s : State) : State := (s.blobRead.placeSections (parseImage s.port.flashFw).placed).setPart 0 bootPart

/-- The state whose ranger core has been started. -/
def State.rangerUp (s : State) : State := (s.firmwarePlaced.startRanger ((parseImage s.port.flashFw).firmware s.port.flashFw)).recap.1

/-- The state whose port is up. -/
def State.portUp (s : State) : State := { s with port := { s.port with boot := .running } }

/-- What makes firmware bootable. -/
def State.firmwareGood (s : State) : Prop :=
  let fw := parseImage s.port.flashFw
  fw.magic = 0x58445158 ∧ fw.fmtver = 1 ∧ fw.isareq ≤ 1 ∧ fw.signed = true ∧ fw.badSections = false ∧ goodSignature s.port.blob s.port.flashFw fw.sigOff = true

/-- What makes firmware unfit, as boot asks it. -/
def State.firmwareBad (s : State) : Prop :=
  let fw := parseImage s.port.flashFw
  fw.magic ≠ 0x58445158 ∨ fw.fmtver ≠ 1 ∨ 1 < fw.isareq ∨ ¬ fw.signed ∨ fw.badSections ∨ ¬ goodSignature s.port.blob s.port.flashFw fw.sigOff

theorem firmwareBad_iff (s : State) : s.firmwareBad ↔ ¬ s.firmwareGood := by
  unfold State.firmwareGood State.firmwareBad
  simp only [not_and_or, Nat.not_le, Bool.not_eq_true, Bool.not_eq_false, ne_eq]

/-- A blob that is not signed halts boot. -/
theorem bootUp_blob {s : State} (h : Config.blobSigned s.port.blob = false) : s.bootUp = s.haltBoot .blobSig := by
  unfold State.bootUp
  exact if_pos (by rw [h]; exact Bool.false_ne_true)

/-- Floors below the minima halt boot. -/
theorem bootUp_floor {s : State} (h : Config.blobSigned s.port.blob = true) (hf : s.blobRead.floorsGood = false) : s.bootUp = s.haltBoot .blobFloor := by
  unfold State.bootUp
  exact (if_neg (not_not.2 h)).trans (if_pos (show ¬ s.blobRead.floorsGood = true by rw [hf]; exact Bool.false_ne_true))

/-- Firmware that is not good halts boot. -/
theorem bootUp_firmware {s : State} (h : Config.blobSigned s.port.blob = true) (hf : s.blobRead.floorsGood = true) (hfw : ¬ s.firmwareGood) :
    s.bootUp = s.blobRead.haltBoot .bootSig := by
  unfold State.bootUp
  exact (if_neg (not_not.2 h)).trans ((if_neg (not_not.2 hf)).trans (if_pos ((firmwareBad_iff s).2 hfw)))

/-- Boot goes on where nothing is wrong. -/
theorem bootUp_eq {s : State} (h : Config.blobSigned s.port.blob = true) (hf : s.blobRead.floorsGood = true) (hfw : s.firmwareGood) :
    s.bootUp = s.rangerUp.portUp.addDue bootActions := by
  have hbad : ¬ s.firmwareBad := fun h => (firmwareBad_iff s).1 h hfw
  unfold State.bootUp
  refine (if_neg (not_not.2 h)).trans ((if_neg (not_not.2 hf)).trans ?_)
  refine (if_neg (show ¬ s.firmwareBad from hbad)).trans ?_
  unfold State.rangerUp State.firmwarePlaced State.blobRead
  rfl

/-- A boot with nothing wrong makes partition 0 active, starts the ranger core and opens the port (R454). -/
theorem bootUp_good {s : State} (h : Config.blobSigned s.port.blob = true) (hf : s.blobRead.floorsGood = true) (hfw : s.firmwareGood) :
    s.bootUp.port = { s.port with boot := .running } ∧ s.bootUp.partAt 0 = bootPart ∧ (s.bootUp.coreAt rangerId).arch.pc = 0#64 ∧
      ∀ a ∈ bootActions, a ∈ s.bootUp.due := by
  obtain ⟨m, x, hplace⟩ := placeSections_spec (parseImage s.port.flashFw).placed s.blobRead
  obtain ⟨hpc, hport, hhub⟩ := startRanger_spec s.firmwarePlaced ((parseImage s.port.flashFw).firmware s.port.flashFw)
  have hp2 : s.firmwarePlaced.port = s.port := by
    unfold State.firmwarePlaced
    rw [hplace]
    rfl
  have hpart : (s.firmwarePlaced.startRanger ((parseImage s.port.flashFw).firmware s.port.flashFw)).partAt 0 = bootPart := by
    show (s.firmwarePlaced.startRanger _).hub.parts[0] = bootPart
    rw [show (s.firmwarePlaced.startRanger _).hub.parts = s.firmwarePlaced.hub.parts from hhub ▸ rfl]
    exact Vector.getElem_set_self _
  rw [bootUp_eq h hf hfw]
  unfold State.rangerUp
  generalize s.firmwarePlaced.startRanger ((parseImage s.port.flashFw).firmware s.port.flashFw) = u at hpc hport hpart
  obtain ⟨W, xs, hrecap⟩ := recap_spec u
  rw [hrecap]
  exact ⟨congrArg (fun p : HostPort => { p with boot := .running }) (hport.trans hp2), hpart, hpc, fun a ha => mem_due_addDue ha⟩

/-! ### Sessions -/

/-- Events streamed are sent after what was sent before (R450). -/
theorem streamEvents_spec (s : State) : ∃ es rs, s.streamEvents = { s with port := { s.port with events := es, sent := s.port.sent ++ rs } } := by
  have hid : s = { s with port := { s.port with events := s.port.events, sent := s.port.sent ++ [] } } := by rw [List.append_nil]
  unfold State.streamEvents
  split
  · split
    · exact ⟨_, _, rfl⟩
    · exact ⟨_, _, hid⟩
  · exact ⟨_, _, hid⟩

/-! ### Images -/

/-- A change of the fabric and of what is due. -/
def FabricDue (s t : State) : Prop := ∃ F xs, t = { s with fabric := F, due := xs }

theorem endPromoted_fold (ps : List Promoted) (s : State) :
    FabricDue s (ps.foldl (fun s p => (s.dropSlots p.path).markFlow p.flow p.part true) s) := by
  induction ps generalizing s with
  | nil => exact ⟨_, _, rfl⟩
  | cons p ps ih =>
    obtain ⟨F, xs, h⟩ := ih ((s.dropSlots p.path).markFlow p.flow p.part true)
    exact ⟨F, xs, h⟩

theorem fabricDue_endPromoted (s : State) (f : Promoted → Bool) : FabricDue s (s.endPromoted f) := by
  obtain ⟨F, xs, h⟩ := endPromoted_fold (s.fabric.promoted.filter f) s
  unfold State.endPromoted
  dsimp only
  rw [h]
  exact ⟨_, _, rfl⟩

/-- An image kept for a partition changes the fabric's slots and the images alone. -/
theorem reserveStatic_spec (s : State) (p : Nat) (i : Image) :
    ∃ F xs, s.reserveStatic p i = { s with fabric := F, due := xs, hub := { s.hub with images := NatMap.put p i s.hub.images } } := by
  unfold State.reserveStatic
  dsimp only
  obtain ⟨F, xs, h⟩ := fabricDue_endPromoted
    ((s.withHub { s.hub with images := NatMap.put p i s.hub.images }).dropSlots (((s.imageOf p).map Image.slots).getD []))
    fun q => decide (q.part = p) && q.path.any fun k => (i.slots.map (·.1)).contains k.1
  rw [h]
  exact ⟨_, _, rfl⟩

/-- An image installed is the image of its partition, and ranger firmware waits for the next boot (R456, R457). -/
theorem installImage_spec (s : State) (p : Nat) (bs : List Byte) (i : Parsed) :
    sameRegs s (s.installImage p bs i) ∧ (s.installImage p bs i).imageOf p = some (i.image bs) ∧ (s.installImage p bs i).port.sent = s.port.sent ∧
      (s.installImage p bs i).port.nextFw = if i.signed then some (i.firmware bs) else s.port.nextFw := by
  obtain ⟨m, x, hplace⟩ := placeSections_spec i.placed s
  unfold State.installImage
  dsimp only
  rw [hplace]
  obtain ⟨F, xs, h⟩ := reserveStatic_spec { s with mem := m, hub := { s.hub with ts := x } } p (i.image bs)
  rw [h]
  split
  · exact ⟨⟨rfl, rfl, rfl⟩, NatMap.find_put_self _ _ _, rfl, rfl⟩
  · exact ⟨⟨rfl, rfl, rfl⟩, NatMap.find_put_self _ _ _, rfl, rfl⟩

/-- Bulk data is moved where the session agreed on it and the range is in memory (R448). -/
theorem does_bulk {s : State} {v : BitVec 16} {fs : BitVec 32} {dev len : Nat} (hsess : s.port.session = some (v, fs)) (hbit : fs.getLsbD 0 = true)
    (htop : dev + len ≤ memTop) (toDevice : Bool) (host : Nat) :
    let s1 : State := { s with act := some (.rocev2BulkData toDevice dev host len) }
    Does (.rocev2BulkData toDevice dev host len) s
      (if toDevice then s1.weakPoke dev (cellsAt s.port.mem host len)
       else { s1 with port := { s.port with mem := cellsSet s.port.mem host (cellsAt s.mem dev len) } }) := by
  dsimp only
  show execRocev2BulkData { s with act := some (.rocev2BulkData toDevice dev host len) } = .next _
  unfold execRocev2BulkData
  dsimp only
  rw [hsess]
  dsimp only
  rw [if_neg (not_or.2 ⟨not_not.2 hbit, Nat.not_lt.2 htop⟩)]
  cases toDevice <;> rfl

/-- LOAD of a good image installs it and answers 0 (R456). -/
theorem load_done {s : State} {f : Frame}
    (hk : s.checkImage (f.payload.getD 0 0#8).toNat (cellsAt s.port.mem f.arg0.toNat f.arg1.toNat)
      (parseImage (cellsAt s.port.mem f.arg0.toNat f.arg1.toNat)) = .done) :
    s.load f = (s.installImage (f.payload.getD 0 0#8).toNat (cellsAt s.port.mem f.arg0.toNat f.arg1.toNat)
      (parseImage (cellsAt s.port.mem f.arg0.toNat f.arg1.toNat))).answerFrame f .done := by
  unfold State.load
  dsimp only
  rw [if_pos hk]

/-- Settles O50: each action of a session is the function of its frame that the rules name, and its response is the last frame sent. -/
theorem hostSessionActionResults : Obligations.HostSessionActionResults := by
  unfold Obligations.HostSessionActionResults
  intro s f
  refine ⟨fun hoff => ?_, ⟨fun h => ?_, fun h hw => ?_, fun h hw => ?_⟩, ?_, fun h => ?_, fun v fs dev host len hsess hbit htop hm hp => ⟨?_, ?_⟩, ⟨fun hk => ?_, fun hk => ?_⟩, ?_⟩
  · let s1 : State := { s with act := some .boot }
    have hrun : Does .boot s s1.bootUp := congrArg Host.Outcome.next (if_pos hoff)
    have hfloors : s1.blobRead.floorsGood = s.blobRead.floorsGood := floorsGood_congr rfl
    refine ⟨fun hb => ?_, fun hb hf => ?_, fun hb hf => ⟨fun hg => ?_, fun hg => ?_⟩⟩
    · rw [bootUp_blob (s := s1) hb] at hrun
      exact ⟨_, hrun, calm_refl s, rfl⟩
    · rw [bootUp_floor (s := s1) hb (hfloors.trans hf)] at hrun
      exact ⟨_, hrun, calm_refl s, rfl⟩
    · rw [bootUp_firmware (s := s1) hb (hfloors.trans hf) hg] at hrun
      exact ⟨_, hrun, calm_refl s, rfl⟩
    · obtain ⟨hport, hpart, hpc, hdue⟩ := bootUp_good (s := s1) hb (hfloors.trans hf) hg
      refine ⟨_, hrun, hport, hpart, hpc, fun a ha => hdue a ?_⟩
      exact List.mem_of_mem_take (show a ∈ bootActions.take 3 from ha)
  · refine ⟨({ s with act := some (.hostHello f) } : State).answerFrame f .sessionBusy, ?_, calm_refl s, rfl, answered_respond rfl ..⟩
    exact congrArg Host.Outcome.next (if_pos (Option.isSome_iff_ne_none.2 h))
  · refine ⟨({ s with act := some (.hostHello f) } : State).answerFrame f .version, ?_, calm_refl s, h, answered_respond rfl ..⟩
    exact congrArg Host.Outcome.next ((if_neg (by rw [show State.port { s with act := _ } = s.port from rfl, h]; exact Bool.false_ne_true)).trans (if_pos hw))
  · let fs : BitVec 32 := BitVec.ofNat 32 (fld f.arg0 32 32) &&& offered
    let s1 : State := { s with act := some (.hostHello f), port := { s.port with session := some (1#16, fs), heard := s.time } }
    let s2 : State := s1.respond f 0#16 (BitVec.ofNat 64 (1 + fs.toNat * 2 ^ 32))
    have hrun : Does (.hostHello f) s (s2.streamEvents.addDue [.sessionTimeout]) :=
      congrArg Host.Outcome.next ((if_neg (by rw [show State.port { s with act := _ } = s.port from rfl, h]; exact Bool.false_ne_true)).trans (if_neg hw))
    have hans : answered s s2 f 0#16 (BitVec.ofNat 64 (1 + fs.toNat * 2 ^ 32)) 0#64 [] := answered_respond rfl ..
    obtain ⟨es, rs, hstream⟩ := streamEvents_spec s2
    rw [hstream] at hrun
    exact ⟨_, hrun, calm_refl s, rfl, mem_due_addDue (List.mem_singleton_self _), hans.more ⟨rs, rfl⟩⟩
  · exact ⟨_, rfl, calm_refl s, rfl, rfl, answered_respond (s := s) (u := { s with act := _ }) rfl ..⟩
  · let s1 : State := { s with act := some .sessionTimeout }
    have hopen : ¬ s1.port.session.isNone = true := by rw [Option.isNone_iff_eq_none]; exact h
    by_cases hlate : s.port.heard + 3000000000 ≤ s.time
    · have hrun : Does .sessionTimeout s s1.endSession := congrArg Host.Outcome.next ((if_neg hopen).trans (if_pos hlate))
      refine ⟨_, hrun, calm_refl s, rfl, ?_⟩
      rw [if_pos hlate]
      rfl
    · have hrun : Does .sessionTimeout s (s1.addDue [.sessionTimeout]) := congrArg Host.Outcome.next ((if_neg hopen).trans (if_neg hlate))
      refine ⟨_, hrun, calm_refl s, rfl, ?_⟩
      rw [if_neg hlate]
      exact ⟨rfl, mem_due_addDue (List.mem_singleton_self _)⟩
  · let s1 : State := { s with act := some (.rocev2BulkData true dev host len) }
    have hrun : Does (.rocev2BulkData true dev host len) s (s1.weakPoke dev (cellsAt s.port.mem host len)) := does_bulk hsess hbit htop true host
    obtain ⟨x, hx⟩ := weakPoke_spec s1 dev (cellsAt s.port.mem host len)
    rw [hx] at hrun
    exact ⟨_, hrun, ⟨rfl, rfl, rfl⟩, rfl, fun a => cellAt_copied hm dev host len a⟩
  · exact ⟨_, does_bulk hsess hbit htop false host, calm_refl s, rfl, fun a => cellAt_copied hp host dev len a⟩
  · exact ⟨_, congrArg Host.Outcome.next (if_neg hk), calm_refl s, rfl, answered_respond rfl ..⟩
  · let s1 : State := { s with act := some (.hostLoad f) }
    obtain ⟨hregs, himage, hsent, hnext⟩ := installImage_spec s1 (f.payload.getD 0 0#8).toNat (cellsAt s.port.mem f.arg0.toNat f.arg1.toNat)
      (parseImage (cellsAt s.port.mem f.arg0.toNat f.arg1.toNat))
    have hk1 : s1.checkImage (f.payload.getD 0 0#8).toNat (cellsAt s.port.mem f.arg0.toNat f.arg1.toNat)
      (parseImage (cellsAt s.port.mem f.arg0.toNat f.arg1.toNat)) = .done := hk
    have hrun : Does (.hostLoad f) s _ := congrArg Host.Outcome.next (load_done hk1)
    generalize s1.installImage (f.payload.getD 0 0#8).toNat (cellsAt s1.port.mem f.arg0.toNat f.arg1.toNat)
      (parseImage (cellsAt s1.port.mem f.arg0.toNat f.arg1.toNat)) = u at hrun hregs himage hsent hnext
    exact ⟨_, hrun, hregs, himage, answered_respond hsent .., hnext⟩
  · exact ⟨_, rfl, rfl, rfl, answered_respond (s := s) (u := { s with act := _ }) rfl .., rfl, rfl, rfl, rfl, rfl, rfl, rfl, rfl, rfl, rfl, rfl⟩

end Sys2Proof.Machine
end

section
set_option Elab.async false
/-! The commands of a session (R314, R348, R350, R389, R390, R394, R407, R447, R453, R458, R475, R477). -/

namespace Sys2Proof.Machine

/-! ### Jobs and launches -/

/-- A split of a job's owner token that needs no borrow changes that record alone, and the id to be taken stays free (R475). -/
theorem splitJob {s : State} {j n : Nat} {own : Hold} (hst : (s.accAt j).st = .opn) (howner : (s.accAt j).owner = some own) (hexp : own.exp ≠ 127#7)
    {p : Nat} (hn : s.freeId p = some n) :
    ∃ A xs, let u : State := { s with hub := { s.hub with accounts := A }, due := xs }
      s.splitOwner j = (.ok own.split.2, u) ∧ u.freeId p = some n ∧ u.accAt n = s.accAt n ∧ (u.accAt j).owner = some own.split.1 ∧ j ≠ n := by
  obtain ⟨xs, hsplit⟩ := splitOwner_ok howner hexp
  let a : Account := { s.accAt j with owner := some own.split.1 }
  have ha : a ≠ {} := fun e => nomatch congrArg Account.owner e
  have hread (k : Nat) : (s.setAcc j a).accAt k = if k = j then a else s.accAt k := State.accAt_setAcc_of_ne ha s j k
  have hne : j ≠ n := fun e => by
    have hfree := free_of_freeId hn
    rw [← e, hst] at hfree
    cases hfree
  have hsts (k : Nat) : ((s.setAcc j a).accAt k).st = (s.accAt k).st := by
    rw [hread]
    split
    · next e => rw [e]
    · rfl
  have hfree : (s.setAcc j a).freeId p = s.freeId p := by
    unfold State.freeId
    rw [show (s.setAcc j a).partAt p = s.partAt p from rfl]
    simp only [hsts]
  exact ⟨_, _, hsplit, hfree.trans hn, (hread n).trans (if_neg (Ne.symm hne)), congrArg Account.owner ((hread j).trans (if_pos rfl)), hne⟩

theorem mem_placers {n k : Nat} (hk : k < 8) : Action.unitPlace n k ∈ placers n :=
  List.mem_map_of_mem (l := upFrom 0 8) (mem_upFrom_zero.2 hk)

/-- Whether a launch has capacity depends on the rows that stand and the descriptor of its partition alone (R291). -/
theorem hasCapacity_congr {s t : State} (hpower : t.power = s.power) {p : Nat} (hpart : t.partAt p = s.partAt p) (place pin rows : Nat) :
    t.hasCapacity p place pin rows = s.hasCapacity p place pin rows := by
  unfold State.hasCapacity State.eligible
  simp only [admitRows_congr hpower, hpart]

/-- A launch with capacity and an account to take becomes that account, and its units are to be placed (R269, R291). -/
theorem makeLaunch_placed {s : State} {p n : Nat} {r : Block} (hok : s.descRefused p r false = none) (hn : s.freeId p = some n)
    (hroom : s.hasCapacity p (descPlace r) (descPin r) ((s.unitTable p).getD (descUnit r) {}).rows = true) (tok : Tok) (pts : Word) :
    ∃ t, s.makeLaunch p tok [] pts r = (.ok (accHandle n (s.accAt n)), t) ∧ HubDue s t ∧ accountMade t n .launch tok ∧
      (∀ k < 8, Action.unitPlace n k ∈ t.due) ∧ ∀ j, j ≠ n → t.accAt j = s.accAt j := by
  have hrz : DueOnly s (if descRz r then s.event .engineRz 5 0 (some p) else s) := .ite ⟨_, rfl⟩ (dueOnly_refl s)
  unfold State.makeLaunch
  dsimp only
  generalize (if descRz r = true then s.event .engineRz 5 0 (some p) else s) = u at hrz ⊢
  obtain ⟨xs, rfl⟩ := hrz
  have hdesc : (s.addDue xs).descRefused p r false = none := hok
  have hid : (s.addDue xs).freeId p = some n := hn
  have hcap : (s.addDue xs).hasCapacity p ((s.addDue xs).launchInfo p r pts).place ((s.addDue xs).launchInfo p r pts).pin
      ((s.addDue xs).launchRows p ((s.addDue xs).launchInfo p r pts)) = true := by
    have hc := hasCapacity_congr (s := s) (t := s.addDue xs) rfl (p := p) rfl (descPlace r) (descPin r) ((s.unitTable p).getD (descUnit r) {}).rows
    exact hc.trans hroom
  have hpreds : (s.addDue xs).predsOf [] = ([], false, false) := rfl
  rw [hdesc, hpreds]
  dsimp only
  rw [hcap]
  generalize hnew : (s.addDue xs).newAcc _ _ _ _ = x
  unfold State.newAcc at hnew
  rw [hid] at hnew
  subst hnew
  dsimp only [Option.map_some]
  have hread : ((s.addDue xs).setAcc n (newLaunchAcc s p n tok r pts)).accAt n = newLaunchAcc s p n tok r pts := accAt_newLaunch ..
  refine ⟨((s.addDue xs).setAcc n (newLaunchAcc s p n tok r pts)).addDue (placers n),
    (if_neg Bool.false_ne_true).trans ((if_neg AccSt.noConfusion).trans ((if_pos rfl).trans (Prod.ext (congrArg Except.ok (accHandle_congr n ?_)) rfl))),
    ⟨_, _, rfl⟩, ?_, fun k hk => mem_due_addDue (mem_placers hk), fun j hj => State.accAt_setAcc_other hj _ _⟩
  · exact (congrArg Account.gen hread).trans rfl
  · unfold accountMade
    rw [State.accAt_addDue, hread]
    exact ⟨rfl, rfl, rfl, rfl, rfl, rfl, rfl⟩

/-- The job that a command names is open (R475). -/
theorem opn_of_jobNamed {s : State} {f : Frame} {j : Nat} (h : s.jobNamed f = some j) : (s.accAt j).st = .opn := by
  unfold State.jobNamed at h
  dsimp only at h
  split at h
  · next hc =>
    obtain ⟨-, -, hst, -⟩ := hc
    cases h
    exact hst
  · cases h

/-- The account of a start vector's launch (R458). -/
def startAcc (s : State) (p n : Nat) (i : Image) (evac : Word) (tok : Tok) : Account :=
  { st := .opn
    launch := some { startLaunch i evac (startSlot i) (s.coreAt rangerId).pts with quads := (s.partAt p).quadList }
    out := 2 ^ 127, level := .launch, part := p, gen := (s.accAt n).gen, parentV := true, pexp := tok.exp, parent := tok.acct, parentPkg := tok.pkg }

/-- A start vector that passes its checks becomes one launch under its job (R458). -/
theorem start_ok {s : State} {f : Frame} {j n : Nat} {own : Hold} {i : Image} (hjob : s.jobNamed f = some j) (howner : (s.accAt j).owner = some own)
    (hexp : own.exp ≠ 127#7) (hn : s.freeId (s.accAt j).part = some n) (himage : s.imageOf (s.accAt j).part = some i)
    (hgood : s.startsGood (s.accAt j).part i f.arg1 (startSlot i) = true) :
    ∃ u, s.start f = u.respond f 0#16 ((accHandle n (s.accAt n)).setWidth 64) ∧ HubDue s u ∧ accountMade u n .launch own.split.2 ∧
      (∀ k < 8, Action.unitPlace n k ∈ u.due) ∧
      (u.accAt n).launch = some { startLaunch i f.arg1 (startSlot i) (s.coreAt rangerId).pts with quads := (s.partAt (s.accAt j).part).quadList } ∧
      (u.accAt j).owner = some own.split.1 := by
  obtain ⟨A, xs, hsplit, hfree, hsame, hown, hne⟩ := splitJob (opn_of_jobNamed hjob) howner hexp hn
  unfold State.start
  rw [hjob]
  dsimp only
  rw [himage]
  dsimp only
  have hsome : ¬ (some n : Option Nat).isNone = true := Bool.false_ne_true
  rw [if_neg (not_not.2 hgood), hn, if_neg hsome, hsplit]
  dsimp only
  let u : State := { s with hub := { s.hub with accounts := A }, due := xs }
  let b : Account := startAcc s (s.accAt j).part n i f.arg1 own.split.2
  have hread : (u.setAcc n b).accAt n = b := accAt_of_out rfl
  have hnew : u.newAcc (s.accAt j).part .launch (some (own.split.2.acct, own.split.2.pkg, own.split.2.exp))
      { st := .opn
        launch := some { startLaunch i f.arg1 (startSlot i) (s.coreAt rangerId).pts with quads := (s.partAt (s.accAt j).part).quadList } }
      = some (n, u.setAcc n b) := by
    unfold State.newAcc
    rw [hfree, Option.map_some, hsame]
    rfl
  rw [hnew]
  dsimp only
  rw [hread]
  refine ⟨((u.setAcc n b).withHub { (u.setAcc n b).hub with job := some (accHandle j ((u.setAcc n b).accAt j)) }).addDue (placers n), ?_, ⟨_, _, rfl⟩, ?_,
    fun k hk => mem_due_addDue (mem_placers hk), congrArg Account.launch hread, ?_⟩
  · exact congrArg (fun h : Handle => State.respond _ f 0#16 (h.setWidth 64)) (accHandle_congr n rfl)
  · show accountMade (u.setAcc n b) n .launch own.split.2
    unfold accountMade
    rw [hread]
    exact ⟨rfl, rfl, rfl, rfl, rfl, rfl, rfl⟩
  · exact (congrArg Account.owner (State.accAt_setAcc_other hne u b)).trans hown

/-- A launch from a physical descriptor under its job (R453, R477). -/
theorem launch_ok {s : State} {f : Frame} {j n : Nat} {own : Hold} (hjob : s.jobNamed f = some j) (howner : (s.accAt j).owner = some own)
    (hexp : own.exp ≠ 127#7) (hn : s.freeId (s.accAt j).part = some n) {r : Block} (hr : r = BitVec.ofNat 512 (s.readNat f.arg1.toNat 64))
    (htop : f.arg1.toNat + 64 ≤ memTop) (hwin : s.inWindows (s.accAt j).part f.arg1.toNat 64 = true) (himage : (s.imageOf (s.accAt j).part).isSome = true)
    (hok : s.descRefused (s.accAt j).part r false = none)
    (hroom : s.hasCapacity (s.accAt j).part (descPlace r) (descPin r) ((s.unitTable (s.accAt j).part).getD (descUnit r) {}).rows = true) :
    ∃ u, s.launch f = u.respond f 0#16 (spawnEntry (.ok (accHandle n (s.accAt n)))) ∧ HubDue s u ∧ accountMade u n .launch own.split.2 ∧
      (∀ k < 8, Action.unitPlace n k ∈ u.due) ∧ (u.accAt j).owner = some own.split.1 := by
  obtain ⟨A, xs, hsplit, hfree, hsame, hown, hne⟩ := splitJob (opn_of_jobNamed hjob) howner hexp hn
  let u : State := { s with hub := { s.hub with accounts := A }, due := xs }
  let v : State := u.withHub { u.hub with job := some (accHandle j (u.accAt j)) }
  have hc := hasCapacity_congr (s := s) (t := v) rfl (p := (s.accAt j).part) rfl (descPlace r) (descPin r)
    ((s.unitTable (s.accAt j).part).getD (descUnit r) {}).rows
  obtain ⟨t, hmake, hdue, hmade, hplace, hother⟩ := makeLaunch_placed (s := v) hok hfree (hc.trans hroom) own.split.2 (s.coreAt rangerId).pts
  have hread : v.makeLaunch (s.accAt j).part own.split.2 [] (s.coreAt rangerId).pts (BitVec.ofNat 512 (v.readNat f.arg1.toNat 64))
      = (.ok (accHandle n (v.accAt n)), t) := by
    rw [show BitVec.ofNat 512 (v.readNat f.arg1.toNat 64) = r from hr.symm]
    exact hmake
  have hbad : ¬ (memTop < f.arg1.toNat + 64 ∨ ¬ s.inWindows (s.accAt j).part f.arg1.toNat 64 = true) := not_or.2 ⟨Nat.not_lt.2 htop, not_not.2 hwin⟩
  have hnone : ¬ (s.imageOf (s.accAt j).part).isNone = true := by
    rw [Option.isNone_iff_eq_none]
    exact Option.isSome_iff_ne_none.1 himage
  refine ⟨t, ?_, ?_, hmade, hplace, (congrArg Account.owner (hother j hne)).trans hown⟩
  · unfold State.launch
    rw [hjob]
    dsimp only
    rw [if_neg hbad, if_neg hnone, hsplit]
    dsimp only
    exact (congrArg (fun x : Except Cause Handle × State => x.2.respond f 0#16 (spawnEntry x.1)) hread).trans
      (congrArg (fun a : Account => State.respond t f 0#16 (spawnEntry (.ok (accHandle n a)))) hsame)
  · obtain ⟨h, ys, rfl⟩ := hdue
    exact ⟨_, _, rfl⟩

/-! ### The operations of JOB -/

/-- CANCEL changes records of accounts, triggers, packets and what is due (R282). -/
theorem cancelAcc_only (s : State) (i : Nat) : ∃ T A O F D,
    s.cancelAcc i = { s with core := { s.core with trigs := T }, hub := { s.hub with accounts := A }, others := O, fabric := F, due := D } := by
  by_cases h : (s.accAt i).st = .done
  · exact ⟨_, _, _, _, _, if_pos h⟩
  · obtain ⟨⟨A, D, hall⟩, -, -⟩ := cancelAll_spec s (i :: s.descendants i)
    have hdue (t : State) (xs : List Action) : TrigsOnly t (t.addDue xs) := ⟨_, _, _, _, rfl⟩
    have honly : TrigsOnly (s.cancelAll (i :: s.descendants i)) (s.cancelAcc i) := by
      rw [show s.cancelAcc i = _ from if_neg h]
      unfold State.cancelList
      exact ((hdue _ _).trans (.each (fun s c => trigsOnly_dropTriggers s _ c) _)).trans (.each (fun s j => trigsOnly_noticeAll s _ _) _)
    obtain ⟨T, O, F, D', e⟩ := honly
    exact ⟨T, A, O, F, D', by rw [e, hall]⟩

/-- CANCEL leaves registers, memory and the port (R282). -/
theorem calm_cancelAcc (s : State) (i : Nat) : calm s (s.cancelAcc i) ∧ (s.cancelAcc i).port = s.port := by
  obtain ⟨_, _, _, _, _, e⟩ := cancelAcc_only s i
  rw [e]
  exact ⟨⟨rfl, rfl, rfl, rfl⟩, rfl⟩

theorem HubDue.port {s t : State} (h : HubDue s t) : t.port = s.port := by obtain ⟨_, _, rfl⟩ := h; rfl

theorem hubDue_freeAll (is : List Nat) (s : State) : HubDue s (s.freeAll is) := by
  induction is generalizing s with
  | nil => exact ⟨_, _, rfl⟩
  | cons i is ih =>
    obtain ⟨h, xs, e⟩ := ih (s.freeAcc i)
    exact ⟨h, xs, e⟩

theorem hubDue_returnOwner (s : State) (i : Nat) : HubDue s (s.returnOwner i) := by
  unfold State.returnOwner
  dsimp only
  split
  · exact ⟨_, _, rfl⟩
  · exact ⟨_, _, rfl⟩

/-- An operation on a job leaves registers, memory and the port (R407). -/
theorem calm_jobOp (s : State) (op : Nat) (h : Handle) (amount : Word) : calm s (s.jobOp op h amount).2 ∧ (s.jobOp op h amount).2.port = s.port := by
  have same : calm s s ∧ s.port = s.port := ⟨calm_refl s, rfl⟩
  have hub {t : State} (k : HubDue s t) : calm s t ∧ t.port = s.port := ⟨k.calm, k.port⟩
  unfold State.jobOp
  dsimp only
  split
  · split
    · exact same
    · split
      · exact same
      · next i s1 hnew =>
        unfold State.newAcc at hnew
        obtain ⟨n, -, e⟩ := Option.map_eq_some_iff.1 hnew
        cases e
        exact hub ⟨_, _, rfl⟩
  · split
    · exact same
    · split
      · exact same
      · split
        · exact hub ⟨_, _, rfl⟩
        · split
          · obtain ⟨k, xs, e⟩ := hubDue_freeAll (s.descendants (accId h)) s
            refine hub ?_
            rw [e]
            exact ⟨_, _, rfl⟩
          · obtain ⟨k, xs, e⟩ := hubDue_returnOwner (s.setAcc (accId h) { s.accAt (accId h) with released := true }) (accId h)
            refine hub ?_
            rw [e]
            exact ⟨_, _, rfl⟩
        · exact calm_cancelAcc s (accId h)

/-- JOB answers with what the operation gives, and leaves the accounts as the operation does (R407, R453). -/
theorem job_spec (s : State) (f : Frame) (op : Nat) {a : Action} {h : Handle} {amount v : Word} {u : State}
    (hh : h = BitVec.ofNat 32 (ofBytes (padTo 0#8 64 f.payload))) (hamount : amount = BitVec.ofNat 64 (bits (ofBytes (padTo 0#8 64 f.payload)) 64 64))
    (hdoes : Does a s (State.job { s with act := some a } op f)) (hop : State.jobOp { s with act := some a } op h amount = (v, u)) :
    ∃ t, Does a s t ∧ calm s t ∧ answered s t f 0#16 v 0#64 [] ∧ ∀ i, t.accAt i = u.accAt i := by
  subst hh hamount
  obtain ⟨hcalm, hport⟩ := calm_jobOp { s with act := some a } op (BitVec.ofNat 32 (ofBytes (padTo 0#8 64 f.payload)))
    (BitVec.ofNat 64 (bits (ofBytes (padTo 0#8 64 f.payload)) 64 64))
  have hjob : State.job { s with act := some a } op f = u.respond f 0#16 v := by
    unfold State.job
    dsimp only
    rw [hop]
  rw [hop] at hcalm hport
  rw [hjob] at hdoes
  exact ⟨_, hdoes, hcalm, answered_respond (congrArg HostPort.sent hport) .., fun i => rfl⟩

/-! ### Partitions -/

theorem activeParts_congr {s t : State} (h : t.hub.parts = s.hub.parts) : t.activeParts = s.activeParts := by
  unfold State.activeParts State.partAt
  rw [h]

/-- A descriptor installed is the descriptor of its partition (R348). -/
theorem installPart_spec (s : State) {p : Nat} (hp : p < 8) (d : PartDesc) :
    (∃ H W xs, s.installPart p d = { s with hub := { s.hub with parts := H }, power := W, due := xs }) ∧ (s.installPart p d).partAt p = d := by
  have hset : s.setPart p d = s.withHub { s.hub with parts := s.hub.parts.set p d } := dif_pos hp
  have hread : (s.withHub { s.hub with parts := s.hub.parts.set p d }).partAt p = d := by
    unfold State.partAt
    rw [dif_pos hp]
    exact Vector.getElem_set_self hp
  unfold State.installPart
  dsimp only
  rw [hset]
  split
  · obtain ⟨W, xs, e⟩ := recap_spec ((s.withHub { s.hub with parts := s.hub.parts.set p d }).withPower
      { s.power with energy := NatMap.del p s.power.energy, carryNj := NatMap.del p s.power.carryNj })
    exact ⟨⟨_, W, xs, e⟩, (congrArg (State.partAt · p) e).trans hread⟩
  · obtain ⟨W, xs, e⟩ := recap_spec (s.withHub { s.hub with parts := s.hub.parts.set p d })
    exact ⟨⟨_, W, xs, e⟩, (congrArg (State.partAt · p) e).trans hread⟩

/-- What PART does: it refuses a descriptor, puts it in force, or starts to drain the partition (R348, R350, R390). -/
theorem writePart_spec (s : State) (p : Nat) (d : PartDesc) :
    calm s (s.writePart p d) ∧ (s.writePart p d).port = s.port ∧
      if s.partBad p d then (s.writePart p d).hub = s.hub ∧ ∃ e, Action.eventRecordArrive e ∈ (s.writePart p d).due ∧ e.code = .partInvalid
      else if d.st ≠ 2#2 ∧ (s.partAt p).givesUp d = false then (s.writePart p d).partAt p = d
      else ((s.writePart p d).partAt p).st = 2#2 ∧ Action.drainComplete p ∈ (s.writePart p d).due ∧
        (p, if d.st = 2#2 then { d with st := 0#2 } else d) ∈ (s.writePart p d).hub.grants := by
  by_cases hbad : s.partBad p d = true
  · rw [if_pos hbad, show s.writePart p d = _ from if_pos hbad]
    exact ⟨calm_refl s, rfl, rfl, _, mem_due_addDue (List.mem_singleton_self _), rfl⟩
  · have hp : p < 8 := by
      unfold State.partBad at hbad
      simp only [Bool.or_eq_true, not_or, decide_eq_true_eq] at hbad
      omega
    let s1 : State := s.withHub { s.hub with grants := s.hub.grants.filter fun g => decide (g.1 ≠ p) }
    rw [if_neg hbad]
    by_cases hkeep : d.st ≠ 2#2 ∧ (s.partAt p).givesUp d = false
    · obtain ⟨hst, hgive⟩ := hkeep
      have e : s.writePart p d = s1.installPart p d := by
        refine (if_neg hbad).trans ?_
        dsimp only
        rw [if_neg hst, if_neg (not_or.2 ⟨hst, by rw [hgive]; exact Bool.false_ne_true⟩)]
      obtain ⟨⟨H, W, xs, hinst⟩, hread⟩ := installPart_spec s1 hp d
      rw [if_pos ⟨hst, hgive⟩, e]
      refine ⟨?_, ?_, hread⟩
      · rw [hinst]; exact calm_refl s
      · rw [hinst]; rfl
    · let k : PartDesc := { (if (s.partAt p).holds then s.partAt p else d) with st := 2#2 }
      let target : PartDesc := if d.st = 2#2 then { d with st := 0#2 } else d
      have hdrain : d.st = 2#2 ∨ (s.partAt p).givesUp target = true := by
        by_cases hst : d.st = 2#2
        · exact .inl hst
        · refine .inr ?_
          rw [show target = d from if_neg hst]
          exact Bool.not_eq_false _ |>.mp fun h => hkeep ⟨hst, h⟩
      obtain ⟨⟨H, W, xs, hinst⟩, hread⟩ := installPart_spec s1 hp k
      obtain ⟨v, hv⟩ : ∃ v, s1.installPart p k = v := ⟨_, rfl⟩
      have e : s.writePart p d = (v.withHub { v.hub with grants := v.hub.grants ++ [(p, target)] }).addDue [.drainComplete p] := by
        unfold State.writePart
        rw [if_neg hbad, ← hv]
        dsimp only
        rw [if_pos hdrain]
      rw [hv] at hinst hread
      have hcalm : calm s v ∧ v.port = s.port := by rw [hinst]; exact ⟨calm_refl s, rfl⟩
      rw [if_neg hkeep, e]
      exact ⟨hcalm.1, hcalm.2, congrArg PartDesc.st hread, mem_due_addDue (List.mem_singleton_self _), List.mem_append_right _ (List.mem_singleton_self _)⟩

/-! ### Cap and mode -/

/-- A host cap is met as far as the idle power and the floors allow (R389). -/
theorem recap_power (s : State) :
    s.recap.1.hub = s.hub ∧ s.recap.1.power = { s.power with capEff := max (max (min s.power.capReq 2600) s.power.idleW) s.floorSum } := by
  unfold State.recap
  dsimp only
  split
  · exact ⟨rfl, rfl⟩
  · exact ⟨rfl, rfl⟩

/-- A change of idle sequencers that leaves registers alone (R394, R395). -/
theorem calm_eachIdle {s : State} (h : RisingKeys s.others) (p : Option Nat) {f : Core → Core} (ha : ∀ x, (f x).arch = x.arch)
    (hs : ∀ x, (f x).shadow = x.shadow) : calm s (s.eachIdle p f) ∧ (s.eachIdle p f).hub = s.hub ∧ (s.eachIdle p f).port = s.port := by
  obtain ⟨⟨k, O, honly⟩, hread⟩ := eachIdle_spec h p f
  have hcore : k = if s.cur < 256 ∧ s.idleIn p s.cur s.core = true then f s.core else s.core := by
    have hcur := hread s.cur
    rw [honly] at hcur
    unfold State.coreAt at hcur
    dsimp only at hcur
    rwa [if_pos rfl, if_pos rfl] at hcur
  have hsame : k.arch = s.core.arch ∧ k.shadow = s.core.shadow := by
    rw [hcore]
    split
    · exact ⟨ha _, hs _⟩
    · exact ⟨rfl, rfl⟩
  rw [honly]
  exact ⟨⟨rfl, rfl, hsame⟩, rfl, rfl⟩

/-! ### The safe-tier checkpoint -/

/-- Where no suspended unit holds rows nothing is spilled (R447). -/
theorem spillAll_none {s : State} (h : ∀ e ∈ s.hub.units, e.2.ctx = none ∨ e.2.rows = 0) : s.spillAll = s := by
  have hnil : (s.hub.units.filter fun u => u.2.ctx.isSome && decide (0 < u.2.rows) && decide (u.2.st ≠ .ended) && decide (u.2.st ≠ .running)) = [] := by
    refine List.filter_eq_nil_iff.2 fun e he => ?_
    rcases h e he with hctx | hrows
    · simp [hctx]
    · simp [hrows]
  unfold State.spillAll
  rw [hnil]
  rfl

/-- Sequencers told to leave at their next Q bundle (R447). -/
theorem leaveAll_spec (cs : List Nat) (s : State) (hcs : ∀ c ∈ cs, (s.coreAt c).unit.isSome = true) :
    let t := s.each (fun s c => s.modCore c fun x => { x with preempt := some .safeTier }) cs
    CoresOnly s t ∧ calm s t ∧ ∀ c, (t.coreAt c).unit = (s.coreAt c).unit ∧ (c ∈ cs ∨ (s.coreAt c).preempt = some .safeTier → (t.coreAt c).preempt = some .safeTier) := by
  induction cs generalizing s with
  | nil => exact ⟨.refl s, calm_refl s, fun c => ⟨rfl, fun h => h.resolve_left List.not_mem_nil⟩⟩
  | cons d ds ih =>
    have hd := hcs d (List.mem_cons_self ..)
    let y : Core := { s.coreAt d with preempt := some .safeTier }
    have hne : y ≠ {} := fun e => nomatch congrArg Core.preempt e
    have hread (c : Nat) : (s.setCore d y).coreAt c = if c = d then y else s.coreAt c := State.coreAt_setCore_of_ne hne d c
    have hunit (c : Nat) : ((s.setCore d y).coreAt c).unit = (s.coreAt c).unit := by
      rw [hread]
      split
      · next e => rw [e]
      · rfl
    obtain ⟨honly, hcalm, hrest⟩ := ih (s.setCore d y) fun c hc => by rw [hunit]; exact hcs c (List.mem_cons_of_mem d hc)
    have hstep : calm s (s.setCore d y) := calm_setCore rfl rfl
    refine ⟨(coresOnly_setCore s d y).trans honly, hstep.trans hcalm, fun c => ?_⟩
    obtain ⟨hu, hpre⟩ := hrest c
    refine ⟨hu.trans (hunit c), fun hc => ?_⟩
    by_cases hcd : c = d
    · exact hpre (.inr (by rw [hread, if_pos hcd]))
    · rcases hc with hc | hc
      · exact hpre (.inl ((List.mem_cons.1 hc).resolve_left hcd))
      · exact hpre (.inr (by rw [hread, if_neg hcd]; exact hc))

/-- A stream of the safe-tier checkpoint that waits for the units on `on` to leave (R447). -/
def State.safeWaits (s : State) (f : Frame) (on : List Nat) : State :=
  (({ s with port := { s.port with ckpt := some { acked := [], total := ckptBlocks, targets := f.payload } } } : State).addDue
    (on.map Action.preemption ++ [.ckptBlockAck 0])).answerFrame f .done

/-- A block acknowledged, the list of those acknowledged being given: after the last, admission resumes (R447). -/
def State.blockAcked (s : State) (k : SafeCk) (b : Nat) (acked : List Nat) : State :=
  if k.total ≤ acked.length then
    let s1 : State := { s with port := { s.port with ckpt := none, lastCkpt := (acked.length, k.total) } }
    (s1.withHub { s1.hub with noAdmit := false }).addDue ((upFrom 0 256).map Action.unitAdmit)
  else ({ s with port := { s.port with ckpt := some { k with acked := acked } } } : State).addDue [.ckptBlockAck ((b + 1) % k.total)]

theorem length_padTo {α : Type} (d : α) (n : Nat) (xs : List α) : (padTo d n xs).length = n := by
  induction n generalizing xs with
  | zero => rfl
  | succ n ih => cases xs <;> exact congrArg (· + 1) (ih _)

/-- Settles O51: each command is the function of its frame that the rules name, and its response is the last frame sent. -/
theorem hostCommandActionResults : Obligations.HostCommandActionResults := by
  unfold Obligations.HostCommandActionResults
  intro s f
  refine ⟨fun hnone a ha => ?noJob, fun j own n hjob howner hexp hn => ⟨fun i himage hgood => ?start, fun htop hwin himage hok hroom => ?launch⟩,
    ⟨fun n hn => ?create, fun hl hjob hs => ⟨?add, ?release, fun hnd => ?cancel⟩⟩, ?acctrd, ?part, ?podmap, ?cap, fun hs => ?mode, ?events, ?counters, ?attest,
    fun hc => ?busy, fun hc hctx => ?safeckpt, fun k b hk hctx => ?ack, ?ckptstat⟩
  case noJob =>
    have hrun : Does a s (({ s with act := some a } : State).answerFrame f .jobState) := by
      simp only [List.mem_cons, List.not_mem_nil, or_false] at ha
      rcases ha with rfl | rfl
      · refine congrArg Host.Outcome.next ?_
        unfold State.start
        rw [show State.jobNamed { s with act := some (.hostStart f) } f = none from hnone]
      · refine congrArg Host.Outcome.next ?_
        unfold State.launch
        rw [show State.jobNamed { s with act := some (.hostLaunch f) } f = none from hnone]
    exact ⟨_, hrun, calm_refl s, rfl, answered_respond rfl ..⟩
  case start =>
    obtain ⟨u, hstart, hdue, hmade, hplace, hlaunch, hown⟩ := start_ok (s := { s with act := some (.hostStart f) }) hjob howner hexp hn himage hgood
    have hrun : Does (.hostStart f) s _ := congrArg Host.Outcome.next hstart
    exact ⟨_, hrun, hdue.calm, hmade, hplace, hlaunch, hown, answered_respond (congrArg HostPort.sent hdue.port) ..⟩
  case launch =>
    have hc := hasCapacity_congr (s := s) (t := { s with act := some (.hostLaunch f) }) rfl (p := (s.accAt j).part) rfl
      (descPlace (BitVec.ofNat 512 (s.readNat f.arg1.toNat 64))) (descPin (BitVec.ofNat 512 (s.readNat f.arg1.toNat 64)))
      ((s.unitTable (s.accAt j).part).getD (descUnit (BitVec.ofNat 512 (s.readNat f.arg1.toNat 64))) {}).rows
    obtain ⟨u, hlaunch, hdue, hmade, hplace, hown⟩ :=
      launch_ok (s := { s with act := some (.hostLaunch f) }) hjob howner hexp hn rfl htop hwin himage hok (hc.trans hroom)
    have hrun : Does (.hostLaunch f) s _ := congrArg Host.Outcome.next hlaunch
    exact ⟨_, hrun, hdue.calm, hmade, hplace, hown, answered_respond (congrArg HostPort.sent hdue.port) ..⟩
  case create =>
    obtain ⟨u, hop, -, hst, hlevel, hallow, -⟩ := jobOp_create (s := { s with act := some (.hostJobCreate f) })
      (amount := BitVec.ofNat 64 (bits (ofBytes (padTo 0#8 64 f.payload)) 64 64)) hn
    obtain ⟨t, hrun, hcalm, hans, hacc⟩ := job_spec s f 0 rfl rfl (a := .hostJobCreate f) rfl hop
    exact ⟨t, hrun, hcalm, by rw [hacc]; exact hst, by rw [hacc]; exact hlevel, by rw [hacc]; exact hallow, hans⟩
  case add =>
    have hop := jobOp_add (s := { s with act := some (.hostJobAdd f) }) (BitVec.ofNat 64 (bits (ofBytes (padTo 0#8 64 f.payload)) 64 64)) hl hjob
    obtain ⟨t, hrun, hcalm, hans, hacc⟩ := job_spec s f 1 rfl rfl (a := .hostJobAdd f) rfl hop
    refine ⟨t, hrun, hcalm, hans, ?_⟩
    rw [hacc, State.accAt_setAcc (s := { s with act := some (.hostJobAdd f) }) hs, if_pos rfl]
    rfl
  case release =>
    have hop := jobOp_release (s := { s with act := some (.hostJobRelease f) }) (BitVec.ofNat 64 (bits (ofBytes (padTo 0#8 64 f.payload)) 64 64)) hl hjob
    obtain ⟨-, hst⟩ := releaseJob (s := { s with act := some (.hostJobRelease f) }) hs (accId (BitVec.ofNat 32 (ofBytes (padTo 0#8 64 f.payload))))
    obtain ⟨t, hrun, hcalm, hans, hacc⟩ := job_spec s f 2 rfl rfl (a := .hostJobRelease f) rfl hop
    refine ⟨t, hrun, hcalm, hans, ?_⟩
    rw [hacc]
    exact hst
  case cancel =>
    have hop := jobOp_cancel (s := { s with act := some (.hostJobCancel f) }) (BitVec.ofNat 64 (bits (ofBytes (padTo 0#8 64 f.payload)) 64 64)) hl hjob
    obtain ⟨t, hrun, hcalm, hans, hacc⟩ := job_spec s f 3 rfl rfl (a := .hostJobCancel f) rfl hop
    have hfree : (s.accAt (accId (BitVec.ofNat 32 (ofBytes (padTo 0#8 64 f.payload))))).st ≠ .free := by
      unfold State.live at hl
      simp only [Bool.and_eq_true, decide_eq_true_iff] at hl
      exact hl.2
    obtain ⟨-, -, -, hmark⟩ := cancelAcc_spec (s := { s with act := some (.hostJobCancel f) }) hfree hnd
    refine ⟨t, hrun, hcalm, hans, ?_⟩
    rw [hacc]
    exact (hmark _ (.inl rfl) hnd).1
  case acctrd =>
    by_cases hl : s.live (BitVec.ofNat 32 (fld f.arg0 0 32)) = true
    · refine ⟨_, congrArg Host.Outcome.next (if_pos hl), calm_refl s, rfl, ?_⟩
      rw [if_pos hl]
      exact answered_respond rfl ..
    · refine ⟨_, congrArg Host.Outcome.next (if_neg hl), calm_refl s, rfl, ?_⟩
      rw [if_neg hl]
      exact answered_respond rfl ..
  case part =>
    obtain ⟨hcalm, hport, hspec⟩ := writePart_spec { s with act := some (.hostPart f) } f.arg0.toNat (descOf (ofBytes (padTo 0#8 128 f.payload)))
    exact ⟨_, rfl, hcalm, answered_respond (congrArg HostPort.sent hport) .., hspec⟩
  case podmap =>
    refine ⟨_, rfl, calm_refl s, rfl, answered_respond rfl .., rfl, fun port hp => ?_⟩
    exact ⟨_, _, _, _, _, mem_due_addDue (List.mem_map_of_mem (mem_upFrom_zero.2 hp))⟩
  case cap =>
    let s1 : State := ({ s with act := some (.hostCap f) } : State).withPower { s.power with capReq := min f.arg0.toNat 2600 }
    obtain ⟨W, xs, hrecap⟩ := recap_spec s1
    obtain ⟨hhub, hpower⟩ := recap_power s1
    have hrun : Does (.hostCap f) s (s1.recap.1.respond f 0#16
      (BitVec.ofNat 64 (s1.recap.1.power.capReq + s1.recap.1.power.capEff * 2 ^ 32)) (BitVec.ofNat 64 (b2n s1.recap.2.2 + 2 * b2n s1.recap.2.1))) := rfl
    generalize s1.recap = r at hrecap hhub hpower hrun
    have hcalm : calm s r.1 ∧ r.1.port = s.port := by rw [hrecap]; exact ⟨calm_refl s, rfl⟩
    refine ⟨_, _, hrun, hcalm.1, hhub, congrArg Power.capReq hpower, ?_, answered_respond (congrArg HostPort.sent hcalm.2) ..⟩
    show r.1.power.capEff = max (max r.1.power.capReq s.power.idleW) s.floorSum
    rw [hpower]
    show max (max (min (min f.arg0.toNat 2600) 2600) s.power.idleW) s.floorSum = max (max (min f.arg0.toNat 2600) s.power.idleW) s.floorSum
    rw [min_assoc, min_self]
  case mode =>
    let s1 : State := ({ s with act := some (.hostMode f) } : State).withHub { s.hub with mode := BitVec.ofNat 2 (fld f.arg0 0 2) }
    obtain ⟨hcalm, hhub, hport⟩ := calm_eachIdle (s := s1) hs none (f := fun x => { x with mode := BitVec.ofNat 2 (fld f.arg0 0 2) })
      (fun _ => rfl) (fun _ => rfl)
    have hrun : Does (.hostMode f) s ((s1.eachIdle none fun x => { x with mode := BitVec.ofNat 2 (fld f.arg0 0 2) }).answerFrame f .done) := rfl
    generalize (s1.eachIdle none fun x => { x with mode := BitVec.ofNat 2 (fld f.arg0 0 2) }) = u at hcalm hhub hport hrun
    exact ⟨_, hrun, hcalm, congrArg Hub.mode hhub, answered_respond (congrArg HostPort.sent hport) ..⟩
  case events =>
    have hans : ∀ a0, a0 = BitVec.ofNat 64 (s.port.events.take 64).length → a0 = BitVec.ofNat 64 (min 64 s.port.events.length) := fun a0 h => by
      rw [h, List.length_take]
    refine ⟨_, rfl, calm_refl s, rfl, rfl, ?_⟩
    rw [← hans _ rfl]
    exact answered_respond (s := s) (u := { s with act := some (.hostEvents f), port := { s.port with events := s.port.events.drop 64 } }) rfl ..
  case counters => exact ⟨_, rfl, calm_refl s, rfl, answered_respond rfl ..⟩
  case attest => exact ⟨_, _, rfl, calm_refl s, rfl, length_padTo _ _ _, answered_respond rfl ..⟩
  case busy =>
    refine ⟨_, congrArg Host.Outcome.next (if_pos ?_), calm_refl s, rfl, answered_respond rfl ..⟩
    exact Option.isSome_iff_ne_none.2 hc
  case safeckpt =>
    let s1 : State := { s with act := some (.hostSafeckpt f), hub := { s.hub with noAdmit := true } }
    let on := (upFrom 0 256).filter fun c => (s.coreAt c).unit.isSome
    obtain ⟨honly, hcalm, hread⟩ := leaveAll_spec on s1 fun c hc => (List.mem_filter.1 hc).2
    generalize hu : (s1.each (fun s c => s.modCore c fun x => { x with preempt := some .safeTier }) on) = u at honly hcalm hread
    have hspill : u.spillAll = u := spillAll_none (by obtain ⟨_, _, rfl⟩ := honly; exact hctx)
    have hport : u.port = s.port ∧ u.hub = s1.hub := by obtain ⟨_, _, rfl⟩ := honly; exact ⟨rfl, rfl⟩
    have hnone : ¬ s.port.ckpt.isSome = true := by rw [hc]; exact Bool.false_ne_true
    have hrun : Does (.hostSafeckpt f) s (u.safeWaits f on) := by
      refine congrArg Host.Outcome.next ((if_neg hnone).trans ?_)
      show (State.spillAll (s1.each _ on)).safeWaits f on = u.safeWaits f on
      rw [hu, hspill]
    refine ⟨_, hrun, hcalm, congrArg Hub.noAdmit hport.2, answered_respond (congrArg HostPort.sent hport.1) .., rfl,
      List.mem_append_right _ (List.mem_append_right _ (List.mem_singleton_self _)), fun c hc hunit => ?_⟩
    have hon : c ∈ on := List.mem_filter.2 ⟨mem_upFrom_zero.2 hc, hunit⟩
    exact ⟨(hread c).2 (.inl hon), List.mem_append_right _ (List.mem_append_left _ (List.mem_map_of_mem hon))⟩
  case ack =>
    let s1 : State := { s with act := some (.ckptBlockAck b) }
    have hready : s1.safeReady = s.safeReady := rfl
    have hspill : s1.spillAll = s1 := spillAll_none hctx
    by_cases hr : s.safeReady = true
    · have hack : (if k.acked.contains b ∨ k.total ≤ b then k.acked else b :: k.acked) = if b ∈ k.acked ∨ k.total ≤ b then k.acked else b :: k.acked := by
        simp only [List.contains_iff_mem]
      have hrun : Does (.ckptBlockAck b) s (s1.blockAcked k b (if b ∈ k.acked ∨ k.total ≤ b then k.acked else b :: k.acked)) := by
        refine congrArg Host.Outcome.next ?_
        unfold State.ackBlock
        rw [show s1.port.ckpt = some k from hk]
        dsimp only
        rw [if_neg (not_not.2 (hready.trans hr)), hspill, hack]
        rfl
      unfold State.blockAcked at hrun
      by_cases hlast : k.total ≤ (if b ∈ k.acked ∨ k.total ≤ b then k.acked else b :: k.acked).length
      · rw [if_pos hlast] at hrun
        refine ⟨_, hrun, calm_refl s, ?_⟩
        rw [if_neg (by rw [hr]; decide), if_pos hlast]
        exact ⟨rfl, rfl, fun c hc => mem_due_addDue (List.mem_map_of_mem (mem_upFrom_zero.2 hc))⟩
      · rw [if_neg hlast] at hrun
        refine ⟨_, hrun, calm_refl s, ?_⟩
        rw [if_neg (by rw [hr]; decide), if_neg hlast]
        exact ⟨rfl, mem_due_addDue (List.mem_singleton_self _)⟩
    · have hrun : Does (.ckptBlockAck b) s (s1.addDue [.ckptBlockAck b]) := by
        refine congrArg Host.Outcome.next ?_
        unfold State.ackBlock
        rw [show s1.port.ckpt = some k from hk]
        exact if_pos hr
      refine ⟨_, hrun, calm_refl s, ?_⟩
      rw [if_pos (Bool.eq_false_iff.2 hr)]
      exact ⟨rfl, mem_due_addDue (List.mem_singleton_self _)⟩
  case ckptstat =>
    refine ⟨_, rfl, calm_refl s, rfl, ?_⟩
    cases s.port.ckpt with
    | none => exact answered_respond rfl ..
    | some k => exact answered_respond rfl ..

end Sys2Proof.Machine
end

section
set_option Elab.async false
/-! Actions of the hub (R209, R212, R220, R350, R360 to R364, R445, R446, R478). -/

namespace Sys2Proof.Machine

/-! ### What stays due -/

/-- Whatever was due is still due. -/
def Grows (s t : State) : Prop := ∃ xs, t.due = s.due ++ xs

theorem Grows.refl (s : State) : Grows s s := ⟨[], (List.append_nil _).symm⟩
theorem Grows.of_eq {s t : State} (h : t.due = s.due) : Grows s t := ⟨[], h.trans (List.append_nil _).symm⟩
theorem Grows.addDue (s : State) (xs : List Action) : Grows s (s.addDue xs) := ⟨xs, rfl⟩

theorem Grows.trans {s t u : State} (h : Grows s t) (k : Grows t u) : Grows s u := by
  obtain ⟨xs, hx⟩ := h
  obtain ⟨ys, hy⟩ := k
  exact ⟨xs ++ ys, by rw [hy, hx, List.append_assoc]⟩

theorem Grows.mem {s t : State} (h : Grows s t) {a : Action} (ha : a ∈ s.due) : a ∈ t.due := by
  obtain ⟨xs, hx⟩ := h
  rw [hx]
  exact List.mem_append_left _ ha

theorem Grows.ite {s t u : State} {p : Prop} [Decidable p] (ht : Grows s t) (hu : Grows s u) : Grows s (if p then t else u) := by
  split
  · exact ht
  · exact hu

theorem Grows.each {f : State → Nat → State} (h : ∀ s i, Grows s (f s i)) (is : List Nat) (s : State) : Grows s (s.each f is) := by
  induction is generalizing s with
  | nil => exact .refl s
  | cons i is ih => exact (h s i).trans (ih _)

theorem calm_each {f : State → Nat → State} (h : ∀ s i, calm s (f s i)) (is : List Nat) (s : State) : calm s (s.each f is) := by
  induction is generalizing s with
  | nil => exact calm_refl s
  | cons i is ih => exact (h s i).trans (ih _)

theorem grows_setCore (s : State) (c : Nat) (x : Core) : Grows s (s.setCore c x) := .of_eq (State.setCore_due s c x)

theorem grows_giveHold (s : State) (site : Nat) (h : Hold) (taint : Bool) (pts : Word) : Grows s (s.giveHold site h taint pts) :=
  .ite (.refl s) (.addDue s _)

theorem grows_giveHolds (c : Nat) (us : List Trigger) (s : State) : Grows s (us.foldl (fun s u => s.giveHold c u.held false 0#64) s) := by
  induction us generalizing s with
  | nil => exact .refl s
  | cons u us ih => exact (grows_giveHold s c u.held false 0#64).trans (ih _)

theorem grows_dropTriggers (s : State) (ids : List Nat) (c : Nat) : Grows s (s.dropTriggers ids c) := by
  unfold State.dropTriggers
  dsimp only
  split
  · exact .refl s
  · exact (grows_setCore _ _ _).trans (grows_giveHolds _ _ _)

theorem grows_noticeAll (h : Handle) (es : List (Nat × Handle × BitVec 16 × Nat × Bool)) (s : State) : Grows s (s.noticeAll h es) := by
  induction es generalizing s with
  | nil => exact .refl s
  | cons e es ih =>
    unfold State.noticeAll
    refine Grows.trans ?_ (ih _)
    split
    · exact ⟨_, rfl⟩
    · exact .refl s

theorem grows_cancelOne (s : State) (i : Nat) : Grows s (s.cancelOne i) := by
  unfold State.cancelOne
  dsimp only
  refine .ite (.refl s) ?_
  have back {t : State} (ht : Grows s t) (v : Nat) (xs : List Action) : Grows s (if v = 0 then t else t.addDue xs) :=
    .ite ht (ht.trans (.addDue t xs))
  exact back (back (t := s.setAcc i _) (.of_eq rfl) _ _) _ _

theorem grows_cancelAll (is : List Nat) (s : State) : Grows s (s.cancelAll is) := by
  induction is generalizing s with
  | nil => exact .refl s
  | cons i is ih => exact (grows_cancelOne s i).trans (ih _)

/-- Cancelling an account takes nothing off the list of what is due (R282). -/
theorem grows_cancelAcc (s : State) (i : Nat) : Grows s (s.cancelAcc i) := by
  unfold State.cancelAcc State.cancelList
  refine .ite (.refl s) ?_
  exact ((grows_cancelAll _ s).trans (.addDue _ _)).trans ((Grows.each (fun s c => grows_dropTriggers s _ c) _ _).trans
    (.each (fun s j => grows_noticeAll _ _ s) _ _))

/-! ### Bytes of a number -/

theorem getD_toBytes (n v k : Nat) (h : k < n) : (toBytes n v).getD k 0#8 = BitVec.ofNat 8 (v / 256 ^ k) := by
  induction n generalizing v k with
  | zero => omega
  | succ n ih =>
    cases k with
    | zero => simp [toBytes]
    | succ k => rw [toBytes, List.getD_cons_succ, ih _ _ (by omega), Nat.div_div_eq_div_mul, pow_succ']

/-- A number written as bytes is read back. -/
theorem loadNat_cellsSet {m : List Host.Cell} (h : cellsWf m = true) (a n v : Nat) : loadNat (cellsSet m a (toBytes n v)) a n = v % 256 ^ n := by
  refine ofBytes_of_digits v n fun k hk => ?_
  rw [cellAt_cellsSet h, toBytes_length, if_pos ⟨by omega, by omega⟩, Nat.add_sub_cancel_left, getD_toBytes n v k hk]

theorem loadNat_cellsSet_other {m : List Host.Cell} {a b n : Nat} (bs : List Byte) (h : b + n ≤ a ∨ a + bs.length ≤ b) :
    loadNat (cellsSet m a bs) b n = loadNat m b n :=
  loadNat_congr fun k hk => cellAt_cellsSet_other m bs (by omega)

/-! ### Logical time -/

/-- Whether logical time of a sequencer rises with the clock (R220). -/
def State.ticking (s : State) (c : Nat) (x : Core) : Bool := x.unit.isSome || (decide (c = rangerId) && decide (s.port.boot = .running))

/-- The tick of logical time (R220). -/
theorem tickAll_spec {s : State} (hs : RisingKeys s.others) :
    let t := s.each (fun s c => if (s.coreAt c).unit.isSome || (decide (c = rangerId) && decide (s.port.boot = .running)) then
      s.modCore c fun x => { x with pts := x.pts + 1 } else s) (upFrom 0 257)
    CoresOnly s t ∧ calm s t ∧ ∀ c < 257, (t.coreAt c).pts = if s.ticking c (s.coreAt c) = true then (s.coreAt c).pts + 1#64 else (s.coreAt c).pts := by
  have step (t : State) (c : Nat) (ht : CoresOnly s t) (hr : RisingKeys t.others) :
      CoreStep t (if (t.coreAt c).unit.isSome || (decide (c = rangerId) && decide (t.port.boot = .running)) then
        t.modCore c fun x => { x with pts := x.pts + 1 } else t) c fun x => if s.ticking c x = true then { x with pts := x.pts + 1 } else x := by
    have hport : t.port = s.port := by obtain ⟨_, _, rfl⟩ := ht; rfl
    have hcond : ((t.coreAt c).unit.isSome || (decide (c = rangerId) && decide (t.port.boot = .running))) = s.ticking c (t.coreAt c) := by
      unfold State.ticking
      rw [hport]
    rw [hcond]
    by_cases hc : s.ticking c (t.coreAt c) = true
    · rw [if_pos hc]
      obtain ⟨honly, hrise, hread⟩ := coreStep_modCore hr c fun x => { x with pts := x.pts + 1 }
      refine ⟨honly, hrise, fun d => (hread d).trans ?_⟩
      by_cases hd : d = c
      · subst hd
        rw [if_pos rfl, if_pos rfl]
        exact (if_pos hc).symm
      · rw [if_neg hd, if_neg hd]
    · rw [if_neg hc]
      exact coreStep_none hr c (if_neg hc)
  obtain ⟨honly, -, hread⟩ := each_coreStep (upFrom_nodup 0 257) hs step
  refine ⟨honly, calm_each (fun t c => ?_) _ s, fun c hc => ?_⟩
  · split
    · exact calm_modCore t c (fun _ => rfl) fun _ => rfl
    · exact calm_refl t
  · rw [hread, if_pos (mem_upFrom_zero.2 hc)]
    split <;> rfl

/-! ### Regions -/

/-- A region after its window of 65,536 cycles (R212). -/
theorem ftTimeout_spec {s : State} {r : Nat} {touched : List Nat} {wrote : Bool} {since : Nat} (h : NatMap.find r s.hub.regions = some (.ft touched wrote since)) :
    calm s (s.ftTimeout r) ∧ NatMap.find r (s.ftTimeout r).hub.regions = some (
      if s.time < since + 65536 then .ft touched wrote since
      else if touched.length = 1 then .dp touched.head? true
      else if wrote then .ft [] false s.time else .rs 0#64) := by
  have put (x : Region) (xs : List Action) : calm s ((s.withHub { s.hub with regions := NatMap.put r x s.hub.regions }).addDue xs) ∧
      NatMap.find r ((s.withHub { s.hub with regions := NatMap.put r x s.hub.regions }).addDue xs).hub.regions = some x :=
    ⟨calm_refl s, NatMap.find_put_self ..⟩
  have put0 (x : Region) : calm s (s.withHub { s.hub with regions := NatMap.put r x s.hub.regions }) ∧
      NatMap.find r (s.withHub { s.hub with regions := NatMap.put r x s.hub.regions }).hub.regions = some x :=
    ⟨calm_refl s, NatMap.find_put_self ..⟩
  unfold State.ftTimeout
  rw [h]
  dsimp only
  by_cases hearly : s.time < since + 65536
  · rw [if_pos hearly, if_pos hearly]
    exact ⟨calm_refl s, h⟩
  · rw [if_neg hearly, if_neg hearly]
    match touched, wrote with
    | [a], _ => exact put0 _
    | [], false => exact put0 _
    | [], true => exact put _ _
    | _ :: _ :: _, false => exact put0 _
    | _ :: _ :: _, true => exact put _ _

/-! ### Translation -/

theorem mem_addHolder (l : Leaf) (h : Nat) (rs : List TRec) : ∃ r ∈ addHolder l h rs, r.part = l.part ∧ r.va = l.va ∧ r.size = l.size ∧ h ∈ r.holders := by
  induction rs with
  | nil => exact ⟨_, List.mem_singleton_self _, rfl, rfl, rfl, List.mem_singleton_self _⟩
  | cons r rs ih =>
    unfold addHolder
    split
    · next hsame =>
      obtain ⟨hp, hv, hz⟩ := hsame
      refine ⟨_, List.mem_cons_self .., hp, hv, hz, ?_⟩
      dsimp only
      split
      · next hin => exact List.contains_iff_mem.1 hin
      · exact List.mem_append_right _ (List.mem_singleton_self _)
    · obtain ⟨k, hk, hrest⟩ := ih
      exact ⟨k, List.mem_cons_of_mem r hk, hrest⟩

theorem length_addHolder_le (l : Leaf) (h : Nat) (rs : List TRec) : (addHolder l h rs).length ≤ rs.length + 1 := by
  induction rs with
  | nil => exact Nat.le_refl _
  | cons r rs ih =>
    unfold addHolder
    split
    · exact Nat.le_succ _
    · exact Nat.succ_le_succ ih

theorem walk_run {s t : State} {c : Nat} {va : Word} {l : Leaf} (hact : s.act = some (.translationWalk c va))
    (h : s.leafFor c (s.coreAt c).part va = some (l, t)) : execTranslationWalk s = .next t := by
  unfold execTranslationWalk
  rw [hact]
  dsimp only
  rw [h]

/-- A leaf walked to is cached, and the directory names its holder (R361, R363). -/
theorem installLeaf_spec {s : State} (hs : RisingKeys s.others) {c : Nat} {l : Leaf} (hroom : (s.coreAt c).tlb.length < 256) (hdir : s.hub.tdir.length < 65536) :
    calm s (s.installLeaf c l) ∧ ((s.installLeaf c l).coreAt c).tlb = (s.coreAt c).tlb ++ [l] ∧
      (s.installLeaf c l).hub.tdir = addHolder l (stackOf c) s.hub.tdir := by
  let y : Core := { s.coreAt c with tlb := (s.coreAt c).tlb ++ [l] }
  have e : s.installLeaf c l = (s.setCore c y).withHub { s.hub with tdir := addHolder l (stackOf c) s.hub.tdir } := by
    unfold State.installLeaf
    dsimp only
    rw [if_neg (Nat.not_le.2 hroom)]
    exact if_pos ((length_addHolder_le l (stackOf c) s.hub.tdir).trans hdir)
  rw [e]
  have hcalm : calm s (s.setCore c y) := calm_setCore rfl rfl
  exact ⟨hcalm, (congrArg Core.tlb (State.coreAt_setCore hs c c y)).trans (by rw [if_pos rfl]), rfl⟩

/-! ### Scrubbing -/

/-- A counter rises by one up to its end (R445). -/
theorem count_spec (s : State) (code : Cause) (src srcid : Nat) :
    let k := counterKey (causeCode code) src srcid
    calm s (s.count code src srcid) ∧ NatMap.findD 0#32 k (s.count code src srcid).hub.counters =
      if NatMap.findD 0#32 k s.hub.counters = 0xFFFFFFFF#32 then 0xFFFFFFFF#32 else NatMap.findD 0#32 k s.hub.counters + 1#32 := by
  intro k
  have hne : (if NatMap.findD 0#32 k s.hub.counters = 0xFFFFFFFF#32 then NatMap.findD 0#32 k s.hub.counters else NatMap.findD 0#32 k s.hub.counters + 1#32)
      ≠ 0#32 := by
    generalize NatMap.findD 0#32 k s.hub.counters = v
    split <;> bv_omega
  refine ⟨calm_refl s, (NatMap.findD_putD_of_ne hne k k).trans ?_⟩
  rw [if_pos rfl]
  split
  · assumption
  · rfl

/-- A report of a bad word for each job that holds it, each of which is cancelled (R446). -/
theorem cancelJobs_spec (rep : State → Nat × Nat → State) (hrep : ∀ s j, calm s (rep s j) ∧ Grows s (rep s j) ∧ (rep s j).hub = s.hub)
    (js : List (Nat × Nat)) (s : State) :
    let t := js.foldl (fun s j => (rep s j).cancelAcc j.2) s
    calm s t ∧ Grows s t ∧ t.hub.bad = s.hub.bad := by
  induction js generalizing s with
  | nil => exact ⟨calm_refl s, .refl s, rfl⟩
  | cons j js ih =>
    obtain ⟨rcalm, rgrows, rhub⟩ := hrep s j
    obtain ⟨icalm, igrows, ibad⟩ := ih ((rep s j).cancelAcc j.2)
    refine ⟨(rcalm.trans (calm_cancelAcc _ _).1).trans icalm, (rgrows.trans (grows_cancelAcc _ _)).trans igrows, ibad.trans ?_⟩
    obtain ⟨_, _, _, _, _, e⟩ := cancelAcc_only (rep s j) j.2
    rw [e, ← rhub]

/-- A word that cannot be corrected stays bad and is reported (R446). -/
theorem scrubBad_spec (s : State) (w : Nat) (slice : Bool) (syn : Word) :
    calm s (s.scrubBad w slice syn) ∧ w ∈ (s.scrubBad w slice syn).hub.bad ∧
      ∃ r, Action.eventRecordArrive r ∈ (s.scrubBad w slice syn).due ∧ r.code = .eccUncorrected ∧ r.src = if slice then 1#4 else 5#4 := by
  have hsrc : BitVec.ofNat 4 (s.scrubSite w slice).1 = if slice then 1#4 else 5#4 := by cases slice <;> rfl
  have hbad : w ∈ (if s.hub.bad.contains w then s.hub.bad else s.hub.bad ++ [w]) := by
    split
    · next h => exact List.contains_iff_mem.1 h
    · exact List.mem_append_right _ (List.mem_singleton_self _)
  unfold State.scrubBad
  dsimp only
  split
  · exact ⟨calm_refl s, hbad, _, mem_due_addDue (List.mem_singleton_self _), rfl, hsrc⟩
  · next hjobs =>
    let rep (t : State) (j : Nat × Nat) : State :=
      t.event .eccUncorrected (t.scrubSite w slice).1 (t.scrubSite w slice).2 (some j.1) (BitVec.ofNat 64 (32 * w)) (accHandle j.2 (t.accAt j.2)) 0#32
        (BitVec.ofNat 64 (b2n !slice)) syn
    have hrep (t : State) (j : Nat × Nat) : calm t (rep t j) ∧ Grows t (rep t j) ∧ (rep t j).hub = t.hub := ⟨calm_refl t, .addDue t _, rfl⟩
    generalize (List.flatMap _ _ : List (Nat × Nat)) = js at hjobs ⊢
    cases js with
    | nil => exact absurd rfl hjobs
    | cons j js =>
      let s1 : State := s.withHub { s.hub with bad := if s.hub.bad.contains w then s.hub.bad else s.hub.bad ++ [w] }
      obtain ⟨hcalm, -, hkeep⟩ := cancelJobs_spec rep hrep (j :: js) s1
      obtain ⟨-, hgrows, -⟩ := cancelJobs_spec rep hrep js ((rep s1 j).cancelAcc j.2)
      have hfirst := (grows_cancelAcc (rep s1 j) j.2).trans hgrows
      have hin : w ∈ (List.foldl (fun s j => (rep s j).cancelAcc j.2) s1 (j :: js)).hub.bad := by rw [hkeep]; exact hbad
      exact ⟨hcalm, hin, _, hfirst.mem (mem_due_addDue (List.mem_singleton_self _)), rfl, by cases slice <;> rfl⟩

/-! ### Partitions that drain -/

theorem homeDue (ms : List (Message × Nat)) (s : State) : DueOnly s (ms.foldl (fun s m => s.dropMessage m.1) s) := by
  induction ms generalizing s with
  | nil => exact dueOnly_refl s
  | cons m ms ih =>
    obtain ⟨xs, e⟩ := ih (s.dropMessage m.1)
    exact ⟨_, e.trans (congrArg (fun l => State.mk _ _ _ _ _ _ _ _ _ l _ _) (List.append_assoc ..))⟩

theorem holdsDue (c : Nat) (us : List Trigger) (s : State) : DueOnly s (us.foldl (fun s u => s.giveHold c u.held false 0#64) s) := by
  induction us generalizing s with
  | nil => exact dueOnly_refl s
  | cons u us ih =>
    have hu : DueOnly s (s.giveHold c u.held false 0#64) := .ite (dueOnly_refl s) ⟨_, rfl⟩
    obtain ⟨xs, hx⟩ := hu
    obtain ⟨ys, e⟩ := ih (s.giveHold c u.held false 0#64)
    refine ⟨xs ++ ys, e.trans ?_⟩
    rw [hx]
    exact congrArg (fun l => State.mk _ _ _ _ _ _ _ _ _ l _ _) (List.append_assoc ..)

/-- Sequencers made ready for their new owner, whatever else is due or stands at another point. -/
def Cleared (s t : State) (cs : List Nat) : Prop :=
  (∃ k O W D, t = { s with core := k, others := O, power := W, due := D }) ∧ calm s t ∧ RisingKeys t.others ∧
    ∀ d, t.coreAt d = if d ∈ cs then Core.moved (s.coreAt d) else s.coreAt d

theorem Cleared.trans {s t u : State} {cs ds : List Nat} (h : Cleared s t cs) (k : Cleared t u ds) : Cleared s u (cs ++ ds) := by
  obtain ⟨⟨_, _, _, _, rfl⟩, hcalm, -, hread⟩ := h
  obtain ⟨⟨_, _, _, _, rfl⟩, kcalm, krise, kread⟩ := k
  refine ⟨⟨_, _, _, _, rfl⟩, hcalm.trans kcalm, krise, fun d => (kread d).trans ?_⟩
  rw [hread]
  by_cases hc : d ∈ cs
  · rw [if_pos hc, if_pos (List.mem_append_left _ hc)]
    split <;> rfl
  · rw [if_neg hc]
    exact if_congr (by simp [hc]) rfl rfl

theorem cleared_setOp {s : State} (hs : RisingKeys s.others) (d k : Nat) : Cleared s (s.setOp d k) [] :=
  ⟨⟨_, _, _, _, rfl⟩, calm_refl s, hs, fun _ => (if_neg List.not_mem_nil).symm⟩

theorem cleared_clearCore {s : State} (hs : RisingKeys s.others) (c : Nat) : Cleared s (s.clearCore c) [c] := by
  unfold State.clearCore
  dsimp only
  obtain ⟨xs, hx⟩ := homeDue ((s.coreAt c).arrivals ++ (s.coreAt c).held) s
  rw [hx]
  obtain ⟨ys, hy⟩ := holdsDue c ((s.coreAt c).trigs.toList.filterMap id) (s.addDue xs)
  rw [hy]
  obtain ⟨⟨k, O, honly⟩, hrise, hread⟩ := coreStep_modCore (s := (s.addDue xs).addDue ys) hs c Core.moved
  have hcalm := calm_modCore ((s.addDue xs).addDue ys) c (f := Core.moved) (fun _ => rfl) fun _ => rfl
  refine ⟨?_, hcalm, hrise, fun d => (hread d).trans (if_congr List.mem_singleton.symm rfl rfl)⟩
  rw [honly]
  exact ⟨_, _, _, _, rfl⟩

theorem cleared_each {f : State → Nat → State} {g : Nat → List Nat} (h : ∀ s i, RisingKeys s.others → Cleared s (f s i) (g i)) (is : List Nat) {s : State}
    (hs : RisingKeys s.others) : Cleared s (s.each f is) (is.flatMap g) := by
  induction is generalizing s with
  | nil => exact ⟨⟨_, _, _, _, rfl⟩, calm_refl s, hs, fun _ => (if_neg List.not_mem_nil).symm⟩
  | cons i is ih =>
    obtain ⟨honly, hcalm, hrise, hread⟩ := h s i hs
    exact Cleared.trans ⟨honly, hcalm, hrise, hread⟩ (ih hrise)

theorem cleared_clearQuad {s : State} (hs : RisingKeys s.others) (q : Nat) : Cleared s (s.clearQuad q) (coresOf q) := by
  have hup := cleared_setOp hs (sramDomain q) 7
  have hall := hup.trans (cleared_each (fun s c h => cleared_clearCore (s := s) h c) (coresOf q) hup.2.2.1)
  have hdown := hall.trans (cleared_setOp hall.2.2.1 (sramDomain q) (s.opOf (sramDomain q)))
  have hcs : ([] ++ (coresOf q).flatMap fun c => [c]) ++ [] = coresOf q := by
    rw [List.append_nil, List.nil_append, List.flatMap_singleton']
  rwa [hcs] at hdown

/-- Cached leaves of a partition dropped everywhere (R350). -/
theorem forgetLeaves_spec {s : State} (hs : RisingKeys s.others) (p : Nat) :
    (∃ k O H, s.forgetLeaves p = { s with core := k, others := O, hub := H }) ∧ (s.forgetLeaves p).hub.grants = s.hub.grants ∧ calm s (s.forgetLeaves p) ∧
      ∀ d, (s.coreAt d).tlb = [] → (s.forgetLeaves p).coreAt d = s.coreAt d := by
  obtain ⟨⟨k, O, honly⟩, -, hread⟩ := each_coreStep (f := fun s c => s.modCore c fun x => { x with tlb := x.tlb.filter fun l => decide (l.part ≠ p) })
    (g := fun _ x => { x with tlb := x.tlb.filter fun l => decide (l.part ≠ p) }) (upFrom_nodup 0 256) hs fun t c _ hr => coreStep_modCore hr c _
  have hcalm := calm_each (f := fun s c => s.modCore c fun x => { x with tlb := x.tlb.filter fun l => decide (l.part ≠ p) })
    (fun t c => calm_modCore t c (fun _ => rfl) fun _ => rfl) (upFrom 0 256) s
  unfold State.forgetLeaves
  dsimp only
  generalize s.each _ (upFrom 0 256) = u at honly hread hcalm ⊢
  refine ⟨?_, ?_, hcalm, fun d hd => (hread d).trans ?_⟩
  · rw [honly]; exact ⟨_, _, _, rfl⟩
  · rw [honly]; rfl
  · split
    · generalize s.coreAt d = x at hd ⊢
      cases x
      subst hd
      rfl
    · rfl

/-- A partition that has drained takes its new descriptor, its quadrants made ready (R350). -/
theorem finishDrain_spec {s : State} (hs : RisingKeys s.others) {p : Nat} (hp : p < 8) {new : PartDesc}
    (hgrant : (s.hub.grants.find? fun g => decide (g.1 = p)) = some (p, new)) (hidle : ((s.partAt p).quadsLost new).all s.quadIdle = true)
    (hwin : (s.partAt p).windowsWithin new = true ∨ s.partIdle p = true)
    (hacc : ∀ i a, (i, a) ∈ s.hub.accounts → a.st = .free ∨ (s.partAt p).hasAcct i = false ∨ new.hasAcct i = true) :
    calm s (s.finishDrain p) ∧ (s.finishDrain p).partAt p = new ∧ (∀ g ∈ (s.finishDrain p).hub.grants, g.1 ≠ p) ∧
      ∀ q ∈ (s.partAt p).quadsLost new, ∀ c ∈ coresOf q, (s.finishDrain p).coreAt c = Core.moved (s.coreAt c) := by
  have haccs : (s.accList.all fun a => decide (a.2.st = .free) || !(s.partAt p).hasAcct a.1 || new.hasAcct a.1) = true := by
    refine List.all_eq_true.2 fun ⟨i, a⟩ hm => ?_
    rcases hacc i a hm with h | h | h <;> simp [h]
  have hready : (((s.partAt p).quadsLost new).all s.quadIdle
      && (s.accList.all fun a => decide (a.2.st = .free) || !(s.partAt p).hasAcct a.1 || new.hasAcct a.1)
      && ((s.partAt p).windowsWithin new || s.partIdle p)) = true := by
    rw [hidle, haccs]
    simpa using hwin
  obtain ⟨⟨k, O, W, D, honly⟩, hcalm, hrise, hread⟩ :=
    cleared_each (fun s q h => cleared_clearQuad (s := s) h q) ((s.partAt p).quadsLost new) hs
  obtain ⟨u, hu⟩ : ∃ u, s.each State.clearQuad ((s.partAt p).quadsLost new) = u := ⟨_, rfl⟩
  rw [hu] at honly hcalm hrise hread
  obtain ⟨⟨k', O', H', fonly⟩, fgrants, fcalm, fread⟩ := forgetLeaves_spec hrise p
  obtain ⟨v, hv⟩ : ∃ v, (if (s.partAt p).windowsWithin new then u else u.forgetLeaves p) = v := ⟨_, rfl⟩
  have hgrants : v.hub.grants = s.hub.grants := by
    rw [← hv]
    split
    · rw [honly]
    · rw [fgrants, honly]
  have hvcalm : calm s v := by
    rw [← hv]
    split
    · exact hcalm
    · exact hcalm.trans fcalm
  have hmoved : ∀ q ∈ (s.partAt p).quadsLost new, ∀ c ∈ coresOf q, v.coreAt c = Core.moved (s.coreAt c) := fun q hq c hc => by
    have hin : u.coreAt c = Core.moved (s.coreAt c) := (hread c).trans (if_pos (List.mem_flatMap.2 ⟨q, hq, hc⟩))
    rw [← hv]
    split
    · exact hin
    · rw [fread c (by rw [hin]; rfl), hin]
  let w : State := v.withHub { v.hub with grants := v.hub.grants.filter fun g => decide (g.1 ≠ p) }
  have e : s.finishDrain p = w.installPart p new := by
    unfold State.finishDrain
    rw [hgrant]
    dsimp only
    rw [if_pos hready, hu, hv]
  obtain ⟨⟨H, W', xs, hinst⟩, hpart⟩ := installPart_spec w hp new
  rw [e]
  refine ⟨?_, hpart, ?_, fun q hq c hc => ?_⟩
  · rw [hinst]; exact hvcalm
  · rw [hinst]
    intro g hg
    simpa using (List.mem_filter.1 hg).2
  · rw [hinst]; exact hmoved q hq c hc

/-! ### The event buffer -/

/-- The report of a halt goes to the host and changes its port alone (R400). -/
theorem tellHalt_spec (s : State) (r : EventRec) : ∃ P, s.tellHalt r = { s with port := P } := by
  unfold State.tellHalt
  split
  · unfold State.postHost
    split
    · exact ⟨_, rfl⟩
    · obtain ⟨es, rs, e⟩ := streamEvents_spec { s with port := { s.port with events := s.port.events ++ [eventBits r] } }
      exact ⟨_, e⟩
  · exact ⟨_, rfl⟩

theorem tellHalt_events {s : State} {r : EventRec} (hr : r.code = .rangerHalt) (hroom : s.port.events.length < 256)
    (hquiet : ∀ v fs, s.port.session = some (v, fs) → fs.getLsbD 3 = false) : (s.tellHalt r).port.events = s.port.events ++ [eventBits r] := by
  unfold State.tellHalt State.postHost
  rw [if_pos hr, if_neg (Nat.not_le.2 hroom), Option.getD_some]
  unfold State.streamEvents
  dsimp only
  split
  · next v fs hsess => rw [if_neg (by rw [hquiet v fs hsess]; exact Bool.false_ne_true)]
  · rfl

theorem tellHalt_other {s : State} {r : EventRec} (hr : r.code ≠ .rangerHalt) : s.tellHalt r = s := if_neg hr

/-- The records that wait in the event buffer (R478). -/
def State.eventsWaiting (s : State) : Nat := (s.hub.placed + 2 ^ 64 - s.readNat (reservedBase + 0x10008) 8) % 2 ^ 64

/-- A record put in its place in the event buffer, the count of those made raised (R478). -/
def State.placeEvent (s : State) (r : EventRec) : State :=
  let n := (s.hub.placed + 1) % 2 ^ 64
  ((s.withHub { s.hub with placed := n }).weakPoke (reservedBase + 64 * (s.hub.placed % 1024)) (toBytes 64 (eventBits r).toNat)).weakPoke
    (reservedBase + 0x10000) (toBytes 8 n)

theorem does_eventRecordArrive (s : State) (r : EventRec) :
    let t := State.tellHalt { s with act := some (.eventRecordArrive r) } r
    Does (.eventRecordArrive r) s (if t.eventsWaiting = 1024 then t.count .eventDropped 5 0 else t.placeEvent r) := by
  intro t
  show execEventRecordArrive { s with act := some (.eventRecordArrive r) } = .next _
  unfold execEventRecordArrive
  dsimp only
  by_cases h : t.eventsWaiting = 1024
  · rw [if_pos h]
    exact if_pos h
  · rw [if_neg h]
    exact if_neg h

/-- A word of whole bytes is below the power of 256 of their number. -/
theorem toNat_lt_pow_bytes {w n : Nat} (b : BitVec w) (h : w = 8 * n) : b.toNat < 256 ^ n := by
  subst h
  rw [show (256 : Nat) = 2 ^ 8 from rfl, ← pow_mul]
  exact b.isLt

theorem placeEvent_spec (s : State) (r : EventRec) (hm : Memory.wf s.mem = true) :
    sameRegs s (s.placeEvent r) ∧ (s.placeEvent r).port = s.port ∧ (s.placeEvent r).hub.placed = (s.hub.placed + 1) % 2 ^ 64 ∧
      (s.placeEvent r).readNat (reservedBase + 64 * (s.hub.placed % 1024)) 64 = (eventBits r).toNat ∧
      (s.placeEvent r).readNat (reservedBase + 0x10000) 8 = (s.hub.placed + 1) % 2 ^ 64 ∧
      ∀ a, (a < reservedBase + 64 * (s.hub.placed % 1024) ∨ reservedBase + 64 * (s.hub.placed % 1024) + 64 ≤ a) →
        (a < reservedBase + 0x10000 ∨ reservedBase + 0x10008 ≤ a) → cellAt (s.placeEvent r).mem a = cellAt s.mem a := by
  have hplace : s.hub.placed % 1024 < 1024 := Nat.mod_lt _ (by decide)
  have hn : (s.hub.placed + 1) % 2 ^ 64 < 256 ^ 8 := (Nat.mod_lt _ (by decide)).trans_eq (by decide)
  unfold State.placeEvent
  dsimp only
  generalize (s.hub.placed + 1) % 2 ^ 64 = n at hn ⊢
  generalize s.hub.placed % 1024 = k at hplace ⊢
  generalize hb : reservedBase = base
  obtain ⟨x, hx⟩ := weakPoke_spec (s.withHub { s.hub with placed := n }) (base + 64 * k) (toBytes 64 (eventBits r).toNat)
  obtain ⟨z, hz⟩ : ∃ z, (s.withHub { s.hub with placed := n }).weakPoke (base + 64 * k) (toBytes 64 (eventBits r).toNat) = z := ⟨_, rfl⟩
  rw [hz] at hx ⊢
  have hmem : z.mem = cellsSet s.mem (base + 64 * k) (toBytes 64 (eventBits r).toNat) := by rw [hx]; rfl
  have hsame : sameRegs s z ∧ z.port = s.port ∧ z.hub.placed = n := by rw [hx]; exact ⟨⟨rfl, rfl, rfl⟩, rfl, rfl⟩
  have hwf : cellsWf z.mem = true := by rw [hmem]; exact cellsWf_cellsSet hm _ _
  obtain ⟨hregs, hport, hplaced⟩ := hsame
  obtain ⟨y, hy⟩ := weakPoke_spec z (base + 0x10000) (toBytes 8 n)
  rw [hy]
  refine ⟨hregs, hport, hplaced, ?_, ?_, fun a h1 h2 => ?_⟩
  · refine (loadNat_cellsSet_other _ (by rw [toBytes_length]; omega)).trans ?_
    rw [hmem, loadNat_cellsSet hm]
    exact Nat.mod_eq_of_lt (toNat_lt_pow_bytes (eventBits r) rfl)
  · exact (loadNat_cellsSet hwf _ _ _).trans (Nat.mod_eq_of_lt hn)
  · refine (cellAt_cellsSet_other _ _ (by rw [toBytes_length]; omega)).trans ?_
    rw [hmem]
    exact cellAt_cellsSet_other _ _ (by rw [toBytes_length]; omega)

theorem arrive_port (s : State) (r : EventRec) :
    ∃ t, Does (.eventRecordArrive r) s t ∧ t.port = (State.tellHalt { s with act := some (.eventRecordArrive r) } r).port := by
  have hrun := does_eventRecordArrive s r
  dsimp only at hrun
  generalize State.tellHalt { s with act := some (.eventRecordArrive r) } r = t at hrun ⊢
  refine ⟨_, hrun, ?_⟩
  split
  · rfl
  · unfold State.placeEvent
    dsimp only
    obtain ⟨x, hx⟩ := weakPoke_spec (t.withHub { t.hub with placed := (t.hub.placed + 1) % 2 ^ 64 }) (reservedBase + 64 * (t.hub.placed % 1024))
      (toBytes 64 (eventBits r).toNat)
    rw [hx]
    generalize hz : State.mk _ _ _ _ _ _ _ _ _ _ _ _ = z
    obtain ⟨y, hy⟩ := weakPoke_spec z (reservedBase + 0x10000) (toBytes 8 ((t.hub.placed + 1) % 2 ^ 64))
    rw [hy, ← hz]
    rfl

theorem ite_prop {p A B : Prop} [Decidable p] (ha : p → A) (hb : ¬ p → B) : if p then A else B := by
  split
  · exact ha ‹_›
  · exact hb ‹_›

/-- The state in which a record arrives, the host told of a halt. -/
theorem arrives (s : State) (r : EventRec) :
    ∃ t : State, (∃ P, t = { s with act := some (.eventRecordArrive r), port := P }) ∧ t.eventsWaiting = s.eventsWaiting ∧
      Does (.eventRecordArrive r) s (if t.eventsWaiting = 1024 then t.count .eventDropped 5 0 else t.placeEvent r) := by
  have hrun := does_eventRecordArrive s r
  dsimp only at hrun
  obtain ⟨P, hP⟩ := tellHalt_spec { s with act := some (.eventRecordArrive r) } r
  rw [hP] at hrun
  exact ⟨_, ⟨P, rfl⟩, rfl, hrun⟩

/-- A record is dropped and counted where 1,024 wait (R478). -/
theorem arrive_full {s : State} (r : EventRec) (hfull : s.eventsWaiting = 1024) :
    ∃ t, Does (.eventRecordArrive r) s t ∧ calm s t ∧
      (NatMap.findD 0#32 (counterKey 0x0093#16 5 0) s.hub.counters ≠ 0xFFFFFFFF#32 →
        NatMap.findD 0#32 (counterKey 0x0093#16 5 0) t.hub.counters = NatMap.findD 0#32 (counterKey 0x0093#16 5 0) s.hub.counters + 1#32) := by
  obtain ⟨t, ⟨P, ht⟩, hsame, hrun⟩ := arrives s r
  rw [if_pos (hsame.trans hfull)] at hrun
  obtain ⟨hcalm, hcount⟩ := count_spec t .eventDropped 5 0
  subst ht
  exact ⟨_, hrun, hcalm, fun hne => hcount.trans (if_neg hne)⟩

/-- A record takes its place where fewer wait (R478). -/
theorem arrive_room {s : State} (r : EventRec) (hm : Memory.wf s.mem = true) (hroom : s.eventsWaiting ≠ 1024) :
    ∃ t, Does (.eventRecordArrive r) s t ∧ sameRegs s t ∧ t.readNat (reservedBase + 64 * (s.hub.placed % 1024)) 64 = (eventBits r).toNat ∧
      t.hub.placed = (s.hub.placed + 1) % 2 ^ 64 ∧ t.readNat (reservedBase + 0x10000) 8 = (s.hub.placed + 1) % 2 ^ 64 ∧
      ∀ a, (a < reservedBase + 64 * (s.hub.placed % 1024) ∨ reservedBase + 64 * (s.hub.placed % 1024) + 64 ≤ a) →
        (a < reservedBase + 0x10000 ∨ reservedBase + 0x10008 ≤ a) → cellAt t.mem a = cellAt s.mem a := by
  obtain ⟨t, ⟨P, ht⟩, hsame, hrun⟩ := arrives s r
  rw [if_neg (hsame.trans_ne hroom)] at hrun
  obtain ⟨hregs, -, hplaced, hread, hprod, hrest⟩ := placeEvent_spec t r (by rw [ht]; exact hm)
  subst ht
  exact ⟨_, hrun, hregs, hread, hplaced, hprod, hrest⟩

/-! ### Invalidations -/

theorem ackInval_calm (s : State) (k : Nat) : calm s (s.ackInval k) := by
  unfold State.ackInval
  dsimp only
  split
  · exact calm_refl s
  · exact calm_refl s

/-- A stack that has nothing to replay acknowledges an invalidation, and one that has waits (R364). -/
theorem ackInval_spec (s : State) (k : Nat) :
    ((8 ≤ k ∨ ∀ v ∈ s.hub.inval, ∀ c, 32 * k ≤ c → c < 32 * k + 32 → c ≠ v.core → (s.coreAt c).xlinvHit = false) →
      (s.ackInval k).hub.inval = (s.hub.inval.map fun v => { v with holders := v.holders.erase k }).filter fun v => !v.holders.isEmpty) ∧
    ∀ v ∈ s.hub.inval, ∀ c, k < 8 → 32 * k ≤ c → c < 32 * k + 32 → c ≠ v.core → (s.coreAt c).xlinvHit = true → k ∈ v.holders →
      v ∈ (s.ackInval k).hub.inval ∧ Action.xlinvAck k ∈ (s.ackInval k).due := by
  let busy (v : Inval) : Bool := (upFrom (32 * k) 32).any fun c => decide (k < 8) && decide (c ≠ v.core) && (s.coreAt c).xlinvHit
  let vs := (s.hub.inval.map fun v => if busy v then v else { v with holders := v.holders.erase k }).filter fun v => !v.holders.isEmpty
  have hinval : (s.ackInval k).hub.inval = vs := by
    unfold State.ackInval
    dsimp only
    split <;> rfl
  have hrange (c : Nat) : c ∈ upFrom (32 * k) 32 ↔ 32 * k ≤ c ∧ c < 32 * k + 32 := by rw [upFrom_eq_range', List.mem_range'_1]
  refine ⟨fun hfree => ?_, fun v hv c hk hlo hhi hne hhit hin => ?_⟩
  · rw [hinval]
    have hidle : ∀ v ∈ s.hub.inval, busy v = false := fun v hv => by
      refine List.any_eq_false.2 fun c hc => ?_
      obtain ⟨hlo, hhi⟩ := (hrange c).1 hc
      rcases hfree with h8 | hnone
      · simp [Nat.not_lt.2 h8]
      · by_cases hc : c = v.core
        · simp [hc]
        · simp [hnone v hv c hlo hhi hc]
    refine congrArg (List.filter _) (List.map_congr_left fun v hv => ?_)
    rw [hidle v hv]
    rfl
  · have hbusy : busy v = true := List.any_eq_true.2 ⟨c, (hrange c).2 ⟨hlo, hhi⟩, by simp [hk, hne, hhit]⟩
    have hmem : v ∈ vs := by
      refine List.mem_filter.2 ⟨List.mem_map.2 ⟨v, hv, if_pos hbusy⟩, ?_⟩
      rw [Bool.not_eq_true', List.isEmpty_eq_false_iff]
      exact List.ne_nil_of_mem hin
    refine ⟨by rw [hinval]; exact hmem, ?_⟩
    have hwait : (vs.any fun v => v.holders.contains k) = true := List.any_eq_true.2 ⟨v, hmem, List.contains_iff_mem.2 hin⟩
    rw [show s.ackInval k = _ from if_pos hwait]
    exact mem_due_addDue (List.mem_singleton_self _)

/-- Settles O44: each action of the hub changes the record that its rule names and leaves registers alone. -/
theorem hubActionResults : Obligations.HubActionResults := by
  unfold Obligations.HubActionResults
  intro s hs
  refine ⟨?tick, fun r touched wrote since hr => ?region, fun i e hi => ?art, fun c va l hva hmiss hwalk hroom hdir => ?walk, fun k => ?ack,
    fun w slice syn => ⟨?good, ?corrected, ?bad⟩, fun p new hp hgrant hidle hwin hacc => ?drain, fun e hm => ⟨fun he hroom hquiet => ?halt, fun he => ?other, ?event⟩⟩
  case tick =>
    let s1 : State := { s with act := some .ptsTick }
    by_cases hlate : s.time / 64 ≤ s.hub.ticks
    · have hnot : ¬ s.hub.ticks < s.time / 64 := Nat.not_lt.2 hlate
      refine ⟨s1.addDue [.ptsTick], if_pos hlate, calm_refl s, mem_due_addDue (List.mem_singleton_self _), ?_, fun c _ => ?_⟩
      · rw [if_neg hnot]; rfl
      · rw [if_neg fun h => hnot h.1]; rfl
    · have hlt : s.hub.ticks < s.time / 64 := Nat.not_le.1 hlate
      obtain ⟨⟨k, O, honly⟩, hcalm, hread⟩ := tickAll_spec (s := s1.withHub { s.hub with ticks := s.time / 64 }) hs
      have hrun : Does .ptsTick s ((State.each (s1.withHub { s.hub with ticks := s.time / 64 }) _ (upFrom 0 257)).addDue [.ptsTick]) := if_neg hlate
      generalize State.each (s1.withHub { s.hub with ticks := s.time / 64 }) _ (upFrom 0 257) = u at honly hcalm hread hrun
      refine ⟨_, hrun, hcalm, mem_due_addDue (List.mem_singleton_self _), ?_, fun c hc => (hread c hc).trans ?_⟩
      · rw [if_pos hlt]
        exact congrArg State.hub honly
      · refine if_congr ?_ rfl rfl
        show ((s.coreAt c).unit.isSome || (decide (c = rangerId) && decide (s.port.boot = .running))) = true ↔ _
        rw [Bool.or_eq_true, Bool.and_eq_true, decide_eq_true_eq, decide_eq_true_eq]
        exact ⟨fun h => ⟨hlt, h⟩, fun h => h.2⟩
  case region =>
    obtain ⟨hcalm, hfind⟩ := ftTimeout_spec (s := { s with act := some (.regionFtTimeout r) }) hr
    exact ⟨_, rfl, hcalm, hfind⟩
  case art =>
    let s1 : State := ({ s with act := some (.artUpdateEffect i e) } : State).withHub { s.hub with art := vput s.hub.art i e }
    by_cases hbad : (e.getLsbD 0 && !artValid e) = true
    · refine ⟨_, congrArg Host.Outcome.next (if_pos hbad), calm_refl s, fun k hk => vget_vput _ _ _ hi, fun _ _ => ⟨_, mem_due_addDue (List.mem_singleton_self _), rfl⟩⟩
    · refine ⟨s1, congrArg Host.Outcome.next (if_neg hbad), calm_refl s, fun k hk => vget_vput _ _ _ hi, fun hv hnot => absurd ?_ hbad⟩
      rw [hnot, show e.getLsbD 0 = true from hv]
      rfl
  case walk =>
    let s1 : State := { s with act := some (.translationWalk c va) }
    have hrun : Does (.translationWalk c va) s ((s1.installLeaf c l).noteWalk (stackOf c) (s.coreAt c).part va.toNat) := by
      refine walk_run (s := s1) (c := c) (va := va) (l := l) rfl ?_
      unfold State.leafFor
      rw [if_neg (not_not.2 hva), show cachedLeaf (s1.coreAt c).tlb (s1.coreAt c).part va.toNat = none from hmiss]
      dsimp only
      rw [show s1.walk (s1.coreAt c).part va = some l from hwalk]
      rfl
    obtain ⟨hcalm, htlb, hdir⟩ := installLeaf_spec (s := s1) hs (l := l) hroom hdir
    obtain ⟨r, hr, hspec⟩ := mem_addHolder l (stackOf c) s.hub.tdir
    refine ⟨_, hrun, hcalm, htlb, r, ?_, hspec⟩
    show r ∈ (s1.installLeaf c l).hub.tdir
    rw [hdir]
    exact hr
  case ack =>
    obtain ⟨hall, hbusy⟩ := ackInval_spec { s with act := some (.xlinvAck k) } k
    exact ⟨_, rfl, ackInval_calm { s with act := some (.xlinvAck k) } k, hall, hbusy⟩
  case good => exact ⟨_, rfl, calm_refl s, rfl, rfl⟩
  case corrected =>
    let s1 : State := { s with act := some (.scrub w slice 1 syn) }
    obtain ⟨hcalm, hcount⟩ := count_spec s1 .eccCorrected (s1.scrubSite w slice).1 (s1.scrubSite w slice).2
    refine ⟨_, rfl, hcalm, ?_⟩
    cases slice
    · exact hcount
    · exact hcount
  case bad =>
    obtain ⟨hcalm, hbad, r, hr, hcode, hsrc⟩ := scrubBad_spec { s with act := some (.scrub w slice 2 syn) } w slice syn
    have hrun : Does (.scrub w slice 2 syn) s _ := rfl
    generalize State.scrubBad { s with act := some (.scrub w slice 2 syn) } w slice syn = u at hcalm hbad hr hrun
    exact ⟨_, hrun, hcalm, hbad, r, List.mem_append_left _ hr, hcode, hsrc⟩
  case drain =>
    obtain ⟨hcalm, hpart, hgrants, hmoved⟩ := finishDrain_spec (s := { s with act := some (.drainComplete p) }) hs hp hgrant hidle hwin hacc
    have hrun : Does (.drainComplete p) s (State.finishDrain { s with act := some (.drainComplete p) } p) := rfl
    generalize State.finishDrain { s with act := some (.drainComplete p) } p = u at hcalm hpart hgrants hmoved hrun
    exact ⟨_, hrun, hcalm, hpart, hgrants, hmoved⟩
  case halt =>
    obtain ⟨t, hrun, hport⟩ := arrive_port s e
    refine ⟨t, hrun, ?_⟩
    rw [hport]
    exact tellHalt_events (s := { s with act := some (.eventRecordArrive e) }) he hroom hquiet
  case other =>
    obtain ⟨t, hrun, hport⟩ := arrive_port s e
    refine ⟨t, hrun, ?_⟩
    rw [hport, tellHalt_other he]
  case event =>
    dsimp only
    generalize hn : (s.hub.placed + 2 ^ 64 - s.readNat (reservedBase + 0x10008) 8) % 2 ^ 64 = n
    exact ite_prop (fun h => arrive_full e (hn.trans h)) fun h => arrive_room e hm (hn.trans_ne h)

end Sys2Proof.Machine
end

section
set_option Elab.async false
/-! Voltage steps, evacuation and the limits of current and temperature (R274, R370, R375 to R379, R384, R386). -/

namespace Sys2Proof.Machine

/-! ### Operating points and steps, read back -/

theorem opOf_setOp {s : State} (h : RisingKeys s.power.op) (d e k : Nat) : (s.setOp d k).opOf e = if e = d then k else s.opOf e :=
  NatMap.findD_putD h 0 e d k

theorem stepOf_modStep {s : State} {d : Nat} {st : Step} (h : s.stepOf d = some st) (f : Step → Step) :
    (s.modStep d f).stepOf d = some (f st) ∧ ∃ S, s.modStep d f = { s with power := { s.power with steps := S } } := by
  unfold State.modStep
  rw [h]
  exact ⟨NatMap.find_put_self .., _, rfl⟩

theorem takeHeld_none {s : State} {d : Nat} (h : NatMap.find d s.power.waiting = none) : s.takeHeld d = s := by
  unfold State.takeHeld
  rw [h]

/-! ### Logic domains -/

/-- Only what is to come of the domain's own step is called off. -/
theorem not_mem_dropLogic (s : State) (d j : Nat) : Action.logicStep d j ∉ (s.dropLogic d).due := fun h => by
  have := (List.mem_filter.1 h).2
  simp at this

/-- Combiners flushed: each is empty, and its entries go home (R274). -/
theorem flushAll_spec (cs : List Nat) (s : State) (hcs : cs.Nodup) :
    let t := s.each State.flushComb cs
    HubDue s t ∧ (∀ a ∈ t.due, a ∈ s.due ∨ ∃ r, a = .returnArrive r) ∧ Grows s t ∧
      (RisingKeys s.hub.combs → (∀ e ∈ cs, t.combAt e = [] ∧ ∀ r ∈ s.combAt e, Action.returnArrive r.ret ∈ t.due) ∧ ∀ e ∉ cs, t.combAt e = s.combAt e) := by
  induction cs generalizing s with
  | nil => exact ⟨⟨_, _, rfl⟩, fun a ha => .inl ha, .refl s, fun _ => ⟨nofun, fun _ _ => rfl⟩⟩
  | cons c cs ih =>
    obtain ⟨hc, hnd⟩ := List.nodup_cons.1 hcs
    have hgrow : Grows s (s.flushComb c) := ⟨_, rfl⟩
    have hmem {a : Action} (ha : a ∈ (s.flushComb c).due) : a ∈ s.due ∨ ∃ r, a = .returnArrive r := by
      rcases List.mem_append.1 ha with h | h
      · exact .inl h
      · obtain ⟨e, -, rfl⟩ := List.mem_map.1 h
        exact .inr ⟨_, rfl⟩
    obtain ⟨⟨h, xs, honly⟩, hdue, hgrows, hread⟩ := ih (s.flushComb c) hnd
    refine ⟨⟨h, xs, honly⟩, fun a ha => (hdue a ha).elim hmem .inr, hgrow.trans hgrows, fun hrise => ?_⟩
    have hone (e : Nat) : (s.flushComb c).combAt e = if e = c then [] else s.combAt e := NatMap.findD_putD hrise [] e c []
    obtain ⟨hin, hout⟩ := hread (hrise.putD [] c [])
    refine ⟨fun e he => ?_, fun e he => ?_⟩
    · by_cases hec : e = c
      · subst hec
        refine ⟨(hout e hc).trans ((hone e).trans (if_pos rfl)), fun r hr => hgrows.mem ?_⟩
        exact mem_due_addDue (List.mem_map_of_mem hr)
      · obtain ⟨h1, h2⟩ := hin e ((List.mem_cons.1 he).resolve_left hec)
        rw [hone, if_neg hec] at h2
        exact ⟨h1, h2⟩
    · rw [List.mem_cons, not_or] at he
      rw [show State.each s _ (c :: cs) = (s.flushComb c).each State.flushComb cs from rfl, hout e he.2, hone, if_neg he.1]

theorem coresOfDomain_nodup (d : Nat) : (coresOfDomain d).Nodup := by
  unfold coresOfDomain
  split
  · exact upFrom_nodup _ _
  · exact List.nodup_nil

/-- A logic domain at its new point (R370). -/
theorem stepLogic_spec {s : State} (hop : RisingKeys s.power.op) (d k : Nat) :
    let t := s.stepLogic d k
    calm s t ∧ (∀ e, t.opOf e = if e = d then k else s.opOf e) ∧ (isLogic d = true → k ≠ 7 → quadOfDomain d ∉ t.power.boost) ∧
      (∀ j, Action.logicStep d j ∉ t.due) ∧ (∀ a ∈ (s.dropLogic d).due, a ∈ t.due) ∧ t.power.ceil = s.power.ceil ∧
      (s.opOf d ≠ k → RisingKeys s.hub.combs → ∀ e ∈ coresOfDomain d, t.combAt e = [] ∧ ∀ r ∈ s.combAt e, Action.returnArrive r.ret ∈ t.due) := by
  let s1 : State := (s.dropLogic d).setOp d k
  obtain ⟨s2, h2⟩ : ∃ u, (if isLogic d ∧ k ≠ 7 then s1.withPower { s1.power with boost := withNum false (quadOfDomain d) s1.power.boost } else s1) = u := ⟨_, rfl⟩
  have hs2 : s2.mem = s.mem ∧ s2.cur = s.cur ∧ s2.core = s.core ∧ s2.hub = s.hub ∧ s2.due = (s.dropLogic d).due ∧ s2.power.op = s1.power.op ∧
      s2.power.ceil = s.power.ceil ∧ (isLogic d = true → k ≠ 7 → quadOfDomain d ∉ s2.power.boost) := by
    rw [← h2]
    split
    · refine ⟨rfl, rfl, rfl, rfl, rfl, rfl, rfl, fun _ _ h => ?_⟩
      simpa using (List.mem_filter.1 h).2
    · next hno => exact ⟨rfl, rfl, rfl, rfl, rfl, rfl, rfl, fun h1 h2 => absurd ⟨h1, h2⟩ hno⟩
  obtain ⟨hmem, hcur, hcore, hhub, hdue, hops, hceil, hboost⟩ := hs2
  obtain ⟨t, ht⟩ : ∃ t, (if s.opOf d = k then s2 else s2.each State.flushComb (coresOfDomain d)) = t := ⟨_, rfl⟩
  have hstep : s.stepLogic d k = t := by
    rw [← ht, ← h2]
    rfl
  obtain ⟨hflush, hfdue, hfgrows, hfread⟩ := flushAll_spec (coresOfDomain d) s2 (coresOfDomain_nodup d)
  have hhd : HubDue s2 t := by
    rw [← ht]
    split
    · exact ⟨_, _, rfl⟩
    · exact hflush
  have hin : ∀ a ∈ t.due, a ∈ s2.due ∨ ∃ r, a = .returnArrive r := by
    rw [← ht]
    split
    · exact fun a ha => .inl ha
    · exact hfdue
  have hgrow : Grows s2 t := by
    rw [← ht]
    split
    · exact .refl s2
    · exact hfgrows
  have hpow : t.power = s2.power := by obtain ⟨_, _, rfl⟩ := hhd; rfl
  obtain ⟨kmem, kcur, karch, kshadow⟩ := hhd.calm
  intro u
  rw [show u = t from hstep]
  refine ⟨⟨kmem.trans hmem, kcur.trans hcur, by rw [karch, hcore], by rw [kshadow, hcore]⟩, fun e => ?_, ?_, fun j hj => ?_, fun a ha => hgrow.mem (by rwa [hdue]),
    by rw [hpow]; exact hceil, fun hne hrise => ?_⟩
  · unfold State.opOf
    rw [hpow, hops]
    exact opOf_setOp (s := s.dropLogic d) hop d e k
  · rw [hpow]; exact hboost
  · rcases hin _ hj with h | ⟨r, h⟩
    · rw [hdue] at h
      exact not_mem_dropLogic s d j h
    · cases h
  · rw [if_neg hne] at ht
    rw [← ht]
    obtain ⟨hread, -⟩ := hfread (by rw [hhub]; exact hrise)
    have hcomb (e : Nat) : s2.combAt e = s.combAt e := by unfold State.combAt; rw [hhub]
    intro e he
    obtain ⟨h1, h2⟩ := hread e he
    rw [hcomb] at h2
    exact ⟨h1, h2⟩

/-! ### Entries answered -/

theorem runsOn_congr {s t : State} (hu : t.hub.units = s.hub.units) (hc : ∀ c, (t.coreAt c).unit = (s.coreAt c).unit) (u : Nat) : t.runsOn u = s.runsOn u := by
  unfold State.runsOn State.unitAt
  rw [hu]
  simp only [hc]

/-- The entry of a running unit is filled on its core (R405). -/
theorem answer_running {s : State} {u c : Nat} (h : s.runsOn u = some c) (id : Nat) (v : Word) : s.answer u id v = s.modCore c fun x => x.answered id v := by
  unfold State.answer
  rw [h]
  rfl

theorem coreStep_unit {s t : State} {c : Nat} {g : Core → Core} (h : CoreStep s t c g) (hg : ∀ x, (g x).unit = x.unit) (e : Nat) :
    (t.coreAt e).unit = (s.coreAt e).unit := by
  obtain ⟨-, -, hread⟩ := h
  rw [hread]
  split
  · exact hg _
  · rfl

/-- The entries of running units filled with one value: sequencers alone change, and no register. -/
theorem answerAll_running (v : Word) (es : List (Nat × Nat)) {s : State} (hs : RisingKeys s.others) (h : ∀ e ∈ es, (s.runsOn e.1).isSome = true) :
    CoresOnly s (s.answerAll v es) ∧ calm s (s.answerAll v es) := by
  induction es generalizing s with
  | nil => exact ⟨.refl s, calm_refl s⟩
  | cons e es ih =>
    obtain ⟨c, hc⟩ := Option.isSome_iff_exists.1 (h e (List.mem_cons_self ..))
    have hans := answer_running hc e.2 v
    have hstep := coreStep_modCore hs c fun x => x.answered e.2 v
    have hcalm := calm_modCore s c (f := fun x => x.answered e.2 v) (fun _ => rfl) fun _ => rfl
    have hunit := coreStep_unit hstep fun _ => rfl
    obtain ⟨honly, hrise, -⟩ := hstep
    have hruns (u : Nat) := runsOn_congr (show (s.modCore c fun x => x.answered e.2 v).hub.units = s.hub.units by
      obtain ⟨_, _, heq⟩ := honly; rw [heq]) hunit u
    obtain ⟨ionly, icalm⟩ := ih hrise fun k hk => by rw [hruns]; exact h k (List.mem_cons_of_mem e hk)
    unfold State.answerAll
    rw [hans]
    exact ⟨honly.trans ionly, hcalm.trans icalm⟩

/-! ### SRAM domains -/

/-- A voltage that has risen is the point of its domain (R375). -/
theorem upstep_spec {s : State} (hs : RisingKeys s.others) (hop : RisingKeys s.power.op) (hups : RisingKeys s.power.ups) {d k : Nat} {n : Nudge}
    (hk : s.opOf d < k) (hn : NatMap.find d s.power.ups = some n) (hw : NatMap.find d s.power.waiting = none)
    (hruns : ∀ e ∈ n.entries, (s.runsOn e.1).isSome = true) :
    let t := s.upstep d k
    calm s t ∧ t.opOf d = k ∧ NatMap.find d t.power.ups = none ∧ (∀ e ∈ coresOfDomain d, Action.unitAdmit e ∈ t.due) ∧
      ∀ u id c, n.entries = [(u, id)] → s.runsOn u = some c → ∀ i < 8,
        (vget {} (t.coreAt c).q i).entries = fillId id (rvEntry 0 k) (vget {} (s.coreAt c).q i).entries := by
  let s1 : State := (s.setOp d k).withPower { (s.setOp d k).power with ups := NatMap.del d s.power.ups }
  obtain ⟨⟨K, O, honly⟩, hcalm⟩ := answerAll_running (rvEntry 0 k) n.entries (s := s1) hs hruns
  obtain ⟨u1, hu1⟩ : ∃ u, s1.answerAll (rvEntry 0 k) n.entries = u := ⟨_, rfl⟩
  have hup : s.upstep d k = (u1.retest d).retestLaunches := by
    unfold State.upstep
    rw [if_neg (Nat.not_le.2 hk), hn]
    dsimp only [Option.map_some, Option.getD_some]
    rw [show State.answerAll _ (rvEntry 0 k) n.entries = u1 from hu1]
    refine takeHeld_none ?_
    show NatMap.find d u1.power.waiting = none
    rw [← hu1, honly]
    exact hw
  rw [hu1] at honly hcalm
  intro t
  rw [show t = _ from hup]
  have hpow : u1.power = s1.power := by rw [honly]
  refine ⟨hcalm, ?_, ?_, fun e he => ?_, fun u id c hes hc i hi => ?_⟩
  · show NatMap.findD 0 d u1.power.op = k
    rw [hpow]
    exact (opOf_setOp hop d d k).trans (if_pos rfl)
  · show NatMap.find d u1.power.ups = none
    rw [hpow]
    exact NatMap.find_del_self hups
  · exact List.mem_append_left _ (mem_due_addDue (List.mem_map_of_mem he))
  · have hans : u1 = s1.modCore c fun x => x.answered id (rvEntry 0 k) := by
      rw [← hu1, hes]
      exact answer_running (s := s1) hc id _
    obtain ⟨-, -, hread⟩ := coreStep_modCore (s := s1) hs c fun x => x.answered id (rvEntry 0 k)
    have hcore : u1.coreAt c = (s.coreAt c).answered id (rvEntry 0 k) := by
      rw [hans, hread, if_pos rfl]
      rfl
    have hget := vget_vmap (n := 8) ({} : Queue) ({} : Queue)
      (fun y => { entries := fillId id (rvEntry 0 k) y.entries, retained := fillId id (rvEntry 0 k) y.retained }) (s.coreAt c).q hi
    show (vget {} (u1.coreAt c).q i).entries = _
    rw [hcore]
    exact congrArg Queue.entries hget

theorem unpreempt_calm (s : State) (c : Nat) : calm s (s.unpreempt c) := by
  refine calm_modCore s c (fun x => ?_) fun x => ?_
  · split <;> rfl
  · split <;> rfl

theorem coresOnly_each {f : State → Nat → State} (h : ∀ s i, CoresOnly s (f s i)) (is : List Nat) (s : State) : CoresOnly s (s.each f is) := by
  induction is generalizing s with
  | nil => exact .refl s
  | cons i is ih => exact (h s i).trans (ih _)

/-- The end of a step that no EVAC waits for (R376). -/
theorem endStep_spec {s : State} (hst : RisingKeys s.power.steps) {d : Nat} {st : Step} (h : s.stepOf d = some st) (he : st.evacs = []) :
    calm s (s.endStep d) ∧ (s.endStep d).power = { s.power with steps := NatMap.del d s.power.steps } ∧ (s.endStep d).due = s.due ∧
      (s.endStep d).stepOf d = none := by
  let s1 : State := s.withPower { s.power with steps := NatMap.del d s.power.steps }
  have e : s.endStep d = s1.each State.unpreempt (coresOfDomain d) := by
    unfold State.endStep
    rw [h]
    dsimp only
    rw [he]
    rfl
  have hcalm := calm_each unpreempt_calm (coresOfDomain d) s1
  obtain ⟨K, O, honly⟩ := coresOnly_each (fun s c => coresOnly_setCore s c _) (coresOfDomain d) (f := State.unpreempt) s1
  rw [e]
  refine ⟨hcalm, by rw [honly]; rfl, by rw [honly]; rfl, ?_⟩
  rw [honly]
  exact NatMap.find_del_self hst

/-- A voltage that has settled is the point of its domain, and ends a step whose target it reaches (R376). -/
theorem settle_done {s : State} (hop : RisingKeys s.power.op) (hsteps : RisingKeys s.power.steps) {d : Nat} {st : Step} {n : Nudge}
    (hst : s.stepOf d = some st) (hset : st.settling = some n) (hev : st.evacs = []) (hen : n.entries = []) (hw : NatMap.find d s.power.waiting = none)
    (hfree : s.rowBlocked d n.point = false) :
    let t := s.settleStep d
    calm s t ∧ t.opOf d = n.point ∧ (∀ e ∈ coresOfDomain d, Action.unitAdmit e ∈ t.due) ∧
      t.stepOf d = if st.target < n.point then some { st with settling := none } else none := by
  obtain ⟨hmod, S, hS⟩ := stepOf_modStep hst fun t => { t with settling := none }
  let s1 : State := (s.modStep d fun t => { t with settling := none }).setOp d n.point
  have hops : s1.opOf d = n.point := by
    show ((s.modStep d fun t => { t with settling := none }).setOp d n.point).opOf d = n.point
    rw [hS]
    exact (opOf_setOp hop d d n.point).trans (if_pos rfl)
  have hs1 : s1.stepOf d = some { st with settling := none } := hmod
  have hcalm : calm s s1 := by
    show calm s ((s.modStep d fun t => { t with settling := none }).setOp d n.point)
    rw [hS]
    exact calm_refl s
  have hwait : NatMap.find d s1.power.waiting = none := by
    show NatMap.find d (s.modStep d fun t => { t with settling := none }).power.waiting = none
    rw [hS]
    exact hw
  have hrise : RisingKeys s1.power.steps := by
    show RisingKeys (s.modStep d fun t => { t with settling := none }).power.steps
    unfold State.modStep
    rw [hst]
    exact hsteps.put d _
  have hsettle : s.settleStep d =
      if st.target < n.point then s1.retest d else ((s1.endStep d).retest d).takeHeld d := by
    unfold State.settleStep
    rw [hst]
    dsimp only
    rw [hset]
    dsimp only
    rw [hfree, if_neg Bool.false_ne_true, hen]
    by_cases hm : st.target < n.point
    · rw [if_pos hm, decide_eq_true hm]
      rfl
    · rw [if_neg hm, decide_eq_false hm]
      rfl
  intro t
  rw [show t = _ from hsettle]
  split
  · exact ⟨hcalm, hops, fun e he => mem_due_addDue (List.mem_map_of_mem he), hs1⟩
  · obtain ⟨ecalm, epow, -, estep⟩ := endStep_spec hrise hs1 hev
    have hheld : ((s1.endStep d).retest d).takeHeld d = (s1.endStep d).retest d := takeHeld_none (by
      show NatMap.find d (s1.endStep d).power.waiting = none
      rw [epow]
      exact hwait)
    rw [hheld]
    refine ⟨hcalm.trans ecalm, ?_, fun e he => mem_due_addDue (List.mem_map_of_mem he), estep⟩
    show NatMap.findD 0 d (s1.endStep d).power.op = n.point
    rw [epow]
    exact hops

/-- A row in use above the point keeps the voltage where it is (R378). -/
theorem settle_blocked {s : State} {d : Nat} {st : Step} {n : Nudge} (hst : s.stepOf d = some st) (hset : st.settling = some n) (hen : n.entries = [])
    (hblocked : s.rowBlocked d n.point = true) :
    calm s (s.settleStep d) ∧ (s.settleStep d).opOf d = s.opOf d ∧ (s.settleStep d).stepOf d = some { st with settling := none } := by
  obtain ⟨hmod, S, hS⟩ := stepOf_modStep hst fun t => { t with settling := none }
  have hsettle : s.settleStep d = s.modStep d fun t => { t with settling := none } := by
    unfold State.settleStep
    rw [hst]
    dsimp only
    rw [hset]
    dsimp only
    rw [hblocked, if_pos rfl, hen]
    rfl
  rw [hsettle]
  refine ⟨?_, ?_, hmod⟩
  · rw [hS]; exact calm_refl s
  · rw [hS]; rfl

/-! ### Rows moved -/

/-- A line with no weak byte has nothing to write back (R202). -/
theorem writeBack_clean (s : State) (u : Nat) (ls : List (Nat × StashLine)) (h : ∀ l ∈ ls, l.2.mask = 0#64) : s.writeBack u 0xFF#8 ls = s := by
  induction ls generalizing s with
  | nil => rfl
  | cons l ls ih =>
    have hl : l.2.weak 0xFF#8 = 0#64 := h l (List.mem_cons_self ..)
    unfold State.writeBack
    dsimp only
    rw [if_pos hl]
    exact ih s fun k hk => h k (List.mem_cons_of_mem l hk)

/-- The lines of a row go home before it is copied (R202). -/
theorem flushRow_spec (s : State) (c row : Nat) :
    WriteBackOnly s (s.flushRow c row) ∧ ((∀ h ∈ s.holders c, ∀ l ∈ (s.padOf h.1).lines, l.2.mask = 0#64) → s.flushRow c row = s) := by
  unfold State.flushRow
  cases hfind : (s.holders c).find? fun u => decide (u.2.rowBase ≤ row) && decide (row < u.2.rowBase + u.2.rows) with
  | none => exact ⟨.refl s, fun _ => rfl⟩
  | some h =>
    obtain ⟨u, x⟩ := h
    dsimp only
    split
    · exact ⟨.refl s, fun _ => rfl⟩
    · refine ⟨(writeBackOnly_writeBack ..).1, fun hclean => writeBack_clean s u _ fun l hl => ?_⟩
      exact hclean _ (List.mem_of_find?_eq_some hfind) l (List.mem_of_mem_filter hl)

/-- The table has a remapped row at its new place (R373). -/
theorem find_remapRow {s : State} {c row r : Nat} (hne : s.physRow c row ≠ r) : NatMap.find (c * 8192 + row) (s.remapRow c row r).power.remap = some r := by
  unfold State.remapRow
  dsimp only [State.withPower]
  cases hfind : (upFrom 0 8192).find? fun i => decide (s.physRow c i = r) with
  | none => exact NatMap.find_put_self ..
  | some i =>
    have hi := List.find?_some hfind
    have hkey : c * 8192 + row ≠ c * 8192 + i := fun h => hne (by rw [show row = i by omega]; exact of_decide_eq_true hi)
    exact (NatMap.find_put_ne hkey _ _).trans (NatMap.find_put_self ..)

theorem evacNext_spec {s : State} {d : Nat} {st : Step} (h : s.stepOf d = some st) (he : st.evacs = []) (k : Nat) :
    ∃ S xs u, s.evacNext d k = { s with power := { s.power with steps := S }, due := xs } ∧ (s.evacNext d k).stepOf d = some u ∧ u.moved = st.moved ∧
      u.target = st.target := by
  unfold State.evacNext
  split
  · exact ⟨_, _, st, rfl, h, rfl, rfl⟩
  · obtain ⟨hmod, S, hS⟩ := stepOf_modStep h fun t => { t with out := true, evacs := [] }
    have e : s.evacDone d = s.modStep d fun t => { t with out := true, evacs := [] } := by
      unfold State.evacDone
      rw [h]
      dsimp only
      rw [he]
      rfl
    rw [e]
    exact ⟨S, _, _, hS, hmod, rfl, rfl⟩

/-- A row above the target moves to a free row under it (R376, R377). -/
theorem moveRow_spec {s : State} {c row r : Nat} {st : Step} (hst : s.stepOf (sramDomain (quadOf c)) = some st) (hev : st.evacs = []) (hfit : st.fitted = true)
    (habove : st.target < s.floorOf c (s.physRow c row)) (hr : s.freePhys c st.target = some r) :
    ∃ u, sameRegs s (s.moveRow c row) ∧ ((∀ h ∈ s.holders c, ∀ l ∈ (s.padOf h.1).lines, l.2.mask = 0#64) → (s.moveRow c row).mem = s.mem) ∧
      (s.moveRow c row).physRow c row = r ∧ s.floorOf c r ≤ st.target ∧ (s.moveRow c row).stepOf (sramDomain (quadOf c)) = some u ∧ u.moved = st.moved + 1 ∧
      u.target = st.target := by
  obtain ⟨hback, hclean⟩ := flushRow_spec s c row
  have hfree : s.floorOf c r ≤ st.target := by
    unfold State.freePhys at hr
    have := List.find?_some hr
    rw [Bool.and_eq_true, decide_eq_true_eq] at this
    exact this.1
  have hne : s.physRow c row ≠ r := fun h => by rw [h] at habove; omega
  obtain ⟨v, hv⟩ : ∃ v, s.flushRow c row = v := ⟨_, rfl⟩
  rw [hv] at hback hclean
  have hpow : v.power = s.power := by obtain ⟨_, _, _, _, _, _, rfl⟩ := hback; rfl
  have hphys : NatMap.find (c * 8192 + row) (v.remapRow c row r).power.remap = some r := find_remapRow (by rw [physRow_congr hpow]; exact hne)
  obtain ⟨w, hw⟩ : ∃ w, v.remapRow c row r = w := ⟨_, rfl⟩
  have hwv : ∃ M, w = { v with power := { v.power with remap := M } } := ⟨_, hw.symm⟩
  rw [hw] at hphys
  have hstw : w.stepOf (sramDomain (quadOf c)) = some st := by
    obtain ⟨M, rfl⟩ := hwv
    exact (stepOf_congr hpow _).trans hst
  obtain ⟨hmod, S, hS⟩ := stepOf_modStep hstw fun t => { t with moved := t.moved + 1 }
  let s1 : State := w.modStep (sramDomain (quadOf c)) fun t => { t with moved := t.moved + 1 }
  have hmove : s.moveRow c row = if s1.badRow c st.target = some row then s1 else s1.evacNext (sramDomain (quadOf c)) st.target := by
    unfold State.moveRow
    dsimp only
    rw [hst]
    dsimp only
    rw [hfit, if_neg (show ¬ (!true) = true from Bool.false_ne_true), if_neg (Nat.not_le.2 habove), hr]
    subst hw hv
    rfl
  have hend : ∃ R xs u, s.moveRow c row = { w with power := { w.power with steps := R }, due := xs } ∧
      (s.moveRow c row).stepOf (sramDomain (quadOf c)) = some u ∧ u.moved = st.moved + 1 ∧ u.target = st.target := by
    rw [hmove]
    split
    · exact ⟨S, _, _, hS, hmod, rfl, rfl⟩
    · obtain ⟨R, xs, u, e, hu, hm, ht⟩ := evacNext_spec hmod hev st.target
      refine ⟨R, xs, u, e.trans ?_, hu, hm, ht⟩
      rw [hS]
  obtain ⟨R, xs, u, hmv, hu, hm, ht⟩ := hend
  refine ⟨u, ?_, fun hall => ?_, ?_, hfree, hu, hm, ht⟩
  · rw [hmv]
    obtain ⟨M, rfl⟩ := hwv
    obtain ⟨_, _, _, _, _, _, rfl⟩ := hback
    exact ⟨rfl, rfl, rfl⟩
  · rw [hmv]
    obtain ⟨M, rfl⟩ := hwv
    rw [hclean hall]
  · rw [hmv]
    unfold State.physRow
    dsimp only
    rw [hphys]
    rfl

/-! ### Cores fitted under a target -/

theorem fitsAt_congr {s t : State} (hunits : t.hub.units = s.hub.units) (hpower : t.power = s.power) (c k : Nat) : t.fitsAt c k = s.fitsAt c k := by
  unfold State.fitsAt State.rowsHeld
  rw [holders_congr hunits, capRowsAt_congr hpower]

theorem fitCore_fits {s : State} {d c k : Nat} (h : s.fitsAt c k = true) (n : Nat) : s.fitCore d c k (n + 1) = s := by
  rw [State.fitCore, if_pos h]

/-- Where nothing is left to spill or to send back a core stays as it is. -/
theorem fitCore_stuck {s : State} {d c k : Nat} (h : s.fitsAt c k = false) (hspill : s.spillNext c = none) (hby : (s.coreAt c).standby = none) (n : Nat) :
    s.fitCore d c k (n + 1) = s := by
  rw [State.fitCore, h, if_neg Bool.false_ne_true, hspill, hby]
  exact if_neg Bool.false_ne_true

theorem each_same {s : State} {f : State → Nat → State} {is : List Nat} (h : ∀ i ∈ is, f s i = s) : s.each f is = s := by
  induction is with
  | nil => rfl
  | cons i is ih =>
    unfold State.each
    rw [h i (List.mem_cons_self ..)]
    exact ih fun j hj => h j (List.mem_cons_of_mem i hj)

theorem freePhys_congr {s t : State} (hunits : t.hub.units = s.hub.units) (hpower : t.power = s.power) (c k : Nat) : t.freePhys c k = s.freePhys c k := by
  unfold State.freePhys
  simp only [rowsInUse_congr hunits, floorOf_congr hpower, physRow_congr hpower]

/-- A core left to itself, or told to leave for want of rows (R376). -/
theorem fitRunning_step {s t : State} (h : ∃ k O xs, t = { s with core := k, others := O, due := xs }) (ht : RisingKeys t.others) (c k since : Nat) :
    (∃ K O xs, t.fitRunning c k since = { t with core := K, others := O, due := xs }) ∧ calm t (t.fitRunning c k since) ∧
      RisingKeys (t.fitRunning c k since).others ∧ (∀ e, e ≠ c → (t.fitRunning c k since).coreAt e = t.coreAt e) ∧
      (s.fitsAt c k = false → (t.coreAt c).unit.isSome = true → (t.coreAt c).preempt = none →
        ((t.fitRunning c k since).coreAt c).preempt = if s.time < since + s.hub.stepwait.toNat then none else some .capacity) := by
  have hsame : t.fitsAt c k = s.fitsAt c k ∧ t.time = s.time ∧ t.hub = s.hub := by
    obtain ⟨K, O, ys, e⟩ := h
    have hp : t.power = s.power := by rw [e]
    have hh : t.hub = s.hub := by rw [e]
    have ht : t.time = s.time := by rw [e]
    exact ⟨fitsAt_congr (congrArg Hub.units hh) hp c k, ht, hh⟩
  obtain ⟨hfits, htime, hhub⟩ := hsame
  have hmod (f : Core → Core) (ha : ∀ x, (f x).arch = x.arch) (hs : ∀ x, (f x).shadow = x.shadow) (xs : List Action) :
      (∃ K O ys, (t.modCore c f).addDue xs = { t with core := K, others := O, due := ys }) ∧ calm t ((t.modCore c f).addDue xs) ∧
        RisingKeys ((t.modCore c f).addDue xs).others ∧ (∀ e, ((t.modCore c f).addDue xs).coreAt e = if e = c then f (t.coreAt e) else t.coreAt e) := by
    obtain ⟨⟨K, O, honly⟩, hrise, hread⟩ := coreStep_modCore ht c f
    exact ⟨⟨K, O, _, by rw [honly]; rfl⟩, calm_modCore t c ha hs, hrise, hread⟩
  have hnil : t.addDue [] = t := by unfold State.addDue; rw [List.append_nil]
  unfold State.fitRunning
  dsimp only
  rw [hfits]
  by_cases hf : s.fitsAt c k = true
  · rw [if_pos hf]
    obtain ⟨honly, hcalm, hrise, hread⟩ := hmod (fun x => if x.preempt = some .capacity then { x with preempt := none } else x)
      (fun x => by split <;> rfl) (fun x => by split <;> rfl) []
    have e : t.unpreempt c = (t.modCore c fun x => if x.preempt = some .capacity then { x with preempt := none } else x).addDue [] := by
      unfold State.addDue
      rw [List.append_nil]
      rfl
    rw [e]
    exact ⟨honly, hcalm, hrise, fun x hx => (hread x).trans (if_neg hx), fun h => absurd hf (by rw [h]; exact Bool.false_ne_true)⟩
  · rw [if_neg hf]
    split
    · next hstay =>
      refine ⟨⟨_, _, _, rfl⟩, calm_refl t, ht, fun _ _ => rfl, fun _ hunit hpre => ?_⟩
      rcases hstay with h | h | h
      · rw [Option.isNone_iff_eq_none] at h
        rw [h] at hunit
        cases hunit
      · rw [hpre] at h
        cases h
      · rw [htime, hhub] at h
        rw [if_pos h]
        exact hpre
    · next hgo =>
      rw [not_or, not_or, htime, hhub] at hgo
      obtain ⟨-, -, hlate⟩ := hgo
      obtain ⟨honly, hcalm, hrise, hread⟩ := hmod (fun x => { x with preempt := some .capacity }) (fun _ => rfl) (fun _ => rfl) [.preemption c]
      refine ⟨honly, hcalm, hrise, fun x hx => (hread x).trans (if_neg hx), fun _ _ _ => ?_⟩
      rw [if_neg hlate, hread, if_pos rfl]

theorem fitRunningAll_other {s : State} {k since : Nat} {t : State} (h : ∃ k O xs, t = { s with core := k, others := O, due := xs })
    (ht : RisingKeys t.others) (cs : List Nat) :
    let u := t.each (fun s c => s.fitRunning c k since) cs
    calm t u ∧ ∀ e, e ∉ cs → u.coreAt e = t.coreAt e := by
  induction cs generalizing t with
  | nil => exact ⟨calm_refl t, fun _ _ => rfl⟩
  | cons d ds ih =>
    obtain ⟨⟨K, O, xs, e⟩, hcalm, hrise, hother, -⟩ := fitRunning_step h ht d k since
    obtain ⟨v, hv⟩ : ∃ v, t.fitRunning d k since = v := ⟨_, rfl⟩
    have hfrom : ∃ k' O xs, v = { s with core := k', others := O, due := xs } := by
      obtain ⟨_, _, _, rfl⟩ := h
      exact ⟨K, O, xs, hv.symm.trans e⟩
    have heach : t.each (fun s c => s.fitRunning c k since) (d :: ds) = v.each (fun s c => s.fitRunning c k since) ds := by
      rw [← hv]
      rfl
    rw [hv] at hcalm hrise hother
    dsimp only
    rw [heach]
    obtain ⟨h1, h2⟩ := ih hfrom hrise
    refine ⟨hcalm.trans h1, fun x hx => ?_⟩
    rw [h2 x fun h => hx (List.mem_cons_of_mem d h)]
    exact hother x fun h => hx (h ▸ List.mem_cons_self ..)

/-- Cores fitted one after another: the one that stands in the way is told to leave once STEPWAIT has passed (R376). -/
theorem fitRunningAll_spec {s : State} (k since : Nat) {c : Nat} (hfit : s.fitsAt c k = false) (cs : List Nat) (hcs : cs.Nodup) {t : State}
    (h : ∃ k O xs, t = { s with core := k, others := O, due := xs }) (ht : RisingKeys t.others) (hunit : (t.coreAt c).unit.isSome = true)
    (hpre : (t.coreAt c).preempt = none) :
    let u := t.each (fun s c => s.fitRunning c k since) cs
    calm t u ∧ (c ∈ cs → (u.coreAt c).preempt = if s.time < since + s.hub.stepwait.toNat then none else some .capacity) ∧
      (c ∉ cs → u.coreAt c = t.coreAt c) := by
  induction cs generalizing t with
  | nil => exact ⟨calm_refl t, nofun, fun _ => rfl⟩
  | cons d ds ih =>
    obtain ⟨hd, hnd⟩ := List.nodup_cons.1 hcs
    obtain ⟨⟨K, O, xs, e⟩, hcalm, hrise, hother, hsame⟩ := fitRunning_step h ht d k since
    obtain ⟨v, hv⟩ : ∃ v, t.fitRunning d k since = v := ⟨_, rfl⟩
    have hfrom : ∃ k' O xs, v = { s with core := k', others := O, due := xs } := by
      obtain ⟨_, _, _, rfl⟩ := h
      exact ⟨K, O, xs, hv.symm.trans e⟩
    have heach : t.each (fun s c => s.fitRunning c k since) (d :: ds) = v.each (fun s c => s.fitRunning c k since) ds := by
      rw [← hv]
      rfl
    rw [hv] at hcalm hrise hother hsame
    dsimp only
    rw [heach]
    by_cases hdc : d = c
    · subst hdc
      have hnow := hsame hfit hunit hpre
      obtain ⟨hcalms, hkeeps⟩ := fitRunningAll_other hfrom hrise ds (k := k) (since := since)
      refine ⟨hcalm.trans hcalms, fun _ => ?_, fun h => absurd (List.mem_cons_self ..) h⟩
      rw [hkeeps d hd]
      exact hnow
    · have hc : v.coreAt c = t.coreAt c := hother c (Ne.symm hdc)
      obtain ⟨h1, h2, h3⟩ := ih hnd hfrom hrise (by rw [hc]; exact hunit) (by rw [hc]; exact hpre)
      refine ⟨hcalm.trans h1, fun hm => h2 ((List.mem_cons.1 hm).resolve_left (Ne.symm hdc)), fun hm => ?_⟩
      rw [h3 fun h => hm (List.mem_cons_of_mem d h)]
      exact hc

/-- A core that still stands in the way at STEPWAIT_EXPIRE is told to leave once STEPWAIT has passed (R376). -/
theorem fitDomain_waits {s : State} (ho : RisingKeys s.others) {d c : Nat} {st : Step} (hst : s.stepOf d = some st) (hfit : st.fitted = false)
    (hc : c ∈ coresOfDomain d) (hno : s.fitsAt c st.target = false) (hspill : s.spillNext c = none) (hby : (s.coreAt c).standby = none)
    (hunit : (s.coreAt c).unit.isSome = true) (hpre : (s.coreAt c).preempt = none)
    (hrest : ∀ e ∈ coresOfDomain d, e ≠ c → s.fitsAt e st.target = true) :
    calm s (s.fitDomain d) ∧ Action.stepwaitExpire d ∈ (s.fitDomain d).due ∧
      ((s.fitDomain d).coreAt c).preempt = if s.time < st.since + s.hub.stepwait.toNat then none else some .capacity := by
  have hcores : s.each (fun s c => s.fitCore d c st.target 200) (coresOfDomain d) = s := by
    refine each_same fun e he => ?_
    by_cases hec : e = c
    · rw [hec]
      exact fitCore_stuck hno hspill hby 199
    · exact fitCore_fits (hrest e he hec) 199
  have hall : ((coresOfDomain d).all fun c => s.fitsAt c st.target) = false :=
    List.all_eq_false.2 ⟨c, hc, by rw [hno]; exact Bool.false_ne_true⟩
  obtain ⟨hcalm, hin, -⟩ := fitRunningAll_spec st.target st.since hno (coresOfDomain d) (coresOfDomain_nodup d) (t := s) ⟨_, _, _, rfl⟩ ho hunit hpre
  have hgo : s.fitDomain d = (s.each (fun s c => s.fitRunning c st.target st.since) (coresOfDomain d)).addDue [.stepwaitExpire d] := by
    unfold State.fitDomain
    rw [hst]
    dsimp only
    rw [hfit, if_neg Bool.false_ne_true, hcores, hall, if_neg Bool.false_ne_true]
  obtain ⟨v, hv⟩ : ∃ v, s.each (fun s c => s.fitRunning c st.target st.since) (coresOfDomain d) = v := ⟨_, rfl⟩
  rw [hv] at hgo hcalm hin
  rw [hgo]
  exact ⟨hcalm, List.mem_append_right _ (List.mem_singleton_self _), hin hc⟩

/-! ### Current and temperature (R384, R386) -/

theorem engage_spec {s : State} {q : Nat} (h : s.ilevelOf q = 0) :
    ∃ t, Does (.currentLimitEngage q) s t ∧ calm s t ∧ t.ilevelOf q = 1 ∧ q ∉ t.power.boost ∧ Action.currentLimitLevel2 q ∈ t.due := by
  let s1 : State := { s with act := some (.currentLimitEngage q) }
  let p : Power := { s.power with
    ilevel := NatMap.putD 0 q 1 s.power.ilevel, boost := withNum false q s.power.boost,
    deferred := if s.power.boost.contains q then withNum true q s.power.deferred else s.power.deferred }
  have hrun : Does (.currentLimitEngage q) s ((s1.withPower p).addDue [.currentLimitLevel2 q]) := by
    show execCurrentLimitEngage s1 = _
    unfold execCurrentLimitEngage
    exact if_neg (not_not_intro h)
  refine ⟨_, hrun, calm_refl s, ?_, fun hq => ?_, List.mem_append_right _ (List.mem_singleton_self _)⟩
  · exact (NatMap.findD_putD_of_ne one_ne_zero q q).trans (if_pos rfl)
  · simpa using (List.mem_filter.1 hq).2

theorem level2_spec (s : State) (q : Nat) :
    ∃ t, Does (.currentLimitLevel2 q) s t ∧ calm s t ∧
      t.ilevelOf q = if s.ilevelOf q = 1 ∧ Config.sense s.free q % 2 = 1 then 2 else s.ilevelOf q := by
  let s1 : State := { s with act := some (.currentLimitLevel2 q) }
  refine ⟨_, (rfl : execCurrentLimitLevel2 s1 = _), ?_⟩
  by_cases h : s.ilevelOf q = 1 ∧ Config.sense s.free q % 2 = 1
  · rw [if_pos h, if_pos (show s1.ilevelOf q = 1 ∧ Config.sense s1.free q % 2 = 1 from h)]
    exact ⟨calm_refl s, (NatMap.findD_putD_of_ne two_ne_zero q q).trans (if_pos rfl)⟩
  · rw [if_neg h, if_neg (show ¬ (s1.ilevelOf q = 1 ∧ Config.sense s1.free q % 2 = 1) from h)]
    exact ⟨calm_refl s, rfl⟩

theorem thermalCrit_spec {s : State} (hop : RisingKeys s.power.op) (q : Nat) :
    ∃ t, Does (.thermalCrit q) s t ∧ calm s t ∧ t.ceilOf q = 0 ∧ t.opOf (logicDomain q) = 0 ∧
      ∃ r, Action.eventRecordArrive r ∈ t.due ∧ r.code = .thermalCrit := by
  let s1 : State := { s with
    act := some (.thermalCrit q), power := { s.power with ceil := NatMap.put q 0 s.power.ceil, cool := NatMap.putD 0 q 0 s.power.cool } }
  let s2 : State := s1.event .thermalCrit 4 (logicDomain q) (s.ownerOfQuad q)
  obtain ⟨hcalm, hops, -, -, hdue, hceil, -⟩ := stepLogic_spec (s := s2) hop (logicDomain q) 0
  have hrun : Does (.thermalCrit q) s (s2.stepLogic (logicDomain q) 0) := rfl
  generalize s2.stepLogic (logicDomain q) 0 = t at hrun hcalm hops hdue hceil
  refine ⟨t, hrun, hcalm, ?_, (hops _).trans (if_pos rfl), _, hdue _ (List.mem_filter.2 ⟨List.mem_append_right _ (List.mem_singleton_self _), rfl⟩), rfl⟩
  unfold State.ceilOf
  rw [hceil]
  unfold NatMap.findD
  rw [show NatMap.find q s2.power.ceil = some 0 from NatMap.find_put_self ..]
  rfl

/-- Settles O45: each action taken apart by its own lemma. -/
theorem powerStepActionResults : Obligations.PowerStepActionResults := by
  unfold Obligations.PowerStepActionResults
  intro s d q c hop hsteps hups hothers
  refine ⟨fun k => ?_, fun k n hk hn hw hruns => ?_, fun st n hst hset hev hen hw => ⟨fun hfree => ?_, fun hblocked => ?_⟩,
    fun st row r hst hev hfit _ habove hr => ?_, fun st hst hfit hc hno hspill hby hunit hpre hrest => ?_, engage_spec, level2_spec s q, thermalCrit_spec hop q⟩
  · let s1 : State := { s with act := some (.logicStep d k) }
    obtain ⟨hcalm, hops, hboost, hdue, -, -, hcombs⟩ := stepLogic_spec (s := s1) hop d k
    exact ⟨s1.stepLogic d k, rfl, hcalm, (hops d).trans (if_pos rfl), fun e he => (hops e).trans (if_neg he), hboost, hdue, hcombs⟩
  · let s1 : State := { s with act := some (.sramUpstep d k) }
    obtain ⟨hcalm, hops, hgone, hadmit, hentry⟩ := upstep_spec (s := s1) hothers hop hups hk hn hw hruns
    exact ⟨s1.upstep d k, rfl, hcalm, hops, hgone, hadmit, fun u id => hentry u id c⟩
  · let s1 : State := { s with act := some (.stepSettle d) }
    obtain ⟨hcalm, hops, hadmit, hstep⟩ := settle_done (s := s1) hop hsteps hst hset hev hen hw ((rowBlocked_congr (s := s) (t := s1) rfl rfl d n.point).trans hfree)
    exact ⟨s1.settleStep d, rfl, hcalm, hops, hadmit, hstep⟩
  · let s1 : State := { s with act := some (.stepSettle d) }
    obtain ⟨hcalm, hops, hstep⟩ := settle_blocked (s := s1) hst hset hen ((rowBlocked_congr (s := s) (t := s1) rfl rfl d n.point).trans hblocked)
    exact ⟨s1.settleStep d, rfl, hcalm, hops, hstep⟩
  · let s1 : State := { s with act := some (.evacRowMove c row) }
    have habove1 : st.target < s1.floorOf c (s1.physRow c row) := by
      rw [floorOf_congr (s := s) (t := s1) rfl, physRow_congr (s := s) (t := s1) rfl]
      exact habove
    obtain ⟨u, hregs, hmem, hphys, hfloor, hstep, hmoved, htarget⟩ := moveRow_spec (s := s1) hst hev hfit habove1 ((freePhys_congr (s := s) (t := s1) rfl rfl c st.target).trans hr)
    exact ⟨s1.moveRow c row, u, rfl, hregs, hmem, hphys, hfloor, hstep, hmoved, htarget⟩
  · let s1 : State := { s with act := some (.stepwaitExpire d) }
    obtain ⟨hcalm, hdue, hcore⟩ := fitDomain_waits (s := s1) hothers hst hfit hc ((fitsAt_congr (s := s) (t := s1) rfl rfl c st.target).trans hno) hspill hby hunit hpre
      fun e he hne => (fitsAt_congr (s := s) (t := s1) rfl rfl e st.target).trans (hrest e he hne)
    exact ⟨s1.fitDomain d, rfl, hcalm, hdue, hcore⟩

end Sys2Proof.Machine
end

section
set_option Elab.async false
/-! Packets delivered or sent on, flows promoted, and pod barriers combined (R279, R280, R316 to R329, R342, R343): the actions of the packet plane. -/
namespace Sys2Proof.Machine

/-! ### Packets delivered here (R316, R318) -/

theorem noteForeign_spec (s : State) (k : Packet) :
    (∃ P, s.noteForeign k = s.withHub { s.hub with farPods := P }) ∧
      ∀ m, k.body = .message m → k.tok = none → m.tok.pkg ≠ s.fabric.num →
        NatMap.find (farKey m.tok.pkg m.tok.acct) (s.noteForeign k).hub.farPods = some k.podid := by
  have note (h : Handle) (d : BitVec 16) :
      ∃ P, (if d = s.fabric.num then s else s.withHub { s.hub with farPods := NatMap.put (farKey d h) k.podid s.hub.farPods }) =
        s.withHub { s.hub with farPods := P } := by
    split
    · exact ⟨s.hub.farPods, rfl⟩
    · exact ⟨_, rfl⟩
  constructor
  · unfold State.noteForeign
    dsimp only
    split
    · exact note _ _
    · exact note _ _
    · exact note _ _
    · exact ⟨s.hub.farPods, rfl⟩
  · intro m hbody htok hfar
    unfold State.noteForeign
    rw [hbody, htok]
    dsimp only
    rw [if_neg hfar]
    exact NatMap.find_put_self ..

theorem weakRead_farPods (s : State) (P : NatMap (BitVec 16)) (agent p : Nat) (va : Word) (n : Nat) :
    (s.withHub { s.hub with farPods := P }).weakRead agent p va n = s.weakRead agent p va n := rfl

theorem mem_due_post (s : State) (k : Packet) : Action.trailPacketDeliver { k with seq := s.fabric.nextPkt } ∈ (s.post k).due :=
  List.mem_append_right _ (List.mem_singleton_self _)

theorem CachesOnly.calm {s t : State} (h : CachesOnly s t) : calm s t := by
  obtain ⟨_, _, _, _, _, _, rfl⟩ := h
  exact ⟨rfl, rfl, rfl, rfl⟩

theorem calm_cacheLeaf (s : State) (agent p : Nat) (va : Word) : calm s (s.cacheLeaf agent p va) := by
  unfold State.cacheLeaf
  split
  · exact calm_refl s
  · split
    · exact calm_refl s
    · split
      · exact ((cachesOnly_installLeaf ..).trans (cachesOnly_noteWalk ..)).calm
      · exact calm.trans (t := s.withHub _) (calm_refl s) (cachesOnly_trimDir _).calm

theorem calm_touch (s : State) (b : Bool) (pa k : Nat) (w : Bool) (t : Word) : calm s (s.touch b pa k w t) := by
  unfold State.touch
  dsimp only
  split
  · exact calm_refl s
  · split <;> exact calm_refl s

theorem calm_noteRead (s : State) (agent p : Nat) (va : Word) (pas : List Nat) : calm s (s.noteRead agent p va pas) := by
  have touches (coh : Bool) (k : Nat) (rs : List Nat) (u : State) : calm u (rs.foldl (fun s r => s.touch coh (r * 2 ^ 21) k false 0#64) u) := by
    induction rs generalizing u with
    | nil => exact calm_refl u
    | cons r rs ih => exact (calm_touch ..).trans (ih _)
  exact (calm_cacheLeaf ..).trans (touches _ _ _ _)

theorem exportSub_exports (s : State) (h : Handle) (d : BitVec 16) (v : Nat) : ∃ es, s.exportSub h d v = s.withExports es := ⟨_, rfl⟩

/-! ### Flits (R316, R433, R434) -/

theorem numberFlits_data (seq ack : BitVec 12) (kind : FlitKind) (k : Packet) (ds : List (BitVec 256)) :
    (numberFlits seq ack kind k ds).map Flit.data = ds := by
  induction ds generalizing seq with
  | nil => rfl
  | cons d ds ih => exact congrArg (d :: ·) (ih (seq + 1))

theorem numberFlits_length (seq ack : BitVec 12) (kind : FlitKind) (k : Packet) (ds : List (BitVec 256)) :
    (numberFlits seq ack kind k ds).length = ds.length := by
  rw [← List.length_map (f := Flit.data), numberFlits_data]

/-- Flits are numbered in order from the first SEQ, and the last carries the packet. -/
theorem numberFlits_get (seq ack : BitVec 12) (kind : FlitKind) (k : Packet) (ds : List (BitVec 256)) (i : Nat) (f : Flit)
    (h : (numberFlits seq ack kind k ds)[i]? = some f) :
    f.seq = seq + BitVec.ofNat 12 i ∧ f.ack = ack ∧ f.pkt = if i + 1 = ds.length then some k else none := by
  induction ds generalizing seq i with
  | nil => cases h
  | cons d ds ih =>
    cases i with
    | zero =>
      obtain rfl : _ = f := Option.some.inj h
      refine ⟨(BitVec.add_zero seq).symm, rfl, ?_⟩
      cases ds with
      | nil => rfl
      | cons e es => exact (if_neg (by simp)).symm
    | succ i =>
      obtain ⟨h1, h2, h3⟩ := ih (seq + 1) i h
      refine ⟨h1.trans ?_, h2, h3.trans ?_⟩
      · rw [BitVec.add_assoc]
        congr 1
        apply BitVec.eq_of_toNat_eq
        simp [Nat.add_comm]
      · rw [List.length_cons]
        exact if_congr (by omega) rfl rfl

/-- A packet that its port can take leaves as flits at the end of the replay buffer (R316, R434). -/
theorem leaveBy_spec {s : State} {p : Nat} {k : Packet} (hsends : (s.portAt p).sends = true)
    (hfits : (s.portAt p).replay.length + (pktFlits k).length ≤ 2048)
    (hroom : ∀ h v, s.cargo k = some (h, v) → k.cls ≠ 0#3 ∨ s.exportRoom h k.dpkg = true) :
    let x := s.portAt p
    let t := s.leaveBy p k
    ∃ fs, calm s t ∧ t.portAt p = { x with replay := x.replay ++ fs, seqOut := x.seqOut + BitVec.ofNat 12 fs.length } ∧ fs.map Flit.data = pktFlits k ∧
      ∀ (i : Nat) (f : Flit), fs[i]? = some f → f.seq = x.seqOut + BitVec.ofNat 12 i ∧ f.ack = x.seqIn - 1 ∧
        f.pkt = if i + 1 = fs.length then some k else none := by
  have hmeter : ∃ F xs, F.ports = s.fabric.ports ∧
      (if pktMetered k then s.meterAt (512 + p) (pktFlow k (pktPayload k).length) else s) = { s with fabric := F, due := xs } := by
    split
    · unfold State.meterAt
      dsimp only
      split
      · refine ⟨_, _, ?_, rfl⟩
        rfl
      · refine ⟨_, _, ?_, rfl⟩
        rfl
    · exact ⟨_, _, rfl, rfl⟩
  obtain ⟨F, xs, hF, hm⟩ := hmeter
  have hexport : ∃ F' : Fabric, F'.ports = s.fabric.ports ∧ ({ s with fabric := F, due := xs } : State).exportCargo k = { s with fabric := F', due := xs } := by
    unfold State.exportCargo
    split
    · unfold State.exportAdd
      dsimp only
      split
      · refine ⟨_, ?_, rfl⟩
        exact hF
      · refine ⟨_, ?_, rfl⟩
        exact hF
    · exact ⟨_, hF, rfl⟩
  obtain ⟨F', hF', he⟩ := hexport
  let u : State := { s with fabric := F', due := xs }
  have hport : u.portAt p = s.portAt p := by
    unfold State.portAt
    rw [show u.fabric.ports = s.fabric.ports from hF']
  have hgo : s.leaveBy p k = u.putFlits p k := by
    unfold State.leaveBy
    dsimp only
    rw [if_neg, hm, he]
    rintro (h | h | h)
    · exact h hsends
    · omega
    · cases hc : s.cargo k with
      | none => rw [hc] at h; exact h rfl
      | some e =>
        obtain ⟨a, v⟩ := e
        rw [hc] at h
        apply h
        dsimp only
        rw [Bool.or_eq_true]
        exact (hroom a v hc).imp (fun h => by simpa using h) id
  dsimp only
  rw [hgo]
  obtain ⟨kind, hkind⟩ : ∃ kind, (if inSlot k || u.fabric.promoted.any fun q => (pktFlow k 0).same q.flow && decide (q.mark < k.seq) then
      FlitKind.circuit else .trail) = kind := ⟨_, rfl⟩
  have hput : u.putFlits p k = u.setPort p { s.portAt p with
      replay := (s.portAt p).replay ++ numberFlits (s.portAt p).seqOut ((s.portAt p).seqIn - 1) kind k (pktFlits k),
      seqOut := (s.portAt p).seqOut + BitVec.ofNat 12 (numberFlits (s.portAt p).seqOut ((s.portAt p).seqIn - 1) kind k (pktFlits k)).length } := by
    unfold State.putFlits
    dsimp only
    rw [hport, hkind]
  rw [hput]
  refine ⟨numberFlits (s.portAt p).seqOut ((s.portAt p).seqIn - 1) kind k (pktFlits k), calm_refl s, ?_, numberFlits_data .., fun i f hf => ?_⟩
  · unfold State.setPort State.portAt
    refine (NatMap.findD_putD_of_ne (fun h => ?_) p p).trans (if_pos rfl)
    unfold Port.sends at hsends
    simp only [Bool.and_eq_true] at hsends
    obtain ⟨⟨⟨hup, -⟩, -⟩, -⟩ := hsends
    have hdown := congrArg Port.up h
    exact Bool.noConfusion (hup.symm.trans hdown)
  · rw [numberFlits_length]
    exact numberFlits_get _ _ _ _ _ i f hf

/-- A packet of this package is delivered by what it carries (R279, R316, R318). -/
theorem execDeliver_here {s : State} {k : Packet} (hb : s.behind k = false) (hd : k.dpkg = s.fabric.num) :
    Does (.trailPacketDeliver k) s (({ s with act := some (.trailPacketDeliver k) } : State).deliverHere k) := by
  show execTrailPacketDeliver { s with act := some (.trailPacketDeliver k) } = _
  unfold execTrailPacketDeliver
  dsimp only
  rw [if_neg (show ¬ ({ s with act := some (.trailPacketDeliver k) } : State).behind k = true from fun h => Bool.false_ne_true (hb.symm.trans h)), if_pos hd]

theorem execDeliver_away {s : State} {k : Packet} (hb : s.behind k = false) (hd : k.dpkg ≠ s.fabric.num) (hlt : k.dpkg.toNat < 4096)
    (hheld : s.heldBack k = false) :
    let s1 : State := { s with act := some (.trailPacketDeliver k) }
    Does (.trailPacketDeliver k) s (match s1.portFor k with
      | some p => s1.leaveBy p k
      | none => match brokenDown k with
        | some j => s1.addDue [.trailPacketDeliver j]
        | none => s1.refusePacket k) := by
  intro s1
  show execTrailPacketDeliver s1 = _
  unfold execTrailPacketDeliver
  show Host.Outcome.next (if s1.behind k = true then _ else _) = _
  rw [if_neg (show ¬ s1.behind k = true from fun h => Bool.false_ne_true (hb.symm.trans h)), if_neg hd]
  unfold State.sendAway
  rw [if_neg (Nat.not_le.2 hlt), if_neg (show ¬ s1.heldBack k = true from fun h => Bool.false_ne_true (hheld.symm.trans h))] <;> rfl

theorem deliver_message {s : State} {k : Packet} (hb : s.behind k = false) (hd : k.dpkg = s.fabric.num) {m : Message} (hbody : k.body = .message m) :
    ∃ t, Does (.trailPacketDeliver k) s t ∧ calm s t ∧ t.hub = { s.hub with farPods := t.hub.farPods } ∧ Action.messageArrive m ∈ t.due ∧
      (k.tok = none → m.tok.pkg ≠ s.fabric.num → NatMap.find (farKey m.tok.pkg m.tok.acct) t.hub.farPods = some k.podid) := by
  let s1 : State := { s with act := some (.trailPacketDeliver k) }
  obtain ⟨⟨P, hP⟩, hfind⟩ := noteForeign_spec s1 k
  have hgo : s1.deliverHere k = (s1.noteForeign k).addDue [.messageArrive m] := by
    unfold State.deliverHere
    rw [hbody]
  have hrun := execDeliver_here hb hd
  rw [show ({ s with act := some (.trailPacketDeliver k) } : State).deliverHere k = _ from hgo] at hrun
  have hnote := hfind m hbody
  rw [hP] at hrun hnote
  exact ⟨_, hrun, calm_refl s, rfl, List.mem_append_right _ (List.mem_singleton_self _), hnote⟩

theorem deliver_ret {s : State} {k : Packet} (hb : s.behind k = false) (hd : k.dpkg = s.fabric.num) {r : Ret} (hbody : k.body = .ret r) :
    (r.pkg ≠ s.fabric.num ∨ s.writtenOff r.acct k.spkg = false →
      ∃ t, Does (.trailPacketDeliver k) s t ∧ calm s t ∧ t.hub = { s.hub with farPods := t.hub.farPods } ∧ Action.returnArrive r ∈ t.due) ∧
    (r.pkg = s.fabric.num → s.writtenOff r.acct k.spkg = true →
      ∃ t, Does (.trailPacketDeliver k) s t ∧ calm s t ∧ t.hub = { s.hub with farPods := t.hub.farPods } ∧ t.due = s.due) := by
  let s1 : State := { s with act := some (.trailPacketDeliver k) }
  obtain ⟨⟨P, hP⟩, -⟩ := noteForeign_spec s1 k
  let u : State := s1.withHub { s1.hub with farPods := P }
  have hgo : s1.deliverHere k = u.returnIn k r := by
    unfold State.deliverHere
    rw [hbody, hP]
  have hrun := execDeliver_here hb hd
  rw [show ({ s with act := some (.trailPacketDeliver k) } : State).deliverHere k = _ from hgo] at hrun
  have hoff : u.writtenOff r.acct k.spkg = s.writtenOff r.acct k.spkg := rfl
  unfold State.returnIn at hrun
  rw [hoff] at hrun
  constructor
  · intro h
    by_cases hpkg : r.pkg ≠ s.fabric.num
    · rw [if_pos (show r.pkg ≠ u.fabric.num from hpkg)] at hrun
      exact ⟨_, hrun, calm_refl s, rfl, List.mem_append_right _ (List.mem_singleton_self _)⟩
    · have hno := h.resolve_left hpkg
      rw [if_neg (show ¬ r.pkg ≠ u.fabric.num from hpkg), hno, if_neg Bool.false_ne_true] at hrun
      exact ⟨_, hrun, calm_refl s, rfl, List.mem_append_right _ (List.mem_singleton_self _)⟩
  · intro hpkg hyes
    rw [if_neg (show ¬ r.pkg ≠ u.fabric.num from not_not_intro hpkg), hyes, if_pos rfl] at hrun
    exact ⟨_, hrun, calm_refl s, rfl, rfl⟩

theorem deliver_read {s : State} {k : Packet} (hb : s.behind k = false) (hd : k.dpkg = s.fabric.num) {x va lo n p : Nat} {pas : List Nat}
    (hbody : k.body = .read x va lo n) (hpod : s.partOfPod k.podid = some p) (hread : s.weakRead (cameBy k) p (BitVec.ofNat 64 va) n = .ok pas) :
    ∃ t j, Does (.trailPacketDeliver k) s t ∧ calm s t ∧ Action.trailPacketDeliver j ∈ t.due ∧ j.dpkg = k.spkg ∧ j.dcore = k.score ∧
      j.body = .readData x lo (pas.map (cellAt s.mem)) := by
  let s1 : State := { s with act := some (.trailPacketDeliver k) }
  obtain ⟨⟨P, hP⟩, -⟩ := noteForeign_spec s1 k
  let u : State := s1.withHub { s1.hub with farPods := P }
  have hread1 : u.weakRead (cameBy k) p (BitVec.ofNat 64 va) n = .ok pas := (weakRead_farPods s1 P ..).trans hread
  have hgo : s1.deliverHere k = (u.noteRead (cameBy k) p (BitVec.ofNat 64 va) pas).reply k 3 (.readData x lo (pas.map (cellAt s.mem))) := by
    unfold State.deliverHere
    rw [hbody, hP]
    show u.readFor k x va lo n = _
    unfold State.readFor
    rw [show u.partOfPod k.podid = some p from hpod]
    dsimp only
    rw [hread1]
    rfl
  have hrun := execDeliver_here hb hd
  rw [show ({ s with act := some (.trailPacketDeliver k) } : State).deliverHere k = _ from hgo] at hrun
  have hcalm : calm s (u.noteRead (cameBy k) p (BitVec.ofNat 64 va) pas) := calm.trans (t := u) (calm_refl s) (calm_noteRead ..)
  generalize u.noteRead (cameBy k) p (BitVec.ofNat 64 va) pas = v at hrun hcalm
  exact ⟨_, _, hrun, calm.trans hcalm (calm_refl v), mem_due_post .., rfl, rfl, rfl⟩

theorem deliver_podDown {s : State} {k : Packet} (hb : s.behind k = false) (hd : k.dpkg = s.fabric.num) {tree p : Nat} {v : Word} {broken : Bool}
    (hbody : k.body = .podDown tree v broken) (hpod : s.partOfPod k.podid = some p) :
    ∃ t, Does (.trailPacketDeliver k) s t ∧ calm s t ∧ Action.podBarrierResult (64 * p + tree) v broken ∈ t.due := by
  let s1 : State := { s with act := some (.trailPacketDeliver k) }
  obtain ⟨⟨P, hP⟩, -⟩ := noteForeign_spec s1 k
  let u : State := s1.withHub { s1.hub with farPods := P }
  have hgo : s1.deliverHere k = u.addDue [.podBarrierResult (64 * p + tree) v broken] := by
    unfold State.deliverHere
    rw [hbody, hP]
    dsimp only
    rw [show u.partOfPod k.podid = some p from hpod]
  have hrun := execDeliver_here hb hd
  rw [show ({ s with act := some (.trailPacketDeliver k) } : State).deliverHere k = _ from hgo] at hrun
  exact ⟨_, hrun, calm_refl s, List.mem_append_right _ (List.mem_singleton_self _)⟩

/-- A message that no port takes is refused at its source, its token untainted on the way home (R280, R315). -/
theorem refuse_message {s : State} {k : Packet} (hb : s.behind k = false) (hd : k.dpkg ≠ s.fabric.num) (hlt : k.dpkg.toNat < 4096)
    (hheld : s.heldBack k = false) {m : Message} (hbody : k.body = .message m) (hport : s.portFor k = none) :
    ∃ t, Does (.trailPacketDeliver k) s t ∧ calm s t ∧ (∃ e, Action.eventRecordArrive e ∈ t.due ∧ e.code = .landRefused ∧ e.acct = m.tok.acct) ∧
      ∀ q, k.tok = some q →
        Action.combinerAdd (dieSite 0) { acct := q.acct, pkg := q.pkg, value := tokValue q.exp, taint := false, pts := 0#64 } ∈ t.due := by
  let s1 : State := { s with act := some (.trailPacketDeliver k) }
  have hrun := execDeliver_away hb hd hlt hheld
  dsimp only at hrun
  rw [show s1.portFor k = none from hport, show brokenDown k = none by unfold brokenDown; rw [hbody]] at hrun
  dsimp only at hrun
  have hlost : s1.packetLost k true = s1.event .landRefused 0 k.score (some m.part) 0#64 m.tok.acct := by
    unfold State.packetLost
    rw [hbody]
    exact if_pos rfl
  unfold State.refusePacket at hrun
  rw [show ({ s with act := some (.trailPacketDeliver k) } : State).packetLost k true = _ from hlost] at hrun
  unfold State.tokBack State.giveTok? at hrun
  cases htok : k.tok with
  | none =>
    rw [htok] at hrun
    exact ⟨_, hrun, calm_refl s, ⟨_, List.mem_append_right _ (List.mem_singleton_self _), rfl, rfl⟩, nofun⟩
  | some q =>
    rw [htok] at hrun
    refine ⟨_, hrun, calm_refl s, ⟨_, List.mem_append_left _ (List.mem_append_right _ (List.mem_singleton_self _)), rfl, rfl⟩, fun q' hq => ?_⟩
    obtain rfl := Option.some.inj hq
    exact List.mem_append_right _ (List.mem_singleton_self _)

end Sys2Proof.Machine
end

section
set_option Elab.async false
/-! Flow windows and promoted circuits, and pod barriers (R325 to R329, R342, R343). -/
namespace Sys2Proof.Machine

/-! ### Flow windows (R325, R329) -/

theorem endPromoted_promoted (s : State) (f : Promoted → Bool) :
    (s.endPromoted f).fabric.promoted = s.fabric.promoted.filter (fun p => !f p) ∧ (s.endPromoted f).hub = s.hub := by
  have fold (ps : List Promoted) (u : State) :
      (ps.foldl (fun s p => (s.dropSlots p.path).markFlow p.flow p.part true) u).fabric.promoted = u.fabric.promoted ∧
        (ps.foldl (fun s p => (s.dropSlots p.path).markFlow p.flow p.part true) u).hub = u.hub := by
    induction ps generalizing u with
    | nil => exact ⟨rfl, rfl⟩
    | cons p ps ih => exact ih ((u.dropSlots p.path).markFlow p.flow p.part true)
  obtain ⟨hp, hh⟩ := fold (s.fabric.promoted.filter f) s
  exact ⟨congrArg (List.filter fun p => !f p) hp, hh⟩

theorem FabricDue.calm {s t : State} (h : FabricDue s t) : calm s t := by obtain ⟨_, _, rfl⟩ := h; exact calm_refl s

theorem window_spec (s : State) :
    ∃ t, Does .flowWindowBoundary s t ∧ calm s t ∧ Action.flowWindowBoundary ∈ t.due ∧
      if s.time / 4096 ≤ s.hub.windows then t.fabric = s.fabric ∧ t.hub = s.hub
      else t.hub.windows = s.time / 4096 ∧ (∀ m ∈ t.fabric.meters, ∀ f ∈ m.2, f.count = 0) ∧
        ∀ q, q ∈ t.fabric.promoted ↔
          q ∈ s.fabric.promoted ∧ s.hub.meter.toNat ≤ 2 * flowCount q.flow (NatMap.findD [] q.flow.score s.fabric.meters) := by
  let s1 : State := { s with act := some .flowWindowBoundary }
  by_cases hw : s.time / 4096 ≤ s.hub.windows
  · simp only [if_pos hw]
    have hrun : Does .flowWindowBoundary s (s1.addDue [.flowWindowBoundary]) := by
      show execFlowWindowBoundary s1 = _
      unfold execFlowWindowBoundary
      exact if_pos hw
    exact ⟨_, hrun, calm_refl s, List.mem_append_right _ (List.mem_singleton_self _), rfl, rfl⟩
  · let low (p : Promoted) : Bool := decide (2 * flowCount p.flow (NatMap.findD [] p.flow.score s.fabric.meters) < s.hub.meter.toNat)
    obtain ⟨hprom, hhub⟩ := endPromoted_promoted s1 low
    have hcalm := (fabricDue_endPromoted s1 low).calm
    simp only [if_neg hw]
    obtain ⟨u, hu⟩ : ∃ u, s1.endPromoted low = u := ⟨_, rfl⟩
    have hrun : Does .flowWindowBoundary s
        (({ u with fabric := { u.fabric with meters := u.fabric.meters.map fun m => (m.1, m.2.map fun f => { f with count := 0 }) },
                   hub := { u.hub with windows := s.time / 4096 } } : State).addDue [.flowWindowBoundary]) := by
      subst hu
      show execFlowWindowBoundary s1 = _
      unfold execFlowWindowBoundary
      exact if_neg hw
    rw [hu] at hprom hhub hcalm
    refine ⟨_, hrun, hcalm, List.mem_append_right _ (List.mem_singleton_self _), rfl, fun m hm f hf => ?_, fun q => ?_⟩
    · obtain ⟨m', -, rfl⟩ := List.mem_map.1 hm
      obtain ⟨f', -, rfl⟩ := List.mem_map.1 hf
      rfl
    · show q ∈ u.fabric.promoted ↔ _
      rw [hprom, List.mem_filter]
      refine and_congr_right fun _ => ?_
      simp only [low, Bool.not_eq_true', decide_eq_false_iff_not, Nat.not_lt]

/-! ### Promotion (R326 to R328) -/

theorem find_takeSlots (s : State) (p : Nat) (ks : List (Nat × Nat)) {e : Nat × Nat} (he : e ∈ ks) :
    NatMap.find (slotKey e) (s.takeSlots p ks).fabric.wheels = some p := by
  have kept (is : List (Nat × Nat)) (m : NatMap Nat) (h : NatMap.find (slotKey e) m = some p) :
      NatMap.find (slotKey e) (is.foldl (fun m k => NatMap.put (slotKey k) p m) m) = some p := by
    induction is generalizing m with
    | nil => exact h
    | cons i is ih =>
      refine ih _ ?_
      rw [NatMap.find_put]
      split
      · rfl
      · exact h
  have taken (is : List (Nat × Nat)) (m : NatMap Nat) (h : e ∈ is) :
      NatMap.find (slotKey e) (is.foldl (fun m k => NatMap.put (slotKey k) p m) m) = some p := by
    induction is generalizing m with
    | nil => cases h
    | cons i is ih =>
      obtain rfl | h := List.mem_cons.1 h
      · exact kept is _ (NatMap.find_put_self ..)
      · exact ih _ h
  exact taken ks s.fabric.wheels he

theorem probeFrom_act (s : State) (a : Option Action) (g : Goal) (p w lim : Nat) (start : Hop) (n : Nat) (hs : List Hop) (first backs miss : Nat) :
    ({ s with act := a } : State).probeFrom g p w lim start n hs first backs miss = s.probeFrom g p w lim start n hs first backs miss := by
  induction n generalizing hs first backs miss with
  | zero => rfl
  | succ n ih =>
    cases hs with
    | nil => rfl
    | cons h hs =>
      unfold State.probeFrom
      simp only [ih]
      rfl

theorem probe_act (s : State) (a : Option Action) (g : Goal) (p w x0 c0 lim : Nat) :
    ({ s with act := a } : State).probe g p w x0 c0 lim = s.probe g p w x0 c0 lim := by
  unfold State.probe
  simp only [probeFrom_act]

/-- A probe in the package promotes a flow, or is remembered as abandoned (R326 to R328). -/
theorem promote_spec {s : State} {c key p : Nat} {f : Flow} (hflow : s.flowOf c key = some f) (hnew : NatMap.find (probeKey c key) s.fabric.probedAt = none)
    (hcount : f.count ≠ 0) (hmode : s.hub.modeDisp = 0#2) (hfree : ∀ q ∈ s.fabric.promoted, f.same q.flow = false)
    (hown : s.ownerOfQuad (quadOf c) = some p) (hd : f.dpkg = s.fabric.num) (hc : f.dcore < 256) :
    let w := min 32 ((f.count + 2047) / 2048)
    (∀ r, s.probe (.core f.dcore) p w (quadOf c) 0 64 = some r →
      ∃ t, Does (.flowPromoteProbe c key) s t ∧ calm s t ∧
        t.fabric.promoted = s.fabric.promoted ++ [{ key := key, flow := f, part := p, width := w, path := r.1, mark := s.fabric.nextPkt }] ∧
        ∀ e ∈ r.1, NatMap.find (slotKey e) t.fabric.wheels = some p) ∧
    (s.probe (.core f.dcore) p w (quadOf c) 0 64 = none →
      ∃ t, Does (.flowPromoteProbe c key) s t ∧ calm s t ∧ t.fabric.promoted = s.fabric.promoted ∧
        NatMap.find (probeKey c key) t.fabric.probedAt = some s.time) := by
  intro w
  let s1 : State := { s with act := some (.flowPromoteProbe c key) }
  have hany : (s1.fabric.promoted.any fun q => f.same q.flow) = false := by
    rw [List.any_eq_false]
    intro q hq
    rw [hfree q hq]
    exact Bool.false_ne_true
  have hrun : Does (.flowPromoteProbe c key) s (s1.promote c key f) := by
    show execFlowPromoteProbe s1 = _
    unfold execFlowPromoteProbe
    show (match s1.flowOf c key with | none => _ | some f => _) = _
    rw [show s1.flowOf c key = some f from hflow]
    dsimp only
    rw [show NatMap.find (probeKey c key) s1.fabric.probedAt = none from hnew, hany]
    dsimp only
    rw [if_neg]
    rintro (h | h | h | h)
    · exact Bool.false_ne_true h
    · exact hcount h
    · exact h hmode
    · exact Bool.false_ne_true h
  have hgoal : s1.flowGoal f = some (.core f.dcore) := by
    unfold State.flowGoal
    rw [if_neg (not_not_intro (show f.dpkg = s1.fabric.num from hd)), if_pos hc]
  constructor
  · intro r hr
    obtain ⟨ks, top, n⟩ := r
    let u : State := s1.tickFree.takeSlots p ks
    have hgo : s1.promote c key f =
        ({ u with fabric := { u.fabric with promoted := u.fabric.promoted ++ [{ key := key, flow := f, part := p, width := w, path := ks, mark := u.fabric.nextPkt }] } } : State).markFlow f p false := by
      unfold State.promote
      dsimp only
      rw [show s1.ownerOfQuad (quadOf c) = some p from hown, hgoal]
      dsimp only
      rw [show s1.probe (.core f.dcore) p (min 32 ((f.count + 2047) / 2048)) (quadOf c) 0 64 = some (ks, top, n) from (probe_act ..).trans hr]
      dsimp only
      exact if_neg fun h => h.1 hd
    rw [hgo] at hrun
    exact ⟨_, hrun, calm_refl s, rfl, fun e he => find_takeSlots s1.tickFree p ks he⟩
  · intro hr
    have hgo : s1.promote c key f = { s1.tickFree with fabric := { s1.fabric with probedAt := NatMap.put (probeKey c key) s.time s.fabric.probedAt } } := by
      unfold State.promote
      dsimp only
      rw [show s1.ownerOfQuad (quadOf c) = some p from hown, hgoal]
      dsimp only
      rw [show s1.probe (.core f.dcore) p (min 32 ((f.count + 2047) / 2048)) (quadOf c) 0 64 = none from (probe_act ..).trans hr]
    rw [hgo] at hrun
    exact ⟨_, hrun, calm_refl s, rfl, NatMap.find_put_self ..⟩

end Sys2Proof.Machine
end

section
set_option Elab.async false
/-! Pod barriers (R308, R342, R343): contributions combined, results that go down, episodes that wait too long. -/
namespace Sys2Proof.Machine

/-! ### Episodes -/

theorem PodOnly.calm {s t : State} (h : PodOnly s t) : calm s t := by obtain ⟨_, _, _, _, rfl⟩ := h; exact calm_refl s

theorem episodeAt_named (s : State) (key n : Nat) : (s.episodeAt key n).tree = key ∧ (s.episodeAt key n).num = n := by
  unfold State.episodeAt
  cases h : s.hub.episodes.find? fun e => decide (e.tree = key) && decide (e.num = n) with
  | none => exact ⟨rfl, rfl⟩
  | some e => simpa using List.find?_some h

theorem episodeAt_setEpisode (s : State) (e : Episode) : (s.setEpisode e).episodeAt e.tree e.num = e := by
  have hgone : (s.hub.episodes.filter fun x => !(decide (x.tree = e.tree) && decide (x.num = e.num))).find?
      (fun x => decide (x.tree = e.tree) && decide (x.num = e.num)) = none := by
    rw [List.find?_eq_none]
    intro x hx
    have hno := (List.mem_filter.1 hx).2
    rw [Bool.not_eq_true'] at hno
    rw [hno]
    exact Bool.false_ne_true
  have hfind : (s.setEpisode e).hub.episodes.find? (fun x => decide (x.tree = e.tree) && decide (x.num = e.num)) = some e := by
    show List.find? _ ((s.hub.episodes.filter fun x => !(decide (x.tree = e.tree) && decide (x.num = e.num))) ++ [e]) = some e
    rw [List.find?_append, hgone]
    simp
  unfold State.episodeAt
  rw [hfind]
  rfl

theorem nextEpisode_put (s : State) (key p q n : Nat) :
    NatMap.findD 0 (key * 512 + q) (NatMap.put (key * 512 + p) n s.hub.barNext) = if q = p then n else s.nextEpisode key q := by
  rw [findD_put]
  exact if_congr (by omega) rfl rfl

theorem not_open_of_participant {t : Tree} {q : Nat} (h : q ∈ t.participants) : q ≠ 511 := by
  unfold Tree.participants at h
  obtain h | h := List.mem_append.1 h
  · have := mem_upFrom_zero.1 (List.mem_filter.1 h).1
    omega
  · obtain ⟨p, hp, rfl⟩ := List.mem_map.1 h
    have := mem_upFrom_zero.1 (List.mem_filter.1 hp).1
    omega

/-! ### Contributions (R308, R343) -/

theorem grows_post (s : State) (k : Packet) : Grows s (s.post k) := ⟨_, rfl⟩

theorem grows_keepEpisode (s : State) (t : Tree) (e : Episode) : Grows s (s.keepEpisode t e) := .ite (.of_eq rfl) (.of_eq rfl)

theorem grows_episodeDone (s : State) (key : Nat) (t : Tree) (e : Episode) : Grows s (s.episodeDone key t e) :=
  .ite (.addDue s _) (.ite (.addDue s _) (grows_post s _))

theorem grows_contributeOne (s : State) (key part : Nat) (v : Option Word) (broken : Bool) : Grows s (s.contributeOne key part v broken) := by
  unfold State.contributeOne
  split
  · exact .refl s
  · dsimp only
    generalize (if decide (s.nextEpisode key part < s.openEpisode key) = true then _ else _ : Episode) = e1
    generalize hs1 : (s.setEpisode e1).withHub { (s.setEpisode e1).hub with barNext := NatMap.put (key * 512 + part) (s.nextEpisode key part + 1) s.hub.barNext } = s1
    have h1 : Grows s s1 := by rw [← hs1]; exact .of_eq rfl
    have h2 (b : Bool) : Grows s (if b then s1.addDue [.barTimeout key] else s1) := .ite (h1.trans (.addDue _ _)) h1
    exact .ite ((h2 _).trans (grows_keepEpisode ..)) (.ite ((h2 _).trans (grows_episodeDone ..)) (h2 _))

/-- Lost children that count in an episode leave the number of the open one. -/
theorem settleTree_open (s : State) (key : Nat) :
    PodOnly s (s.settleTree key) ∧ Grows s (s.settleTree key) ∧ (s.settleTree key).openEpisode key = s.openEpisode key := by
  have hfold (qs : List Nat) (h : ∀ q ∈ qs, q ≠ 511) (t : State) :
      let u := qs.foldl (fun s q => s.contributeOne key q none true) t
      PodOnly t u ∧ Grows t u ∧ u.openEpisode key = t.openEpisode key := by
    induction qs generalizing t with
    | nil => exact ⟨.refl t, .refl t, rfl⟩
    | cons q qs ih =>
      obtain ⟨hq, hqs⟩ := List.forall_mem_cons.1 h
      obtain ⟨honly, hgrow, hopen⟩ := ih hqs (t.contributeOne key q none true)
      exact ⟨(podOnly_contributeOne ..).trans honly, (grows_contributeOne ..).trans hgrow, hopen.trans (nextEpisode_contributeOne_other hq _ _)⟩
  unfold State.settleTree
  cases ht : s.treeOf key with
  | none => exact ⟨.refl s, .refl s, rfl⟩
  | some t =>
    dsimp only
    split
    · exact hfold _ (fun q hq => not_open_of_participant (List.mem_filter.1 hq).1) s
    · exact ⟨.refl s, .refl s, rfl⟩

/-- An episode that waits for a core, or that is complete, waits for no lost child alone. -/
theorem settleTree_none {s : State} {key : Nat} {t : Tree} (ht : s.treeOf key = some t)
    (h : (∃ m ∈ t.participants, m < 256 ∧ m ∉ (s.episodeAt key (s.openEpisode key)).joined) ∨
      ∀ m ∈ t.participants, m ∈ (s.episodeAt key (s.openEpisode key)).joined) : s.settleTree key = s := by
  unfold State.settleTree
  rw [ht]
  refine if_neg fun hall => ?_
  rw [Bool.and_eq_true, Bool.and_eq_true] at hall
  obtain ⟨⟨-, hsome⟩, hlost⟩ := hall
  rcases h with ⟨m, hm, hlt, hno⟩ | hyes
  · have := List.all_eq_true.1 hlost m (List.mem_filter.2 ⟨hm, by simpa using hno⟩)
    rw [Bool.and_eq_true, decide_eq_true_eq] at this
    omega
  · have hnil : (t.participants.filter fun q => !(s.episodeAt key (s.openEpisode key)).joined.contains q) = [] := by
      rw [List.filter_eq_nil_iff]
      intro q hq
      simpa using hyes q hq
    rw [hnil] at hsome
    cases hsome

theorem episodeDone_spec (s : State) (key : Nat) (t : Tree) (e : Episode) :
    (s.episodeDone key t e).hub = s.hub ∧
      (t.root = true → Action.podBarrierResult key (e.value.getD 0#64) e.broken ∈ (s.episodeDone key t e).due) ∧
      (t.root = false → (s.portAt t.up).lost = false →
        ∃ j, Action.trailPacketDeliver j ∈ (s.episodeDone key t e).due ∧ j.dpkg = (s.portAt t.up).peer ∧
          j.body = .podUp t.num (e.value.getD noValue) e.broken) := by
  unfold State.episodeDone
  refine ⟨?_, fun h => ?_, fun h hl => ?_⟩
  · dsimp only
    split
    · rfl
    · split <;> rfl
  · rw [if_pos h]
    exact List.mem_append_right _ (List.mem_singleton_self _)
  · rw [if_neg (by rw [h]; exact Bool.false_ne_true), if_neg (by rw [hl]; exact Bool.false_ne_true)]
    exact ⟨_, mem_due_post .., rfl, rfl⟩

/-- An episode with one more participant, and that participant's next episode. -/
def State.joined (s : State) (key part : Nat) (e : Episode) : State :=
  (s.setEpisode e).withHub { (s.setEpisode e).hub with barNext := NatMap.put (key * 512 + part) (s.nextEpisode key part + 1) s.hub.barNext }

theorem podOnly_joined (s : State) (key part : Nat) (e : Episode) : PodOnly s (s.joined key part e) := ⟨_, _, _, _, rfl⟩
theorem podOnly_addDue (s : State) (xs : List Action) : PodOnly s (s.addDue xs) := ⟨_, _, _, _, rfl⟩

/-- A contribution that joins the open episode: the tree goes on where it is complete, and waits else (R343). -/
theorem joined_spec {s : State} {key part : Nat} {tr : Tree} {v : Option Word} {broken first : Bool} {e : Episode} (ht : s.treeOf key = some tr)
    (hp : part ∈ tr.participants) (htree : e.tree = key) (hnum : e.num = s.openEpisode key)
    (hcase : (∃ m ∈ tr.participants, m < 256 ∧ m ∉ e.joined) ∨ ∀ m ∈ tr.participants, m ∈ e.joined) {s2 : State}
    (hs2 : s2 = if first then (s.joined key part e).addDue [.barTimeout key] else s.joined key part e)
    (hgo : s.contributeOne key part v broken = if tr.participants.all e.joined.contains then s2.episodeDone key tr e else s2) :
    let t := s.contribute key part v broken
    calm s t ∧ t.episodeAt key (s.openEpisode key) = e ∧ t.nextEpisode key part = s.nextEpisode key part + 1 ∧
      ((∀ m ∈ tr.participants, m ∈ e.joined) →
        (tr.root = true → Action.podBarrierResult key (e.value.getD 0#64) e.broken ∈ t.due) ∧
        (tr.root = false → (s.portAt tr.up).lost = false →
          ∃ j, Action.trailPacketDeliver j ∈ t.due ∧ j.dpkg = (s.portAt tr.up).peer ∧ j.body = .podUp tr.num (e.value.getD noValue) e.broken)) := by
  have h2 : s2.hub = (s.joined key part e).hub ∧ s2.fabric = s.fabric ∧ PodOnly s s2 := by
    rw [hs2]
    have hjoin := podOnly_joined s key part e
    split
    · exact ⟨rfl, rfl, hjoin.trans (podOnly_addDue _ _)⟩
    · exact ⟨rfl, rfl, hjoin⟩
  obtain ⟨hhub, hfab, honly⟩ := h2
  obtain ⟨w, hw⟩ : ∃ w, (if tr.participants.all e.joined.contains then s2.episodeDone key tr e else s2) = w := ⟨_, rfl⟩
  obtain ⟨hdone, hroot, hup⟩ := episodeDone_spec s2 key tr e
  have hwhub : w.hub = (s.joined key part e).hub ∧ PodOnly s w := by
    rw [← hw]
    split
    · exact ⟨hdone.trans hhub, honly.trans (podOnly_episodeDone ..)⟩
    · exact ⟨hhub, honly⟩
  obtain ⟨hwhub, hwonly⟩ := hwhub
  have hnext : (s.joined key part e).hub.barNext = NatMap.put (key * 512 + part) (s.nextEpisode key part + 1) s.hub.barNext := rfl
  have hwopen : w.openEpisode key = s.openEpisode key := by
    unfold State.openEpisode State.nextEpisode
    rw [hwhub, hnext, nextEpisode_put, if_neg (not_open_of_participant hp).symm]
    rfl
  have hwat : w.episodeAt key (s.openEpisode key) = e := by
    have hset := episodeAt_setEpisode s e
    have hwe : w.hub.episodes = (s.joined key part e).hub.episodes := congrArg Hub.episodes hwhub
    have hje : (s.joined key part e).hub.episodes = (s.setEpisode e).hub.episodes := rfl
    have hwtime : w.time = (s.setEpisode e).time := by obtain ⟨_, _, _, _, rfl⟩ := hwonly; rfl
    rw [htree, hnum] at hset
    unfold State.episodeAt at hset ⊢
    rw [hwe, hje, hwtime]
    exact hset
  have hall : tr.participants.all e.joined.contains = true ↔ ∀ m ∈ tr.participants, m ∈ e.joined := by simp
  have hstay : s.contribute key part v broken = w := by
    unfold State.contribute
    rw [hgo, hw]
    refine settleTree_none ((treeOf_podOnly hwonly key).trans ht) ?_
    rw [hwopen, hwat]
    exact hcase
  intro t
  rw [show t = w from hstay]
  refine ⟨hwonly.calm, hwat, ?_, fun hyes => ?_⟩
  · unfold State.nextEpisode
    rw [hwhub, hnext, nextEpisode_put, if_pos rfl]
    rfl
  · rw [← hw, if_pos (hall.2 hyes)]
    have hport : s2.portAt tr.up = s.portAt tr.up := by unfold State.portAt; rw [hfab]
    rw [hport] at hup
    exact ⟨hroot, hup⟩

/-- A value that comes to the open episode of a tree combines with what it has (R342). -/
theorem contributeOne_open {s : State} {key part : Nat} {tr : Tree} (ht : s.treeOf key = some tr) (hn : s.nextEpisode key part = s.openEpisode key)
    (v : Word) (broken : Bool) (value : Word)
    (hvalue : (match (s.episodeAt key (s.openEpisode key)).value with
      | some a => some (tr.combine a v)
      | none => some (BitVec.ofNat 64 (low63 v))) = some value) :
    let e := s.episodeAt key (s.openEpisode key)
    let e1 : Episode := { e with value := some value, joined := e.joined ++ [part], broken := e.broken || broken }
    let s2 := if e.joined.isEmpty && tr.root && decide (tr.tmo ≠ 0) then (s.joined key part e1).addDue [.barTimeout key] else s.joined key part e1
    s.contributeOne key part (some v) broken = if tr.participants.all e1.joined.contains then s2.episodeDone key tr e1 else s2 := by
  intro e e1 s2
  have hlate : decide (s.openEpisode key < s.openEpisode key) = false := by simp
  unfold State.contributeOne
  rw [ht, hn]
  dsimp only
  rw [hlate, if_neg Bool.false_ne_true, if_neg Bool.false_ne_true]
  dsimp only [s2, e1, e]
  unfold State.joined
  rw [hn]
  cases hv : (s.episodeAt key (s.openEpisode key)).value with
  | none =>
    rw [hv] at hvalue
    rw [← hvalue]
  | some a =>
    rw [hv] at hvalue
    rw [← hvalue]

/-! ### Results (R343) -/

/-- An answer to a unit leaves the others that run where they are. -/
theorem runsOn_modCore {s : State} {u c : Nat} (hu : u ≠ 0) (h : s.runsOn u = some c) (d : Nat) {f : Core → Core} (hf : ∀ x, (f x).unit = x.unit) :
    (s.modCore d f).runsOn u = some c ∧ (d = c → (s.modCore d f).coreAt c = f (s.coreAt c)) := by
  have hunits : (s.modCore d f).hub.units = s.hub.units := congrArg Hub.units (State.setCore_hub ..)
  unfold State.runsOn at h ⊢
  rw [if_neg hu] at h ⊢
  have hat : (s.modCore d f).unitAt u = s.unitAt u := by unfold State.unitAt; rw [hunits]
  rw [hat]
  cases hx : s.unitAt u with
  | none => rw [hx] at h; cases h
  | some x =>
    rw [hx] at h
    dsimp only at h ⊢
    have hrun : (s.coreAt x.core).unit = some u := by
      by_contra hno
      rw [if_neg hno] at h
      cases h
    rw [if_pos hrun] at h
    obtain rfl := Option.some.inj h
    have hcore (hd : d = x.core) : (s.modCore d f).coreAt x.core = f (s.coreAt x.core) := by
      subst hd
      refine (State.coreAt_setCore_of_ne (fun he => ?_) _ _).trans (if_pos rfl)
      have hnone := (hf _).symm.trans (congrArg Core.unit he)
      rw [hrun] at hnone
      cases hnone
    refine ⟨if_pos ?_, hcore⟩
    by_cases hd : d = x.core
    · rw [hcore hd, hf]
      exact hrun
    · rw [show (s.modCore d f).coreAt x.core = s.coreAt x.core from State.coreAt_setCore_other (Ne.symm hd) _]
      exact hrun

theorem runsOn_modCore_isSome {s : State} {u : Nat} (h : (s.runsOn u).isSome = true) (d : Nat) {f : Core → Core} (hf : ∀ x, (f x).unit = x.unit) :
    ((s.modCore d f).runsOn u).isSome = true := by
  by_cases hu : u = 0
  · rw [hu]
    rfl
  · obtain ⟨c, hc⟩ := Option.isSome_iff_exists.1 h
    rw [(runsOn_modCore hu hc d hf).1]
    rfl

/-- The entries of members that run are filled: sequencers alone change, and no register. -/
theorem answerBars_running (v : Word) (bs : List BarWait) {s : State} (h : ∀ b ∈ bs, (s.runsOn b.unit).isSome = true) :
    CoresOnly s (s.answerBars v bs) ∧ calm s (s.answerBars v bs) := by
  induction bs generalizing s with
  | nil => exact ⟨.refl s, calm_refl s⟩
  | cons b bs ih =>
    obtain ⟨c, hc⟩ := Option.isSome_iff_exists.1 (h b (List.mem_cons_self ..))
    obtain ⟨honly, hcalm⟩ := ih (s := s.modCore c fun x => x.answered b.id v)
      fun k hk => runsOn_modCore_isSome (h k (List.mem_cons_of_mem b hk)) c fun _ => rfl
    unfold State.answerBars
    rw [answer_running hc]
    exact ⟨(coresOnly_setCore ..).trans honly, (calm_modCore s c (f := fun x => x.answered b.id v) (fun _ => rfl) fun _ => rfl).trans hcalm⟩

/-- A result sent down to child packages. -/
theorem postDown_spec (key n : Nat) (v : Word) (broken : Bool) (ps : List Nat) (s : State) :
    let u := ps.foldl (fun s p => s.post (s.podPacket key p (.podDown n v broken))) s
    (∃ F xs, u = { s with fabric := F, due := s.due ++ xs }) ∧
      ∀ p ∈ ps, ∃ j, Action.trailPacketDeliver j ∈ u.due ∧ j.dpkg = (s.portAt p).peer ∧ j.body = .podDown n v broken := by
  induction ps generalizing s with
  | nil => exact ⟨⟨s.fabric, [], by rw [List.append_nil]; rfl⟩, nofun⟩
  | cons p ps ih =>
    obtain ⟨⟨F, xs, h⟩, hrest⟩ := ih (s.post (s.podPacket key p (.podDown n v broken)))
    rw [List.foldl_cons]
    refine ⟨⟨F, _, h.trans (congrArg (fun d => { s with fabric := F, due := d }) (List.append_assoc ..))⟩, fun q hq => ?_⟩
    obtain rfl | hq := List.mem_cons.1 hq
    · refine ⟨{ s.podPacket key q (.podDown n v broken) with seq := s.fabric.nextPkt }, ?_, rfl, rfl⟩
      rw [h]
      exact List.mem_append_left _ (mem_due_post s _)
    · exact hrest q hq

/-- The result of the oldest open episode of a tree: members that wait have it, child packages are told, and the next episode opens (R343). -/
theorem podResult_spec {s : State} {key : Nat} {tr : Tree} (ht : s.treeOf key = some tr) (v : Word) (broken : Bool)
    (hruns : ∀ b ∈ s.hub.barWaits, b.tree = key → b.num = s.openEpisode key → (s.runsOn b.unit).isSome = true) :
    let t := s.podResult key v broken
    calm s t ∧ Grows s t ∧ t.openEpisode key = s.openEpisode key + 1 ∧
      (∀ b, b ∈ t.hub.barWaits ↔ b ∈ s.hub.barWaits ∧ ¬ (b.tree = key ∧ b.num = s.openEpisode key)) ∧
      (∀ p < 32, tr.down.getLsbD p = true →
        ∃ j, Action.trailPacketDeliver j ∈ t.due ∧ j.dpkg = (s.portAt p).peer ∧ j.body = .podDown tr.num v broken) ∧
      ∀ b d, (s.hub.barWaits.filter fun b => decide (b.tree = key) && decide (b.num = s.openEpisode key)) = [b] → b.unit ≠ 0 →
        s.runsOn b.unit = some d →
        ∀ q < 8, (vget {} (t.coreAt d).q q).entries =
          fillId b.id (BitVec.ofNat 64 (v.toNat % 2 ^ 63 + b2n broken * 2 ^ 63)) (vget {} (s.coreAt d).q q).entries := by
  intro t
  obtain ⟨hit, hhit⟩ : ∃ l, (s.hub.barWaits.filter fun b => decide (b.tree = key) && decide (b.num = s.openEpisode key)) = l := ⟨_, rfl⟩
  obtain ⟨e1, he1⟩ : ∃ e : Episode, ({ (s.episodeAt key (s.openEpisode key)) with value := some v, broken := broken } : Episode) = e := ⟨_, rfl⟩
  obtain ⟨s0, hs0⟩ : ∃ u, s.keepEpisode tr e1 = u := ⟨_, rfl⟩
  have honly0 := podOnly_keepEpisode s tr e1
  have hnext0 := barNext_keepEpisode s tr e1
  have hgrow0 := grows_keepEpisode s tr e1
  have hfab0 : (s.keepEpisode tr e1).fabric = s.fabric := by unfold State.keepEpisode; split <;> rfl
  rw [hs0] at honly0 hnext0 hgrow0 hfab0
  let s1 : State := s0.withHub
    { s0.hub with
      barWaits := s.hub.barWaits.filter fun b => !(decide (b.tree = key) && decide (b.num = s.openEpisode key))
      barNext := NatMap.put (key * 512 + 511) (s.openEpisode key + 1) s.hub.barNext }
  obtain ⟨E, B, F, D, hs0'⟩ := honly0
  have hruns1 (u : Nat) : s1.runsOn u = s.runsOn u := by
    dsimp only [s1]
    rw [hs0']
    rfl
  have hbars : ∀ b ∈ hit, (s1.runsOn b.unit).isSome = true := by
    intro b hb
    rw [← hhit] at hb
    obtain ⟨hmem, hsel⟩ := List.mem_filter.1 hb
    rw [Bool.and_eq_true, decide_eq_true_eq, decide_eq_true_eq] at hsel
    rw [hruns1]
    exact hruns b hmem hsel.1 hsel.2
  obtain ⟨hcores, hcalm⟩ := answerBars_running (podEntry v broken) hit hbars
  obtain ⟨s2, hs2⟩ : ∃ u, s1.answerBars (podEntry v broken) hit = u := ⟨_, rfl⟩
  rw [hs2] at hcores hcalm
  obtain ⟨⟨F3, xs, h3⟩, hdown⟩ := postDown_spec key tr.num v broken ((upFrom 0 32).filter fun p => tr.down.getLsbD p) s2
  obtain ⟨s3, hs3⟩ : ∃ u, ((upFrom 0 32).filter fun p => tr.down.getLsbD p).foldl (fun s p => s.post (s.podPacket key p (.podDown tr.num v broken))) s2 = u := ⟨_, rfl⟩
  rw [hs3] at h3 hdown
  obtain ⟨honly4, hgrow4, hopen4⟩ := settleTree_open s3 key
  have hgo : t = s3.settleTree key := by
    dsimp only [t]
    unfold State.podResult
    rw [ht]
    dsimp only
    rw [hhit, he1, hs0]
    rw [show State.answerBars _ (podEntry v broken) hit = s2 from hs2, hs3]
  clear_value t
  subst hgo
  obtain ⟨K, O, h2⟩ := hcores
  have hgrow : Grows s (s3.settleTree key) := by
    refine (hgrow0.trans (.of_eq (?_ : s1.due = _))).trans (Grows.trans (t := s3) ⟨xs, ?_⟩ hgrow4)
    · rfl
    · rw [h3, h2]
  have hcalms : calm s s1 := by
    dsimp only [s1]
    rw [hs0']
    exact calm_refl s
  have hcalm3 : calm s2 s3 := by rw [h3]; exact calm_refl s2
  refine ⟨((hcalms.trans hcalm).trans hcalm3).trans honly4.calm, hgrow, ?_, fun b => ?_, fun p hp hbit => ?_, fun b d hb hu hd q hq => ?_⟩
  · rw [hopen4, h3, h2]
    change NatMap.findD 0 (key * 512 + 511) (NatMap.put (key * 512 + 511) (s.openEpisode key + 1) s.hub.barNext) = _
    rw [findD_put, if_pos rfl]
  · have hwaits : (s3.settleTree key).hub.barWaits = s1.hub.barWaits := by
      obtain ⟨_, _, _, _, h4⟩ := honly4
      rw [h4, h3, h2]
    rw [hwaits]
    show b ∈ s.hub.barWaits.filter _ ↔ _
    rw [List.mem_filter, Bool.not_eq_true', ← Bool.not_eq_true, Bool.and_eq_true, decide_eq_true_eq, decide_eq_true_eq]
  · obtain ⟨j, hj, hpeer, hbody⟩ := hdown p (List.mem_filter.2 ⟨mem_upFrom_zero.2 hp, hbit⟩)
    refine ⟨j, hgrow4.mem hj, hpeer.trans ?_, hbody⟩
    rw [h2]
    show ((NatMap.findD {} p s0.fabric.ports).peer) = _
    rw [hfab0]
    rfl
  · rw [hhit] at hb
    have hcore : (s3.settleTree key).coreAt d = s2.coreAt d := by
      obtain ⟨_, _, _, _, h4⟩ := honly4
      rw [h4, h3]
      rfl
    have hcore1 : s1.coreAt d = s.coreAt d := by
      dsimp only [s1]
      rw [hs0']
      rfl
    have hat : s2.coreAt d = (s.coreAt d).answered b.id (podEntry v broken) := by
      have hans := answer_running ((hruns1 b.unit).trans hd) b.id (podEntry v broken)
      rw [← hs2, hb]
      show (s1.answer b.unit b.id (podEntry v broken)).coreAt d = _
      rw [hans, (runsOn_modCore hu ((hruns1 b.unit).trans hd) d (f := fun x => x.answered b.id (podEntry v broken)) fun _ => rfl).2 rfl, hcore1]
    rw [hcore, hat]
    exact congrArg Queue.entries (vget_vmap (n := 8) ({} : Queue) ({} : Queue)
      (fun y => { entries := fillId b.id (podEntry v broken) y.entries, retained := fillId b.id (podEntry v broken) y.retained }) (s.coreAt d).q hq)

/-- An episode of the root that has waited TMO is BROKEN, and one that has not waits on (R343). -/
theorem barTimeout_spec {s : State} {key : Nat} {tr : Tree} {e : Episode} (ht : s.treeOf key = some tr)
    (he : (s.hub.episodes.find? fun e => decide (e.tree = key) && decide (e.num = s.openEpisode key)) = some e)
    (hmiss : ∃ m ∈ tr.participants, m ∉ e.joined)
    (hruns : ∀ b ∈ s.hub.barWaits, b.tree = key → b.num = s.openEpisode key → (s.runsOn b.unit).isSome = true) :
    ∃ t, Does (.barTimeout key) s t ∧ calm s t ∧
      if e.since + tr.tmo ≤ s.time then
        t.openEpisode key = s.openEpisode key + 1 ∧ ∃ r, Action.eventRecordArrive r ∈ t.due ∧ r.code = .barTimeout
      else t.hub = s.hub ∧ Action.barTimeout key ∈ t.due := by
  let s1 : State := { s with act := some (.barTimeout key) }
  have hall : ¬ tr.participants.all e.joined.contains = true := by
    obtain ⟨m, hm, hno⟩ := hmiss
    exact fun h => hno (by simpa using List.all_eq_true.1 h m hm)
  let s2 : State := s1.event .barTimeout 5 0 (some (key / 64)) 0#64 0#32 0#32 (BitVec.ofNat 64 tr.num)
  have hrun : Does (.barTimeout key) s (if e.since + tr.tmo ≤ s.time then s2.podResult key (e.value.getD 0#64) true else s1.addDue [.barTimeout key]) := by
    show execBarTimeout s1 = _
    unfold execBarTimeout
    show Host.Outcome.next (s1.expireEpisode key) = _
    unfold State.expireEpisode
    rw [show s1.treeOf key = some tr from ht]
    dsimp only
    rw [show (s1.hub.episodes.find? fun e => decide (e.tree = key) && decide (e.num = s1.openEpisode key)) = some e from he]
    dsimp only
    rw [if_neg hall]
  by_cases hlate : e.since + tr.tmo ≤ s.time
  · simp only [if_pos hlate] at hrun ⊢
    obtain ⟨hcalm, hgrow, hopen, -⟩ := podResult_spec (s := s2) ht (e.value.getD 0#64) true hruns
    obtain ⟨t, htt⟩ : ∃ t, s2.podResult key (e.value.getD 0#64) true = t := ⟨_, rfl⟩
    rw [htt] at hrun hcalm hgrow hopen
    exact ⟨t, hrun, hcalm, hopen, _, hgrow.mem (List.mem_append_right _ (List.mem_singleton_self _)), rfl⟩
  · simp only [if_neg hlate] at hrun ⊢
    exact ⟨_, hrun, calm_refl s, rfl, List.mem_append_right _ (List.mem_singleton_self _)⟩

theorem execPodBarrierCombine_value {s : State} {key part : Nat} {v : Word} {broken : Bool} (hb : ¬ (part < 256 ∧ broken = true)) (hv : v.getLsbD 63 = false) :
    Does (.podBarrierCombine key (some part) v broken) s
      (({ s with act := some (.podBarrierCombine key (some part) v broken) } : State).contribute key part (some v) broken) := by
  show execPodBarrierCombine { s with act := some (.podBarrierCombine key (some part) v broken) } = _
  unfold execPodBarrierCombine
  dsimp only
  rw [if_neg]
  rintro (h | h)
  · exact hb h
  · exact Bool.false_ne_true (hv.symm.trans h)

/-- Settles O48: a packet delivered or sent on, a flow's promotion, and each step of a pod barrier by its own lemma. -/
theorem packetFlowActionResults : Obligations.PacketFlowActionResults := by
  unfold Obligations.PacketFlowActionResults
  intro s k c key
  refine ⟨fun hb => ⟨fun hd => ⟨fun m hm => deliver_message hb hd hm, fun r hr => (deliver_ret hb hd hr).1, fun r hr => (deliver_ret hb hd hr).2,
      fun x va lo n p pas hbody hpod hread => deliver_read hb hd hbody hpod hread, fun tree v broken p hbody hpod => deliver_podDown hb hd hbody hpod⟩,
      fun hd hlt hheld => ⟨fun p hport hsends hfits hroom => ?_, fun m hm hport => refuse_message hb hd hlt hheld hm hport⟩⟩,
    window_spec s, fun f p hflow hnew hcount hmode hfree hown hd hc => promote_spec hflow hnew hcount hmode hfree hown hd hc,
    fun tr part v broken ht hp hn hb hv => ?_, fun tr v broken ht hruns => ?_, fun tr e ht he hmiss hruns => barTimeout_spec ht he hmiss hruns⟩
  · let s1 : State := { s with act := some (.trailPacketDeliver k) }
    have hrun := execDeliver_away hb hd hlt hheld
    dsimp only at hrun
    rw [show s1.portFor k = some p from hport] at hrun
    obtain ⟨fs, hcalm, hat, hdata, hnum⟩ := leaveBy_spec (s := s1) hsends hfits hroom
    exact ⟨s1.leaveBy p k, fs, hrun, hcalm, hat, hdata, hnum⟩
  · intro e value e1 hcase
    let s1 : State := { s with act := some (.podBarrierCombine key (some part) v broken) }
    obtain ⟨htree, hnum⟩ := episodeAt_named s key (s.openEpisode key)
    have hvalue : (match (s1.episodeAt key (s1.openEpisode key)).value with
        | some a => some (tr.combine a v)
        | none => some (BitVec.ofNat 64 (low63 v))) = some value := by
      show (match (s.episodeAt key (s.openEpisode key)).value with
        | some a => some (tr.combine a v)
        | none => some (BitVec.ofNat 64 (low63 v))) = some (match (s.episodeAt key (s.openEpisode key)).value with
        | some a => tr.combine a v
        | none => BitVec.ofNat 64 (v.toNat % 2 ^ 63))
      cases (s.episodeAt key (s.openEpisode key)).value <;> rfl
    have hrun := execPodBarrierCombine_value (s := s) (key := key) hb hv
    clear_value value
    have hone := contributeOne_open (s := s1) ht hn v broken value hvalue
    have hspec := joined_spec (s := s1) (e := e1) ht hp htree hnum hcase rfl hone
    exact ⟨_, hrun, hspec⟩
  · let s1 : State := { s with act := some (.podBarrierResult key v broken) }
    obtain ⟨hcalm, -, hopen, hwaits, hdown, hentry⟩ := podResult_spec (s := s1) ht v broken hruns
    exact ⟨s1.podResult key v broken, rfl, hcalm, hopen, hwaits, hdown, hentry⟩

end Sys2Proof.Machine
end

section
set_option Elab.async false
/-! The numbers of units (R284): a unit numbered 0. -/
namespace Sys2Proof.Machine

/-- A trigger of label 7. -/
def seventh : Trigger :=
  { label := 7#16, unit := 0, prio := 0, bar := none, tok := { acct := 0#32, pkg := 0#16, exp := 4#7 }, pair := false, part := 0, pts := 0#64 }

/-- A message of label 7 to core 0. -/
def seventhMessage : Message :=
  { label := 7#16, dcore := 0#8, remote := false, dpkg := 0#16, payload := 1#512, srcCore := 9, unit := 9, srcPkg := 0#16, part := 0, podid := 0#16,
    tok := { acct := 0#32, pkg := 0#16, exp := 4#7 }, pts := 3#64, seq := 1 }

/-- No unit yet, and number 0 the next to be given: a message that spawns a unit is due. -/
def unnumbered : State :=
  { State.reset with
    core := { trigs := Vector.ofFn fun i => if i.val = 0 then some seventh else none }, due := [.messageArrive seventhMessage]
    hub := { State.reset.hub with parts := State.reset.hub.parts.set 0 { st := 1#2, quads := 0xFFFFFFFF#32 }, nextUnit := 0 } }

/-- The units after a step, where it gives a state. -/
def unitsAfter (s : State) : NatMap Uni := match step s with | .next t => t.hub.units | _ => []

theorem unnumbered_spawns : ((unitsAfter unnumbered).any fun k => decide (k.1 = 0)) = true := by decide +kernel

theorem unnumbered_canonical : unnumbered.Canonical := ⟨rfl, rfl⟩

theorem unnumbered_orderly : unnumbered.Orderly where
  others := State.reset_orderly.others
  hub := State.reset_orderly.hub
  power := State.reset_orderly.power
  fabric := State.reset_orderly.fabric
  pads := State.reset_orderly.pads
  units := fun _ h => (List.not_mem_nil h).elim
  xfers := State.reset_orderly.xfers

/-- Refutes O59: where no unit is listed nothing in the premise keeps the next number above 0, and the unit that takes number 0 is not above it. -/
theorem not_stepKeepsOrder : ¬ Obligations.StepKeepsOrder := by
  unfold Obligations.StepKeepsOrder
  intro h
  obtain ⟨k, hk, hzero⟩ := List.any_eq_true.1 unnumbered_spawns
  cases hstep : step unnumbered with
  | next t =>
    have hunits : unitsAfter unnumbered = t.hub.units := by unfold unitsAfter; rw [hstep]
    have hpos := ((h unnumbered t unnumbered_canonical unnumbered_orderly hstep).units k (hunits ▸ hk)).1
    rw [of_decide_eq_true hzero] at hpos
    exact Nat.lt_irrefl 0 hpos
  | fault f =>
    unfold unitsAfter at hk
    rw [hstep] at hk
    cases hk
  | refused r =>
    unfold unitsAfter at hk
    rw [hstep] at hk
    cases hk

end Sys2Proof.Machine
end

section
set_option Elab.async false
/-! The boundary of a control interval (R380 to R388, R395, R396): energy charged, limits moved, logic domains asked. -/
namespace Sys2Proof.Machine

/-! ### Energy charged (R380 to R382) -/

/-- Accounts, energies, carried fractions and what is due alone differ. -/
def Charged (s t : State) : Prop :=
  ∃ A E C D, t = { s with hub := { s.hub with accounts := A }, power := { s.power with energy := E, carryNj := C }, due := D }

theorem Charged.refl (s : State) : Charged s s := ⟨_, _, _, _, rfl⟩

theorem Charged.trans {s t u : State} (h : Charged s t) (k : Charged t u) : Charged s u := by
  obtain ⟨_, _, _, _, rfl⟩ := h
  obtain ⟨A, E, C, D, rfl⟩ := k
  exact ⟨A, E, C, D, rfl⟩

/-- The charges to partitions between two states: accounts, energies, carried fractions and what is due change, and partition `p` is charged `n p`
nanojoules, in whole microjoules with the rest carried. -/
structure Charging (s t : State) (n : Nat → Nat) : Prop where
  only : Charged s t
  energy : RisingKeys s.power.energy → RisingKeys t.power.energy
  carry : RisingKeys s.power.carryNj → RisingKeys t.power.carryNj
  charged : RisingKeys s.power.energy → RisingKeys s.power.carryNj → ∀ p < 8, ∃ k,
    NatMap.findD 0#64 p t.power.energy = NatMap.findD 0#64 p s.power.energy + BitVec.ofNat 64 k ∧
      k * 1000 + NatMap.findD 0 p t.power.carryNj = NatMap.findD 0 p s.power.carryNj + n p

theorem Charging.trans {s t u : State} {m n : Nat → Nat} (h : Charging s t m) (k : Charging t u n) : Charging s u fun p => m p + n p := by
  obtain ⟨honly, he, hc, hp⟩ := h
  obtain ⟨konly, ke, kc, kp⟩ := k
  refine ⟨honly.trans konly, fun r => ke (he r), fun r => kc (hc r), fun re rc p hlt => ?_⟩
  obtain ⟨i, hi, hi2⟩ := hp re rc p hlt
  obtain ⟨j, hj, hj2⟩ := kp (he re) (hc rc) p hlt
  refine ⟨i + j, ?_, ?_⟩
  case refine_2 =>
    generalize NatMap.findD 0 p u.power.carryNj = x at hj2 ⊢
    generalize NatMap.findD 0 p t.power.carryNj = y at hi2 hj2
    generalize NatMap.findD 0 p s.power.carryNj = z at hi2 ⊢
    clear hi hj
    linarith
  rw [hj, hi, BitVec.add_assoc, BitVec.ofNat_add]

theorem Charging.refl (s : State) : Charging s s fun _ => 0 :=
  ⟨⟨_, _, _, _, rfl⟩, id, id, fun _ _ _ _ => ⟨0, (BitVec.add_zero _).symm, by omega⟩⟩

theorem Charging.congr {s t : State} {m n : Nat → Nat} (h : Charging s t m) (e : ∀ p < 8, m p = n p) : Charging s t n :=
  ⟨h.only, h.energy, h.carry, fun re rc p hp => by rw [← e p hp]; exact h.charged re rc p hp⟩

theorem charging_setAcc (s : State) (i : Nat) (a : Account) : Charging s (s.setAcc i a) fun _ => 0 :=
  ⟨⟨_, _, _, _, rfl⟩, id, id, fun _ _ _ _ => ⟨0, (BitVec.add_zero _).symm, Nat.add_comm ..⟩⟩

theorem charging_addDue (s : State) (xs : List Action) : Charging s (s.addDue xs) fun _ => 0 :=
  ⟨⟨_, _, _, _, rfl⟩, id, id, fun _ _ _ _ => ⟨0, (BitVec.add_zero _).symm, Nat.add_comm ..⟩⟩

/-- A charge to a partition: it alone is charged, and its fraction is below a microjoule then. -/
theorem chargePart_spec (s : State) (q nj : Nat) :
    Charging s (s.chargePart q nj) (fun p => if p = q then nj else 0) ∧
      (RisingKeys s.power.carryNj → ∀ p, p = q ∨ NatMap.findD 0 p s.power.carryNj < 1000 → NatMap.findD 0 p (s.chargePart q nj).power.carryNj < 1000) := by
  have hcarry (hc : RisingKeys s.power.carryNj) (p : Nat) : NatMap.findD 0 p (s.chargePart q nj).power.carryNj =
      if p = q then (nj + NatMap.findD 0 q s.power.carryNj) % 1000 else NatMap.findD 0 p s.power.carryNj := NatMap.findD_putD hc 0 p q _
  have henergy (he : RisingKeys s.power.energy) (p : Nat) : NatMap.findD 0#64 p (s.chargePart q nj).power.energy =
      if p = q then NatMap.findD 0#64 q s.power.energy + BitVec.ofNat 64 ((nj + NatMap.findD 0 q s.power.carryNj) / 1000)
      else NatMap.findD 0#64 p s.power.energy := NatMap.findD_putD he 0#64 p q _
  refine ⟨⟨⟨_, _, _, _, rfl⟩, fun h => h.putD _ _ _, fun h => h.putD _ _ _, fun he hc p _ => ?_⟩, fun hc p hp => ?_⟩
  · rw [hcarry hc, henergy he]
    by_cases hpq : p = q
    · subst hpq
      refine ⟨_, (if_pos rfl), ?_⟩
      rw [if_pos rfl, if_pos rfl]
      omega
    · simp only [if_neg hpq]
      exact ⟨0, (BitVec.add_zero _).symm, by omega⟩
  · rw [hcarry hc]
    split
    · exact Nat.mod_lt _ (by decide)
    · next hpq => exact hp.resolve_left hpq

/-- A charge to a job account is carried under a key of its own. -/
theorem chargeJob_spec (s : State) (i nj : Nat) : Charging s (s.chargeJob i nj) fun _ => 0 := by
  have hround (key : Nat) (hk : 16 ≤ key) : Charging s (s.rounded key nj).2 fun _ => 0 := by
    refine ⟨⟨_, _, _, _, rfl⟩, id, fun h => h.putD _ _ _, fun _ _ p hp => ⟨0, (BitVec.add_zero _).symm, ?_⟩⟩
    rw [show NatMap.findD 0 p (s.rounded key nj).2.power.carryNj = NatMap.findD 0 p s.power.carryNj from NatMap.findD_putD_ne (by omega) ..]
    omega
  unfold State.chargeJob
  dsimp only
  split
  · exact .refl s
  · have hacc (a : Account) := ((hround (16 + i) (by omega)).trans (charging_setAcc _ i a)).congr (n := fun _ => 0) fun _ _ => rfl
    split
    · exact ((hacc _).trans (charging_addDue _ _)).congr fun _ _ => rfl
    · exact hacc _

theorem chargeCores_spec (es : List (Nat × Nat)) (s : State) : Charging s (s.chargeCores es) fun _ => 0 := by
  induction es generalizing s with
  | nil => exact .refl s
  | cons e es ih =>
    refine Charging.congr (Charging.trans (t := s.chargeCore e.1 e.2) ?_ (ih _)) fun _ _ => rfl
    unfold State.chargeCore
    dsimp only
    split
    · exact chargeJob_spec ..
    · exact .refl s

theorem ownerOfQuad_parts {s t : State} (h : t.hub.parts = s.hub.parts) (q : Nat) : t.ownerOfQuad q = s.ownerOfQuad q := by
  unfold State.ownerOfQuad State.partAt
  rw [h]

/-- The energy of a quadrant is charged to its owner (R380). -/
theorem chargeQuad_spec (s : State) (r : Reading) : Charging s (s.chargeQuad r) fun p => if s.ownerOfQuad r.quad = some p then r.energyNj else 0 := by
  unfold State.chargeQuad
  dsimp only
  cases ho : s.ownerOfQuad r.quad with
  | none => exact (chargeCores_spec _ s).congr fun p _ => (if_neg nofun).symm
  | some q =>
    refine ((chargePart_spec s q r.energyNj).1.trans (chargeCores_spec _ _)).congr fun p _ => ?_
    exact if_congr (by rw [Option.some.injEq]; exact eq_comm) rfl rfl

theorem chargeQuads_spec (rs : List Reading) (s : State) :
    Charging s (s.eachReading (fun s r => s.chargeQuad r) rs)
      fun p => sumOf Reading.energyNj (rs.filter fun r => decide (s.ownerOfQuad r.quad = some p)) := by
  induction rs generalizing s with
  | nil => exact .refl s
  | cons r rs ih =>
    have hone := chargeQuad_spec s r
    have hparts : (s.chargeQuad r).hub.parts = s.hub.parts := by obtain ⟨_, _, _, _, h⟩ := hone.only; rw [h]
    refine (hone.trans (ih _)).congr fun p _ => ?_
    simp only [ownerOfQuad_parts hparts]
    by_cases ho : s.ownerOfQuad r.quad = some p
    · rw [List.filter_cons_of_pos (by rw [ho]; exact decide_eq_true rfl), if_pos ho]
      rfl
    · rw [List.filter_cons_of_neg (by simpa using ho), if_neg ho]
      exact Nat.zero_add _

/-- Charges to partitions in turn, each named once. -/
theorem chargeEach_spec (g : Nat → Nat) (ps : List Nat) (hps : ps.Nodup) {f : State → Nat → State} (s : State)
    (hf : ∀ u, u.hub.parts = s.hub.parts → ∀ p, f u p = u.chargePart p (g p)) :
    Charging s (s.each f ps) (fun p => if p ∈ ps then g p else 0) ∧
      (RisingKeys s.power.carryNj → ∀ p, p ∈ ps ∨ NatMap.findD 0 p s.power.carryNj < 1000 → NatMap.findD 0 p (s.each f ps).power.carryNj < 1000) := by
  induction ps generalizing s with
  | nil => exact ⟨(Charging.refl s).congr fun _ _ => rfl, fun _ _ h => h.resolve_left List.not_mem_nil⟩
  | cons q ps ih =>
    obtain ⟨hq, hps⟩ := List.nodup_cons.1 hps
    have hone := chargePart_spec s q (g q)
    rw [← hf s rfl q] at hone
    have hparts : (f s q).hub.parts = s.hub.parts := by obtain ⟨_, _, _, _, h⟩ := hone.1.only; rw [h]
    obtain ⟨hall, hlow⟩ := ih hps (f s q) fun u hu p => hf u (hu.trans hparts) p
    refine ⟨(hone.1.trans hall).congr fun p _ => ?_, fun hc p hp => ?_⟩
    · by_cases hpq : p = q
      · subst hpq
        simp [hq]
      · simp [hpq]
    · refine hlow (hone.1.carry hc) p ?_
      rcases hp with hp | hp
      · exact (List.mem_cons.1 hp).symm.imp id fun h => hone.2 hc p (.inl h)
      · exact .inr (hone.2 hc p (.inr hp))

theorem nodup_activeParts (s : State) : s.activeParts.Nodup := (upFrom_nodup 0 8).filter _

/-- The energy of hub and fixed supplies is divided among the ACTIVE partitions (R380). -/
theorem chargeShared_spec (s : State) (busy idle : Nat) :
    let w (p : Nat) : Nat := Config.sense s.free (1000 + p)
    let total := sumOf w s.activeParts
    let quads := sumOf (fun p => (s.partAt p).quadList.length) s.activeParts
    let part (p : Nat) : Nat := (if total = 0 then 0 else busy * w p / total) + (if quads = 0 then 0 else idle * (s.partAt p).quadList.length / quads)
    Charging s (s.chargeShared busy idle) (fun p => if p ∈ s.activeParts then part p else 0) ∧
      (RisingKeys s.power.carryNj → ∀ p ∈ s.activeParts, NatMap.findD 0 p (s.chargeShared busy idle).power.carryNj < 1000) := by
  intro w total quads part
  obtain ⟨hall, hlow⟩ := chargeEach_spec part s.activeParts (nodup_activeParts s) (s := s) (f := fun u p =>
    let byUse := if total = 0 then 0 else busy * w p / total
    let byQuads := if quads = 0 then 0 else idle * (u.partAt p).quadList.length / quads
    u.chargePart p (byUse + byQuads)) fun u hu p => by
      dsimp only [part]
      rw [show u.partAt p = s.partAt p by unfold State.partAt; rw [hu]]
  exact ⟨hall, fun hc p hp => hlow hc p (.inl hp)⟩

theorem resumeJobs_spec (s : State) : Charging s s.resumeJobs fun _ => 0 := by
  have fold (as : List (Nat × Account)) (u : State) :
      Charging u (as.foldl (fun s a => s.setAcc a.1 { s.accAt a.1 with stopped := false }) u) fun _ => 0 := by
    induction as generalizing u with
    | nil => exact .refl u
    | cons a as ih => exact ((charging_setAcc u a.1 _).trans (ih _)).congr fun _ _ => rfl
  exact fold _ s

/-! ### Limits moved (R384 to R387, R396) -/

/-- Current levels at the boundary: a quadrant's falls where its current was within its limit (R384). -/
theorem easeAll_spec (rs : List Reading) (hrs : (rs.map Reading.quad).Nodup) (s : State) (hs : RisingKeys s.power.ilevel) :
    let t := s.eachReading (fun s r => s.easeCurrent r) rs
    (∃ L, t = { s with power := { s.power with ilevel := L } }) ∧
      (∀ r ∈ rs, t.ilevelOf r.quad = if r.currentOk then s.ilevelOf r.quad - 1 else s.ilevelOf r.quad) ∧
      ∀ q, q ∉ rs.map Reading.quad → t.ilevelOf q = s.ilevelOf q := by
  induction rs generalizing s with
  | nil => exact ⟨⟨_, rfl⟩, nofun, fun _ _ => rfl⟩
  | cons r rs ih =>
    obtain ⟨hr, hrs⟩ := List.nodup_cons.1 hrs
    have hone : (∃ L, s.easeCurrent r = { s with power := { s.power with ilevel := L } }) ∧ RisingKeys (s.easeCurrent r).power.ilevel ∧
        ∀ q, (s.easeCurrent r).ilevelOf q = if q = r.quad ∧ r.currentOk = true then s.ilevelOf q - 1 else s.ilevelOf q := by
      unfold State.easeCurrent
      split
      · next hok =>
        refine ⟨⟨_, rfl⟩, hs.putD _ _ _, fun q => ?_⟩
        refine (NatMap.findD_putD hs 0 q r.quad _).trans ?_
        by_cases hq : q = r.quad
        · rw [if_pos hq, if_pos ⟨hq, hok⟩, hq]
        · rw [if_neg hq, if_neg fun h => hq h.1]
          rfl
      · next hno => exact ⟨⟨_, rfl⟩, hs, fun q => (if_neg fun h => hno h.2).symm⟩
    obtain ⟨⟨L, hL⟩, hrise, hread⟩ := hone
    obtain ⟨⟨L', hL'⟩, hin, hout⟩ := ih hrs (s.easeCurrent r) hrise
    refine ⟨⟨L', hL'.trans (by rw [hL])⟩, fun x hx => ?_, fun q hq => ?_⟩
    · obtain rfl | hx := List.mem_cons.1 hx
      · exact (hout x.quad hr).trans ((hread x.quad).trans (if_congr (and_iff_right rfl) rfl rfl))
      · refine (hin x hx).trans ?_
        have hne : x.quad ≠ r.quad := fun e => hr (e ▸ List.mem_map_of_mem hx)
        rw [hread, if_neg (show ¬ (x.quad = r.quad ∧ r.currentOk = true) from fun h => hne h.1)]
    · rw [List.map_cons, List.mem_cons, not_or] at hq
      refine (hout q hq.2).trans ((hread q).trans (if_neg fun h => hq.1 h.1))

/-- The ceiling and the count of cool intervals of a quadrant after a temperature (R386). -/
def heated (tempC c n : Nat) : Nat × Nat :=
  if 105 ≤ tempC then (0, 0) else if 95 ≤ tempC then (c - 1, 0) else if 88 < tempC then (c, 0) else if 10 ≤ n + 1 then (min 8 (c + 1), 0) else (c, n + 1)

theorem heat_eq (s : State) (r : Reading) :
    s.heat r =
      let v := heated r.tempC (s.ceilOf r.quad) (NatMap.findD 0 r.quad s.power.cool)
      s.withPower { s.power with ceil := NatMap.putD 8 r.quad v.1 s.power.ceil, cool := NatMap.putD 0 r.quad v.2 s.power.cool } := by
  unfold State.heat heated
  dsimp only
  split
  · rfl
  · split
    · rfl
    · split
      · rfl
      · split <;> rfl

/-- Ceilings at the boundary move by the temperatures read (R386). -/
theorem heatAll_spec (rs : List Reading) (hrs : (rs.map Reading.quad).Nodup) (s : State) (hs : RisingKeys s.power.ceil) (hcool : RisingKeys s.power.cool) :
    let t := s.eachReading (fun s r => s.heat r) rs
    (∃ C L, t = { s with power := { s.power with ceil := C, cool := L } }) ∧
      (∀ r ∈ rs, t.ceilOf r.quad = (heated r.tempC (s.ceilOf r.quad) (NatMap.findD 0 r.quad s.power.cool)).1) ∧
      ∀ q, q ∉ rs.map Reading.quad → t.ceilOf q = s.ceilOf q ∧ NatMap.findD 0 q t.power.cool = NatMap.findD 0 q s.power.cool := by
  induction rs generalizing s with
  | nil => exact ⟨⟨_, _, rfl⟩, nofun, fun _ _ => ⟨rfl, rfl⟩⟩
  | cons r rs ih =>
    obtain ⟨hr, hrs⟩ := List.nodup_cons.1 hrs
    obtain ⟨u, hu⟩ : ∃ u, s.heat r = u := ⟨_, rfl⟩
    have heq := (heat_eq s r).symm.trans hu
    dsimp only at heq
    have hceil (q : Nat) : u.ceilOf q = if q = r.quad then (heated r.tempC (s.ceilOf r.quad) (NatMap.findD 0 r.quad s.power.cool)).1 else s.ceilOf q := by
      rw [← heq]
      exact NatMap.findD_putD hs 8 q r.quad _
    have hn (q : Nat) (hq : q ≠ r.quad) : NatMap.findD 0 q u.power.cool = NatMap.findD 0 q s.power.cool := by
      rw [← heq]
      exact NatMap.findD_putD_ne hq ..
    have hrise : RisingKeys u.power.ceil ∧ RisingKeys u.power.cool := by
      rw [← heq]
      exact ⟨hs.putD _ _ _, hcool.putD _ _ _⟩
    have honly : ∃ C L, u = { s with power := { s.power with ceil := C, cool := L } } := ⟨_, _, heq.symm⟩
    obtain ⟨⟨C, L, hCL⟩, hin, hout⟩ := ih hrs u hrise.1 hrise.2
    have heach : s.eachReading (fun s r => s.heat r) (r :: rs) = u.eachReading (fun s r => s.heat r) rs := by
      rw [← hu]
      rfl
    dsimp only
    rw [heach]
    refine ⟨⟨C, L, ?_⟩, fun x hx => ?_, fun q hq => ?_⟩
    · obtain ⟨_, _, rfl⟩ := honly
      exact hCL
    · obtain rfl | hx := List.mem_cons.1 hx
      · exact (hout x.quad hr).1.trans ((hceil x.quad).trans (if_pos rfl))
      · have hne : x.quad ≠ r.quad := fun e => hr (e ▸ List.mem_map_of_mem hx)
        refine (hin x hx).trans ?_
        rw [hceil, if_neg hne, hn _ hne]
    · rw [List.map_cons, List.mem_cons, not_or] at hq
      obtain ⟨h1, h2⟩ := hout q hq.2
      exact ⟨h1.trans ((hceil q).trans (if_neg hq.1)), h2.trans (hn q hq.1)⟩

/-- The cap and the allowance of a partition after an interval of a power against its budget (R385, R387, R396). -/
def limited (protect : Bool) (used budget c a : Nat) : Nat × Nat :=
  if protect then (0, 7)
  else if budget < used then (if c < 4 then (c + 1, a) else (c, a - 1))
  else if 10 * used < 9 * budget then (if a < 7 then (c, a + 1) else (c - 1, a))
  else (c, a)

/-- What the limit of one partition's power does to the caps and allowances of all. -/
theorem limitPower_spec {s : State} (hcap : RisingKeys s.power.cap) (hallow : RisingKeys s.power.allow) (p nj : Nat) :
    let t := s.limitPower p nj
    (∃ C A, t = { s with power := { s.power with cap := C, allow := A } }) ∧ RisingKeys t.power.cap ∧ RisingKeys t.power.allow ∧
      ∀ q, (t.capOf q, t.allowOf q) =
        if q = p then limited (decide (s.hub.modeDisp = 2#2)) (nj * max 1 s.activeQuads) (s.budget p * 10000) (s.capOf p) (s.allowOf p)
        else (s.capOf q, s.allowOf q) := by
  have put (c a : Nat) :
      let t := s.withPower { s.power with cap := NatMap.putD 0 p c s.power.cap, allow := NatMap.putD 7 p a s.power.allow }
      (∃ C A, t = { s with power := { s.power with cap := C, allow := A } }) ∧ RisingKeys t.power.cap ∧ RisingKeys t.power.allow ∧
        ∀ q, (t.capOf q, t.allowOf q) = if q = p then (c, a) else (s.capOf q, s.allowOf q) := by
    refine ⟨⟨_, _, rfl⟩, hcap.putD _ _ _, hallow.putD _ _ _, fun q => ?_⟩
    have hc := NatMap.findD_putD hcap 0 q p c
    have ha := NatMap.findD_putD hallow 7 q p a
    show (NatMap.findD 0 q (NatMap.putD 0 p c s.power.cap), NatMap.findD 7 q (NatMap.putD 7 p a s.power.allow)) = _
    rw [hc, ha]
    split <;> rfl
  have keep : (∃ C A, s = { s with power := { s.power with cap := C, allow := A } }) ∧ RisingKeys s.power.cap ∧ RisingKeys s.power.allow ∧
      ∀ q, (s.capOf q, s.allowOf q) = if q = p then (s.capOf p, s.allowOf p) else (s.capOf q, s.allowOf q) :=
    ⟨⟨_, _, rfl⟩, hcap, hallow, fun q => by
      split
      · next h => rw [h]
      · rfl⟩
  unfold State.limitPower limited
  dsimp only
  by_cases hmode : s.hub.modeDisp = 2#2
  · rw [if_pos hmode, decide_eq_true hmode, if_pos rfl]
    exact put 0 7
  · rw [if_neg hmode, decide_eq_false hmode, if_neg Bool.false_ne_true]
    split
    · split
      · exact put _ _
      · exact put _ _
    · split
      · split
        · exact put _ _
        · exact put _ _
      · exact keep

theorem limitAll_spec (nj : Nat → Nat) (ps : List Nat) (hps : ps.Nodup) {f : State → Nat → State} (s : State)
    (hf : ∀ u, u.hub = s.hub → ∀ p, f u p = u.limitPower p (nj p)) (hcap : RisingKeys s.power.cap) (hallow : RisingKeys s.power.allow) :
    let t := s.each f ps
    (∃ C A, t = { s with power := { s.power with cap := C, allow := A } }) ∧
      (∀ p, p ∉ ps → (t.capOf p, t.allowOf p) = (s.capOf p, s.allowOf p)) ∧
      ∀ p ∈ ps, (t.capOf p, t.allowOf p) =
        limited (decide (s.hub.modeDisp = 2#2)) (nj p * max 1 s.activeQuads) (s.budget p * 10000) (s.capOf p) (s.allowOf p) := by
  induction ps generalizing s with
  | nil => exact ⟨⟨_, _, rfl⟩, fun _ _ => rfl, nofun⟩
  | cons p ps ih =>
    obtain ⟨hp, hps⟩ := List.nodup_cons.1 hps
    obtain ⟨u, hu⟩ : ∃ u, f s p = u := ⟨_, rfl⟩
    obtain ⟨honly, hcap', hallow', hread⟩ := limitPower_spec hcap hallow p (nj p)
    rw [← hf s rfl p, hu] at honly hcap' hallow' hread
    have hsame : u.hub = s.hub ∧ u.activeQuads = s.activeQuads ∧ ∀ q, u.budget q = s.budget q := by
      obtain ⟨_, _, rfl⟩ := honly
      exact ⟨rfl, rfl, fun _ => rfl⟩
    obtain ⟨hhub, hquads, hbudget⟩ := hsame
    obtain ⟨⟨C, A, hCA⟩, hout, hin⟩ := ih hps u (fun v hv q => hf v (hv.trans hhub) q) hcap' hallow'
    have heach : s.each f (p :: ps) = u.each f ps := by
      rw [← hu]
      rfl
    dsimp only
    rw [heach]
    refine ⟨⟨C, A, ?_⟩, fun q hq => ?_, fun q hq => ?_⟩
    · obtain ⟨_, _, rfl⟩ := honly
      exact hCA
    · rw [List.mem_cons, not_or] at hq
      exact (hout q hq.2).trans ((hread q).trans (if_neg hq.1))
    · obtain rfl | hq := List.mem_cons.1 hq
      · exact (hout q hp).trans ((hread q).trans (if_pos rfl))
      · have hne : q ≠ p := fun e => hp (e ▸ hq)
        obtain ⟨h1, h2⟩ := Prod.ext_iff.1 ((hread q).trans (if_neg hne))
        refine (hin q hq).trans ?_
        rw [hhub, hquads, hbudget, show u.capOf q = s.capOf q from h1, show u.allowOf q = s.allowOf q from h2]

/-! ### Logic domains asked (R388) -/

/-- Sequencers' entries, the records of boost and of what waits for a logic domain, and what is due alone differ; no register does, units run where
they ran, and nothing new waits. -/
def LogicAsked (s t : State) : Prop :=
  (∃ K O B F W D, t = { s with core := K, others := O, power := { s.power with boost := B, deferred := F, logicWait := W }, due := D }) ∧ calm s t ∧
    (∀ u, (s.runsOn u).isSome = true → (t.runsOn u).isSome = true) ∧ ∀ x ∈ t.power.logicWait, x ∈ s.power.logicWait

theorem LogicAsked.refl (s : State) : LogicAsked s s := ⟨⟨_, _, _, _, _, _, rfl⟩, calm_refl s, fun _ h => h, fun _ h => h⟩

theorem LogicAsked.trans {s t u : State} (h : LogicAsked s t) (k : LogicAsked t u) : LogicAsked s u := by
  obtain ⟨⟨_, _, _, _, _, _, h1⟩, h2, h3, h4⟩ := h
  obtain ⟨⟨K, O, B, F, W, D, k1⟩, k2, k3, k4⟩ := k
  refine ⟨⟨K, O, B, F, W, D, ?_⟩, h2.trans k2, fun v hv => k3 v (h3 v hv), fun x hx => h4 x (k4 x hx)⟩
  subst h1
  exact k1

/-- Whether every unit that waits for a logic domain runs. -/
def State.waitersRun (s : State) : Prop := ∀ d es e, (d, es) ∈ s.power.logicWait → e ∈ es → (s.runsOn e.1).isSome = true

theorem answers_running (v : Word) (es : List (Nat × Nat)) {s : State} (h : ∀ e ∈ es, (s.runsOn e.1).isSome = true) :
    CoresOnly s (s.answerAll v es) ∧ calm s (s.answerAll v es) ∧ ∀ u, (s.runsOn u).isSome = true → ((s.answerAll v es).runsOn u).isSome = true := by
  induction es generalizing s with
  | nil => exact ⟨.refl s, calm_refl s, fun _ h => h⟩
  | cons e es ih =>
    obtain ⟨c, hc⟩ := Option.isSome_iff_exists.1 (h e (List.mem_cons_self ..))
    have hkeep (u : Nat) (hu : (s.runsOn u).isSome = true) := runsOn_modCore_isSome hu c (f := fun x => x.answered e.2 v) fun _ => rfl
    obtain ⟨honly, hcalm, hruns⟩ := ih (s := s.modCore c fun x => x.answered e.2 v) fun k hk => hkeep _ (h k (List.mem_cons_of_mem e hk))
    unfold State.answerAll
    rw [answer_running hc]
    exact ⟨(coresOnly_setCore ..).trans honly, (calm_modCore s c (f := fun x => x.answered e.2 v) (fun _ => rfl) fun _ => rfl).trans hcalm,
      fun u hu => hruns u (hkeep u hu)⟩

theorem mem_of_find {α : Type} {m : NatMap α} {k : Nat} {v : α} (h : NatMap.find k m = some v) : (k, v) ∈ m := by
  induction m with
  | nil => cases h
  | cons x xs ih =>
    unfold NatMap.find at h
    split at h
    · next hk =>
      obtain rfl := Option.some.inj h
      rw [← hk]
      exact List.mem_cons_self ..
    · exact List.mem_cons_of_mem x (ih h)

theorem answerLogic_spec {s : State} (hw : s.waitersRun) (d point : Nat) (full : Bool) : LogicAsked s (s.answerLogic d point full) := by
  have hrun : ∀ e ∈ NatMap.findD [] d s.power.logicWait, (s.runsOn e.1).isSome = true := by
    intro e he
    unfold NatMap.findD at he
    cases hf : NatMap.find d s.power.logicWait with
    | none => rw [hf] at he; cases he
    | some es =>
      rw [hf] at he
      exact hw d es e (mem_of_find hf) he
  let s1 : State := s.withPower { s.power with logicWait := NatMap.del d s.power.logicWait }
  obtain ⟨⟨K, O, honly⟩, hcalm, hruns⟩ := answers_running (rvEntry (if full then 0 else 3) point) (NatMap.findD [] d s.power.logicWait) (s := s1) hrun
  refine ⟨⟨K, O, _, _, _, _, honly⟩, calm.trans (t := s1) (calm_refl s) hcalm, fun u hu => hruns u hu, fun x hx => ?_⟩
  have hpow := congrArg State.power honly
  exact NatMap.mem_of_mem_del (k := d) (show x ∈ s1.power.logicWait from hpow ▸ hx)

theorem boundaryQuad_spec {s : State} (hw : s.waitersRun) (q : Nat) : LogicAsked s (s.boundaryQuad q) := by
  unfold State.boundaryQuad
  dsimp only
  refine LogicAsked.trans ?_ (answerLogic_spec ?_ _ _ _)
  · split
    · exact ⟨⟨_, _, _, _, _, _, rfl⟩, calm_refl s, fun _ h => h, fun _ h => h⟩
    · exact ⟨⟨_, _, _, _, _, _, rfl⟩, calm_refl s, fun _ h => h, fun _ h => h⟩
  · split
    · exact hw
    · exact hw

theorem boundaryHub_spec {s : State} (hw : s.waitersRun) : LogicAsked s s.boundaryHub := by
  unfold State.boundaryHub
  dsimp only
  refine LogicAsked.trans ?_ (answerLogic_spec ?_ _ _ _)
  · split
    · exact ⟨⟨_, _, _, _, _, _, rfl⟩, calm_refl s, fun _ h => h, fun _ h => h⟩
    · exact ⟨⟨_, _, _, _, _, _, rfl⟩, calm_refl s, fun _ h => h, fun _ h => h⟩
  · split
    · exact hw
    · exact hw

theorem LogicAsked.waitersRun {s t : State} (h : LogicAsked s t) (hw : s.waitersRun) : t.waitersRun := by
  obtain ⟨-, -, hruns, hsub⟩ := h
  exact fun d es e hd he => hruns _ (hw d es e (hsub _ hd) he)

theorem boundaryQuads_spec (qs : List Nat) {s : State} (hw : s.waitersRun) : LogicAsked s (s.each (fun s q => s.boundaryQuad q) qs) := by
  induction qs generalizing s with
  | nil => exact .refl s
  | cons q qs ih => exact (boundaryQuad_spec hw q).trans (ih ((boundaryQuad_spec hw q).waitersRun hw))

end Sys2Proof.Machine
end

section
set_option Elab.async false
/-! The boundary of a control interval as a whole (R380 to R388, R395, R396). -/
namespace Sys2Proof.Machine

theorem Charged.same {s t : State} (h : Charged s t) :
    t.hub.parts = s.hub.parts ∧ t.free = s.free ∧ t.activeParts = s.activeParts ∧ (∀ p, t.partAt p = s.partAt p) := by
  obtain ⟨_, _, _, _, rfl⟩ := h
  exact ⟨rfl, rfl, rfl, fun _ => rfl⟩

/-- What an ACTIVE partition is charged at a boundary (R380): its quadrants' energy and its part of the shared supplies. -/
def State.chargeOf (s : State) (rs : List Reading) (shared p : Nat) : Nat :=
  let w (p : Nat) : Nat := Config.sense s.free (1000 + p)
  let total := sumOf w s.activeParts
  let quads := sumOf (fun p => (s.partAt p).quadList.length) s.activeParts
  sumOf Reading.energyNj (rs.filter fun r => decide (s.ownerOfQuad r.quad = some p)) +
    ((if total = 0 then 0 else shared * w p / total) +
      (if quads = 0 then 0 else Config.sense s.free 3000 * (s.partAt p).quadList.length / quads))

/-- The charges of an interval to an ACTIVE partition, in whole microjoules with the fraction carried (R380, R381). -/
theorem charges_spec (s : State) (rs : List Reading) (shared : Nat) :
    let t := ((s.eachReading (fun s r => s.chargeQuad r) rs).chargeShared shared (Config.sense s.free 3000)).resumeJobs
    Charged s t ∧ (RisingKeys s.power.energy → RisingKeys s.power.carryNj → ∀ p ∈ s.activeParts, p < 8 →
      NatMap.findD 0#64 p t.power.energy =
          NatMap.findD 0#64 p s.power.energy + BitVec.ofNat 64 ((NatMap.findD 0 p s.power.carryNj + s.chargeOf rs shared p) / 1000) ∧
        NatMap.findD 0 p t.power.carryNj = (NatMap.findD 0 p s.power.carryNj + s.chargeOf rs shared p) % 1000) := by
  have hquads := chargeQuads_spec rs s
  obtain ⟨u, hu⟩ : ∃ u, s.eachReading (fun s r => s.chargeQuad r) rs = u := ⟨_, rfl⟩
  dsimp only
  rw [hu] at hquads ⊢
  obtain ⟨hshared, hlow⟩ := chargeShared_spec u shared (Config.sense s.free 3000)
  obtain ⟨v, hv⟩ : ∃ v, u.chargeShared shared (Config.sense s.free 3000) = v := ⟨_, rfl⟩
  rw [hv] at hshared hlow ⊢
  have hjobs := resumeJobs_spec v
  have hcarry : v.resumeJobs.power.carryNj = v.power.carryNj := by
    have fold (as : List (Nat × Account)) (w : State) :
        (as.foldl (fun s a => s.setAcc a.1 { s.accAt a.1 with stopped := false }) w).power = w.power := by
      induction as generalizing w with
      | nil => rfl
      | cons a as ih => exact ih (w.setAcc a.1 { w.accAt a.1 with stopped := false })
    exact congrArg Power.carryNj (fold _ v)
  obtain ⟨-, hfree, hactive, hpart⟩ := hquads.only.same
  refine ⟨hquads.only.trans (hshared.only.trans hjobs.only), fun he hc p hp hlt => ?_⟩
  obtain ⟨k, hk, hsum⟩ := (hquads.trans (hshared.trans hjobs)).charged he hc p hlt
  have hless := hlow (hquads.carry hc) p (hactive ▸ hp)
  rw [← hcarry] at hless
  have hn : sumOf Reading.energyNj (rs.filter fun r => decide (s.ownerOfQuad r.quad = some p)) + ((if p ∈ u.activeParts then
      (if sumOf (fun p => Config.sense u.free (1000 + p)) u.activeParts = 0 then 0
        else shared * Config.sense u.free (1000 + p) / sumOf (fun p => Config.sense u.free (1000 + p)) u.activeParts) +
      (if sumOf (fun p => (u.partAt p).quadList.length) u.activeParts = 0 then 0
        else Config.sense s.free 3000 * (u.partAt p).quadList.length / sumOf (fun p => (u.partAt p).quadList.length) u.activeParts) else 0) + 0) =
      s.chargeOf rs shared p := by
    simp only [hactive, hfree, hpart, if_pos hp]
    rfl
  rw [hn] at hsum
  rw [hk]
  generalize s.chargeOf rs shared p = n at hsum ⊢
  generalize NatMap.findD 0 p s.power.carryNj = x at hsum ⊢
  generalize NatMap.findD 0 p v.resumeJobs.power.carryNj = y at hsum hless ⊢
  have hdiv : (x + n) / 1000 = k := by clear hk; omega
  have hmod : (x + n) % 1000 = y := by clear hk; omega
  rw [hdiv, hmod]
  exact ⟨rfl, rfl⟩

/-- The limits of power after the readings of current and temperature (R384 to R387). -/
theorem limits_spec {s : State} (rs : List Reading) (hrs : (rs.map Reading.quad).Nodup) (hi : RisingKeys s.power.ilevel) (hc : RisingKeys s.power.ceil)
    (hcool : RisingKeys s.power.cool) (hcap : RisingKeys s.power.cap) (hallow : RisingKeys s.power.allow) :
    let s3 := (s.eachReading (fun s r => s.easeCurrent r) rs).eachReading (fun s r => s.heat r) rs
    let t := s3.each (fun s p => s.limitPower p (s.partNj rs p)) s3.activeParts
    (∃ I C L P A, t = { s with power := { s.power with ilevel := I, ceil := C, cool := L, cap := P, allow := A } }) ∧
      (∀ r ∈ rs, t.ilevelOf r.quad = (if r.currentOk then s.ilevelOf r.quad - 1 else s.ilevelOf r.quad) ∧
        t.ceilOf r.quad = (heated r.tempC (s.ceilOf r.quad) (NatMap.findD 0 r.quad s.power.cool)).1) ∧
      ∀ p ∈ s.activeParts, (t.capOf p, t.allowOf p) =
        limited (decide (s.hub.modeDisp = 2#2)) (s.partNj rs p * max 1 s.activeQuads) (s.budget p * 10000) (s.capOf p) (s.allowOf p) := by
  obtain ⟨⟨I, hI⟩, hlevel, -⟩ := easeAll_spec rs hrs s hi
  obtain ⟨u, hu⟩ : ∃ u, s.eachReading (fun s r => s.easeCurrent r) rs = u := ⟨_, rfl⟩
  rw [hu] at hI hlevel
  have hu1 : RisingKeys u.power.ceil ∧ RisingKeys u.power.cool := by rw [hI]; exact ⟨hc, hcool⟩
  obtain ⟨⟨C, L, hC⟩, hceil, -⟩ := heatAll_spec rs hrs u hu1.1 hu1.2
  obtain ⟨v, hv⟩ : ∃ v, u.eachReading (fun s r => s.heat r) rs = v := ⟨_, rfl⟩
  rw [hv] at hC hceil
  have hv1 : RisingKeys v.power.cap ∧ RisingKeys v.power.allow := by rw [hC, hI]; exact ⟨hcap, hallow⟩
  have hnj : ∀ w : State, w.hub = v.hub → ∀ p, w.limitPower p (w.partNj rs p) = w.limitPower p (v.partNj rs p) := by
    intro w hw p
    unfold State.partNj State.partAt
    rw [hw]
  obtain ⟨⟨P, A, hP⟩, -, hlim⟩ := limitAll_spec (v.partNj rs) v.activeParts (nodup_activeParts v) v hnj hv1.1 hv1.2
  obtain ⟨t, ht⟩ : ∃ t, v.each (fun s p => s.limitPower p (s.partNj rs p)) v.activeParts = t := ⟨_, rfl⟩
  dsimp only
  rw [hu, hv]
  rw [ht] at hP hlim ⊢
  clear hu hv ht hnj
  have hlev : ∀ q, t.ilevelOf q = u.ilevelOf q := fun q => by rw [hP, hC]; rfl
  have hcl : ∀ q, t.ceilOf q = v.ceilOf q := fun q => by rw [hP]; rfl
  have huc : ∀ q, u.ceilOf q = s.ceilOf q ∧ NatMap.findD 0 q u.power.cool = NatMap.findD 0 q s.power.cool := fun q => by rw [hI]; exact ⟨rfl, rfl⟩
  have hvs : v.hub = s.hub ∧ v.activeParts = s.activeParts ∧ v.activeQuads = s.activeQuads ∧
      (∀ p, v.partNj rs p = s.partNj rs p ∧ v.budget p = s.budget p ∧ v.capOf p = s.capOf p ∧ v.allowOf p = s.allowOf p) := by
    rw [hC, hI]
    exact ⟨rfl, rfl, rfl, fun _ => ⟨rfl, rfl, rfl, rfl⟩⟩
  obtain ⟨hhub, hactive, hquads, hparts⟩ := hvs
  refine ⟨⟨I, C, L, P, A, ?_⟩, fun r hr => ⟨(hlev _).trans (hlevel r hr), (hcl _).trans ?_⟩, fun p hp => ?_⟩
  · subst hI
    subst hC
    exact hP
  · rw [hceil r hr, (huc r.quad).1, (huc r.quad).2]
  · obtain ⟨h1, h2, h3, h4⟩ := hparts p
    rw [hlim p (hactive.symm ▸ hp), hhub, hquads, h1, h2, h3, h4]

/-- Settles O46: charges, limits and logic domains in turn. -/
theorem controlIntervalResults : Obligations.ControlIntervalResults := by
  unfold Obligations.ControlIntervalResults
  intro s rs shared hrs _ hceil hcool hi hcap hallow he hc hw
  let s0 : State := { s with act := some (.controlInterval rs shared) }
  let s1 : State := s0.withHub { s0.hub with modeDisp := s0.hub.mode }
  obtain ⟨honly2, hcharge⟩ := charges_spec s1 rs shared
  obtain ⟨s2, hs2⟩ : ∃ u, ((s1.eachReading (fun s r => s.chargeQuad r) rs).chargeShared shared (Config.sense s1.free 3000)).resumeJobs = u := ⟨_, rfl⟩
  rw [hs2] at honly2 hcharge
  have h2 : RisingKeys s2.power.ilevel ∧ RisingKeys s2.power.ceil ∧ RisingKeys s2.power.cool ∧ RisingKeys s2.power.cap ∧ RisingKeys s2.power.allow := by
    obtain ⟨_, _, _, _, h⟩ := honly2
    rw [h]
    exact ⟨hi, hceil, hcool, hcap, hallow⟩
  obtain ⟨k1, k2, k3, k4, k5⟩ := h2
  obtain ⟨honly4, hread, hlimit⟩ := limits_spec (s := s2) rs hrs k1 k2 k3 k4 k5
  obtain ⟨s3, hs3⟩ : ∃ u, (s2.eachReading (fun s r => s.easeCurrent r) rs).eachReading (fun s r => s.heat r) rs = u := ⟨_, rfl⟩
  rw [hs3] at honly4 hread hlimit
  obtain ⟨s4, hs4⟩ : ∃ u, s3.each (fun s p => s.limitPower p (s.partNj rs p)) s3.activeParts = u := ⟨_, rfl⟩
  rw [hs4] at honly4 hread hlimit
  have hw4 : s4.waitersRun := by
    obtain ⟨_, _, _, _, _, h⟩ := honly4
    obtain ⟨_, _, _, _, h2⟩ := honly2
    rw [h, h2]
    exact hw
  have hasked := (boundaryQuads_spec (upFrom 0 32) hw4).trans (boundaryHub_spec ((boundaryQuads_spec (upFrom 0 32) hw4).waitersRun hw4))
  obtain ⟨s5, hs5⟩ : ∃ u, (s4.each (fun s q => s.boundaryQuad q) (upFrom 0 32)).boundaryHub = u := ⟨_, rfl⟩
  rw [hs5] at hasked
  obtain ⟨⟨K, O, B, F, W, D, h5⟩, hcalm5, -, -⟩ := hasked
  have hrun : Does (.controlInterval rs shared) s (s5.addDue (((upFrom 0 256).filter fun c => !(s5.coreAt c).queue.isEmpty).map Action.unitAdmit
      ++ (s0.overCurrent.map Action.currentLimitEngage) ++ ((s0.sensed.filter fun r => decide (105 ≤ r.tempC)).map Reading.quad).map Action.thermalCrit
      ++ [.controlInterval s0.sensed (Config.sense s0.free 3001)])) := by
    subst hs5 hs4 hs3 hs2
    rfl
  have hpow : s5.power.ilevel = s4.power.ilevel ∧ s5.power.ceil = s4.power.ceil ∧ s5.power.cap = s4.power.cap ∧ s5.power.allow = s4.power.allow ∧
      s5.power.energy = s2.power.energy ∧ s5.power.carryNj = s2.power.carryNj ∧ s5.hub.modeDisp = s.hub.mode := by
    obtain ⟨_, _, _, _, _, h4⟩ := honly4
    obtain ⟨_, _, _, _, h2⟩ := honly2
    rw [h5, h4, h2]
    exact ⟨rfl, rfl, rfl, rfl, rfl, rfl, rfl⟩
  obtain ⟨p1, p2, p3, p4, p5, p6, p7⟩ := hpow
  have hcalm4 : calm s s4 := by
    obtain ⟨_, _, _, _, _, h4⟩ := honly4
    obtain ⟨_, _, _, _, h2⟩ := honly2
    rw [h4, h2]
    exact calm_refl s
  have hs2s : s2.activeParts = s.activeParts ∧ (∀ q, s2.ilevelOf q = s.ilevelOf q ∧ s2.ceilOf q = s.ceilOf q ∧
      NatMap.findD 0 q s2.power.cool = NatMap.findD 0 q s.power.cool) ∧ s2.hub.modeDisp = s.hub.mode ∧ s2.activeQuads = s.activeQuads ∧
      ∀ p, s2.partNj rs p = s.partNj rs p ∧ s2.budget p = s.budget p ∧ s2.capOf p = s.capOf p ∧ s2.allowOf p = s.allowOf p := by
    obtain ⟨_, _, _, _, h2⟩ := honly2
    rw [h2]
    exact ⟨rfl, fun _ => ⟨rfl, rfl, rfl⟩, rfl, rfl, fun _ => ⟨rfl, rfl, rfl, rfl⟩⟩
  obtain ⟨hactive, hq, hmode, hquads, hp⟩ := hs2s
  refine ⟨_, hrun, hcalm4.trans hcalm5, p7, ?_, fun r hr hot => ?_, fun r hr => ?_, fun p hlt hst => ?_⟩
  · exact List.mem_append_right _ (List.mem_append_right _ (List.mem_singleton_self _))
  · refine List.mem_append_right _ (List.mem_append_left _ (List.mem_append_right _ ?_))
    rw [List.map_map]
    exact List.mem_map.2 ⟨r, List.mem_filter.2 ⟨hr, decide_eq_true hot⟩, rfl⟩
  · obtain ⟨h1, h2⟩ := hread r hr
    obtain ⟨q1, q2, q3⟩ := hq r.quad
    rw [q1] at h1
    rw [q2, q3] at h2
    refine ⟨Eq.trans ?_ h1, Eq.trans (Eq.trans ?_ h2) ?_⟩
    · unfold State.ilevelOf
      rw [← p1]
      rfl
    · unfold State.ceilOf
      rw [← p2]
      rfl
    · unfold heated
      split
      · rfl
      · split
        · rfl
        · split
          · rfl
          · split <;> rfl
  · have hmem : p ∈ s.activeParts := List.mem_filter.2 ⟨mem_upFrom_zero.2 hlt, decide_eq_true hst⟩
    obtain ⟨g1, g2, g3, g4⟩ := hp p
    have hl := hlimit p (hactive.symm ▸ hmem)
    rw [hmode, hquads, g1, g2, g3, g4] at hl
    obtain ⟨e1, e2⟩ := hcharge he hc p hmem hlt
    have hall : NatMap.findD 0 p s.power.carryNj + s.chargeOf rs shared p = _ := (Nat.add_assoc _ _ _).symm
    refine ⟨Eq.trans ?_ (hl.trans ?_), (congrArg (NatMap.findD 0#64 p) p5).trans (e1.trans ?_), (congrArg (NatMap.findD 0 p) p6).trans (e2.trans ?_)⟩
    · show (NatMap.findD 0 p s5.power.cap, NatMap.findD 7 p s5.power.allow) = _
      rw [p3, p4]
      rfl
    · unfold limited
      by_cases hm : s.hub.mode = 2#2
      · rw [decide_eq_true hm, if_pos rfl, if_pos hm]
      · rw [decide_eq_false hm, if_neg Bool.false_ne_true, if_neg hm]
    · exact congrArg (fun n => NatMap.findD 0#64 p s.power.energy + BitVec.ofNat 64 (n / 1000)) hall
    · exact congrArg (fun n => n % 1000) hall

end Sys2Proof.Machine
end

section
set_option Elab.async false
/-! Circuits of a unit that runs (R320, R333 to R339): what replacing a handle, answering an entry and forgetting ended units leave of the unit. -/
namespace Sys2Proof.Machine

/-! ### A unit on its core -/

/-- A unit other than the ranger core's number runs on a core. -/
def Sits (s : State) (u c : Nat) : Prop := u ≠ 0 ∧ s.runsOn u = some c

section
variable {s t : State} {u c : Nat}

theorem Sits.unit (h : Sits s u c) : (s.coreAt c).unit = some u ∧ (s.unitAt u).map Uni.core = some c := by
  obtain ⟨hu, hrun⟩ := h
  unfold State.runsOn at hrun
  rw [if_neg hu] at hrun
  cases hx : s.unitAt u with
  | none => rw [hx] at hrun; cases hrun
  | some x =>
    rw [hx] at hrun
    dsimp only at hrun
    split at hrun
    · next hat =>
      obtain rfl := Option.some.inj hrun
      exact ⟨hat, rfl⟩
    · cases hrun

theorem sits_of (hu : u ≠ 0) (hat : (s.coreAt c).unit = some u) (hcore : (s.unitAt u).map Uni.core = some c) : Sits s u c := by
  refine ⟨hu, ?_⟩
  unfold State.runsOn
  rw [if_neg hu]
  obtain ⟨x, hx, rfl⟩ := Option.map_eq_some_iff.1 hcore
  rw [hx]
  exact if_pos hat

/-- A unit stays where its record and its core do. -/
theorem Sits.congr (h : Sits s u c) (hu : (t.unitAt u).map Uni.core = (s.unitAt u).map Uni.core) (hc : (t.coreAt c).unit = (s.coreAt c).unit) : Sits t u c :=
  sits_of h.1 (hc.trans h.unit.1) (hu.trans h.unit.2)

theorem Sits.modCore (h : Sits s u c) {f : Core → Core} (hf : ∀ x, (f x).unit = x.unit) :
    Sits (s.modCore c f) u c ∧ (s.modCore c f).coreAt c = f (s.coreAt c) := by
  obtain ⟨hrun, hcore⟩ := runsOn_modCore h.1 h.2 c hf
  exact ⟨⟨h.1, hrun⟩, hcore rfl⟩

theorem Sits.handleAt (h : Sits s u c) (i : Nat) : s.handleAt u i = vget {} (s.coreAt c).gl i := by
  unfold State.handleAt State.engOf
  rw [h.2]
  rfl

theorem Sits.coreOfUnit (h : Sits s u c) : s.coreOfUnit u = c := by
  unfold State.coreOfUnit
  rw [h.2]
  rfl

/-- A handle of a unit that runs is its core's. -/
theorem Sits.setHandle (h : Sits s u c) (i : Nat) (v : GlHandle) : s.setHandle u i v = s.modCore c fun k => { k with gl := vput k.gl i v } := by
  unfold State.setHandle State.modEng
  rw [h.2]
  rfl

theorem Sits.answer (h : Sits s u c) (id : Nat) (v : Word) : s.answer u id v = s.modCore c fun x => x.answered id v := answer_running h.2 id v

end

/-- A handle of a unit that runs replaced: no register changes, and every other handle and every entry stays. -/
theorem setHandle_spec {s : State} {u c : Nat} (h : Sits s u c) {i : Nat} (hi : i < 16) (v : GlHandle) :
    let t := s.setHandle u i v
    calm s t ∧ Sits t u c ∧ t.handleAt u i = v ∧ (t.coreAt c).q = (s.coreAt c).q ∧ CoresOnly s t := by
  obtain ⟨hsit, hcore⟩ := h.modCore (f := fun k => { k with gl := vput k.gl i v }) fun _ => rfl
  have hcalm := calm_modCore s c (f := fun k => { k with gl := vput k.gl i v }) (fun _ => rfl) fun _ => rfl
  have honly : CoresOnly s (s.modCore c fun k => { k with gl := vput k.gl i v }) := coresOnly_setCore ..
  intro t
  rw [show t = _ from h.setHandle i v]
  refine ⟨hcalm, hsit, ?_, by rw [hcore], honly⟩
  rw [hsit.handleAt, hcore]
  exact vget_vput_self _ _ _ hi

/-- The entry of an open filled. -/
theorem answerOpen_spec {s : State} {u c : Nat} (h : Sits s u c) (x : GlHandle) (v : Word) :
    let t := s.answerOpen u x v
    calm s t ∧ Sits t u c ∧ (∀ i, t.handleAt u i = s.handleAt u i) ∧ CoresOnly s t ∧
      ∀ id, x.entry = some id → ∀ q < 8, (vget {} (t.coreAt c).q q).entries = fillId id v (vget {} (s.coreAt c).q q).entries := by
  intro t
  cases hx : x.entry with
  | none =>
    rw [show t = s by dsimp only [t]; unfold State.answerOpen; rw [hx]]
    exact ⟨calm_refl s, h, fun _ => rfl, .refl s, nofun⟩
  | some id =>
    obtain ⟨hsit, hcore⟩ := h.modCore (f := fun x => x.answered id v) fun _ => rfl
    have hcalm := calm_modCore s c (f := fun x => x.answered id v) (fun _ => rfl) fun _ => rfl
    have honly : CoresOnly s (s.modCore c fun x => x.answered id v) := coresOnly_setCore ..
    rw [show t = s.modCore c fun x => x.answered id v by dsimp only [t]; unfold State.answerOpen; rw [hx]; exact h.answer id v]
    refine ⟨hcalm, hsit, fun i => ?_, honly, fun id' hid q hq => ?_⟩
    · rw [hsit.handleAt, hcore, h.handleAt]
      rfl
    · obtain rfl := Option.some.inj hid
      rw [hcore]
      exact congrArg Queue.entries (vget_vmap (n := 8) ({} : Queue) ({} : Queue)
        (fun y => { entries := fillId id v y.entries, retained := fillId id v y.retained }) (s.coreAt c).q hq)

/-! ### Ended units forgotten (R310) -/

theorem unitAt_freeRows_other {s : State} {u v : Nat} (h : v ≠ u) : (s.freeRows u).unitAt v = s.unitAt v := by
  unfold State.freeRows
  split
  · split
    · rfl
    · exact NatMap.find_put_ne h ..
  · rfl

/-- A unit that is ended and at rest is forgotten; of any other unit nothing changes. -/
theorem reap_spec (s : State) (v : Nat) {u : Nat} {y : Uni} (hu : s.unitAt u = some y) (hy : y.st ≠ .ended) :
    HubDue s (s.reap v) ∧ Grows s (s.reap v) ∧ (s.reap v).unitAt u = some y := by
  have hsame : HubDue s s ∧ Grows s s ∧ s.unitAt u = some y := ⟨⟨_, _, rfl⟩, .refl s, hu⟩
  have hrows : HubDue s (s.freeRows v) ∧ Grows s (s.freeRows v) := by
    unfold State.freeRows
    split
    · split
      · exact ⟨⟨_, _, rfl⟩, .refl s⟩
      · exact ⟨⟨_, _, rfl⟩, _, rfl⟩
    · exact ⟨⟨_, _, rfl⟩, .refl s⟩
  unfold State.reap
  split
  · next x hx =>
    split
    · next hend =>
      have hne : u ≠ v := by
        rintro rfl
        rw [hu] at hx
        obtain rfl := Option.some.inj hx
        exact hy hend.1
      obtain ⟨⟨H, xs, hH⟩, hgrow⟩ := hrows
      have hat := (unitAt_freeRows_other (s := s) hne).trans hu
      dsimp only
      rw [hH] at hgrow hat ⊢
      exact ⟨⟨_, _, rfl⟩, hgrow, (NatMap.find_del_ne hne _).trans hat⟩
    · exact hsame
  · exact hsame

theorem HubDue.trans {s t u : State} (h : HubDue s t) (k : HubDue t u) : HubDue s u := by
  obtain ⟨_, _, rfl⟩ := h; obtain ⟨_, _, rfl⟩ := k; exact ⟨_, _, rfl⟩

theorem reapAll_spec (s : State) {u : Nat} {y : Uni} (hu : s.unitAt u = some y) (hy : y.st ≠ .ended) :
    HubDue s s.reapAll ∧ Grows s s.reapAll ∧ s.reapAll.unitAt u = some y := by
  have hall (vs : List Nat) (t : State) (ht : t.unitAt u = some y) :
      HubDue t (t.each State.reap vs) ∧ Grows t (t.each State.reap vs) ∧ (t.each State.reap vs).unitAt u = some y := by
    induction vs generalizing t with
    | nil => exact ⟨⟨_, _, rfl⟩, .refl t, ht⟩
    | cons v vs ih =>
      obtain ⟨h1, h2, h3⟩ := reap_spec t v ht hy
      obtain ⟨k1, k2, k3⟩ := ih (t.reap v) h3
      exact ⟨h1.trans k1, h2.trans k2, k3⟩
  exact hall _ s hu

theorem CoresOnly.unitAt {s t : State} (h : CoresOnly s t) (u : Nat) : t.unitAt u = s.unitAt u := by obtain ⟨_, _, rfl⟩ := h; rfl
theorem CoresOnly.fabric {s t : State} (h : CoresOnly s t) : t.fabric = s.fabric := by obtain ⟨_, _, rfl⟩ := h; rfl
theorem CoresOnly.hub {s t : State} (h : CoresOnly s t) : t.hub = s.hub := by obtain ⟨_, _, rfl⟩ := h; rfl
theorem CoresOnly.time {s t : State} (h : CoresOnly s t) : t.time = s.time := by obtain ⟨_, _, rfl⟩ := h; rfl
theorem CoresOnly.due {s t : State} (h : CoresOnly s t) : t.due = s.due := by obtain ⟨_, _, rfl⟩ := h; rfl

end Sys2Proof.Machine
end

section
set_option Elab.async false
/-! The steps of a circuit within the package (R320, R333 to R339): opened, sent, acknowledged, run out and ended. -/
namespace Sys2Proof.Machine

/-- What a circuit's token does at its end: it goes home by the combiner of its core. -/
def sentHome (t : State) (c : Nat) (x : GlHandle) (taint : Bool) : Prop :=
  ∀ k, x.tok = some k → ∃ w, Action.combinerAdd c { acct := k.acct, pkg := k.pkg, value := tokValue k.exp, taint := taint, pts := w } ∈ t.due

theorem giveTok?_spec (s : State) (c : Nat) (x : GlHandle) (taint : Bool) (w : Word) :
    (∃ xs, s.giveTok? c x.tok taint w = s.addDue xs) ∧ sentHome (s.giveTok? c x.tok taint w) c x taint := by
  unfold State.giveTok? sentHome
  cases x.tok with
  | none => exact ⟨⟨[], by unfold State.addDue; rw [List.append_nil]⟩, nofun⟩
  | some k =>
    refine ⟨⟨_, rfl⟩, fun k' hk => ?_⟩
    obtain rfl := Option.some.inj hk
    exact ⟨w, List.mem_append_right _ (List.mem_singleton_self _)⟩

theorem sentHome.grows {s t : State} {c : Nat} {x : GlHandle} {taint : Bool} (h : sentHome s c x taint) (k : Grows s t) : sentHome t c x taint := fun q hq => by
  obtain ⟨w, hw⟩ := h q hq
  exact ⟨w, k.mem hw⟩

section
variable {s : State} {u h c : Nat} {y : Uni} (hs : Sits s u c) (hy : s.unitAt u = some y) (hend : y.st ≠ .ended) (hh : h < 16)
include hs

theorem Sits.addDue (xs : List Action) : Sits (s.addDue xs) u c := hs
theorem Sits.withFabric (F : Fabric) : Sits { s with fabric := F } u c := hs
theorem Sits.withAct (a : Option Action) : Sits { s with act := a } u c := hs

/-! ### Opening (R333) -/

include hh in
/-- An open that succeeds: OPEN under its lease, its entry answered. -/
theorem acceptOpen_spec (width : Nat) (path : List (Nat × Nat)) (hclose : (s.handleAt u h).closeWith = .none) :
    let x := s.handleAt u h
    let t := s.acceptOpen u h width path none none
    calm s t ∧ t.fabric = s.fabric ∧ Action.guylineLeaseExpire u h ∈ t.due ∧
      t.handleAt u h = { x with st := .opn, width := width, lease := s.time + glLease x.block, path := path, dest := none, ring := none, entry := none } ∧
      ∀ id, x.entry = some id → ∀ q < 8, (vget {} (t.coreAt c).q q).entries = fillId id (glEntry h none) (vget {} (s.coreAt c).q q).entries := by
  intro x t
  obtain ⟨hcalm, hsit, hset, hq, honly⟩ := setHandle_spec hs hh
    { x with st := .opn, width := width, lease := s.time + glLease x.block, path := path, dest := none, ring := none, entry := none }
  obtain ⟨s1, hs1⟩ : ∃ v, s.setHandle u h
    { x with st := .opn, width := width, lease := s.time + glLease x.block, path := path, dest := none, ring := none, entry := none } = v := ⟨_, rfl⟩
  rw [hs1] at hcalm hsit hset hq honly
  obtain ⟨kcalm, ksit, khandle, konly, kentry⟩ := answerOpen_spec hsit x (glEntry h none)
  have ht : t = (s1.answerOpen u x (glEntry h none)).addDue [.guylineLeaseExpire u h] := by
    rw [← hs1]
    exact if_pos hclose
  rw [ht]
  refine ⟨hcalm.trans kcalm, ?_, List.mem_append_right _ (List.mem_singleton_self _), ?_, fun id hid q hq8 => ?_⟩
  · exact konly.fabric.trans honly.fabric
  · exact (khandle h).trans hset
  · rw [← hq]
    exact kentry id hid q hq8

include hy hend hh in
/-- An open refused: the handle ends REFUSED, its token goes home untainted and its entry is answered. -/
theorem refuseOpen_spec (k : Cause) :
    let x := s.handleAt u h
    let t := s.refuseOpen u h k
    calm s t ∧ sentHome t c x false ∧ t.handleAt u h = { x with st := .ended, cause := .refused, tok := none, path := [], entry := none } ∧
      ∀ id, x.entry = some id → ∀ q < 8, (vget {} (t.coreAt c).q q).entries = fillId id (glEntry h (some k)) (vget {} (s.coreAt c).q q).entries := by
  intro x t
  let y1 : GlHandle := { x with st := .ended, cause := .refused, tok := none, path := [], entry := none }
  obtain ⟨F, hF⟩ : ∃ F, s.dropSlots x.path = { s with fabric := F } := ⟨_, rfl⟩
  obtain ⟨hcalm, hsit, hset, hq, honly⟩ := setHandle_spec (hs.withFabric F) hh y1
  obtain ⟨s1, hs1⟩ : ∃ v, ({ s with fabric := F } : State).setHandle u h y1 = v := ⟨_, rfl⟩
  rw [hs1] at hcalm hsit hset hq honly
  obtain ⟨⟨xs, hxs⟩, hhome⟩ := giveTok?_spec s1 (s.coreOfUnit u) x false (s.unitPts u)
  rw [hs.coreOfUnit] at hxs hhome
  rw [hxs] at hhome
  obtain ⟨kcalm, ksit, khandle, konly, kentry⟩ := answerOpen_spec (hsit.addDue xs) x (glEntry h (some k))
  obtain ⟨s2, hs2⟩ : ∃ v, (s1.addDue xs).answerOpen u x (glEntry h (some k)) = v := ⟨_, rfl⟩
  rw [hs2] at kcalm ksit khandle konly kentry
  have hat : s2.unitAt u = some y := (konly.unitAt u).trans ((honly.unitAt u).trans hy)
  obtain ⟨hhub, hgrow, hreap⟩ := reapAll_spec s2 hat hend
  have ht : t = s2.reapAll := by
    rw [← hs2, ← hxs, ← hs1, ← hF, ← hs.coreOfUnit]
    rfl
  rw [ht]
  have hsit3 : Sits s2.reapAll u c := ksit.congr (by rw [hreap, hat]) (by rw [hhub.coreAt])
  refine ⟨(calm.trans (t := s1) hcalm kcalm).trans hhub.calm, (hhome.grows (.of_eq konly.due)).grows hgrow, ?_, fun id hid q hq8 => ?_⟩
  · rw [hsit3.handleAt, hhub.coreAt, ← ksit.handleAt, khandle]
    exact hset
  · rw [hhub.coreAt, kentry id hid q hq8]
    exact congrArg (fun v : Vector Queue 8 => fillId id (glEntry h (some k)) (vget {} v q).entries) hq

/-! ### Ends and sends -/

include hh in
theorem endCircuit_spec (k : GlCause) :
    let t := s.endCircuit u h k
    calm s t ∧ t.handleAt u h = (s.handleAt u h).finish k s.time ∧ Action.guylineSlotSend u h ∈ t.due ∧ Grows s t := by
  obtain ⟨hcalm, hsit, hset, -, honly⟩ := setHandle_spec hs hh ((s.handleAt u h).finish k s.time)
  exact ⟨hcalm, hset, List.mem_append_right _ (List.mem_singleton_self _), (Grows.of_eq honly.due).trans (.addDue _ _)⟩

end

theorem finish_open {x : GlHandle} (h : x.st = .opn ∨ x.st = .closing) (hend : x.ending = false) (k : GlCause) (now : Nat) :
    x.finish k now = { x with st := .closing, cause := k, ending := true, pend := [], endAt := now } := by
  unfold GlHandle.finish
  rcases h with h | h
  · rw [h]
    exact if_neg (by rw [hend]; exact Bool.false_ne_true)
  · rw [h]
    exact if_neg (by rw [hend]; exact Bool.false_ne_true)

/-- Slots given up: each goes back to the static set that it is of, or is free (R324). -/
theorem find_dropSlots (s : State) (hw : RisingKeys s.fabric.wheels) (ks : List (Nat × Nat)) (hks : ∀ k ∈ ks, k.2 < 64) {e : Nat × Nat} (he : e ∈ ks) :
    NatMap.find (slotKey e) (s.dropSlots ks).fabric.wheels = s.staticOwner e := by
  let give (m : NatMap Nat) (k : Nat × Nat) : NatMap Nat := match s.staticOwner k with
    | some p => NatMap.put (slotKey k) p m
    | none => NatMap.del (slotKey k) m
  have hinj {a b : Nat × Nat} (ha : a.2 < 64) (hb : b.2 < 64) (h : slotKey a = slotKey b) : a = b := by
    unfold slotKey at h
    exact Prod.ext (by omega) (by omega)
  have hgive (m : NatMap Nat) (hm : RisingKeys m) (k : Nat × Nat) : RisingKeys (give m k) ∧
      ∀ j, NatMap.find j (give m k) = if j = slotKey k then s.staticOwner k else NatMap.find j m := by
    dsimp only [give]
    cases s.staticOwner k with
    | some p => exact ⟨hm.put _ _, fun j => NatMap.find_put ..⟩
    | none =>
      refine ⟨hm.del _, fun j => ?_⟩
      by_cases hj : j = slotKey k
      · rw [if_pos hj, hj]
        exact NatMap.find_del_self hm
      · rw [if_neg hj]
        exact NatMap.find_del_ne hj m
  have kept (is : List (Nat × Nat)) (his : ∀ k ∈ is, k.2 < 64) (m : NatMap Nat) (hm : RisingKeys m) (h : e ∈ is ∨ NatMap.find (slotKey e) m = s.staticOwner e) :
      NatMap.find (slotKey e) (is.foldl give m) = s.staticOwner e := by
    induction is generalizing m with
    | nil => exact h.resolve_left List.not_mem_nil
    | cons i is ih =>
      obtain ⟨hrise, hfind⟩ := hgive m hm i
      refine ih (fun k hk => his k (List.mem_cons_of_mem i hk)) _ hrise ?_
      rw [hfind]
      by_cases hei : slotKey e = slotKey i
      · rw [if_pos hei, hinj (hks e he) (his i (List.mem_cons_self ..)) hei]
        exact .inr rfl
      · rw [if_neg hei]
        refine h.imp (fun hm => ?_) id
        exact (List.mem_cons.1 hm).resolve_left fun e' => hei (by rw [e'])
  exact kept ks hks s.fabric.wheels hw (.inl he)

end Sys2Proof.Machine
end

section
set_option Elab.async false
/-! A flit of a circuit that lands in memory (R227, R335). -/
namespace Sys2Proof.Machine

/-! ### Bytes written where a list of addresses says -/

/-- Bytes written to distinct addresses, each to its own. -/
theorem cellAt_cellsPut_zip {m : List Host.Cell} (hm : cellsWf m = true) (as : List Nat) (vs : List Byte) (hnd : as.Nodup) {i a : Nat} {v : Byte}
    (ha : as[i]? = some a) (hv : vs[i]? = some v) : cellAt (cellsPut m (as.zip vs)) a = v := by
  induction as generalizing m vs i with
  | nil => cases ha
  | cons b bs ih =>
    obtain ⟨hb, hnd⟩ := List.nodup_cons.1 hnd
    cases vs with
    | nil => cases hv
    | cons w ws =>
      cases i with
      | zero =>
        obtain rfl : b = a := Option.some.inj ha
        obtain rfl : w = v := Option.some.inj hv
        show cellAt (cellsPut (cellSet m b w) (bs.zip ws)) b = w
        refine (cellAt_cellsPut_other _ _ fun x hx e => hb ?_).trans ((cellAt_cellSet hm b b w).trans (if_pos rfl))
        rw [← e]
        exact (List.of_mem_zip hx).1
      | succ i => exact ih (cellsWf_cellSet hm b w) ws hnd ha hv

theorem cellAt_cellsPut_outside (m : List Host.Cell) (as : List Nat) (vs : List Byte) {a : Nat} (ha : a ∉ as) :
    cellAt (cellsPut m (as.zip vs)) a = cellAt m a :=
  cellAt_cellsPut_other _ _ fun x hx e => ha (e ▸ (List.of_mem_zip hx).1)

/-! ### Writes of a weak agent -/

/-- A unit sits on its core in both states, with the same circuits. -/
def SameCircuits (u c : Nat) (s t : State) : Prop := Sits t u c ∧ (t.coreAt c).gl = (s.coreAt c).gl

theorem SameCircuits.trans {u c : Nat} {s t v : State} (h : SameCircuits u c s t) (k : SameCircuits u c t v) : SameCircuits u c s v :=
  ⟨k.1, k.2.trans h.2⟩

section
variable {s : State} {u c : Nat} (hs : Sits s u c)
include hs

theorem sameCircuits_refl : SameCircuits u c s s := ⟨hs, rfl⟩

theorem sameCircuits_modCore (d : Nat) {f : Core → Core} (hf : ∀ x, (f x).unit = x.unit) (hg : ∀ x, (f x).gl = x.gl) : SameCircuits u c s (s.modCore d f) := by
  obtain ⟨hrun, hcore⟩ := runsOn_modCore hs.1 hs.2 d hf
  refine ⟨⟨hs.1, hrun⟩, ?_⟩
  by_cases hd : d = c
  · rw [hcore hd]
    exact hg _
  · exact congrArg Core.gl (State.coreAt_setCore_other (Ne.symm hd) _)

theorem sameCircuits_dropLeaf (r : TRec) (cs : List Nat) : SameCircuits u c s (s.dropLeaf r cs) := by
  induction cs generalizing s with
  | nil => exact sameCircuits_refl hs
  | cons d ds ih =>
    have hone := sameCircuits_modCore hs d (f := fun x => { x with tlb := x.tlb.filter fun l => !r.names l }) (fun _ => rfl) fun _ => rfl
    exact hone.trans (ih hone.1)

theorem sameCircuits_trimDir : SameCircuits u c s s.trimDir := by
  unfold State.trimDir
  split
  · exact sameCircuits_refl hs
  · split
    · exact sameCircuits_refl hs
    · next r rs _ =>
      obtain ⟨hsit, hgl⟩ := sameCircuits_dropLeaf (s := s.withHub { s.hub with tdir := rs }) hs r _
      exact ⟨hsit, hgl⟩

theorem sameCircuits_cacheLeaf (a p : Nat) (va : Word) : SameCircuits u c s (s.cacheLeaf a p va) := by
  unfold State.cacheLeaf
  split
  · exact sameCircuits_refl hs
  · split
    · exact sameCircuits_refl hs
    · next l _ =>
      split
      · obtain ⟨hsit, hgl⟩ := sameCircuits_modCore hs a
          (f := fun x => { x with tlb := (if 256 ≤ x.tlb.length then x.tlb.drop 1 else x.tlb) ++ [l] }) (fun _ => rfl) fun _ => rfl
        obtain ⟨ksit, kgl⟩ := sameCircuits_trimDir (s := (s.modCore a fun x =>
          { x with tlb := (if 256 ≤ x.tlb.length then x.tlb.drop 1 else x.tlb) ++ [l] }).withHub { s.hub with tdir := addHolder l (stackOf a) s.hub.tdir })
          (hsit.congr (by
            show Option.map Uni.core (s.unitAt u) = _
            unfold State.unitAt
            rw [show (s.modCore a _).hub = s.hub from State.setCore_hub ..]) rfl)
        exact ⟨ksit, kgl.trans hgl⟩
      · exact sameCircuits_trimDir (s := s.withHub _) hs

theorem sameCircuits_touch (b : Bool) (pa k : Nat) (w : Bool) (t : Word) : SameCircuits u c s (s.touch b pa k w t) := by
  unfold State.touch
  dsimp only
  split
  · exact sameCircuits_refl hs
  · split
    · exact sameCircuits_refl hs
    · exact sameCircuits_refl hs

/-- A weak write of bytes at given addresses (R227): memory changes there alone, no register changes, and a unit's circuits stay. -/
theorem weakCells_spec (agent p : Nat) (va : Word) (cs : List Host.Cell) :
    let t := (s.weakCells agent p va cs).1
    sameRegs s t ∧ SameCircuits u c s t ∧ t.mem = cellsPut s.mem cs := by
  obtain ⟨hmem1, hregs1⟩ := calm_cacheLeaf s agent p va
  obtain ⟨hsit1, hgl1⟩ := sameCircuits_cacheLeaf hs agent p va
  obtain ⟨v, hv⟩ : ∃ v, s.cacheLeaf agent p va = v := ⟨_, rfl⟩
  rw [hv] at hmem1 hregs1 hsit1 hgl1
  obtain ⟨x, hx⟩ := weakTsAll_spec (squeeze (cs.map fun c => lineOf c.1)) v 0#64
  have touches (ls : List Nat) (coh : Bool) (k : Nat) (w : Word) (z : State) (hz : Sits z u c) :
      calm z (ls.foldl (fun s l => s.touch coh (64 * l) k true w) z) ∧ SameCircuits u c z (ls.foldl (fun s l => s.touch coh (64 * l) k true w) z) := by
    induction ls generalizing z with
    | nil => exact ⟨calm_refl z, sameCircuits_refl hz⟩
    | cons l ls ih =>
      have h1 := sameCircuits_touch hz coh (64 * l) k true w
      obtain ⟨k1, k2⟩ := ih (z.touch coh (64 * l) k true w) h1.1
      exact ⟨(calm_touch ..).trans k1, h1.trans k2⟩
  obtain ⟨⟨hmem2, hregs2⟩, hsit2, hgl2⟩ := touches (squeeze (cs.map fun c => lineOf c.1)) (s.weakCoherent agent p va) (agentStack agent)
    (v.weakTsAll 0#64 (squeeze (cs.map fun c => lineOf c.1))).2 { v with hub := { v.hub with ts := x } } hsit1
  obtain ⟨z, hz⟩ : ∃ z, (squeeze (cs.map fun c => lineOf c.1)).foldl (fun s' l => s'.touch (s.weakCoherent agent p va) (64 * l) (agentStack agent) true
    (v.weakTsAll 0#64 (squeeze (cs.map fun c => lineOf c.1))).2) { v with hub := { v.hub with ts := x } } = z := ⟨_, rfl⟩
  rw [hz] at hmem2 hregs2 hsit2 hgl2
  have hgo : (s.weakCells agent p va cs).1 = z.putCells cs := by
    unfold State.weakCells
    dsimp only
    rw [hv, hx, hz]
  intro t
  rw [show t = _ from hgo]
  obtain ⟨a1, a2, a3⟩ := hregs1
  obtain ⟨b1, b2, b3⟩ := hregs2
  refine ⟨⟨b1.trans a1, b2.trans a2, b3.trans a3⟩, ⟨hsit2, hgl2.trans hgl1⟩, ?_⟩
  show cellsPut z.mem cs = _
  rw [show z.mem = s.mem from hmem2.trans hmem1]

end

/-- A circuit that is open or closes, within the package. -/
theorem takeFlit_eq {s : State} {u h pos : Nat} {data : List Byte} (hst : (s.handleAt u h).st = .opn ∨ (s.handleAt u h).st = .closing)
    (htold : (s.handleAt u h).told = false) (hwhy : (s.handleAt u h).why = none) (hpos : pos = (s.handleAt u h).landed) :
    s.takeFlit u h pos data =
      match s.landFlit (s.coreOfUnit u) (s.unitPart u) (s.handleAt u h).block (s.handleAt u h).dest (s.handleAt u h).ring pos data with
      | .error k => (s.setHandle u h { s.handleAt u h with why := some k }).endCircuit u h .faulted
      | .ok (t, w) => ((t.setHandle u h { t.handleAt u h with landed := pos + data.length / 4 }).raiseWeak u (glColour (s.handleAt u h).block) w).addDue
          [.guylineAckArrive u h (pos + data.length / 4)] := by
  unfold State.takeFlit
  dsimp only
  have hgo : ¬ ((s.handleAt u h).told || (s.handleAt u h).why.isSome || decide (pos < (s.handleAt u h).landed)) = true := by
    rw [htold, hwhy, hpos]
    simp
  rcases hst with e | e
  all_goals
    rw [e]
    dsimp only
    rw [if_neg hgo, if_neg (by omega)] <;> rfl

theorem landFlit_memory {s : State} {agent p : Nat} {b : Block} {dest : Option Nat} {ring : Option RingAt} {pos : Nat} {data : List Byte}
    (hsp : glDstSp b = 0) (hbar : glBarEn b = false) :
    s.landFlit agent p b dest ring pos data =
      match s.weakSpan agent p (glDst b + BitVec.ofNat 64 (4 * pos)) data.length true with
      | .error e => .error e.1
      | .ok pas => .ok (s.weakCells agent p (glDst b + BitVec.ofNat 64 (4 * pos)) (pas.zip data)) := by
  unfold State.landFlit
  rw [hbar, hsp]
  dsimp only [Bool.not_false, if_true]
  cases s.weakSpan agent p (glDst b + BitVec.ofNat 64 (4 * pos)) data.length true <;> rfl

/-- A unit's weak times raised: no register changes, and its circuits stay. -/
theorem raiseWeak_spec {s : State} {u c : Nat} (hs : Sits s u c) (colour : Nat) (w : Word) :
    calm s (s.raiseWeak u colour w) ∧ SameCircuits u c s (s.raiseWeak u colour w) := by
  have he : s.raiseWeak u colour w = s.modCore c fun x => { x with weak := vput x.weak colour (wmax (vget 0#64 x.weak colour) w) } := by
    unfold State.raiseWeak State.modEng
    rw [hs.2]
    rfl
  rw [he]
  exact ⟨calm_modCore s c (f := fun x => { x with weak := vput x.weak colour (wmax (vget 0#64 x.weak colour) w) }) (fun _ => rfl) fun _ => rfl,
    sameCircuits_modCore hs c (f := fun x => { x with weak := vput x.weak colour (wmax (vget 0#64 x.weak colour) w) }) (fun _ => rfl) fun _ => rfl⟩

section
variable {s : State} {u h c : Nat} {y : Uni} (hs : Sits s u c) (hy : s.unitAt u = some y) (hh : h < 16)
  (hst : (s.handleAt u h).st = .opn ∨ (s.handleAt u h).st = .closing) {pos : Nat} {data : List Byte} (htold : (s.handleAt u h).told = false)
  (hwhy : (s.handleAt u h).why = none) (hpos : pos = (s.handleAt u h).landed) (hsp : glDstSp (s.handleAt u h).block = 0)
  (hbar : glBarEn (s.handleAt u h).block = false)
include hs hy hh hst htold hwhy hpos hsp hbar

/-- A flit lands in memory and is acknowledged (R335). -/
theorem takeFlit_lands {pas : List Nat} (hnd : pas.Nodup) (hwf : Memory.wf s.mem = true)
    (hspan : s.weakSpan c y.part (glDst (s.handleAt u h).block + BitVec.ofNat 64 (4 * pos)) data.length true = .ok pas) :
    let t := s.takeFlit u h pos data
    sameRegs s t ∧ t.handleAt u h = { s.handleAt u h with landed := pos + data.length / 4 } ∧
      Action.guylineAckArrive u h (pos + data.length / 4) ∈ t.due ∧
      (∀ (i a : Nat) (v : Byte), pas[i]? = some a → data[i]? = some v → cellAt t.mem a = v) ∧ ∀ a, a ∉ pas → cellAt t.mem a = cellAt s.mem a := by
  intro t
  have hpart : s.unitPart u = y.part := by unfold State.unitPart; rw [hy]; rfl
  obtain ⟨hregs, ⟨hsit, hgl⟩, hmem⟩ := weakCells_spec hs c y.part (glDst (s.handleAt u h).block + BitVec.ofNat 64 (4 * pos)) (pas.zip data)
  obtain ⟨r, hr⟩ : ∃ r, s.weakCells c y.part (glDst (s.handleAt u h).block + BitVec.ofNat 64 (4 * pos)) (pas.zip data) = r := ⟨_, rfl⟩
  have ht : t = ((r.1.setHandle u h { r.1.handleAt u h with landed := pos + data.length / 4 }).raiseWeak u (glColour (s.handleAt u h).block) r.2).addDue
      [.guylineAckArrive u h (pos + data.length / 4)] := by
    dsimp only [t]
    rw [takeFlit_eq hst htold hwhy hpos, hs.coreOfUnit, hpart, landFlit_memory hsp hbar, hspan]
    dsimp only
    rw [hr]
  rw [hr] at hregs hsit hgl hmem
  have hhandle : r.1.handleAt u h = s.handleAt u h := by rw [hsit.handleAt, hs.handleAt, hgl]
  obtain ⟨⟨kmem, k1, k2, k3⟩, ksit, kset, -, -⟩ := setHandle_spec hsit hh { r.1.handleAt u h with landed := pos + data.length / 4 }
  obtain ⟨v, hv⟩ : ∃ v, r.1.setHandle u h { r.1.handleAt u h with landed := pos + data.length / 4 } = v := ⟨_, rfl⟩
  rw [hv] at kmem k1 k2 k3 ksit kset ht
  obtain ⟨⟨lmem, l1, l2, l3⟩, lsit, lgl⟩ := raiseWeak_spec ksit (glColour (s.handleAt u h).block) r.2
  obtain ⟨w, hw⟩ : ∃ w, v.raiseWeak u (glColour (s.handleAt u h).block) r.2 = w := ⟨_, rfl⟩
  rw [hw] at lmem l1 l2 l3 lsit lgl ht
  obtain ⟨m1, m2, m3⟩ := hregs
  have hmemt : t.mem = cellsPut s.mem (pas.zip data) := by
    rw [ht]
    exact lmem.trans (kmem.trans hmem)
  refine ⟨by rw [ht]; exact ⟨l1.trans (k1.trans m1), l2.trans (k2.trans m2), l3.trans (k3.trans m3)⟩, ?_, ?_, fun i a v ha hv => ?_, fun a ha => ?_⟩
  · rw [ht]
    have hwat : w.handleAt u h = v.handleAt u h := by rw [lsit.handleAt, ksit.handleAt, lgl]
    refine (show _ = w.handleAt u h from rfl).trans (hwat.trans (kset.trans ?_))
    rw [hhandle]
  · rw [ht]
    exact List.mem_append_right _ (List.mem_singleton_self _)
  · rw [hmemt]
    exact cellAt_cellsPut_zip hwf pas data hnd ha hv
  · rw [hmemt]
    exact cellAt_cellsPut_outside s.mem pas data ha

/-- A flit that faults ends its circuit (R335). -/
theorem takeFlit_faults {k : Cause} {v : Word} (hend : (s.handleAt u h).ending = false)
    (hspan : s.weakSpan c y.part (glDst (s.handleAt u h).block + BitVec.ofNat 64 (4 * pos)) data.length true = .error (k, v)) :
    let t := s.takeFlit u h pos data
    calm s t ∧ Action.guylineSlotSend u h ∈ t.due ∧
      t.handleAt u h = { s.handleAt u h with st := .closing, why := some k, cause := .faulted, ending := true, pend := [], endAt := s.time } := by
  intro t
  have hpart : s.unitPart u = y.part := by unfold State.unitPart; rw [hy]; rfl
  obtain ⟨hcalm, hsit, hset, -, honly⟩ := setHandle_spec hs hh { s.handleAt u h with why := some k }
  obtain ⟨v', hv⟩ : ∃ v, s.setHandle u h { s.handleAt u h with why := some k } = v := ⟨_, rfl⟩
  have ht : t = v'.endCircuit u h .faulted := by
    dsimp only [t]
    rw [takeFlit_eq hst htold hwhy hpos, hs.coreOfUnit, hpart, landFlit_memory hsp hbar, hspan, ← hv]
  rw [hv] at hcalm hsit hset honly
  obtain ⟨kcalm, kset, kdue, -⟩ := endCircuit_spec hsit hh .faulted
  rw [ht]
  refine ⟨hcalm.trans kcalm, kdue, ?_⟩
  rw [kset, hset, honly.time]
  exact finish_open (x := { s.handleAt u h with why := some k }) hst hend .faulted s.time

end

end Sys2Proof.Machine
end

section
set_option Elab.async false
/-! The end of a circuit, and the trap record of one that failed (R253, R339, R355, R428). -/
namespace Sys2Proof.Machine

/-! ### What a trap record's handler leaves of the unit -/

/-- No register and no memory changes, a unit keeps its core and its circuits, and what was due stays due. -/
def Quiet (u c : Nat) (s t : State) : Prop := calm s t ∧ SameCircuits u c s t ∧ Grows s t

theorem Quiet.trans {u c : Nat} {s t v : State} (h : Quiet u c s t) (k : Quiet u c t v) : Quiet u c s v :=
  ⟨h.1.trans k.1, h.2.1.trans k.2.1, h.2.2.trans k.2.2⟩

theorem grows_modCore (s : State) (c : Nat) (f : Core → Core) : Grows s (s.modCore c f) := .of_eq (State.setCore_due s c _)

section
variable {s : State} {u c : Nat} (hs : Sits s u c)
include hs

theorem quiet_refl : Quiet u c s s := ⟨calm_refl s, sameCircuits_refl hs, .refl s⟩

theorem quiet_addDue (xs : List Action) : Quiet u c s (s.addDue xs) := ⟨calm_refl s, ⟨hs, rfl⟩, .addDue s xs⟩

theorem quiet_modCore (d : Nat) {f : Core → Core} (hf : ∀ x, (f x).unit = x.unit ∧ (f x).gl = x.gl ∧ (f x).arch = x.arch ∧ (f x).shadow = x.shadow) :
    Quiet u c s (s.modCore d f) :=
  ⟨calm_modCore s d (fun x => (hf x).2.2.1) fun x => (hf x).2.2.2, sameCircuits_modCore hs d (fun x => (hf x).1) fun x => (hf x).2.1, grows_modCore s d f⟩

/-- The hub's records change, and none of the unit's core. -/
theorem quiet_withHub (h : Hub) (hu : (NatMap.find u h.units).map Uni.core = (s.unitAt u).map Uni.core) : Quiet u c s (s.withHub h) :=
  ⟨calm_refl s, ⟨hs.congr hu rfl, rfl⟩, .of_eq rfl⟩

theorem quiet_setUnit (v : Nat) (x : Uni) (hx : v = u → x.core = c) : Quiet u c s (s.setUnit v x) := by
  refine quiet_withHub hs _ ?_
  rw [NatMap.find_put]
  split
  · next hv => rw [hs.unit.2, ← hx hv.symm]; rfl
  · rfl

theorem quiet_modUnit (v : Nat) {f : Uni → Uni} (hf : v = u → ∀ x, (f x).core = x.core) : Quiet u c s (s.modUnit v f) := by
  unfold State.modUnit
  split
  · next x hx =>
    refine quiet_setUnit hs v _ ?_
    rintro rfl
    have := hs.unit.2
    rw [hx] at this
    rw [hf rfl]
    exact Option.some.inj this
  · exact quiet_refl hs

theorem quiet_freeRows (v : Nat) : Quiet u c s (s.freeRows v) := by
  unfold State.freeRows
  split
  · next x hx =>
    split
    · exact quiet_refl hs
    · have hset := quiet_setUnit hs v { x with rows := 0, rowBase := 0 } (by
        rintro rfl
        have := hs.unit.2
        rw [hx] at this
        exact Option.some.inj this)
      exact (hset.trans (quiet_withHub hset.2.1.1 _ rfl)).trans (quiet_addDue (quiet_withHub hset.2.1.1 _ rfl).2.1.1 _)
  · exact quiet_refl hs

theorem quiet_demote (d : Nat) : Quiet u c s (s.demote d) := by
  unfold State.demote
  split
  · exact quiet_refl hs
  · next v _ =>
    split
    · exact quiet_refl hs
    · next x _ =>
      have h1 : Quiet u c s (if x.ctx.isSome then s else s.freeRows v) := by
        split
        · exact quiet_refl hs
        · exact quiet_freeRows hs v
      have h2 := quiet_modUnit h1.2.1.1 v (f := fun y => { y with
        st := .queued, argFault := none, stamp := ((if x.ctx.isSome then s else s.freeRows v).coreAt d).issuedN }) fun _ _ => rfl
      exact (h1.trans h2).trans (quiet_modCore h2.2.1.1 d fun _ => ⟨rfl, rfl, rfl, rfl⟩)

theorem quiet_addUnit (hu : u < s.hub.nextUnit) (x : Uni) (d : Nat) (front : Bool) : Quiet u c s (s.addUnit x d front).2 := by
  have h1 : Quiet u c s (s.newUnit x).2 := by
    have hput := quiet_withHub hs { s.hub with nextUnit := s.hub.nextUnit + 1, units := NatMap.put s.hub.nextUnit x s.hub.units } (by
      rw [NatMap.find_put_ne (Nat.ne_of_lt hu)]
      rfl)
    have hacc : Quiet u c s (if x.hold.valid && decide (x.hold.pkg = s.fabric.num) then
        (s.withHub { s.hub with nextUnit := s.hub.nextUnit + 1, units := NatMap.put s.hub.nextUnit x s.hub.units }).setAcc (accId x.hold.acct)
          { (s.withHub { s.hub with nextUnit := s.hub.nextUnit + 1, units := NatMap.put s.hub.nextUnit x s.hub.units }).accAt (accId x.hold.acct) with
            created := ((s.withHub { s.hub with nextUnit := s.hub.nextUnit + 1, units := NatMap.put s.hub.nextUnit x s.hub.units }).accAt (accId x.hold.acct)).created + 1#64 }
        else s.withHub { s.hub with nextUnit := s.hub.nextUnit + 1, units := NatMap.put s.hub.nextUnit x s.hub.units }) := by
      split
      · exact hput.trans (quiet_withHub hput.2.1.1 _ rfl)
      · exact hput
    unfold State.newUnit
    dsimp only
    split
    · exact hacc.trans (quiet_addDue hacc.2.1.1 _)
    · exact hacc
  obtain ⟨w, hw⟩ : ∃ w, (s.newUnit x).2 = w := ⟨_, rfl⟩
  rw [hw] at h1
  have h2 := quiet_modUnit h1.2.1.1 s.hub.nextUnit (f := fun x => { x with st := .queued, core := d, stamp := (w.coreAt d).issuedN, aged := 0 })
    fun e => absurd e (Nat.ne_of_gt hu)
  have h3 := quiet_modCore h2.2.1.1 d (f := fun x => { x with queue := if front then s.hub.nextUnit :: x.queue else x.queue ++ [s.hub.nextUnit] })
    fun _ => ⟨rfl, rfl, rfl, rfl⟩
  have hgo : (s.addUnit x d front).2 = (w.enqueue s.hub.nextUnit d front) := by rw [← hw]; rfl
  rw [hgo]
  exact ((h1.trans h2).trans h3).trans (quiet_addDue h3.2.1.1 _)

omit hs in
theorem nextUnit_demote (s : State) (d : Nat) : (s.demote d).hub.nextUnit = s.hub.nextUnit := by
  have rows (v : Nat) : (s.freeRows v).hub.nextUnit = s.hub.nextUnit := by
    unfold State.freeRows
    split
    · split <;> rfl
    · rfl
  have mods (s : State) (v : Nat) (f : Uni → Uni) : (s.modUnit v f).hub.nextUnit = s.hub.nextUnit := by
    unfold State.modUnit
    split <;> rfl
  unfold State.demote
  split
  · rfl
  · next v _ =>
    split
    · rfl
    · dsimp only
      refine (congrArg Hub.nextUnit (State.setCore_hub ..)).trans ((mods ..).trans ?_)
      split
      · rfl
      · exact rows v

theorem quiet_createHandler (hu : u < s.hub.nextUnit) (d : Nat) (w : TrapWait) (k : UnitDecl) : Quiet u c s (s.createHandler d w k) := by
  have h1 := quiet_demote hs d
  have h2 := quiet_modCore h1.2.1.1 d (f := fun k => { k with handling := some w }) fun _ => ⟨rfl, rfl, rfl, rfl⟩
  have hnext : ((s.demote d).modCore d fun k => { k with handling := some w }).hub.nextUnit = s.hub.nextUnit := by
    rw [show ((s.demote d).modCore d fun k => { k with handling := some w }).hub = (s.demote d).hub from State.setCore_hub ..]
    exact nextUnit_demote s d
  unfold State.createHandler
  dsimp only
  exact (h1.trans h2).trans (quiet_addUnit h2.2.1.1 (hnext ▸ hu) _ d true)

end

/-! ### A unit that ends where no handler takes its trap (R355) -/

/-- Memory and the units' records are as they were, what was due stays due, and a unit keeps its core and the traps that wait there. -/
def Leaving (u c : Nat) (s t : State) : Prop :=
  t.mem = s.mem ∧ Grows s t ∧ t.hub.units = s.hub.units ∧ Sits t u c ∧ (t.coreAt c).trapq = (s.coreAt c).trapq

theorem Leaving.trans {u c : Nat} {s t v : State} (h : Leaving u c s t) (k : Leaving u c t v) : Leaving u c s v := by
  obtain ⟨h1, h2, h3, h4, h5⟩ := h
  obtain ⟨k1, k2, k3, k4, k5⟩ := k
  exact ⟨k1.trans h1, h2.trans k2, k3.trans h3, k4, k5.trans h5⟩

section
variable {s : State} {u c : Nat} (hs : Sits s u c)
include hs

theorem leaving_refl : Leaving u c s s := ⟨rfl, .refl s, rfl, hs, rfl⟩
theorem leaving_addDue (xs : List Action) : Leaving u c s (s.addDue xs) := ⟨rfl, .addDue s xs, rfl, hs, rfl⟩

theorem leaving_modEng (f : Engines → Engines) : Leaving u c s (s.modEng u f) := by
  obtain ⟨g, hg⟩ : ∃ g : Core → Core, g = fun x => { x with chans := (f x.engines).chans, six := (f x.engines).six, gl := (f x.engines).gl, weak := (f x.engines).weak } :=
    ⟨_, rfl⟩
  have he : s.modEng u f = s.modCore c g := by
    unfold State.modEng
    rw [hs.2, hg]
  have hunit : ∀ x, (g x).unit = x.unit := fun x => by rw [hg]
  obtain ⟨hsit, hcore⟩ := hs.modCore hunit
  rw [he]
  refine ⟨State.setCore_mem .., grows_modCore .., congrArg Hub.units (State.setCore_hub ..), hsit, ?_⟩
  rw [hcore, hg]

theorem leaving_giveToks (site : Nat) (w : Word) (ts : List Tok) : Leaving u c s (s.giveToks site w ts) := by
  induction ts generalizing s with
  | nil => exact leaving_refl hs
  | cons t ts ih => exact (leaving_addDue hs _).trans (ih (s := s.giveTok site t false w) hs)

theorem leaving_dropChanToks (site : Nat) (w : Word) (ns : List Nat) : Leaving u c s (s.dropChanToks u site w ns) := by
  induction ns generalizing s with
  | nil => exact leaving_refl hs
  | cons n ns ih =>
    have hone : Leaving u c s (s.settleChan u site n w) := by
      unfold State.settleChan
      dsimp only
      split
      · have h1 := leaving_modEng hs fun e => { e with chans := vput e.chans n { vget {} (s.engOf u).chans n with toks := [] } }
        exact h1.trans (leaving_giveToks h1.2.2.2.1 ..)
      · exact leaving_refl hs
    exact hone.trans (ih hone.2.2.2.1)

theorem leaving_quitEngines (site : Nat) (w : Word) : Leaving u c s (s.quitEngines u site w) := by
  have h1 : Leaving u c s (s.dropFaulted u) := ⟨rfl, .of_eq rfl, rfl, hs, rfl⟩
  have h2 := leaving_modEng (s := s.dropFaulted u) hs fun e =>
    { e with chans := vmap (fun c => { c.quit with error := false }) e.chans, six := { e.six with run := none, shadow := none } }
  exact (h1.trans h2).trans (leaving_dropChanToks h2.2.2.2.1 ..)

end

end Sys2Proof.Machine
end

section
set_option Elab.async false
/-! The unit of a circuit that failed, where no handler takes its trap (R310, R339, R355). -/
namespace Sys2Proof.Machine

/-- Memory is as it was, what was due stays due, and the units' records keep their order. -/
def Departing (s t : State) : Prop := t.mem = s.mem ∧ Grows s t ∧ (RisingKeys s.hub.units → RisingKeys t.hub.units)

theorem Departing.refl (s : State) : Departing s s := ⟨rfl, .refl s, id⟩

theorem Departing.trans {s t v : State} (h : Departing s t) (k : Departing t v) : Departing s v :=
  ⟨k.1.trans h.1, h.2.1.trans k.2.1, fun hr => k.2.2 (h.2.2 hr)⟩

theorem Departing.ite {s t v : State} {p : Prop} [Decidable p] (h : Departing s t) (k : Departing s v) : Departing s (if p then t else v) := by
  split
  · exact h
  · exact k

theorem departing_addDue (s : State) (xs : List Action) : Departing s (s.addDue xs) := ⟨rfl, .addDue s xs, id⟩

theorem departing_setUnit (s : State) (v : Nat) (x : Uni) : Departing s (s.setUnit v x) := ⟨rfl, .of_eq rfl, fun h => h.put _ _⟩

theorem departing_modUnit (s : State) (v : Nat) (f : Uni → Uni) : Departing s (s.modUnit v f) := by
  unfold State.modUnit
  split
  · exact departing_setUnit ..
  · exact .refl s

theorem departing_setCore (s : State) (c : Nat) (x : Core) : Departing s (s.setCore c x) :=
  ⟨State.setCore_mem .., grows_setCore .., fun h => (congrArg Hub.units (State.setCore_hub s c x)) ▸ h⟩

theorem departing_setAcc (s : State) (i : Nat) (a : Account) : Departing s (s.setAcc i a) := ⟨rfl, .of_eq rfl, id⟩

theorem departing_freeRows (s : State) (v : Nat) : Departing s (s.freeRows v) := by
  unfold State.freeRows
  split
  · next x _ =>
    exact .ite (.refl s) ⟨rfl, ⟨_, rfl⟩, fun h => h.put v { x with rows := 0, rowBase := 0 }⟩
  · exact .refl s

theorem departing_reap (s : State) (v : Nat) : Departing s (s.reap v) := by
  unfold State.reap
  split
  · dsimp only
    split
    · exact (departing_freeRows s v).trans ⟨rfl, .of_eq rfl, fun h => h.del v⟩
    · exact .refl s
  · exact .refl s

theorem unitAt_modUnit_same {s : State} {u : Nat} {y : Uni} (h : s.unitAt u = some y) (f : Uni → Uni) : (s.modUnit u f).unitAt u = some (f y) := by
  unfold State.modUnit
  rw [h]
  exact NatMap.find_put_self ..

theorem unitAt_setCore (s : State) (c : Nat) (x : Core) (u : Nat) : (s.setCore c x).unitAt u = s.unitAt u := by
  unfold State.unitAt
  rw [State.setCore_hub]

/-- A unit's record stays as it is, or is forgotten, as another's rows are freed. -/
theorem unitEnded_reap {s : State} (hr : RisingKeys s.hub.units) {u : Nat} (h : unitEnded s u) (v : Nat) : unitEnded (s.reap v) u := by
  have hrows : unitEnded (s.freeRows v) u := by
    by_cases hv : u = v
    · subst hv
      unfold State.freeRows
      split
      · next x hx =>
        split
        · exact h
        · intro z hz
          obtain rfl := Option.some.inj ((NatMap.find_put_self ..).symm.trans hz)
          exact h x hx
      · exact h
    · intro z hz
      rw [unitAt_freeRows_other hv] at hz
      exact h z hz
  unfold State.reap
  split
  · dsimp only
    split
    · intro z hz
      by_cases hv : u = v
      · subst hv
        have hnone : NatMap.find u (NatMap.del u (s.freeRows u).hub.units) = none := NatMap.find_del_self ((departing_freeRows s u).2.2 hr)
        cases hnone.symm.trans hz
      · exact hrows z ((NatMap.find_del_ne hv _).symm.trans hz)
    · exact h
  · exact h

theorem unitEnded_reapAll {s : State} (hr : RisingKeys s.hub.units) {u : Nat} (h : unitEnded s u) : unitEnded s.reapAll u ∧ Departing s s.reapAll := by
  have hall (vs : List Nat) (t : State) (hr : RisingKeys t.hub.units) (h : unitEnded t u) :
      unitEnded (t.each State.reap vs) u ∧ Departing t (t.each State.reap vs) := by
    induction vs generalizing t with
    | nil => exact ⟨h, .refl t⟩
    | cons v vs ih =>
      have h1 := departing_reap t v
      obtain ⟨k1, k2⟩ := ih (t.reap v) (h1.2.2 hr) (unitEnded_reap hr h v)
      exact ⟨k1, h1.trans k2⟩
  exact hall _ s hr h

/-- A unit at its end (R284): its record is ended, or forgotten, and a core that it left keeps the traps that wait there. -/
theorem retireUnit_spec {s : State} {u : Nat} {y : Uni} (hu : s.unitAt u = some y) (hr : RisingKeys s.hub.units) (x : Uni) (taint : Bool) (site : Nat)
    (w : Word) :
    let t := s.retireUnit u x taint site w
    Departing s t ∧ unitEnded t u ∧ ∀ c, (s.coreAt c).phase = .left → (t.coreAt c).trapq = (s.coreAt c).trapq := by
  have hdeq : Departing s (s.dequeue u) ∧ (s.dequeue u).unitAt u = some y ∧
      ∀ c, (s.coreAt c).phase = .left → ((s.dequeue u).coreAt c).trapq = (s.coreAt c).trapq := by
    unfold State.dequeue
    rw [hu]
    refine ⟨departing_setCore .., (unitAt_setCore ..).trans hu, fun c hc => ?_⟩
    by_cases hd : c = y.core
    · subst hd
      unfold State.modCore
      rw [State.coreAt_setCore_of_ne (fun e => ?_), if_pos rfl]
      have hph := congrArg Core.phase e
      cases hc.symm.trans hph
    · exact congrArg Core.trapq (State.coreAt_setCore_other hd _)
  obtain ⟨d1, d2, d3⟩ := hdeq
  obtain ⟨a, ha⟩ : ∃ a, s.dequeue u = a := ⟨_, rfl⟩
  rw [ha] at d1 d2 d3
  have hgive : Departing a (a.giveHold site x.hold taint w) ∧ (a.giveHold site x.hold taint w).unitAt u = some y ∧
      ∀ c, (a.giveHold site x.hold taint w).coreAt c = a.coreAt c := by
    unfold State.giveHold
    split
    · exact ⟨.refl a, d2, fun _ => rfl⟩
    · exact ⟨departing_addDue .., d2, fun _ => rfl⟩
  obtain ⟨g1, g2, g3⟩ := hgive
  obtain ⟨b, hb⟩ : ∃ b, a.giveHold site x.hold taint w = b := ⟨_, rfl⟩
  rw [hb] at g1 g2 g3
  obtain ⟨k, hk⟩ : ∃ k, (if x.hold.valid && decide (x.hold.pkg = s.fabric.num) then
      b.setAcc (accId x.hold.acct) { b.accAt (accId x.hold.acct) with ended := (b.accAt (accId x.hold.acct)).ended + 1#64 } else b) = k := ⟨_, rfl⟩
  have hacc : Departing b k ∧ k.unitAt u = some y ∧ ∀ c, k.coreAt c = b.coreAt c := by
    rw [← hk]
    split
    · exact ⟨departing_setAcc .., g2, fun _ => rfl⟩
    · exact ⟨.refl b, g2, fun _ => rfl⟩
  obtain ⟨k1, k2, k3⟩ := hacc
  have hend := unitAt_modUnit_same k2 fun z => { z with st := .ended, hold := { x.hold with valid := false, pair := false }, ctx := none }
  have hmod := departing_modUnit k u fun z => { z with st := .ended, hold := { x.hold with valid := false, pair := false }, ctx := none }
  obtain ⟨m, hm⟩ : ∃ m, (k.modUnit u fun z => { z with st := .ended, hold := { x.hold with valid := false, pair := false }, ctx := none }) = m := ⟨_, rfl⟩
  have hmcore (c : Nat) : m.coreAt c = k.coreAt c := by
    rw [← hm]
    unfold State.modUnit
    rw [k2]
    rfl
  rw [hm] at hend hmod
  have hgo : s.retireUnit u x taint site w = m.reap u := by
    unfold State.retireUnit
    dsimp only
    rw [ha, hb, hk, hm]
  intro t
  rw [show t = _ from hgo]
  have hall := (((d1.trans g1).trans k1).trans hmod)
  have hue : unitEnded m u := fun z hz => by
    obtain rfl := Option.some.inj (hend.symm.trans hz)
    rfl
  refine ⟨hall.trans (departing_reap m u), unitEnded_reap (hall.2.2 hr) hue u, fun c hc => ?_⟩
  have hreap : (m.reap u).coreAt c = m.coreAt c := by
    have hrows : (m.freeRows u).coreAt c = m.coreAt c := by
      unfold State.freeRows
      split
      · split <;> rfl
      · rfl
    unfold State.reap
    split
    · dsimp only
      split
      · exact hrows
      · rfl
    · rfl
  rw [hreap, hmcore, k3, g3]
  exact d3 c hc

end Sys2Proof.Machine
end

section
set_option Elab.async false
/-! A circuit over: its token goes home, and a failed one leaves a trap record (R253, R339, R428). -/
namespace Sys2Proof.Machine

/-- A unit at its end off its core (R284, R357). -/
theorem endUnit_spec {s : State} {u : Nat} {y : Uni} (hu : s.unitAt u = some y) (hy : y.st ≠ .ended) (hr : RisingKeys s.hub.units)
    (hleft : (s.coreAt y.core).phase = .left) (htraps : y.handler = none ∨ (s.coreAt y.core).trapq = []) (taint : Bool) (site : Nat) (w : Word) :
    Departing s (s.endUnit u taint site w) ∧ unitEnded (s.endUnit u taint site w) u := by
  obtain ⟨hdep, hend, hkeep⟩ := retireUnit_spec hu hr y taint site w
  have hgo : s.endUnit u taint site w = if y.handler.isSome then
      (s.retireUnit u y taint site w).nextTrap y.core ((s.retireUnit u y taint site w).coreAt y.core).trapq else s.retireUnit u y taint site w := by
    unfold State.endUnit
    rw [hu]
    exact if_neg hy
  rw [hgo]
  split
  · next hsome =>
    have hnil : (s.coreAt y.core).trapq = [] := htraps.resolve_left fun e => by rw [e] at hsome; cases hsome
    rw [hkeep y.core hleft, hnil]
    refine ⟨hdep.trans (departing_setCore ..), fun z hz => hend z ?_⟩
    rw [← hz]
    exact (unitAt_setCore ..).symm
  · exact ⟨hdep, hend⟩

/-- A unit that runs ends on its core (R284, R310, R355). -/
theorem endRunning_spec {s : State} {u c : Nat} {y : Uni} (hs : Sits s u c) (hu : s.unitAt u = some y) (hy : y.st ≠ .ended) (hr : RisingKeys s.hub.units)
    (htraps : y.handler = none ∨ (s.coreAt c).trapq = []) :
    Departing s (s.endAny u false) ∧ unitEnded (s.endAny u false) u := by
  have hcore : y.core = c := by
    have := hs.unit.2
    rw [hu] at this
    exact Option.some.inj this
  obtain ⟨q1, q2, q3, q4, q5⟩ := leaving_quitEngines hs c (s.coreAt c).allPts
  obtain ⟨v, hv⟩ : ∃ v, s.quitEngines u c (s.coreAt c).allPts = v := ⟨_, rfl⟩
  rw [hv] at q1 q2 q3 q4 q5
  have hvu : v.unitAt u = some y := by unfold State.unitAt; rw [q3]; exact hu
  have hvr : RisingKeys v.hub.units := q3 ▸ hr
  let f : Uni → Uni := fun y => { y with
    pad := (v.coreAt c).pad, eng := (v.coreAt c).engines, hold := (v.coreAt c).hold, pts := (v.coreAt c).pts, trees := (v.coreAt c).joined }
  let x1 : Core := (v.coreAt c).vacated (vget 4096 v.hub.ckBound (v.coreAt c).part) (vget 8192 v.hub.qBound (v.coreAt c).part) v.hub.mode
  have hdet : v.detach c = ((v.modUnit u f).setCore c x1).addDue [.unitAdmit c, .unitStart c] := by
    unfold State.detach
    dsimp only
    rw [q4.unit.1]
  have h1 := departing_modUnit v u f
  have h2 := departing_setCore (v.modUnit u f) c x1
  have hat : (((v.modUnit u f).setCore c x1).addDue [.unitAdmit c, .unitStart c]).unitAt u = some (f y) :=
    (unitAt_setCore (v.modUnit u f) c x1 u).trans (unitAt_modUnit_same hvu f)
  have hc1 : ((v.modUnit u f).setCore c x1).coreAt c = x1 := by
    refine (State.coreAt_setCore_of_ne (fun e => ?_) c c).trans (if_pos rfl)
    cases congrArg Core.phase e
  obtain ⟨w, hw⟩ : ∃ w, ((v.modUnit u f).setCore c x1).addDue [.unitAdmit c, .unitStart c] = w := ⟨_, rfl⟩
  have hwc : w.coreAt c = x1 := by rw [← hw]; exact hc1
  have hdep : Departing v w := by rw [← hw]; exact (h1.trans h2).trans (departing_addDue ..)
  rw [hw] at hat hdet
  have hgo : s.endAny u false = w.endUnit u false c (s.coreAt c).allPts := by
    unfold State.endAny
    rw [hs.2]
    dsimp only
    unfold State.endRunning
    dsimp only
    rw [hs.unit.1]
    dsimp only
    rw [if_neg Bool.false_ne_true, hv, hdet]
  rw [hgo]
  have hbase : Departing s v := ⟨q1, q2, fun h => q3 ▸ h⟩
  obtain ⟨k1, k2⟩ := endUnit_spec (y := f y) hat hy (hdep.2.2 hvr) (by rw [show (f y).core = c from hcore, hwc]; rfl) (by
    rw [show (f y).core = c from hcore, hwc]
    exact htraps.imp id fun e => (show (v.coreAt c).trapq = [] from q5.trans e)) false c (s.coreAt c).allPts
  exact ⟨(hbase.trans hdep).trans k1, k2⟩

/-! ### A handler is called (R356) -/

/-- A unit that is not at its end stays so. -/
def Lives (u : Nat) (s t : State) : Prop := ∀ y, s.unitAt u = some y → y.st ≠ .ended → ∃ z, t.unitAt u = some z ∧ z.st ≠ .ended

theorem Lives.trans {u : Nat} {s t v : State} (h : Lives u s t) (k : Lives u t v) : Lives u s v := fun y hy hne => by
  obtain ⟨z, hz, hzne⟩ := h y hy hne
  exact k z hz hzne

theorem lives_of_eq {u : Nat} {s t : State} (h : t.unitAt u = s.unitAt u) : Lives u s t := fun y hy hne => ⟨y, h.trans hy, hne⟩

theorem lives_setUnit {u : Nat} (s : State) (v : Nat) {x : Uni} (hx : v = u → x.st ≠ .ended) : Lives u s (s.setUnit v x) := fun y hy hne => by
  by_cases e : v = u
  · exact ⟨x, by rw [← e]; exact NatMap.find_put_self .., hx e⟩
  · exact ⟨y, (NatMap.find_put_ne (Ne.symm e) x _).trans hy, hne⟩

theorem lives_modUnit {u : Nat} (s : State) (v : Nat) {f : Uni → Uni} (hf : ∀ x, x.st ≠ .ended → (f x).st ≠ .ended) : Lives u s (s.modUnit v f) := by
  intro y hy hne
  unfold State.modUnit
  split
  · next x hx =>
    refine lives_setUnit s v (fun e => hf x ?_) y hy hne
    rw [e, hy] at hx
    exact Option.some.inj hx ▸ hne
  · exact ⟨y, hy, hne⟩

theorem lives_freeRows {u : Nat} (s : State) (v : Nat) : Lives u s (s.freeRows v) := by
  intro y hy hne
  unfold State.freeRows
  split
  · next x hx =>
    split
    · exact ⟨y, hy, hne⟩
    · refine lives_setUnit s v (x := { x with rows := 0, rowBase := 0 }) (fun e => ?_) y hy hne
      rw [e, hy] at hx
      exact Option.some.inj hx ▸ hne
  · exact ⟨y, hy, hne⟩

theorem lives_demote {u : Nat} (s : State) (d : Nat) : Lives u s (s.demote d) := by
  unfold State.demote
  split
  · exact lives_of_eq rfl
  · next v _ =>
    split
    · exact lives_of_eq rfl
    · next x _ =>
      have h1 : Lives u s (if x.ctx.isSome then s else s.freeRows v) := by
        split
        · exact lives_of_eq rfl
        · exact lives_freeRows s v
      refine (h1.trans (lives_modUnit _ v (f := fun y => { y with
        st := .queued, argFault := none, stamp := ((if x.ctx.isSome then s else s.freeRows v).coreAt d).issuedN }) fun _ _ e => by cases e)).trans ?_
      exact lives_of_eq (unitAt_setCore ..)

theorem lives_addUnit {u : Nat} {s : State} (hu : u < s.hub.nextUnit) (x : Uni) (d : Nat) (front : Bool) : Lives u s (s.addUnit x d front).2 := by
  have h1 : Lives u s (s.newUnit x).2 := by
    refine lives_of_eq ?_
    unfold State.newUnit
    dsimp only
    have hput := NatMap.find_put_ne (Nat.ne_of_lt hu) x s.hub.units
    split <;> split <;> exact hput
  unfold State.addUnit State.enqueue
  dsimp only
  generalize (s.newUnit x).2 = n at h1 ⊢
  refine (h1.trans (lives_modUnit n (s.newUnit x).1 (f := fun y => { y with
    st := .queued, core := d, stamp := (n.coreAt d).issuedN, aged := 0 }) fun _ _ e => by cases e)).trans (lives_of_eq ?_)
  exact unitAt_setCore ..

theorem lives_createHandler {u : Nat} {s : State} (hu : u < s.hub.nextUnit) (d : Nat) (w : TrapWait) (k : UnitDecl) : Lives u s (s.createHandler d w k) := by
  have h2 : Lives u (s.demote d) ((s.demote d).modCore d fun k => { k with handling := some w }) := lives_of_eq (unitAt_setCore ..)
  have hnext : ((s.demote d).modCore d fun k => { k with handling := some w }).hub.nextUnit = s.hub.nextUnit := by
    rw [show ((s.demote d).modCore d fun k => { k with handling := some w }).hub = (s.demote d).hub from State.setCore_hub ..]
    exact nextUnit_demote s d
  unfold State.createHandler
  dsimp only
  exact ((lives_demote s d).trans h2).trans (lives_addUnit (hnext ▸ hu) _ d true)

/-! ### The trap record (R253, R428) -/

/-- Only memory and the timestamps of lines differ. -/
def Written (s t : State) : Prop := ∃ m ts, t = { s with mem := m, hub := { s.hub with ts := ts } }

theorem written_weakNat (s : State) (pa n v : Nat) : Written s (s.weakNat pa n v) := by
  unfold State.weakNat
  split
  · exact ⟨s.mem, s.hub.ts, rfl⟩
  · exact ⟨_, _, rfl⟩

/-- A trap record fits its 128 bytes. -/
theorem slotWrite_record (s : State) (p bits : Nat) : s.slotWrite [p] 0 128 bits = s.weakNat p 128 bits := by
  unfold State.slotWrite
  exact if_pos (by decide)

/-- The trap of a unit that runs and has no handler to call ends it; any other goes to its handler, or waits for it. -/
theorem handleTrap_spec {s : State} {u c : Nat} {y : Uni} (hs : Sits s u c) (hu : s.unitAt u = some y) (hy : y.st ≠ .ended)
    (hr : RisingKeys s.hub.units) (hnext : u < s.hub.nextUnit) (htraps : y.handler = none ∨ (s.coreAt c).trapq = [])
    (hroom : (s.coreAt c).trapq.length < 16) {w : TrapWait} (hw : w.part = y.part) (i : TrapInfo) :
    let t := s.handleTrap c u w y.handler.isSome i
    t.mem = s.mem ∧ Grows s t ∧ (Handled s y → Quiet u c s t ∧ Lives u s t) ∧ (¬ Handled s y → unitEnded t u ∧ RisingKeys t.hub.units) := by
  intro t
  obtain ⟨⟨e1, e2, e3⟩, e4⟩ := endRunning_spec hs hu hy hr htraps
  have hend (e : t = (s.endAny u false).forward c w.part i.addr w.acct) :
      t.mem = s.mem ∧ Grows s t ∧ (unitEnded t u ∧ RisingKeys t.hub.units) := by
    rw [e]
    exact ⟨e1, e2.trans (.addDue ..), e4, e3 hr⟩
  cases hd : s.handlerDecl w.part with
  | none =>
    obtain ⟨k1, k2, k3⟩ := hend (by show s.handleTrap c u w y.handler.isSome i = _; unfold State.handleTrap; rw [hd])
    refine ⟨k1, k2, fun h => ?_, fun _ => k3⟩
    have := h.1
    rw [← hw, hd] at this
    cases this
  | some d =>
    cases hh : y.handler with
    | some _ =>
      obtain ⟨k1, k2, k3⟩ := hend (by show s.handleTrap c u w y.handler.isSome i = _; unfold State.handleTrap; rw [hd, hh]; rfl)
      refine ⟨k1, k2, fun h => ?_, fun _ => k3⟩
      have := h.2
      rw [hh] at this
      cases this
    | none =>
      have hhandled : Handled s y := ⟨by rw [← hw, hd]; rfl, hh⟩
      have hquiet : Quiet u c s t ∧ Lives u s t := by
        cases hb : (s.coreAt c).handling with
        | none =>
          have hgo : t = s.createHandler c w d := by
            show s.handleTrap c u w y.handler.isSome i = _; unfold State.handleTrap; rw [hd, hh]; dsimp only [Option.isSome]; rw [if_neg Bool.false_ne_true, hb]
          rw [hgo]
          exact ⟨quiet_createHandler hs hnext c w d, lives_createHandler hnext c w d⟩
        | some _ =>
          have hgo : t = s.modCore c fun x => { x with trapq := x.trapq ++ [w] } := by
            show s.handleTrap c u w y.handler.isSome i = _
            unfold State.handleTrap; rw [hd, hh]; dsimp only [Option.isSome]; rw [if_neg Bool.false_ne_true]
            split
            · next e => rw [hb] at e; cases e
            · rw [if_pos hroom]; rfl
          rw [hgo]
          exact ⟨quiet_modCore hs c fun _ => ⟨rfl, rfl, rfl, rfl⟩, lives_of_eq (unitAt_setCore ..)⟩
      exact ⟨hquiet.1.1.1, hquiet.1.2.2, fun _ => hquiet, fun h => absurd hhandled h⟩

/-- The trap record of an engine of a unit that runs (R253, R356): the handler is called, or waits, or the unit ends. -/
theorem engineTrap_spec {s : State} {u c : Nat} {y : Uni} {p : Nat} (hs : Sits s u c) (hu : s.unitAt u = some y) (hcan : CanRecord s u y p) (part : Nat)
    (i : TrapInfo) :
    let t := s.engineTrap u part i
    Grows s t ∧ weakRecord s t u y p i ∧ (Handled s y → sameRegs s t ∧ SameCircuits u c s t ∧ Lives u s t) ∧
      (¬ Handled s y → unitEnded t u ∧ RisingKeys t.hub.units) := by
  intro t
  obtain ⟨hu0, hnext, hr, -, hy, -, hpages, hroom, htraps, hwf⟩ := hcan
  have hcore : y.core = c := by
    have := hs.unit.2
    rw [hu] at this
    exact Option.some.inj this
  rw [hcore] at hroom htraps hpages
  have hrec := State.readNat_weakNat hwf p 128 ({ i with weak := true }.record y.core y.part (b2n y.handler.isSome) 0#64 y.hold.acct
    (if (s.coreAt y.core).unit = some u then (s.coreAt y.core).pts else y.pts))
  have hw := written_weakNat s p 128 ({ i with weak := true }.record y.core y.part (b2n y.handler.isSome) 0#64 y.hold.acct
    (if (s.coreAt y.core).unit = some u then (s.coreAt y.core).pts else y.pts))
  have hgo : ∃ w : TrapWait, w.part = y.part ∧ t = (s.weakNat p 128 ({ i with weak := true }.record y.core y.part (b2n y.handler.isSome) 0#64 y.hold.acct
      (if (s.coreAt y.core).unit = some u then (s.coreAt y.core).pts else y.pts))).handleTrap c u w y.handler.isSome i := by
    refine ⟨{ unit := none, owner := u, acct := y.hold.acct, recAt := p, ctxAt := 0, cause := i.cause, part := y.part }, rfl, ?_⟩
    show s.engineTrap u part i = _
    unfold State.engineTrap
    rw [hu]
    dsimp only
    rw [if_neg hy]
    unfold State.weakTrap
    rw [hu]
    dsimp only
    rw [hcore, hpages]
    dsimp only
    rw [slotWrite_record]
    simp only [decide_eq_true_eq]
    rfl
  obtain ⟨w, hwp, hgo⟩ := hgo
  obtain ⟨v, hv⟩ : ∃ v, s.weakNat p 128 ({ i with weak := true }.record y.core y.part (b2n y.handler.isSome) 0#64 y.hold.acct
    (if (s.coreAt y.core).unit = some u then (s.coreAt y.core).pts else y.pts)) = v := ⟨_, rfl⟩
  rw [hv] at hrec hw hgo
  obtain ⟨m, ts, hvs⟩ := hw
  have hsit : Sits v u c := by rw [hvs]; exact hs
  obtain ⟨k1, k2, k3, k4⟩ := handleTrap_spec hsit (by rw [hvs]; exact hu) hy (by rw [hvs]; exact hr) (by rw [hvs]; exact hnext) (by rw [hvs]; exact htraps)
    (by rw [hvs]; exact hroom) hwp i
  rw [← hgo] at k1 k2 k3 k4
  have hhandled : Handled v y ↔ Handled s y := by rw [hvs]; exact Iff.rfl
  have hgrows : Grows s v := .of_eq (by rw [hvs])
  refine ⟨hgrows.trans k2, ?_, fun h => ?_, fun h => k4 (mt hhandled.1 h)⟩
  · unfold weakRecord State.readNat
    rw [k1, show (2 : Nat) ^ 1024 = 256 ^ 128 by rw [show (256 : Nat) = 2 ^ 8 from rfl, ← Nat.pow_mul]]
    exact hrec
  · obtain ⟨⟨⟨-, q1⟩, q2, -⟩, q3⟩ := k3 (hhandled.2 h)
    rw [hvs] at q1 q2 q3
    exact ⟨q1, q2, q3⟩

end Sys2Proof.Machine
end

section
set_option Elab.async false
/-! A circuit over (R339): the handle ends and its token goes home; one that failed leaves a trap record. -/
namespace Sys2Proof.Machine

/-- The handle of a circuit that is over. -/
def GlHandle.ended (x : GlHandle) (final : Option Nat) (taint : Bool) : GlHandle :=
  { x with st := .ended, ending := false, final := final.isSome, resumeW := final.getD x.resumeW, tainted := taint, tok := none, ring := none, dest := none }

section
variable {s : State} {u h c : Nat} {y : Uni} (hs : Sits s u c) (hy : s.unitAt u = some y) (hend : y.st ≠ .ended) (hh : h < 16)
include hs hy hend hh

omit hy hend hh in
theorem overCircuit_eq {bad : Bool} (hbad : (decide ((s.handleAt u h).cause = .failed) || decide ((s.handleAt u h).cause = .narrowed)) = bad)
    (final : Option Nat) :
    s.overCircuit u h final =
      (((s.setHandle u h ((s.handleAt u h).ended final bad)).giveTok? c (s.handleAt u h).tok bad (s.unitPts u)).glRecord u h
        { (s.handleAt u h).ended final bad with tok := (s.handleAt u h).tok }).reapAll := by
  subst hbad
  unfold State.overCircuit
  rw [hs.coreOfUnit]
  rfl

/-- A circuit that closed, ran out or was pre-empted ends untainted. -/
theorem overCircuit_calm (hcause : (s.handleAt u h).cause = .closed ∨ (s.handleAt u h).cause = .expired ∨ (s.handleAt u h).cause = .preempted)
    (final : Option Nat) :
    let x := s.handleAt u h
    let t := s.overCircuit u h final
    calm s t ∧ sentHome t c x false ∧ t.handleAt u h = x.ended final false := by
  intro x t
  have hbad : (decide (x.cause = .failed) || decide (x.cause = .narrowed)) = false := by
    rcases hcause with e | e | e <;> (rw [show x.cause = _ from e]; rfl)
  obtain ⟨hcalm, hsit, hset, -, honly⟩ := setHandle_spec hs hh (x.ended final false)
  obtain ⟨s1, hs1⟩ : ∃ v, s.setHandle u h (x.ended final false) = v := ⟨_, rfl⟩
  rw [hs1] at hcalm hsit hset honly
  obtain ⟨⟨xs, hxs⟩, hhome⟩ := giveTok?_spec s1 c x false (s.unitPts u)
  rw [hxs] at hhome
  have hat : (s1.addDue xs).unitAt u = some y := (honly.unitAt u).trans hy
  obtain ⟨hhub, hgrow, hreap⟩ := reapAll_spec (s1.addDue xs) hat hend
  have hrec (v : State) (z : GlHandle) (hz : z.cause = x.cause) : v.glRecord u h z = v := by
    unfold State.glRecord
    rcases hcause with e | e | e <;> rw [hz, show x.cause = _ from e]
  have ht : t = (s1.addDue xs).reapAll := by
    rw [show t = _ from overCircuit_eq hs hbad final, hs1, hxs]
    exact congrArg State.reapAll (hrec _ _ rfl)
  rw [ht]
  have hsit3 : Sits (s1.addDue xs).reapAll u c := (hsit.addDue xs).congr (by rw [hreap, hat]) (by rw [hhub.coreAt])
  refine ⟨calm.trans (t := s1) hcalm hhub.calm, hhome.grows hgrow, ?_⟩
  rw [hsit3.handleAt, hhub.coreAt]
  exact hsit.handleAt h ▸ hset

/-- A circuit that failed ends tainted: it is reported, and a trap record stands in its unit's slot (R253, R428). -/
theorem overCircuit_failed (hcause : (s.handleAt u h).cause = .failed) {p : Nat} (hcan : CanRecord s u y p) (n : Nat) :
    let x := s.handleAt u h
    let t := s.overCircuit u h (some n)
    sentHome t c x true ∧ (Handled s y → sameRegs s t ∧ (t.handleAt u h).st = .ended ∧ (t.handleAt u h).tainted = true) ∧
      (¬ Handled s y → unitEnded t u) ∧ weakRecord s t u y p { cause := .glBroken, engine := 4, glh := h, resume := n, sent := x.sent } ∧
      ∃ e, Action.eventRecordArrive e ∈ t.due ∧ e.code = .glBroken := by
  intro x t
  have hcore : y.core = c := by
    have := hs.unit.2
    rw [hy] at this
    exact Option.some.inj this
  have hset := hs.setHandle h (x.ended (some n) true)
  obtain ⟨hcalm, hsit, hat, -, honly⟩ := setHandle_spec hs hh (x.ended (some n) true)
  obtain ⟨-, hc1⟩ := hs.modCore (f := fun k => { k with gl := vput k.gl h (x.ended (some n) true) }) fun _ => rfl
  obtain ⟨s1, hs1⟩ : ∃ v, s.setHandle u h (x.ended (some n) true) = v := ⟨_, rfl⟩
  rw [← hset, hs1] at hc1
  rw [hs1] at hcalm hsit hat honly
  obtain ⟨⟨xs, hxs⟩, hhome⟩ := giveTok?_spec s1 c x true (s.unitPts u)
  rw [hxs] at hhome
  let e : EventRec :=
    { code := .glBroken, src := 0#4, srcid := BitVec.ofNat 12 c, part := some (BitVec.ofNat 3 (s.unitPart u)), time := BitVec.ofNat 64 s1.time,
      addr := 0#64, acct := (x.tok.map Tok.acct).getD 0#32, tid := 0#32, arg0 := 0#64, arg1 := 0#64 }
  let s2 : State := (s1.addDue xs).addDue [.eventRecordArrive e]
  let i : TrapInfo := { cause := .glBroken, addr := 0#64, engine := 4, weak := true, glh := h, resume := n, sent := x.sent }
  have hpart (v : State) (hv : v.unitAt u = s.unitAt u) : v.unitPart u = s.unitPart u := by unfold State.unitPart; rw [hv, hy]; rfl
  have hsit2 : Sits s2 u c := hsit
  have hy2 : s2.unitAt u = some y := (honly.unitAt u).trans hy
  have ht : t = (s2.engineTrap u (s.unitPart u) i).reapAll := by
    have hbad : (decide (x.cause = .failed) || decide (x.cause = .narrowed)) = true := by
      rw [show x.cause = _ from hcause]
      rfl
    have hrec (z : GlHandle) (hz : z.cause = .failed) (htok : z.tok = x.tok) (hres : z.resumeW = n) (hsent : z.sent = x.sent) :
        (s1.addDue xs).glRecord u h z = s2.engineTrap u (s.unitPart u) i := by
      unfold State.glRecord
      dsimp only
      rw [hz, hpart (s1.addDue xs) (honly.unitAt u), Sits.coreOfUnit (hsit.addDue xs), htok, hres, hsent]
      exact congrArg (fun w => State.engineTrap w u (s.unitPart u) i) rfl
    rw [show t = _ from overCircuit_eq hs hbad (some n), hs1, hxs]
    exact congrArg State.reapAll (hrec _ hcause rfl rfl rfl)
  have hcan2 : CanRecord s2 u y p := by
    obtain ⟨k1, k2, k3, k4, k5, k6, k7, k8, k9, k10⟩ := hcan
    rw [hcore] at k7 k8 k9
    have htq : (s2.coreAt c).trapq = (s.coreAt c).trapq := by
      refine (show _ = (s1.coreAt c).trapq from rfl).trans ?_
      rw [hc1]
    unfold CanRecord
    rw [hcore, htq]
    refine ⟨k1, ?_, ?_, hy2, k5, .inr (by rw [hsit2.2]; rfl), ?_, k8, k9, ?_⟩
    · show u < s1.hub.nextUnit
      rw [honly.hub]
      exact k2
    · show RisingKeys s1.hub.units
      rw [honly.hub]
      exact k3
    · rw [slotPages_congr (s := s) (t := s2) hcalm.1 honly.hub]
      exact k7
    · show Memory.wf s1.mem = true
      rw [hcalm.1]
      exact k10
  obtain ⟨hgrow, hrec, hsome, hnone⟩ := engineTrap_spec hsit2 hy2 hcan2 (s.unitPart u) i
  obtain ⟨v, hv⟩ : ∃ v, s2.engineTrap u (s.unitPart u) i = v := ⟨_, rfl⟩
  rw [hv] at hgrow hrec hsome hnone ht
  have hhandled : Handled s2 y ↔ Handled s y := by
    unfold Handled State.handlerDecl State.imageOf State.partAt
    rw [show s2.hub = s.hub from honly.hub]
  have hend2 : Grows v t ∧ t.mem = v.mem ∧ (Handled s y → sameRegs s t ∧ t.handleAt u h = x.ended (some n) true) ∧ (¬ Handled s y → unitEnded t u) := by
    by_cases hb : Handled s y
    · obtain ⟨q1, q2, q3⟩ := hsome (hhandled.2 hb)
      obtain ⟨z, hz, hzne⟩ := q3 y hy2 hend
      obtain ⟨hhub, g, hreap⟩ := reapAll_spec v hz hzne
      have hsit3 : Sits v.reapAll u c := q2.1.congr (by rw [hreap, hz]) (by rw [hhub.coreAt])
      rw [ht]
      refine ⟨g, hhub.calm.1, fun _ => ⟨?_, ?_⟩, fun hn => absurd hb hn⟩
      · obtain ⟨a1, a2, a3⟩ := hcalm.2
        obtain ⟨b1, b2, b3⟩ := q1
        obtain ⟨c1, c2, c3⟩ := hhub.calm.2
        exact ⟨c1.trans (b1.trans a1), c2.trans (b2.trans a2), c3.trans (b3.trans a3)⟩
      · rw [hsit3.handleAt, hhub.coreAt, q2.2]
        exact (hsit2.handleAt h).symm.trans hat
    · obtain ⟨q1, q2⟩ := hnone (mt hhandled.1 hb)
      obtain ⟨k1, k2, k3, -⟩ := unitEnded_reapAll q2 q1
      rw [ht]
      exact ⟨k3, k2, fun hn => absurd hn hb, fun _ => k1⟩
  obtain ⟨g, hmem, hyes, hno⟩ := hend2
  refine ⟨(hhome.grows (.addDue _ _)).grows (hgrow.trans g), fun hb => ?_, hno, ?_, e, (hgrow.trans g).mem (List.mem_append_right _ (List.mem_singleton_self _)), rfl⟩
  · obtain ⟨k1, k2⟩ := hyes hb
    exact ⟨k1, by rw [k2]; rfl, by rw [k2]; rfl⟩
  · unfold weakRecord State.readNat at hrec ⊢
    rw [hmem, hrec, hcore]
    have hpts : (s2.coreAt c).pts = (s.coreAt c).pts := by
      refine (show _ = (s1.coreAt c).pts from rfl).trans ?_
      rw [hc1]
    rw [hpts, if_pos hsit2.unit.1, if_pos hs.unit.1]

end

end Sys2Proof.Machine
end

section
set_option Elab.async false
/-! Program circuits (R318, R320, R333 to R339). -/
namespace Sys2Proof.Machine

/-! ### Opening (R333) -/

/-- An open within the package, of memory and of no static set, goes by its probe. -/
theorem openHere_eq {s : State} {u h c : Nat} {y : Uni} {b : Block} (hb : (s.handleAt u h).block = b) (hstatic : glStatic b = false) (hsp : glDstSp b = 0)
    (hbar : glBarEn b = false) (hown : s.ownerOfQuad (quadOf (glCore b)) = some y.part) :
    s.openHere u h (s.handleAt u h) c y.part =
      match s.probe (.core (glCore b)) y.part (glWidth b) (quadOf c) 0 64 with
      | none => s.refuseOpen u h .glNopath
      | some r => (s.takeSlots y.part r.1).acceptOpen u h (glWidth b) r.1 none none := by
  have hland (who : BitVec 16 × Nat) : s.findLanding y.part who b = .at none none s := by
    unfold State.findLanding
    simp only [hown, hsp, hbar, ne_eq, not_true_eq_false, if_false, Bool.false_and, Bool.not_false, Bool.true_or, Bool.not_true, Bool.false_eq_true]
  unfold State.openHere
  rw [hb]
  simp only [hstatic, Bool.false_eq_true, if_false]
  cases s.probe (.core (glCore b)) y.part (glWidth b) (quadOf c) 0 64 with
  | none => rfl
  | some r =>
    dsimp only
    rw [hland]

/-- GLOPEN_COMPLETE within the package runs the open of its handle. -/
theorem execGlopenComplete_near {s : State} {u h c : Nat} {y : Uni} (ha : s.act = some (.glopenComplete u h)) (hy : s.unitAt u = some y)
    (hst : (s.handleAt u h).st = .opening) (hc : (s.handleAt u h).score = c) (hnear : s.glFar (s.handleAt u h).block = false) :
    execGlopenComplete s = .next (s.openHere u h (s.handleAt u h) c y.part) := by
  have hpart : s.unitPart u = y.part := by unfold State.unitPart; rw [hy]; rfl
  unfold execGlopenComplete
  rw [ha]
  dsimp only
  rw [if_neg (not_not_intro hst), hnear, hpart, hc] <;> rfl

section
variable {s : State} {u h c : Nat} {y : Uni} (hs : Sits s u c) (hy : s.unitAt u = some y) (hend : y.st ≠ .ended) (hh : h < 16)
  (hst : (s.handleAt u h).st = .opening) (hc : (s.handleAt u h).score = c) (hnear : s.glFar (s.handleAt u h).block = false)
  (hstatic : glStatic (s.handleAt u h).block = false) (hsp : glDstSp (s.handleAt u h).block = 0) (hbar : glBarEn (s.handleAt u h).block = false)
  (hown : s.ownerOfQuad (quadOf (glCore (s.handleAt u h).block)) = some y.part)
include hs hy hend hh hst hc hnear hstatic hsp hbar hown

omit hend in
/-- An open that finds a path takes its slots and is OPEN. -/
theorem glopen_accepted {r : List (Nat × Nat) × Hop × Nat} (hprobe : s.probe (.core (glCore (s.handleAt u h).block)) y.part
    (glWidth (s.handleAt u h).block) (quadOf c) 0 64 = some r) (hclose : (s.handleAt u h).closeWith = .none) :
    let x := s.handleAt u h
    ∃ t, Does (.glopenComplete u h) s t ∧ calm s t ∧
      (∀ id, x.entry = some id → ∀ q < 8, (vget {} (t.coreAt c).q q).entries = fillId id (glEntry h none) (vget {} (s.coreAt c).q q).entries) ∧
      Action.guylineLeaseExpire u h ∈ t.due ∧
      t.handleAt u h = { x with st := .opn, width := glWidth x.block, lease := s.time + glLease x.block, path := r.1, dest := none, ring := none, entry := none } ∧
      ∀ k ∈ r.1, NatMap.find (slotKey k) t.fabric.wheels = some y.part := by
  let s1 : State := { s with act := some (.glopenComplete u h) }
  have hrun : Does (.glopenComplete u h) s _ := execGlopenComplete_near (s := s1) rfl hy hst hc hnear
  rw [openHere_eq (s := s1) rfl hstatic hsp hbar hown, probe_act,
    show s.probe (.core (glCore (s1.handleAt u h).block)) y.part (glWidth (s1.handleAt u h).block) (quadOf c) 0 64 = some r from hprobe] at hrun
  obtain ⟨F, hF⟩ : ∃ F, s1.takeSlots y.part r.1 = { s1 with fabric := F } := ⟨_, rfl⟩
  obtain ⟨k1, k2, k3, k4, k5⟩ := acceptOpen_spec (s := { s1 with fabric := F }) ((hs.withAct _).withFabric F) hh (glWidth (s.handleAt u h).block) r.1 hclose
  refine ⟨_, hrun, ?_⟩
  dsimp only
  rw [hF]
  refine ⟨k1, k5, k3, k4, fun k hk => ?_⟩
  refine (congrArg (fun f : Fabric => NatMap.find (slotKey k) f.wheels) k2).trans ?_
  have := find_takeSlots s1 y.part r.1 hk
  rw [hF] at this
  exact this

/-- An open that finds no path is refused. -/
theorem glopen_refused (hprobe : s.probe (.core (glCore (s.handleAt u h).block)) y.part (glWidth (s.handleAt u h).block) (quadOf c) 0 64 = none) :
    let x := s.handleAt u h
    ∃ t, Does (.glopenComplete u h) s t ∧ calm s t ∧
      (∀ id, x.entry = some id → ∀ q < 8, (vget {} (t.coreAt c).q q).entries = fillId id (glEntry h (some .glNopath)) (vget {} (s.coreAt c).q q).entries) ∧
      sentHome t c x false ∧ t.handleAt u h = { x with st := .ended, cause := .refused, tok := none, path := [], entry := none } := by
  let s1 : State := { s with act := some (.glopenComplete u h) }
  have hrun : Does (.glopenComplete u h) s _ := execGlopenComplete_near (s := s1) rfl hy hst hc hnear
  rw [openHere_eq (s := s1) rfl hstatic hsp hbar hown, probe_act,
    show s.probe (.core (glCore (s1.handleAt u h).block)) y.part (glWidth (s1.handleAt u h).block) (quadOf c) 0 64 = none from hprobe] at hrun
  obtain ⟨k1, k2, k3, k4⟩ := refuseOpen_spec (s := s1) (hs.withAct _) hy hend hh .glNopath
  exact ⟨_, hrun, k1, k4, k2, k3⟩

end

/-! ### A circuit under way -/

theorem padRead_withAct (s : State) (a : Option Action) (u off n : Nat) : ({ s with act := a } : State).padRead u off n = s.padRead u off n := by
  unfold State.padRead
  simp only [slotPages_congr (s := s) (t := { s with act := a }) rfl rfl, slotRead_congr (s := s) (t := { s with act := a }) rfl]
  rfl

section
variable {s : State} {u h c : Nat} {y : Uni} (hs : Sits s u c) (hy : s.unitAt u = some y) (hend : y.st ≠ .ended) (hh : h < 16)
  (hst : (s.handleAt u h).st = .opn ∨ (s.handleAt u h).st = .closing) (hnear : s.glFar (s.handleAt u h).block = false)

include hst in
theorem not_over_of_open : (s.handleAt u h).over = false := by
  unfold GlHandle.over
  rcases hst with e | e <;> rw [e]

omit hs hy hend hh in
include hst in
theorem execGuylineLeaseExpire_going (ha : s.act = some (.guylineLeaseExpire u h)) (hgo : (s.handleAt u h).ending = false) :
    execGuylineLeaseExpire s =
      .next (if (s.handleAt u h).lease ≤ s.time then s.endCircuit u h .expired else s.addDue [.guylineLeaseExpire u h]) := by
  unfold execGuylineLeaseExpire
  rw [ha]
  rcases hst with e | e <;> simp only [e, hgo, Bool.false_eq_true, if_false]

include hst in
/-- What a circuit that is open or closes does next. -/
theorem sendSlot_open :
    s.sendSlot u h =
      if (s.handleAt u h).ending then (if (s.handleAt u h).told then s else s.stopSource u h (s.handleAt u h))
      else match (s.handleAt u h).pend with
        | [] => s
        | g :: rest =>
          let n := min 8 (g.count - g.sent)
          let data := s.padRead u (g.off + 4 * g.sent) (4 * n)
          let pend := if g.sent + n = g.count then rest else { g with sent := g.sent + n } :: rest
          let s1 := s.setHandle u h { s.handleAt u h with sent := (s.handleAt u h).sent + n, pend := pend }
          let s2 :=
            if s.glFar (s.handleAt u h).block then
              s1.post (s1.glPacket u (glPkg (s.handleAt u h).block) (glCore (s.handleAt u h).block) 7 (exitPort (s.handleAt u h).path)
                (.glFlit (glKey u h) (s.handleAt u h).sent data))
            else s1.addDue [.guylineFlitLand u h (s.handleAt u h).sent data]
          if pend.isEmpty then s2 else s2.addDue [.guylineSlotSend u h] := by
  unfold State.sendSlot
  rcases hst with e | e <;> simp only [e] <;> rfl

include hs hh hst hnear

/-- A flit of at most eight words goes into a slot, with the words read then (R320, R334). -/
theorem slotSend_flit {g : GlSend} {rest : List GlSend} (hgo : (s.handleAt u h).ending = false) (hpend : (s.handleAt u h).pend = g :: rest) :
    let x := s.handleAt u h
    let n := min 8 (g.count - g.sent)
    ∃ t, Does (.guylineSlotSend u h) s t ∧ calm s t ∧
      t.handleAt u h = { x with sent := x.sent + n, pend := if g.sent + n = g.count then rest else { g with sent := g.sent + n } :: rest } ∧
      Action.guylineFlitLand u h x.sent (s.padRead u (g.off + 4 * g.sent) (4 * n)) ∈ t.due := by
  intro x n
  let s1 : State := { s with act := some (.guylineSlotSend u h) }
  let v : GlHandle := { x with sent := x.sent + n, pend := if g.sent + n = g.count then rest else { g with sent := g.sent + n } :: rest }
  obtain ⟨hcalm, hsit, hset, -, honly⟩ := setHandle_spec (s := s1) (hs.withAct _) hh v
  let s2 : State := (s1.setHandle u h v).addDue [.guylineFlitLand u h x.sent (s1.padRead u (g.off + 4 * g.sent) (4 * n))]
  have hrun : Does (.guylineSlotSend u h) s (if v.pend.isEmpty then s2 else s2.addDue [.guylineSlotSend u h]) := by
    refine congrArg Host.Outcome.next ((sendSlot_open (s := s1) hst).trans ?_)
    rw [if_neg (by rw [show (s1.handleAt u h).ending = false from hgo]; exact Bool.false_ne_true), show (s1.handleAt u h).pend = g :: rest from hpend]
    dsimp only
    rw [show s1.glFar (s1.handleAt u h).block = false from hnear]
    rfl
  refine ⟨_, hrun, ?_⟩
  have hread : s1.padRead u (g.off + 4 * g.sent) (4 * n) = s.padRead u (g.off + 4 * g.sent) (4 * n) := padRead_withAct ..
  have hdue : Action.guylineFlitLand u h x.sent (s.padRead u (g.off + 4 * g.sent) (4 * n)) ∈ s2.due := by
    rw [← hread]
    exact List.mem_append_right _ (List.mem_singleton_self _)
  split
  · exact ⟨hcalm, hset, hdue⟩
  · exact ⟨hcalm, hset, List.mem_append_left _ hdue⟩

/-- A source that ends gives its slots up and tells its final count (R324, R339). -/
theorem slotSend_end (hgo : (s.handleAt u h).ending = true) (htold : (s.handleAt u h).told = false) (hstatic : glStatic (s.handleAt u h).block = false)
    (hring : (s.handleAt u h).ring = none) (hw : RisingKeys s.fabric.wheels) (hks : ∀ k ∈ (s.handleAt u h).path, k.2 < 64) :
    let x := s.handleAt u h
    ∃ t, Does (.guylineSlotSend u h) s t ∧ calm s t ∧ t.handleAt u h = { x with path := [], told := true } ∧
      (∀ k ∈ x.path, NatMap.find (slotKey k) t.fabric.wheels = s.staticOwner k) ∧ Action.guylineFinalCount u h x.landed ∈ t.due ∧
      Action.guylineFinalTimeout u h ∈ t.due := by
  intro x
  let s1 : State := { s with act := some (.guylineSlotSend u h) }
  obtain ⟨F, hF⟩ : ∃ F, s1.dropSlots x.path = { s1 with fabric := F } := ⟨_, rfl⟩
  obtain ⟨hcalm, hsit, hset, -, honly⟩ := setHandle_spec (s := { s1 with fabric := F }) ((hs.withAct _).withFabric F) hh { x with path := [], told := true }
  obtain ⟨s2, hs2⟩ : ∃ v, ({ s1 with fabric := F } : State).setHandle u h { x with path := [], told := true } = v := ⟨_, rfl⟩
  rw [hs2] at hcalm hsit hset honly
  have hnear2 : s1.glFar x.block = false := hnear
  have hrun : Does (.guylineSlotSend u h) s ((s2.addDue [.guylineFinalTimeout u h]).addDue [.guylineFinalCount u h x.landed]) := by
    refine congrArg Host.Outcome.next ((sendSlot_open (s := s1) hst).trans ?_)
    rw [if_pos (show (s1.handleAt u h).ending = true from hgo), if_neg (by rw [show (s1.handleAt u h).told = false from htold]; exact Bool.false_ne_true)]
    show s1.stopSource u h x = _
    have hdrop : s1.dropPath x = { s1 with fabric := F } := by
      rw [← hF]
      exact if_neg (by rw [show glStatic x.block = false from hstatic]; exact Bool.false_ne_true)
    unfold State.stopSource State.fillRest
    rw [hdrop]
    dsimp only
    rw [hs2, hnear2, show x.ring = none from hring]
    rfl
  refine ⟨_, hrun, hcalm, hset, fun k hk => ?_, List.mem_append_right _ (List.mem_singleton_self _),
    List.mem_append_left _ (List.mem_append_right _ (List.mem_singleton_self _))⟩
  show NatMap.find (slotKey k) s2.fabric.wheels = _
  rw [honly.fabric]
  have := find_dropSlots s1 hw x.path hks hk
  rw [hF] at this
  exact this

omit hnear in
/-- An acknowledgement advances RESUME, and a closing circuit that has none left ends CLOSED (R335, R338). -/
theorem ackArrive_spec (n : Nat) :
    let x := s.handleAt u h
    let m := max x.resumeW n
    ∃ t, Does (.guylineAckArrive u h n) s t ∧ calm s t ∧
      if x.st = .closing ∧ x.ending = false ∧ x.pend = [] ∧ m = x.sent then
        t.handleAt u h = { x with resumeW := m, cause := .closed, ending := true, endAt := s.time } ∧ Action.guylineSlotSend u h ∈ t.due
      else t.handleAt u h = { x with resumeW := m } := by
  intro x m
  let s1 : State := { s with act := some (.guylineAckArrive u h n) }
  obtain ⟨hcalm, hsit, hset, -, honly⟩ := setHandle_spec (s := s1) (hs.withAct _) hh { x with resumeW := m }
  obtain ⟨s2, hs2⟩ : ∃ v, s1.setHandle u h { x with resumeW := m } = v := ⟨_, rfl⟩
  rw [hs2] at hcalm hsit hset honly
  have hrun : Does (.guylineAckArrive u h n) s (s2.checkClosed u h) := by
    rw [← hs2]
    exact if_neg (Bool.eq_false_iff.1 (not_over_of_open hst))
  refine ⟨_, hrun, ?_⟩
  have hchk : s2.checkClosed u h = if x.st = .closing ∧ x.ending = false ∧ x.pend = [] ∧ m = x.sent then s2.endCircuit u h .closed else s2 := by
    unfold State.checkClosed
    simp only [hset, List.isEmpty_iff, Bool.not_eq_true]
  rw [hchk]
  split
  · next hcl =>
    obtain ⟨kcalm, kset, kdue, -⟩ := endCircuit_spec hsit hh .closed
    obtain ⟨h1, h2, h3, -⟩ := hcl
    refine ⟨hcalm.trans kcalm, ?_, kdue⟩
    rw [kset, hset, honly.time, finish_open (x := { x with resumeW := m }) hst h2 .closed s1.time]
    rw [← h1, ← h3]
  · exact ⟨hcalm, hset⟩

omit hnear in
/-- A lease that has run out ends the circuit (R336). -/
theorem leaseExpire_spec (hgo : (s.handleAt u h).ending = false) :
    let x := s.handleAt u h
    ∃ t, Does (.guylineLeaseExpire u h) s t ∧ calm s t ∧
      if x.lease ≤ s.time then
        t.handleAt u h = { x with st := .closing, cause := .expired, ending := true, pend := [], endAt := s.time } ∧ Action.guylineSlotSend u h ∈ t.due
      else t.handleAt u h = x ∧ Action.guylineLeaseExpire u h ∈ t.due := by
  intro x
  let s1 : State := { s with act := some (.guylineLeaseExpire u h) }
  have hrun : Does (.guylineLeaseExpire u h) s (if x.lease ≤ s1.time then s1.endCircuit u h .expired else s1.addDue [.guylineLeaseExpire u h]) := by
    exact execGuylineLeaseExpire_going (s := s1) hst rfl hgo
  refine ⟨_, hrun, ?_⟩
  obtain ⟨kcalm, kset, kdue, -⟩ := endCircuit_spec (s := s1) (hs.withAct _) hh .expired
  show calm s (if x.lease ≤ s.time then _ else _) ∧ _
  split
  · exact ⟨kcalm, kset.trans (finish_open hst hgo .expired s.time), kdue⟩
  · exact ⟨calm_refl s, rfl, List.mem_append_right _ (List.mem_singleton_self _)⟩

omit hnear hs hh in
include hst in
theorem finalCount_run (hgo : (s.handleAt u h).ending = true) (htold : (s.handleAt u h).told = true) (n : Nat) :
    Does (.guylineFinalCount u h n) s (({ s with act := some (.guylineFinalCount u h n) } : State).overCircuit u h (some n)) := by
  refine congrArg Host.Outcome.next (if_pos ?_)
  show ((s.handleAt u h).ending && (s.handleAt u h).told && !(s.handleAt u h).over) = true
  rw [hgo, htold, not_over_of_open hst]
  rfl

omit hnear in
include hy hend in
/-- The final count ends the circuit (R339). -/
theorem finalCount_does (hgo : (s.handleAt u h).ending = true) (htold : (s.handleAt u h).told = true)
    (hcause : (s.handleAt u h).cause = .closed ∨ (s.handleAt u h).cause = .expired ∨ (s.handleAt u h).cause = .preempted) (n : Nat) :
    let x := s.handleAt u h
    ∃ t, Does (.guylineFinalCount u h n) s t ∧ calm s t ∧ sentHome t c x false ∧
      t.handleAt u h = { x with st := .ended, ending := false, final := true, resumeW := n, tainted := false, tok := none, ring := none, dest := none } :=
  ⟨_, finalCount_run hst hgo htold n,
    overCircuit_calm (s := { s with act := some (.guylineFinalCount u h n) }) (hs.withAct _) hy hend hh hcause (some n)⟩

omit hnear in
include hy hend in
/-- Without a final count a circuit ends after 2^20 steps, RESUME not final (R339). -/
theorem finalTimeout_does (hgo : (s.handleAt u h).ending = true) (hcause : (s.handleAt u h).cause = .closed) :
    let x := s.handleAt u h
    ∃ t, Does (.guylineFinalTimeout u h) s t ∧ calm s t ∧
      if x.endAt + 2 ^ 20 ≤ s.time then sentHome t c x false ∧
        t.handleAt u h = { x with st := .ended, ending := false, final := false, tainted := false, tok := none, ring := none, dest := none }
      else t.handleAt u h = x ∧ Action.guylineFinalTimeout u h ∈ t.due := by
  intro x
  let s1 : State := { s with act := some (.guylineFinalTimeout u h) }
  have hrun : Does (.guylineFinalTimeout u h) s
      (if x.endAt + 2 ^ 20 ≤ s1.time then s1.overCircuit u h none else s1.addDue [.guylineFinalTimeout u h]) := by
    refine congrArg Host.Outcome.next (if_neg ?_)
    show ¬ (!(s.handleAt u h).ending || (s.handleAt u h).over) = true
    rw [hgo, not_over_of_open hst]
    exact Bool.false_ne_true
  refine ⟨_, hrun, ?_⟩
  show calm s (if x.endAt + 2 ^ 20 ≤ s.time then _ else _) ∧ _
  split
  · exact overCircuit_calm (s := s1) (hs.withAct _) hy hend hh (.inl hcause) none
  · exact ⟨calm_refl s, rfl, List.mem_append_right _ (List.mem_singleton_self _)⟩

end

end Sys2Proof.Machine

open Sys2Proof.Machine in
/-- Settles O47: an open goes by its probe, a circuit under way by its handle, and its end by its cause. -/
theorem Sys2Proof.Machine.circuitActionResults : Obligations.CircuitActionResults := by
  unfold Obligations.CircuitActionResults
  intro s u h c y hu hh hy hend hruns
  have hs : Sits s u c := ⟨hu, hruns⟩
  refine ⟨fun hst hc hnear hstatic hsp hbar hown => ⟨fun r hprobe hclose => ?_, fun hprobe => ?_⟩, fun hst hnear => ?_⟩
  · exact glopen_accepted hs hy hh hst hc hnear hstatic hsp hbar hown hprobe hclose
  · exact glopen_refused hs hy hend hh hst hc hnear hstatic hsp hbar hown hprobe
  have hover := not_over_of_open hst
  refine ⟨fun g rest hgo hpend => slotSend_flit hs hh hst hnear hgo hpend,
    fun hgo htold hstatic hring hw hks => slotSend_end hs hh hst hnear hgo htold hstatic hring hw hks,
    fun pos data pas htold hwhy hpos hsp hbar hnd hwf hspan => ?_, fun pos data k v htold hwhy hpos hsp hbar hgo hspan => ?_,
    fun n => ackArrive_spec hs hh hst n, fun hgo => leaseExpire_spec hs hh hst hgo, fun n hgo htold hcause => ?_, fun n p hgo htold hcause hcan => ?_,
    fun hgo hcause => ?_⟩
  · exact ⟨_, rfl, takeFlit_lands (s := { s with act := some (.guylineFlitLand u h pos data) }) (hs.withAct _) hy hh hst htold hwhy hpos hsp hbar hnd hwf
      hspan⟩
  · exact ⟨_, rfl, takeFlit_faults (s := { s with act := some (.guylineFlitLand u h pos data) }) (hs.withAct _) hy hh hst htold hwhy hpos hsp hbar hgo
      hspan⟩
  · exact finalCount_does hs hy hend hh hst hgo htold hcause n
  · exact ⟨_, finalCount_run hst hgo htold n, overCircuit_failed (s := { s with act := some (.guylineFinalCount u h n) }) (hs.withAct _) hy hend hh hcause hcan n⟩
  · exact finalTimeout_does hs hy hend hh hst hgo hcause

end

section
set_option Elab.async false
/-! A chunk of a transfer within the package (R230, R231, R248, R249): what reading, landing and counting it leave of memory and of the transfers. -/
namespace Sys2Proof.Machine

/-! ### What an access of a weak agent notes -/

/-- Translation caches, regions and timestamps differ, and more is due. -/
def Noted (s t : State) : Prop :=
  ∃ (L U : List Leaf) (O : NatMap Core) (D : List TRec) (W : List (Nat × Nat × Word)) (E : List (Nat × Leaf)) (R : NatMap Region) (T : NatMap LineTs)
    (xs : List Action),
    t = { s with core := { s.core with tlb := L, used := U }, others := O,
                 hub := { s.hub with tdir := D, walkerMem := W, dies := E, regions := R, ts := T }, due := s.due ++ xs }

theorem Noted.refl (s : State) : Noted s s := ⟨_, _, _, _, _, _, _, _, [], by rw [List.append_nil]⟩

theorem Noted.trans {s t u : State} (h : Noted s t) (k : Noted t u) : Noted s u := by
  obtain ⟨_, _, _, _, _, _, _, _, xs, rfl⟩ := h
  obtain ⟨L, U, O, D, W, E, R, T, ys, rfl⟩ := k
  exact ⟨L, U, O, D, W, E, R, T, xs ++ ys, by rw [List.append_assoc]⟩

theorem CachesOnly.noted {s t : State} (h : CachesOnly s t) : Noted s t := by
  obtain ⟨L, U, O, D, W, E, rfl⟩ := h
  exact ⟨L, U, O, D, W, E, _, _, [], by rw [List.append_nil]; rfl⟩

theorem noted_cacheLeaf (s : State) (agent p : Nat) (va : Word) : Noted s (s.cacheLeaf agent p va) := by
  unfold State.cacheLeaf
  split
  · exact .refl s
  · split
    · exact .refl s
    · split
      · exact ((cachesOnly_installLeaf ..).trans (cachesOnly_noteWalk ..)).noted
      · next l _ _ =>
        have hdies : CachesOnly s (s.withHub { s.hub with dies := s.hub.dies ++ [(agent - 257, l)], tdir := addHolder l (8 + (agent - 257)) s.hub.tdir }) :=
          ⟨_, _, _, _, _, _, rfl⟩
        exact (hdies.trans (cachesOnly_trimDir _)).noted

theorem noted_touch (s : State) (b : Bool) (pa k : Nat) (w : Bool) (t : Word) : Noted s (s.touch b pa k w t) := by
  unfold State.touch
  dsimp only
  split
  · exact .refl s
  · split
    · exact ⟨_, _, _, _, _, _, _, _, _, rfl⟩
    · exact ⟨_, _, _, _, _, _, _, _, [], by rw [List.append_nil]; rfl⟩

theorem noted_touches (b : Bool) (k : Nat) (w : Bool) (t : Word) (pas : List Nat) (at' : Nat → Nat) (s : State) :
    Noted s (pas.foldl (fun s l => s.touch b (at' l) k w t) s) := by
  induction pas generalizing s with
  | nil => exact .refl s
  | cons l ls ih => exact (noted_touch ..).trans (ih _)

theorem noted_noteRead (s : State) (agent p : Nat) (va : Word) (pas : List Nat) : Noted s (s.noteRead agent p va pas) :=
  (noted_cacheLeaf s agent p va).trans (noted_touches _ _ _ _ _ (fun k => k * 2 ^ 21) _)

/-- A weak write notes what it touches and puts its bytes. -/
theorem weakCells_noted (s : State) (agent p : Nat) (va : Word) (cs : List Host.Cell) :
    ∃ n, Noted s n ∧ (s.weakCells agent p va cs).1 = n.putCells cs := by
  obtain ⟨x, hx⟩ := weakTsAll_spec (squeeze (cs.map fun c => lineOf c.1)) (s.cacheLeaf agent p va) 0#64
  have hts : Noted (s.cacheLeaf agent p va) ((s.cacheLeaf agent p va).weakTsAll 0#64 (squeeze (cs.map fun c => lineOf c.1))).1 := by
    rw [hx]
    exact ⟨_, _, _, _, _, _, _, x, [], by rw [List.append_nil]⟩
  exact ⟨_, ((noted_cacheLeaf s agent p va).trans hts).trans (noted_touches _ _ _ _ _ (fun l => 64 * l) _), rfl⟩

section
variable {s t : State} (h : Noted s t)
include h

theorem Noted.calm : calm s t := by obtain ⟨_, _, _, _, _, _, _, _, _, rfl⟩ := h; exact ⟨rfl, rfl, rfl, rfl⟩
theorem Noted.grows : Grows s t := by obtain ⟨_, _, _, _, _, _, _, _, xs, rfl⟩ := h; exact ⟨xs, rfl⟩
theorem Noted.xferAt (x : Nat) : t.xferAt x = s.xferAt x := by obtain ⟨_, _, _, _, _, _, _, _, _, rfl⟩ := h; rfl
theorem Noted.num : t.fabric.num = s.fabric.num := by obtain ⟨_, _, _, _, _, _, _, _, _, rfl⟩ := h; rfl
theorem Noted.halves : t.hub.halves = s.hub.halves := by obtain ⟨_, _, _, _, _, _, _, _, _, rfl⟩ := h; rfl
theorem Noted.applied : t.hub.applied = s.hub.applied := by obtain ⟨_, _, _, _, _, _, _, _, _, rfl⟩ := h; rfl
theorem Noted.bad : t.hub.bad = s.hub.bad := by obtain ⟨_, _, _, _, _, _, _, _, _, rfl⟩ := h; rfl
theorem Noted.free : t.free = s.free := by obtain ⟨_, _, _, _, _, _, _, _, _, rfl⟩ := h; rfl
theorem Noted.homeOf (a : Nat) : t.homeOf a = s.homeOf a := by obtain ⟨_, _, _, _, _, _, _, _, _, rfl⟩ := h; rfl

end

/-! ### A chunk counted (R229, R252, R255) -/

theorem hubDue_freeRows (s : State) (u : Nat) : HubDue s (s.freeRows u) := by
  unfold State.freeRows
  split
  · split
    · exact ⟨_, _, rfl⟩
    · exact ⟨_, _, rfl⟩
  · exact ⟨_, _, rfl⟩

theorem hubDue_reap (s : State) (u : Nat) : HubDue s (s.reap u) := by
  unfold State.reap
  split
  · split
    · exact (hubDue_freeRows s u).trans ⟨_, _, rfl⟩
    · exact ⟨_, _, rfl⟩
  · exact ⟨_, _, rfl⟩

theorem hubDue_reapAll (s : State) : HubDue s s.reapAll := by
  have each (us : List Nat) (t : State) : HubDue t (t.each State.reap us) := by
    induction us generalizing t with
    | nil => exact ⟨_, _, rfl⟩
    | cons u us ih => exact (hubDue_reap t u).trans (ih _)
  exact each _ s

theorem grows_reapAll (s : State) : Grows s s.reapAll :=
  Grows.each (fun s u => (departing_reap s u).2.1) _ s

/-- Raising a unit's weak times changes no register, no memory and no transfer. -/
theorem raiseWeak_calm (s : State) (u colour : Nat) (w : Word) :
    let t := s.raiseWeak u colour w
    calm s t ∧ t.hub.xfers = s.hub.xfers ∧ t.due = s.due := by
  intro t
  dsimp only [t]
  unfold State.raiseWeak State.modEng
  split
  · next c _ =>
    refine ⟨calm_modCore s c (f := fun x => { x with weak := vput x.weak colour (wmax (vget 0#64 x.weak colour) w) }) (fun _ => rfl) fun _ => rfl, ?_, ?_⟩
    · exact congrArg Hub.xfers (State.setCore_hub ..)
    · exact State.setCore_due ..
  · split
    · exact ⟨calm_refl s, rfl, rfl⟩
    · dsimp only
      simp only [engPieces_weak, ite_self, List.isEmpty_nil, if_true]
      exact ⟨calm_refl s, rfl, rfl⟩

theorem addsDue_giveTok? (s : State) (c : Nat) (k : Option Tok) (taint : Bool) (w : Word) : ∃ xs, s.giveTok? c k taint w = s.addDue xs := by
  cases k with
  | none => exact ⟨[], by unfold State.addDue; rw [List.append_nil]; rfl⟩
  | some k => exact ⟨_, rfl⟩

/-- A PUT that is finished without fault changes no register and no memory. -/
theorem finishPut_calm (s : State) (x : Nat) (f : Xfer) : calm s (s.finishPut x f false) := by
  obtain ⟨xs, hxs⟩ := addsDue_giveTok? s f.core f.tok false (s.unitPts f.unit)
  have hgo : s.finishPut x f false = (s.addDue xs).dropXfer x := by rw [← hxs]; rfl
  rw [hgo]
  unfold State.dropXfer
  split
  · exact calm_refl s
  · dsimp only
    split
    · refine calm.trans ?_ (hubDue_reapAll _).calm
      exact calm_refl s
    · refine calm.trans ?_ (hubDue_reapAll _).calm
      exact calm_refl s

/-- A chunk that is written counts: its transfer goes on, or what its end makes due is due. -/
theorem chunkOver_spec {s : State} {x lo : Nat} {f : Xfer} (hx : s.xferAt x = some f) (hf : f.faulted = false) (w : Word) :
    let t := s.chunkOver x lo (some w)
    calm s t ∧ (f.todo.erase lo ≠ [] → ∃ g, t.xferAt x = some g ∧ g.todo = f.todo.erase lo ∧ g.bytes = f.bytes + chunkLen f.record lo) ∧
      (f.todo.erase lo = [] → f.chan < 8 → Action.recordComplete x ∈ t.due) ∧
      (f.todo.erase lo = [] → 8 ≤ f.chan → f.isGet = true → Action.getComplete x ∈ t.due) := by
  intro t
  let f1 : Xfer :=
    { f with todo := f.todo.erase lo, sentOut := f.sentOut.filter fun p => decide (p.1 ≠ lo), bytes := f.bytes + chunkLen f.record lo,
             maxWts := wmax f.maxWts w }
  obtain ⟨hcalm, hxfers, hdue⟩ := raiseWeak_calm (s.setXfer x f1) f.unit (recColour f.record) w
  obtain ⟨s1, hs1⟩ : ∃ v, (s.setXfer x f1).raiseWeak f.unit (recColour f.record) w = v := ⟨_, rfl⟩
  rw [hs1] at hcalm hxfers hdue
  have ht : t = if f1.todo.isEmpty && !f1.faulted then s1.whenPerformed x f1 else s1 := by
    rw [← hs1]
    show s.chunkOver x lo (some w) = _
    unfold State.chunkOver
    rw [hx]
    rfl
  have hat : s1.xferAt x = some f1 := (congrArg (NatMap.find x) hxfers).trans (NatMap.find_put_self ..)
  by_cases htodo : f.todo.erase lo = []
  · have hgo : t = s1.whenPerformed x f1 := by
      rw [ht]
      refine if_pos ?_
      rw [show f1.todo = [] from htodo, show f1.faulted = false from hf]
      rfl
    rw [hgo]
    unfold State.whenPerformed
    refine ⟨?_, fun h => absurd htodo h, fun _ hc => ?_, fun _ hc hg => ?_⟩
    · split
      · exact hcalm
      · split
        · exact hcalm
        · exact calm.trans (t := s1) hcalm (finishPut_calm s1 x f1)
    · rw [if_pos (show f1.chan < 8 from hc)]
      exact List.mem_append_right _ (List.mem_singleton_self _)
    · rw [if_neg (show ¬ f1.chan < 8 from by show ¬ f.chan < 8; omega), if_pos (show f1.isGet = true from hg)]
      exact List.mem_append_right _ (List.mem_singleton_self _)
  · have hgo : t = s1 := by
      rw [ht]
      refine if_neg fun h => htodo ?_
      rw [Bool.and_eq_true, List.isEmpty_iff] at h
      exact h.1
    rw [hgo]
    exact ⟨hcalm, fun _ => ⟨f1, hat, rfl, rfl⟩, fun h => absurd h htodo, fun h => absurd h htodo⟩

/-! ### A chunk landed -/

/-- Only the meters differ, and more is due. -/
theorem meter_spec (s : State) (score : Nat) (d : BitVec 16) (dcore : Nat) (label : BitVec 16) (n : Nat) :
    ∃ M xs, s.meter score d dcore label n = { s with fabric := { s.fabric with meters := M }, due := s.due ++ xs } := by
  unfold State.meter State.meterAt
  dsimp only
  split
  · exact ⟨_, [], by rw [List.append_nil]⟩
  · exact ⟨_, _, rfl⟩

theorem meterChunk_spec (s : State) (f : Xfer) (n : Nat) :
    ∃ M xs, s.meterChunk f n = { s with fabric := { s.fabric with meters := M }, due := s.due ++ xs } := by
  unfold State.meterChunk
  exact meter_spec ..

/-- What the landing of a chunk leaves: registers, transfers and what was due stand, and memory is as given. -/
def Landed (s t : State) (m : List Host.Cell) : Prop :=
  sameRegs s t ∧ t.mem = m ∧ (∀ x, t.xferAt x = s.xferAt x) ∧ t.fabric.num = s.fabric.num ∧ Grows s t ∧ t.hub.halves = s.hub.halves

theorem landed_weakCells (s : State) (agent p : Nat) (va : Word) (cs : List Host.Cell) : Landed s (s.weakCells agent p va cs).1 (cellsPut s.mem cs) := by
  obtain ⟨n, hn, hgo⟩ := weakCells_noted s agent p va cs
  rw [hgo]
  obtain ⟨hmem, hregs⟩ := hn.calm
  exact ⟨hregs, congrArg (cellsPut · cs) hmem, hn.xferAt, hn.num, hn.grows, hn.halves⟩

end Sys2Proof.Machine
end

section
set_option Elab.async false
/-! A chunk performed (R230, R231, R249, R255, R385): read at its source, landed in memory whole or in two parts, and counted. -/
namespace Sys2Proof.Machine

/-! ### What an access notes does not depend on the action in hand -/

section
variable (s : State) (a : Option Action)

theorem setCore_act (c : Nat) (x : Core) : ({ s with act := a } : State).setCore c x = { s.setCore c x with act := a } := by
  unfold State.setCore
  dsimp only
  split <;> rfl

theorem dropLeaf_act (r : TRec) (cs : List Nat) : ({ s with act := a } : State).dropLeaf r cs = { s.dropLeaf r cs with act := a } := by
  induction cs generalizing s with
  | nil => rfl
  | cons c cs ih =>
    have hone := setCore_act s a c { s.coreAt c with tlb := (s.coreAt c).tlb.filter fun l => !r.names l }
    exact (congrArg (fun v : State => v.dropLeaf r cs) hone).trans (ih _)

theorem trimDir_act : ({ s with act := a } : State).trimDir = { s.trimDir with act := a } := by
  unfold State.trimDir
  dsimp only
  split
  · rfl
  · split
    · rfl
    · next r rs _ =>
      exact congrArg (fun v : State => v.dropDies r) (dropLeaf_act (s.withHub { s.hub with tdir := rs }) a r _)

theorem cacheLeaf_act (agent p : Nat) (va : Word) : ({ s with act := a } : State).cacheLeaf agent p va = { s.cacheLeaf agent p va with act := a } := by
  have hwalk : ({ s with act := a } : State).walk p va = s.walk p va := rfl
  have hleaves : ({ s with act := a } : State).leavesOf agent = s.leavesOf agent := rfl
  unfold State.cacheLeaf
  rw [hwalk, hleaves]
  split
  · rfl
  · cases s.walk p va with
    | none => rfl
    | some l =>
      dsimp only
      split
      · let x : Core := { s.coreAt agent with tlb := (if 256 ≤ (s.coreAt agent).tlb.length then (s.coreAt agent).tlb.drop 1 else (s.coreAt agent).tlb) ++ [l] }
        let h : Hub := { s.hub with tdir := addHolder l (stackOf agent) s.hub.tdir }
        have hset := congrArg (fun v : State => State.trimDir (v.withHub h)) (setCore_act s a agent x)
        have hinst : ({ s with act := a } : State).installLeaf agent l = { s.installLeaf agent l with act := a } :=
          hset.trans (trimDir_act ((s.setCore agent x).withHub h) a)
        exact congrArg (fun v : State => v.noteWalk (stackOf agent) p va.toNat) hinst
      · exact trimDir_act (s.withHub { s.hub with dies := s.hub.dies ++ [(agent - 257, l)], tdir := addHolder l (8 + (agent - 257)) s.hub.tdir }) a

theorem touch_act (b : Bool) (pa k : Nat) (w : Bool) (t : Word) : ({ s with act := a } : State).touch b pa k w t = { s.touch b pa k w t with act := a } := by
  unfold State.touch
  dsimp only
  split
  · rfl
  · split <;> rfl

theorem noteRead_act (agent p : Nat) (va : Word) (pas : List Nat) :
    ({ s with act := a } : State).noteRead agent p va pas = { s.noteRead agent p va pas with act := a } := by
  have fold (b : Bool) (k : Nat) (w : Bool) (t : Word) (ks : List Nat) (z : State) :
      ks.foldl (fun s k' => s.touch b (k' * 2 ^ 21) k w t) { z with act := a } = { ks.foldl (fun s k' => s.touch b (k' * 2 ^ 21) k w t) z with act := a } := by
    induction ks generalizing z with
    | nil => rfl
    | cons k' ks ih =>
      rw [List.foldl_cons, touch_act, ih]
      rfl
  unfold State.noteRead
  dsimp only
  rw [cacheLeaf_act]
  exact fold ..

end

/-! ### Landing in memory -/

/-- The lander of a transfer to memory with no barrier lands in no unit. -/
theorem landerOf_memory {s : State} {x : Nat} {f : Xfer} (hsp : recDstSp f.record = 0) (hbar : recBarEn f.record = false) :
    s.landerOf x f =
      { record := f.record, part := f.part, agent := f.core, self := some f.unit, land := none,
        key := { slice := 0, spkg := s.fabric.num, score := f.core, chan := f.chan, tid := f.tid, xfer := x, chunks := [] }, ring := f.ring } := by
  have hland : s.landOf f = none := by
    unfold State.landOf recLands
    rw [hsp, hbar]
    rfl
  unfold State.landerOf
  rw [hland]

/-- A copied chunk in memory lands whole, or its first words do and it waits for the others (R230). -/
theorem inParts_lands {s : State} {l : Lander} {lo : Nat} {data : List Byte} {qs : List Nat}
    (hspan : s.weakSpan l.agent l.part (recDst l.record + BitVec.ofNat 64 lo) data.length true = .ok qs) :
    let half := s.halfOf l lo
    let words := wordsNow s half
    ∃ t, sameRegs s t ∧ t.mem = cellsPut s.mem (inWords words (qs.zip data)) ∧ (∀ x, t.xferAt x = s.xferAt x) ∧ Grows s t ∧
      if words = BitVec.allOnes 64 ∨ half.isSome = true then ∃ w, (s.inParts l lo fun s words => s.landCopy l lo words data) = .done t w
      else (s.inParts l lo fun s words => s.landCopy l lo words data) = .waits t ∧ (t.halfOf l lo).map HalfChunk.words = some words := by
  intro half words
  have hcopy (z : State) (ws : BitVec 64) (hz : z.weakSpan l.agent l.part (recDst l.record + BitVec.ofNat 64 lo) data.length true = .ok qs) :
      ∃ t w, Landed z t (cellsPut z.mem (inWords ws (qs.zip data))) ∧ z.landCopy l lo ws data = .done t w := by
    refine ⟨_, (z.weakCells l.agent l.part (recDst l.record + BitVec.ofNat 64 lo) (inWords ws (qs.zip data))).2, landed_weakCells z l.agent l.part (recDst l.record + BitVec.ofNat 64 lo) (inWords ws (qs.zip data)), ?_⟩
    unfold State.landCopy
    dsimp only
    rw [hz]
  cases hh : half with
  | some h =>
    obtain ⟨t, w, ⟨h1, h2, h3, -, h5, -⟩, hgo⟩ := hcopy (s.dropHalf l lo) (~~~h.words) hspan
    have hwords : words = ~~~h.words := by show wordsNow s half = _; rw [hh]; rfl
    refine ⟨t, h1, by rw [hwords]; exact h2, h3, h5, ?_⟩
    rw [if_pos (.inr rfl)]
    refine ⟨wmax h.wts w, ?_⟩
    unfold State.inParts
    rw [show s.halfOf l lo = some h from hh]
    dsimp only
    rw [hgo]
  | none =>
    have hwords : words = if BitVec.ofNat 64 (Config.sense s.free 4) = 0#64 then BitVec.allOnes 64 else BitVec.ofNat 64 (Config.sense s.free 4) := by
      show wordsNow s half = _; rw [hh]; rfl
    by_cases hone : words = BitVec.allOnes 64
    · obtain ⟨t, w, ⟨h1, h2, h3, -, h5, -⟩, hgo⟩ := hcopy s.tickFree (BitVec.allOnes 64) hspan
      refine ⟨t, h1, by rw [hone]; exact h2, h3, h5, ?_⟩
      rw [if_pos (.inl hone)]
      refine ⟨w, ?_⟩
      have hfirst : BitVec.ofNat 64 (Config.sense s.free 4) = 0#64 ∨ BitVec.ofNat 64 (Config.sense s.free 4) = BitVec.allOnes 64 := by
        by_cases h0 : BitVec.ofNat 64 (Config.sense s.free 4) = 0#64
        · exact .inl h0
        · rw [if_neg h0] at hwords
          exact .inr (hwords.symm.trans hone)
      unfold State.inParts
      rw [show s.halfOf l lo = none from hh]
      dsimp only
      rw [if_pos hfirst, hgo]
    · have h0 : BitVec.ofNat 64 (Config.sense s.free 4) ≠ 0#64 := fun h0 => by
        rw [if_pos h0] at hwords
        exact hone hwords
      rw [if_neg h0] at hwords
      obtain ⟨t, w, ⟨h1, h2, h3, -, h5, h6⟩, hgo⟩ := hcopy s.tickFree words hspan
      let v : State := t.withHub { t.hub with halves := t.hub.halves ++ [{ spkg := l.key.spkg, xfer := l.key.xfer, lo := lo, words := words, wts := w }] }
      refine ⟨v, h1, h2, h3, h5, ?_⟩
      rw [if_neg (not_or.2 ⟨hone, by simp⟩)]
      constructor
      · unfold State.inParts
        rw [show s.halfOf l lo = none from hh]
        dsimp only
        rw [if_neg (not_or.2 ⟨h0, fun e => hone (hwords.trans e)⟩), ← hwords, hgo]
      · have hold : (t.hub.halves.find? fun h => decide (h.spkg = l.key.spkg) && decide (h.xfer = l.key.xfer) && decide (h.lo = lo)) = none := by
          rw [h6]
          exact hh
        show ((t.hub.halves ++ [_]).find? _).map _ = _
        rw [List.find?_append, hold]
        simp

end Sys2Proof.Machine
end

section
set_option Elab.async false
/-! CHUNK_PERFORM within the package (R230, R231, R249, R385). -/
namespace Sys2Proof.Machine

/-- The words of a chunk that land now, each where its address says (R230). -/
theorem cellAt_inWords_zip {m : List Host.Cell} (hm : cellsWf m = true) (words : BitVec 64) (as : List Nat) (vs : List Byte) (hnd : as.Nodup)
    {i a : Nat} {v : Byte} (ha : as[i]? = some a) (hv : vs[i]? = some v) :
    cellAt (cellsPut m (inWords words (as.zip vs))) a = if words.getLsbD (a / 4 % 64) then v else cellAt m a := by
  induction as generalizing m vs i with
  | nil => cases ha
  | cons b bs ih =>
    obtain ⟨hb, hnd⟩ := List.nodup_cons.1 hnd
    cases vs with
    | nil => cases hv
    | cons w ws =>
      have hcons : inWords words ((b :: bs).zip (w :: ws)) =
          if words.getLsbD (b / 4 % 64) then (b, w) :: inWords words (bs.zip ws) else inWords words (bs.zip ws) := List.filter_cons ..
      have hout (n : List Host.Cell) : cellAt (cellsPut n (inWords words (bs.zip ws))) b = cellAt n b :=
        cellAt_cellsPut_other _ _ fun x hx e => hb (e ▸ (List.of_mem_zip (List.mem_of_mem_filter hx)).1)
      cases i with
      | zero =>
        obtain rfl : b = a := Option.some.inj ha
        obtain rfl : w = v := Option.some.inj hv
        rw [hcons]
        split
        · exact (hout (cellSet m b w)).trans ((cellAt_cellSet hm b b w).trans (if_pos rfl))
        · exact hout m
      | succ i =>
        have hne : a ≠ b := fun e => hb (e ▸ List.mem_of_getElem? (show bs[i]? = some a from ha))
        rw [hcons]
        split
        · refine (ih (cellsWf_cellSet hm b w) ws hnd ha hv).trans ?_
          rw [cellAt_cellSet hm, if_neg hne]
        · exact ih hm ws hnd ha hv

theorem cellAt_inWords_outside (m : List Host.Cell) (words : BitVec 64) (as : List Nat) (vs : List Byte) {a : Nat} (ha : a ∉ as) :
    cellAt (cellsPut m (inWords words (as.zip vs))) a = cellAt m a :=
  cellAt_cellsPut_other _ _ fun _ hx e => ha (e ▸ (List.of_mem_zip (List.mem_of_mem_filter hx)).1)

theorem length_upFrom (lo n : Nat) : (upFrom lo n).length = n := by rw [upFrom_eq_range', List.length_range']

theorem weakSpan_length {s : State} {agent p n : Nat} {va : Word} {w : Bool} {pas : List Nat} (h : s.weakSpan agent p va n w = .ok pas) : pas.length = n := by
  unfold State.weakSpan at h
  dsimp only at h
  split at h
  · cases h
  · split at h
    · cases h
      exact length_upFrom ..
    · next hroom =>
      split at h
      · cases h
      · cases h
        rw [List.length_append, length_upFrom, length_upFrom]
        omega

/-! ### Reading and landing -/

/-- A chunk to memory with no barrier lands by its copy or by its reduction. -/
theorem landChunk_memory {s : State} {l : Lander} {lo : Nat} {data : List Byte} (hsp : recDstSp l.record = 0) (hbar : recBarEn l.record = false) :
    s.landChunk l lo data =
      if recOp l.record = 0 then s.inParts l lo fun s words => s.landCopy l lo words data else (s.landReduce l lo data).1 := by
  have hnone : s.landBar l = .ok none := if_pos (by rw [hbar]; exact Bool.false_ne_true)
  unfold State.landChunk
  rw [hnone, hsp]
  dsimp only
  by_cases hop : recOp l.record = 0
  · simp only [if_pos hop]
    cases s.inParts l lo fun s words => s.landCopy l lo words data <;> rfl
  · simp only [if_neg hop]
    obtain ⟨r, b⟩ := s.landReduce l lo data
    cases r <;> cases b <;> rfl

/-- The data of a plain chunk on its way: what the read notes, and where it may land. -/
theorem chunkPerform_does {s : State} {x lo : Nat} {f : Xfer} {ps qs : List Nat} (hp : PlainChunk s x lo f ps qs) :
    let data := ps.map (cellAt s.mem)
    ∃ n, Noted { s with act := some (.chunkPerform x lo) } n ∧
      n.weakSpan f.core f.part (recDst f.record + BitVec.ofNat 64 lo) data.length true = .ok qs ∧
      Does (.chunkPerform x lo) s (match n.landChunk (n.landerOf x f) lo data with
        | .done s1 w => (s1.meterChunk f data.length).chunkOver x lo (some w)
        | .dropped s1 => (s1.meterChunk f data.length).chunkOver x lo none
        | .fault k a => n.chunkFault x lo f k a
        | .waits s1 => s1.addDue [.chunkPerform x lo]) := by
  obtain ⟨hx, htodo, hfault, hsent, hdrop, hroom, hsrc, -, hfar, -, hbad, -, -, hread, hwrite⟩ := hp
  intro data
  let s1 : State := { s with act := some (.chunkPerform x lo) }
  let src := recSrc f.record + BitVec.ofNat 64 lo
  have hnoted := noted_noteRead s1 f.core f.part src ps
  have hspan : (s1.noteRead f.core f.part src ps).weakSpan f.core f.part (recDst f.record + BitVec.ofNat 64 lo) data.length true = .ok qs := by
    rw [show data.length = chunkLen f.record lo by rw [List.length_map]; exact weakSpan_length hread, noteRead_act]
    exact hwrite
  have hbytes : s1.sourceBytes f lo = .ok (data, s1.noteRead f.core f.part src ps) := by
    have hspace : ¬ recSrcSp f.record = 1 := by rw [hsrc]; decide
    have hok : s1.weakRead f.core f.part src (chunkLen f.record lo) = .ok ps := by
      unfold State.weakRead State.struck
      rw [show s1.weakSpan f.core f.part src (chunkLen f.record lo) false = .ok ps from hread, show s1.hub.bad = [] from hbad] <;> rfl
    unfold State.sourceBytes
    dsimp only
    rw [if_neg hspace, hok]
    rfl
  have hperform : s1.performChunk x lo f = (s1.noteRead f.core f.part src ps).deliver x lo f data := by
    have hnear : s1.recFarSrc f.record = false := by
      unfold State.recFarSrc
      rw [hsrc]
      rfl
    unfold State.performChunk
    rw [hdrop, hnear, hbytes] <;> rfl
  have hexec : Does (.chunkPerform x lo) s (s1.performChunk x lo f) := by
    have hwait : ¬ ((!f.todo.contains lo || f.faulted || f.sentOut.any fun p => decide (p.1 = lo)) = true) := by
      have hany : (f.sentOut.any fun p => decide (p.1 = lo)) = false := by
        rw [List.any_eq_false]
        exact fun q hq e => hsent q hq (of_decide_eq_true e)
      rw [List.contains_iff_mem.2 htodo, hfault, hany]
      exact Bool.false_ne_true
    have hcap : (f.isGet || s1.requestRoom f.core) = true := by
      rcases hroom with e | e
      · rw [e]; rfl
      · rw [show s1.requestRoom f.core = true from e, Bool.or_true]
    show execChunkPerform s1 = _
    unfold execChunkPerform
    show (match s1.xferAt x with | some t => _ | none => _) = _
    rw [show s1.xferAt x = some f from hx]
    dsimp only
    rw [if_neg hwait, if_pos hcap]
  refine ⟨_, hnoted, hspan, ?_⟩
  rw [hperform] at hexec
  obtain ⟨n, hn⟩ : ∃ n, s1.noteRead f.core f.part src ps = n := ⟨_, rfl⟩
  rw [hn] at hnoted hexec ⊢
  have hfar2 : n.recFar f.record = false := by
    unfold State.recFar
    rw [hnoted.num]
    exact hfar
  unfold State.deliver at hexec
  rw [hfar2] at hexec
  exact hexec

/-! ### A chunk whole, in two parts, or reduced -/

/-- A chunk that landed is metered and counted. -/
theorem countLanded {t : State} {x lo : Nat} {f : Xfer} (hx : t.xferAt x = some f) (hf : f.faulted = false) (k : Nat) (w : Word) :
    let u := (t.meterChunk f k).chunkOver x lo (some w)
    calm t u ∧ (f.todo.erase lo ≠ [] → ∃ g, u.xferAt x = some g ∧ g.todo = f.todo.erase lo ∧ g.bytes = f.bytes + chunkLen f.record lo) ∧
      (f.todo.erase lo = [] → f.chan < 8 → Action.recordComplete x ∈ u.due) ∧
      (f.todo.erase lo = [] → 8 ≤ f.chan → f.isGet = true → Action.getComplete x ∈ u.due) := by
  obtain ⟨M, xs, hm⟩ := meterChunk_spec t f k
  intro u
  have hx2 : (t.meterChunk f k).xferAt x = some f := by rw [hm]; exact hx
  obtain ⟨h1, h2⟩ := chunkOver_spec (lo := lo) hx2 hf w
  have hcalm : calm t (t.meterChunk f k) := by rw [hm]; exact calm_refl t
  exact ⟨hcalm.trans h1, h2⟩

section
variable {s : State} {x lo : Nat} {f : Xfer} {ps qs : List Nat} (hp : PlainChunk s x lo f ps qs)
include hp

/-- A copied chunk moves its bytes, or those of its first words (R230). -/
theorem chunk_copies (hop : recOp f.record = 0) :
    let data := ps.map (cellAt s.mem)
    let half := s.halfOf (s.landerOf x f) lo
    let words := wordsNow s half
    ∃ t, Does (.chunkPerform x lo) s t ∧ sameRegs s t ∧ t.mem = cellsPut s.mem (inWords words (qs.zip data)) ∧
      if words = BitVec.allOnes 64 ∨ half.isSome = true then
        (f.todo.erase lo ≠ [] → ∃ g, t.xferAt x = some g ∧ g.todo = f.todo.erase lo ∧ g.bytes = f.bytes + chunkLen f.record lo) ∧
        (f.todo.erase lo = [] → f.chan < 8 → Action.recordComplete x ∈ t.due) ∧
        (f.todo.erase lo = [] → 8 ≤ f.chan → f.isGet = true → Action.getComplete x ∈ t.due)
      else t.xferAt x = some f ∧ Action.chunkPerform x lo ∈ t.due ∧ (t.halfOf (s.landerOf x f) lo).map HalfChunk.words = some words := by
  obtain ⟨n, hn, hspan, hrun⟩ := chunkPerform_does hp
  obtain ⟨hx, -, hfault, -, -, -, -, hsp, -, hbar, -⟩ := hp
  intro data half words
  have hl := landerOf_memory (s := s) (x := x) hsp hbar
  have hln : n.landerOf x f = s.landerOf x f := by rw [hl, landerOf_memory hsp hbar, hn.num]
  obtain ⟨l, hlt⟩ : ∃ l, s.landerOf x f = l := ⟨_, rfl⟩
  have hrec : l.record = f.record := by rw [← hlt]; rfl
  have hhalf : n.halfOf l lo = half := by
    show n.halfOf l lo = s.halfOf (s.landerOf x f) lo
    rw [hlt]
    unfold State.halfOf
    rw [hn.halves]
  have hwords : wordsNow n half = words := by
    show wordsNow n half = wordsNow s half
    unfold wordsNow
    rw [hn.free]
  rw [hln, hlt, landChunk_memory (by rw [hrec]; exact hsp) (by rw [hrec]; exact hbar), if_pos (by rw [hrec]; exact hop)] at hrun
  obtain ⟨t, hregs, hmem, hxfers, -, hland⟩ := inParts_lands (s := n) (l := l) (lo := lo) (data := data) (qs := qs)
    (by rw [← hlt]; exact hspan)
  rw [hhalf, hwords] at hmem hland
  obtain ⟨kmem, kregs⟩ := hn.calm
  have hsame : sameRegs s t := by
    obtain ⟨a1, a2, a3⟩ := kregs
    obtain ⟨b1, b2, b3⟩ := hregs
    exact ⟨b1.trans a1, b2.trans a2, b3.trans a3⟩
  have hmem2 : t.mem = cellsPut s.mem (inWords words (qs.zip data)) := by rw [hmem, kmem]
  have hat : t.xferAt x = some f := (hxfers x).trans ((hn.xferAt x).trans hx)
  split at hland
  · next hall =>
    obtain ⟨w, hgo⟩ := hland
    rw [hgo] at hrun
    obtain ⟨⟨cmem, c1, c2, c3⟩, hdone⟩ := countLanded (lo := lo) hat hfault data.length w
    obtain ⟨a1, a2, a3⟩ := hsame
    refine ⟨_, hrun, ⟨c1.trans a1, c2.trans a2, c3.trans a3⟩, cmem.trans hmem2, ?_⟩
    rw [if_pos hall]
    exact hdone
  · next hsome =>
    obtain ⟨hgo, hkept⟩ := hland
    rw [hgo] at hrun
    refine ⟨_, hrun, hsame, hmem2, ?_⟩
    rw [if_neg hsome, hlt]
    exact ⟨hat, List.mem_append_right _ (List.mem_singleton_self _), hkept⟩

/-- A chunk of a reduction reduces its bytes once, and one that had been applied changes nothing (R231). -/
theorem chunk_reduces (hop : recOp f.record ≠ 0) {now : Bool} {as : List Applied}
    (hnote : noteApplied { (s.landerOf x f).key with slice := s.homeOf (qs.headD 0) } lo s.hub.applied = some (now, as)) :
    let data := ps.map (cellAt s.mem)
    ∃ t, Does (.chunkPerform x lo) s t ∧ sameRegs s t ∧
      t.mem = (if now then cellsPut s.mem (qs.zip (reduceAll f.record (qs.map (cellAt s.mem)) data (data.length / recElem f.record))) else s.mem) ∧
      (f.todo.erase lo ≠ [] → ∃ g, t.xferAt x = some g ∧ g.todo = f.todo.erase lo ∧ g.bytes = f.bytes + chunkLen f.record lo) ∧
      (f.todo.erase lo = [] → f.chan < 8 → Action.recordComplete x ∈ t.due) ∧
      (f.todo.erase lo = [] → 8 ≤ f.chan → f.isGet = true → Action.getComplete x ∈ t.due) := by
  obtain ⟨n, hn, hspan, hrun⟩ := chunkPerform_does hp
  obtain ⟨hx, -, hfault, -, -, -, -, hsp, -, hbar, hbad, -⟩ := hp
  intro data
  have hl := landerOf_memory (s := s) (x := x) hsp hbar
  have hln : n.landerOf x f = s.landerOf x f := by rw [hl, landerOf_memory hsp hbar, hn.num]
  obtain ⟨l, hlt⟩ : ∃ l, s.landerOf x f = l := ⟨_, rfl⟩
  have hrec : l.record = f.record := by rw [← hlt]; rfl
  rw [hln, hlt, landChunk_memory (by rw [hrec]; exact hsp) (by rw [hrec]; exact hbar), if_neg (by rw [hrec]; exact hop)] at hrun
  obtain ⟨kmem, kregs⟩ := hn.calm
  have hnote2 : noteApplied { l.key with slice := n.homeOf (qs.headD 0) } lo n.hub.applied = some (now, as) := by
    rw [← hlt, hn.homeOf, hn.applied]
    exact hnote
  have hstruck : n.struck qs = none := by
    unfold State.struck
    rw [hn.bad, show s.hub.bad = [] from hbad] <;> rfl
  have hspan2 : n.weakSpan l.agent l.part (recDst l.record + BitVec.ofNat 64 lo) data.length true = .ok qs := by rw [← hlt]; exact hspan
  have hland : ∃ t w, (n.landReduce l lo data).1 = .done t w ∧ sameRegs n t ∧ (∀ x, t.xferAt x = n.xferAt x) ∧
      t.mem = if now then cellsPut n.mem (qs.zip (reduceAll l.record (qs.map (cellAt n.mem)) data (data.length / recElem l.record))) else n.mem := by
    unfold State.landReduce
    dsimp only
    rw [hspan2]
    dsimp only
    rw [hstruck, hnote2]
    cases now with
    | false => exact ⟨_, _, rfl, ⟨rfl, rfl, rfl⟩, fun _ => rfl, rfl⟩
    | true =>
      obtain ⟨h1, h2, h3, -⟩ := landed_weakCells (n.withHub { n.hub with applied := as }) l.agent l.part (recDst l.record + BitVec.ofNat 64 lo)
        (qs.zip (reduceAll l.record (qs.map (cellAt n.mem)) data (data.length / recElem l.record)))
      exact ⟨_, _, rfl, h1, h3, h2⟩
  obtain ⟨t, w, hgo, ⟨b1, b2, b3⟩, hxfers, hmem⟩ := hland
  rw [hgo] at hrun
  have hat : t.xferAt x = some f := (hxfers x).trans ((hn.xferAt x).trans hx)
  obtain ⟨a1, a2, a3⟩ := kregs
  obtain ⟨⟨cmem, c1, c2, c3⟩, hdone⟩ := countLanded (lo := lo) hat hfault data.length w
  refine ⟨_, hrun, ⟨c1.trans (b1.trans a1), c2.trans (b2.trans a2), c3.trans (b3.trans a3)⟩, ?_, hdone⟩
  rw [cmem, hmem, kmem, hrec]

end

end Sys2Proof.Machine
end

section
set_option Elab.async false
/-! RING_RESERVE (R197, R198), and what transfers and their chunks do (R198, R230, R231, R249, R385). -/
namespace Sys2Proof.Machine

/-! ### A unit's scratchpad changed -/

theorem modPad_spec {s : State} {u : Nat} (hu : u ≠ 0) (hat : (s.unitAt u).isSome = true) (g : Spad → Spad) :
    let t := s.modPad u g
    calm s t ∧ t.padOf u = g (s.padOf u) ∧ (∀ x, t.xferAt x = s.xferAt x) ∧ t.due = s.due := by
  intro t
  dsimp only [t]
  unfold State.modPad
  split
  · next c hc =>
    obtain ⟨hrun, hcore⟩ := runsOn_modCore hu hc c (f := fun x => { x with pad := g x.pad }) fun _ => rfl
    refine ⟨calm_modCore s c (f := fun x => { x with pad := g x.pad }) (fun _ => rfl) fun _ => rfl, ?_, fun x => ?_, State.setCore_due ..⟩
    · unfold State.padOf
      rw [hrun, hc]
      dsimp only
      rw [hcore rfl]
    · exact congrArg (fun h : Hub => NatMap.find x h.xfers) (State.setCore_hub ..)
  · next hnone =>
    obtain ⟨y, hy⟩ := Option.isSome_iff_exists.1 hat
    have hput : (s.modUnit u fun x => { x with pad := g x.pad }).unitAt u = some { y with pad := g y.pad } := unitAt_modUnit_same hy _
    have hgo : s.modUnit u (fun x => { x with pad := g x.pad }) = s.setUnit u { y with pad := g y.pad } := by
      unfold State.modUnit
      rw [hy]
    refine ⟨calm_modUnit .., ?_, fun x => by rw [hgo]; rfl, by rw [hgo]; rfl⟩
    have hrun : (s.modUnit u fun x => { x with pad := g x.pad }).runsOn u = none := by
      unfold State.runsOn at hnone ⊢
      rw [if_neg hu, hy] at hnone
      rw [if_neg hu, hput]
      rw [hgo]
      exact hnone
    unfold State.padOf
    rw [hrun, hnone, hput, hy]
    rfl

/-! ### Reserving bytes of a ring (R197, R198) -/

/-- Who waits for a ring does not depend on the transfer that asks now. -/
theorem awaitsRoom_congr {s t : State} {e : BitVec 16 × Nat} (hnum : t.fabric = s.fabric) (hdue : t.due = s.due) (heng : ∀ u, t.engOf u = s.engOf u)
    (hat : e.1 = s.fabric.num → t.xferAt e.2 = s.xferAt e.2) : t.awaitsRoom e = s.awaitsRoom e := by
  unfold State.awaitsRoom
  by_cases hhere : e.1 = s.fabric.num
  · simp only [hnum, heng, hat hhere, if_pos hhere]
  · simp only [hnum, hdue, if_neg hhere]

theorem any_put {α : Type} (p : Nat × α → Bool) (k : Nat) (v : α) (m : NatMap α) (hp : ∀ w, p (k, w) = false) : (NatMap.put k v m).any p = m.any p := by
  induction m with
  | nil => show (p (k, v) || false) = false; rw [hp]; rfl
  | cons e m ih =>
    unfold NatMap.put
    split
    · next he =>
      obtain ⟨j, w⟩ := e
      obtain rfl : j = k := he
      rw [List.any_cons, List.any_cons, hp, hp]
    · split
      · rw [List.any_cons, hp, Bool.false_or]
      · rw [List.any_cons, List.any_cons, ih]

theorem behindAnother_setXfer (s : State) (x u k : Nat) (f : Xfer) : (s.setXfer x f).behindAnother x u k = s.behindAnother x u k :=
  any_put _ x f s.hub.xfers fun w => by
    show (decide (x < x) && _ && _ && _ && _ && _ && _ && _) = false
    rw [decide_eq_false (Nat.lt_irrefl x)]
    simp only [Bool.false_and]

/-- A transfer within the package that waits to start, its landing found. -/
theorem ringReserve_does {s : State} {x : Nat} {f : Xfer} (hx : s.xferAt x = some f) (hstart : f.started = false) (hheld : f.heldGet = false)
    (hfault : f.faulted = false) : Does (.ringReserve x) s (({ s with act := some (.ringReserve x) } : State).ringStart x f) := by
  let s1 : State := { s with act := some (.ringReserve x) }
  show execRingReserve s1 = .next (s1.ringStart x f)
  unfold execRingReserve
  show (match s1.xferAt x with | some t => _ | none => _) = _
  rw [show s1.xferAt x = some f from hx]
  dsimp only
  rw [hstart, hheld, hfault]
  rfl

section
variable {s : State} {x : Nat} {f : Xfer} (htok : f.tok = none)
include htok

/-- A transfer to no ring of this package begins at once (R198). -/
theorem ringStart_noRing (h : recDstSp f.record ≠ 2 ∨ s.recFar f.record = true) :
    s.ringStart x f = (s.setXfer x { f with land := s.landOf f }).beginXfer x { f with land := s.landOf f } := by
  have hplace : (s.setXfer x { f with land := s.landOf f }).placeBarTok x { f with land := s.landOf f } = s.setXfer x { f with land := s.landOf f } := by
    unfold State.placeBarTok
    dsimp only
    rw [htok]
  have hat : (s.setXfer x { f with land := s.landOf f }).xferAt x = some { f with land := s.landOf f } := NatMap.find_put_self ..
  unfold State.ringStart
  refine (if_pos h).trans ?_
  rw [hplace, hat]
  rfl

/-- A transfer to a ring of this package: too large, or in its turn. -/
theorem ringStart_ring {u : Nat} (hsp : recDstSp f.record = 2) (hfar : s.recFar f.record = false) (hland : s.landOf f = some u) :
    let f1 : Xfer := { f with land := some u }
    let s1 := s.setXfer x f1
    let k := recRing f.record
    let n := (s.declOf u).ringLen k
    s.ringStart x f =
      if n < recLen f.record then (s1.event .ringOversize 0 f.core (some f.part) f.raddr 0#32 f.tid).beginXfer x { f1 with dropAll := true }
      else if swzMisfit (recSwizzle f.record) n then (s1.landRefused f.part 0#64 f.tid).beginXfer x { f1 with dropAll := true }
      else if s.behindAnother x u k then s1.addDue [.ringReserve x]
      else match s1.reserveRing u k (s.fabric.num, x) x (recLen f.record) with
        | .ok (a, s2) => s2.beginXfer x { f1 with ring := some a }
        | .error s2 => s2.addDue [.ringReserve x] := by
  intro f1 s1 k n
  have hplace : s1.placeBarTok x f1 = s1 := by
    unfold State.placeBarTok
    dsimp only [f1]
    rw [htok]
  have hat : s1.xferAt x = some f1 := NatMap.find_put_self ..
  unfold State.ringStart
  refine (if_neg (not_or.2 ⟨not_not_intro hsp, Bool.eq_false_iff.1 hfar⟩)).trans ?_
  dsimp only
  rw [hland]
  rw [show s.setXfer x { f with land := some u } = s1 from rfl, show ({ f with land := some u } : Xfer) = f1 from rfl, hplace, hat]
  rw [← behindAnother_setXfer s x u k f1]
  rfl

end

/-! ### RING_RESERVE -/

theorem xferAt_beginXfer (s : State) (x : Nat) (f : Xfer) : (s.beginXfer x f).xferAt x = some { f with started := true } := NatMap.find_put_self ..

section
variable {s : State} {x : Nat} {f : Xfer} (hx : s.xferAt x = some f) (hstart : f.started = false) (hheld : f.heldGet = false) (hfault : f.faulted = false)
  (htok : f.tok = none)
include hx hstart hheld hfault htok

theorem ringReserve_noRing (h : recDstSp f.record ≠ 2 ∨ s.recFar f.record = true) :
    ∃ t, Does (.ringReserve x) s t ∧ calm s t ∧ t.xferAt x = some { f with started := true, land := s.landOf f } ∧
      ∀ k ∈ f.todo, Action.chunkPerform x k ∈ t.due := by
  have hrun := ringReserve_does hx hstart hheld hfault
  rw [ringStart_noRing (s := { s with act := some (.ringReserve x) }) htok h] at hrun
  exact ⟨_, hrun, calm_refl s, xferAt_beginXfer .., fun k hk => List.mem_append_right _ (List.mem_map.2 ⟨k, hk, rfl⟩)⟩

variable {u : Nat} (hsp : recDstSp f.record = 2) (hfar : s.recFar f.record = false) (hland : s.landOf f = some u)
include hsp hfar hland

theorem ringReserve_oversize (hn : (s.declOf u).ringLen (recRing f.record) < recLen f.record) :
    ∃ t, Does (.ringReserve x) s t ∧ calm s t ∧ t.xferAt x = some { f with started := true, dropAll := true, land := some u } ∧
      ∃ e, Action.eventRecordArrive e ∈ t.due ∧ e.code = .ringOversize ∧ e.tid = f.tid := by
  have hrun := ringReserve_does hx hstart hheld hfault
  rw [ringStart_ring (s := { s with act := some (.ringReserve x) }) htok hsp hfar hland] at hrun
  dsimp only at hrun
  exact ⟨_, hrun.trans (congrArg Host.Outcome.next (if_pos hn)), calm_refl s, xferAt_beginXfer .., _, List.mem_append_left _ (List.mem_append_right _ (List.mem_singleton_self _)), rfl, rfl⟩

/-- A transfer reserves its bytes where they fit and no earlier one waits, and else waits in the ring's line (R197, R198). -/
theorem ringReserve_turn (hn : recLen f.record ≤ (s.declOf u).ringLen (recRing f.record))
    (hfit : swzMisfit (recSwizzle f.record) ((s.declOf u).ringLen (recRing f.record)) = false) (hturn : s.behindAnother x u (recRing f.record) = false)
    (hu : u ≠ 0) (hat : (s.unitAt u).isSome = true) :
    let k := recRing f.record
    let r := vget {} (s.padOf u).rings k
    let n := (s.declOf u).ringLen k
    if r.ready + r.held + r.resvBytes + recLen f.record ≤ n ∧ (r.line.takeWhile fun e => decide (e ≠ (s.fabric.num, x))).filter s.awaitsRoom = [] then
      ∃ t, Does (.ringReserve x) s t ∧ calm s t ∧
        t.xferAt x = some { f with
          started := true, land := some u, ring := some { unit := u, ring := k, resv := x, base := (r.head + (r.ready + r.held + r.resvBytes)) % n } } ∧
        vget {} (t.padOf u).rings k = { r with resv := r.resv ++ [{ id := x, len := recLen f.record }], line := r.line.erase (s.fabric.num, x) }
    else ∃ t, Does (.ringReserve x) s t ∧ calm s t ∧ t.xferAt x = some { f with land := some u } ∧
      (s.fabric.num, x) ∈ (vget {} (t.padOf u).rings k).line ∧ Action.ringReserve x ∈ t.due := by
  intro k r n
  have hk : k < 8 := Nat.mod_lt _ (by decide)
  have hrun := ringReserve_does hx hstart hheld hfault
  rw [ringStart_ring (s := { s with act := some (.ringReserve x) }) htok hsp hfar hland] at hrun
  dsimp only at hrun
  let f1 : Xfer := { f with land := some u }
  obtain ⟨s1, hs1⟩ : ∃ s1, ({ s with act := some (.ringReserve x) } : State).setXfer x f1 = s1 := ⟨_, rfl⟩
  replace hrun := hrun.trans (congrArg Host.Outcome.next ((if_neg (Nat.not_lt.2 hn)).trans
    ((if_neg (Bool.eq_false_iff.1 hfit)).trans (if_neg (Bool.eq_false_iff.1 hturn)))))
  rw [show ({ f with land := some u } : Xfer) = f1 from rfl, hs1] at hrun
  have hcalm : calm s s1 := by rw [← hs1]; exact calm_refl s
  have hat1 : (s1.unitAt u).isSome = true := by rw [← hs1]; exact hat
  have hx1 : s1.xferAt x = some f1 := by rw [← hs1]; exact NatMap.find_put_self ..
  have hr : vget {} (s1.padOf u).rings k = r := by rw [← hs1]; rfl
  have hdecl : (s1.declOf u).ringLen k = n := by rw [← hs1]; rfl
  have hwait : (r.line.takeWhile fun e => decide (e ≠ (s.fabric.num, x))).filter s1.awaitsRoom =
      (r.line.takeWhile fun e => decide (e ≠ (s.fabric.num, x))).filter s.awaitsRoom := by
    refine List.filter_congr fun e he => ?_
    have hne : e ≠ (s.fabric.num, x) := of_decide_eq_true (List.mem_takeWhile_imp (p := fun e => decide (e ≠ (s.fabric.num, x))) he)
    rw [← hs1]
    refine awaitsRoom_congr rfl rfl (fun _ => rfl) fun hnum => NatMap.find_put_ne (fun h => hne (Prod.ext hnum h)) ..
  unfold State.reserveRing at hrun
  dsimp only at hrun
  rw [show recRing f.record = k from rfl, hr, hdecl, hwait] at hrun
  split
  · next hroom =>
    obtain ⟨hle, hnil⟩ := hroom
    rw [if_neg (by rw [hnil]; simp only [List.isEmpty_nil, not_true_eq_false, or_false]; omega)] at hrun
    dsimp only at hrun
    obtain ⟨kcalm, kpad, -, -⟩ := modPad_spec hu hat1 fun p =>
      { p with rings := vput p.rings k { r with resv := r.resv ++ [{ id := x, len := recLen f.record }], line := r.line.erase (s.fabric.num, x) } }
    refine ⟨_, hrun, hcalm.trans (calm.trans kcalm (calm_refl _)), xferAt_beginXfer .., ?_⟩
    refine (congrArg (fun p : Spad => vget {} p.rings k) kpad).trans ?_
    exact vget_vput_self _ _ _ hk
  · next hroom =>
    rw [if_pos (by
      by_contra hno
      obtain ⟨h1, h2⟩ := not_or.1 hno
      exact hroom ⟨by omega, List.isEmpty_iff.1 (not_not.1 h2)⟩)] at hrun
    dsimp only at hrun
    obtain ⟨kcalm, kpad, kx, -⟩ := modPad_spec hu hat1 fun p =>
      { p with rings := vput p.rings k { r with
        line := if r.line.contains (s.fabric.num, x) then r.line else r.line.filter s1.awaitsRoom ++ [(s.fabric.num, x)] } }
    refine ⟨_, hrun, hcalm.trans kcalm, (kx x).trans hx1, ?_, List.mem_append_right _ (List.mem_singleton_self _)⟩
    have hline := (congrArg (fun p : Spad => (vget {} p.rings k).line) kpad).trans (congrArg Ring.line (vget_vput_self _ _ _ hk))
    show (s.fabric.num, x) ∈ (vget {} (State.padOf _ u).rings k).line
    refine hline ▸ ?_
    split
    · next hc => exact List.contains_iff_mem.1 hc
    · exact List.mem_append_right _ (List.mem_singleton_self _)

end

/-- At the cap of its core's requests a chunk waits (R385). -/
theorem chunk_capped {s : State} {x lo : Nat} {f : Xfer} (hx : s.xferAt x = some f) (htodo : lo ∈ f.todo) (hfault : f.faulted = false)
    (hsent : ∀ q ∈ f.sentOut, q.1 ≠ lo) (hget : f.isGet = false) (hroom : s.requestRoom f.core = false) :
    ∃ t, Does (.chunkPerform x lo) s t ∧ calm s t ∧ t.hub = s.hub ∧ Action.chunkPerform x lo ∈ t.due := by
  let s1 : State := { s with act := some (.chunkPerform x lo) }
  have hrun : Does (.chunkPerform x lo) s (s1.addDue [.chunkPerform x lo]) := by
    have hany : (f.sentOut.any fun p => decide (p.1 = lo)) = false := by
      rw [List.any_eq_false]
      exact fun q hq e => hsent q hq (of_decide_eq_true e)
    show execChunkPerform s1 = _
    unfold execChunkPerform
    show (match s1.xferAt x with | some t => _ | none => _) = _
    rw [show s1.xferAt x = some f from hx]
    dsimp only
    rw [List.contains_iff_mem.2 htodo, hfault, hany, hget, show s1.requestRoom f.core = false from hroom]
    rfl
  exact ⟨_, hrun, calm_refl s, rfl, List.mem_append_right _ (List.mem_singleton_self _)⟩

end Sys2Proof.Machine

open Sys2Proof.Machine in
/-- Settles O40: a ring is reserved by its free bytes and its line, and a chunk lands by its copy or its reduction. -/
theorem Sys2Proof.Machine.chunkActionResults : Obligations.ChunkActionResults := by
  unfold Obligations.ChunkActionResults
  intro s x lo f
  refine ⟨fun hx hstart hheld hfault htok => ⟨fun h => ringReserve_noRing hx hstart hheld hfault htok h, fun u hsp hfar hland =>
      ⟨fun hn => ringReserve_oversize hx hstart hheld hfault htok hsp hfar hland hn,
        fun hn hfit hturn hu hat => ringReserve_turn hx hstart hheld hfault htok hsp hfar hland hn hfit hturn hu hat⟩⟩,
    fun ps qs as hp hnote => ?_, fun hx htodo hfault hsent hget hroom => chunk_capped hx htodo hfault hsent hget hroom, fun ps qs as hp hop hnote => ?_⟩
  · have hnd : qs.Nodup := by obtain ⟨-, -, -, -, -, -, -, -, -, -, -, h, -⟩ := hp; exact h
    have hwf : Memory.wf s.mem = true := by obtain ⟨-, -, -, -, -, -, -, -, -, -, -, -, h, -⟩ := hp; exact h
    by_cases hop : recOp f.record = 0
    · simp only [hop, if_true, true_and]
      obtain ⟨t, hrun, hregs, hmem, hrest⟩ := chunk_copies hp hop
      refine ⟨t, hrun, hregs, fun i a b ha hb => ?_, fun a ha => ?_, hrest⟩
      · rw [hmem]
        exact cellAt_inWords_zip hwf _ qs _ hnd ha hb
      · rw [hmem]
        exact cellAt_inWords_outside _ _ qs _ ha
    · simp only [hop, if_false, false_and, or_false, if_true]
      obtain ⟨t, hrun, hregs, hmem, hrest⟩ := chunk_reduces hp hop (hnote hop)
      rw [if_pos rfl] at hmem
      refine ⟨t, hrun, hregs, fun i a b ha hb => ?_, fun a ha => ?_, hrest⟩
      · rw [hmem, if_pos (by rw [BitVec.getLsbD_allOnes]; exact decide_eq_true (Nat.mod_lt _ (by decide)))]
        exact cellAt_cellsPut_zip hwf qs _ hnd ha hb
      · rw [hmem]
        exact cellAt_cellsPut_outside _ qs _ ha
  · obtain ⟨t, hrun, hregs, hmem, -⟩ := chunk_reduces hp hop hnote
    exact ⟨t, hrun, hmem, hregs⟩

end

section
set_option Elab.async false
/-! A sequencer that has been told to leave (R415, R419): whatever becomes of its unit, it stays left with its cause. -/
namespace Sys2Proof.Machine

/-- The sequencer in focus has left its bundle, for the cause `r`. -/
def Halts (r : Option (Cause × Word)) (s : State) : Prop := s.core.phase = .left ∧ s.core.raised = r

section
variable {r : Option (Cause × Word)} {s : State} (h : Halts r s)
include h

theorem Halts.congr {t : State} (e : t.core = s.core) : Halts r t := by unfold Halts; rw [e]; exact h

theorem Halts.setCore (c : Nat) {x : Core} (hx : c = s.cur → x.phase = .left ∧ x.raised = r) : Halts r (s.setCore c x) := by
  unfold State.setCore
  split
  · next hc => exact hx hc
  · exact h

theorem Halts.modCore (c : Nat) {f : Core → Core} (hf : ∀ x, (f x).phase = x.phase ∧ (f x).raised = x.raised) : Halts r (s.modCore c f) :=
  h.setCore c fun hc => by
    rw [State.coreAt_of_cur hc, (hf _).1, (hf _).2]
    exact h

theorem Halts.modUnit (u : Nat) (f : Uni → Uni) : Halts r (s.modUnit u f) := by
  unfold State.modUnit
  split <;> exact h

theorem Halts.freeRows (u : Nat) : Halts r (s.freeRows u) := by
  obtain ⟨_, _, e⟩ := hubDue_freeRows s u
  rw [e]
  exact h

theorem Halts.reap (u : Nat) : Halts r (s.reap u) := by
  obtain ⟨_, _, e⟩ := hubDue_reap s u
  rw [e]
  exact h

theorem Halts.addUnit (x : Uni) (c : Nat) (front : Bool) : Halts r (s.addUnit x c front).2 := by
  have hnew : Halts r (s.newUnit x).2 := by
    obtain ⟨_, _, e⟩ := hubDue_newUnit s x
    rw [e]
    exact h
  unfold State.addUnit State.enqueue
  dsimp only
  generalize (s.newUnit x).2 = n at hnew ⊢
  refine Halts.congr ?_ (State.addDue_core ..)
  exact (hnew.modUnit _ _).modCore c fun _ => ⟨rfl, rfl⟩

theorem Halts.demote (c : Nat) : Halts r (s.demote c) := by
  unfold State.demote
  split
  · exact h
  · next u _ =>
    split
    · exact h
    · next x _ =>
      have h1 : Halts r (if x.ctx.isSome then s else s.freeRows u) := by
        split
        · exact h
        · exact h.freeRows u
      exact (h1.modUnit _ _).modCore c fun _ => ⟨rfl, rfl⟩

theorem Halts.createHandler (c : Nat) (w : TrapWait) (d : UnitDecl) : Halts r (s.createHandler c w d) := by
  have h2 := (h.demote c).modCore c (f := fun k => { k with handling := some w }) fun _ => ⟨rfl, rfl⟩
  unfold State.createHandler
  dsimp only
  exact h2.addUnit _ c true

omit h in
theorem weakNat_core (s : State) (pa n v : Nat) : (s.weakNat pa n v).core = s.core := by
  unfold State.weakNat
  split <;> rfl

theorem Halts.slotWrite (ps : List Nat) (off n v : Nat) : Halts r (s.slotWrite ps off n v) := by
  unfold State.slotWrite
  dsimp only
  split
  · exact h.congr (weakNat_core ..)
  · exact h.congr ((weakNat_core ..).trans (weakNat_core ..))

theorem Halts.slotWriteAll (ps : List Nat) (xs : List (Nat × Nat × Nat)) : Halts r (s.slotWriteAll ps xs) := by
  induction xs generalizing s with
  | nil => exact h
  | cons x xs ih => exact ih (h.slotWrite ps x.1 x.2.1 x.2.2)

theorem Halts.touchSlot (p k : Nat) (base : Word) (w : Bool) (i n : Nat) : Halts r (s.touchSlot p k base w i n) := by
  induction n generalizing s i with
  | zero => exact h
  | succ n ih =>
    unfold State.touchSlot
    refine ih ?_ _
    split
    · exact h.congr (touch_core ..)
    · exact h

theorem Halts.modEng (u : Nat) (f : Engines → Engines) : Halts r (s.modEng u f) := by
  unfold State.modEng
  split
  · exact h.modCore _ fun _ => ⟨rfl, rfl⟩
  · split
    · exact h
    · next x _ =>
      have hset : Halts r (s.setUnit u { x with eng := f x.eng }) := h
      dsimp only
      generalize (if x.ctx.isSome then engPieces x.eng (f x.eng) s.time else []) = ps
      generalize s.setUnit u { x with eng := f x.eng } = t at hset ⊢
      split
      · exact hset
      · split
        · exact hset.slotWriteAll _ _
        · exact hset

theorem Halts.giveToks (site : Nat) (w : Word) (ts : List Tok) : Halts r (s.giveToks site w ts) := by
  induction ts generalizing s with
  | nil => exact h
  | cons t ts ih => exact ih (s := s.giveTok site t false w) h

theorem Halts.dropChanToks (u site : Nat) (w : Word) (ns : List Nat) : Halts r (s.dropChanToks u site w ns) := by
  induction ns generalizing s with
  | nil => exact h
  | cons n ns ih =>
    refine ih (s := s.settleChan u site n w) ?_
    unfold State.settleChan
    dsimp only
    split
    · exact (h.modEng u _).giveToks _ _ _
    · exact h

theorem Halts.quitEngines (u site : Nat) (w : Word) : Halts r (s.quitEngines u site w) :=
  (Halts.modEng (s := s.dropFaulted u) h u _).dropChanToks u site w _

theorem Halts.quitBroken (u site : Nat) (w : Word) : Halts r (s.quitBroken u site w) :=
  (Halts.modEng (s := s.dropFaulted u) h u _).dropChanToks u site w _

theorem Halts.detach (c : Nat) : Halts r (s.detach c) := by
  unfold State.detach
  dsimp only
  split
  · exact h
  · next u _ =>
    refine ((h.modUnit u _).setCore c fun hc => ⟨rfl, ?_⟩).congr rfl
    have hcur : c = s.cur := hc.trans (by unfold State.modUnit; split <;> rfl)
    show (s.coreAt c).raised = r
    rw [State.coreAt_of_cur hcur]
    exact h.2

theorem Halts.retireUnit (u : Nat) (x : Uni) (taint : Bool) (site : Nat) (w : Word) : Halts r (s.retireUnit u x taint site w) := by
  have h1 : Halts r ((s.dequeue u).giveHold site x.hold taint w) := by
    have hdeq : Halts r (s.dequeue u) := by
      unfold State.dequeue
      split
      · exact h.modCore _ fun _ => ⟨rfl, rfl⟩
      · exact h
    unfold State.giveHold
    split
    · exact hdeq
    · exact hdeq
  unfold State.retireUnit
  dsimp only
  split
  · exact (Halts.modUnit (h1.congr (State.setAcc_core ..)) u _).reap u
  · exact (h1.modUnit u _).reap u

theorem Halts.nextTrap (c : Nat) (ws : List TrapWait) : Halts r (s.nextTrap c ws) := by
  induction ws generalizing s with
  | nil => exact h.modCore c fun _ => ⟨rfl, rfl⟩
  | cons w ws ih =>
    unfold State.nextTrap
    split
    · have h2 := h.modCore c (f := fun x => { x with handling := none, trapq := ws }) fun _ => ⟨rfl, rfl⟩
      exact h2.createHandler c w _
    · refine ih ?_
      have hquit : Halts r (s.quitTrapped c w) := by
        unfold State.quitTrapped
        split
        · exact h
        · next y _ =>
          split
          · exact h
          · dsimp only
            cases s.runsOn w.owner with
            | some d => exact ((h.quitEngines w.owner c _).detach d).retireUnit w.owner _ false c _
            | none => exact (h.quitEngines w.owner c _).retireUnit w.owner _ false c _
      exact hquit

theorem Halts.endUnit (u : Nat) (taint : Bool) (site : Nat) (w : Word) : Halts r (s.endUnit u taint site w) := by
  unfold State.endUnit
  split
  · exact h
  · next x _ =>
    split
    · exact h
    · dsimp only
      split
      · exact (h.retireUnit u x taint site w).nextTrap _ _
      · exact h.retireUnit u x taint site w

theorem Halts.endRunning (c : Nat) (taint cancel : Bool) : Halts r (s.endRunning c taint cancel) := by
  unfold State.endRunning
  dsimp only
  split
  · exact h
  · next u _ =>
    have h1 : Halts r (if cancel then (s.breakTrees c (s.coreAt c).joined).quitBroken u c (s.coreAt c).allPts else s.quitEngines u c (s.coreAt c).allPts) := by
      split
      · exact Halts.quitBroken (s := s.breakTrees c (s.coreAt c).joined) h u c _
      · exact h.quitEngines u c _
    exact (h1.detach c).endUnit u taint c _

theorem Halts.endAny (u : Nat) (taint : Bool) : Halts r (s.endAny u taint) := by
  unfold State.endAny
  split
  · exact h.endRunning _ taint false
  · exact (h.quitEngines u _ _).endUnit u taint _ _
  · exact h

theorem Halts.handleTrap (c u : Nat) (w : TrapWait) (handler : Bool) (i : TrapInfo) : Halts r (s.handleTrap c u w handler i) := by
  have hfinish : Halts r ((s.endAny u false).forward c w.part i.addr w.acct) := h.endAny u false
  unfold State.handleTrap
  dsimp only
  split
  · exact hfinish
  · split
    · exact hfinish
    · split
      · exact h.createHandler c w _
      · split
        · exact h.modCore c (f := fun x => { x with trapq := x.trapq ++ [w] }) fun _ => ⟨rfl, rfl⟩
        · exact hfinish

theorem Halts.suspend {c : Nat} {kind : CtxKind} {k : Taken} {t : State} (ht : s.suspend c kind k = .ok t) : Halts r t := by
  unfold State.suspend at ht
  dsimp only at ht
  split at ht
  · cases ht; exact h
  · split at ht
    · cases ht; exact h
    · split at ht
      · cases ht
      · cases ht
        exact (((h.slotWriteAll _ _).touchSlot _ _ _ _ _ _).detach c).modUnit _ _

/-- A sequencer that left stays so as its trap is taken (R355, R356). -/
theorem Halts.coreTrap (i : TrapInfo) : Halts r (s.coreTrap i) := by
  have hfill : Halts r (s.fillLoads s.cur 128) := by
    obtain ⟨_, _, _, _, _, _, _, _, _, _, _, _, e⟩ := loadsOnly_fillLoads s s.cur 128
    rw [e]
    exact h
  unfold State.coreTrap
  dsimp only
  split
  · exact h
  · next u _ =>
    split
    · next ps s1 _ hsus =>
      exact ((hfill.suspend hsus).slotWrite ps 0 128 _).handleTrap _ u _ _ i
    · exact Halts.endRunning (s := State.event _ _ _ _ _ _ _) hfill _ true false
    · exact Halts.endRunning (s := State.event _ _ _ _ _ _ _) hfill _ true false

theorem Halts.rangerTrap (i : TrapInfo) : Halts r (s.rangerTrap i) := by
  unfold State.rangerTrap
  dsimp only
  split
  · exact h.modCore rangerId (f := fun x => { x with halted := true }) fun _ => ⟨rfl, rfl⟩
  · unfold Halts
    rw [State.withCore_core]
    exact h

end

end Sys2Proof.Machine
end

section
set_option Elab.async false
/-! The interval of a sequencer (R222, R224, R411, R415, R419): confirmation, the anchor token, replay and the limit of a stall. -/
namespace Sys2Proof.Machine

/-! ### Stores that a confirmation releases (R207, R222) -/

/-- The marked bytes of a run written, each at its place. -/
theorem cellAt_cellsPut_marked {m : List Host.Cell} (hm : cellsWf m = true) (base : Nat) (p : Nat → Bool) (f : Nat → Byte) (is : List Nat) (hnd : is.Nodup)
    (a : Nat) :
    cellAt (cellsPut m (is.filterMap fun i => if p i then some (base + i, f i) else none)) a =
      if base ≤ a ∧ a - base ∈ is ∧ p (a - base) = true then f (a - base) else cellAt m a := by
  induction is generalizing m with
  | nil => exact (if_neg fun h => List.not_mem_nil h.2.1).symm
  | cons i is ih =>
    obtain ⟨hi, hnd⟩ := List.nodup_cons.1 hnd
    by_cases hp : p i = true
    · have hcons : ((i :: is).filterMap fun i => if p i then some (base + i, f i) else none) =
          (base + i, f i) :: is.filterMap fun i => if p i then some (base + i, f i) else none :=
        List.filterMap_cons_some (if_pos hp)
      rw [hcons, cellsPut, ih (cellsWf_cellSet hm _ _) hnd, cellAt_cellSet hm]
      by_cases ha : a = base + i
      · subst ha
        have hsub : base + i - base = i := Nat.add_sub_cancel_left ..
        rw [hsub, if_neg (fun h => hi h.2.1), if_pos rfl, if_pos ⟨Nat.le_add_right .., List.mem_cons_self .., hp⟩]
      · rw [if_neg ha]
        refine if_congr (and_congr_right fun hle => and_congr_left fun _ => ?_) rfl rfl
        rw [List.mem_cons]
        exact ⟨.inr, fun h => h.resolve_left fun e => ha (by omega)⟩
    · have hcons : ((i :: is).filterMap fun i => if p i then some (base + i, f i) else none) =
          is.filterMap fun i => if p i then some (base + i, f i) else none :=
        List.filterMap_cons_none (if_neg hp)
      rw [hcons, ih hm hnd]
      refine if_congr (and_congr_right fun _ => ?_) rfl rfl
      rw [List.mem_cons]
      refine ⟨fun h => ⟨.inr h.1, h.2⟩, fun h => ⟨h.1.resolve_left fun e => hp ?_, h.2⟩⟩
      rw [← e]
      exact h.2

theorem cellAt_cellsPut_line {m : List Host.Cell} (hm : cellsWf m = true) (w : WLine) (a : Nat) :
    cellAt (cellsPut m w.cells) a =
      if w.pa = a / 64 ∧ w.mask.getLsbD (a % 64) = true then BitVec.ofNat 8 (fld w.data (8 * (a % 64)) 8) else cellAt m a := by
  unfold WLine.cells
  rw [cellAt_cellsPut_marked hm (w.pa * 64) (fun i => w.mask.getLsbD i) (fun i => BitVec.ofNat 8 (fld w.data (8 * i) 8)) (upFrom 0 64) (upFrom_nodup 0 64) a]
  by_cases ha : w.pa = a / 64
  · have hsub : a - w.pa * 64 = a % 64 := by omega
    have hle : w.pa * 64 ≤ a := by omega
    rw [hsub]
    refine if_congr ?_ rfl rfl
    rw [mem_upFrom_zero]
    exact ⟨fun h => ⟨ha, h.2.2⟩, fun h => ⟨hle, Nat.mod_lt _ (by decide), h.2⟩⟩
  · rw [if_neg (c := w.pa = a / 64 ∧ w.mask.getLsbD (a % 64) = true) fun h => ha h.1, if_neg]
    rintro ⟨hle, hlt, -⟩
    rw [mem_upFrom_zero] at hlt
    omega

theorem renew_spec (s : State) (t : Word) (rs : List (Nat × Word)) : ∃ ts, s.renew t rs = s.withHub { s.hub with ts := ts } := by
  induction rs generalizing s with
  | nil => exact ⟨s.hub.ts, rfl⟩
  | cons r rs ih =>
    obtain ⟨ts, h⟩ := ih (s.setTs r.1 { s.tsAt r.1 with rts := wmax (s.tsAt r.1).rts t })
    exact ⟨ts, h⟩

/-- A commit stores the bytes of its lines, and changes no sequencer (R222). -/
theorem commit_spec (ws : List WLine) (s : State) (stack : Nat) (t : Word) (hwf : cellsWf s.mem = true) (hnd : (ws.map WLine.pa).Nodup) :
    let u := s.commit stack t ws
    u.core = s.core ∧ u.cur = s.cur ∧ ∀ a, cellAt u.mem a = storedByte ws s.mem a := by
  induction ws generalizing s with
  | nil => exact ⟨rfl, rfl, fun _ => rfl⟩
  | cons w ws ih =>
    obtain ⟨hw, hnd⟩ := List.nodup_cons.1 hnd
    obtain ⟨n, hn⟩ : ∃ n, s.touch (s.coherentFor s.cur (w.pa * 64)) (w.pa * 64) stack true t = n := ⟨_, rfl⟩
    have hcore : n.core = s.core := by rw [← hn]; exact touch_core ..
    obtain ⟨hmem, hcur, -, -⟩ : calm s n := by rw [← hn]; exact calm_touch ..
    let v : State := (n.setTs w.pa { wts := t, rts := t }).putCells w.cells
    have hvmem : v.mem = cellsPut s.mem w.cells := congrArg (fun m => cellsPut m w.cells) hmem
    obtain ⟨k1, k2, k3⟩ := ih v (by rw [hvmem]; exact cellsWf_cellsPut hwf _) hnd
    have hgo : s.commit stack t (w :: ws) = v.commit stack t ws := by subst hn; rfl
    intro u
    rw [show u = _ from hgo]
    refine ⟨k1.trans hcore, k2.trans hcur, fun a => (k3 a).trans ?_⟩
    have hbyte := cellAt_cellsPut_line hwf w a
    rw [← hvmem] at hbyte
    unfold storedByte
    rw [List.find?_cons]
    by_cases ha : w.pa = a / 64
    · have hnone : (ws.find? fun w => decide (w.pa = a / 64)) = none := by
        rw [List.find?_eq_none]
        intro x hx e
        refine hw (List.mem_map.2 ⟨x, hx, ?_⟩)
        rw [of_decide_eq_true e, ha]
      rw [hnone, decide_eq_true ha, hbyte]
      dsimp only
      by_cases hb : w.mask.getLsbD (a % 64) = true
      · rw [if_pos ⟨ha, hb⟩, if_pos hb]
      · rw [if_neg fun h => hb h.2, if_neg hb]
    · rw [decide_eq_false ha, hbyte, if_neg fun h => ha h.1]

/-- A release stores the bytes of the withheld lines; it leaves the registers and what is withheld no more (R222). -/
theorem release_spec {s : State} (hwf : Memory.wf s.mem = true) (hnd : (s.core.withheld.map WLine.pa).Nodup) :
    let u := s.release
    u.core.arch = s.core.arch ∧ u.core.withheld = [] ∧ ∀ a, cellAt u.mem a = storedByte s.core.withheld s.mem a := by
  intro u
  cases hw : s.core.withheld with
  | nil =>
    have hgo : u = s := if_pos (by rw [hw]; rfl)
    rw [hgo]
    exact ⟨rfl, hw, fun _ => rfl⟩
  | cons w ws =>
    rw [← hw]
    obtain ⟨ts, hts⟩ := renew_spec s (s.commitTime s.core.pts s.core.withheld) s.core.reads
    obtain ⟨k1, -, k3⟩ := commit_spec s.core.withheld (s.withHub { s.hub with ts := ts }) (agentStack s.cur) (s.commitTime s.core.pts s.core.withheld) hwf hnd
    have hgo : ∃ (p : Spad) (v : State), v = (s.withHub { s.hub with ts := ts }).commit (agentStack s.cur) (s.commitTime s.core.pts s.core.withheld) s.core.withheld ∧
        u = v.withCore { v.core with pts := s.commitTime s.core.pts s.core.withheld, withheld := [], saved := [], firstStore := false, reads := [], pad := p } := by
      refine ⟨(s.core.withheld.map fun w => (w, s.tsAt w.pa)).foldl (fun p c => p.merge s.core.decl (s.commitTime s.core.pts s.core.withheld) c)
        ((s.withHub { s.hub with ts := ts }).commit (agentStack s.cur) (s.commitTime s.core.pts s.core.withheld) s.core.withheld).core.pad, _, rfl, ?_⟩
      rw [← hts]
      exact if_neg (by rw [hw]; exact Bool.false_ne_true)
    obtain ⟨p, v, hv, hu⟩ := hgo
    rw [← hv] at k1 k3
    rw [hu]
    refine ⟨?_, rfl, k3⟩
    show v.core.arch = s.core.arch
    rw [k1]
    rfl

/-! ### Confirmation (R411) -/

theorem onCore_cur (s : State) (f : State → State) : s.onCore s.cur f = f s := congrArg f (if_pos rfl)

theorem dropAnchor_spec (s : State) (c : Nat) : ∃ A xs, s.dropAnchor c = { s with hub := { s.hub with anchor := A }, due := s.due ++ xs } := by
  unfold State.dropAnchor
  split
  · split
    · exact ⟨_, _, rfl⟩
    · exact ⟨s.hub.anchor, [], by rw [List.append_nil]⟩
  · exact ⟨s.hub.anchor, [], by rw [List.append_nil]⟩

theorem confirm_does {s : State} (hphase : s.core.phase = .begun) (hck : bitAt s.core.header 31 = true) (hloads : NoLoads s)
    (hxl : s.core.xlinvHit = false) (hheld : s.heldOff = false) (hrenew : s.renewable s.core.reads = true)
    (hnd : (s.core.withheld.map WLine.pa).Nodup) (hwf : Memory.wf s.mem = true) :
    ∃ t, Does (.checkpointConfirm s.cur) s t ∧ t.core.arch = s.core.arch ∧ t.core.shadow = s.core.arch ∧ t.core.withheld = [] ∧ t.core.done = 0#3 ∧
      t.core.sinceCk = 0 ∧ ∀ a, cellAt t.mem a = storedByte s.core.withheld s.mem a := by
  let s1 : State := { s with act := some (.checkpointConfirm s.cur) }
  obtain ⟨k1, -, k3⟩ := release_spec (s := s1) hwf hnd
  obtain ⟨v, hv⟩ : ∃ v, s1.release = v := ⟨_, rfl⟩
  rw [hv] at k1 k3
  obtain ⟨A, xs, hw⟩ := dropAnchor_spec v s1.cur
  obtain ⟨w, hwv⟩ : ∃ w : State, v.dropAnchor s1.cur = w := ⟨_, rfl⟩
  have hwcore : w.core = v.core := by rw [← hwv, hw]
  have hwmem : w.mem = v.mem := by rw [← hwv, hw]
  have hfill : s1.fillLoads s1.cur 128 = s1 := fillLoads_none (by rw [State.coreAt_cur]; exact hloads) 128
  have hmade : s1.confirm = .made ((w.takeBounds.withCore { w.takeBounds.core.checkpoint with anchored := false }).startGets) := by
    unfold State.confirm
    rw [hfill, ← hwv, ← hv]
    dsimp only
    rw [if_neg (show ¬ s1.core.xlinvHit = true from Bool.eq_false_iff.1 hxl), if_neg (show ¬ s1.heldOff = true from Bool.eq_false_iff.1 hheld),
      show s1.renewable s1.core.reads = true from hrenew, Bool.not_true, Bool.and_false]
    exact if_neg Bool.false_ne_true
  have hrun : Does (.checkpointConfirm s.cur) s ((w.takeBounds.withCore { w.takeBounds.core.checkpoint with anchored := false }).startGets) := by
    refine congrArg Host.Outcome.next ((onCore_cur s1 _).trans ((if_pos ⟨hphase, hck⟩).trans ?_))
    rw [hmade]
  refine ⟨_, hrun, ?_, ?_, rfl, rfl, rfl, fun a => ?_⟩
  · exact (congrArg Core.arch hwcore).trans k1
  · exact (congrArg Core.arch hwcore).trans k1
  · show cellAt w.mem a = _
    rw [hwmem]
    exact k3 a

/-! ### The anchor token (R224) -/

theorem anchorGrant_does {s : State} {c n : Nat} {rest : List Nat} (hfree : s.hub.anchor = none) (hq : s.hub.anchorQ = n :: rest) (hc : c ∈ n :: rest)
    (hwant : ∀ m ∈ n :: rest, (s.coreAt m).wantsAnchor = true) :
    ∃ t, Does (.anchorTokenGrant c) s t ∧ t.hub.anchor = some (n, s.time, []) ∧ t.hub.anchorQ = rest ∧ (t.coreAt n).anchored = true ∧
      Action.anchorHoldExpiry n ∈ t.due := by
  let s1 : State := { s with act := some (.anchorTokenGrant c) }
  let h : Hub := { s.hub with anchor := some (n, s.time, []), anchorQ := rest }
  have hall : ((n :: rest).filter fun m => (s1.coreAt m).wantsAnchor) = n :: rest := List.filter_eq_self.2 hwant
  have hrun : Does (.anchorTokenGrant c) s (((s1.withHub h).modCore n fun x => { x with anchored := true }).addDue [.anchorHoldExpiry n]) := by
    refine congrArg Host.Outcome.next ?_
    unfold State.grantAnchor
    rw [if_pos (show s1.hub.anchorQ.contains c = true by rw [show s1.hub.anchorQ = n :: rest from hq]; exact List.contains_iff_mem.2 hc),
      show s1.hub.anchorQ = n :: rest from hq, show s1.hub.anchor = none from hfree]
    dsimp only
    rw [hall] <;> rfl
  have hhub : ((s1.withHub h).modCore n fun x => { x with anchored := true }).hub = h := State.setCore_hub ..
  refine ⟨_, hrun, congrArg Hub.anchor hhub, congrArg Hub.anchorQ hhub, ?_, List.mem_append_right _ (List.mem_singleton_self _)⟩
  show (((s1.withHub h).modCore n fun x => { x with anchored := true }).coreAt n).anchored = true
  unfold State.modCore
  rw [State.coreAt_setCore_of_ne (fun e => by cases congrArg Core.anchored e), if_pos rfl]

theorem anchorExpiry_does {s : State} {c g : Nat} {ls : List Nat} (ha : s.hub.anchor = some (c, g, ls)) :
    ∃ t, Does (.anchorHoldExpiry c) s t ∧ t.core = s.core ∧ t.mem = s.mem ∧
      if g + 16384 ≤ s.time then t.hub.anchor = none else t.hub.anchor = some (c, g, ls) ∧ Action.anchorHoldExpiry c ∈ t.due := by
  let s1 : State := { s with act := some (.anchorHoldExpiry c) }
  have hexec : execAnchorHoldExpiry s1 = if g + 16384 ≤ s.time then .next (s1.dropAnchor c) else .next (s1.addDue [.anchorHoldExpiry c]) := by
    unfold execAnchorHoldExpiry
    show (match s1.hub.anchor with | some (o, g, _) => _ | none => _) = _
    rw [show s1.hub.anchor = some (c, g, ls) from ha]
    exact if_neg (not_not_intro rfl)
  by_cases hg : g + 16384 ≤ s.time
  · rw [if_pos hg] at hexec
    simp only [if_pos hg]
    refine ⟨_, hexec, ?_⟩
    unfold State.dropAnchor
    rw [show s1.hub.anchor = some (c, g, ls) from ha]
    dsimp only
    rw [if_pos rfl]
    exact ⟨rfl, rfl, rfl⟩
  · rw [if_neg hg] at hexec
    simp only [if_neg hg]
    exact ⟨_, hexec, rfl, rfl, ha, List.mem_append_right _ (List.mem_singleton_self _)⟩

/-! ### Replay (R364, R415) -/

/-- Stores as a checkpoint has them keep their lines, whatever their pages are now. -/
theorem retranslate_spec {s t : State} {c : Nat} {ws vs : List WLine} (h : s.retranslate c ws = .ok (vs, t)) :
    CachesOnly s t ∧ vs.map (fun w => (w.va, w.data, w.mask)) = ws.map fun w => (w.va, w.data, w.mask) := by
  induction ws generalizing s vs with
  | nil => cases h; exact ⟨.refl _, rfl⟩
  | cons w ws ih =>
    unfold State.retranslate at h
    dsimp only at h
    split at h
    · cases h
    · next pa s1 ha =>
      split at h
      · next vs' u hr =>
        cases h
        obtain ⟨h1, h2⟩ := ih hr
        exact ⟨(cachesOnly_access ha).trans h1, by rw [List.map_cons, List.map_cons, h2]⟩
      · cases h

/-- What a sequencer keeps of its stores: nothing else of it changes but its translation cache. -/
theorem keepStores_spec (s : State) (ws : List WLine) :
    let t := s.keepStores s.cur ws
    t.cur = s.cur ∧ t.core.arch = s.core.arch ∧ t.core.shadow = s.core.shadow ∧ t.core.phase = s.core.phase ∧ t.core.latches = s.core.latches ∧
      t.core.flights = s.core.flights ∧ t.core.unit = s.core.unit ∧ t.mem = s.mem ∧ t.core.q = s.core.q ∧
      (t.core.withheld = s.core.withheld ∨ t.core.withheld.map (fun w => (w.va, w.data, w.mask)) = ws.map fun w => (w.va, w.data, w.mask)) := by
  unfold State.keepStores
  dsimp only
  split
  · next vs u hr =>
    obtain ⟨⟨L, U, O, D, W, E, hu⟩, hmap⟩ := retranslate_spec hr
    have hcur : u.cur = s.cur := by rw [hu]; rfl
    have hmod : (u.modCore s.cur fun x => { x with withheld := vs, saved := vs, firstStore := !vs.isEmpty }) =
        { u with core := { u.core with withheld := vs, saved := vs, firstStore := !vs.isEmpty } } := by
      unfold State.modCore State.setCore State.coreAt
      rw [if_pos hcur.symm, if_pos hcur.symm]
    rw [hmod, hu]
    exact ⟨rfl, rfl, rfl, rfl, rfl, rfl, rfl, rfl, rfl, .inr hmap⟩
  · next k u _ _ =>
    have hsame (f : Uni → Uni) : (s.modUnit u f).core = s.core ∧ (s.modUnit u f).cur = s.cur ∧ (s.modUnit u f).mem = s.mem := by
      unfold State.modUnit
      split <;> exact ⟨rfl, rfl, rfl⟩
    obtain ⟨h1, h2, h3⟩ := hsame fun z => { z with argFault := some k }
    rw [h1]
    exact ⟨h2, rfl, rfl, rfl, rfl, rfl, rfl, h3, rfl, .inl rfl⟩
  · exact ⟨rfl, rfl, rfl, rfl, rfl, rfl, rfl, rfl, rfl, .inl rfl⟩

/-- A rollback leaves the sequencer as its checkpoint had it, but for its scratchpad and its weak times. -/
theorem rollback_spec (s : State) : ∃ D W, s.rollback.cur = s.cur ∧ s.rollback.core = Core.rollback { s.core with pad := D, weak := W } := by
  have after (v : State) (D : Spad) (W : Vector Word 8) (h1 : v.cur = s.cur) (h2 : v.core = { s.core with pad := D, weak := W }) :
      let t := (v.dropGets v.cur).dropAnchor v.cur
      (t.withCore t.core.rollback).cur = s.cur ∧ (t.withCore t.core.rollback).core = Core.rollback { s.core with pad := D, weak := W } := by
    obtain ⟨A, xs, hd⟩ := dropAnchor_spec (v.dropGets v.cur) v.cur
    dsimp only
    rw [hd]
    refine ⟨h1, ?_⟩
    rw [← h2]
    rfl
  unfold State.rollback
  cases hu : s.core.unit with
  | none => exact ⟨_, _, after s s.core.pad s.core.weak rfl rfl⟩
  | some u =>
    obtain ⟨⟨D, W, _, _, _, _, e⟩, -⟩ := writeBackOnly_writeBack s u 0xFF#8 (s.padOf u).lines
    exact ⟨D, W, after (s.writeBackAll u) D W (by unfold State.writeBackAll; rw [e]) (by unfold State.writeBackAll; rw [e])⟩

theorem count_core (s : State) (k : Cause) (src n : Nat) : (s.count k src n).core = s.core := by
  unfold State.count
  dsimp only
  split <;> rfl

theorem replay_does {s : State} {u : Nat} {k : Cause} (v : Word) (hu : s.core.unit = some u) (hk : k = .leaseConflict ∨ k = .xlinvReplay) :
    ∃ t, Does (.rollback s.cur k v) s t ∧ t.core.arch = { s.core.shadow with snapOk := Vector.replicate 16 false } ∧ t.core.phase = .left ∧
      t.core.latches = Vector.replicate 8 none ∧ t.core.flights = s.core.carry.map (fun f => { f with latch := none }) ∧
      t.core.withheld.map (fun w => (w.va, w.data, w.mask)) = s.core.saved.map (fun w => (w.va, w.data, w.mask)) ∧ t.core.unit = some u := by
  let s1 : State := { s with act := some (.rollback s.cur k v) }
  have hrun : Does (.rollback s.cur k v) s (s1.replay k) := by
    refine congrArg Host.Outcome.next ((onCore_cur s1 _).trans ((if_neg fun h => ?_).trans (if_pos hk)))
    rw [show s1.core.unit = some u from hu] at h
    cases h.1
  refine ⟨_, hrun, ?_⟩
  obtain ⟨D, W, hcur, hcore⟩ := rollback_spec s1
  obtain ⟨r, hr⟩ : ∃ r, s1.rollback = r := ⟨_, rfl⟩
  rw [hr] at hcur hcore
  obtain ⟨-, k2, -, k4, k5, k6, k7, -, -, k9⟩ := keepStores_spec r s1.core.saved
  rw [hcur] at k2 k4 k5 k6 k7 k9
  obtain ⟨n, m, hgo⟩ : ∃ n m, s1.replay k = ((((r.keepStores s1.cur s1.core.saved).withCore
      { (r.keepStores s1.cur s1.core.saved).core with conflicts := n, raised := some (k, 0#64) }).addDue m).count k (if s1.cur = rangerId then 6 else 0)
        (if s1.cur = rangerId then 0 else s1.cur)) := ⟨_, _, by rw [← hr]; rfl⟩
  rw [hgo, count_core]
  refine ⟨k2.trans ?_, k4.trans ?_, k5.trans ?_, k6.trans ?_, ?_, k7.trans ?_⟩
  · rw [hcore]; rfl
  · rw [hcore]; rfl
  · rw [hcore]; rfl
  · rw [hcore]; rfl
  · rcases k9 with e | e
    · refine (congrArg (List.map fun w : WLine => (w.va, w.data, w.mask)) e).trans ?_
      rw [hcore]
      rfl
    · exact e
  · rw [hcore]
    exact hu

/-! ### The limit of a stall (R419) -/

theorem takeTrap_halts {s : State} {i : TrapInfo} (hi : i.cause ≠ .eccUncorrected) : Halts (some (i.cause, i.addr)) (s.takeTrap i) := by
  obtain ⟨D, W, -, hcore⟩ := rollback_spec s
  have h2 : Halts (some (i.cause, i.addr)) (s.rollback.withCore { s.rollback.core with raised := some (i.cause, i.addr) }) := by
    refine ⟨?_, rfl⟩
    show s.rollback.core.phase = .left
    rw [hcore]
    rfl
  unfold State.takeTrap
  rw [if_neg hi]
  dsimp only
  split
  · exact h2.rangerTrap i
  · split
    · exact h2.endRunning _ false true
    · exact h2.coreTrap i

theorem stallLimit_does {s : State} {n : Nat} (hstall : s.core.stallFrom = some n) (hq : bitAt s.core.header 30 = false)
    (hcancel : s.cancelling s.core.hold = false) (hpre : s.core.preempt.isSome = true) :
    ∃ t, Does (.qboundStallLimit s.cur) s t ∧
      if s.time < n + 64 * s.core.qBound then t.core = s.core ∧ t.mem = s.mem ∧ Action.qboundStallLimit s.cur ∈ t.due
      else t.core.phase = .left ∧ t.core.raised = some (.qboundOver, 0#64) := by
  let s1 : State := { s with act := some (.qboundStallLimit s.cur) }
  let i : TrapInfo := { cause := .qboundOver, mask := 1#12, faultb := s1.core.arch.pc, header := s1.core.header }
  have hrun : Does (.qboundStallLimit s.cur) s
      (if s.time < n + 64 * s.core.qBound then s1.addDue [.qboundStallLimit s.cur] else s1.takeTrap i) := by
    refine congrArg Host.Outcome.next ((onCore_cur s1 _).trans ?_)
    dsimp only
    rw [show s1.core.stallFrom = some n from hstall, show bitAt s1.core.header 30 = false from hq, show s1.cancelling s1.core.hold = false from hcancel,
      show s1.leaves = true by unfold State.leaves; rw [show s1.core.preempt.isSome = true from hpre, Bool.or_true]]
    rfl
  refine ⟨_, hrun, ?_⟩
  split
  · exact ⟨rfl, rfl, List.mem_append_right _ (List.mem_singleton_self _)⟩
  · exact takeTrap_halts (s := s1) (i := i) nofun

end Sys2Proof.Machine
end

section
set_option Elab.async false
/-! Pre-emption and resumption (R284, R309, R341, R420 to R424). -/
namespace Sys2Proof.Machine

/-! ### Circuits at a pre-emption (R339, R341) -/

/-- Only the engines of sequencers and the packets sent differ. -/
def Parted (s t : State) : Prop :=
  ∃ C X G W O F xs, t = { s with core := { s.core with chans := C, six := X, gl := G, weak := W }, others := O, fabric := F, due := xs }

theorem Parted.refl (s : State) : Parted s s := ⟨_, _, _, _, _, _, _, rfl⟩

theorem Parted.trans {s t v : State} (h : Parted s t) (k : Parted t v) : Parted s v := by
  obtain ⟨_, _, _, _, _, _, _, rfl⟩ := h
  obtain ⟨C, X, G, W, O, F, xs, rfl⟩ := k
  exact ⟨C, X, G, W, O, F, xs, rfl⟩

theorem Parted.hub {s t : State} (h : Parted s t) : t.hub = s.hub := by obtain ⟨_, _, _, _, _, _, _, rfl⟩ := h; rfl

theorem parted_running {s : State} {u c : Nat} (h : s.runsOn u = some c) (f : Engines → Engines) : Parted s (s.modEng u f) := by
  unfold State.modEng
  rw [h]
  dsimp only
  unfold State.modCore State.setCore State.coreAt
  split
  · exact ⟨_, _, _, _, _, _, _, rfl⟩
  · exact ⟨_, _, _, _, _, _, _, rfl⟩

theorem vget_mem {α : Type} {n : Nat} (d : α) (v : Vector α n) {i : Nat} (hi : i < n) : vget d v i ∈ v.toList := by
  unfold vget
  rw [dif_pos hi]
  exact Vector.mem_toList_iff.2 (Vector.getElem_mem hi)

/-- Where no circuit lands in a unit's rows, none of a unit off its core does. -/
theorem parted_endLandingsOf {s z : State} {d : Nat} (hz : Parted s z) (hnone : s.circuitsInto d = false) (v : Nat) : Parted z (z.endLandingsOf d v) := by
  unfold State.endLandingsOf
  dsimp only
  split
  · exact .refl z
  · next hsome =>
    cases hrun : z.runsOn v with
    | some c => exact (parted_running hrun _).trans ⟨_, _, _, _, _, _, _, rfl⟩
    | none =>
      exfalso
      refine hsome ?_
      rw [List.isEmpty_iff, List.filter_eq_nil_iff]
      intro h hh hland
      rw [mem_upFrom_zero] at hh
      have heng : z.engOf v = ((z.unitAt v).map Uni.eng).getD {} := by unfold State.engOf; rw [hrun]
      cases hv : z.unitAt v with
      | none =>
        rw [heng, hv] at hland
        simp only [Option.map_none, Option.getD_none, Bool.and_eq_true, decide_eq_true_eq] at hland
        have hdef : (vget ({} : GlHandle) ({} : Engines).gl h).dest = none := by
          unfold vget
          rw [dif_pos hh]
          exact congrArg GlHandle.dest (Vector.getElem_replicate hh)
        rw [hdef] at hland
        cases hland.1.1.1
      | some y =>
        rw [heng, hv] at hland
        have hmem : (v, y) ∈ s.hub.units := by
          refine mem_of_find ?_
          rw [← hz.hub]
          exact hv
        simp only [Option.map_some, Option.getD_some, Bool.and_eq_true, decide_eq_true_eq, Bool.not_eq_true'] at hland
        unfold State.circuitsInto at hnone
        rw [Bool.or_eq_false_iff, List.any_eq_false] at hnone
        refine hnone.1 (v, y) hmem ?_
        rw [Bool.or_eq_true]
        refine .inl (List.any_eq_true.2 ⟨_, vget_mem {} y.eng.gl hh, ?_⟩)
        rw [decide_eq_true hland.1.1.1, hland.1.2]
        rfl

theorem parted_stopIncoming (d : Nat) (gs : List (Nat × GlIn)) (s : State) : Parted s (s.stopIncoming d gs) := by
  induction gs generalizing s with
  | nil => exact .refl s
  | cons g gs ih =>
    obtain ⟨k, g⟩ := g
    unfold State.stopIncoming
    split
    · refine Parted.trans ?_ (ih _)
      exact ⟨_, _, _, _, _, _, _, rfl⟩
    · exact ih s

/-- The circuits of a unit that leaves its core end, and it keeps everything else (R339, R421). -/
theorem parted_preemptCircuits {s : State} {u c : Nat} (hrun : s.runsOn u = some c) (hnone : s.circuitsInto u = false) : Parted s (s.preemptCircuits u) := by
  have each (vs : List Nat) (z : State) (hz : Parted s z) : Parted s (z.each (fun s v => s.endLandingsOf u v) vs) := by
    induction vs generalizing z with
    | nil => exact hz
    | cons v vs ih => exact ih _ (hz.trans (parted_endLandingsOf hz hnone v))
  have h1 := parted_running hrun fun e => { e with gl := vmap (fun h => if h.over then h else h.finish .preempted s.time) e.gl }
  unfold State.preemptCircuits State.endLandings
  dsimp only
  refine Parted.trans (each _ _ (h1.trans ?_)) (parted_stopIncoming ..)
  exact ⟨_, _, _, _, _, _, _, rfl⟩

theorem circuitsInto_congr {s t : State} (hu : t.hub.units = s.hub.units) (hin : t.fabric = s.fabric)
    (hc : ∀ c, (t.coreAt c).unit = (s.coreAt c).unit ∧ (t.coreAt c).gl = (s.coreAt c).gl) (u : Nat) : t.circuitsInto u = s.circuitsInto u := by
  unfold State.circuitsInto
  simp only [hu, hin, fun c => (hc c).1, fun c => (hc c).2]

/-- Raw stores that land change bytes of the scratchpad alone (R242). -/
theorem landRaw_spec (x : Core) : ∃ B, x.landRaw = { x with pad := { x.pad with bytes := B } } := by
  have fold (fs : List Flight) (y : Core) (h : ∃ B, y = { x with pad := { x.pad with bytes := B } }) :
      ∃ B, (fs.foldl (fun y f => match f.dest with
        | .raw cs => { y with pad := { y.pad with bytes := cellsPut y.pad.bytes cs } }
        | .none | .s _ | .v _ | .m _ | .p _ | .queue _ | .latchV _ => y) y) = { x with pad := { x.pad with bytes := B } } := by
    induction fs generalizing y with
    | nil => exact h
    | cons f fs ih =>
      refine ih _ ?_
      obtain ⟨B, rfl⟩ := h
      dsimp only
      split
      · next cs _ => exact ⟨cellsPut B cs, rfl⟩
      all_goals exact ⟨B, rfl⟩
  exact fold x.flights x ⟨x.pad.bytes, rfl⟩

/-! ### A context saved (R421, R422) -/

/-- Only memory, what the hub keeps of lines and regions, and what is due differ. -/
def Saves (s t : State) : Prop := ∃ m ts R xs, t = { s with mem := m, hub := { s.hub with ts := ts, regions := R }, due := xs }

theorem Saves.refl (s : State) : Saves s s := ⟨_, _, _, _, rfl⟩

theorem Saves.trans {s t v : State} (h : Saves s t) (k : Saves t v) : Saves s v := by
  obtain ⟨_, _, _, _, rfl⟩ := h
  obtain ⟨m, ts, R, xs, rfl⟩ := k
  exact ⟨m, ts, R, xs, rfl⟩

theorem Written.saves {s t : State} (h : Written s t) : Saves s t := by
  obtain ⟨m, ts, rfl⟩ := h
  exact ⟨m, ts, _, _, rfl⟩

theorem saves_slotWrite (s : State) (ps : List Nat) (off n v : Nat) : Saves s (s.slotWrite ps off n v) := by
  unfold State.slotWrite
  dsimp only
  split
  · exact (written_weakNat ..).saves
  · exact (written_weakNat ..).saves.trans (written_weakNat ..).saves

theorem saves_slotWriteAll (ps : List Nat) (xs : List (Nat × Nat × Nat)) (s : State) : Saves s (s.slotWriteAll ps xs) := by
  induction xs generalizing s with
  | nil => exact .refl s
  | cons x xs ih => exact (saves_slotWrite s ps x.1 x.2.1 x.2.2).trans (ih _)

theorem touch_spec (s : State) (b : Bool) (pa k : Nat) (w : Bool) (t : Word) : ∃ R xs, s.touch b pa k w t = { s with hub := { s.hub with regions := R }, due := xs } := by
  unfold State.touch
  dsimp only
  split
  · exact ⟨_, _, rfl⟩
  · split <;> exact ⟨_, _, rfl⟩

/-- A slot reached changes regions alone (R212). -/
theorem touchSlot_spec (p k : Nat) (base : Word) (w : Bool) (i n : Nat) (s : State) :
    ∃ R xs, s.touchSlot p k base w i n = { s with hub := { s.hub with regions := R }, due := xs } := by
  induction n generalizing s i with
  | zero => exact ⟨_, _, rfl⟩
  | succ n ih =>
    unfold State.touchSlot
    dsimp only
    split
    · obtain ⟨R, xs, e⟩ := touch_spec s _ _ k w 0#64
      rw [e]
      obtain ⟨R', ys, e'⟩ := ih (i + 1) { s with hub := { s.hub with regions := R }, due := xs }
      exact ⟨R', ys, e'⟩
    · exact ih (i + 1) s

/-- A unit saved and off its core: the core is vacated, and the unit suspended with its scratchpad. -/
theorem suspend_spec {s : State} {u : Nat} {y : Uni} {ps : List Nat} (hu : s.core.unit = some u) (hy : s.unitAt u = some y)
    (hps : s.slotPages s.core.part (stackOf s.cur) y.evac 0 6 = .ok ps) (kind : CtxKind) (k : Taken) :
    ∃ t z ck qb mode, s.suspend s.cur kind k = .ok t ∧ t.cur = s.cur ∧ t.core = s.core.vacated ck qb mode ∧ t.unitAt u = some z ∧ z.ctx = some kind ∧
      z.pad = s.core.pad := by
  obtain ⟨v, hv⟩ : ∃ v, (s.slotWriteAll ps (k.pieces kind s.core.hold s.core.pts s.core.pad s.core.engines s.time)).touchSlot s.core.part (stackOf s.cur) y.evac
    true 0 6 = v := ⟨_, rfl⟩
  have hsaves : Saves s v := by
    obtain ⟨R, xs, e⟩ := touchSlot_spec s.core.part (stackOf s.cur) y.evac true 0 6
      (s.slotWriteAll ps (k.pieces kind s.core.hold s.core.pts s.core.pad s.core.engines s.time))
    rw [hv] at e
    rw [e]
    exact (saves_slotWriteAll ps _ s).trans ⟨_, _, _, _, rfl⟩
  have hcur : v.cur = s.cur := by obtain ⟨_, _, _, _, e⟩ := hsaves; rw [e]
  have hcore : v.core = s.core := by obtain ⟨_, _, _, _, e⟩ := hsaves; rw [e]
  have hat : v.unitAt u = some y := by obtain ⟨_, _, _, _, e⟩ := hsaves; rw [e]; exact hy
  let f : Uni → Uni := fun z => { z with pad := s.core.pad, eng := s.core.engines, hold := s.core.hold, pts := s.core.pts, trees := s.core.joined }
  obtain ⟨sv, hgo⟩ : ∃ sv, s.suspend s.cur kind k = .ok ((((v.modUnit u f).setCore s.cur
      (s.core.vacated (vget 4096 v.hub.ckBound s.core.part) (vget 8192 v.hub.qBound s.core.part) v.hub.mode)).addDue
        [.unitAdmit s.cur, .unitStart s.cur]).modUnit u fun z => { z with st := .suspended, ctx := some kind, saved := sv, skipK := false }) := by
    refine ⟨?sv, ?eq⟩
    case eq =>
      unfold State.suspend
      dsimp only
      rw [State.coreAt_cur, hu]
      dsimp only
      rw [hy]
      dsimp only
      rw [hps]
      dsimp only
      rw [hv]
      unfold State.detach
      dsimp only
      rw [State.coreAt_of_cur hcur.symm, hcore, hu] <;> rfl
  have h1 := unitAt_modUnit_same hat f
  obtain ⟨a, ha⟩ : ∃ a, v.modUnit u f = a := ⟨_, rfl⟩
  have hacur : a.cur = s.cur := by rw [← ha, ← hcur]; unfold State.modUnit; split <;> rfl
  rw [ha] at h1 hgo
  let x := s.core.vacated (vget 4096 v.hub.ckBound s.core.part) (vget 8192 v.hub.qBound s.core.part) v.hub.mode
  have hset : a.setCore s.cur x = { a with core := x } := by
    unfold State.setCore
    exact if_pos hacur.symm
  have h2 := unitAt_modUnit_same (s := ({ a with core := x } : State).addDue [.unitAdmit s.cur, .unitStart s.cur]) h1
    fun z => { z with st := .suspended, ctx := some kind, saved := sv, skipK := false }
  rw [hset] at hgo
  refine ⟨_, _, vget 4096 v.hub.ckBound s.core.part, vget 8192 v.hub.qBound s.core.part, v.hub.mode, hgo, ?_, ?_, h2, rfl, rfl⟩
  · unfold State.modUnit
    split <;> exact hacur
  · unfold State.modUnit
    split <;> rfl

end Sys2Proof.Machine
end

section
set_option Elab.async false
/-! The pre-emption of a unit at a Q bundle (R420, R421). -/
namespace Sys2Proof.Machine

/-! ### Translation does not look at the anchor token -/

theorem walkFrom_anchor (s : State) (A : Option (Nat × Nat × List Nat)) (p va lvl a : Nat) :
    ({ s with hub := { s.hub with anchor := A } } : State).walkFrom p va lvl a = s.walkFrom p va lvl a := by
  induction lvl generalizing a with
  | zero => rfl
  | succ lvl ih =>
    unfold State.walkFrom
    rw [show ({ s with hub := { s.hub with anchor := A } } : State).walkStep p va a (lvl + 1) = s.walkStep p va a (lvl + 1) from rfl]
    split
    · rfl
    · exact ih _
    · rfl

theorem walkTrail_anchor (s : State) (A : Option (Nat × Nat × List Nat)) (p va lvl a : Nat) :
    ({ s with hub := { s.hub with anchor := A } } : State).walkTrail p va lvl a = s.walkTrail p va lvl a := by
  induction lvl generalizing a with
  | zero => rfl
  | succ lvl ih =>
    unfold State.walkTrail
    dsimp only
    rw [show ({ s with hub := { s.hub with anchor := A } } : State).walkStep p va a (lvl + 1) = s.walkStep p va a (lvl + 1) from rfl]
    split
    · rw [ih]
    · rfl
    · rfl

theorem hubAccess_anchor (s : State) (A : Option (Nat × Nat × List Nat)) (p k : Nat) (va : Word) (w : Bool) :
    ({ s with hub := { s.hub with anchor := A } } : State).hubAccess p k va w = s.hubAccess p k va w := by
  have hwalk : ({ s with hub := { s.hub with anchor := A } } : State).walk p va = s.walk p va := by
    unfold State.walk
    rw [walkFrom_anchor]; rfl
  have hstruck : ({ s with hub := { s.hub with anchor := A } } : State).walkStruck p va = s.walkStruck p va := by
    unfold State.walkStruck
    dsimp only
    rw [walkTrail_anchor]; rfl
  unfold State.hubAccess
  rw [hwalk, hstruck]

theorem slotPages_anchor (s : State) (A : Option (Nat × Nat × List Nat)) (p k : Nat) (base : Word) (i n : Nat) :
    ({ s with hub := { s.hub with anchor := A } } : State).slotPages p k base i n = s.slotPages p k base i n := by
  induction n generalizing i with
  | zero => rfl
  | succ n ih =>
    unfold State.slotPages
    dsimp only
    rw [hubAccess_anchor, ih]

/-! ### The unit leaves -/

/-- The pages of a slot where another state has the same memory, and the same hub but for the anchor token. -/
theorem slotPages_anchored {s t : State} {A : Option (Nat × Nat × List Nat)} (hm : t.mem = s.mem) (hh : t.hub = { s.hub with anchor := A }) (p k : Nat)
    (base : Word) (i n : Nat) : t.slotPages p k base i n = s.slotPages p k base i n := by
  have h := slotPages_congr (s := { s with hub := { s.hub with anchor := A } }) (t := t) hm hh p k base i n
  rw [h, slotPages_anchor]

theorem Parted.keeps {s t : State} (h : Parted s t) : t.cur = s.cur ∧ t.mem = s.mem ∧ t.hub = s.hub ∧ t.core.unit = s.core.unit ∧
    t.core.pad = s.core.pad ∧ t.core.queue = s.core.queue ∧ t.core.part = s.core.part := by
  obtain ⟨_, _, _, _, _, _, _, rfl⟩ := h
  exact ⟨rfl, rfl, rfl, rfl, rfl, rfl, rfl⟩

/-- A unit that is put in a queue of the acting core (R284). -/
theorem enqueue_cur {s : State} {u : Nat} {z : Uni} (hz : s.unitAt u = some z) (front : Bool) :
    ∃ st ag, (s.enqueue u s.cur front).unitAt u = some { z with st := .queued, core := s.cur, stamp := st, aged := ag } ∧
      (s.enqueue u s.cur front).core = { s.core with queue := if front then u :: s.core.queue else s.core.queue ++ [u] } := by
  have hat := unitAt_modUnit_same hz fun x => { x with st := .queued, core := s.cur, stamp := (s.coreAt s.cur).issuedN, aged := 0 }
  obtain ⟨v, hv⟩ : ∃ v, s.modUnit u (fun x => { x with st := .queued, core := s.cur, stamp := (s.coreAt s.cur).issuedN, aged := 0 }) = v := ⟨_, rfl⟩
  have hcur : v.cur = s.cur ∧ v.core = s.core := by
    rw [← hv]
    unfold State.modUnit
    split <;> exact ⟨rfl, rfl⟩
  obtain ⟨hcur, hcore⟩ := hcur
  have hrun : s.enqueue u s.cur front =
      (({ v with core := { s.core with queue := if front then u :: s.core.queue else s.core.queue ++ [u] } } : State)).addDue [.unitAdmit s.cur] := by
    unfold State.enqueue
    rw [hv]
    dsimp only
    unfold State.modCore
    rw [State.coreAt_of_cur hcur.symm, hcore]
    unfold State.setCore
    rw [if_pos hcur.symm]
  rw [hv] at hat
  rw [hrun]
  exact ⟨_, _, hat, rfl⟩

/-- The unit on the acting core, with its raw stores landed and its circuits ended, is saved and queued again. -/
theorem preemption_does {s : State} {u : Nat} {y : Uni} {ps : List Nat} (hu : s.core.unit = some u) (hy : s.unitAt u = some y) (hc : y.core = s.cur)
    (hfresh : s.core.phase = .fresh) (hq : bitAt s.nextHeader 30 = true) (hfence : s.core.fence = none) (hinto : s.circuitsInto u = false)
    (hleave : s.leaves = true) (hcan : s.cancelling s.core.hold = false) (hw : s.core.writesInFlight ≤ 64) (hload : NoLoads s)
    (hhit : s.core.xlinvHit = false) (hreads : s.core.reads = []) (hcap : s.core.preempt ≠ some .capacity)
    (hps : s.slotPages s.core.part (stackOf s.cur) y.evac 0 6 = .ok ps) :
    ∃ t z, Does (.preemption s.cur) s t ∧ t.core.unit = none ∧ t.core.phase = .left ∧ t.unitAt u = some z ∧ z.st = .queued ∧
      z.ctx = some (if s.core.yieldReq = true ∧ s.core.preempt = none then .yielded else .preempted) ∧ z.pad.rings = s.core.pad.rings ∧
      t.core.queue = if s.core.yieldReq = true ∧ s.core.preempt = none then s.core.queue ++ [u] else u :: s.core.queue := by
  let s1 : State := { s with act := some (.preemption s.cur) }
  obtain ⟨B, hB⟩ := landRaw_spec s.core
  let s2 : State := s1.withCore { s.core with pad := { s.core.pad with bytes := B } }
  have hrunsOn : ∃ c, s2.runsOn u = some c := by
    unfold State.runsOn
    by_cases h0 : u = 0
    · rw [if_pos h0]
      exact ⟨_, rfl⟩
    · rw [if_neg h0, show s2.unitAt u = some y from hy]
      dsimp only
      rw [State.coreAt_of_cur (s := s2) hc, if_pos (show s2.core.unit = some u from hu)]
      exact ⟨_, rfl⟩
  have hinto2 : s2.circuitsInto u = false := by
    rw [← hinto]
    refine circuitsInto_congr (s := s) (t := s2) rfl rfl (fun c => ?_) u
    unfold State.coreAt
    by_cases hcc : c = s.cur
    · rw [if_pos (show c = s2.cur from hcc), if_pos hcc]
      exact ⟨rfl, rfl⟩
    · rw [if_neg (show ¬ c = s2.cur from hcc), if_neg hcc]
      exact ⟨rfl, rfl⟩
  obtain ⟨c, hon⟩ := hrunsOn
  have hpart := parted_preemptCircuits hon hinto2
  obtain ⟨v, hv⟩ : ∃ v, s2.preemptCircuits u = v := ⟨_, rfl⟩
  rw [hv] at hpart
  obtain ⟨A, xs, hdrop⟩ := dropAnchor_spec v s.cur
  obtain ⟨w, hw1⟩ : ∃ w, w = ({ v with hub := { v.hub with anchor := A }, due := v.due ++ xs } : State) := ⟨_, rfl⟩
  rw [← hw1] at hdrop
  obtain ⟨hvcur, hvmem, hvhub, hvu, hvpad, hvqueue, hvpart⟩ := hpart.keeps
  have hvy : v.unitAt u = some y := by unfold State.unitAt; rw [hvhub]; exact hy
  have hvps : v.slotPages s.core.part (stackOf s.cur) y.evac 0 6 = .ok ps := (slotPages_congr (s := s) (t := v) hvmem hvhub ..).trans hps
  have hcore : w.core = v.core := by rw [hw1]
  have hwu : w.core.unit = some u := by rw [hcore, hvu]; exact hu
  have hwcur : w.cur = s.cur := by rw [hw1]; exact hvcur
  have hwy : w.unitAt u = some y := by rw [hw1]; exact hvy
  have hwmem : w.mem = v.mem := by rw [hw1]
  have hwhub : w.hub = { v.hub with anchor := A } := by rw [hw1]
  have hwps : w.slotPages w.core.part (stackOf w.cur) y.evac 0 6 = .ok ps := by
    rw [hcore, hvpart, hwcur]
    exact (slotPages_anchored hwmem hwhub ..).trans hvps
  obtain ⟨tail, htl⟩ : ∃ b, (s.core.yieldReq && s.core.preempt.isNone) = b := ⟨_, rfl⟩
  obtain ⟨t, z, ck, qb, mode, hsus, htcur, htcore, htz, hzctx, hzpad⟩ :=
    suspend_spec (s := w) hwu hwy hwps (if tail then .yielded else .preempted) w.core.taken
  obtain ⟨st, ag, hez, hecore⟩ := enqueue_cur htz (!tail)
  have hfill : s1.fillLoads s1.cur 128 = s1 := fillLoads_none (by rw [State.coreAt_cur]; exact hload) 128
  have hpre : s1.preemptNow = t.enqueue u t.cur (!tail) := by
    unfold State.preemptNow
    rw [hfill]
    dsimp only
    rw [show s1.core.unit = some u from hu]
    dsimp only
    rw [if_neg (show ¬ s1.core.xlinvHit = true by rw [show s1.core.xlinvHit = false from hhit]; decide),
      if_pos (show s1.core.reads.isEmpty = true by rw [show s1.core.reads = [] from hreads]; rfl)]
    rw [show s1.core.landRaw = _ from hB, show (s1.withCore { s.core with pad := { s.core.pad with bytes := B } }).preemptCircuits u = v from hv,
      show v.dropAnchor s1.cur = w from hdrop]
    rw [show (s1.core.yieldReq && s1.core.preempt.isNone) = tail from htl, hsus]
    exact if_neg hcap
  have htail : tail = true ↔ s.core.yieldReq = true ∧ s.core.preempt = none := by
    rw [← htl, Bool.and_eq_true, Option.isNone_iff_eq_none]
  refine ⟨t.enqueue u t.cur (!tail), _, ?_, ?_, ?_, hez, rfl, ?_, ?_, ?_⟩
  · show execPreemption s1 = _
    unfold execPreemption
    refine congrArg Host.Outcome.next ((onCore_cur s1 _).trans ((if_pos ?_).trans hpre))
    have hs : s1.core.phase = .fresh ∧ s1.core.unit.isSome = true ∧ bitAt s1.nextHeader 30 = true ∧ s1.core.fence.isNone = true :=
      ⟨hfresh, by rw [show s1.core.unit = some u from hu]; rfl, hq, by rw [show s1.core.fence = none from hfence]; rfl⟩
    obtain ⟨h1, h2, h3, h4⟩ := hs
    rw [h1, h2, h3, h4, show s1.leaves = true from hleave, show s1.cancelling s1.core.hold = false from hcan,
      decide_eq_true (show s1.core.writesInFlight ≤ 64 from hw)]
    rfl
  · rw [hecore, htcore]
    rfl
  · rw [hecore, htcore]
    rfl
  · rw [show ({ z with st := .queued, core := t.cur, stamp := st, aged := ag } : Uni).ctx = z.ctx from rfl, hzctx]
    exact congrArg some (if_congr htail rfl rfl)
  · exact (congrArg Spad.rings (hzpad.trans (congrArg Core.pad hcore))).trans ((congrArg Spad.rings hvpad).trans rfl)
  · rw [hecore, htcore]
    show (if (!tail) = true then u :: w.core.queue else w.core.queue ++ [u]) = _
    rw [hcore, hvqueue, show s2.core.queue = s.core.queue from rfl]
    by_cases hy : tail = true
    · rw [if_pos (htail.1 hy), if_neg (by rw [hy]; decide)]
    · rw [if_neg (fun h => hy (htail.2 h)), if_pos (by rw [Bool.eq_false_iff.2 hy]; rfl)]

end Sys2Proof.Machine
end

section
set_option Elab.async false
/-! The resumption of a unit from its context image (R423). -/
namespace Sys2Proof.Machine

/-- The stores that a unit resumes with leave its state as it is. -/
theorem keepStores_unitAt {s : State} {u : Nat} {z : Uni} (hz : s.unitAt u = some z) (ws : List WLine) :
    ∃ z', (s.keepStores s.cur ws).unitAt u = some z' ∧ z'.st = z.st := by
  unfold State.keepStores
  split
  · next vs t hr =>
    obtain ⟨⟨L, U, O, D, W, E, ht⟩, -⟩ := retranslate_spec hr
    have hat : t.unitAt u = some z := by rw [ht]; exact hz
    refine ⟨z, ?_, rfl⟩
    unfold State.modCore
    rw [unitAt_setCore]
    exact hat
  · next k v _ _ =>
    by_cases hv : v = u
    · subst hv
      exact ⟨_, unitAt_modUnit_same hz _, rfl⟩
    · rw [State.unitAt_modUnit, if_neg (Ne.symm hv)]
      exact ⟨z, hz, rfl⟩
  · exact ⟨z, hz, rfl⟩

theorem vget_ofFn {α : Type} {n : Nat} (d : α) (f : Fin n → α) {i : Nat} (h : i < n) : vget d (Vector.ofFn f) i = f ⟨i, h⟩ := by
  unfold vget
  rw [dif_pos h]
  exact Vector.getElem_ofFn h

/-- What a core holds of a unit that its image in the pages `ps` gives back. -/
def FromImage (s : State) (ps : List Nat) (u : Nat) (k : Core) : Prop :=
  k.unit = some u ∧ k.phase = .fresh ∧ k.arch = k.shadow ∧ k.arch.pc = BitVec.ofNat 64 (bits (s.slotRead ps ctxOff 512) 64 64) ∧
    (∀ i < 64, vget 0#64 k.arch.s i = BitVec.ofNat 64 (s.slotRead ps (ctxOff + 0x200 + 8 * i) 8)) ∧
    (∀ i < 64, vget 0#4096 k.arch.v i = BitVec.ofNat 4096 (s.slotRead ps (ctxOff + 0x3000 + 512 * i) 512)) ∧
    ∀ f ∈ k.flights, f.latch = none

/-- The architectural state in an image. -/
theorem archFrom_image (s : State) (ps : List Nat) (k : Saved) (b : NatMap Word) (q : Nat) :
    let a := { s.archFrom ps k b with qSpan := q }
    a.pc = BitVec.ofNat 64 (bits (s.slotRead ps ctxOff 512) 64 64) ∧
      (∀ i < 64, vget 0#64 a.s i = BitVec.ofNat 64 (s.slotRead ps (ctxOff + 0x200 + 8 * i) 8)) ∧
      ∀ i < 64, vget 0#4096 a.v i = BitVec.ofNat 4096 (s.slotRead ps (ctxOff + 0x3000 + 512 * i) 512) := by
  refine ⟨rfl, fun i hi => ?_, fun i hi => ?_⟩
  · rw [Nat.add_assoc]
    exact vget_ofFn _ _ hi
  · rw [Nat.add_assoc]
    exact vget_ofFn _ _ hi

theorem event_if (p : Prop) [Decidable p] (s : State) (k : Cause) (src id : Nat) (o : Option Nat) (a : Word) (h : Handle) :
    ∃ xs, (if p then s.event k src id o a h else s) = s.addDue xs := by
  split
  · exact ⟨_, rfl⟩
  · exact ⟨[], (State.addDue_nil s).symm⟩

/-- A unit resumes with the core's state from its image, and what its stores were. -/
theorem resumeOn_spec {s : State} (u : Nat) {y : Uni} {ps : List Nat} (hps : s.slotPages y.part (stackOf s.cur) y.evac 0 6 = .ok ps) :
    ∃ k ws v, FromImage s ps u k ∧
      v = (((s.setCore s.cur k).modUnit u fun z => { z with st := .running, ctx := none, skipK := false, pad := {}, eng := {}, saved := {} }).touchSlot
        y.part (stackOf s.cur) y.evac false 0 6).keepStores s.cur ws ∧
      ∃ xs, s.resumeOn s.cur u y = v.addDue xs := by
  obtain ⟨harch, hs, hv⟩ := archFrom_image s ps y.saved y.saved.bound (vget 8192 s.hub.qBound y.part)
  have hrun : s.resumeOn s.cur u y = s.resumeOn s.cur u y := rfl
  conv at hrun =>
    rhs
    unfold State.resumeOn
  rw [hps] at hrun
  dsimp -zeta only at hrun
  extract_lets _ _ _ _ _ _ late _ stores _ _ _ k s1 at hrun
  refine ⟨k, stores, s1, ⟨rfl, rfl, rfl, harch, hs, hv, fun f hf => ?_⟩, rfl, ?_⟩
  · obtain ⟨g, -, rfl⟩ := List.mem_map.1 (show f ∈ late from hf)
    rfl
  · rw [hrun]
    exact event_if ..

/-- A standby unit whose circuits are over goes on from its image. -/
theorem resume_does {s : State} {u : Nat} {y : Uni} {k : CtxKind} {ps : List Nat} (hnone : s.core.unit = none) (hstand : s.core.standby = some u)
    (hy : s.unitAt u = some y) (hk : y.ctx = some k) (hcan : s.cancelling y.hold = false) (hgl : y.eng.gl.toList.all GlHandle.over = true)
    (hps : s.slotPages y.part (stackOf s.cur) y.evac 0 6 = .ok ps) :
    ∃ t z, Does (.resumeUnit s.cur) s t ∧ t.core.unit = some u ∧ t.core.phase = .fresh ∧ t.unitAt u = some z ∧ z.st = .running ∧ t.mem = s.mem ∧
      t.core.arch = t.core.shadow ∧ t.core.arch.pc = BitVec.ofNat 64 (bits (s.slotRead ps ctxOff 512) 64 64) ∧
      (∀ i < 64, vget 0#64 t.core.arch.s i = BitVec.ofNat 64 (s.slotRead ps (ctxOff + 0x200 + 8 * i) 8)) ∧
      (∀ i < 64, vget 0#4096 t.core.arch.v i = BitVec.ofNat 4096 (s.slotRead ps (ctxOff + 0x3000 + 512 * i) 512)) ∧
      ∀ f ∈ t.core.flights, f.latch = none := by
  let s1 : State := { s with act := some (.resumeUnit s.cur) }
  have hps1 : s1.slotPages y.part (stackOf s1.cur) y.evac 0 6 = .ok ps := (slotPages_congr (s := s) (t := s1) rfl rfl ..).trans hps
  obtain ⟨x, ws, v, himage, hv, xs, hres⟩ := resumeOn_spec u hps1
  let f : Uni → Uni := fun z => { z with st := .running, ctx := none, skipK := false, pad := {}, eng := {}, saved := {} }
  obtain ⟨w, hw⟩ : ∃ w, ((s1.setCore s.cur x).modUnit u f).touchSlot y.part (stackOf s.cur) y.evac false 0 6 = w := ⟨_, rfl⟩
  have hset : s1.setCore s.cur x = { s1 with core := x } := by
    unfold State.setCore
    exact if_pos rfl
  have hat := unitAt_modUnit_same (s := ({ s1 with core := x } : State)) hy f
  have hsame : w.cur = s.cur ∧ w.core = x ∧ w.mem = s.mem ∧ w.unitAt u = some (f y) := by
    obtain ⟨R, ys, e⟩ := touchSlot_spec y.part (stackOf s.cur) y.evac false 0 6 (({ s1 with core := x } : State).modUnit u f)
    rw [← hw, hset, e]
    refine ⟨?_, ?_, ?_, hat⟩
    all_goals
      unfold State.modUnit
      split <;> rfl
  obtain ⟨hwcur, hwcore, hwmem, hwu⟩ := hsame
  obtain ⟨-, harch, hshadow, hphase, -, hflights, hunit, hmem, -⟩ := keepStores_spec w ws
  obtain ⟨z, hz, hst⟩ := keepStores_unitAt hwu ws
  have hvw : v = w.keepStores w.cur ws := by
    rw [hv, hwcur, ← hw]
  rw [← hvw] at harch hshadow hphase hflights hunit hmem hz
  rw [hwcore] at harch hshadow hphase hflights hunit
  obtain ⟨iunit, iphase, iarch, ipc, is, iv, ilatch⟩ := himage
  have hread (o n : Nat) : s1.slotRead ps o n = s.slotRead ps o n := rfl
  simp only [hread] at ipc is iv
  obtain ⟨ts, hwake⟩ : ∃ ts, (((s1.resumeOn s.cur u y).wakeEngines u).addDue [.unitAdmit s.cur] : State) = { v with due := ts } := by
    rw [show s1.resumeOn s.cur u y = _ from hres]
    exact ⟨_, rfl⟩
  refine ⟨{ v with due := ts }, z, ?_, hunit.trans iunit, hphase.trans iphase, hz, hst, hmem.trans hwmem, harch.trans (iarch.trans hshadow.symm), ?_, ?_, ?_, ?_⟩
  · show execResumeUnit s1 = _
    unfold execResumeUnit
    show (match (s1.coreAt s.cur).unit, (s1.coreAt s.cur).standby with | none, some u => _ | _, _ => _ : Host.Outcome State Fault Refusal) = _
    rw [show s1.coreAt s.cur = s.core from State.coreAt_cur s1, hnone, hstand]
    dsimp only
    rw [show s1.unitAt u = some y from hy]
    dsimp only
    rw [if_neg (show ¬ s1.cancelling y.hold = true by rw [show s1.cancelling y.hold = false from hcan]; decide), if_neg (show ¬ y.ctx.isNone = true by rw [hk]; exact Bool.false_ne_true), if_pos hgl,
      hwake]
  · show v.core.arch.pc = _
    rw [harch]
    exact ipc
  · show ∀ i < 64, vget 0#64 v.core.arch.s i = _
    rw [harch]
    exact is
  · show ∀ i < 64, vget 0#4096 v.core.arch.v i = _
    rw [harch]
    exact iv
  · show ∀ f ∈ v.core.flights, f.latch = none
    rw [hflights]
    exact ilatch

end Sys2Proof.Machine
end

section
set_option Elab.async false
/-! What a sequencer's interval meets (R222, R224, R415, R419 to R424). -/
namespace Sys2Proof.Machine

/-- Settles O36: each action of an interval, at the core that acts, by its own lemma. -/
theorem intervalActionResults : Obligations.IntervalActionResults := by
  unfold Obligations.IntervalActionResults
  rintro s c rfl
  exact ⟨confirm_does, fun _ _ => anchorGrant_does, fun _ _ => anchorExpiry_does, fun _ _ v => replay_does v, fun _ _ _ => preemption_does,
    fun _ _ _ _ => resume_does, fun _ => stallLimit_does⟩

end Sys2Proof.Machine
end

section
set_option Elab.async false
/-! What a lost link and a package that cannot be reached do beside the ports (R439 to R442, R476). -/
namespace Sys2Proof.Machine

/-- The ports, the route sets, the export tables and the accounts stay as they are, and what was due stays due. -/
def Aside (s t : State) : Prop :=
  t.fabric.ports = s.fabric.ports ∧ t.fabric.routes = s.fabric.routes ∧ t.fabric.num = s.fabric.num ∧ t.fabric.exports = s.fabric.exports ∧
    t.hub.accounts = s.hub.accounts ∧ Grows s t

theorem Aside.refl (s : State) : Aside s s := ⟨rfl, rfl, rfl, rfl, rfl, .refl s⟩

theorem Aside.trans {s t u : State} (h : Aside s t) (k : Aside t u) : Aside s u := by
  obtain ⟨h1, h2, h3, h4, h5, h6⟩ := h
  obtain ⟨k1, k2, k3, k4, k5, k6⟩ := k
  exact ⟨k1.trans h1, k2.trans h2, k3.trans h3, k4.trans h4, k5.trans h5, h6.trans k6⟩

theorem Aside.foldl {α : Type} {f : State → α → State} (h : ∀ s x, Aside s (f s x)) (xs : List α) (s : State) : Aside s (xs.foldl f s) := by
  induction xs generalizing s with
  | nil => exact .refl s
  | cons x xs ih => exact (h s x).trans (ih _)

theorem Aside.ite {s t u : State} {p : Prop} [Decidable p] (ht : Aside s t) (hu : Aside s u) : Aside s (if p then t else u) := by
  split
  · exact ht
  · exact hu

/-! ### The state's own operations -/

theorem aside_addDue (s : State) (xs : List Action) : Aside s (s.addDue xs) := ⟨rfl, rfl, rfl, rfl, rfl, .addDue s xs⟩

theorem aside_post (s : State) (k : Packet) : Aside s (s.post k) := ⟨rfl, rfl, rfl, rfl, rfl, _, rfl⟩

theorem aside_setCore (s : State) (c : Nat) (x : Core) : Aside s (s.setCore c x) := by
  have hf : (s.setCore c x).fabric = s.fabric := State.setCore_fabric ..
  exact ⟨congrArg Fabric.ports hf, congrArg Fabric.routes hf, congrArg Fabric.num hf, congrArg Fabric.exports hf, congrArg Hub.accounts (State.setCore_hub ..),
    .of_eq (State.setCore_due ..)⟩

theorem aside_modCore (s : State) (c : Nat) (f : Core → Core) : Aside s (s.modCore c f) := aside_setCore ..

theorem aside_setUnit (s : State) (u : Nat) (x : Uni) : Aside s (s.setUnit u x) := ⟨rfl, rfl, rfl, rfl, rfl, .of_eq rfl⟩

theorem aside_modUnit (s : State) (u : Nat) (f : Uni → Uni) : Aside s (s.modUnit u f) := by
  unfold State.modUnit
  split
  · exact aside_setUnit ..
  · exact .refl s

theorem Saves.aside {s t : State} (h : Saves s t) (hdue : t.due = s.due) : Aside s t := by
  obtain ⟨m, ts, R, xs, rfl⟩ := h
  exact ⟨rfl, rfl, rfl, rfl, rfl, .of_eq hdue⟩

theorem Written.aside {s t : State} (h : Written s t) : Aside s t := by
  obtain ⟨m, ts, rfl⟩ := h
  exact ⟨rfl, rfl, rfl, rfl, rfl, .of_eq rfl⟩

theorem aside_slotWrite (s : State) (ps : List Nat) (off n v : Nat) : Aside s (s.slotWrite ps off n v) := by
  unfold State.slotWrite
  exact .ite (written_weakNat ..).aside ((written_weakNat ..).aside.trans (written_weakNat ..).aside)

theorem aside_slotWriteAll (ps : List Nat) (xs : List (Nat × Nat × Nat)) (s : State) : Aside s (s.slotWriteAll ps xs) := by
  induction xs generalizing s with
  | nil => exact .refl s
  | cons x xs ih => exact (aside_slotWrite s ps x.1 x.2.1 x.2.2).trans (ih _)

theorem aside_modPad (s : State) (u : Nat) (f : Spad → Spad) : Aside s (s.modPad u f) := by
  unfold State.modPad
  split
  · exact aside_modCore ..
  · exact aside_modUnit ..

theorem aside_modEng (s : State) (u : Nat) (f : Engines → Engines) : Aside s (s.modEng u f) := by
  unfold State.modEng
  split
  · exact aside_modCore ..
  · split
    · exact .refl s
    · next x _ =>
      refine .ite (aside_setUnit ..) ?_
      split
      · exact (aside_setUnit s u { x with eng := f x.eng }).trans (aside_slotWriteAll ..)
      · exact aside_setUnit ..

theorem aside_setHandle (s : State) (u h : Nat) (x : GlHandle) : Aside s (s.setHandle u h x) := aside_modEng ..

theorem aside_answer (s : State) (u id : Nat) (v : Word) : Aside s (s.answer u id v) := by
  unfold State.answer
  split
  · exact aside_modCore ..
  · split
    · exact .refl s
    · dsimp only
      split
      · exact ((aside_slotWrite ..).trans (aside_slotWrite ..)).trans (aside_modUnit ..)
      · exact .refl s

theorem aside_giveTok? (s : State) (site : Nat) (t : Option Tok) (taint : Bool) (w : Word) : Aside s (s.giveTok? site t taint w) := by
  cases t with
  | none => exact .refl s
  | some t => exact aside_addDue ..

theorem aside_giveToks (site : Nat) (w : Word) (ts : List Tok) (s : State) : Aside s (s.giveToks site w ts) := by
  induction ts generalizing s with
  | nil => exact .refl s
  | cons t ts ih => exact (aside_addDue s _).trans (ih _)

/-! ### Rows and transfers that are over -/

theorem aside_freeRows (s : State) (u : Nat) : Aside s (s.freeRows u) := by
  unfold State.freeRows
  split
  · exact .ite (.refl s) ⟨rfl, rfl, rfl, rfl, rfl, _, rfl⟩
  · exact .refl s

theorem aside_reap (s : State) (u : Nat) : Aside s (s.reap u) := by
  unfold State.reap
  split
  · exact .ite ((aside_freeRows s u).trans ⟨rfl, rfl, rfl, rfl, rfl, .of_eq rfl⟩) (.refl s)
  · exact .refl s

theorem aside_reapAll (s : State) : Aside s s.reapAll := by
  have each (us : List Nat) (t : State) : Aside t (t.each State.reap us) := by
    induction us generalizing t with
    | nil => exact .refl t
    | cons u us ih => exact (aside_reap t u).trans (ih _)
  exact each _ s

theorem aside_dropXfer (s : State) (x : Nat) : Aside s (s.dropXfer x) := by
  unfold State.dropXfer
  split
  · exact .refl s
  · refine Aside.trans ?_ (aside_reapAll _)
    exact .ite ⟨rfl, rfl, rfl, rfl, rfl, _, rfl⟩ ⟨rfl, rfl, rfl, rfl, rfl, .of_eq rfl⟩

theorem aside_finishPut (s : State) (x : Nat) (f : Xfer) (fault : Bool) : Aside s (s.finishPut x f fault) := by
  unfold State.finishPut
  dsimp only
  refine Aside.trans ?_ (aside_dropXfer ..)
  refine Aside.trans ?_ (aside_giveToks ..)
  refine Aside.trans ?_ (aside_giveTok? ..)
  exact .ite ⟨rfl, rfl, rfl, rfl, rfl, .of_eq rfl⟩ (.refl s)

theorem aside_setXfer (s : State) (x : Nat) (f : Xfer) : Aside s (s.setXfer x f) := ⟨rfl, rfl, rfl, rfl, rfl, .of_eq rfl⟩

theorem aside_whenPerformed (s : State) (x : Nat) (f : Xfer) : Aside s (s.whenPerformed x f) := by
  unfold State.whenPerformed
  exact .ite (aside_addDue ..) (.ite (aside_addDue ..) (aside_finishPut ..))

theorem aside_chunkOver (s : State) (x lo : Nat) (w : Option Word) : Aside s (s.chunkOver x lo w) := by
  unfold State.chunkOver
  split
  · exact .refl s
  · dsimp only
    have hraise (f : Xfer) (u c : Nat) (v : Word) : Aside s ((s.setXfer x f).raiseWeak u c v) := (aside_setXfer ..).trans (aside_modEng ..)
    suffices h : Aside s _ from .ite (h.trans (aside_whenPerformed ..)) h
    split
    · exact (hraise ..).trans (aside_modPad ..)
    · exact hraise ..

theorem aside_landRefused (s : State) (p : Nat) (a : Word) (tid : BitVec 32) : Aside s (s.landRefused p a tid) := aside_addDue ..

theorem aside_readRefused (s : State) (x lo : Nat) : Aside s (s.readRefused x lo) := by
  unfold State.readRefused
  split
  · exact .refl s
  · exact ((aside_landRefused ..).trans (aside_setXfer ..)).trans (aside_chunkOver ..)

theorem aside_taintOnly (s : State) (f : Xfer) : Aside s (s.taintOnly f) := by
  unfold State.taintOnly
  exact .ite (.refl s) (aside_addDue ..)

/-! ### Packets that do not arrive (R272, R280, R441) -/

theorem aside_borrowLost (s : State) (c : Nat) (refused : Bool) : Aside s (s.borrowLost c refused) := by
  unfold State.borrowLost
  refine .ite (aside_modCore ..) ?_
  dsimp only
  split
  · exact .refl s
  · exact .ite (.refl s) (.ite (aside_modCore ..) (aside_post ..))

theorem aside_dropSlots (s : State) (ks : List (Nat × Nat)) : Aside s (s.dropSlots ks) := ⟨rfl, rfl, rfl, rfl, rfl, .of_eq rfl⟩

theorem aside_answerOpen (s : State) (u : Nat) (x : GlHandle) (v : Word) : Aside s (s.answerOpen u x v) := by
  unfold State.answerOpen
  split
  · exact aside_answer ..
  · exact .refl s

theorem aside_refuseOpen (s : State) (u h : Nat) (k : Cause) : Aside s (s.refuseOpen u h k) := by
  unfold State.refuseOpen
  exact ((((aside_dropSlots ..).trans (aside_setHandle ..)).trans (aside_giveTok? ..)).trans (aside_answerOpen ..)).trans (aside_reapAll _)

theorem aside_packetLost (s : State) (k : Packet) (refused : Bool) : Aside s (s.packetLost k refused) := by
  unfold State.packetLost
  split
  case h_1 => exact .ite (aside_addDue ..) (.refl s)
  case h_2 =>
    split
    · exact .refl s
    · dsimp only
      exact Aside.trans (.ite (aside_landRefused ..) (aside_taintOnly ..)) (aside_chunkOver ..)
  case h_3 => exact aside_readRefused ..
  case h_4 => exact aside_borrowLost ..
  case h_5 => exact aside_addDue ..
  case h_6 => exact .ite (aside_refuseOpen ..) (.refl s)
  case h_7 => exact aside_addDue ..
  all_goals exact .refl s

end Sys2Proof.Machine
end

section
set_option Elab.async false
/-! A lost link takes its port out of every route set (R439 to R442). -/
namespace Sys2Proof.Machine

/-! ### Circuits and trees that cross the port (R321, R343) -/

theorem aside_endCircuit (s : State) (u h : Nat) (k : GlCause) : Aside s (s.endCircuit u h k) := (aside_setHandle ..).trans (aside_addDue ..)

theorem aside_endPromoted (s : State) (f : Promoted → Bool) : Aside s (s.endPromoted f) := by
  unfold State.endPromoted
  exact (Aside.foldl (fun s (p : Promoted) => (aside_dropSlots s p.path).trans (aside_post ..)) _ s).trans ⟨rfl, rfl, rfl, rfl, rfl, .of_eq rfl⟩

theorem aside_endCrossing (s : State) (port : Nat) (k : GlCause) : Aside s (s.endCrossing port k) := by
  unfold State.endCrossing
  exact (Aside.foldl (fun s (e : Nat × Nat) => aside_endCircuit s e.1 e.2 k) _ s).trans (aside_endPromoted ..)

theorem aside_setEpisode (s : State) (e : Episode) : Aside s (s.setEpisode e) := ⟨rfl, rfl, rfl, rfl, rfl, .of_eq rfl⟩

theorem aside_contributeOne (s : State) (key part : Nat) (v : Option Word) (broken : Bool) : Aside s (s.contributeOne key part v broken) := by
  unfold State.contributeOne
  split
  · exact .refl s
  · next t _ =>
    dsimp only
    have hset (e : Episode) (m : NatMap Nat) : Aside s ((s.setEpisode e).withHub { (s.setEpisode e).hub with barNext := m }) := ⟨rfl, rfl, rfl, rfl, rfl, .of_eq rfl⟩
    suffices h : Aside s _ from .ite (h.trans (.ite ⟨rfl, rfl, rfl, rfl, rfl, .of_eq rfl⟩ (aside_setEpisode ..)))
      (.ite (h.trans (.ite (aside_addDue ..) (.ite (aside_addDue ..) (aside_post ..)))) h)
    exact .ite ((hset ..).trans (aside_addDue ..)) (hset ..)

theorem aside_settleTree (s : State) (key : Nat) : Aside s (s.settleTree key) := by
  unfold State.settleTree
  split
  · exact .refl s
  · exact .ite (Aside.foldl (fun s q => aside_contributeOne s key q none true) _ s) (.refl s)

theorem aside_breakPods (s : State) (port : Nat) : Aside s (s.breakPods port) := by
  unfold State.breakPods
  refine Aside.foldl (fun s i => Aside.foldl (fun s t => ?_) _ s) _ s
  exact .ite (aside_settleTree ..) (.ite (aside_addDue ..) (.refl s))

/-! ### What an unreachable package leaves (R442, R476) -/

/-- The route sets stay as they are, and of each port all but its replay buffer. -/
def Emptied (s t : State) : Prop :=
  t.fabric.routes = s.fabric.routes ∧
    (RisingKeys s.fabric.ports → RisingKeys t.fabric.ports ∧ ∀ p, ∃ r, t.portAt p = { s.portAt p with replay := r })

theorem Aside.portAt {s t : State} (h : Aside s t) (p : Nat) : t.portAt p = s.portAt p := by
  unfold State.portAt
  rw [h.1]

theorem Aside.emptied {s t : State} (h : Aside s t) : Emptied s t :=
  ⟨h.2.1, fun hr => ⟨by rw [h.1]; exact hr, fun p => ⟨(s.portAt p).replay, h.portAt p⟩⟩⟩

theorem Emptied.refl (s : State) : Emptied s s := (Aside.refl s).emptied

theorem Emptied.trans {s t u : State} (h : Emptied s t) (k : Emptied t u) : Emptied s u := by
  refine ⟨k.1.trans h.1, fun hr => ?_⟩
  obtain ⟨ht, h'⟩ := h.2 hr
  obtain ⟨hu, k'⟩ := k.2 ht
  refine ⟨hu, fun p => ?_⟩
  obtain ⟨r, e⟩ := h' p
  obtain ⟨r', e'⟩ := k' p
  exact ⟨r', by rw [e', e]⟩

theorem Emptied.foldl {α : Type} {f : State → α → State} (h : ∀ s x, Emptied s (f s x)) (xs : List α) (s : State) : Emptied s (xs.foldl f s) := by
  induction xs generalizing s with
  | nil => exact .refl s
  | cons x xs ih => exact (h s x).trans (ih _)

theorem Emptied.of_eq {s t : State} (hr : t.fabric.routes = s.fabric.routes) (hp : t.fabric.ports = s.fabric.ports) : Emptied s t := by
  refine ⟨hr, fun h => ⟨by rw [hp]; exact h, fun p => ⟨(s.portAt p).replay, ?_⟩⟩⟩
  unfold State.portAt
  rw [hp]

theorem portAt_setPort {s : State} (hr : RisingKeys s.fabric.ports) (p q : Nat) (x : Port) : (s.setPort p x).portAt q = if q = p then x else s.portAt q :=
  NatMap.findD_putD hr {} q p x

theorem portAt_setPort_self {s : State} (hr : RisingKeys s.fabric.ports) (p : Nat) (x : Port) : (s.setPort p x).portAt p = x := by
  rw [portAt_setPort hr, if_pos rfl]

theorem emptied_setPort (s : State) (p : Nat) : Emptied s (s.setPort p { s.portAt p with replay := [] }) := by
  refine ⟨rfl, fun hr => ⟨hr.putD .., fun q => ?_⟩⟩
  rw [portAt_setPort hr]
  split
  · next h => subst h; exact ⟨_, rfl⟩
  · exact ⟨(s.portAt q).replay, rfl⟩

theorem emptied_giveUpPacket (s : State) (k : Packet) : Emptied s (s.giveUpPacket k) := by
  have hlost (s : State) : Aside s ((s.packetLost k false).tokBack k true) := (aside_packetLost ..).trans (aside_giveTok? ..)
  unfold State.giveUpPacket
  split
  · split
    · split
      · exact .refl s
      · exact (aside_packetLost ..).emptied
    · exact Emptied.trans (.of_eq rfl rfl) (hlost _).emptied
  · exact (hlost s).emptied

theorem emptied_giveUpAll (s : State) (port : Nat) : Emptied s (s.giveUpAll port) := by
  unfold State.giveUpAll
  exact ((emptied_setPort s port).trans (aside_addDue ..).emptied).trans (.foldl emptied_giveUpPacket _ _)

theorem emptied_giveUpOthers (d : BitVec 16) (ps : List Nat) (s : State) : Emptied s (s.giveUpOthers d ps) := by
  induction ps generalizing s with
  | nil => exact .refl s
  | cons p ps ih =>
    unfold State.giveUpOthers
    refine Emptied.trans ?_ (ih _)
    split
    · exact emptied_giveUpAll ..
    · exact .refl s

theorem aside_settleXfer (s : State) (d : BitVec 16) (x : Nat) : Aside s (s.settleXfer d x) := by
  unfold State.settleXfer
  split
  · exact .refl s
  · next f _ =>
    exact (Aside.foldl (fun s lo => aside_readRefused s x lo) _ s).trans
      (Aside.foldl (fun s lo => (aside_taintOnly s f).trans (aside_chunkOver ..)) _ _)

theorem emptied_writeOff (s : State) (d : BitVec 16) (port : Nat) : Emptied s (s.writeOff d port) := by
  unfold State.writeOff
  exact Emptied.trans (.of_eq rfl rfl) (Aside.foldl (fun s e => (aside_addDue s _).trans (aside_addDue ..)) _ _).emptied

theorem aside_fillRest (s : State) (a : Option RingAt) (len n : Nat) : Aside s (s.fillRest a len n) := by
  unfold State.fillRest
  split
  · exact .ite (aside_modPad ..) (.refl s)
  · exact .refl s

theorem aside_dropIncoming (s : State) (n : Nat) : Aside s (s.dropIncoming n) := by
  unfold State.dropIncoming
  split
  · exact .refl s
  · exact ((aside_dropSlots ..).trans (aside_fillRest ..)).trans ⟨rfl, rfl, rfl, rfl, rfl, .of_eq rfl⟩

theorem aside_dropLandings (s : State) (d : BitVec 16) : Aside s (s.dropLandings d) := by
  unfold State.dropLandings
  dsimp only
  refine Aside.trans ?_ (Aside.foldl (fun s (g : Nat × GlIn) => aside_dropIncoming s g.1) _ _)
  refine Aside.trans (t := s.withHub _) ⟨rfl, rfl, rfl, rfl, rfl, .of_eq rfl⟩ (Aside.foldl (fun s g => ?_) _ _)
  split
  · exact aside_modPad ..
  · exact .refl s

theorem aside_refuseOpens (s : State) (d : BitVec 16) : Aside s (s.refuseOpens d) := by
  unfold State.refuseOpens
  exact Aside.foldl (fun s u => Aside.foldl (fun s h => .ite (aside_refuseOpen ..) (.refl s)) _ s) _ s

theorem emptied_peerGone (s : State) (d : BitVec 16) (port : Nat) : Emptied s (s.peerGone d port) := by
  unfold State.peerGone
  have h1 := Aside.foldl (fun s x => aside_settleXfer s d x) (s.hub.xfers.map (·.1)) s
  refine ((h1.emptied.trans (emptied_writeOff _ d port)).trans ?_).trans ((aside_dropLandings _ d).trans (aside_refuseOpens _ d)).emptied
  exact .of_eq rfl rfl

/-! ### The link itself (R439) -/

theorem findD_map {α : Type} {f : α → α} {d : α} (hd : f d = d) (m : NatMap α) (k : Nat) :
    NatMap.findD d k (m.map fun r => (r.1, f r.2)) = f (NatMap.findD d k m) := by
  unfold NatMap.findD
  induction m with
  | nil => exact hd.symm
  | cons e m ih =>
    rw [List.map_cons, NatMap.find, NatMap.find]
    split
    · rfl
    · exact ih

/-- A link that is lost: its port is down and in no route set. -/
theorem loseLink_gone {s : State} {port : Nat} (hr : RisingKeys s.fabric.ports) (hlost : (s.portAt port).lost = false) :
    ((s.loseLink port).portAt port).up = false ∧ ((s.loseLink port).portAt port).lost = true ∧
      ∀ d, port ∉ NatMap.findD [] d (s.loseLink port).fabric.routes := by
  let y : Port := { s.portAt port with up := false, lost := true, lostAt := s.time, training := false, restripeTx := none, restripeRx := none, asked := none }
  let s1 := s.setPort port y
  let s2 : State := { s1 with fabric := { s1.fabric with routes := s1.fabric.routes.map fun r => (r.1, r.2.filter fun p => decide (p ≠ port)) } }
  have hafter : Emptied s2 (s.loseLink port) := by
    have h3 : Aside s2 ((s2.endCrossing port .failed).breakPods port) := (aside_endCrossing ..).trans (aside_breakPods ..)
    unfold State.loseLink
    dsimp only
    rw [if_neg (by rw [hlost]; exact Bool.false_ne_true)]
    split
    · exact ((h3.emptied.trans (emptied_giveUpAll ..)).trans (emptied_giveUpOthers ..)).trans (emptied_peerGone ..)
    · split
      · exact (h3.trans (aside_addDue ..)).emptied
      · exact (h3.trans (Aside.trans (t := State.tickFree _) ⟨rfl, rfl, rfl, rfl, rfl, .of_eq rfl⟩ (aside_addDue ..))).emptied
  have hr2 : RisingKeys s2.fabric.ports := hr.putD ..
  have hat2 : s2.portAt port = y := portAt_setPort_self hr port y
  obtain ⟨hroutes, hports⟩ := hafter
  obtain ⟨r, hat⟩ := (hports hr2).2 port
  rw [hat, hat2, hroutes]
  refine ⟨rfl, rfl, fun d hmem => ?_⟩
  rw [show NatMap.findD [] d s2.fabric.routes = (NatMap.findD [] d s1.fabric.routes).filter fun p => decide (p ≠ port) from
    findD_map (f := fun ps : List Nat => ps.filter fun p => decide (p ≠ port)) rfl s1.fabric.routes d] at hmem
  exact of_decide_eq_true (List.mem_filter.1 hmem).2 rfl

end Sys2Proof.Machine
end

section
set_option Elab.async false
/-! Training, flits and replay (R314, R433 to R435, R451, R471). -/
namespace Sys2Proof.Machine

/-- An event of a port is on its way to the event buffer (R429, R478). -/
def Reported (t : State) (port : Nat) (k : Cause) : Prop :=
  ∃ e, Action.eventRecordArrive e ∈ t.due ∧ e.code = k ∧ e.src = 3#4 ∧ e.srcid = BitVec.ofNat 12 port

theorem reported_event (s : State) (port : Nat) (k : Cause) (p : Option Nat) (a : Word) (h : Handle) (tid : BitVec 32) (x y : Word) :
    Reported (s.event k 3 port p a h tid x y) port k := ⟨_, mem_due_addDue (List.mem_singleton_self _), rfl, rfl, rfl⟩

theorem Reported.grows {s t : State} {port : Nat} {k : Cause} (h : Reported s port k) (g : Grows s t) : Reported t port k := by
  obtain ⟨e, he, hk⟩ := h
  exact ⟨e, g.mem he, hk⟩

section
variable {s : State} {port : Nat} (hr : RisingKeys s.fabric.ports)
include hr

/-! ### Training (R314, R451) -/

section
variable {ident : Word} {num ver mask : BitVec 16} {flight : Nat} (hport : port < 32) (hmap : s.fabric.podmap ≠ [])
  (hheld : ¬ ((s.portAt port).lost = true ∧ (s.portAt port).replay ≠ []))
include hport hmap hheld

theorem train_mismatch (hbad : (ident, num) ∉ s.fabric.podmap ∨ ver = 0#16) (hup : (s.portAt port).up = false) :
    ∃ t, Does (.linkTraining port ident num ver mask flight) s t ∧ calm s t ∧ Reported t port .linkMismatch ∧ (t.portAt port).up = false := by
  let s1 : State := { s with act := some (.linkTraining port ident num ver mask flight) }
  let x := s.portAt port
  have hrun : s1.train port ident num ver mask flight = (s1.event .linkMismatch 3 port).setPort port { x with training := false } := by
    unfold State.train
    dsimp only
    rw [if_neg (by rw [List.isEmpty_iff]; exact not_or.2 ⟨Nat.not_le.2 hport, hmap⟩),
      if_neg (by rw [List.isEmpty_iff]; exact hheld), if_pos (by rw [List.contains_iff_mem]; exact hbad)]
    exact if_neg (Bool.eq_false_iff.1 hup)
  refine ⟨_, congrArg Host.Outcome.next hrun, calm_refl s, reported_event .., ?_⟩
  rw [portAt_setPort_self (s := s1.event .linkMismatch 3 port) hr]
  exact hup

theorem train_up (hok : (ident, num) ∈ s.fabric.podmap) (hver : ver ≠ 0#16) :
    ∃ t, Does (.linkTraining port ident num ver mask flight) s t ∧ calm s t ∧ (t.portAt port).up = true ∧ (t.portAt port).lost = false ∧
      (t.portAt port).peer = num ∧ (t.portAt port).flight = flight % 64 ∧ (t.portAt port).rxMask = mask ∧
      ((s.portAt port).up = false → (t.portAt port).seqIn = 0#12 ∧ (t.portAt port).seqOut = 0#12) ∧ Action.linkRetrain port ∈ t.due ∧
      ((NatMap.findD [] num.toNat s.fabric.routes).length < 4 → port ∈ NatMap.findD [] num.toNat t.fabric.routes) := by
  let s1 : State := { s with act := some (.linkTraining port ident num ver mask flight) }
  let x := s.portAt port
  let base : Port := if x.up then x else { x with seqOut := 0#12, seqIn := 0#12, replay := [] }
  let y : Port :=
    { base with
      up := true, lost := false, peer := num, flight := flight % 64, rxMask := mask, training := false,
      replay := base.replay.map fun f => { f with again := 0 }, fails := 0, asked := none, lastGood := s.time }
  let set := NatMap.findD [] num.toNat s.fabric.routes
  let set1 := if set.contains port ∨ 4 ≤ set.length then set else set ++ [port]
  let s2 : State := s1.setPort port y
  let s3 : State := { s2 with fabric := { s2.fabric with routes := NatMap.put num.toNat set1 s2.fabric.routes } }
  have hrun : s1.train port ident num ver mask flight = if s3.due.contains (.linkRetrain port) then s3 else s3.addDue [.linkRetrain port] := by
    unfold State.train
    dsimp only
    rw [if_neg (by rw [List.isEmpty_iff]; exact not_or.2 ⟨Nat.not_le.2 hport, hmap⟩),
      if_neg (by rw [List.isEmpty_iff]; exact hheld), if_neg (by rw [List.contains_iff_mem]; exact not_or.2 ⟨not_not_intro hok, hver⟩)]
    rfl
  obtain ⟨t, ht, hfabric, hcalm, hdue⟩ : ∃ t, s1.train port ident num ver mask flight = t ∧ t.fabric = s3.fabric ∧ calm s t ∧ Action.linkRetrain port ∈ t.due := by
    refine ⟨_, hrun, ?_⟩
    split
    · next h => exact ⟨rfl, calm_refl s, List.contains_iff_mem.1 h⟩
    · exact ⟨rfl, calm_refl s, mem_due_addDue (List.mem_singleton_self _)⟩
  have hat : t.portAt port = y := by
    unfold State.portAt
    rw [hfabric]
    exact portAt_setPort_self (s := s1) hr port y
  refine ⟨t, congrArg Host.Outcome.next ht, hcalm, ?_⟩
  rw [hat]
  refine ⟨rfl, rfl, rfl, rfl, rfl, fun hup => ?_, hdue, fun hlen => ?_⟩
  · have hb : base = { x with seqOut := 0#12, seqIn := 0#12, replay := [] } := if_neg (Bool.eq_false_iff.1 hup)
    show base.seqIn = 0#12 ∧ base.seqOut = 0#12
    rw [hb]
    exact ⟨rfl, rfl⟩
  · rw [hfabric, show NatMap.findD [] num.toNat s3.fabric.routes = set1 from congrArg (Option.getD · []) (NatMap.find_put_self ..)]
    dsimp only [set1]
    split
    · next h => exact List.contains_iff_mem.1 (h.resolve_right (Nat.not_le.2 hlen))
    · exact List.mem_append_right _ (List.mem_singleton_self _)

end

/-! ### Flits (R433, R434) -/

section
variable (f : Flit) (hup : (s.portAt port).up = true) (hlost : (s.portAt port).lost = false) (htrain : (s.portAt port).training = false)
include hup hlost htrain

theorem flitReceive_good (hgood : flitGood f = true) (hkind : f.kind = .trail ∨ f.kind = .circuit) :
    ∃ t, Does (.flitReceive port f) s t ∧ calm s t ∧ (t.portAt port).lastGood = s.time ∧ (t.portAt port).replay = ackFlits f.ack (s.portAt port).replay ∧
      if f.seq = (s.portAt port).seqIn then
        (t.portAt port).seqIn = (s.portAt port).seqIn + 1 ∧ (t.portAt port).asked = none ∧
        ∀ k, f.pkt = some k → ∃ j, Action.trailPacketDeliver j ∈ t.due ∧ j.body = k.body ∧ j.dpkg = k.dpkg ∧ j.via = port + 1
      else (t.portAt port).seqIn = (s.portAt port).seqIn ∧ (t.portAt port).asked = some (s.portAt port).seqIn := by
  let s1 : State := { s with act := some (.flitReceive port f) }
  let x := s.portAt port
  let y : Port := { x with lastGood := s.time, replay := ackFlits f.ack x.replay }
  let y1 : Port := { y with seqIn := x.seqIn + 1, asked := none }
  have htaken : s1.goodFlit port f =
      if f.seq ≠ x.seqIn then s1.setPort port { y with asked := some x.seqIn }
      else match f.pkt with
        | some k => (s1.setPort port y1).post { k with via := port + 1 }
        | none => s1.setPort port y1 := by
    unfold State.goodFlit
    rcases hkind with h | h <;> rw [h] <;> rfl
  have hrun : execFlitReceive s1 = .next (s1.goodFlit port f) := by
    refine congrArg Host.Outcome.next ((if_neg ?_).trans (if_pos hgood))
    rw [show s1.portAt port = s.portAt port from rfl, hup, hlost, htrain]
    decide
  rw [htaken] at hrun
  by_cases hseq : f.seq = x.seqIn
  · rw [if_neg (not_not_intro hseq)] at hrun
    cases hk : f.pkt with
    | none =>
      rw [hk] at hrun
      refine ⟨_, hrun, calm_refl s, ?_⟩
      rw [portAt_setPort_self (s := s1) hr, if_pos hseq]
      exact ⟨rfl, rfl, rfl, rfl, fun k h => by cases h⟩
    | some k =>
      rw [hk] at hrun
      refine ⟨_, hrun, calm_refl s, ?_⟩
      rw [show ((s1.setPort port y1).post { k with via := port + 1 }).portAt port = y1 from portAt_setPort_self (s := s1) hr port y1, if_pos hseq]
      refine ⟨rfl, rfl, rfl, rfl, fun j h => ?_⟩
      cases h
      exact ⟨_, mem_due_post .., rfl, rfl, rfl⟩
  · rw [if_pos hseq] at hrun
    refine ⟨_, hrun, calm_refl s, ?_⟩
    rw [portAt_setPort_self (s := s1) hr, if_neg hseq]
    exact ⟨rfl, rfl, rfl, rfl⟩

theorem flitReceive_bad (hbad : flitGood f = false) :
    ∃ t, Does (.flitReceive port f) s t ∧ calm s t ∧ t.portAt port = { s.portAt port with asked := some (s.portAt port).seqIn } ∧
      let k := counterKey 0x00A8#16 3 (port + 32)
      NatMap.findD 0#32 k t.hub.counters =
        if NatMap.findD 0#32 k s.hub.counters = 0xFFFFFFFF#32 then 0xFFFFFFFF#32 else NatMap.findD 0#32 k s.hub.counters + 1#32 := by
  let s1 : State := { s with act := some (.flitReceive port f) }
  obtain ⟨hcalm, hcount⟩ := count_spec s1 .crcRetry 3 (portSource port true)
  have hrun : execFlitReceive s1 = .next ((s1.count .crcRetry 3 (portSource port true)).setPort port { s.portAt port with asked := some (s.portAt port).seqIn }) := by
    refine congrArg Host.Outcome.next ((if_neg ?_).trans (if_neg (Bool.eq_false_iff.1 hbad)))
    rw [show s1.portAt port = s.portAt port from rfl, hup, hlost, htrain]
    decide
  exact ⟨_, hrun, hcalm, portAt_setPort_self (s := s1.count .crcRetry 3 (portSource port true)) hr port _, hcount⟩

end

/-! ### Replay (R434, R471) -/

omit hr in
/-- A counter raised once for each of a list, up to its end (R445). -/
theorem countAll_spec {α : Type} (code : Cause) (src srcid : Nat) (fs : List α) (s : State) :
    let t := fs.foldl (fun s _ => s.count code src srcid) s
    let k := counterKey (causeCode code) src srcid
    calm s t ∧ t.fabric = s.fabric ∧ Grows s t ∧
      (NatMap.findD 0#32 k t.hub.counters).toNat = min (2 ^ 32 - 1) ((NatMap.findD 0#32 k s.hub.counters).toNat + fs.length) := by
  induction fs generalizing s with
  | nil => exact ⟨calm_refl s, rfl, .refl s, by rw [List.length_nil, List.foldl_nil]; omega⟩
  | cons f fs ih =>
    obtain ⟨hcalm, hcount⟩ := count_spec s code src srcid
    obtain ⟨h1, h2, h3, h4⟩ := ih (s.count code src srcid)
    refine ⟨hcalm.trans h1, h2, Grows.trans (.of_eq rfl) h3, ?_⟩
    dsimp only [List.foldl_cons]
    rw [h4, hcount, List.length_cons]
    generalize NatMap.findD 0#32 (counterKey (causeCode code) src srcid) s.hub.counters = v
    split
    · next h => subst h; simp only [BitVec.toNat_ofNat]; omega
    · next h =>
      have hlt : v.toNat ≠ 2 ^ 32 - 1 := fun e => h (BitVec.eq_of_toNat_eq e)
      rw [BitVec.toNat_add]
      simp only [BitVec.toNat_ofNat]
      omega

/-- Held flits resent: the port's replay buffer and a counter alone change. -/
theorem replayFrom_spec (seq : BitVec 12) :
    let x := s.portAt port
    let t := s.replayFrom port seq
    calm s t ∧ t.portAt port = { x with replay := againFrom seq x.replay } ∧ Grows s t ∧ t.fabric.promoted = s.fabric.promoted ∧
      let k := counterKey (causeCode .linkReplay) 3 port
      (NatMap.findD 0#32 k t.hub.counters).toNat = min (2 ^ 32 - 1) ((NatMap.findD 0#32 k s.hub.counters).toNat + (flitsFrom seq x.replay).length) := by
  obtain ⟨h1, h2, h3, h4⟩ := countAll_spec .linkReplay 3 (portSource port false) (flitsFrom seq (s.portAt port).replay) s
  obtain ⟨v, hv⟩ : ∃ v, (flitsFrom seq (s.portAt port).replay).foldl (fun s _ => s.count .linkReplay 3 (portSource port false)) s = v := ⟨_, rfl⟩
  rw [hv] at h1 h2 h3 h4
  have hrun : s.replayFrom port seq = v.setPort port { s.portAt port with replay := againFrom seq (s.portAt port).replay } := by
    unfold State.replayFrom
    dsimp only
    rw [hv]
  dsimp only
  rw [hrun]
  exact ⟨h1, portAt_setPort_self (by rw [h2]; exact hr) .., h3, (show v.fabric.promoted = s.fabric.promoted by rw [h2]), h4⟩

theorem replayRequest_does (seq : BitVec 12) (hsends : (s.portAt port).sends = true) :
    let x := s.portAt port
    ∃ t, Does (.replayRequest port seq) s t ∧ calm s t ∧
      t.portAt port = { x with replay := (x.replay.takeWhile fun f => decide (f.seq ≠ seq)) ++ (flitsFrom seq x.replay).map fun f => { f with again := f.again + 1 } } ∧
      let k := counterKey (causeCode .linkReplay) 3 port
      (NatMap.findD 0#32 k t.hub.counters).toNat = min (2 ^ 32 - 1) ((NatMap.findD 0#32 k s.hub.counters).toNat + (flitsFrom seq x.replay).length) := by
  obtain ⟨h1, h2, -, -, h3⟩ := replayFrom_spec (s := { s with act := some (.replayRequest port seq) }) (port := port) hr seq
  exact ⟨_, congrArg Host.Outcome.next (if_pos hsends), h1, h2, h3⟩

theorem laserWake_does : ∃ t, Does (.laserWakeRequest port) s t ∧ calm s t ∧ t.portAt port = { s.portAt port with wakeReq := true } :=
  ⟨_, rfl, calm_refl s, portAt_setPort_self (s := { s with act := some (.laserWakeRequest port) }) hr port _⟩

end

end Sys2Proof.Machine
end

section
set_option Elab.async false
/-! Retraining, loss of light and restriping (R321, R436 to R438). -/
namespace Sys2Proof.Machine

/-! ### Circuits that end (R321) -/

theorem sameRegs.trans {s t u : State} (h : sameRegs s t) (k : sameRegs t u) : sameRegs s u := by
  obtain ⟨h1, h2, h3⟩ := h
  obtain ⟨k1, k2, k3⟩ := k
  exact ⟨k1.trans h1, k2.trans h2, k3.trans h3⟩

theorem Saves.sameRegs {s t : State} (h : Saves s t) : sameRegs s t := by
  obtain ⟨_, _, _, _, rfl⟩ := h
  exact ⟨rfl, rfl, rfl⟩

theorem sameRegs.ite {s t u : State} {p : Prop} [Decidable p] (ht : sameRegs s t) (hu : sameRegs s u) : sameRegs s (if p then t else u) := by
  split
  · exact ht
  · exact hu

theorem sameRegs_modEng (s : State) (u : Nat) (f : Engines → Engines) : sameRegs s (s.modEng u f) := by
  unfold State.modEng
  split
  · exact (calm_modCore s _ (f := fun x => let e := f x.engines; { x with chans := e.chans, six := e.six, gl := e.gl, weak := e.weak }) (fun _ => rfl)
      fun _ => rfl).2
  · split
    · exact (calm_refl s).2
    · next x _ =>
      have hset : sameRegs s (s.setUnit u { x with eng := f x.eng }) := (calm_refl s).2
      refine .ite hset ?_
      split
      · exact hset.trans (saves_slotWriteAll ..).sameRegs
      · exact hset

theorem calm_endPromoted (s : State) (f : Promoted → Bool) : calm s (s.endPromoted f) := by
  obtain ⟨F, xs, h⟩ := fabricDue_endPromoted s f
  rw [h]
  exact calm_refl s

theorem promoted_endPromoted (s : State) (f : Promoted → Bool) {q : Promoted} (h : q ∈ (s.endPromoted f).fabric.promoted) : f q = false := by
  have hkeep := (List.mem_filter.1 h).2
  rwa [Bool.not_eq_true'] at hkeep

/-- The circuits across a port end: registers stay, memory too where no program circuit crosses it, and no promoted circuit crosses it any more. -/
theorem endCrossing_spec (s : State) (port : Nat) (k : GlCause) :
    let t := s.endCrossing port k
    sameRegs s t ∧ (s.circuitsBy port = [] → t.mem = s.mem) ∧ ∀ q ∈ t.fabric.promoted, ∀ w ∈ q.path, w.1 ≠ portWheel port := by
  have each (es : List (Nat × Nat)) (z : State) : sameRegs z (es.foldl (fun s e => s.endCircuit e.1 e.2 k) z) := by
    induction es generalizing z with
    | nil => exact (calm_refl z).2
    | cons e es ih => exact (sameRegs_modEng z e.1 _).trans (ih (z.endCircuit e.1 e.2 k))
  dsimp only
  unfold State.endCrossing
  refine ⟨(each (s.circuitsBy port) s).trans (calm_endPromoted ..).2, fun hnone => ?_, fun q hq w hw hport => ?_⟩
  · rw [hnone]
    exact (calm_endPromoted s _).1
  · have hnot := promoted_endPromoted _ _ hq
    rw [List.any_eq_false] at hnot
    exact hnot w hw (decide_eq_true hport)

section
variable {s : State} {port : Nat} (hr : RisingKeys s.fabric.ports)
include hr

/-! ### Retraining (R436) -/

theorem linkRetrain_does (hup : (s.portAt port).up = true) (hlost : (s.portAt port).lost = false) (htrain : (s.portAt port).training = false) :
    let x := s.portAt port
    ∃ t, Does (.linkRetrain port) s t ∧ sameRegs s t ∧ (s.circuitsBy port = [] → t.mem = s.mem) ∧
      if (∃ f ∈ x.replay, 16 ≤ f.again) ∨ x.lastGood + 2 ^ 16 ≤ s.time then
        t.portAt port = { x with training := true } ∧ (∃ ok flight seq, Action.retrainEnd port ok flight seq ∈ t.due) ∧
        ∀ q ∈ t.fabric.promoted, ∀ w ∈ q.path, w.1 ≠ portWheel port
      else t.portAt port = x ∧ Action.linkRetrain port ∈ t.due := by
  intro x
  let s1 : State := { s with act := some (.linkRetrain port) }
  let s2 : State := s1.setPort port { x with training := true }
  have hcond : (x.replay.any (fun f => decide (16 ≤ f.again)) = true ∨ x.lastGood + 2 ^ 16 ≤ s.time) ↔
      (∃ f ∈ x.replay, 16 ≤ f.again) ∨ x.lastGood + 2 ^ 16 ≤ s.time := by
    rw [List.any_eq_true]
    simp only [decide_eq_true_eq]
  have hrun : execLinkRetrain s1 = .next (if x.replay.any (fun f => decide (16 ≤ f.again)) ∨ x.lastGood + 2 ^ 16 ≤ s.time then
      (s2.endCrossing port .failed).awaitRetrain port else s1.addDue [.linkRetrain port]) := by
    refine congrArg Host.Outcome.next (if_neg ?_)
    rw [show s1.portAt port = s.portAt port from rfl, hup, hlost, htrain]
    decide
  by_cases hc : (∃ f ∈ x.replay, 16 ≤ f.again) ∨ x.lastGood + 2 ^ 16 ≤ s.time
  · rw [if_pos (hcond.2 hc)] at hrun
    obtain ⟨h1, h2, h3⟩ := endCrossing_spec s2 port .failed
    have hside := aside_endCrossing s2 port .failed
    obtain ⟨v, hv⟩ : ∃ v, s2.endCrossing port .failed = v := ⟨_, rfl⟩
    rw [hv] at hrun h1 h2 h3 hside
    refine ⟨_, hrun, h1, fun hnone => h2 hnone, ?_⟩
    rw [if_pos hc]
    exact ⟨(hside.portAt port).trans (portAt_setPort_self (s := s1) hr port _), ⟨_, _, _, mem_due_addDue (List.mem_singleton_self _)⟩, h3⟩
  · rw [if_neg (fun h => hc (hcond.1 h))] at hrun
    refine ⟨_, hrun, (calm_refl s).2, fun _ => rfl, ?_⟩
    rw [if_neg hc]
    exact ⟨rfl, mem_due_addDue (List.mem_singleton_self _)⟩

section
variable (flight : Nat) (seq : BitVec 12) (htrain : (s.portAt port).training = true) (hlost : (s.portAt port).lost = false)
include htrain hlost

omit hlost in
theorem retrainEnd_good :
    ∃ t, Does (.retrainEnd port true flight seq) s t ∧ calm s t ∧ Action.linkRetrain port ∈ t.due ∧ (t.portAt port).training = false ∧
      (t.portAt port).fails = 0 ∧ (t.portAt port).flight = flight % 64 ∧ (t.portAt port).lastGood = s.time := by
  let s1 : State := { s with act := some (.retrainEnd port true flight seq) }
  let x := s.portAt port
  let y : Port := { x with training := false, fails := 0, replay := x.replay.map fun f => { f with again := 0 }, flight := flight % 64, lastGood := s.time }
  have hrun : execRetrainEnd s1 = .next (((s1.setPort port y).replayFrom port seq).addDue [.linkRetrain port]) := by
    exact (if_neg (not_not_intro htrain)).trans (if_pos rfl)
  obtain ⟨h1, h2, -⟩ := replayFrom_spec (s := s1.setPort port y) (port := port) (hr.putD ..) seq
  rw [show (s1.setPort port y).portAt port = y from portAt_setPort_self (s := s1) hr port y] at h2
  obtain ⟨v, hv⟩ : ∃ v, (s1.setPort port y).replayFrom port seq = v := ⟨_, rfl⟩
  rw [hv] at hrun h1 h2
  refine ⟨_, hrun, h1, mem_due_addDue (List.mem_singleton_self _), ?_⟩
  rw [show (v.addDue [.linkRetrain port]).portAt port = _ from h2]
  exact ⟨rfl, rfl, rfl, rfl⟩

omit hlost in
theorem retrainEnd_again (hfew : (s.portAt port).fails < 2) :
    ∃ t, Does (.retrainEnd port false flight seq) s t ∧ calm s t ∧ t.portAt port = { s.portAt port with fails := (s.portAt port).fails + 1 } ∧
      ∃ ok fl sq, Action.retrainEnd port ok fl sq ∈ t.due := by
  let s1 : State := { s with act := some (.retrainEnd port false flight seq) }
  have hrun : execRetrainEnd s1 = .next ((s1.setPort port { s.portAt port with fails := (s.portAt port).fails + 1 }).awaitRetrain port) :=
    (if_neg (not_not_intro htrain)).trans ((if_neg Bool.false_ne_true).trans
      (if_neg (show ¬ 3 ≤ (s.portAt port).fails + 1 by omega)))
  exact ⟨_, hrun, calm_refl s, portAt_setPort_self (s := s1) hr port _, _, _, _, mem_due_addDue (List.mem_singleton_self _)⟩

theorem retrainEnd_lost (hmany : 2 ≤ (s.portAt port).fails) :
    ∃ t, Does (.retrainEnd port false flight seq) s t ∧ ((t.portAt port).up = false ∧ (t.portAt port).lost = true) ∧
      ∀ d, port ∉ NatMap.findD [] d t.fabric.routes := by
  let s1 : State := { s with act := some (.retrainEnd port false flight seq) }
  have hrun : execRetrainEnd s1 = .next ((s1.setPort port { s.portAt port with fails := 0 }).loseLink port) :=
    (if_neg (not_not_intro htrain)).trans ((if_neg Bool.false_ne_true).trans
      (if_pos (show 3 ≤ (s.portAt port).fails + 1 by omega)))
  obtain ⟨h1, h2, h3⟩ := loseLink_gone (s := s1.setPort port { s.portAt port with fails := 0 }) (port := port) (hr.putD ..)
    (by rw [portAt_setPort_self (s := s1) hr]; exact hlost)
  exact ⟨_, hrun, ⟨h1, h2⟩, h3⟩

end

/-! ### Loss of light (R437, R438, R464) -/

omit hr in
/-- The events of a loss: nothing else changes, and one comes where a lit wavelength is lost. -/
theorem lightEvents_spec (rx : Bool) (lost : BitVec 16) (qs : List Nat) (live : BitVec 16) (s : State) :
    let t := s.lightEvents port rx lost live qs
    (∃ xs, t = s.addDue xs) ∧ ((∃ q ∈ qs, quadBits q (live &&& lost) ≠ 0#16) → Reported t port .lightLoss) := by
  induction qs generalizing live s with
  | nil => exact ⟨⟨[], (State.addDue_nil s).symm⟩, fun ⟨q, hq, _⟩ => absurd hq List.not_mem_nil⟩
  | cons q qs ih =>
    dsimp only
    unfold State.lightEvents
    dsimp only
    split
    · next hz =>
      obtain ⟨h1, h2⟩ := ih live s
      refine ⟨h1, fun ⟨r, hr, hb⟩ => h2 ⟨r, (List.mem_cons.1 hr).resolve_left fun e => hb (e ▸ hz), hb⟩⟩
    · next hz =>
      obtain ⟨v, hv⟩ : ∃ v, s.event .lightLoss 3 port none 0#64 0#32 0#32 (BitVec.ofNat 64 (q + 16 * b2n rx)) (live.setWidth 64) = v := ⟨_, rfl⟩
      have hrep : Reported v port .lightLoss := hv ▸ reported_event ..
      obtain ⟨xs, hxs⟩ : ∃ xs, v = s.addDue xs := ⟨_, hv.symm⟩
      rw [hv]
      obtain ⟨⟨ys, hys⟩, -⟩ := ih (live &&& ~~~quadBits q (live &&& lost)) v
      rw [hys]
      refine ⟨⟨xs ++ ys, ?_⟩, fun _ => hrep.grows (.addDue v ys)⟩
      rw [hxs]
      unfold State.addDue
      rw [List.append_assoc]

omit hr in
/-- A wavelength that is lost is in one of the four quads. -/
theorem quad_of_ne {m : BitVec 16} (h : m ≠ 0#16) : ∃ q ∈ upFrom 0 4, quadBits q m ≠ 0#16 := by
  by_contra hno
  push Not at hno
  have h0 := hno 0 (by decide)
  have h1 := hno 1 (by decide)
  have h2 := hno 2 (by decide)
  have h3 := hno 3 (by decide)
  refine h ?_
  have hall : m = quadBits 0 m ||| quadBits 1 m ||| quadBits 2 m ||| quadBits 3 m := by
    unfold quadBits
    rw [← BitVec.and_or_distrib_left, ← BitVec.and_or_distrib_left, ← BitVec.and_or_distrib_left]
    exact (BitVec.and_allOnes (x := m)).symm
  rw [hall, h0, h1, h2, h3]
  decide

end

end Sys2Proof.Machine
end

section
set_option Elab.async false
/-! Wavelengths lost, restripes and the reconciliation of a lost link (R437 to R441, R464). -/
namespace Sys2Proof.Machine

theorem live_eq_masks (x : Port) (rx : Bool) : (x.masks rx).1 &&& ~~~(x.masks rx).2 = x.live rx := by cases rx <;> rfl

theorem masks_without (x : Port) (rx : Bool) (lost : BitVec 16) :
    (x.masks rx).1 &&& ~~~lost &&& ~~~(x.masks rx).2 = x.live rx &&& ~~~lost := by
  rw [BitVec.and_assoc, BitVec.and_comm (~~~lost), ← BitVec.and_assoc, live_eq_masks]

section
variable {s : State} {port : Nat} (hr : RisingKeys s.fabric.ports)
include hr

/-! ### Loss of light (R437, R464) -/

section
variable (rx : Bool) (lost : BitVec 16) (hup : (s.portAt port).up = true) (hlost : (s.portAt port).lost = false)
  (hold : (if rx then (s.portAt port).restripeRx else (s.portAt port).restripeTx) = none) (hlit : (s.portAt port).live rx &&& lost ≠ 0#16)
include hup hlost hold hlit

omit hr in
/-- A loss told to the events, with what the port then does. -/
theorem darken_eq :
    let x := s.portAt port
    let z := s.lightEvents port rx lost (x.live rx) (upFrom 0 4)
    s.darken port rx lost =
      if x.live rx &&& ~~~lost = 0#16 then (z.setPort port (x.withMasks rx ((x.masks rx).1 &&& ~~~lost) (x.masks rx).2)).loseLink port
      else
        let p := some (x.live rx, (x.masks rx).1 &&& ~~~lost)
        let z2 := z.setPort port (if rx then { x with restripeRx := p } else { x with restripeTx := p })
        z2.tickFree.addDue [.restripeComplete port rx (BitVec.ofNat 12 (Config.sense z2.free port))] := by
  intro x z
  unfold State.darken
  dsimp only
  rw [hold]
  dsimp only [Option.map_none, Option.getD_none]
  simp only [live_eq_masks, masks_without]
  rw [if_neg (by rw [hup, hlost]; exact not_or.2 ⟨not_not_intro rfl, not_or.2 ⟨Bool.false_ne_true, hlit⟩⟩)]
  rfl

theorem lightLoss_gone (hdark : (s.portAt port).live rx &&& ~~~lost = 0#16) :
    ∃ t, Does (.lightLoss port rx lost) s t ∧ (t.portAt port).up = false ∧ (t.portAt port).lost = true := by
  let s1 : State := { s with act := some (.lightLoss port rx lost) }
  let x := s.portAt port
  have hrun := darken_eq (s := s1) (port := port) rx lost hup hlost hold hlit
  dsimp only at hrun
  rw [show s1.portAt port = s.portAt port from rfl, if_pos hdark] at hrun
  obtain ⟨⟨xs, hz⟩, -⟩ := lightEvents_spec (port := port) rx lost (upFrom 0 4) (x.live rx) s1
  rw [hz] at hrun
  obtain ⟨h1, h2, -⟩ := loseLink_gone (s := (s1.addDue xs).setPort port (x.withMasks rx ((x.masks rx).1 &&& ~~~lost) (x.masks rx).2)) (port := port) (hr.putD ..)
    (by rw [portAt_setPort_self (s := s1.addDue xs) hr]; cases rx <;> exact hlost)
  exact ⟨_, congrArg Host.Outcome.next hrun, h1, h2⟩

theorem lightLoss_restripes (hlive : (s.portAt port).live rx &&& ~~~lost ≠ 0#16) :
    let x := s.portAt port
    ∃ t, Does (.lightLoss port rx lost) s t ∧ calm s t ∧ Reported t port .lightLoss ∧ (∃ seq, Action.restripeComplete port rx seq ∈ t.due) ∧
      let p := some (x.live rx, (x.masks rx).1 &&& ~~~lost)
      t.portAt port = if rx then { x with restripeRx := p } else { x with restripeTx := p } := by
  intro x
  let s1 : State := { s with act := some (.lightLoss port rx lost) }
  have hrun := darken_eq (s := s1) (port := port) rx lost hup hlost hold hlit
  dsimp only at hrun
  rw [show s1.portAt port = s.portAt port from rfl, if_neg hlive] at hrun
  obtain ⟨⟨xs, hz⟩, hrep⟩ := lightEvents_spec (port := port) rx lost (upFrom 0 4) (x.live rx) s1
  have hr1 := hrep (quad_of_ne hlit)
  rw [hz] at hr1
  rw [hz] at hrun
  refine ⟨_, congrArg Host.Outcome.next hrun, calm_refl s, ?_, ⟨_, mem_due_addDue (List.mem_singleton_self _)⟩, ?_⟩
  · exact hr1.grows ⟨_, rfl⟩
  · exact portAt_setPort_self (s := s1.addDue xs) hr port _

end

/-! ### Restriping (R438) -/

omit hr in
/-- Counting and a port's buffer do not show in the circuits that cross a port. -/
theorem circuitsBy_replayFrom (p q : Nat) (seq : BitVec 12) : (s.replayFrom p seq).circuitsBy q = s.circuitsBy q := by
  have counts (fs : List Flit) (v : State) : ∃ C, fs.foldl (fun s _ => s.count .linkReplay 3 (portSource p false)) v = v.withHub { v.hub with counters := C } := by
    induction fs generalizing v with
    | nil => exact ⟨_, rfl⟩
    | cons f fs ih =>
      obtain ⟨C, h⟩ := ih (v.count .linkReplay 3 (portSource p false))
      exact ⟨C, h⟩
  obtain ⟨C, h⟩ := counts (flitsFrom seq (s.portAt p).replay) s
  unfold State.replayFrom
  dsimp only
  rw [h]
  rfl

theorem restripe_does (rx : Bool) (seq : BitVec 12) {a b : BitVec 16}
    (hp : (if rx then (s.portAt port).restripeRx else (s.portAt port).restripeTx) = some (a, b)) :
    let x := s.portAt port
    ∃ t, Does (.restripeComplete port rx seq) s t ∧ sameRegs s t ∧ (s.circuitsBy port = [] → t.mem = s.mem) ∧ Reported t port .restriped ∧
      ((t.portAt port).masks rx) = (b, (x.masks rx).2) ∧
      (if rx then (t.portAt port).restripeRx else (t.portAt port).restripeTx) = none ∧
      (ones (b &&& ~~~(x.masks rx).2) < 12 → ∀ q ∈ t.fabric.promoted, ∀ w ∈ q.path, w.1 ≠ portWheel port) := by
  intro x
  let s1 : State := { s with act := some (.restripeComplete port rx seq) }
  let y := x.withMasks rx b (x.masks rx).2
  let z : Port := if rx then { y with restripeRx := none } else { y with restripeTx := none }
  have hzlive : z.live rx = b &&& ~~~(x.masks rx).2 := by cases rx <;> rfl
  let s2 := (s1.setPort port z).event .restriped 3 port none 0#64 0#32 0#32
    (BitVec.ofNat 64 (ones a + ones (z.live rx) * 2 ^ 8 + b2n rx * 2 ^ 16)) ((z.live rx).setWidth 64)
  have hr2 : RisingKeys s2.fabric.ports := hr.putD ..
  have hat2 : s2.portAt port = z := portAt_setPort_self (s := s1) hr port z
  obtain ⟨v, hv, hcalm, hcirc, hgrows, r, hat⟩ : ∃ v, (if rx then s2 else s2.replayFrom port seq) = v ∧ calm s v ∧ v.circuitsBy port = s.circuitsBy port ∧
      Grows s2 v ∧ ∃ r, v.portAt port = { z with replay := r } := by
    refine ⟨_, rfl, ?_⟩
    split
    · exact ⟨calm_refl s, rfl, .refl s2, z.replay, hat2⟩
    · obtain ⟨h1, h2, h3, -⟩ := replayFrom_spec (s := s2) (port := port) hr2 seq
      rw [hat2] at h2
      exact ⟨h1, circuitsBy_replayFrom (s := s2) .., h3, _, h2⟩
  have hrun : s1.restripe port rx seq = if ones (b &&& ~~~(x.masks rx).2) < 12 then v.endCrossing port .narrowed else v := by
    rw [← hv, ← hzlive]
    unfold State.restripe
    dsimp only
    rw [show (if rx then (s1.portAt port).restripeRx else (s1.portAt port).restripeTx) = some (a, b) from hp]
    rfl
  have hrep : Reported v port .restriped := (reported_event (s1.setPort port z) port .restriped ..).grows hgrows
  obtain ⟨t, ht, hregs, hmem, hside, hpro⟩ : ∃ t, s1.restripe port rx seq = t ∧ sameRegs v t ∧ (v.circuitsBy port = [] → t.mem = v.mem) ∧ Aside v t ∧
      (ones (b &&& ~~~(x.masks rx).2) < 12 → ∀ q ∈ t.fabric.promoted, ∀ w ∈ q.path, w.1 ≠ portWheel port) := by
    refine ⟨_, hrun, ?_⟩
    split
    · obtain ⟨h1, h2, h3⟩ := endCrossing_spec v port .narrowed
      exact ⟨h1, h2, aside_endCrossing .., fun _ => h3⟩
    · next hwide => exact ⟨(calm_refl v).2, fun _ => rfl, .refl v, fun h => absurd h hwide⟩
  refine ⟨t, congrArg Host.Outcome.next ht, hcalm.2.trans hregs, fun hnone => (hmem (hcirc.trans hnone)).trans hcalm.1, hrep.grows hside.2.2.2.2.2, ?_⟩
  rw [hside.portAt, hat]
  refine ⟨?_, ?_, hpro⟩
  · cases rx <;> rfl
  · cases rx <;> rfl

/-! ### Reconciliation (R440) -/

omit hr in
/-- A packet to be resent: its weight out of the export tables, and its delivery due again. -/
theorem resend_spec (k : Packet) : ∃ E, s.resend k = (s.withExports E).addDue [.trailPacketDeliver { k with via := 0 }] := by
  unfold State.resend
  dsimp only
  split
  · exact ⟨_, rfl⟩
  · exact ⟨s.fabric.exports, rfl⟩

omit hr in
theorem resendAll_spec (ks : List Packet) (s : State) :
    ∃ E, ks.foldl (fun s k => s.resend k) s = (s.withExports E).addDue (ks.map fun k => .trailPacketDeliver { k with via := 0 }) := by
  induction ks generalizing s with
  | nil => exact ⟨s.fabric.exports, (State.addDue_nil s).symm⟩
  | cons k ks ih =>
    obtain ⟨E, h⟩ := resend_spec (s := s) k
    obtain ⟨E', h'⟩ := ih (s.resend k)
    refine ⟨E', h'.trans ?_⟩
    rw [h]
    exact congrArg (fun d => ({ s.withExports E' with due := d } : State)) (List.append_assoc ..)

theorem reconcile_does (last : BitVec 12) (hlost : (s.portAt port).lost = true) (hheld : (s.portAt port).replay ≠ [])
    (hreach : s.reachable (s.portAt port).peer = true) :
    let x := s.portAt port
    ∃ t, Does (.reconcile port last) s t ∧ calm s t ∧ t.portAt port = { x with replay := [] } ∧ Reported t port .linkLost ∧
      ∀ k ∈ wholePackets (flitsAfter last x.replay), Action.trailPacketDeliver { k with via := 0 } ∈ t.due := by
  intro x
  let s1 : State := { s with act := some (.reconcile port last) }
  let fs := flitsAfter last x.replay
  obtain ⟨s2, hs2⟩ : ∃ s2, (s1.setPort port { x with replay := [] }).lostEvent port (fs.filter fun f => !slotFlit f).length 0 = s2 := ⟨_, rfl⟩
  have hrun : s1.reconcileAt port last = ((wholePackets fs).foldl (fun s k => s.resend k) s2).addDue
      ((fs.filterMap Flit.pkt).filterMap fun k => (brokenDown k).map Action.trailPacketDeliver) := by
    unfold State.reconcileAt
    dsimp only
    rw [if_neg (by
      rw [show s1.portAt port = s.portAt port from rfl, show s1.reachable (s.portAt port).peer = s.reachable (s.portAt port).peer from rfl, hlost, hreach,
        List.isEmpty_iff]
      exact not_or.2 ⟨not_not_intro rfl, not_or.2 ⟨hheld, not_not_intro rfl⟩⟩), ← hs2]
    rfl
  obtain ⟨E, hE⟩ := resendAll_spec (wholePackets fs) s2
  rw [hE] at hrun
  have hcalm : calm s s2 := by rw [← hs2]; exact calm_refl s
  have hat : s2.portAt port = { x with replay := [] } := by rw [← hs2]; exact portAt_setPort_self (s := s1) hr port _
  have hrep : Reported s2 port .linkLost := by rw [← hs2]; exact reported_event ..
  refine ⟨_, congrArg Host.Outcome.next hrun, hcalm, hat, ?_, fun k hk => ?_⟩
  · exact hrep.grows (Grows.trans (t := (s2.withExports E).addDue _) ⟨_, rfl⟩ (.addDue ..))
  · exact List.mem_append_left _ (List.mem_append_right _ (List.mem_map.2 ⟨k, hk, rfl⟩))

omit hr in
theorem reconcileTimeout_waits (hlost : (s.portAt port).lost = true) (hheld : (s.portAt port).replay ≠ [])
    (hearly : s.time < (s.portAt port).lostAt + 2 ^ 20) (hreach : s.reachable (s.portAt port).peer = true) :
    ∃ t, Does (.reconcileTimeout port) s t ∧ calm s t ∧ t.portAt port = s.portAt port ∧ Action.reconcileTimeout port ∈ t.due := by
  let s1 : State := { s with act := some (.reconcileTimeout port) }
  have hrun : execReconcileTimeout s1 = .next (s1.addDue [.reconcileTimeout port]) := by
    refine congrArg Host.Outcome.next ((if_neg ?_).trans (if_neg ?_))
    · rw [show s1.portAt port = s.portAt port from rfl, hlost, List.isEmpty_iff]
      exact not_or.2 ⟨not_not_intro rfl, hheld⟩
    · rw [show s1.portAt port = s.portAt port from rfl, show s1.reachable (s.portAt port).peer = true from hreach]
      exact not_or.2 ⟨Nat.not_le.2 hearly, not_not_intro rfl⟩
  exact ⟨_, hrun, calm_refl s, rfl, mem_due_addDue (List.mem_singleton_self _)⟩

end

end Sys2Proof.Machine
end

section
set_option Elab.async false
/-! What a lost link gives up, and what its actions do (R434 to R442, R444, R451). -/
namespace Sys2Proof.Machine

/-! ### Tokens of packets given up (R279, R441, R442) -/

/-- The ports and the accounts stay as they are, no key is newly written off, and what was due stays due. -/
def Kept (s t : State) : Prop :=
  t.fabric.ports = s.fabric.ports ∧ t.fabric.num = s.fabric.num ∧ t.hub.accounts = s.hub.accounts ∧
    (∀ e ∈ t.fabric.exports, e.2.2.2.2 = true → e ∈ s.fabric.exports) ∧ Grows s t

theorem Aside.kept {s t : State} (h : Aside s t) : Kept s t := by
  obtain ⟨h1, -, h3, h4, h5, h6⟩ := h
  exact ⟨h1, h3, h5, fun e he _ => h4 ▸ he, h6⟩

theorem Kept.trans {s t u : State} (h : Kept s t) (k : Kept t u) : Kept s u := by
  obtain ⟨h1, h2, h3, h4, h5⟩ := h
  obtain ⟨k1, k2, k3, k4, k5⟩ := k
  exact ⟨k1.trans h1, k2.trans h2, k3.trans h3, fun e he hf => h4 e (k4 e he hf) hf, h5.trans k5⟩

theorem Kept.writtenOff {s t : State} (h : Kept s t) {a : Handle} {d : BitVec 16} (hs : s.writtenOff a d = false) : t.writtenOff a d = false := by
  obtain ⟨-, -, hacc, hexp, -⟩ := h
  rw [Bool.eq_false_iff]
  intro ht
  obtain ⟨e, he, hhit⟩ := List.any_eq_true.1 ht
  obtain ⟨hmem, hlive⟩ := List.mem_filter.1 he
  have hflag : e.2.2.2.2 = true := (Bool.and_eq_true _ _ ▸ hhit).2
  have hsame : (t.live e.2.1 && decide ((t.accAt (accId e.2.1)).st ≠ .done)) = (s.live e.2.1 && decide ((s.accAt (accId e.2.1)).st ≠ .done)) := by
    unfold State.live State.accAt
    rw [hacc]
  rw [hsame] at hlive
  have hin : s.writtenOff a d = true := List.any_eq_true.2 ⟨e, List.mem_filter.2 ⟨hexp e hmem hflag, hlive⟩, hhit⟩
  rw [hs] at hin
  cases hin

theorem kept_exportSub (s : State) (h : Handle) (d : BitVec 16) (v : Nat) : Kept s (s.exportSub h d v) := by
  refine ⟨rfl, rfl, rfl, fun e he hflag => ?_, .of_eq rfl⟩
  obtain ⟨g, hg, rfl⟩ := List.mem_map.1 (List.mem_filter.1 he).1
  split at hflag
  · cases hflag
  · next hno =>
    rw [if_neg hno]
    exact (List.mem_filter.1 hg).1

/-- A packet given up: its token comes home tainted, unless its export entry is written off. -/
theorem giveUpPacket_spec (s : State) (k : Packet) :
    Kept s (s.giveUpPacket k) ∧ ∀ q, k.tok = some q → q.pkg ≠ s.fabric.num ∨ s.writtenOff q.acct k.dpkg = false →
      Action.combinerAdd (dieSite 0) { acct := q.acct, pkg := q.pkg, value := tokValue q.exp, taint := true, pts := 0#64 } ∈ (s.giveUpPacket k).due := by
  have hback (s : State) (q : Tok) (hq : k.tok = some q) :
      Action.combinerAdd (dieSite 0) { acct := q.acct, pkg := q.pkg, value := tokValue q.exp, taint := true, pts := 0#64 } ∈ (s.tokBack k true).due := by
    unfold State.tokBack
    rw [hq]
    exact mem_due_addDue (List.mem_singleton_self _)
  have hlost (s : State) : Aside s ((s.packetLost k false).tokBack k true) := (aside_packetLost ..).trans (aside_giveTok? ..)
  unfold State.giveUpPacket
  cases hc : s.cargo k with
  | none => exact ⟨(hlost s).kept, fun q hq _ => hback _ q hq⟩
  | some c =>
    obtain ⟨h, v⟩ := c
    dsimp only
    cases hw : s.writtenOff h k.dpkg with
    | false =>
      rw [if_neg Bool.false_ne_true]
      exact ⟨(kept_exportSub ..).trans (hlost _).kept, fun q hq _ => hback _ q hq⟩
    | true =>
      rw [if_pos rfl]
      refine ⟨?_, fun q hq hkeep => ?_⟩
      · split
        · exact (Aside.refl s).kept
        · exact (aside_packetLost ..).kept
      · unfold State.cargo at hc
        rw [hq] at hc
        dsimp only at hc
        split at hc
        · next hpkg =>
          cases hc
          rw [hw] at hkeep
          exact absurd hpkg (hkeep.resolve_right fun h => Bool.noConfusion h)
        · cases hc

theorem giveUpPackets_spec (ks : List Packet) (s : State) :
    let t := ks.foldl (fun s k => s.giveUpPacket k) s
    Kept s t ∧ ∀ k q, k ∈ ks → k.tok = some q → q.pkg ≠ s.fabric.num ∨ s.writtenOff q.acct k.dpkg = false →
      Action.combinerAdd (dieSite 0) { acct := q.acct, pkg := q.pkg, value := tokValue q.exp, taint := true, pts := 0#64 } ∈ t.due := by
  induction ks generalizing s with
  | nil => exact ⟨(Aside.refl s).kept, fun k q h => absurd h List.not_mem_nil⟩
  | cons k ks ih =>
    obtain ⟨h1, h2⟩ := giveUpPacket_spec s k
    obtain ⟨h3, h4⟩ := ih (s.giveUpPacket k)
    refine ⟨h1.trans h3, fun j q hj hq hkeep => ?_⟩
    rcases List.mem_cons.1 hj with rfl | hj
    · exact h3.2.2.2.2.mem (h2 q hq hkeep)
    · refine h4 j q hj hq (hkeep.imp (fun hp => ?_) h1.writtenOff)
      rw [h1.2.1]
      exact hp

/-- After 2^20 cycles the flits that a lost port holds are given up (R440). -/
theorem reconcileTimeout_givesUp {s : State} {port : Nat} (hr : RisingKeys s.fabric.ports) (hlost : (s.portAt port).lost = true)
    (hheld : (s.portAt port).replay ≠ []) (hlate : (s.portAt port).lostAt + 2 ^ 20 ≤ s.time) :
    ∃ t, Does (.reconcileTimeout port) s t ∧ (t.portAt port).replay = [] ∧ Reported t port .linkLost ∧
      ∀ k q, k ∈ wholePackets (s.portAt port).replay → k.tok = some q → q.pkg ≠ s.fabric.num ∨ s.writtenOff q.acct k.dpkg = false →
        Action.combinerAdd (dieSite 0) { acct := q.acct, pkg := q.pkg, value := tokValue q.exp, taint := true, pts := 0#64 } ∈ t.due := by
  let s1 : State := { s with act := some (.reconcileTimeout port) }
  let x := s.portAt port
  obtain ⟨s2, hs2⟩ : ∃ s2, (s1.setPort port { x with replay := [] }).lostEvent port 0 x.replay.length = s2 := ⟨_, rfl⟩
  have hrun : execReconcileTimeout s1 = .next ((wholePackets x.replay).foldl (fun s k => s.giveUpPacket k) s2) := by
    rw [← hs2]
    refine congrArg Host.Outcome.next ((if_neg ?_).trans (if_pos (.inl hlate)))
    rw [show s1.portAt port = s.portAt port from rfl, hlost, List.isEmpty_iff]
    exact not_or.2 ⟨not_not_intro rfl, hheld⟩
  obtain ⟨hkept, htoks⟩ := giveUpPackets_spec (wholePackets x.replay) s2
  obtain ⟨v, hv⟩ : ∃ v, (wholePackets x.replay).foldl (fun s k => s.giveUpPacket k) s2 = v := ⟨_, rfl⟩
  rw [hv] at hrun hkept htoks
  have hat : s2.portAt port = { x with replay := [] } := by rw [← hs2]; exact portAt_setPort_self (s := s1) hr port _
  have hrep : Reported s2 port .linkLost := by rw [← hs2]; exact reported_event ..
  refine ⟨v, hrun, ?_, hrep.grows hkept.2.2.2.2, fun k q hk hq hkeep => htoks k q hk hq ?_⟩
  · have hsame : v.portAt port = s2.portAt port := by unfold State.portAt; rw [hkept.1]
    rw [hsame, hat]
  · rw [← hs2]
    exact hkeep

/-- Settles O49: each action of a port by its own lemma. -/
theorem linkActionResults : Obligations.LinkActionResults := by
  unfold Obligations.LinkActionResults
  intro s port hr x noted gone
  refine ⟨fun ident num ver mask flight hport hmap hheld => ⟨?_, ?_⟩, fun f hup hlost htrain => ⟨?_, ?_⟩, fun seq => replayRequest_does hr seq,
    linkRetrain_does hr, fun flight seq htrain hlost => ⟨?_, ?_, ?_⟩, fun rx lost hup hlost hold hlit => ?_, fun rx seq a b hp => restripe_does hr rx seq hp,
    fun last => reconcile_does hr last, fun hlost hheld => ⟨?_, ?_⟩, laserWake_does hr⟩
  · exact train_up hr hport hmap hheld
  · exact train_mismatch hr hport hmap hheld
  · exact flitReceive_good hr f hup hlost htrain
  · exact flitReceive_bad hr f hup hlost htrain
  · exact retrainEnd_good hr flight seq htrain
  · exact retrainEnd_again hr flight seq htrain
  · exact retrainEnd_lost hr flight seq htrain hlost
  · split
    · next hdark => exact lightLoss_gone hr rx lost hup hlost hold hlit hdark
    · next hlive => exact lightLoss_restripes hr rx lost hup hlost hold hlit hlive
  · exact reconcileTimeout_waits hlost hheld
  · exact reconcileTimeout_givesUp hr hlost hheld

end Sys2Proof.Machine
end

section
set_option Elab.async false
/-! Memory in its one form (log entry 6): the rules. A lemma `State.Canonical.foo` says that `foo` gives a state whose memories are canonical from one
whose memories are; its proof names the lemmas of the functions that `foo` calls, the last to act outermost. -/
namespace Sys2Proof.Machine

/-- The state that an outcome goes on with has both memories in their one form. -/
def After (o : Host.Outcome State Fault Refusal) : Prop := ∀ t, o = .next t → t.Canonical

/-- What an attempt gives satisfies `P`. -/
def Yields {ε α : Type} (P : α → Prop) (e : Except ε α) : Prop := ∀ x, e = .ok x → P x

theorem After.next {t : State} (h : t.Canonical) : After (.next t) := fun _ e => by cases e; exact h
theorem After.fault {f : Fault} : After (.fault f) := fun _ e => by cases e
theorem After.refused {r : Refusal} : After (.refused r) := fun _ e => by cases e
theorem After.ite {p : Prop} [Decidable p] {a b : Host.Outcome State Fault Refusal} (ha : After a) (hb : After b) :
    After (if p then a else b) := by
  split
  · exact ha
  · exact hb

namespace Yields
variable {ε α β : Type} {P : β → Prop}

theorem ok {x : β} (h : P x) : Yields P (.ok x : Except ε β) := fun _ e => by cases e; exact h
theorem error {e : ε} : Yields P (.error e : Except ε β) := fun _ h => by cases h
theorem pure {x : β} (h : P x) : Yields P (Pure.pure x : Except ε β) := ok h
theorem ite {p : Prop} [Decidable p] {a b : Except ε β} (ha : Yields P a) (hb : Yields P b) : Yields P (if p then a else b) := by
  split
  · exact ha
  · exact hb

theorem map {f : α → β} {e : Except ε α} (h : Yields (fun x => P (f x)) e) : Yields P (e.map f) := by
  cases e with
  | error e => exact error
  | ok x => exact ok (h x rfl)

/-- What holds of whatever an attempt may give holds of what it gives. -/
theorem of_forall (h : ∀ x, P x) (e : Except ε β) : Yields P e := fun x _ => h x

theorem bind {Q : α → Prop} {e : Except ε α} {k : α → Except ε β} (h : Yields Q e) (hk : ∀ x, Q x → Yields P (k x)) :
    Yields P (e >>= k) := by
  cases e with
  | error e => exact error
  | ok x => exact hk x (h x rfl)

/-- An attempt that gives no state, and what follows it. -/
theorem read {e : Except ε α} {k : α → Except ε β} (hk : ∀ x, Yields P (k x)) : Yields P (e >>= k) :=
  bind (Q := fun _ => True) (of_forall (fun _ => trivial) e) fun x _ => hk x

/-- A check made under a condition, and what follows either way. -/
theorem guard {p : Prop} [Decidable p] {e : Except ε Unit} {k : Unit → Except ε β} (hk : ∀ x, Yields P (k x)) :
    Yields P (if p then e >>= k else k ()) := ite (read hk) (hk ())

/-- An attempt that gives a state beside what it answers, and what follows it. -/
theorem bind_snd {e : Except ε (α × State)} {k : α × State → Except ε β} (h : Yields (fun r => r.2.Canonical) e)
    (hk : ∀ a t, t.Canonical → Yields P (k (a, t))) : Yields P (e >>= k) := bind h fun r hr => hk r.1 r.2 hr

theorem bind_fst {e : Except ε (State × α)} {k : State × α → Except ε β} (h : Yields (fun r => r.1.Canonical) e)
    (hk : ∀ t a, t.Canonical → Yields P (k (t, a))) : Yields P (e >>= k) := bind h fun r hr => hk r.1 r.2 hr

theorem bind_state {e : Except ε State} {k : State → Except ε β} (h : Yields State.Canonical e) (hk : ∀ t, t.Canonical → Yields P (k t)) :
    Yields P (e >>= k) := bind h hk

end Yields

/-! ### What a confirmation, a landing and a slot come to -/

/-- The state that a confirmation goes on with is canonical. -/
def Confirmed.Keeps : Confirmed → Prop
  | .made t | .replayed t => t.Canonical
  | .waits => True

def Landing.Keeps : Landing → Prop
  | .done t _ | .dropped t | .waits t => t.Canonical
  | .fault _ _ => True

def GlFound.Keeps : GlFound → Prop
  | .waits t | .at _ _ t => t.Canonical
  | .nowhere => True

def Tried1.Keeps : Tried1 → Prop
  | .did t | .gone t => t.Canonical
  | .stops o => After o
  | .cause _ _ | .waits _ => True

/-- The states that trying the slots of a bundle has come to. -/
structure Tried.Keeps (r : Tried) : Prop where
  st : r.st.Canonical
  before : r.before.Canonical
  stop : ∀ o, r.stop = some o → After o

theorem Confirmed.Keeps.ite {p : Prop} [Decidable p] {a b : Confirmed} (ha : a.Keeps) (hb : b.Keeps) : (if p then a else b).Keeps := by
  split
  · exact ha
  · exact hb

theorem Landing.Keeps.ite {p : Prop} [Decidable p] {a b : Landing} (ha : a.Keeps) (hb : b.Keeps) : (if p then a else b).Keeps := by
  split
  · exact ha
  · exact hb

theorem GlFound.Keeps.ite {p : Prop} [Decidable p] {a b : GlFound} (ha : a.Keeps) (hb : b.Keeps) : (if p then a else b).Keeps := by
  split
  · exact ha
  · exact hb

theorem Confirmed.Keeps.made {t : State} (h : t.Canonical) : (Confirmed.made t).Keeps := h
theorem Confirmed.Keeps.replayed {t : State} (h : t.Canonical) : (Confirmed.replayed t).Keeps := h
theorem Confirmed.Keeps.waits : Confirmed.waits.Keeps := trivial
theorem Landing.Keeps.done {t : State} {w : Word} (h : t.Canonical) : (Landing.done t w).Keeps := h
theorem Landing.Keeps.dropped {t : State} (h : t.Canonical) : (Landing.dropped t).Keeps := h
theorem Landing.Keeps.waits {t : State} (h : t.Canonical) : (Landing.waits t).Keeps := h
theorem Landing.Keeps.fault {k : Cause} {a : Word} : (Landing.fault k a).Keeps := trivial
theorem GlFound.Keeps.nowhere : GlFound.nowhere.Keeps := trivial
theorem GlFound.Keeps.waits {t : State} (h : t.Canonical) : (GlFound.waits t).Keeps := h
theorem GlFound.Keeps.at {t : State} {d : Option Nat} {a : Option RingAt} (h : t.Canonical) : (GlFound.at d a t).Keeps := h

namespace State.Canonical
variable {s : State} (h : s.Canonical)
include h

/-- A state with the memory and the host port of another. -/
theorem update {cur : Nat} {core : Core} {others : NatMap Core} {hub : Hub} {power : Power} {fabric : Fabric} {act : Option Action}
    {due : List Action} {time free : Nat} : State.Canonical ⟨cur, core, others, s.mem, hub, power, fabric, s.port, act, due, time, free⟩ := h

/-- A state with the memory of another and a port with the other's host memory. -/
theorem updatePort {cur : Nat} {core : Core} {others : NatMap Core} {hub : Hub} {power : Power} {fabric : Fabric} {act : Option Action}
    {due : List Action} {time free : Nat} {session : Option (BitVec 16 × BitVec 32)} {heard : Nat} {events : List Block} {frames sent : List Frame}
    {blob flashFw : List Byte} {boot : Boot} {nextFw : Option Image} {ckpt : Option SafeCk} {lastCkpt : Nat × Nat} :
    State.Canonical ⟨cur, core, others, s.mem, hub, power, fabric,
      ⟨session, heard, events, frames, sent, s.port.mem, blob, flashFw, boot, nextFw, ckpt, lastCkpt⟩, act, due, time, free⟩ := h

omit h in
theorem ite {p : Prop} [Decidable p] {a b : State} (ha : a.Canonical) (hb : b.Canonical) : (if p then a else b).Canonical := by
  split
  · exact ha
  · exact hb

omit h in
theorem dite {p : Prop} [Decidable p] {a : p → State} {b : ¬p → State} (ha : ∀ hp, (a hp).Canonical) (hb : ∀ hp, (b hp).Canonical) :
    (if hp : p then a hp else b hp).Canonical := by
  split
  · exact ha _
  · exact hb _

theorem foldl {α : Type} {f : State → α → State} (hf : ∀ t x, t.Canonical → (f t x).Canonical) {xs : List α} :
    (xs.foldl f s).Canonical := by
  induction xs generalizing s with
  | nil => exact h
  | cons x xs ih => exact ih (hf s x h)

theorem getD {o : Option State} (ho : ∀ t, o = some t → t.Canonical) : (o.getD s).Canonical := by
  cases o with
  | none => exact h
  | some t => exact ho t rfl

omit h
variable {ε α : Type} {t : State} {a : α}

/-- The state that an attempt gave. -/
theorem of_ok {e : Except ε State} (he : e = .ok t) (hy : Yields State.Canonical e) : t.Canonical := hy t he
theorem of_ok_snd {e : Except ε (α × State)} (he : e = .ok (a, t)) (hy : Yields (fun r => r.2.Canonical) e) : t.Canonical := hy _ he
theorem of_ok_fst {e : Except ε (State × α)} (he : e = .ok (t, a)) (hy : Yields (fun r => r.1.Canonical) e) : t.Canonical := hy _ he

/-- The state beside an answer. -/
theorem of_snd {e : α × State} (he : e = (a, t)) (hy : e.2.Canonical) : t.Canonical := by
  rw [he] at hy
  exact hy
theorem of_fst {e : State × α} (he : e = (t, a)) (hy : e.1.Canonical) : t.Canonical := by
  rw [he] at hy
  exact hy

theorem of_made {c : Confirmed} (he : c = .made t) (hc : c.Keeps) : t.Canonical := by
  subst he
  exact hc
theorem of_replayed {c : Confirmed} (he : c = .replayed t) (hc : c.Keeps) : t.Canonical := by
  subst he
  exact hc
theorem of_done {l : Landing} {w : Word} (he : l = .done t w) (hl : l.Keeps) : t.Canonical := by
  subst he
  exact hl
theorem of_dropped {l : Landing} (he : l = .dropped t) (hl : l.Keeps) : t.Canonical := by
  subst he
  exact hl
theorem of_waits {l : Landing} (he : l = .waits t) (hl : l.Keeps) : t.Canonical := by
  subst he
  exact hl
theorem of_found {g : GlFound} {d : Option Nat} {a : Option RingAt} (he : g = .at d a t) (hg : g.Keeps) : t.Canonical := by
  subst he
  exact hg
theorem of_full {g : GlFound} (he : g = .waits t) (hg : g.Keeps) : t.Canonical := by
  subst he
  exact hg
theorem of_next {o : Host.Outcome State Fault Refusal} (he : o = .next t) (ho : After o) : t.Canonical := ho t he

end State.Canonical

end Sys2Proof.Machine
end

section
set_option Elab.async false
/-! Memory in its one form (log entry 6): what keeps it among the functions of the state, its memory and the translation of addresses. -/
namespace Sys2Proof.Machine.State.Canonical
variable {s : State} (h : s.Canonical)
include h

omit h in
theorem reset : State.reset.Canonical := by
  constructor
  · rfl
  · rfl

theorem setCore {c x} : (s.setCore c x).Canonical := ite (update h) (update h)

theorem withCore {x} : (s.withCore x).Canonical := h

theorem focus {c} : (s.focus c).Canonical := ite h (update h)

theorem modCore {c f} : (s.modCore c f).Canonical := setCore h

theorem withHub {h1} : (s.withHub h1).Canonical := h

theorem addDue {xs} : (s.addDue xs).Canonical := h

theorem post {k} : (s.post k).Canonical := addDue (update h)

theorem tickFree : s.tickFree.Canonical := h

theorem setUnit {u x} : (s.setUnit u x).Canonical := withHub h

theorem modUnit {u f} : (s.modUnit u f).Canonical := by
  unfold State.modUnit
  split
  · exact setUnit h
  · exact h

theorem setAcc {i a} : (s.setAcc i a).Canonical := withHub h

theorem setPart {p d} : (s.setPart p d).Canonical := dite (fun _ => withHub h) fun _ => h

theorem setXfer {x t} : (s.setXfer x t).Canonical := withHub h

theorem event {code src srcid part addr acct tid arg0 arg1} : (s.event code src srcid part addr acct tid arg0 arg1).Canonical := addDue h

theorem count {code src srcid} : (s.count code src srcid).Canonical := withHub h

theorem respond {f code arg0 arg1 payload} : (s.respond f code arg0 arg1 payload).Canonical := h

theorem answerFrame {f k} : (s.answerFrame f k).Canonical := respond h

theorem startRanger {i} : (s.startRanger i).Canonical := setCore (withHub h)

theorem streamEvents : s.streamEvents.Canonical := by
  unfold State.streamEvents
  split
  · exact ite (updatePort h) h
  · exact h

theorem postHost {r t} (e : s.postHost r = some t) : t.Canonical := by
  unfold State.postHost at e
  split at e
  · cases e
  · cases e
    exact streamEvents (updatePort h)

theorem frameIn : s.frameIn.Canonical := by
  unfold State.frameIn
  dsimp only
  split
  · exact startRanger (updatePort h)
  · exact updatePort h

theorem screenFrame {f t} (e : s.screenFrame f = .error t) : t.Canonical := by
  unfold State.screenFrame at e
  split at e
  · cases e
    exact h
  · split at e
    · cases e
    · cases e
      exact respond h
  · dsimp only at e
    split at e
    · cases e
      exact answerFrame h
    · split at e
      · cases e
        exact answerFrame h
      · split at e
        · split at e
          · cases e
          · cases e
            exact answerFrame h
        · cases e

theorem withPower {p} : (s.withPower p).Canonical := h

theorem setOp {d k} : (s.setOp d k).Canonical := h

theorem modStep {d f} : (s.modStep d f).Canonical := by
  unfold State.modStep
  split
  · exact update h
  · exact h

theorem compact {c a a1} : (s.compact c a a1).Canonical := by
  induction a generalizing s c a1 with
  | nil => exact h
  | cons x xs ih =>
    unfold State.compact
    exact ih (setUnit h)

theorem remapRow {c row r} : (s.remapRow c row r).Canonical := withPower h

theorem sinkRows {c k a} : (s.sinkRows c k a).Canonical := by
  induction a generalizing s c k with
  | nil => exact h
  | cons x xs ih =>
    unfold State.sinkRows
    refine ih ?_
    refine ite h ?_
    split
    · exact remapRow h
    · exact h

theorem sinkPending {c rs} : (s.sinkPending c rs).Canonical := by
  unfold State.sinkPending
  split
  · exact sinkRows h
  · exact h

theorem giveRows {u c n} : (s.giveRows u c n).Canonical := by
  unfold State.giveRows
  refine ite (modUnit h) ?_
  split
  · exact sinkPending (modUnit h)
  · exact sinkPending (modUnit (compact h))

theorem freeRows {u} : (s.freeRows u).Canonical := by
  unfold State.freeRows
  split
  · exact ite h (addDue (withHub (setUnit h)))
  · exact h

theorem setTs {line t} : (s.setTs line t).Canonical := withHub h

theorem loadTs {pts line} : (s.loadTs pts line).1.Canonical := setTs h

theorem touch {coherent pa stack write t} : (s.touch coherent pa stack write t).Canonical := ite h (ite (addDue (withHub h)) (withHub h))

theorem putCells {cs} : (s.putCells cs).Canonical := ⟨State.putCells_wf h.1 cs, h.2⟩

theorem poke {pa bs} : (s.poke pa bs).Canonical := ⟨State.poke_wf h.1 pa bs, h.2⟩

theorem weakTsAll {top a} : (s.weakTsAll top a).1.Canonical := by
  induction a generalizing s top with
  | nil => exact h
  | cons x xs ih =>
    unfold State.weakTsAll
    exact ih (setTs h)

theorem weakWrite {pa bs} : (s.weakWrite pa bs).1.Canonical := poke (weakTsAll h)

theorem weakPoke {pa bs} : (s.weakPoke pa bs).Canonical := weakWrite h

theorem weakNat {pa n v} : (s.weakNat pa n v).Canonical := by
  refine ⟨State.weakNat_wf h.1 pa n v, ?_⟩
  unfold State.weakNat
  split
  · exact h.2
  · exact h.2

theorem dropLeaf {r a} : (s.dropLeaf r a).Canonical := by
  induction a generalizing s r with
  | nil => exact h
  | cons x xs ih =>
    unfold State.dropLeaf
    exact ih (modCore h)

theorem dropDies {r} : (s.dropDies r).Canonical := withHub h

theorem trimDir : s.trimDir.Canonical := by
  unfold State.trimDir
  refine ite h ?_
  split
  · exact h
  · exact dropDies (dropLeaf (withHub h))

theorem noteWalk {stack p va} : (s.noteWalk stack p va).Canonical := withHub h

theorem installLeaf {c l} : (s.installLeaf c l).Canonical := trimDir (withHub (setCore h))

theorem leafFor {c p va l t} (e : s.leafFor c p va = some (l, t)) : t.Canonical := by
  unfold State.leafFor at e
  split at e
  · cases e
  · split at e
    · cases e
      exact h
    · obtain ⟨m, -, hm⟩ := Option.map_eq_some_iff.1 e
      cases hm
      exact noteWalk (installLeaf h)

theorem access {c va write seq} : Yields (fun r => r.2.Canonical) (s.access c va write seq) := by
  unfold State.access
  refine .ite (.ite (.ok h) .error) ?_
  split
  · exact .error
  · exact .ite .error (.ite .error (.ok (ite (modCore (leafFor h ‹_›)) (leafFor h ‹_›))))

theorem cacheLeaf {a p va} : (s.cacheLeaf a p va).Canonical := by
  unfold State.cacheLeaf
  refine ite h ?_
  split
  · exact h
  · exact ite (noteWalk (installLeaf h)) (trimDir (withHub h))

end Sys2Proof.Machine.State.Canonical
end

section
set_option Elab.async false
/-! Memory in its one form (log entry 6): what keeps it among the functions of weight, contexts and units. -/
namespace Sys2Proof.Machine.State.Canonical
variable {s : State} (h : s.Canonical)
include h

theorem giveBack {site acct pkg value taint pts} : (s.giveBack site acct pkg value taint pts).Canonical := addDue h

theorem giveTok {site t taint pts} : (s.giveTok site t taint pts).Canonical := giveBack h

theorem giveTok? {site t taint pts} : (s.giveTok? site t taint pts).Canonical := by
  unfold State.giveTok?
  split
  · exact giveTok h
  · exact h

theorem giveHold {site h1 taint pts} : (s.giveHold site h1 taint pts).Canonical := ite h (giveBack h)

theorem setComb {site es} : (s.setComb site es).Canonical := withHub h

theorem freeAcc {i} : (s.freeAcc i).Canonical := setAcc h

theorem freeAll {a} : (s.freeAll a).Canonical := by
  induction a generalizing s  with
  | nil => exact h
  | cons x xs ih =>
    unfold State.freeAll
    exact ih (freeAcc h)

theorem wakeOne {h1 taint cancel i} : (s.wakeOne h1 taint cancel i).Canonical := ite (ite (addDue (setAcc h)) (ite (addDue (setAcc h)) (setAcc h))) h

theorem wakeAll {h1 taint cancel a} : (s.wakeAll h1 taint cancel a).Canonical := by
  induction a generalizing s h1 taint cancel with
  | nil => exact h
  | cons x xs ih =>
    unfold State.wakeAll
    exact ih (wakeOne h)

theorem retire {i} : (s.retire i).Canonical :=
  ite (freeAcc (freeAll (wakeAll (ite (addDue (setAcc h)) (setAcc h))))) (wakeAll (ite (addDue (setAcc h)) (setAcc h)))

theorem returnAt {r} : (s.returnAt r).Canonical :=
  ite (event h) (ite (event h) (ite (retire (ite (event (setAcc h)) (setAcc h))) (ite (event (setAcc h)) (setAcc h))))

theorem newAcc {p lvl parent a i t} (e : s.newAcc p lvl parent a = some (i, t)) : t.Canonical := by
  unfold State.newAcc at e
  obtain ⟨j, -, hj⟩ := Option.map_eq_some_iff.1 e
  cases hj
  exact setAcc h

theorem borrow {h1} : (s.borrow h1).1.Canonical := by
  unfold State.borrow
  dsimp only
  split
  · exact h
  · split
    · exact event (setAcc h)
    · exact setAcc h

theorem splitOwner {i} : (s.splitOwner i).2.Canonical := by
  unfold State.splitOwner
  dsimp only
  split
  · exact h
  · split
    · split
      · exact ite (setAcc (of_fst ‹_› (borrow h))) (addDue (setAcc (of_fst ‹_› (borrow h))))
      · exact of_fst ‹_› (borrow h)
      · exact of_fst ‹_› (borrow h)
    · exact ite (setAcc h) (addDue (setAcc h))

theorem cancelOne {i} : (s.cancelOne i).Canonical := ite h (ite (ite (setAcc h) (addDue (setAcc h))) (addDue (ite (setAcc h) (addDue (setAcc h)))))

theorem cancelAll {a} : (s.cancelAll a).Canonical := by
  induction a generalizing s  with
  | nil => exact h
  | cons x xs ih =>
    unfold State.cancelAll
    exact ih (cancelOne h)

theorem dropTriggers {ids c} : (s.dropTriggers ids c).Canonical := ite h (foldl (setCore h) fun _ _ h1 => giveHold h1)

theorem each {f is} (hf : ∀ t i, t.Canonical → (f t i).Canonical) : (s.each f is).Canonical := by
  induction is generalizing s with
  | nil => exact h
  | cons x xs ih =>
    unfold State.each
    exact ih (hf s x h)

theorem noticeAll {h1 a} : (s.noticeAll h1 a).Canonical := by
  induction a generalizing s h1 with
  | nil => exact h
  | cons x xs ih =>
    unfold State.noticeAll
    exact ih (ite (post h) h)

theorem cancelList {ids} : (s.cancelList ids).Canonical := each (addDue (cancelAll h)) fun _ _ h1 => dropTriggers h1

theorem cancelAcc {i} : (s.cancelAcc i).Canonical := ite h (each (cancelList h) fun _ _ h1 => noticeAll h1)

theorem slotWrite {pages off n v} : (s.slotWrite pages off n v).Canonical := ite (weakNat h) (weakNat (weakNat h))

theorem slotWriteAll {pages a} : (s.slotWriteAll pages a).Canonical := by
  induction a generalizing s pages with
  | nil => exact h
  | cons x xs ih =>
    unfold State.slotWriteAll
    exact ih (slotWrite h)

theorem touchSlot {p stack base write a a1} : (s.touchSlot p stack base write a a1).Canonical := by
  induction a1 generalizing s p stack base write a with
  | zero =>
    unfold State.touchSlot
    exact h
  | succ n ih =>
    unfold State.touchSlot
    refine ih ?_
    split
    · exact touch h
    · exact h

theorem modPad {u f} : (s.modPad u f).Canonical := by
  unfold State.modPad
  split
  · exact modCore h
  · exact modUnit h

theorem modEng {u f} : (s.modEng u f).Canonical := by
  unfold State.modEng
  split
  · exact modCore h
  · split
    · exact h
    · refine ite (setUnit h) ?_
      split
      · exact slotWriteAll (setUnit h)
      · exact setUnit h

theorem raiseWeak {u colour w} : (s.raiseWeak u colour w).Canonical := modEng h

theorem enqueue {u c front} : (s.enqueue u c front).Canonical := addDue (modCore (modUnit h))

theorem dequeue {u} : (s.dequeue u).Canonical := by
  unfold State.dequeue
  split
  · exact modCore h
  · exact h

theorem newUnit {x} : (s.newUnit x).2.Canonical := ite (addDue (ite (setAcc (withHub h)) (withHub h))) (ite (setAcc (withHub h)) (withHub h))

theorem addUnit {x c front} : (s.addUnit x c front).2.Canonical := enqueue (newUnit h)

theorem detach {c} : (s.detach c).Canonical := by
  unfold State.detach
  dsimp only
  split
  · exact h
  · exact addDue (setCore (modUnit h))

theorem demote {c} : (s.demote c).Canonical := by
  unfold State.demote
  split
  · exact h
  · split
    · exact h
    · exact modCore (modUnit (ite h (freeRows h)))

theorem createHandler {c w d} : (s.createHandler c w d).Canonical := addUnit (modCore (demote h))

theorem forward {c part addr acct} : (s.forward c part addr acct).Canonical := event h

theorem reap {u} : (s.reap u).Canonical := by
  unfold State.reap
  split
  · exact ite (withHub (freeRows h)) h
  · exact h

theorem reapAll : s.reapAll.Canonical := each h fun _ _ h1 => reap h1

theorem retireUnit {u x taint site pts} : (s.retireUnit u x taint site pts).Canonical :=
  reap (modUnit (ite (setAcc (giveHold (dequeue h))) (giveHold (dequeue h))))

theorem breakTrees {c trees} : (s.breakTrees c trees).Canonical := addDue h

theorem giveToks {site pts a} : (s.giveToks site pts a).Canonical := by
  induction a generalizing s site pts with
  | nil => exact h
  | cons x xs ih =>
    unfold State.giveToks
    exact ih (giveTok h)

theorem settleChan {u site n pts} : (s.settleChan u site n pts).Canonical := ite (giveToks (modEng h)) h

theorem dropChanToks {u site pts a} : (s.dropChanToks u site pts a).Canonical := by
  induction a generalizing s u site pts with
  | nil => exact h
  | cons x xs ih =>
    unfold State.dropChanToks
    exact ih (settleChan h)

theorem dropFaulted {u} : (s.dropFaulted u).Canonical := withHub h

theorem quitEngines {u site pts} : (s.quitEngines u site pts).Canonical := dropChanToks (modEng (dropFaulted h))

theorem quitBroken {u site pts} : (s.quitBroken u site pts).Canonical := dropChanToks (modEng (dropFaulted h))

theorem quitTrapped {c w} : (s.quitTrapped c w).Canonical := by
  unfold State.quitTrapped
  split
  · exact h
  · refine ite h ?_
    refine retireUnit ?_
    split
    · exact detach (quitEngines h)
    · exact quitEngines h

theorem nextTrap {c a} : (s.nextTrap c a).Canonical := by
  induction a generalizing s c with
  | nil =>
    unfold State.nextTrap
    exact modCore h
  | cons x xs ih =>
    unfold State.nextTrap
    split
    · exact createHandler (modCore h)
    · exact ih (forward (quitTrapped h))

theorem endUnit {u taint site pts} : (s.endUnit u taint site pts).Canonical := by
  unfold State.endUnit
  split
  · exact h
  · exact ite h (ite (nextTrap (retireUnit h)) (retireUnit h))

theorem endRunning {c taint cancel} : (s.endRunning c taint cancel).Canonical := by
  unfold State.endRunning
  dsimp only
  split
  · exact h
  · exact endUnit (detach (ite (quitBroken (breakTrees h)) (quitEngines h)))

theorem discard {u} : (s.discard u).Canonical := by
  unfold State.discard
  split
  · exact h
  · exact ite h (addDue (endUnit (quitBroken (ite h (breakTrees h)))))

theorem endAny {u taint} : (s.endAny u taint).Canonical := by
  unfold State.endAny
  split
  · exact endRunning h
  · exact endUnit (quitEngines h)
  · exact h

theorem endLandingsOf {d u} : (s.endLandingsOf d u).Canonical := ite h (addDue (modEng h))

theorem stopIncoming {d a} : (s.stopIncoming d a).Canonical := by
  induction a generalizing s d with
  | nil => exact h
  | cons x xs ih =>
    unfold State.stopIncoming
    exact ite (ih (post h)) (ih h)

theorem endLandings {d} : (s.endLandings d).Canonical := stopIncoming (each h fun _ _ h1 => endLandingsOf h1)

theorem padWrite {u off bs} : (s.padWrite u off bs).Canonical := by
  unfold State.padWrite
  split
  · exact ite (modPad h) h
  · refine ite ?_ (modPad h)
    split
    · exact h
    · exact slotWrite h

theorem spillPages {pad i ps} : (s.spillPages pad i ps).Canonical := by
  induction ps generalizing s i with
  | nil => exact h
  | cons x xs ih =>
    unfold State.spillPages
    exact ih (s := { s with mem := _, hub := _ }) ⟨cellsWf_cellsPut (cellsWf_cellsDrop h.1 _ _) _, h.2⟩

theorem writeBack {u colours a} : (s.writeBack u colours a).Canonical := by
  induction a generalizing s u colours with
  | nil => exact h
  | cons x xs ih =>
    unfold State.writeBack
    exact ite (ih h) (ih (putCells (foldl (modPad (setTs (touch h))) fun _ _ h1 => ite (raiseWeak h1) h1)))

theorem writeBackAll {u} : (s.writeBackAll u).Canonical := writeBack h

theorem spill {u} : (s.spill u).Canonical := by
  unfold State.spill
  split
  · exact h
  · dsimp only
    split
    · exact endUnit (event (endLandings (writeBackAll h)))
    · exact freeRows (modUnit (spillPages (endLandings (writeBackAll h))))

theorem respot {u} : (s.respot u).Canonical := by
  unfold State.respot
  split
  · exact h
  · exact ite h (addDue (modUnit (dequeue h)))

theorem unspill {u} : (s.unspill u).Canonical := by
  unfold State.unspill
  split
  · exact h
  · refine ite h ?_
    split
    · exact endUnit (event h)
    · exact modUnit h

theorem suspend {c kind t} : Yields State.Canonical (s.suspend c kind t) := by
  unfold State.suspend
  dsimp only
  split
  · exact .ok h
  · split
    · exact .ok h
    · split
      · exact .error
      · exact .ok (modUnit (detach (touchSlot (slotWriteAll h))))

theorem startFresh {c u y} : (s.startFresh c u y).Canonical := modUnit (setCore h)

theorem retranslate {c a} : Yields (fun r => r.2.Canonical) (s.retranslate c a) := by
  induction a generalizing s c with
  | nil =>
    unfold State.retranslate
    exact .ok h
  | cons x xs ih =>
    unfold State.retranslate
    dsimp only
    split
    · exact .error
    · split
      · exact .ok (of_ok_snd ‹_› (ih (of_ok_snd ‹_› (access h))))
      · exact .error

theorem keepStores {c ws} : (s.keepStores c ws).Canonical := by
  unfold State.keepStores
  split
  · exact modCore (of_ok_snd ‹_› (retranslate h))
  · exact modUnit h
  · exact h

theorem resumeOn {c u y} : (s.resumeOn c u y).Canonical := by
  unfold State.resumeOn
  dsimp only
  split
  · exact endUnit (event (setCore h))
  · exact ite (event (keepStores (touchSlot (modUnit (setCore h))))) (keepStores (touchSlot (modUnit (setCore h))))

end Sys2Proof.Machine.State.Canonical
end

section
set_option Elab.async false
/-! Memory in its one form (log entry 6): what keeps it among the functions of operands, confirmations, traps and barriers. -/
namespace Sys2Proof.Machine.State.Canonical
variable {s : State} (h : s.Canonical)
include h

theorem fly {lat dest v mask flags} : (s.fly lat dest v mask flags).Canonical := withCore h

theorem resultS {nowb d lat v flags} : Yields State.Canonical (s.resultS nowb d lat v flags) := by
  unfold State.resultS
  refine .ite (.ok (fly h)) ?_
  split
  · exact .ite (.ok (withCore (fly h))) .error
  · exact .ok (fly h)

theorem resultV {nowb d lat v wmask carry flags} : Yields State.Canonical (s.resultV nowb d lat v wmask carry flags) := by
  unfold State.resultV
  refine .ite (.ok (fly h)) ?_
  split
  · exact .ite (.ok (withCore (fly h))) .error
  · exact .ok (fly h)

theorem resultM {nowb d lat v wmask} : (s.resultM nowb d lat v wmask).Canonical := fly h

theorem resultP {nowb d lat v} : (s.resultP nowb d lat v).Canonical := fly h

theorem noResult : s.noResult.Canonical := fly h

theorem holdLine {c line} : (s.holdLine c line).Canonical := by
  unfold State.holdLine
  refine ite ?_ h
  split
  · exact ite (withHub h) h
  · exact h

theorem readLine {c line after} : (s.readLine c line after).Canonical := holdLine (modCore (touch (loadTs h)))

theorem readLines {c after a} : (s.readLines c after a).Canonical := by
  induction a generalizing s c after with
  | nil => exact h
  | cons x xs ih =>
    unfold State.readLines
    exact ih (readLine h)

theorem haltRanger : s.haltRanger.Canonical := event (modCore h)

theorem eccStop {h1 part pa} : (s.eccStop h1 part pa).Canonical := ite (cancelAcc (event h)) (event h)

theorem eccAt {c pa} : (s.eccAt c pa).Canonical := by
  unfold State.eccAt
  refine ite ?_ (eccStop h)
  split
  · exact haltRanger (eccStop h)
  · exact haltRanger (event h)

theorem fillLoad {c} : (s.fillLoad c).Canonical := by
  unfold State.fillLoad
  split
  · exact h
  · exact ite (eccAt (setCore h)) (modCore (readLines h))

theorem fillLoads {c a} : (s.fillLoads c a).Canonical := by
  induction a generalizing s c with
  | zero =>
    unfold State.fillLoads
    exact h
  | succ n ih =>
    unfold State.fillLoads
    exact ite (ih (fillLoad h)) h

theorem dropGets {c} : (s.dropGets c).Canonical := withHub h

theorem dropAnchor {c} : (s.dropAnchor c).Canonical := by
  unfold State.dropAnchor
  split
  · exact ite (addDue (withHub h)) h
  · exact h

theorem rollback : s.rollback.Canonical := by
  unfold State.rollback
  refine withCore ?_
  refine dropAnchor ?_
  refine dropGets ?_
  split
  · exact writeBackAll h
  · exact h

theorem replay {k} : (s.replay k).Canonical := count (addDue (withCore (keepStores (rollback h))))

theorem rangerTrap {t} : (s.rangerTrap t).Canonical := ite (haltRanger h) (withCore (weakNat h))

theorem handleTrap {c u w handlerUnit t} : (s.handleTrap c u w handlerUnit t).Canonical := by
  unfold State.handleTrap
  dsimp only
  split
  · exact forward (endAny h)
  · refine ite (forward (endAny h)) ?_
    split
    · exact createHandler h
    · exact ite (setCore h) (event (forward (endAny h)))

theorem coreTrap {t} : (s.coreTrap t).Canonical := by
  unfold State.coreTrap
  dsimp only
  split
  · exact h
  · split
    · exact handleTrap (slotWrite (of_ok ‹_› (suspend (fillLoads h))))
    · exact endRunning (event (fillLoads h))
    · exact endRunning (event (fillLoads h))

theorem stopHere {addr} : (s.stopHere addr).Canonical := withCore (eccAt h)

theorem takeTrap {t} : (s.takeTrap t).Canonical :=
  ite (stopHere h) (ite (rangerTrap (withCore (rollback h))) (ite (endRunning (withCore (rollback h))) (coreTrap (withCore (rollback h)))))

theorem weakTrap {u t} : (s.weakTrap u t).Canonical := by
  unfold State.weakTrap
  split
  · exact h
  · dsimp only
    split
    · exact endAny (event h)
    · exact handleTrap (slotWrite h)

theorem releaseTrapped {u skip finish} : (s.releaseTrapped u skip finish).Canonical := by
  unfold State.releaseTrapped
  split
  · exact h
  · exact ite h (ite (endUnit (quitEngines h)) (ite (discard (modUnit h)) (enqueue (modUnit h))))

theorem rangerReturn {skip} : (s.rangerReturn skip).Canonical := withCore h

theorem returnTrap {skip finish} : (s.returnTrap skip finish).Canonical := by
  unfold State.returnTrap
  refine ite (rangerReturn h) ?_
  refine endRunning ?_
  split
  · split
    · exact releaseTrapped h
    · exact h
  · exact h

theorem trapSlot {k addr} : (s.trapSlot k addr).Canonical := takeTrap h

theorem stall {want} : (s.stall want).Canonical := withCore h

theorem settle {a} (ha : Yields State.Canonical a) : (s.settle a).Canonical := by
  unfold State.settle
  split
  · exact ha _ rfl
  · exact trapSlot h
  · exact stall h

theorem pops {as} : (s.pops as).Canonical := withCore h

theorem issue {p as k} (hk : ∀ t, t.Canonical → Yields State.Canonical (k t)) : After (s.issue p as k) := .next (ite (settle h (hk _ (pops h))) h)

theorem issueV {m as k} (hk : ∀ t b, t.Canonical → Yields State.Canonical (k t b)) : After (s.issueV m as k) := .next (settle h (hk _ _ (pops h)))

theorem reserve {q kind req vec} : (s.reserve q kind req vec).2.Canonical := withCore (withHub h)

theorem answer {u id v} : (s.answer u id v).Canonical := by
  unfold State.answer
  split
  · exact modCore h
  · split
    · exact h
    · split
      · exact modUnit (slotWrite (slotWrite h))
      · exact h

theorem renew {t a} : (s.renew t a).Canonical := by
  induction a generalizing s t with
  | nil => exact h
  | cons x xs ih =>
    unfold State.renew
    exact ih (setTs h)

theorem commit {stack t a} : (s.commit stack t a).Canonical := by
  induction a generalizing s stack t with
  | nil => exact h
  | cons x xs ih =>
    unfold State.commit
    exact ih (putCells (setTs (touch h)))

theorem release : s.release.Canonical := ite h (withCore (commit (renew h)))

theorem startGets : s.startGets.Canonical := addDue (withHub h)

theorem takeBounds : s.takeBounds.Canonical := withCore h

theorem confirm : s.confirm.Keeps := by
  unfold State.confirm
  exact .ite (.replayed (replay (fillLoads h))) (.ite .waits (.ite (.replayed (replay (fillLoads h)))
    (.made (startGets (withCore (takeBounds (dropAnchor (release (fillLoads h)))))))))

theorem confirmThen {k} (hk : ∀ t, t.Canonical → Yields State.Canonical (k t)) : Yields State.Canonical (s.confirmThen k) := by
  unfold State.confirmThen
  split
  · exact hk _ (of_made ‹_› (confirm h))
  · exact .error
  · exact .ok (of_replayed ‹_› (confirm h))

theorem preemptCircuits {u} : (s.preemptCircuits u).Canonical := endLandings (addDue (modEng h))

theorem capSpill {c u part acct} : (s.capSpill c u part acct).Canonical := modStep (event (respot (spill h)))

theorem preemptNow : s.preemptNow.Canonical := by
  unfold State.preemptNow
  dsimp only
  split
  · exact h
  · refine ite (replay (fillLoads h)) ?_
    refine ite ?_ ?_
    · split
      · exact endRunning (event (dropAnchor (preemptCircuits (withCore (fillLoads h)))))
      · exact ite (capSpill (enqueue (of_ok ‹_› (suspend (dropAnchor (preemptCircuits (withCore (fillLoads h))))))))
          (enqueue (of_ok ‹_› (suspend (dropAnchor (preemptCircuits (withCore (fillLoads h)))))))
    · split
      · split
        · exact endRunning (event (dropAnchor (preemptCircuits (withCore (of_made ‹_› (confirm (fillLoads h)))))))
        · exact ite (capSpill (enqueue (of_ok ‹_› (suspend (dropAnchor (preemptCircuits (withCore (of_made ‹_› (confirm (fillLoads h))))))))))
            (enqueue (of_ok ‹_› (suspend (dropAnchor (preemptCircuits (withCore (of_made ‹_› (confirm (fillLoads h)))))))))
      · exact h
      · exact of_replayed ‹_› (confirm (fillLoads h))

theorem preemptStalled : s.preemptStalled.Canonical := preemptNow (withCore h)

theorem cancelNow : s.cancelNow.Canonical := endRunning (dropAnchor (dropGets h))

theorem spawnTriggered {c t argv s8 s9 h1 pts} : (s.spawnTriggered c t argv s8 s9 h1 pts).Canonical := ite (addUnit h) (addDue (newUnit h))

theorem setTrig {c k t} : (s.setTrig c k t).Canonical := modCore h

theorem splitTrigger {c k t} : (s.splitTrigger c k t).2.Canonical := ite (setTrig h) (giveBack (setTrig h))

theorem spawnBarrier {c k t rec} : (s.spawnBarrier c k t rec).Canonical := spawnTriggered (splitTrigger h)

theorem askForTrigger {c k t} : (s.askForTrigger c k t).Canonical := post h

theorem fireBarrier {c k t rec} : (s.fireBarrier c k t rec).Canonical := by
  unfold State.fireBarrier
  refine ite ?_ (spawnBarrier h)
  refine ite ?_ (ite (askForTrigger (setTrig h)) (setTrig h))
  split
  · exact spawnBarrier (of_fst ‹_› (borrow h))
  · exact giveHold (setTrig (of_fst ‹_› (borrow h)))
  · exact of_fst ‹_› (borrow h)

theorem fireAsked {c k a} : (s.fireAsked c k a).Canonical := by
  induction a generalizing s c k with
  | nil => exact h
  | cons x xs ih =>
    unfold State.fireAsked
    split
    · exact ih (fireBarrier h)
    · exact h

theorem trigBorrowed {c k h1 pkg refused} : (s.trigBorrowed c k h1 pkg refused).Canonical := by
  unfold State.trigBorrowed
  split
  · refine ite (ite (giveBack h) h) ?_
    split
    · exact fireAsked (setTrig h)
    · exact ite (fireAsked (setTrig h)) (giveHold (setTrig h))
  · exact ite (giveBack h) h

theorem setBar {loc b} : (s.setBar loc b).Canonical := by
  unfold State.setBar
  split
  · exact weakNat h
  · exact padWrite h

theorem barRz {loc b} : (s.barRz loc b).Canonical := addDue h

theorem barDone {loc b complete} : (s.barDone loc b complete).Canonical := by
  unfold State.barDone
  refine ite ?_ (giveToks (withHub h))
  split
  · exact fireBarrier (giveToks (withHub h))
  · exact giveToks (withHub h)

theorem barArrive {loc n wts} : (s.barArrive loc n wts).Canonical :=
  ite (ite (setBar (barRz h)) (barDone (event (setBar (barRz h))))) (ite (barDone (setBar (barRz h))) (setBar (barRz h)))

theorem barPost {loc n} : (s.barPost loc n).Canonical := ite (barDone (setBar (barRz h))) (setBar (barRz h))

theorem setWeight {c h1} : (s.setWeight c h1).Canonical := by
  unfold State.setWeight
  refine ite ?_ (modCore h)
  split
  · exact setAcc h
  · exact h

theorem splitHere : Yields (fun r => r.2.Canonical) (s.splitHere) := by
  unfold State.splitHere
  refine .ite .error ?_
  refine .ite ?_ (.ok (ite (setWeight h) (giveBack (setWeight h))))
  split
  · exact .error
  · exact .error
  · exact .error
  · exact .error
  · exact .error

theorem engineRz {bad} : (s.engineRz bad).Canonical := ite (event h) h

end Sys2Proof.Machine.State.Canonical
end

section
set_option Elab.async false
/-! Memory in its one form (log entry 6): what keeps it among the functions of accounts, messages and atomics. -/
namespace Sys2Proof.Machine.State.Canonical
variable {s : State} (h : s.Canonical)
include h

theorem placeNext {i k a l} : (s.placeNext i k a l).Canonical := by
  unfold State.placeNext
  refine ite h ?_
  refine ite (ite h (addDue (setAcc h))) ?_
  split
  · exact addDue h
  · exact ite (addDue (addUnit (setAcc h))) (addUnit (setAcc h))

theorem refuseLaunch {i} : (s.refuseLaunch i).Canonical := retire (setAcc h)

theorem placeLaunch {i k} : (s.placeLaunch i k).Canonical := by
  unfold State.placeLaunch
  dsimp only
  split
  · exact h
  · exact ite h (ite (ite (placeNext (setAcc h)) (ite (refuseLaunch h) h)) (placeNext h))

theorem placeUnit {u} : (s.placeUnit u).Canonical := by
  unfold State.placeUnit
  split
  · exact h
  · refine ite h ?_
    refine ite (discard h) ?_
    refine ite h ?_
    split
    · exact addDue h
    · exact enqueue (modUnit h)

theorem tokenHome {acct pkg e} : (s.tokenHome acct pkg e).Canonical := addDue h

theorem makeLaunch {p t preds pts r} : (s.makeLaunch p t preds pts r).2.Canonical := by
  unfold State.makeLaunch
  dsimp only
  split
  · exact tokenHome (ite (event h) h)
  · split
    · exact tokenHome (ite (event h) h)
    · split
      · split
        · exact cancelOne (newAcc (ite (event h) h) ‹_›)
        · split
          · split
            · exact newAcc (ite (event h) h) ‹_›
            · split
              · exact addDue (newAcc (ite (event h) h) ‹_›)
              · split
                · exact refuseLaunch (newAcc (ite (event h) h) ‹_›)
                · exact newAcc (ite (event h) h) ‹_›
          · split
            · exact newAcc (ite (event h) h) ‹_›
            · split
              · exact addDue (newAcc (ite (event h) h) ‹_›)
              · split
                · exact refuseLaunch (newAcc (ite (event h) h) ‹_›)
                · exact newAcc (ite (event h) h) ‹_›
      · split
        · exact cancelOne (newAcc (ite (event h) h) ‹_›)
        · split
          · split
            · exact newAcc (ite (event h) h) ‹_›
            · split
              · exact addDue (newAcc (ite (event h) h) ‹_›)
              · split
                · exact refuseLaunch (newAcc (ite (event h) h) ‹_›)
                · exact newAcc (ite (event h) h) ‹_›
          · split
            · exact newAcc (ite (event h) h) ‹_›
            · split
              · exact addDue (newAcc (ite (event h) h) ‹_›)
              · split
                · exact refuseLaunch (newAcc (ite (event h) h) ‹_›)
                · exact newAcc (ite (event h) h) ‹_›

theorem makeUnit {p t pts r} : (s.makeUnit p t pts r).2.Canonical := by
  unfold State.makeUnit
  dsimp only
  split
  · exact tokenHome (ite (event h) h)
  · split
    · split
      · exact tokenHome (event h)
      · exact ite (addDue (newUnit (event h))) (newUnit (event h))
    · split
      · exact tokenHome h
      · exact ite (addDue (newUnit h)) (newUnit h)

theorem execUnitPlace : After (execUnitPlace s) := by
  unfold Machine.execUnitPlace
  split
  · exact .next (ite (placeLaunch h) (placeUnit h))
  · exact .next h

theorem askBorrow {h1 c} : (s.askBorrow h1 c).Canonical := ite (ite (addDue (borrow (setCore h))) (post (setCore h))) h

theorem takeBorrow {c h1 pkg refused} : (s.takeBorrow c h1 pkg refused).Canonical := by
  unfold State.takeBorrow
  refine ite (trigBorrowed h) ?_
  dsimp only
  split
  · exact ite (modCore (setWeight h)) (giveBack h)
  · exact ite h (ite (setCore h) (ite (setCore h) (cancelNow (focus h))))

theorem execBorrowRequest : After (execBorrowRequest s) := by
  unfold Machine.execBorrowRequest
  split
  · exact .next (askBorrow h)
  · exact .next h

theorem execBorrowReply : After (execBorrowReply s) := by
  unfold Machine.execBorrowReply
  split
  · exact .next (takeBorrow h)
  · exact .next h

theorem execCombinerAdd : After (execCombinerAdd s) := by
  unfold Machine.execCombinerAdd
  split
  · exact .next (ite (addDue (setComb h)) (addDue (withHub (addDue (setComb h)))))
  · exact .next h

theorem flushComb {site} : (s.flushComb site).Canonical := addDue (setComb h)

theorem execCombinerFlushPeriod : After (execCombinerFlushPeriod s) := by
  unfold Machine.execCombinerFlushPeriod
  split
  · exact .next (ite (addDue h) (flushComb h))
  · exact .next h

theorem flushAt {h1 a} : (s.flushAt h1 a).Canonical := by
  induction a generalizing s h1 with
  | nil => exact h
  | cons x xs ih =>
    unfold State.flushAt
    exact ih (addDue (setComb h))

theorem execFlushRequest : After (execFlushRequest s) := by
  unfold Machine.execFlushRequest
  split
  · exact .ite (.next h) (.next (flushAt (setAcc h)))
  · exact .next h

theorem sendReturn {r} : (s.sendReturn r).Canonical := post h

theorem execReturnArrive : After (execReturnArrive s) := by
  unfold Machine.execReturnArrive
  split
  · exact .next (ite (returnAt h) (sendReturn h))
  · exact .next h

theorem takeNotice {pkg h1} : (s.takeNotice pkg h1).Canonical :=
  ite h (each (each (addDue (withHub h)) fun _ _ h2 => ite h2 (foldl (setCore h2) fun _ _ h3 => giveHold h3)) fun _ _ h2 => cancelAcc h2)

theorem dropMessage {m} : (s.dropMessage m).Canonical := giveTok h

theorem refuseMessage {m} : (s.refuseMessage m).Canonical := event (dropMessage h)

theorem offer {m t} (e : s.offer m = some t) : t.Canonical := by
  unfold State.offer at e
  dsimp only at e
  split at e
  · cases e
    exact dropMessage h
  · split at e
    · cases e
    · split at e
      · cases e
        exact dropMessage h
      · split at e
        · cases e
          exact spawnTriggered h
        · cases e

theorem offerAll {kept a} : (s.offerAll kept a).1.Canonical := by
  induction a generalizing s kept with
  | nil => exact h
  | cons x xs ih =>
    unfold State.offerAll
    split
    · exact ih h
    · split
      · exact ih (offer h ‹_›)
      · exact ih h

theorem setMsgs {c ms} : (s.setMsgs c ms).Canonical := modCore h

theorem drainMsgs {c} : (s.drainMsgs c).Canonical := ite h (setMsgs (offerAll h))

theorem parkMessage {m} : (s.parkMessage m).Canonical := ite (setMsgs h) (addDue (setMsgs h))

theorem takeMessage {m} : (s.takeMessage m).Canonical := by
  unfold State.takeMessage
  refine ite (addDue h) ?_
  refine ite (refuseMessage h) ?_
  refine ite (parkMessage h) ?_
  split
  · exact offer h ‹_›
  · exact parkMessage h

theorem execMessageArrive : After (execMessageArrive s) := by
  unfold Machine.execMessageArrive
  split
  · exact .next (takeMessage h)
  · exact .next h

theorem expireMsgs {c} : (s.expireMsgs c).Canonical :=
  ite (foldl (setMsgs h) fun _ _ h1 => refuseMessage h1) (addDue (foldl (setMsgs h) fun _ _ h1 => refuseMessage h1))

theorem execMessageTimeout : After (execMessageTimeout s) := by
  unfold Machine.execMessageTimeout
  split
  · exact .next (expireMsgs h)
  · exact .next h

theorem reach {write a} : Yields (fun r => r.2.Canonical) (s.reach write a) := by
  induction a generalizing s write with
  | nil =>
    unfold State.reach
    exact .ok h
  | cons x xs ih =>
    unfold State.reach
    split
    · exact .error
    · split
      · exact .ok (of_ok_snd ‹_› (ih (of_ok_snd ‹_› (access h))))
      · exact .error

theorem withhold {cs} : (s.withhold cs).Canonical := withCore h

theorem queueLoad {q pas fmt vec} : (s.queueLoad q pas fmt vec).Canonical := addDue (reserve h)

theorem returned {q v n} : (s.returned q v n).Canonical := addDue (reserve h)

theorem readStash {off n k} : (s.readStash off n k).Canonical := by
  unfold State.readStash
  dsimp only
  split
  · exact h
  · exact holdLine (ite (withCore h) h)

theorem readStashAll {off n a} : (s.readStashAll off n a).Canonical := by
  induction a generalizing s off n with
  | nil => exact h
  | cons x xs ih =>
    unfold State.readStashAll
    exact ih (readStash h)

theorem fillStash {c row line} : (s.fillStash c row line).Canonical := by
  unfold State.fillStash
  dsimp only
  split
  · exact h
  · split
    · exact h
    · exact ite (eccAt (of_ok_snd ‹_› (access h))) (modCore (holdLine (touch (setTs (loadTs (of_ok_snd ‹_› (access h)))))))

theorem fillStashAll {a} : (s.fillStashAll a).Canonical := by
  induction a generalizing s  with
  | nil => exact h
  | cons x xs ih =>
    unfold State.fillStashAll
    exact ih (fillStash h)

theorem loadsBefore {off n} : (s.loadsBefore off n).Canonical := fillStashAll (fillLoads h)

theorem directLoad {va n al} : Yields (fun r => r.2.Canonical) (s.directLoad va n al) :=
  .read fun _ => .read fun _ => .guard fun _ => .ite (.pure (readStashAll (ite h (loadsBefore h)))) (.bind_snd (reach h) fun _ _ _ => .error)

theorem directStore {va n al bs} : Yields State.Canonical (s.directStore va n al bs) :=
  .read fun _ => .read fun _ => .bind_snd (reach h) fun _ _ h1 => .pure (ite (noResult (withhold h1)) (fly (withhold h1)))

theorem writeBackRow {row} : (s.writeBackRow row).Canonical := writeBack h

theorem rebind {row va} : (s.rebind row va).Canonical := withCore h

theorem rebindRow {row va} : (s.rebindRow row va).Canonical := withCore (writeBackRow h)

theorem remapAll {a} : (s.remapAll a).Canonical := by
  induction a generalizing s  with
  | nil =>
    unfold State.remapAll
    exact withCore h
  | cons x xs ih =>
    unfold State.remapAll
    exact ih (rebindRow h)

theorem atomicAt {pa n f} : (s.atomicAt pa n f).2.Canonical := withCore (poke (setTs (touch (fillLoads h))))

theorem atomic {w d va n f} : Yields State.Canonical (s.atomic w d va n f) :=
  .guard fun _ => .read fun _ => .bind_snd (reach h) fun _ _ h1 => .guard fun _ => .read fun _ => .pure
    (ite (noResult (atomicAt h1)) (noResult (returned (atomicAt h1))))

theorem atomic8 {p w d a b f} : After (s.atomic8 p w d a b f) := issue h fun _ h1 => .read fun _ => .read fun _ => atomic h1

theorem execAadd {p w d a b} : After (execAadd p w d a b s) := atomic8 h

theorem execAfxadd {p w d a b} : After (execAfxadd p w d a b s) := atomic8 h

theorem execAfadd {p w d a b} : After (execAfadd p w d a b s) := issue h fun _ h1 => .read fun _ => .read fun _ => atomic h1

theorem execAmin {p w d a b} : After (execAmin p w d a b s) := atomic8 h

theorem execAmax {p w d a b} : After (execAmax p w d a b s) := atomic8 h

theorem execAminn {p w d a b} : After (execAminn p w d a b s) := atomic8 h

theorem execAmaxn {p w d a b} : After (execAmaxn p w d a b s) := atomic8 h

theorem execAincb {p w d a b} : After (execAincb p w d a b s) := atomic8 h

theorem execAcas {p w d a b} : After (execAcas p w d a b s) := issue h fun _ h1 => .read fun _ => atomic h1

theorem execAswap {p w d a b} : After (execAswap p w d a b s) := atomic8 h

theorem execAand {p w d a b} : After (execAand p w d a b s) := atomic8 h

theorem execAor {p w d a b} : After (execAor p w d a b s) := atomic8 h

theorem execAxor {p w d a b} : After (execAxor p w d a b s) := atomic8 h

theorem barHere {raw write a} : Yields (fun r => r.2.Canonical) (s.barHere raw write a) :=
  .ite (.read fun _ => .read fun _ => .pure h) (.read fun _ => .bind_snd (reach h) fun _ _ h1 => .pure h1)

theorem execPost {p sx a b} : After (execPost p sx a b s) :=
  issue h fun _ h1 => .read fun _ => .read fun _ => .read fun _ => .bind_snd (barHere h1) fun _ _ h2 => .pure (noResult (barPost h2))

theorem execBarrierArrival : After (execBarrierArrival s) := by
  unfold Machine.execBarrierArrival
  split
  · exact .next (barArrive h)
  · exact .next h

theorem setPort {p x} : (s.setPort p x).Canonical := h

theorem takeSlots {p ks} : (s.takeSlots p ks).Canonical := h

theorem dropSlots {ks} : (s.dropSlots ks).Canonical := h

theorem markFlow {f part last} : (s.markFlow f part last).Canonical := post h

theorem endPromoted {f} : (s.endPromoted f).Canonical := update (foldl h fun _ _ h1 => markFlow (dropSlots h1))

theorem meterAt {site f} : (s.meterAt site f).Canonical := ite (update h) (addDue (update h))

theorem meter {score dpkg dcore label n} : (s.meter score dpkg dcore label n).Canonical := meterAt h

theorem noteRead {agent p va pas} : (s.noteRead agent p va pas).Canonical := foldl (cacheLeaf h) fun _ _ h1 => touch h1

theorem weakCells {agent p va cs} : (s.weakCells agent p va cs).1.Canonical := putCells (foldl (weakTsAll (cacheLeaf h)) fun _ _ h1 => touch h1)

theorem padPut {u cs} : (s.padPut u cs).Canonical := by
  unfold State.padPut
  split
  · exact ite (foldl h fun _ _ h1 => padWrite h1) (modPad h)
  · exact ite (modPad h) h

theorem fillRing {a lo n} : (s.fillRing a lo n).Canonical := modPad h

theorem fillAll {a} : (s.fillAll a).Canonical := modPad h

theorem reserveRing {u k who id n} : Yields (fun r => r.2.Canonical) (s.reserveRing u k who id n) := by
  unfold State.reserveRing
  exact .ite .error (.ok (modPad h))

theorem reserveRing_error {u k who id n t} (e : s.reserveRing u k who id n = .error t) : t.Canonical := by
  unfold State.reserveRing at e
  dsimp only at e
  split at e
  · cases e
    exact modPad h
  · cases e

theorem landRefused {p addr tid} : (s.landRefused p addr tid).Canonical := event h

theorem dirtyLine {u k pa colour mask} : (s.dirtyLine u k pa colour mask).Canonical := modPad h

theorem dirtyLines {l u offs a} : Yields State.Canonical (s.dirtyLines l u offs a) := by
  induction a generalizing s l u offs with
  | nil =>
    unfold State.dirtyLines
    exact .ok h
  | cons x xs ih =>
    unfold State.dirtyLines
    dsimp only
    split
    · exact .error
    · exact ih (dirtyLine (cacheLeaf h))

theorem dropHalf {l lo} : (s.dropHalf l lo).Canonical := withHub h

end Sys2Proof.Machine.State.Canonical
end

section
set_option Elab.async false
/-! Memory in its one form (log entry 6): what keeps it among the functions of transfers and circuits. -/
namespace Sys2Proof.Machine.State.Canonical
variable {s : State} (h : s.Canonical)
include h

theorem addXfer {t} : (s.addXfer t).2.Canonical := withHub h

theorem recordRz {c p r addr} : (s.recordRz c p r addr).Canonical := ite (event h) h

theorem dropXfer {x} : (s.dropXfer x).Canonical := by
  unfold State.dropXfer
  split
  · exact h
  · exact reapAll (ite (post (withHub h)) (withHub h))

theorem finishPut {x t fault} : (s.finishPut x t fault).Canonical := dropXfer (giveToks (giveTok? (ite (withHub h) h)))

theorem whenPerformed {x t} : (s.whenPerformed x t).Canonical := ite (addDue h) (ite (addDue h) (finishPut h))

theorem landPad {l u off words data} : (s.landPad l u off words data).Keeps := by
  unfold State.landPad
  refine .ite (.done (padPut h)) ?_
  refine .ite (.dropped (landRefused h)) ?_
  refine .ite (.dropped (landRefused h)) ?_
  dsimp only
  split
  · exact .fault
  · exact .done (padPut (of_ok ‹_› (dirtyLines h)))

theorem noLanding {l k va} : (s.noLanding l k va).Keeps := by
  unfold State.noLanding
  exact .ite (.dropped (landRefused h)) .fault

theorem landCopy {l lo words data} : (s.landCopy l lo words data).Keeps := by
  unfold State.landCopy
  dsimp only
  split
  · exact noLanding h
  · exact .done (weakCells h)

theorem landReduce {l lo data} : (s.landReduce l lo data).1.Keeps := by
  unfold State.landReduce
  dsimp only
  split
  · exact noLanding h
  · split
    · exact .fault
    · exact .waits h
    · exact .done h
    · exact .done (weakCells (withHub h))

theorem inParts {l lo land} (hl : ∀ t w, t.Canonical → (land t w).Keeps) : (s.inParts l lo land).Keeps := by
  unfold State.inParts
  dsimp only
  split
  · have hk := hl _ (~~~(‹HalfChunk›).words) (dropHalf h (l := l) (lo := lo))
    split
    · exact .done (of_done ‹_› hk)
    · exact hk
  · refine .ite (hl _ _ (tickFree h)) ?_
    have hk := hl _ (BitVec.ofNat 64 (Config.sense s.free 4)) (tickFree h)
    split
    · exact .waits (withHub (of_done ‹_› hk))
    · exact hk

theorem landBar {l e} (he : s.landBar l = .error e) : e.Keeps := by
  unfold State.landBar at he
  split at he
  · cases he
  · split at he
    · split at he
      · cases he
        exact .dropped (landRefused h)
      · split at he
        · cases he
        · cases he
          exact .dropped (landRefused h)
    · split at he
      · cases he
        exact noLanding h
      · cases he

/-- A landing goes on to the barrier where the bytes are in. -/
theorem landChunk {l lo data} : (s.landChunk l lo data).Keeps := by
  unfold State.landChunk
  split
  · exact landBar h ‹_›
  · next bar _ =>
    extract_lets arrive
    have ha : ∀ t w, t.Canonical → (arrive t w).Keeps := by
      intro t w ht
      cases bar with
      | none => exact .done ht
      | some b => exact .done (barArrive ht)
    clear_value arrive
    split
    · split
      · have hk := inParts h (l := l) (lo := lo) (land := fun s words => s.landCopy l lo words data) fun _ _ ht => landCopy ht
        split
        · exact ha _ _ (of_done ‹_› hk)
        · exact hk
      · have hk := landReduce h (l := l) (lo := lo) (data := data)
        split
        · next he =>
          rw [he] at hk
          exact ha _ _ hk
        · next he =>
          rw [he] at hk
          exact hk
    · split
      · exact .dropped (landRefused h)
      · have hk := fun u => inParts h (l := l) (lo := lo) (land := fun s words => s.landPad l u ((recDst l.record).toNat + lo) words data)
          fun _ _ ht => landPad ht
        split
        · exact ha _ _ (of_done ‹_› (hk _))
        · exact hk _
    · split
      · exact .dropped h
      · exact ha _ _ (fillRing (padPut h))

theorem chunkOver {x lo written} : (s.chunkOver x lo written).Canonical := by
  unfold State.chunkOver
  split
  · exact h
  · refine ite ?_ ?_
    · refine whenPerformed ?_
      split
      · exact fillRing (raiseWeak (setXfer h))
      · exact raiseWeak (setXfer h)
    · split
      · exact fillRing (raiseWeak (setXfer h))
      · exact raiseWeak (setXfer h)

theorem readRefused {x lo} : (s.readRefused x lo).Canonical := by
  unfold State.readRefused
  split
  · exact h
  · exact chunkOver (setXfer (landRefused h))

theorem xferFault {x t k addr} : (s.xferFault x t k addr).Canonical := addDue h

theorem chunkFault {x lo t k addr} : (s.chunkFault x lo t k addr).Canonical := ite (chunkOver (setXfer (eccStop h))) (xferFault h)

theorem placeBarTok {x t} : (s.placeBarTok x t).Canonical := by
  unfold State.placeBarTok
  split
  · exact h
  · refine ite h ?_
    split
    · exact withHub (setXfer h)
    · exact h
    · exact h

theorem beginXfer {x t} : (s.beginXfer x t).Canonical := addDue (setXfer h)

theorem ringStart {x t0} : (s.ringStart x t0).Canonical := by
  unfold State.ringStart
  refine ite (beginXfer (placeBarTok (setXfer h))) ?_
  dsimp only
  split
  · exact beginXfer (landRefused (placeBarTok (setXfer h)))
  · refine ite (beginXfer (event (placeBarTok (setXfer h)))) ?_
    refine ite (beginXfer (landRefused (placeBarTok (setXfer h)))) ?_
    refine ite (addDue (placeBarTok (setXfer h))) ?_
    split
    · exact beginXfer (of_ok_snd ‹_› (reserveRing (placeBarTok (setXfer h))))
    · exact addDue (reserveRing_error (placeBarTok (setXfer h)) ‹_›)

theorem meterChunk {t n} : (s.meterChunk t n).Canonical := meter h

theorem deliver {x lo t data} : (s.deliver x lo t data).Canonical := by
  unfold State.deliver
  refine ite (ite (chunkOver (landRefused h)) (post (meterChunk (setXfer h)))) ?_
  split
  · exact chunkOver (meterChunk (of_done ‹_› (landChunk h)))
  · exact chunkOver (meterChunk (of_dropped ‹_› (landChunk h)))
  · exact chunkFault h
  · exact addDue (of_waits ‹_› (landChunk h))

theorem sourceBytes {t lo} : Yields (fun r => r.2.Canonical) (s.sourceBytes t lo) := .ite (.ok h) (.map (.of_forall (fun _ => noteRead h) _))

theorem performChunk {x lo t} : (s.performChunk x lo t).Canonical := by
  unfold State.performChunk
  refine ite (chunkOver h) ?_
  refine ite (ite (readRefused h) (post (setXfer h))) ?_
  split
  · exact chunkFault h
  · exact deliver (of_ok_snd ‹_› (sourceBytes h))

theorem setChan {u n c} : (s.setChan u n c).Canonical := modEng h

theorem engineTrap {u part t} : (s.engineTrap u part t).Canonical := by
  unfold State.engineTrap
  split
  · exact ite (forward h) (weakTrap h)
  · exact h

theorem unfence {u x} : (s.unfence u x).Canonical := by
  unfold State.unfence
  dsimp only
  split
  · exact modCore h
  · exact modUnit h

theorem fenceToo {u x} : (s.fenceToo u x).Canonical := by
  unfold State.fenceToo
  split
  · exact modCore h
  · exact h

theorem chanFault {x t k addr} : (s.chanFault x t k addr).Canonical :=
  ite (engineTrap (dropXfer (settleChan (setChan (unfence (setXfer h)))))) (engineTrap (setChan (unfence (setXfer h))))

theorem takeFault {u p n k addr} : (s.takeFault u p n k addr).Canonical := engineTrap (ite (settleChan (setChan h)) (setChan h))

theorem takeRecord {u n} : (s.takeRecord u n).Canonical := by
  unfold State.takeRecord
  split
  · exact h
  · refine ite h ?_
    refine ite (settleChan (setChan h)) ?_
    split
    · exact ite (settleChan (setChan (eccStop h))) (takeFault h)
    · exact ite (settleChan (setChan (noteRead h))) (ite (takeFault (noteRead h)) (addDue (fenceToo (setChan (addXfer (recordRz (noteRead h)))))))

theorem shadowStart {u n} : (s.shadowStart u n).Canonical := by
  unfold State.shadowStart
  dsimp only
  split
  · exact ite (addDue (setChan h)) h
  · exact h

theorem completeRecord {x t} : (s.completeRecord x t).Canonical := by
  unfold State.completeRecord
  split
  · exact xferFault h
  · refine dropXfer ?_
    refine addDue ?_
    refine settleChan ?_
    refine setChan ?_
    refine raiseWeak ?_
    refine weakCells ?_
    refine ite ?_ ?_
    · split
      · exact eccStop h
      · exact h
    · refine event ?_
      split
      · exact eccStop h
      · exact h

theorem dropChunks {t a} : (s.dropChunks t a).Canonical := by
  induction a generalizing s t with
  | nil => exact h
  | cons x xs ih =>
    unfold State.dropChunks
    refine ih ?_
    split
    · exact fillRing h
    · exact h

theorem putGetFault {x t k addr} : (s.putGetFault x t k addr).Canonical :=
  ite (addDue (engineTrap (setXfer (dropChunks h)))) (finishPut (engineTrap (setXfer (dropChunks h))))

theorem completeGet {x t} : (s.completeGet x t).Canonical := by
  unfold State.completeGet
  refine dropXfer ?_
  split
  · exact answer h
  · exact h

theorem execChannelTakeRecord : After (execChannelTakeRecord s) := by
  unfold Machine.execChannelTakeRecord
  split
  · exact .next (takeRecord h)
  · exact .next h

theorem execChannelShadowStart : After (execChannelShadowStart s) := by
  unfold Machine.execChannelShadowStart
  split
  · exact .next (shadowStart h)
  · exact .next h

theorem execRingReserve : After (execRingReserve s) := by
  unfold Machine.execRingReserve
  split
  · split
    · exact .next (ite h (ringStart h))
    · exact .next h
  · exact .next h

theorem execChunkPerform : After (execChunkPerform s) := by
  unfold Machine.execChunkPerform
  split
  · split
    · exact .next (ite h (ite (performChunk h) (addDue h)))
    · exact .next h
  · exact .next h

theorem execRecordComplete : After (execRecordComplete s) := by
  unfold Machine.execRecordComplete
  split
  · split
    · exact .next (completeRecord h)
    · exact .next h
  · exact .next h

theorem execChannelFault : After (execChannelFault s) := by
  unfold Machine.execChannelFault
  split
  · split
    · exact .next (ite h (chanFault h))
    · exact .next h
  · exact .next h

theorem execPutGetRemoteFault : After (execPutGetRemoteFault s) := by
  unfold Machine.execPutGetRemoteFault
  split
  · split
    · exact .next (ite h (putGetFault h))
    · exact .next h
  · exact .next h

theorem execGetComplete : After (execGetComplete s) := by
  unfold Machine.execGetComplete
  split
  · split
    · exact .next (completeGet h)
    · exact .next h
  · exact .next h

theorem nextPut : (s.nextPut).2.Canonical := withCore h

theorem execPut {p a b} : After (execPut p a b s) :=
  issue h fun _ h1 => .read fun _ => .read fun _ => .read fun _ => .read fun _ => .bind_snd (splitHere h1) fun _ _ h2 => .pure
    (noResult (addDue (addXfer (recordRz (nextPut h2)))))

theorem execGet {p w d a b} : After (execGet p w d a b s) := by
  unfold Machine.execGet
  refine issue h fun _ h1 => ?_
  refine .read fun _ => ?_
  refine .read fun _ => ?_
  refine .guard fun _ => ?_
  refine .read fun _ => ?_
  refine .read fun _ => ?_
  with_reducible refine .pure ?_
  refine noResult ?_
  refine ite ?_ ?_
  · refine addXfer ?_
    refine recordRz ?_
    split
    · exact nextPut h1
    · exact reserve (nextPut h1)
  · refine addDue ?_
    refine addXfer ?_
    refine recordRz ?_
    split
    · exact nextPut h1
    · exact reserve (nextPut h1)

theorem setHandle {u h1 x} : (s.setHandle u h1 x).Canonical := modEng h

theorem endCircuit {u h1 k} : (s.endCircuit u h1 k).Canonical := addDue (setHandle h)

theorem dropPath {x} : (s.dropPath x).Canonical := ite (update h) (dropSlots h)

theorem fillRest {a len landed} : (s.fillRest a len landed).Canonical := by
  unfold State.fillRest
  split
  · exact ite (fillRing h) h
  · exact h

theorem stopSource {u h1 x} : (s.stopSource u h1 x).Canonical :=
  ite (post (addDue (setHandle (dropPath h)))) (addDue (fillRest (addDue (setHandle (dropPath h)))))

theorem glRecord {u h1 x} : (s.glRecord u h1 x).Canonical := by
  unfold State.glRecord
  dsimp only
  split
  · exact engineTrap (event h)
  · exact engineTrap (event h)
  · exact engineTrap h
  · exact h
  · exact h
  · exact h
  · exact h
  · exact h

theorem overCircuit {u h1 final} : (s.overCircuit u h1 final).Canonical := reapAll (glRecord (giveTok? (setHandle h)))

theorem checkClosed {u h1} : (s.checkClosed u h1).Canonical := ite (endCircuit h) h

theorem landFlit {agent p b dest ring pos data} : Yields (fun r => r.1.Canonical) (s.landFlit agent p b dest ring pos data) := by
  unfold State.landFlit
  dsimp only
  split
  · exact .error
  · split
    · split
      · exact .error
      · split
        · exact .ok (barArrive (weakCells h))
        · exact .ok (weakCells h)
    · split
      · split
        · exact .ok (barArrive (padPut h))
        · exact .ok (padPut h)
      · exact .ok h
    · split
      · split
        · exact .ok (barArrive (fillRing (padPut h)))
        · exact .ok (fillRing (padPut h))
      · exact .ok h

theorem answerOpen {u x v} : (s.answerOpen u x v).Canonical := by
  unfold State.answerOpen
  split
  · exact answer h
  · exact h

theorem refuseOpen {u h1 k} : (s.refuseOpen u h1 k).Canonical := reapAll (answerOpen (giveTok? (setHandle (dropSlots h))))

theorem acceptOpen {u h1 width path dest ring} : (s.acceptOpen u h1 width path dest ring).Canonical :=
  ite (addDue (answerOpen (setHandle h))) (endCircuit (addDue (answerOpen (setHandle h))))

theorem useStatic {c p b set} : (s.useStatic c p b set).Canonical := update (takeSlots (endPromoted h))

theorem findLanding {p who b} : (s.findLanding p who b).Keeps := by
  unfold State.findLanding
  refine .ite .nowhere ?_
  refine .ite .nowhere ?_
  split
  · exact .at h
  · exact .ite (.at h) .nowhere
  · refine .ite .nowhere ?_
    dsimp only
    split
    · exact .at (withHub (of_ok_snd ‹_› (reserveRing h)))
    · exact .waits (reserveRing_error h ‹_›)
  · exact .nowhere

theorem openHere {u h1 x c p} : (s.openHere u h1 x c p).Canonical := by
  unfold State.openHere
  dsimp only
  split
  · exact refuseOpen h
  · split
    · exact refuseOpen h
    · exact addDue (of_full ‹_› (findLanding h))
    · exact acceptOpen (ite (useStatic (of_found ‹_› (findLanding h))) (takeSlots (of_found ‹_› (findLanding h))))

theorem openFar {u h1 x c p} : (s.openFar u h1 x c p).Canonical := by
  unfold State.openFar
  refine ite h ?_
  refine ite (refuseOpen h) ?_
  split
  · exact refuseOpen h
  · split
    · exact refuseOpen h
    · exact post (setHandle (takeSlots h))

theorem execGlopenComplete : After (execGlopenComplete s) := by
  unfold Machine.execGlopenComplete
  split
  · exact .ite (.next h) (.next (ite (openFar h) (openHere h)))
  · exact .next h

theorem sendSlot {u h1} : (s.sendSlot u h1).Canonical := by
  unfold State.sendSlot
  dsimp only
  split
  · refine ite (ite h (stopSource h)) ?_
    split
    · exact h
    · exact ite (ite (post (setHandle h)) (addDue (setHandle h))) (addDue (ite (post (setHandle h)) (addDue (setHandle h))))
  · refine ite (ite h (stopSource h)) ?_
    split
    · exact h
    · exact ite (ite (post (setHandle h)) (addDue (setHandle h))) (addDue (ite (post (setHandle h)) (addDue (setHandle h))))
  · exact h
  · exact h
  · exact h

theorem execGuylineSlotSend : After (execGuylineSlotSend s) := by
  unfold Machine.execGuylineSlotSend
  split
  · exact .next (sendSlot h)
  · exact .next h

theorem takeFlit {u h1 pos data} : (s.takeFlit u h1 pos data).Canonical := by
  unfold State.takeFlit
  dsimp only
  split
  · refine ite h ?_
    refine ite (addDue h) ?_
    split
    · exact endCircuit (setHandle h)
    · exact addDue (raiseWeak (setHandle (of_ok_fst ‹_› (landFlit h))))
  · refine ite h ?_
    refine ite (addDue h) ?_
    split
    · exact endCircuit (setHandle h)
    · exact addDue (raiseWeak (setHandle (of_ok_fst ‹_› (landFlit h))))
  · exact h
  · exact h
  · exact h

theorem execGuylineFlitLand : After (execGuylineFlitLand s) := by
  unfold Machine.execGuylineFlitLand
  split
  · exact .next (takeFlit h)
  · exact .next h

theorem execGuylineAckArrive : After (execGuylineAckArrive s) := by
  unfold Machine.execGuylineAckArrive
  split
  · exact .ite (.next h) (.next (checkClosed (setHandle h)))
  · exact .next h

theorem execGuylineLeaseExpire : After (execGuylineLeaseExpire s) := by
  unfold Machine.execGuylineLeaseExpire
  split
  · dsimp only
    split
    · exact .next (ite h (ite (endCircuit h) (addDue h)))
    · exact .next (ite h (ite (endCircuit h) (addDue h)))
    · exact .next h
    · exact .next h
    · exact .next h
  · exact .next h

theorem execGuylineFinalCount : After (execGuylineFinalCount s) := by
  unfold Machine.execGuylineFinalCount
  split
  · exact .next (ite (overCircuit h) h)
  · exact .next h

theorem execGuylineFinalTimeout : After (execGuylineFinalTimeout s) := by
  unfold Machine.execGuylineFinalTimeout
  split
  · exact .next (ite h (ite (overCircuit h) (addDue h)))
  · exact .next h

theorem execGlopen {p w d a b} : After (execGlopen p w d a b s) := by
  unfold Machine.execGlopen
  refine issue h fun _ h1 => ?_
  refine .read fun _ => ?_
  refine .read fun _ => ?_
  refine .guard fun _ => ?_
  refine .read fun _ => ?_
  refine .read fun _ => ?_
  refine .read fun _ => ?_
  refine .bind_snd (splitHere h1) fun _ _ h2 => ?_
  with_reducible refine .pure ?_
  refine addDue ?_
  refine withCore ?_
  split
  · exact ite (event h2) h2
  · exact reserve (ite (event h2) h2)

theorem execGlhold {p a b} : After (execGlhold p a b s) :=
  issue h fun _ h1 => .read fun _ => .read fun _ => .read fun _ => .pure (ite h1 (withCore h1))

theorem execGlsend {p a b} : After (execGlsend p a b s) :=
  issue h fun _ h1 => .read fun _ => .read fun _ => .read fun _ => .read fun _ => .read fun _ => .read fun _ => .read fun _ => .ite
    (.ite .error (.pure (addDue (withCore h1)))) (.pure h1)

theorem execGlstat {p w d a} : After (execGlstat p w d a s) := issue h fun _ h1 => .read fun _ => resultS h1

theorem closeCircuit {u h1} : (s.closeCircuit u h1).Canonical := by
  unfold State.closeCircuit
  dsimp only
  split
  · exact checkClosed (setHandle h)
  · exact h
  · exact h
  · exact h
  · exact h

theorem execGlclose {p a} : After (execGlclose p a s) := issue h fun _ h1 => .read fun _ => .read fun _ => .pure (closeCircuit h1)

theorem exitCircuits {u} : (s.exitCircuits u).Canonical := each (modEng h) fun _ _ h1 => closeCircuit h1

end Sys2Proof.Machine.State.Canonical
end

section
set_option Elab.async false
/-! Memory in its one form (log entry 6): what keeps it among the functions of control, scalar and vector forms. -/
namespace Sys2Proof.Machine.State.Canonical
variable {s : State} (h : s.Canonical)
include h

theorem jump {w} : (s.jump w).Canonical := withCore h

theorem execBr {p d} : After (execBr p d s) := issue h fun _ h1 => .pure (jump h1)

theorem execCall {p d} : After (execCall p d s) := issue h fun _ h1 => .bind_state (resultS h1) fun _ h2 => .pure (jump h2)

theorem execRet {p} : After (execRet p s) := issue h fun _ h1 => .pure (jump h1)

theorem execJr {p a} : After (execJr p a s) := issue h fun _ h1 => .read fun _ => .pure (jump h1)

theorem execLoop {p c l} : After (execLoop p c l s) :=
  issue h fun _ h1 => .read fun _ => .read fun _ => .ite (.pure (jump h1)) (.read fun _ => .pure (withCore h1))

theorem execLeave {p a} : After (execLeave p a s) := issue h fun _ h1 => .read fun _ => .read fun _ => .pure (jump (withCore h1))

theorem alu2 {p w d a b lat f} : After (s.alu2 p w d a b lat f) := issue h fun _ h1 => .read fun _ => .read fun _ => resultS h1

theorem alu3 {p w d a b f} : After (s.alu3 p w d a b f) := issue h fun _ h1 => .read fun _ => .read fun _ => resultS h1

theorem alu1 {p w d a f} : After (s.alu1 p w d a f) := issue h fun _ h1 => .read fun _ => resultS h1

theorem aluI {p w d f} : After (s.aluI p w d f) := issue h fun _ h1 => resultS h1

theorem compare {p w d a b f} : After (s.compare p w d a b f) := issue h fun _ h1 => .read fun _ => .read fun _ => .pure (resultP h1)

theorem predLogic {p w d a b f} : After (s.predLogic p w d a b f) := issue h fun _ h1 => .read fun _ => .read fun _ => .pure (resultP h1)

theorem execAdd {p w d a b} : After (execAdd p w d a b s) := alu2 h

theorem execSub {p w d a b} : After (execSub p w d a b s) := alu2 h

theorem execAnd {p w d a b} : After (execAnd p w d a b s) := alu2 h

theorem execOr {p w d a b} : After (execOr p w d a b s) := alu2 h

theorem execXor {p w d a b} : After (execXor p w d a b s) := alu2 h

theorem execAndn {p w d a b} : After (execAndn p w d a b s) := alu2 h

theorem execShl {p w d a b} : After (execShl p w d a b s) := alu2 h

theorem execShr {p w d a b} : After (execShr p w d a b s) := alu2 h

theorem execSra {p w d a b} : After (execSra p w d a b s) := alu2 h

theorem execRotr {p w d a b} : After (execRotr p w d a b s) := alu2 h

theorem execMin {p w d a b} : After (execMin p w d a b s) := alu2 h

theorem execMinn {p w d a b} : After (execMinn p w d a b s) := alu2 h

theorem execMax {p w d a b} : After (execMax p w d a b s) := alu2 h

theorem execMaxn {p w d a b} : After (execMaxn p w d a b s) := alu2 h

theorem execSel {p w d a b} : After (execSel p w d a b s) := alu3 h

theorem execMul {p w d a b} : After (execMul p w d a b s) := alu2 h

theorem execMulh {p w d a b} : After (execMulh p w d a b s) := alu2 h

theorem execMulhn {p w d a b} : After (execMulhn p w d a b s) := alu2 h

theorem execClz {p w d a} : After (execClz p w d a s) := alu1 h

theorem execPopc {p w d a} : After (execPopc p w d a s) := alu1 h

theorem execBfx {p w d a b} : After (execBfx p w d a b s) := alu2 h

theorem execBfi {p w d a b} : After (execBfi p w d a b s) := alu3 h

theorem execCmpeq {p w d a b} : After (execCmpeq p w d a b s) := compare h

theorem execCmpne {p w d a b} : After (execCmpne p w d a b s) := compare h

theorem execCmplt {p w d a b} : After (execCmplt p w d a b s) := compare h

theorem execCmpltn {p w d a b} : After (execCmpltn p w d a b s) := compare h

theorem execCmple {p w d a b} : After (execCmple p w d a b s) := compare h

theorem execCmplen {p w d a b} : After (execCmplen p w d a b s) := compare h

theorem execPand {p w d a b} : After (execPand p w d a b s) := predLogic h

theorem execPor {p w d a b} : After (execPor p w d a b s) := predLogic h

theorem execPxor {p w d a b} : After (execPxor p w d a b s) := predLogic h

theorem execAdds2 {p w d a b} : After (execAdds2 p w d a b s) := alu2 h

theorem execAdds3 {p w d a b} : After (execAdds3 p w d a b s) := alu2 h

theorem execAdds6 {p w d a b} : After (execAdds6 p w d a b s) := alu2 h

theorem execAdds10 {p w d a b} : After (execAdds10 p w d a b s) := alu2 h

theorem execMov {p w d a} : After (execMov p w d a s) := alu1 h

theorem execAddi {p w d i} : After (execAddi p w d i s) := aluI h

theorem execAndi {p w d i} : After (execAndi p w d i s) := aluI h

theorem execOri {p w d i} : After (execOri p w d i s) := aluI h

theorem execXori {p w d i} : After (execXori p w d i s) := aluI h

theorem execShli {p w d i} : After (execShli p w d i s) := aluI h

theorem execShri {p w d i} : After (execShri p w d i s) := aluI h

theorem execSrai {p w d i} : After (execSrai p w d i s) := aluI h

theorem execCmpeqi {p w a d i} : After (execCmpeqi p w a d i s) := issue h fun _ h1 => .ok (resultP h1)

theorem execCmplti {p w a d i} : After (execCmplti p w a d i s) := issue h fun _ h1 => .ok (resultP h1)

theorem execMovi {p w d i} : After (execMovi p w d i s) := aluI h

theorem execNop : After (execNop s) := .next h

theorem fpu2 {f p w d a b op} : After (s.fpu2 f p w d a b op) := issue h fun _ h1 => .read fun _ => .read fun _ => resultS h1

theorem fpuCompare {f p w d a b op} : After (s.fpuCompare f p w d a b op) := issue h fun _ h1 => .read fun _ => .read fun _ => .pure (resultP h1)

theorem execFadd {f p w d a b} : After (execFadd f p w d a b s) := fpu2 h

theorem execFsub {f p w d a b} : After (execFsub f p w d a b s) := fpu2 h

theorem execFmul {f p w d a b} : After (execFmul f p w d a b s) := fpu2 h

theorem execFfma {f p w d a b} : After (execFfma f p w d a b s) := issue h fun _ h1 => .read fun _ => .read fun _ => resultS h1

theorem execFmin {f p w d a b} : After (execFmin f p w d a b s) := fpu2 h

theorem execFmax {f p w d a b} : After (execFmax f p w d a b s) := fpu2 h

theorem execFcmpeq {f p w d a b} : After (execFcmpeq f p w d a b s) := fpuCompare h

theorem execFcmplt {f p w d a b} : After (execFcmplt f p w d a b s) := fpuCompare h

theorem execFcmple {f p w d a b} : After (execFcmple f p w d a b s) := fpuCompare h

theorem execFcvts {f p w d a r} : After (execFcvts f p w d a r s) := issue h fun _ h1 => .read fun _ => resultS h1

theorem execFcvti {f p w d a t r} : After (execFcvti f p w d a t r s) := issue h fun _ h1 => .read fun _ => resultS h1

theorem execFcvtf {f p w d a t r} : After (execFcvtf f p w d a t r s) := issue h fun _ h1 => .read fun _ => resultS h1

theorem vec2 {t p w d a b lat f} : After (s.vec2 t p w d a b lat f) := issueV h fun _ _ h1 => .read fun _ => .read fun _ => resultV h1

theorem vec3 {t p w d a b lat f} : After (s.vec3 t p w d a b lat f) := issueV h fun _ _ h1 => .read fun _ => .read fun _ => resultV h1

theorem vec1 {t p w d a lat f} : After (s.vec1 t p w d a lat f) := issueV h fun _ _ h1 => .read fun _ => resultV h1

theorem vecRaw {p w d a b lat f} : After (s.vecRaw p w d a b lat f) := issueV h fun _ _ h1 => .read fun _ => .read fun _ => resultV h1

theorem vecCompare {t p w d a b ff fi} : After (s.vecCompare t p w d a b ff fi) :=
  issueV h fun _ _ h1 => .read fun _ => .read fun _ => .pure (resultM h1)

theorem maskLogic {p w d a b f} : After (s.maskLogic p w d a b f) := issueV h fun _ _ h1 => .read fun _ => .read fun _ => .pure (resultM h1)

theorem execVadd {t p w d a b} : After (execVadd t p w d a b s) := vec2 h

theorem execVsub {t p w d a b} : After (execVsub t p w d a b s) := vec2 h

theorem execVmul {t p w d a b} : After (execVmul t p w d a b s) := vec2 h

theorem execVfma {t p w d a b} : After (execVfma t p w d a b s) := vec3 h

theorem execVfms {t p w d a b} : After (execVfms t p w d a b s) := vec3 h

theorem execVmin {t p w d a b} : After (execVmin t p w d a b s) := vec2 h

theorem execVmax {t p w d a b} : After (execVmax t p w d a b s) := vec2 h

theorem execVadds {t p w d a b} : After (execVadds t p w d a b s) := vec2 h

theorem execVsubs {t p w d a b} : After (execVsubs t p w d a b s) := vec2 h

theorem execVcmpeq {t p w d a b} : After (execVcmpeq t p w d a b s) := vecCompare h

theorem execVcmplt {t p w d a b} : After (execVcmplt t p w d a b s) := vecCompare h

theorem execVcmple {t p w d a b} : After (execVcmple t p w d a b s) := vecCompare h

theorem execVabs {t p w d a} : After (execVabs t p w d a s) := vec1 h

theorem execVneg {t p w d a} : After (execVneg t p w d a s) := vec1 h

theorem execVand {p w d a b} : After (execVand p w d a b s) := vecRaw h

theorem execVor {p w d a b} : After (execVor p w d a b s) := vecRaw h

theorem execVxor {p w d a b} : After (execVxor p w d a b s) := vecRaw h

theorem execVandn {p w d a b} : After (execVandn p w d a b s) := vecRaw h

theorem execVshl {t p w d a b} : After (execVshl t p w d a b s) := vec2 h

theorem execVshr {t p w d a b} : After (execVshr t p w d a b s) := vec2 h

theorem execVsel {p w d a b} : After (execVsel p w d a b s) := issueV h fun _ _ h1 => .read fun _ => .read fun _ => resultV h1

theorem execVmov {p w d a} : After (execVmov p w d a s) := issueV h fun _ _ h1 => .read fun _ => resultV h1

theorem execVsplat {p w d a} : After (execVsplat p w d a s) := issueV h fun _ _ h1 => .read fun _ => resultV h1

theorem execVins {p w d a b} : After (execVins p w d a b s) := issueV h fun _ _ h1 => .read fun _ => .read fun _ => resultV h1

theorem execVxtr {w d a b} : After (execVxtr w d a b s) := issueV h fun _ _ h1 => .read fun _ => .read fun _ => resultS h1

theorem execVperm {p w d a b} : After (execVperm p w d a b s) := vecRaw h

theorem execVrot {p w d a b} : After (execVrot p w d a b s) := vecRaw h

theorem execVbcl {p w d a b} : After (execVbcl p w d a b s) := vecRaw h

theorem execVxcopy {p w d a b} : After (execVxcopy p w d a b s) := vecRaw h

theorem execVxrot {p w d a b} : After (execVxrot p w d a b s) := vecRaw h

theorem execVmand {p w d a b} : After (execVmand p w d a b s) := maskLogic h

theorem execVmor {p w d a b} : After (execVmor p w d a b s) := maskLogic h

theorem execVmxor {p w d a b} : After (execVmxor p w d a b s) := maskLogic h

theorem execVmandn {p w d a b} : After (execVmandn p w d a b s) := maskLogic h

theorem execVmnot {p w d a} : After (execVmnot p w d a s) := issueV h fun _ _ h1 => .read fun _ => .pure (resultM h1)

theorem execVmpop {w d a} : After (execVmpop w d a s) := issueV h fun _ _ h1 => .read fun _ => resultS h1

theorem convert {p w d a field r sw dw f} : After (s.convert p w d a field r sw dw f) := issueV h fun _ _ h1 => .read fun _ => resultV (withCore h1)

theorem execVcvt {t p w d a x r} : After (execVcvt t p w d a x r s) := convert h

theorem execVcvtx {x p w d a t r n} : After (execVcvtx x p w d a t r n s) := convert h

theorem vecFx {p w d a b ta lat f} : After (s.vecFx p w d a b ta lat f) := issueV h fun _ _ h1 => .read fun _ => .read fun _ => resultV h1

theorem execVfxadd {p w d a b} : After (execVfxadd p w d a b s) := vecFx h

theorem execVfxcvt {p w d a b} : After (execVfxcvt p w d a b s) := vecFx h

theorem execVfxcvtf {p w d a b} : After (execVfxcvtf p w d a b s) := vecFx h

theorem reduce {t p w d a f absent} : After (s.reduce t p w d a f absent) := issueV h fun _ _ h1 => .read fun _ => resultV h1

theorem execVredadd {t p w d a} : After (execVredadd t p w d a s) := reduce h

theorem execVredmin {t p w d a} : After (execVredmin t p w d a s) := reduce h

theorem execVredmax {t p w d a} : After (execVredmax t p w d a s) := reduce h

theorem execVscan {t p w d a} : After (execVscan t p w d a s) := issueV h fun _ _ h1 => .read fun _ => resultV h1

end Sys2Proof.Machine.State.Canonical
end

section
set_option Elab.async false
/-! Memory in its one form (log entry 6): what keeps it among the functions of dispatchers, engines and power. -/
namespace Sys2Proof.Machine.State.Canonical
variable {s : State} (h : s.Canonical)
include h

theorem onCore {c f} (hf : ∀ t, t.Canonical → (f t).Canonical) : (s.onCore c f).Canonical := hf _ (focus h)

theorem execCheckpointConfirm : After (execCheckpointConfirm s) := by
  unfold Machine.execCheckpointConfirm
  split
  · refine .next ?_
    refine onCore h fun _ h1 => ?_
    refine ite ?_ h1
    split
    · exact of_made ‹_› (confirm h1)
    · exact addDue h1
    · exact of_replayed ‹_› (confirm h1)
  · exact .next h

theorem grantAnchor {c} : (s.grantAnchor c).Canonical := by
  unfold State.grantAnchor
  dsimp only
  split
  · exact addDue (modCore (withHub h))
  · exact withHub h

theorem execAnchorTokenGrant : After (execAnchorTokenGrant s) := by
  unfold Machine.execAnchorTokenGrant
  split
  · exact .next (grantAnchor h)
  · exact .next h

theorem execAnchorHoldExpiry : After (execAnchorHoldExpiry s) := by
  unfold Machine.execAnchorHoldExpiry
  split
  · split
    · exact .ite (.next h) (.ite (.next (dropAnchor h)) (.next (addDue h)))
    · exact .next h
  · exact .next h

theorem execRollback : After (execRollback s) := by
  unfold Machine.execRollback
  split
  · exact .next (onCore h fun _ h1 => ite h1 (ite (replay h1) (takeTrap h1)))
  · exact .next h

theorem execPreemption : After (execPreemption s) := by
  unfold Machine.execPreemption
  split
  · exact .next (onCore h fun _ h1 => ite (preemptNow h1) h1)
  · exact .next h

theorem execQboundStallLimit : After (execQboundStallLimit s) := by
  unfold Machine.execQboundStallLimit
  split
  · exact .next (onCore h fun _ h1 => ite h1 (ite (addDue h1) (ite (cancelNow h1) (ite (takeTrap h1) h1))))
  · exact .next h

theorem admitUnit {c u x} : (s.admitUnit c u x).Canonical := by
  unfold State.admitUnit
  refine addDue ?_
  split
  · exact modCore (unspill (withHub (modUnit (ite h (giveRows h)))))
  · exact modCore (modUnit (unspill (withHub (modUnit (ite h (giveRows h))))))

theorem pressRunning {c} : (s.pressRunning c).Canonical := by
  unfold State.pressRunning
  split
  · exact ite (addDue (modCore h)) h
  · exact h

theorem admitNext {c} : (s.admitNext c).Canonical := by
  unfold State.admitNext
  split
  · exact h
  · refine ite ?_ ?_
    · split
      · exact ite (demote (ite (pressRunning h) h)) (ite (pressRunning h) h)
      · exact ite (pressRunning h) h
    · refine ite ?_ ?_
      · refine admitUnit ?_
        split
        · exact ite (demote (ite (pressRunning h) h)) (ite (pressRunning h) h)
        · exact ite (pressRunning h) h
      · split
        · refine respot ?_
          refine spill ?_
          split
          · exact ite (demote (ite (pressRunning h) h)) (ite (pressRunning h) h)
          · exact ite (pressRunning h) h
        · split
          · exact ite (demote (ite (pressRunning h) h)) (ite (pressRunning h) h)
          · exact ite (pressRunning h) h

theorem execUnitAdmit : After (execUnitAdmit s) := by
  unfold Machine.execUnitAdmit
  split
  · exact .next (drainMsgs (admitNext h))
  · exact .next h

theorem execUnitAge : After (execUnitAge s) := by
  unfold Machine.execUnitAge
  split
  · exact .next (admitNext h)
  · exact .next h

theorem startNext {c} : (s.startNext c).Canonical := by
  unfold State.startNext
  dsimp only
  split
  · split
    · exact h
    · exact ite (discard h) (ite (addDue h) (ite (addDue h) (addDue (startFresh h))))
  · exact h

theorem execUnitStart : After (execUnitStart s) := by
  unfold Machine.execUnitStart
  split
  · exact .next (startNext h)
  · exact .next h

theorem wakeEngines {u} : (s.wakeEngines u).Canonical := addDue h

theorem execResumeUnit : After (execResumeUnit s) := by
  unfold Machine.execResumeUnit
  split
  · dsimp only
    split
    · split
      · exact .next (ite (discard h) (ite h (ite (addDue (wakeEngines (resumeOn h))) (addDue h))))
      · exact .next h
    · exact .next h
  · exact .next h

theorem execUnitCancelStop : After (execUnitCancelStop s) := by
  unfold Machine.execUnitCancelStop
  split
  · exact .next (discard h)
  · exact .next h

theorem execFreedRowsZeroed : After (execFreedRowsZeroed s) := by
  unfold Machine.execFreedRowsZeroed
  split
  · exact .next (addDue (withHub h))
  · exact .next h

theorem engWrite {e v} : (s.engWrite e v).Canonical := ite (engineRz (withCore h)) (ite (withCore h) (ite (engineRz (withCore h)) h))

theorem execEngwr {p e a b} : After (execEngwr p e a b s) := issue h fun _ h1 => .pure (engWrite h1)

theorem execEngrd {p e a b} : After (execEngrd p e a b s) := issue h fun _ h1 => .bind_state (resultS h1) fun _ h2 => resultS h2

theorem resumeXfer {x} : (s.resumeXfer x).Canonical := by
  unfold State.resumeXfer
  split
  · exact h
  · exact addDue (setXfer h)

theorem errClear {u n} : (s.errClear u n).Canonical := ite h (addDue (each (setChan h) fun _ _ h1 => resumeXfer h1))

theorem unpark {u n} : (s.unpark u n).Canonical := ite (addDue (setChan h)) h

theorem chanControl {n v} : (s.chanControl n v).Canonical := engineRz (ite (unpark (ite (errClear h) h)) (ite (errClear h) h))

theorem execChErrclr {p n a b} : After (execChErrclr p n a b s) := issue h fun _ h1 => .pure (chanControl h1)

theorem execChResume {p n a b} : After (execChResume p n a b s) := issue h fun _ h1 => .pure (chanControl h1)

theorem execCpygo {p n a b} : After (execCpygo p n a b s) :=
  issue h fun _ h1 => .read fun _ => .read fun _ => .ite .error (.bind_snd (splitHere h1) fun _ _ h2 => .pure
    (ite (addDue (setChan h2)) (setChan h2)))

theorem setSix {u x} : (s.setSix u x).Canonical := modEng h

theorem execSixgo {p a b} : After (execSixgo p a b s) := issue h fun _ h1 => .read fun _ => .ite .error (.pure (addDue (withCore h1)))

theorem startSix {u} : (s.startSix u).Canonical := by
  unfold State.startSix
  dsimp only
  split
  · exact ite (event (setSix h)) (addDue (setSix h))
  · exact h

theorem pushSix {c o} : (s.pushSix c o).Canonical := modCore h

theorem endSix {u c o} : (s.endSix u c o).Canonical := ite (event (addDue (setSix h))) (addDue (setSix h))

theorem noteSix {u c o} : (s.noteSix u c o).Canonical := by
  unfold State.noteSix
  dsimp only
  split
  · exact noteRead h
  · exact h

theorem runSix {u} : (s.runSix u).Canonical := by
  unfold State.runSix
  split
  · exact h
  · split
    · exact h
    · dsimp only
      split
      · exact addDue (setSix (noteSix h))
      · exact addDue (setSix (noteSix h))
      · exact ite (addDue (pushSix (setSix (noteSix h)))) (addDue (setSix (noteSix h)))
      · exact ite (endSix (pushSix (setSix (noteSix h)))) (addDue (setSix (noteSix h)))

theorem execSixOpStart : After (execSixOpStart s) := by
  unfold Machine.execSixOpStart
  split
  · exact .next (startSix h)
  · exact .next h

theorem execSixPush : After (execSixPush s) := by
  unfold Machine.execSixPush
  split
  · exact .next (runSix h)
  · exact .next h

theorem execSixFault : After (execSixFault s) := by
  unfold Machine.execSixFault
  split
  · exact .ite (.next h) (.next (ite (eccStop (addDue (setSix h))) (engineTrap (addDue (setSix h)))))
  · exact .next h

theorem placeSections {xs} : (s.placeSections xs).Canonical := foldl h fun _ _ h1 => weakPoke h1

theorem reserveStatic {p i} : (s.reserveStatic p i).Canonical := takeSlots (endPromoted (dropSlots (withHub h)))

theorem installImage {p bs i} : (s.installImage p bs i).Canonical :=
  ite (updatePort (withHub (reserveStatic (placeSections h)))) (withHub (reserveStatic (placeSections h)))

theorem dropEpisode {key n} : (s.dropEpisode key n).Canonical := withHub h

theorem setEpisode {e} : (s.setEpisode e).Canonical := withHub (dropEpisode h)

theorem answerBars {v a} : (s.answerBars v a).Canonical := by
  induction a generalizing s v with
  | nil => exact h
  | cons x xs ih =>
    unfold State.answerBars
    exact ih (answer h)

theorem keepEpisode {t e} : (s.keepEpisode t e).Canonical := ite (dropEpisode h) (setEpisode h)

theorem episodeDone {key t e} : (s.episodeDone key t e).Canonical := ite (addDue h) (ite (addDue h) (post h))

theorem contributeOne {key part v broken} : (s.contributeOne key part v broken).Canonical := by
  unfold State.contributeOne
  split
  · exact h
  · exact ite (keepEpisode (ite (addDue (withHub (setEpisode h))) (withHub (setEpisode h))))
      (ite (episodeDone (ite (addDue (withHub (setEpisode h))) (withHub (setEpisode h))))
      (ite (addDue (withHub (setEpisode h))) (withHub (setEpisode h))))

theorem settleTree {key} : (s.settleTree key).Canonical := by
  unfold State.settleTree
  split
  · exact h
  · exact ite (foldl h fun _ _ h1 => contributeOne h1) h

theorem podResult {key v broken} : (s.podResult key v broken).Canonical := by
  unfold State.podResult
  split
  · exact h
  · exact settleTree (foldl (answerBars (withHub (keepEpisode h))) fun _ _ h1 => post h1)

theorem contribute {key part v broken} : (s.contribute key part v broken).Canonical := settleTree (contributeOne h)

theorem joinEarlier {key part} : (s.joinEarlier key part).Canonical := foldl (update h) fun _ _ h1 => contribute h1

theorem execPodBarrierCombine : After (execPodBarrierCombine s) := by
  unfold Machine.execPodBarrierCombine
  split
  · exact .next (contribute h)
  · exact .next h

theorem execPodBarrierResult : After (execPodBarrierResult s) := by
  unfold Machine.execPodBarrierResult
  split
  · exact .next (podResult h)
  · exact .next h

theorem expireEpisode {key} : (s.expireEpisode key).Canonical := by
  unfold State.expireEpisode
  split
  · exact h
  · split
    · exact h
    · exact ite h (ite (podResult (event h)) (addDue h))

theorem execBarTimeout : After (execBarTimeout s) := by
  unfold Machine.execBarTimeout
  split
  · exact .next (expireEpisode h)
  · exact .next h

theorem answerAll {v a} : (s.answerAll v a).Canonical := by
  induction a generalizing s v with
  | nil => exact h
  | cons x xs ih =>
    unfold State.answerAll
    exact ih (answer h)

theorem fitCore {d c k a} : (s.fitCore d c k a).Canonical := by
  induction a generalizing s d c k with
  | zero =>
    unfold State.fitCore
    exact h
  | succ n ih =>
    unfold State.fitCore
    refine ite h ?_
    split
    · exact ih (modStep (respot (spill h)))
    · exact ite (ih (demote h)) h

theorem unpreempt {c} : (s.unpreempt c).Canonical := modCore h

theorem fitRunning {c k since} : (s.fitRunning c k since).Canonical := ite (unpreempt h) (ite h (addDue (modCore h)))

theorem compactBelow {k c} : (s.compactBelow k c).Canonical := ite (compact h) h

theorem evacDone {d} : (s.evacDone d).Canonical := by
  unfold State.evacDone
  split
  · exact h
  · exact answerAll (modStep h)

theorem evacNext {d k} : (s.evacNext d k).Canonical := by
  unfold State.evacNext
  split
  · exact addDue h
  · exact evacDone h

theorem fitDomain {d} : (s.fitDomain d).Canonical := by
  unfold State.fitDomain
  split
  · exact h
  · exact ite h (ite (evacNext (each (modStep (each (each h fun _ _ h1 => fitCore h1) fun _ _ h1 => unpreempt h1)) fun _ _ h1 => compactBelow h1))
      (addDue (each (each h fun _ _ h1 => fitCore h1) fun _ _ h1 => fitRunning h1)))

theorem execStepwaitExpire : After (execStepwaitExpire s) := by
  unfold Machine.execStepwaitExpire
  split
  · exact .next (fitDomain h)
  · exact .next h

theorem flushRow {c row} : (s.flushRow c row).Canonical := by
  unfold State.flushRow
  split
  · exact h
  · exact ite h (writeBack h)

theorem moveRow {c row} : (s.moveRow c row).Canonical := by
  unfold State.moveRow
  dsimp only
  split
  · exact h
  · refine ite h ?_
    refine ite ?_ ?_
    · refine ite h ?_
      split
      · exact modStep (remapRow (flushRow h))
      · exact h
    · refine evacNext ?_
      refine ite h ?_
      split
      · exact modStep (remapRow (flushRow h))
      · exact h

theorem execEvacRowMove : After (execEvacRowMove s) := by
  unfold Machine.execEvacRowMove
  split
  · exact .next (moveRow h)
  · exact .next h

theorem announce {d k es} : (s.announce d k es).Canonical := addDue (withPower h)

theorem retest {d} : (s.retest d).Canonical := addDue h

theorem endStep {d} : (s.endStep d).Canonical := by
  unfold State.endStep
  split
  · exact h
  · exact each (withPower (answerAll h)) fun _ _ h1 => unpreempt h1

theorem holdRequest {d n} : (s.holdRequest d n).Canonical := by
  unfold State.holdRequest
  dsimp only
  split
  · exact withPower h
  · exact ite (withPower (answerAll h)) (ite (withPower (answerAll h)) (withPower h))

theorem setSram {d n} : (s.setSram d n).Canonical :=
  ite (holdRequest h) (ite (answerAll (retest (endStep h))) (ite (ite (answerAll h) (addDue (withPower h))) (addDue (withPower h))))

theorem evacSram {d n} : (s.evacSram d n).Canonical := ite (holdRequest h) (ite (answerAll h) (announce h))

theorem takeHeld {d} : (s.takeHeld d).Canonical := by
  unfold State.takeHeld
  split
  · exact h
  · exact ite (evacSram (withPower h)) (setSram (withPower h))

theorem rvsetSram {d n} : (s.rvsetSram d n).Canonical := ite (takeHeld (setSram h)) (setSram h)

theorem settleStep {d} : (s.settleStep d).Canonical := by
  unfold State.settleStep
  split
  · exact h
  · split
    · exact h
    · exact ite (answerAll (modStep h)) (ite (retest (answerAll (ite (setOp (modStep h)) (endStep (setOp (modStep h))))))
        (takeHeld (retest (answerAll (ite (setOp (modStep h)) (endStep (setOp (modStep h))))))))

theorem execStepSettle : After (execStepSettle s) := by
  unfold Machine.execStepSettle
  split
  · exact .next (settleStep h)
  · exact .next h

theorem retestLaunches : s.retestLaunches.Canonical := addDue h

theorem upstep {d k} : (s.upstep d k).Canonical := ite h (takeHeld (retestLaunches (retest (answerAll (withPower (setOp h))))))

theorem execSramUpstep : After (execSramUpstep s) := by
  unfold Machine.execSramUpstep
  split
  · exact .next (upstep h)
  · exact .next h

theorem answerLogic {d point full} : (s.answerLogic d point full).Canonical := answerAll (withPower h)

theorem dropLogic {d} : (s.dropLogic d).Canonical := h

theorem stepLogic {d k} : (s.stepLogic d k).Canonical :=
  ite (ite (withPower (setOp (dropLogic h))) (setOp (dropLogic h))) (each (ite (withPower (setOp (dropLogic h))) (setOp (dropLogic h))) fun _ _ h1 =>
    flushComb h1)

theorem boundaryQuad {q} : (s.boundaryQuad q).Canonical := answerLogic (ite (withPower (dropLogic h)) (addDue (withPower (dropLogic h))))

theorem boundaryHub : s.boundaryHub.Canonical := answerLogic (ite (dropLogic h) (addDue (dropLogic h)))

theorem execLogicStep : After (execLogicStep s) := by
  unfold Machine.execLogicStep
  split
  · exact .next (stepLogic h)
  · exact .next h

theorem execCurrentLimitEngage : After (execCurrentLimitEngage s) := by
  unfold Machine.execCurrentLimitEngage
  split
  · exact .ite (.next h) (.next (addDue (withPower h)))
  · exact .next h

theorem execCurrentLimitLevel2 : After (execCurrentLimitLevel2 s) := by
  unfold Machine.execCurrentLimitLevel2
  split
  · exact .next (ite (withPower h) h)
  · exact .next h

theorem execThermalCrit : After (execThermalCrit s) := by
  unfold Machine.execThermalCrit
  split
  · exact .next (stepLogic (event (withPower h)))
  · exact .next h

theorem rounded {key nj} : (s.rounded key nj).2.Canonical := withPower h

theorem chargePart {p nj} : (s.chargePart p nj).Canonical := withPower (rounded h)

theorem chargeJob {i nj} : (s.chargeJob i nj).Canonical := ite h (ite (event (setAcc (rounded h))) (setAcc (rounded h)))

theorem resumeJobs : s.resumeJobs.Canonical := foldl h fun _ _ h1 => setAcc h1

theorem chargeCore {c nj} : (s.chargeCore c nj).Canonical := ite (chargeJob h) h

theorem chargeCores {a} : (s.chargeCores a).Canonical := by
  induction a generalizing s  with
  | nil => exact h
  | cons x xs ih =>
    unfold State.chargeCores
    exact ih (chargeCore h)

theorem chargeQuad {r} : (s.chargeQuad r).Canonical := by
  unfold State.chargeQuad
  refine chargeCores ?_
  split
  · exact chargePart h
  · exact h

theorem chargeShared {busy idle} : (s.chargeShared busy idle).Canonical := each h fun _ _ h1 => chargePart h1

theorem easeCurrent {r} : (s.easeCurrent r).Canonical := ite (withPower h) h

theorem heat {r} : (s.heat r).Canonical := ite (withPower h) (ite (withPower h) (ite (withPower h) (ite (withPower h) (withPower h))))

theorem limitPower {p nj} : (s.limitPower p nj).Canonical :=
  ite (withPower h) (ite (ite (withPower h) (withPower h)) (ite (ite (withPower h) (withPower h)) h))

theorem eachReading {f rs} (hf : ∀ t i, t.Canonical → (f t i).Canonical) : (s.eachReading f rs).Canonical := by
  induction rs generalizing s with
  | nil => exact h
  | cons x xs ih =>
    unfold State.eachReading
    exact ih (hf s x h)

theorem boundary {rs shared} : (s.boundary rs shared).Canonical :=
  addDue (boundaryHub (each (each (eachReading (eachReading (resumeJobs (chargeShared (eachReading (withHub h) fun _ _ h1 => chargeQuad h1)))
    fun _ _ h1 => easeCurrent h1) fun _ _ h1 => heat h1) fun _ _ h1 => limitPower h1) fun _ _ h1 => boundaryQuad h1))

theorem execControlInterval : After (execControlInterval s) := by
  unfold Machine.execControlInterval
  split
  · exact .next (boundary h)
  · exact .next h

theorem recap : (s.recap).1.Canonical := ite (event (withPower h)) (withPower h)

end Sys2Proof.Machine.State.Canonical
end

section
set_option Elab.async false
/-! Memory in its one form (log entry 6): what keeps it among the functions of waits, work and the privileged forms. -/
namespace Sys2Proof.Machine.State.Canonical
variable {s : State} (h : s.Canonical)
include h

theorem execQwait {p q a} : After (execQwait p q a s) :=
  issue h fun _ h1 => .read fun _ => .read fun _ => .read fun _ => .ite (.pure h1) (.read fun _ => .error)

theorem execCpywait {p q a} : After (execCpywait p q a s) := issue h fun _ h1 => .read fun _ => .ite (.pure h1) .error

theorem afterFence {c mask} : (s.afterFence c mask).Canonical := modCore (writeBack h)

theorem execCwait {p c a} : After (execCwait p c a s) := issue h fun _ h1 => .read fun _ => .ite .error (.ite (.pure (afterFence h1)) (.pure h1))

theorem execFence {p m} : After (execFence p m s) := issue h fun _ h1 => .read fun _ => .ite (.pure h1) (.pure (withCore h1))

theorem completeFence {c} : (s.completeFence c).Canonical := by
  unfold State.completeFence
  dsimp only
  split
  · exact h
  · exact ite h (modCore (afterFence h))

theorem execFenceComplete : After (execFenceComplete s) := by
  unfold Machine.execFenceComplete
  split
  · exact .next (completeFence h)
  · exact .next h

theorem execBwait {p sx a} : After (execBwait p sx a s) :=
  issue h fun _ h1 => .read fun _ => .bind_snd (barHere h1) fun _ _ h2 => .ite .error (.pure (barRz (withCore h2)))

theorem entry {w d v} : (s.entry w d v).Canonical := ite h (returned h)

theorem blockAt {va} : Yields (fun r => r.2.Canonical) (s.blockAt va) := .read fun _ => .bind_snd (reach h) fun _ _ h1 => .pure h1

theorem spawn {w d va k} : Yields State.Canonical (s.spawn w d va k) :=
  .guard fun _ => .read fun _ => .read fun _ => .bind_snd (blockAt h) fun _ _ h1 => .bind_snd (splitHere h1) fun _ _ h2 => .ite
    (.pure (entry (makeLaunch h2))) (.pure (entry (makeUnit h2)))

theorem execSpawnLaunch {p w d a b} : After (execSpawnLaunch p w d a b s) := issue h fun _ h1 => .read fun _ => .read fun _ => spawn h1

theorem execSpawnUnit {p w d a b} : After (execSpawnUnit p w d a b s) := issue h fun _ h1 => .read fun _ => .read fun _ => spawn h1

theorem sendMessage {m} : (s.sendMessage m).Canonical := ite (post (meter (withHub h))) (addDue (meter (withHub h)))

theorem execSend {p a b} : After (execSend p a b s) :=
  issue h fun _ h1 => .read fun _ => .read fun _ => .read fun _ => .read fun _ => .bind_snd (splitHere h1) fun _ _ h2 => .pure (sendMessage h2)

theorem triggerBar {va} : Yields (fun r => r.2.Canonical) (s.triggerBar va) := by
  unfold State.triggerBar
  refine .read fun _ => ?_
  refine .bind_snd (reach h) fun _ _ h1 => ?_
  dsimp only
  split
  · exact .read fun _ => .pure (leafFor h1 ‹_›)
  · exact .error

theorem execTrig {p a b} : After (execTrig p a b s) :=
  issue h fun _ h1 => .read fun _ => .read fun _ => .read fun _ => .read fun _ => .read fun _ => .read fun _ => .ite
    (.bind_snd (.map (triggerBar h1)) fun _ _ h2 => .bind_snd (splitHere h2) fun _ _ h3 => .pure (ite (giveTok h3) (drainMsgs (setTrig h3))))
    (.bind_snd (.ok h1) fun _ _ h2 => .bind_snd (splitHere h2) fun _ _ h3 => .pure (ite (giveTok h3) (drainMsgs (setTrig h3))))

theorem execUntrig {p a} : After (execUntrig p a s) := by
  unfold Machine.execUntrig
  refine issue h fun _ h1 => ?_
  refine .read fun _ => ?_
  dsimp only
  split
  · exact .pure h1
  · exact .read fun _ => .guard fun _ => .pure (giveHold (setTrig h1))

theorem execQuiet {p w d a} : After (execQuiet p w d a s) := issue h fun _ h1 => .read fun _ => .read fun _ => .ite (resultS (withCore h1)) .error

theorem execAccq {p w d a b} : After (execAccq p w d a b s) := issue h fun _ h1 => .read fun _ => .read fun _ => .read fun _ => resultS h1

theorem openUnder {h1 lvl} : (s.openUnder h1 lvl).2.Canonical := by
  unfold State.openUnder
  dsimp only
  split
  · exact of_snd ‹_› (splitOwner h)
  · split
    · exact tokenHome (of_snd ‹_› (splitOwner h))
    · exact setAcc (newAcc (of_snd ‹_› (splitOwner h)) ‹_›)

theorem returnOwner {i} : (s.returnOwner i).Canonical := by
  unfold State.returnOwner
  dsimp only
  split
  · exact h
  · exact addDue (setAcc h)

theorem phase {w d x y} : Yields State.Canonical (s.phase w d x y) := by
  unfold State.phase
  refine .guard fun _ => ?_
  refine .read fun _ => ?_
  refine .read fun _ => ?_
  refine .read fun _ => ?_
  refine .ite ?_ ?_
  · refine .read fun _ => ?_
    dsimp only
    split
    · exact .read fun _ => .pure (entry (openUnder (engineRz h)))
    · exact .read fun _ => .pure (entry (openUnder (engineRz h)))
    · refine .read fun _ => ?_
      refine .read fun _ => ?_
      refine .bind_snd (blockAt (engineRz h)) fun _ _ h1 => ?_
      split
      · exact .pure (entry (of_snd ‹_› (splitOwner h1)))
      · exact .pure (entry (makeLaunch (of_snd ‹_› (splitOwner h1))))
    · exact .read fun _ => .pure (entry (returnOwner (engineRz h)))
    · exact .read fun _ => .read fun _ => .pure (entry (freeAcc (freeAll (engineRz h))))
  · refine .read fun _ => ?_
    dsimp only
    split
    · exact .read fun _ => .pure (entry (openUnder (engineRz h)))
    · exact .read fun _ => .pure (entry (openUnder (engineRz h)))
    · refine .read fun _ => ?_
      refine .read fun _ => ?_
      refine .bind_snd (blockAt (engineRz h)) fun _ _ h1 => ?_
      split
      · exact .pure (entry (of_snd ‹_› (splitOwner h1)))
      · exact .pure (entry (makeLaunch (of_snd ‹_› (splitOwner h1))))
    · exact .read fun _ => .pure (entry (returnOwner (engineRz h)))
    · exact .read fun _ => .read fun _ => .pure (entry (freeAcc (freeAll (engineRz h))))

theorem execPhaseOpeng {p w d a b} : After (execPhaseOpeng p w d a b s) := issue h fun _ h1 => .read fun _ => .read fun _ => phase h1

theorem execPhaseOpenp {p w d a b} : After (execPhaseOpenp p w d a b s) := issue h fun _ h1 => .read fun _ => .read fun _ => phase h1

theorem execPhaseAddl {p w d a b} : After (execPhaseAddl p w d a b s) := issue h fun _ h1 => .read fun _ => .read fun _ => phase h1

theorem execPhaseClose {p w d a b} : After (execPhaseClose p w d a b s) := issue h fun _ h1 => .read fun _ => .read fun _ => phase h1

theorem execPhaseRelease {p w d a b} : After (execPhaseRelease p w d a b s) := issue h fun _ h1 => .read fun _ => .read fun _ => phase h1

theorem execCancel {p a} : After (execCancel p a s) := issue h fun _ h1 => .read fun _ => .read fun _ => .pure (cancelAcc h1)

theorem execBar {p w d a b} : After (execBar p w d a b s) :=
  issue h fun _ h1 => .read fun _ => .read fun _ => .guard fun _ => .read fun _ => .ite (.pure (contribute (entry (withCore (joinEarlier h1)))))
    (.pure (contribute (ite (withCore (joinEarlier h1)) (withHub (reserve (withCore (joinEarlier h1)))))))

theorem execYield {p} : After (execYield p s) := issue h fun _ h1 => .pure (withCore h1)

theorem closeUnit : s.closeUnit.Canonical := by
  unfold State.closeUnit
  exact exitCircuits (writeBackAll (release h))

theorem execExit {p} : After (execExit p s) := issue h fun _ h1 => .pure (endRunning (closeUnit h1))

theorem execSysrd {p w d n} : After (execSysrd p w d n s) := issue h fun _ h1 => .read fun _ => resultS h1

theorem eachIdle {p f} : (s.eachIdle p f).Canonical := each h fun _ _ h1 => ite (setCore h1) h1

theorem setCkBound {p v} : (s.setCkBound p v).Canonical := eachIdle (withHub h)

theorem setQBound {p v} : (s.setQBound p v).Canonical := eachIdle (withHub h)

theorem setMode {m} : (s.setMode m).Canonical := eachIdle (withHub h)

theorem bothCopies {f} : (s.bothCopies f).Canonical := withCore h

theorem execSyswr {p n b} : After (execSyswr p n b s) := by
  unfold Machine.execSyswr
  refine issue h fun _ h1 => ?_
  refine .read fun _ => ?_
  refine .read fun _ => ?_
  split
  · exact .pure (bothCopies h1)
  · exact .pure (withHub h1)
  · exact .pure (withHub h1)
  · exact .pure (withCore h1)
  · exact .error

theorem execSyswrCkbound {p b} : After (execSyswrCkbound p b s) := issue h fun _ h1 => .read fun _ => .read fun _ => .pure (setCkBound h1)

theorem execSyswrQbound {p b} : After (execSyswrQbound p b s) := issue h fun _ h1 => .read fun _ => .read fun _ => .pure (setQBound h1)

theorem execSyswrArith {p b} : After (execSyswrArith p b s) := issue h fun _ h1 => .read fun _ => .pure (bothCopies h1)

theorem execSyswrSrseed {p b} : After (execSyswrSrseed p b s) := issue h fun _ h1 => .read fun _ => .pure (bothCopies h1)

theorem execSyswrMode {p b} : After (execSyswrMode p b s) := issue h fun _ h1 => .read fun _ => .read fun _ => .pure (setMode h1)

theorem execTrap {p a} : After (execTrap p a s) := issue h fun _ h1 => .read fun _ => confirmThen h1 fun _ h2 => .ok (trapSlot h2)

theorem tret {x} : Yields State.Canonical (s.tret x) := by
  unfold State.tret
  exact .read fun _ => confirmThen h fun _ h1 => .ok (returnTrap (ite h1 (closeUnit h1)))

theorem execTretRetry {p a} : After (execTretRetry p a s) := issue h fun _ h1 => .read fun _ => .read fun _ => tret h1

theorem execTretSkipk {p a} : After (execTretSkipk p a s) := issue h fun _ h1 => .read fun _ => .read fun _ => tret h1

theorem execTretEnd {p a} : After (execTretEnd p a s) := issue h fun _ h1 => .read fun _ => .read fun _ => tret h1

theorem invalidate {p at_} : (s.invalidate p at_).Canonical := ite (withHub h) (addDue (withHub (each (withHub h) fun _ _ h1 => modCore h1)))

theorem execXlinv {p a b} : After (execXlinv p a b s) :=
  issue h fun _ h1 => .read fun _ => .read fun _ => .read fun _ => .ite (.pure h1) (.pure (invalidate h1))

theorem ackInval {h1} : (s.ackInval h1).Canonical := ite (addDue (withHub h)) (withHub h)

theorem execXlinvAck : After (execXlinvAck s) := by
  unfold Machine.execXlinvAck
  split
  · exact .next (ackInval h)
  · exact .next h

theorem execTranslationWalk : After (execTranslationWalk s) := by
  unfold Machine.execTranslationWalk
  split
  · split
    · exact .next (leafFor h ‹_›)
    · exact .next h
  · exact .next h

theorem execPartq {p w d a b} : After (execPartq p w d a b s) :=
  issue h fun _ h1 => .read fun _ => .read fun _ => .read fun _ => .guard fun _ => .pure (entry h1)

theorem execOpreq {p a b} : After (execOpreq p a b s) :=
  issue h fun _ h1 => .read fun _ => .read fun _ => .read fun _ => .read fun _ => .pure (withPower h1)

theorem later {w d} : (s.later w d).2.Canonical := by
  unfold State.later
  split
  · exact h
  · exact reserve h

theorem execEvac {p w d a b} : After (execEvac p w d a b s) :=
  issue h fun _ h1 => .read fun _ => .read fun _ => .read fun _ => .guard fun _ => .ite (.pure (entry h1)) (.pure (evacSram (later h1)))

theorem execRvset {p w d a b} : After (execRvset p w d a b s) :=
  issue h fun _ h1 => .read fun _ => .read fun _ => .read fun _ => .guard fun _ => .ite (.pure (entry h1))
    (.ite (.pure (rvsetSram (later h1))) (.pure (withPower (later h1))))

theorem execRfloor {p w d a b} : After (execRfloor p w d a b s) :=
  issue h fun _ h1 => .read fun _ => .read fun _ => .read fun _ => .guard fun _ => .pure (entry h1)

theorem execRheat {p w d a b} : After (execRheat p w d a b s) :=
  issue h fun _ h1 => .read fun _ => .read fun _ => .read fun _ => .guard fun _ => .pure (entry (tickFree (ite (event (update h1)) (update h1))))

theorem rwave {w d x y} : Yields State.Canonical (s.rwave w d x y) := by
  unfold State.rwave
  refine .guard fun _ => ?_
  dsimp only
  split
  · exact .pure (entry h)
  · exact .ite (.pure (entry h)) (.pure (entry (setPort h)))
  · exact .pure (entry (setPort h))
  · exact .ite (.pure (entry h)) (.pure (entry (event (setPort h))))

theorem execRwaveRead {p w d a b} : After (execRwaveRead p w d a b s) := issue h fun _ h1 => .read fun _ => .read fun _ => .read fun _ => rwave h1

theorem execRwavePark {p w d a b} : After (execRwavePark p w d a b s) := issue h fun _ h1 => .read fun _ => .read fun _ => .read fun _ => rwave h1

theorem execRwaveWake {p w d a b} : After (execRwaveWake p w d a b s) := issue h fun _ h1 => .read fun _ => .read fun _ => .read fun _ => rwave h1

theorem execRwaveMove {p w d a b} : After (execRwaveMove p w d a b s) := issue h fun _ h1 => .read fun _ => .read fun _ => .read fun _ => rwave h1

theorem execRevpost {p a} : After (execRevpost p a s) := by
  unfold Machine.execRevpost
  refine issue h fun _ h1 => ?_
  refine .read fun _ => ?_
  refine .read fun _ => ?_
  refine .read fun _ => ?_
  split
  · exact .pure (postHost h1 ‹_›)
  · exact .error

theorem rhframe {w d x y} : Yields State.Canonical (s.rhframe w d x y) := by
  unfold State.rhframe
  refine .guard fun _ => ?_
  refine .read fun _ => ?_
  refine .ite ?_ (.ite (.pure (entry h)) (.read fun _ => .pure (entry (updatePort h))))
  split
  · exact .pure (entry h)
  · exact .read fun _ => .pure (entry (withCore (updatePort h)))

theorem execRhframeSend {p w d a b} : After (execRhframeSend p w d a b s) :=
  issue h fun _ h1 => .read fun _ => .read fun _ => .read fun _ => rhframe h1

theorem execRhframeRecv {p w d a b} : After (execRhframeRecv p w d a b s) :=
  issue h fun _ h1 => .read fun _ => .read fun _ => .read fun _ => rhframe h1

theorem entryBack {w d v} : (s.entryBack w d v).Canonical := ite h (addDue (reserve h))

theorem execRsigchk {p w d a} : After (execRsigchk p w d a s) :=
  issue h fun _ h1 => .read fun _ => .read fun _ => .guard fun _ => .read fun _ => .pure (entryBack h1)

theorem jobOp {op h1 amount} : (s.jobOp op h1 amount).2.Canonical := by
  unfold State.jobOp
  dsimp only
  split
  · split
    · exact h
    · split
      · exact h
      · exact setAcc (newAcc h ‹_›)
  · split
    · exact h
    · split
      · exact h
      · dsimp only
        split
        · exact setAcc h
        · exact ite (freeAcc (freeAll h)) (returnOwner (setAcc h))
        · exact cancelAcc h

theorem racct {w d x y} : Yields State.Canonical (s.racct w d x y) := by
  unfold State.racct
  exact .guard fun _ => .read fun _ => .pure (entry (jobOp h))

theorem execRacctCreate {p w d a b} : After (execRacctCreate p w d a b s) := issue h fun _ h1 => .read fun _ => .read fun _ => .read fun _ => racct h1

theorem execRacctAdd {p w d a b} : After (execRacctAdd p w d a b s) := issue h fun _ h1 => .read fun _ => .read fun _ => .read fun _ => racct h1

theorem execRacctRelease {p w d a b} : After (execRacctRelease p w d a b s) :=
  issue h fun _ h1 => .read fun _ => .read fun _ => .read fun _ => racct h1

theorem execRacctCancel {p w d a b} : After (execRacctCancel p w d a b s) := issue h fun _ h1 => .read fun _ => .read fun _ => .read fun _ => racct h1

end Sys2Proof.Machine.State.Canonical
end

section
set_option Elab.async false
/-! Memory in its one form (log entry 6): what keeps it among the functions of trails, links and the service forms. -/
namespace Sys2Proof.Machine.State.Canonical
variable {s : State} (h : s.Canonical)
include h

theorem withExports {es} : (s.withExports es).Canonical := h

theorem exportAdd {h1 d v} : (s.exportAdd h1 d v).Canonical := ite (withExports h) (withExports h)

theorem exportSub {h1 d v} : (s.exportSub h1 d v).Canonical := withExports h

theorem exportCargo {k} : (s.exportCargo k).Canonical := by
  unfold State.exportCargo
  split
  · exact exportAdd h
  · exact h

theorem tokBack {k taint} : (s.tokBack k taint).Canonical := giveTok? h

theorem borrowLost {c refused} : (s.borrowLost c refused).Canonical := by
  unfold State.borrowLost
  refine ite (modCore h) ?_
  dsimp only
  split
  · exact h
  · exact ite h (ite (setTrig h) (askForTrigger h))

theorem taintOnly {t} : (s.taintOnly t).Canonical := ite h (giveBack h)

theorem packetLost {k refused} : (s.packetLost k refused).Canonical := by
  unfold State.packetLost
  split
  · exact ite (event h) h
  · split
    · exact h
    · exact chunkOver (ite (landRefused h) (taintOnly h))
  · exact readRefused h
  · exact borrowLost h
  · exact giveBack h
  · exact ite (refuseOpen h) h
  · exact addDue h
  · exact h
  · exact h
  · exact h
  · exact h
  · exact h
  · exact h
  · exact h
  · exact h
  · exact h
  · exact h
  · exact h
  · exact h
  · exact h
  · exact h
  · exact h
  · exact h

theorem refusePacket {k} : (s.refusePacket k).Canonical := tokBack (packetLost h)

theorem giveUpPacket {k} : (s.giveUpPacket k).Canonical := by
  unfold State.giveUpPacket
  split
  · refine ite ?_ (tokBack (packetLost (exportSub h)))
    split
    · exact h
    · exact packetLost h
  · exact tokBack (packetLost h)

theorem reply {k cls body} : (s.reply k cls body).Canonical := post h

theorem ringInFor {k p xfer r tid} : Yields (fun r => r.2.Canonical) (s.ringInFor k p xfer r tid) := by
  unfold State.ringInFor
  dsimp only
  split
  · exact .ok h
  · split
    · exact .ok (withHub (landRefused h))
    · refine .ite (.ok (withHub (event h))) ?_
      refine .ite (.ok (withHub (landRefused h))) ?_
      split
      · exact .ok (withHub (withHub (of_ok_snd ‹_› (reserveRing h))))
      · exact .error

theorem ringInFor_error {k p xfer r tid t} (e : s.ringInFor k p xfer r tid = .error t) : t.Canonical := by
  unfold State.ringInFor at e
  dsimp only at e
  split at e
  · cases e
  · split at e
    · cases e
    · split at e
      · cases e
      · split at e
        · cases e
        · split at e
          · cases e
          · cases e
            exact reserveRing_error h ‹_›

theorem ringInTake {k xfer n} : (s.ringInTake k xfer n).Canonical := withHub h

theorem farToken {k xfer l} : (s.farToken k xfer l).Canonical := by
  unfold State.farToken
  split
  · exact h
  · split
    · exact withHub h
    · exact giveTok h
    · exact giveTok h

theorem farTokensBack {spkg xfer} : (s.farTokensBack spkg xfer).Canonical := giveToks (withHub h)

theorem retiredFar {spkg xfer faulted} : (s.retiredFar spkg xfer faulted).Canonical := reapAll (ite (farTokensBack (withHub h)) (withHub h))

theorem ringTaken {p : Prop} [Decidable p] {k xfer n} : (if p then s.ringInTake k xfer n else s).Canonical := ite (ringInTake h) h

theorem chunkIn {k xfer r lo chan tid data} : (s.chunkIn k xfer r lo chan tid data).Canonical := by
  unfold State.chunkIn
  split
  · exact reply (tokBack (landRefused h))
  · dsimp only
    split
    · next he =>
      split at he
      · exact addDue (ringInFor_error h he)
      · cases he
    · next p _ _ a s0 he =>
      have h0 : s0.Canonical := by
        split at he
        · exact ringInFor h _ he
        · cases he
          exact h
      have h1 {l : Lander} := farToken h0 (k := k) (xfer := xfer) (l := l)
      split
      · exact reply (ringTaken (p := recDstSp r = 2) (of_done ‹_› (landChunk h1)))
      · have h2 := of_dropped ‹_› (landChunk h1)
        refine reply (ringTaken (p := recDstSp r = 2) ?_)
        split
        · exact fillRing h2
        · exact h2
      · exact reply (farTokensBack h1)
      · exact addDue (of_waits ‹_› (landChunk h1))

theorem chunkAcked {x lo wts landed} : (s.chunkAcked x lo wts landed).Canonical := by
  unfold State.chunkAcked
  split
  · exact ite (chunkOver h) h
  · exact h

theorem readFor {k x va lo n} : (s.readFor k x va lo n).Canonical := by
  unfold State.readFor
  split
  · exact reply h
  · dsimp only
    split
    · exact reply (noteRead h)
    · exact ite (reply h) (reply h)

theorem readBack {x lo data} : (s.readBack x lo data).Canonical := by
  unfold State.readBack
  split
  · exact ite (deliver h) h
  · exact h

theorem faultFrom {x lo k addr} : (s.faultFrom x lo k addr).Canonical := by
  unfold State.faultFrom
  split
  · exact ite h (chunkFault h)
  · exact h

theorem dropIncoming {n} : (s.dropIncoming n).Canonical := by
  unfold State.dropIncoming
  split
  · exact h
  · exact update (fillRest (dropSlots h))

theorem openIn {k key b slot} : (s.openIn k key b slot).Canonical := by
  unfold State.openIn
  split
  · exact reply h
  · split
    · exact reply h
    · split
      · exact reply h
      · exact addDue (of_full ‹_› (findLanding h))
      · exact reply (update (takeSlots (of_found ‹_› (findLanding h))))

theorem openAnswered {key refused} : (s.openAnswered key refused).Canonical := by
  unfold State.openAnswered
  refine ite h ?_
  split
  · exact addDue (setHandle (dropSlots h))
  · exact refuseOpen h
  · exact acceptOpen h

theorem flitIn {k key pos data} : (s.flitIn k key pos data).Canonical := by
  unfold State.flitIn
  dsimp only
  split
  · exact h
  · refine ite h ?_
    refine ite (landRefused h) ?_
    split
    · exact reply (ite (landRefused h) h)
    · exact reply (update (of_ok_fst ‹_› (landFlit h)))

theorem endIn {k key} : (s.endIn k key).Canonical := reply (dropIncoming h)

theorem circuitStopped {key c} : (s.circuitStopped key c).Canonical := by
  unfold State.circuitStopped
  dsimp only
  split
  · exact endCircuit h
  · exact endCircuit (setHandle h)

theorem returnIn {k r} : (s.returnIn k r).Canonical := ite (addDue h) (ite h (addDue (exportSub h)))

theorem noteForeign {k} : (s.noteForeign k).Canonical := by
  unfold State.noteForeign
  dsimp only
  split
  · exact ite h (withHub h)
  · exact ite h (withHub h)
  · exact ite h (withHub h)
  · exact h

theorem deliverHere {k} : (s.deliverHere k).Canonical := by
  unfold State.deliverHere
  dsimp only
  split
  · exact addDue (noteForeign h)
  · exact chunkIn (noteForeign h)
  · exact chunkAcked (noteForeign h)
  · exact faultFrom (noteForeign h)
  · exact readFor (noteForeign h)
  · exact readBack (noteForeign h)
  · exact readRefused (noteForeign h)
  · exact faultFrom (noteForeign h)
  · exact returnIn (noteForeign h)
  · exact reply (borrow (noteForeign h))
  · exact addDue (noteForeign h)
  · exact openIn (noteForeign h)
  · exact openAnswered (noteForeign h)
  · exact flitIn (noteForeign h)
  · exact addDue (raiseWeak (noteForeign h))
  · exact circuitStopped (noteForeign h)
  · exact endIn (noteForeign h)
  · exact addDue (noteForeign h)
  · exact takeNotice (noteForeign h)
  · exact retiredFar (noteForeign h)
  · exact noteForeign h
  · split
    · exact addDue (noteForeign h)
    · exact noteForeign h
  · split
    · exact addDue (noteForeign h)
    · exact noteForeign h

theorem waitAtPort {p k} : (s.waitAtPort p k).Canonical := ite (addDue (addDue h)) (addDue h)

theorem putFlits {p k} : (s.putFlits p k).Canonical := setPort h

theorem leaveBy {p k} : (s.leaveBy p k).Canonical := ite (waitAtPort h) (putFlits (exportCargo (ite (meterAt h) h)))

theorem sendAway {k} : (s.sendAway k).Canonical := by
  unfold State.sendAway
  refine ite (refusePacket h) ?_
  refine ite (addDue h) ?_
  split
  · exact leaveBy h
  · split
    · exact addDue h
    · exact refusePacket h

theorem execTrailPacketDeliver : After (execTrailPacketDeliver s) := by
  unfold Machine.execTrailPacketDeliver
  split
  · exact .next (ite (addDue h) (ite (deliverHere h) (sendAway h)))
  · exact .next h

theorem execFlowWindowBoundary : After (execFlowWindowBoundary s) := by
  unfold Machine.execFlowWindowBoundary
  split
  · exact .ite (.next (addDue h)) (.next (addDue (update (endPromoted h))))
  · exact .next h

theorem promote {c key f} : (s.promote c key f).Canonical := by
  unfold State.promote
  dsimp only
  split
  · split
    · exact update (tickFree h)
    · exact ite (update (tickFree h)) (markFlow (update (takeSlots (tickFree h))))
  · exact update (tickFree h)

theorem execFlowPromoteProbe : After (execFlowPromoteProbe s) := by
  unfold Machine.execFlowPromoteProbe
  split
  · split
    · exact .next h
    · exact .next (ite h (promote h))
  · exact .next h

theorem endCrossing {port k} : (s.endCrossing port k).Canonical := endPromoted (foldl h fun _ _ h1 => endCircuit h1)

theorem settleXfer {d x} : (s.settleXfer d x).Canonical := by
  unfold State.settleXfer
  split
  · exact h
  · exact foldl (foldl h fun _ _ h1 => readRefused h1) fun _ _ h1 => chunkOver (taintOnly h1)

theorem discardTokens {d} : (s.discardTokens d).Canonical := update (withHub h)

theorem writeOff {d port} : (s.writeOff d port).Canonical := foldl (withExports h) fun _ _ h1 => event (giveBack h1)

theorem dropLandings {d} : (s.dropLandings d).Canonical := by
  unfold State.dropLandings
  refine foldl ?_ fun _ _ h1 => dropIncoming h1
  refine foldl (withHub h) fun _ _ h1 => ?_
  split
  · exact fillAll h1
  · exact h1

theorem refuseOpens {d} : (s.refuseOpens d).Canonical := foldl h fun _ _ h1 => foldl h1 fun _ _ h2 => ite (refuseOpen h2) h2

theorem peerGone {d port} : (s.peerGone d port).Canonical :=
  refuseOpens (dropLandings (discardTokens (writeOff (foldl h fun _ _ h1 => settleXfer h1))))

theorem lostEvent {port resent given} : (s.lostEvent port resent given).Canonical := event h

theorem giveUpAll {port} : (s.giveUpAll port).Canonical := foldl (lostEvent (setPort h)) fun _ _ h1 => giveUpPacket h1

theorem giveUpOthers {d a} : (s.giveUpOthers d a).Canonical := by
  induction a generalizing s d with
  | nil => exact h
  | cons x xs ih =>
    unfold State.giveUpOthers
    exact ih (ite (giveUpAll h) h)

theorem breakPods {port} : (s.breakPods port).Canonical := foldl h fun _ _ h1 => foldl h1 fun _ _ h2 => ite (settleTree h2) (ite (addDue h2) h2)

theorem loseLink {port} : (s.loseLink port).Canonical :=
  ite h (ite (peerGone (giveUpOthers (giveUpAll (breakPods (endCrossing (update (setPort h)))))))
    (ite (lostEvent (breakPods (endCrossing (update (setPort h))))) (addDue (tickFree (breakPods (endCrossing (update (setPort h))))))))

theorem resend {k} : (s.resend k).Canonical := by
  unfold State.resend
  refine addDue ?_
  split
  · exact exportSub h
  · exact h

theorem reconcileAt {port last} : (s.reconcileAt port last).Canonical := ite h (addDue (foldl (lostEvent (setPort h)) fun _ _ h1 => resend h1))

theorem execReconcile : After (execReconcile s) := by
  unfold Machine.execReconcile
  split
  · exact .next (reconcileAt h)
  · exact .next h

theorem execReconcileTimeout : After (execReconcileTimeout s) := by
  unfold Machine.execReconcileTimeout
  split
  · exact .next (ite h (ite (giveUpAll h) (addDue h)))
  · exact .next h

theorem train {port ident num ver mask flight} : (s.train port ident num ver mask flight).Canonical :=
  ite h (ite (addDue h) (ite (ite (loseLink (event h)) (setPort (event h))) (ite (update (setPort h)) (addDue (update (setPort h))))))

theorem execLinkTraining : After (execLinkTraining s) := by
  unfold Machine.execLinkTraining
  split
  · exact .next (train h)
  · exact .next h

theorem goodFlit {port f} : (s.goodFlit port f).Canonical := by
  unfold State.goodFlit
  dsimp only
  split
  · exact setPort h
  · exact setPort h
  · exact setPort h
  · refine ite (setPort h) ?_
    split
    · exact post (setPort h)
    · exact setPort h
  · refine ite (setPort h) ?_
    split
    · exact post (setPort h)
    · exact setPort h

theorem execFlitReceive : After (execFlitReceive s) := by
  unfold Machine.execFlitReceive
  split
  · exact .next (ite h (ite (goodFlit h) (setPort (count h))))
  · exact .next h

theorem replayFrom {port seq} : (s.replayFrom port seq).Canonical := setPort (foldl h fun _ _ h1 => count h1)

theorem execReplayRequest : After (execReplayRequest s) := by
  unfold Machine.execReplayRequest
  split
  · exact .next (ite (replayFrom h) h)
  · exact .next h

theorem awaitRetrain {port} : (s.awaitRetrain port).Canonical := addDue (tickFree h)

theorem execLinkRetrain : After (execLinkRetrain s) := by
  unfold Machine.execLinkRetrain
  split
  · exact .next (ite h (ite (awaitRetrain (endCrossing (setPort h))) (addDue h)))
  · exact .next h

theorem execRetrainEnd : After (execRetrainEnd s) := by
  unfold Machine.execRetrainEnd
  split
  · exact .ite (.next h) (.ite (.next (addDue (replayFrom (setPort h)))) (.ite (.next (loseLink (setPort h))) (.next (awaitRetrain (setPort h)))))
  · exact .next h

theorem lightEvents {port rx lost live a} : (s.lightEvents port rx lost live a).Canonical := by
  induction a generalizing s port rx lost live with
  | nil => exact h
  | cons x xs ih =>
    unfold State.lightEvents
    exact ite (ih h) (ih (event h))

theorem darken {port rx lost} : (s.darken port rx lost).Canonical :=
  ite h (ite (loseLink (setPort (lightEvents h))) (ite (setPort (lightEvents h)) (addDue (tickFree (setPort (lightEvents h))))))

theorem execLightLoss : After (execLightLoss s) := by
  unfold Machine.execLightLoss
  split
  · exact .next (darken h)
  · exact .next h

theorem restripe {port rx seq} : (s.restripe port rx seq).Canonical := by
  unfold State.restripe
  dsimp only
  split
  · exact h
  · exact ite (endCrossing (ite (event (setPort h)) (replayFrom (event (setPort h))))) (ite (event (setPort h)) (replayFrom (event (setPort h))))

theorem execRestripeComplete : After (execRestripeComplete s) := by
  unfold Machine.execRestripeComplete
  split
  · exact .next (restripe h)
  · exact .next h

theorem execLaserWakeRequest : After (execLaserWakeRequest s) := by
  unfold Machine.execLaserWakeRequest
  split
  · exact .next (setPort h)
  · exact .next h

theorem execPtsTick : After (execPtsTick s) := by
  unfold Machine.execPtsTick
  split
  · exact .ite (.next (addDue h)) (.next (addDue (each (withHub h) fun _ _ h1 => ite (modCore h1) h1)))
  · exact .next h

theorem ftTimeout {r} : (s.ftTimeout r).Canonical := by
  unfold State.ftTimeout
  split
  · refine ite (addDue h) ?_
    split
    · exact withHub h
    · exact withHub h
    · exact addDue (withHub h)
  · exact h
  · exact h
  · exact h

theorem execRegionFtTimeout : After (execRegionFtTimeout s) := by
  unfold Machine.execRegionFtTimeout
  split
  · exact .next (ftTimeout h)
  · exact .next h

theorem execArtUpdateEffect : After (execArtUpdateEffect s) := by
  unfold Machine.execArtUpdateEffect
  split
  · exact .next (ite (event (withHub h)) (withHub h))
  · exact .next h

theorem scrubBad {word slice syndrome} : (s.scrubBad word slice syndrome).Canonical :=
  ite (event (withHub h)) (foldl (withHub h) fun _ _ h1 => cancelAcc (event h1))

theorem execScrub : After (execScrub s) := by
  unfold Machine.execScrub
  split
  · refine .next ?_
    refine addDue ?_
    refine tickFree ?_
    split
    · exact h
    · exact count h
    · exact scrubBad h
  · exact .next h

theorem clearCore {c} : (s.clearCore c).Canonical := modCore (foldl (foldl h fun _ _ h1 => dropMessage h1) fun _ _ h1 => giveHold h1)

theorem clearQuad {q} : (s.clearQuad q).Canonical := by
  unfold State.clearQuad
  exact setOp (each (setOp h) fun _ _ h1 => clearCore h1)

theorem forgetLeaves {p} : (s.forgetLeaves p).Canonical := withHub (each h fun _ _ h1 => modCore h1)

theorem installPart {p d} : (s.installPart p d).Canonical := recap (ite (withPower (setPart h)) (setPart h))

theorem finishDrain {p} : (s.finishDrain p).Canonical := by
  unfold State.finishDrain
  split
  · exact h
  · exact ite (installPart (withHub (ite (each h fun _ _ h1 => clearQuad h1) (forgetLeaves (each h fun _ _ h1 => clearQuad h1))))) (addDue h)

theorem execDrainComplete : After (execDrainComplete s) := by
  unfold Machine.execDrainComplete
  split
  · exact .next (finishDrain h)
  · exact .next h

theorem tellHalt {r} : (s.tellHalt r).Canonical := ite (getD h fun _ h1 => postHost h h1) h

theorem execEventRecordArrive : After (execEventRecordArrive s) := by
  unfold Machine.execEventRecordArrive
  split
  · exact .ite (.next (count (tellHalt h))) (.next (weakPoke (weakPoke (withHub (tellHalt h)))))
  · exact .next h

end Sys2Proof.Machine.State.Canonical
end

section
set_option Elab.async false
/-! Memory in its one form (log entry 6): what keeps it among the functions of the host, loads, the matrix array and the special functions. -/
namespace Sys2Proof.Machine.State.Canonical
variable {s : State} (h : s.Canonical)
include h

theorem haltBoot {k} : (s.haltBoot k).Canonical := h

theorem bootUp : s.bootUp.Canonical :=
  ite (haltBoot h) (ite (haltBoot h) (ite (haltBoot (withPower h)) (addDue (updatePort
    (recap (startRanger (setPart (placeSections (withPower h)))))))))

theorem execBoot : After (execBoot s) := by
  unfold Machine.execBoot
  split
  · exact .next (ite (bootUp h) h)
  · exact .next h

theorem hello {f} : (s.hello f).Canonical := ite (answerFrame h) (ite (answerFrame h) (addDue (streamEvents (respond (updatePort h)))))

theorem execHostHello : After (execHostHello s) := by
  unfold Machine.execHostHello
  split
  · exact .next (hello h)
  · exact .next h

theorem endSession : s.endSession.Canonical := h

theorem execHostGoodbye : After (execHostGoodbye s) := by
  unfold Machine.execHostGoodbye
  split
  · exact .next (endSession (answerFrame h))
  · exact .next h

theorem execSessionTimeout : After (execSessionTimeout s) := by
  unfold Machine.execSessionTimeout
  split
  · exact .next (ite h (ite (endSession h) (addDue h)))
  · exact .next h

theorem execRocev2BulkData : After (execRocev2BulkData s) := by
  unfold Machine.execRocev2BulkData
  split
  · refine .ite (.next h) (.ite (.next (weakPoke h)) (.next ⟨h.1, ?_⟩))
    exact cellsWf_cellsSet h.2 _ _
  · exact .next h

theorem load {f} : (s.load f).Canonical := ite (answerFrame (installImage h)) (answerFrame h)

theorem execHostLoad : After (execHostLoad s) := by
  unfold Machine.execHostLoad
  split
  · exact .next (load h)
  · exact .next h

theorem start {f} : (s.start f).Canonical := by
  unfold State.start
  split
  · exact answerFrame h
  · dsimp only
    split
    · exact answerFrame h
    · refine ite (answerFrame h) ?_
      refine ite (answerFrame h) ?_
      split
      · exact answerFrame (of_snd ‹_› (splitOwner h))
      · split
        · exact answerFrame (of_snd ‹_› (splitOwner h))
        · exact respond (addDue (withHub (newAcc (of_snd ‹_› (splitOwner h)) ‹_›)))

theorem execHostStart : After (execHostStart s) := by
  unfold Machine.execHostStart
  split
  · exact .next (start h)
  · exact .next h

theorem launch {f} : (s.launch f).Canonical := by
  unfold State.launch
  split
  · exact answerFrame h
  · refine ite (answerFrame h) ?_
    refine ite (answerFrame h) ?_
    split
    · exact answerFrame (of_snd ‹_› (splitOwner h))
    · exact respond (makeLaunch (withHub (of_snd ‹_› (splitOwner h))))

theorem execHostLaunch : After (execHostLaunch s) := by
  unfold Machine.execHostLaunch
  split
  · exact .next (launch h)
  · exact .next h

theorem job {op f} : (s.job op f).Canonical := respond (jobOp h)

theorem execHostJobCreate : After (execHostJobCreate s) := by
  unfold Machine.execHostJobCreate
  split
  · exact .next (job h)
  · exact .next h

theorem execHostJobAdd : After (execHostJobAdd s) := by
  unfold Machine.execHostJobAdd
  split
  · exact .next (job h)
  · exact .next h

theorem execHostJobRelease : After (execHostJobRelease s) := by
  unfold Machine.execHostJobRelease
  split
  · exact .next (job h)
  · exact .next h

theorem execHostJobCancel : After (execHostJobCancel s) := by
  unfold Machine.execHostJobCancel
  split
  · exact .next (job h)
  · exact .next h

theorem execHostAcctrd : After (execHostAcctrd s) := by
  unfold Machine.execHostAcctrd
  split
  · exact .next (ite (respond h) (answerFrame h))
  · exact .next h

theorem writePart {p d} : (s.writePart p d).Canonical := ite (event h) (ite (addDue (withHub (installPart (withHub h)))) (installPart (withHub h)))

theorem execHostPart : After (execHostPart s) := by
  unfold Machine.execHostPart
  split
  · exact .next (answerFrame (writePart h))
  · exact .next h

theorem setPodmap {bs} : (s.setPodmap bs).Canonical := addDue (update (tickFree h))

theorem execHostPodmap : After (execHostPodmap s) := by
  unfold Machine.execHostPodmap
  split
  · exact .next (answerFrame (setPodmap h))
  · exact .next h

theorem execHostCap : After (execHostCap s) := by
  unfold Machine.execHostCap
  split
  · exact .next (respond (recap (withPower h)))
  · exact .next h

theorem execHostMode : After (execHostMode s) := by
  unfold Machine.execHostMode
  split
  · exact .next (answerFrame (setMode h))
  · exact .next h

theorem execHostEvents : After (execHostEvents s) := by
  unfold Machine.execHostEvents
  split
  · exact .next (respond (updatePort h))
  · exact .next h

theorem execHostCounters : After (execHostCounters s) := by
  unfold Machine.execHostCounters
  split
  · exact .next (respond h)
  · exact .next h

theorem execHostAttest : After (execHostAttest s) := by
  unfold Machine.execHostAttest
  split
  · exact .next (respond h)
  · exact .next h

theorem spillAll : s.spillAll.Canonical := foldl h fun _ _ h1 => respot (spill h1)

theorem safeStart {f} : (s.safeStart f).Canonical :=
  ite (answerFrame h) (answerFrame (addDue (updatePort (spillAll (each (withHub h) fun _ _ h1 => modCore h1)))))

theorem execHostSafeckpt : After (execHostSafeckpt s) := by
  unfold Machine.execHostSafeckpt
  split
  · exact .next (safeStart h)
  · exact .next h

theorem ackBlock {b} : (s.ackBlock b).Canonical := by
  unfold State.ackBlock
  split
  · exact h
  · exact ite (addDue h) (ite (addDue (withHub (updatePort (spillAll h)))) (addDue (updatePort (spillAll h))))

theorem execCkptBlockAck : After (execCkptBlockAck s) := by
  unfold Machine.execCkptBlockAck
  split
  · exact .next (ackBlock h)
  · exact .next h

theorem execHostCkptstat : After (execHostCkptstat s) := by
  unfold Machine.execHostCkptstat
  split
  · exact .next (respond h)
  · exact .next h

theorem reboot : s.reboot.Canonical := h

theorem execHostReset : After (execHostReset s) := by
  unfold Machine.execHostReset
  split
  · exact .next (reboot (answerFrame h))
  · exact .next h

theorem execLdq {t p d a b} : After (execLdq t p d a b s) :=
  issue h fun _ h1 => .read fun _ => .read fun _ => .read fun _ => .read fun _ => .read fun _ => .bind_snd (reach h1) fun _ _ h2 => .pure
    (noResult (queueLoad h2))

theorem execLdqv {p d a b} : After (execLdqv p d a b s) :=
  issue h fun _ h1 => .read fun _ => .read fun _ => .read fun _ => .read fun _ => .read fun _ => .bind_snd (reach h1) fun _ _ h2 => .pure
    (noResult (queueLoad h2))

theorem execGather {t p d a b} : After (execGather t p d a b s) :=
  issue h fun _ h1 => .read fun _ => .read fun _ => .read fun _ => .read fun _ => .read fun _ => .bind_snd (reach h1) fun _ _ h2 => .pure
    (noResult (queueLoad h2))

theorem execLds {p d a b} : After (execLds p d a b s) :=
  issue h fun _ h1 => .read fun _ => .read fun _ => .bind_snd (directLoad h1) fun _ _ h2 => resultV h2

theorem execLdss {p d a b} : After (execLdss p d a b s) :=
  issue h fun _ h1 => .read fun _ => .read fun _ => .bind_snd (directLoad h1) fun _ _ h2 => resultS h2

theorem execSts {p d a b} : After (execSts p d a b s) := issue h fun _ h1 => .read fun _ => .read fun _ => directStore h1

theorem execStss {p d a b} : After (execStss p d a b s) := issue h fun _ h1 => .read fun _ => .read fun _ => directStore h1

theorem execSt {t p d a b} : After (execSt t p d a b s) :=
  issue h fun _ h1 => .read fun _ => .read fun _ => .read fun _ => .bind_snd (reach h1) fun _ _ h2 => .pure (noResult (withhold h2))

theorem execStv {p d a b} : After (execStv p d a b s) :=
  issue h fun _ h1 => .read fun _ => .read fun _ => .read fun _ => .bind_snd (reach h1) fun _ _ h2 => .pure (noResult (withhold h2))

theorem execScatter {p d a b} : After (execScatter p d a b s) :=
  issue h fun _ h1 => .read fun _ => .read fun _ => .read fun _ => .bind_snd (reach h1) fun _ _ h2 => .pure (noResult (withhold h2))

theorem execPref {p a b} : After (execPref p a b s) :=
  issue h fun _ h1 => .read fun _ => .read fun _ => .pure (ite (noResult h1) (addDue (noResult h1)))

theorem execPrefs {p a b} : After (execPrefs p a b s) := by
  unfold Machine.execPrefs
  refine issue h fun _ h1 => ?_
  refine .read fun _ => ?_
  refine .read fun _ => ?_
  split
  · exact .pure (noResult h1)
  · exact .ite (.pure (noResult h1)) (.pure (addDue (noResult h1)))

theorem execSmap {p a b} : After (execSmap p a b s) :=
  issue h fun _ h1 => .read fun _ => .read fun _ => .read fun _ => .read fun _ => .bind_snd (reach h1) fun _ _ h2 => .pure (noResult (rebind h2))

theorem execSunmap {p a} : After (execSunmap p a s) := issue h fun _ h1 => .read fun _ => .read fun _ => .pure (noResult (rebind h1))

theorem execSwb {p a} : After (execSwb p a s) := issue h fun _ h1 => .read fun _ => .read fun _ => .pure (noResult (writeBackRow h1))

theorem execSinv {p a} : After (execSinv p a s) := issue h fun _ h1 => .read fun _ => .read fun _ => .pure (noResult (rebind h1))

theorem execQueueLoadFill : After (execQueueLoadFill s) := by
  unfold Machine.execQueueLoadFill
  split
  · exact .next (fillLoad h)
  · exact .next h

theorem execStashFill : After (execStashFill s) := by
  unfold Machine.execStashFill
  split
  · exact .next (fillStash h)
  · exact .next h

theorem execStashWriteback : After (execStashWriteback s) := by
  unfold Machine.execStashWriteback
  split
  · exact .next (writeBack h)
  · exact .next h

theorem snapshot {k} : (s.snapshot k).2.Canonical := by
  unfold State.snapshot
  dsimp only
  split
  · exact h
  · exact withCore h

theorem popRing {g} : Yields (fun r => r.2.Canonical) (s.popRing g) := .ite .error (.ok (withCore h))

theorem loadPlane {l} : (s.loadPlane l).Canonical := withCore h

theorem beatDone {a tiles flags} : (s.beatDone a tiles flags).Canonical := ite (withCore h) (fly (withCore h))

theorem beat {g tiles k fx} : Yields (fun r => r.2.2.2.Canonical) (s.beat g tiles k fx) :=
  .read fun _ => .read fun _ => .read fun _ => .read fun _ => .bind_snd (popRing (snapshot h)) fun _ _ h1 => .pure h1

theorem execMxpush {p g d a} : After (execMxpush p g d a s) :=
  issue h fun _ h1 => .read fun _ => .read fun _ => .bind_snd (popRing (snapshot h1)) fun _ _ h2 => .pure (loadPlane h2)

theorem execMxshift {p d a} : After (execMxshift p d a s) :=
  issue h fun _ h1 => .read fun _ => .read fun _ => .bind_snd (popRing (snapshot h1)) fun _ _ h2 => .pure (loadPlane h2)

theorem execMxacc {p g d a b} : After (execMxacc p g d a b s) :=
  issue h fun _ h1 => .read fun _ => .bind (beat h1) fun ⟨_, _, _, _⟩ h2 => .pure (beatDone h2)

theorem execMxaccx {p g d a b} : After (execMxaccx p g d a b s) :=
  issue h fun _ h1 => .read fun _ => .bind (beat h1) fun ⟨_, _, _, _⟩ h2 => .pure (beatDone h2)

theorem execMxdrain {p d a b} : After (execMxdrain p d a b s) :=
  issue h fun _ h1 => .read fun _ => .read fun _ => .read fun _ => .guard fun _ => .read fun _ => .read fun _ => .pure (withCore (fly h1))

theorem execMxzero {p d} : After (execMxzero p d s) := issue h fun _ h1 => .read fun _ => .pure (withCore h1)

theorem execMxswap {p} : After (execMxswap p s) := issue h fun _ h1 => .pure (withCore h1)

theorem sfu {t p w d a lat g} : After (s.sfu t p w d a lat g) := issueV h fun _ _ h1 => .read fun _ => resultV h1

theorem execExp2 {t p w d a} : After (execExp2 t p w d a s) := sfu h

theorem execLog2 {t p w d a} : After (execLog2 t p w d a s) := sfu h

theorem execExp {t p w d a} : After (execExp t p w d a s) := sfu h

theorem execLog {t p w d a} : After (execLog t p w d a s) := sfu h

theorem execRcp {t p w d a} : After (execRcp t p w d a s) := sfu h

theorem execRsqrt {t p w d a} : After (execRsqrt t p w d a s) := sfu h

theorem execTanh {t p w d a} : After (execTanh t p w d a s) := sfu h

theorem execSigmoid {t p w d a} : After (execSigmoid t p w d a s) := sfu h

theorem execErf {t p w d a} : After (execErf t p w d a s) := sfu h

theorem execSin {t p w d a} : After (execSin t p w d a s) := sfu h

theorem execCos {t p w d a} : After (execCos t p w d a s) := sfu h

theorem execSqrt {t p w d a} : After (execSqrt t p w d a s) := sfu h

theorem execDiv {p w d a b} : After (execDiv p w d a b s) := issueV h fun _ _ h1 => .read fun _ => .read fun _ => resultV h1

end Sys2Proof.Machine.State.Canonical
end

section
set_option Elab.async false
/-! Memory in its one form (log entry 6): what keeps it among the functions of issue, the actions and a step. -/
namespace Sys2Proof.Machine.State.Canonical
variable {s : State} (h : s.Canonical)
include h

theorem exec {i} : After (exec i s) := by
  cases i with
  | nop => exact execNop h
  | add => exact execAdd h
  | sub => exact execSub h
  | and => exact execAnd h
  | or => exact execOr h
  | xor => exact execXor h
  | andn => exact execAndn h
  | shl => exact execShl h
  | shr => exact execShr h
  | sra => exact execSra h
  | rotr => exact execRotr h
  | min => exact execMin h
  | minn => exact execMinn h
  | max => exact execMax h
  | maxn => exact execMaxn h
  | sel => exact execSel h
  | mul => exact execMul h
  | mulh => exact execMulh h
  | mulhn => exact execMulhn h
  | clz => exact execClz h
  | popc => exact execPopc h
  | bfx => exact execBfx h
  | bfi => exact execBfi h
  | cmpeq => exact execCmpeq h
  | cmpne => exact execCmpne h
  | cmplt => exact execCmplt h
  | cmpltn => exact execCmpltn h
  | cmple => exact execCmple h
  | cmplen => exact execCmplen h
  | pand => exact execPand h
  | por => exact execPor h
  | pxor => exact execPxor h
  | adds2 => exact execAdds2 h
  | adds3 => exact execAdds3 h
  | adds6 => exact execAdds6 h
  | adds10 => exact execAdds10 h
  | mov => exact execMov h
  | addi => exact execAddi h
  | andi => exact execAndi h
  | ori => exact execOri h
  | xori => exact execXori h
  | shli => exact execShli h
  | shri => exact execShri h
  | srai => exact execSrai h
  | cmpeqi => exact execCmpeqi h
  | cmplti => exact execCmplti h
  | movi => exact execMovi h
  | fadd => exact execFadd h
  | fsub => exact execFsub h
  | fmul => exact execFmul h
  | ffma => exact execFfma h
  | fmin => exact execFmin h
  | fmax => exact execFmax h
  | fcmpeq => exact execFcmpeq h
  | fcmplt => exact execFcmplt h
  | fcmple => exact execFcmple h
  | fcvts => exact execFcvts h
  | fcvti => exact execFcvti h
  | fcvtf => exact execFcvtf h
  | vadd => exact execVadd h
  | vsub => exact execVsub h
  | vmul => exact execVmul h
  | vfma => exact execVfma h
  | vfms => exact execVfms h
  | vmin => exact execVmin h
  | vmax => exact execVmax h
  | vadds => exact execVadds h
  | vsubs => exact execVsubs h
  | vcmpeq => exact execVcmpeq h
  | vcmplt => exact execVcmplt h
  | vcmple => exact execVcmple h
  | vabs => exact execVabs h
  | vneg => exact execVneg h
  | vand => exact execVand h
  | vor => exact execVor h
  | vxor => exact execVxor h
  | vandn => exact execVandn h
  | vshl => exact execVshl h
  | vshr => exact execVshr h
  | vsel => exact execVsel h
  | vmov => exact execVmov h
  | vsplat => exact execVsplat h
  | vins => exact execVins h
  | vxtr => exact execVxtr h
  | vcvt => exact execVcvt h
  | vcvtx => exact execVcvtx h
  | vfxadd => exact execVfxadd h
  | vfxcvt => exact execVfxcvt h
  | vfxcvtf => exact execVfxcvtf h
  | vperm => exact execVperm h
  | vrot => exact execVrot h
  | vbcl => exact execVbcl h
  | vredadd => exact execVredadd h
  | vredmin => exact execVredmin h
  | vredmax => exact execVredmax h
  | vscan => exact execVscan h
  | vxcopy => exact execVxcopy h
  | vxrot => exact execVxrot h
  | vmand => exact execVmand h
  | vmor => exact execVmor h
  | vmxor => exact execVmxor h
  | vmandn => exact execVmandn h
  | vmnot => exact execVmnot h
  | vmpop => exact execVmpop h
  | exp2 => exact execExp2 h
  | log2 => exact execLog2 h
  | exp => exact execExp h
  | log => exact execLog h
  | rcp => exact execRcp h
  | rsqrt => exact execRsqrt h
  | sqrt => exact execSqrt h
  | tanh => exact execTanh h
  | sigmoid => exact execSigmoid h
  | erf => exact execErf h
  | sin => exact execSin h
  | cos => exact execCos h
  | div => exact execDiv h
  | mxpush => exact execMxpush h
  | mxshift => exact execMxshift h
  | mxacc => exact execMxacc h
  | mxaccx => exact execMxaccx h
  | mxdrain => exact execMxdrain h
  | mxzero => exact execMxzero h
  | mxswap => exact execMxswap h
  | ldq => exact execLdq h
  | ldqv => exact execLdqv h
  | gather => exact execGather h
  | lds => exact execLds h
  | ldss => exact execLdss h
  | sts => exact execSts h
  | stss => exact execStss h
  | st => exact execSt h
  | stv => exact execStv h
  | scatter => exact execScatter h
  | pref => exact execPref h
  | prefs => exact execPrefs h
  | smap => exact execSmap h
  | sunmap => exact execSunmap h
  | swb => exact execSwb h
  | sinv => exact execSinv h
  | put => exact execPut h
  | get => exact execGet h
  | aadd => exact execAadd h
  | afxadd => exact execAfxadd h
  | afadd => exact execAfadd h
  | amin => exact execAmin h
  | amax => exact execAmax h
  | aminn => exact execAminn h
  | amaxn => exact execAmaxn h
  | aincb => exact execAincb h
  | acas => exact execAcas h
  | aswap => exact execAswap h
  | aand => exact execAand h
  | aor => exact execAor h
  | axor => exact execAxor h
  | post => exact execPost h
  | br => exact execBr h
  | call => exact execCall h
  | ret => exact execRet h
  | jr => exact execJr h
  | loop => exact execLoop h
  | leave => exact execLeave h
  | qwait => exact execQwait h
  | cpywait => exact execCpywait h
  | cwait => exact execCwait h
  | fence => exact execFence h
  | fenceComplete => exact execFenceComplete h
  | bwait => exact execBwait h
  | spawnLaunch => exact execSpawnLaunch h
  | spawnUnit => exact execSpawnUnit h
  | send => exact execSend h
  | trig => exact execTrig h
  | untrig => exact execUntrig h
  | quiet => exact execQuiet h
  | bar => exact execBar h
  | phaseOpeng => exact execPhaseOpeng h
  | phaseOpenp => exact execPhaseOpenp h
  | phaseAddl => exact execPhaseAddl h
  | phaseClose => exact execPhaseClose h
  | phaseRelease => exact execPhaseRelease h
  | cancel => exact execCancel h
  | yield => exact execYield h
  | exit => exact execExit h
  | accq => exact execAccq h
  | glopen => exact execGlopen h
  | glhold => exact execGlhold h
  | glsend => exact execGlsend h
  | glstat => exact execGlstat h
  | glclose => exact execGlclose h
  | engwr => exact execEngwr h
  | chErrclr => exact execChErrclr h
  | chResume => exact execChResume h
  | engrd => exact execEngrd h
  | cpygo => exact execCpygo h
  | sixgo => exact execSixgo h
  | sysrd => exact execSysrd h
  | syswr => exact execSyswr h
  | syswrCkbound => exact execSyswrCkbound h
  | syswrQbound => exact execSyswrQbound h
  | syswrArith => exact execSyswrArith h
  | syswrSrseed => exact execSyswrSrseed h
  | syswrMode => exact execSyswrMode h
  | trap => exact execTrap h
  | tretRetry => exact execTretRetry h
  | tretSkipk => exact execTretSkipk h
  | tretEnd => exact execTretEnd h
  | xlinv => exact execXlinv h
  | opreq => exact execOpreq h
  | evac => exact execEvac h
  | partq => exact execPartq h
  | rvset => exact execRvset h
  | rfloor => exact execRfloor h
  | rheat => exact execRheat h
  | rwaveRead => exact execRwaveRead h
  | rwavePark => exact execRwavePark h
  | rwaveWake => exact execRwaveWake h
  | rwaveMove => exact execRwaveMove h
  | revpost => exact execRevpost h
  | rhframeSend => exact execRhframeSend h
  | rhframeRecv => exact execRhframeRecv h
  | rsigchk => exact execRsigchk h
  | racctCreate => exact execRacctCreate h
  | racctAdd => exact execRacctAdd h
  | racctRelease => exact execRacctRelease h
  | racctCancel => exact execRacctCancel h
  | checkpointConfirm => exact execCheckpointConfirm h
  | anchorTokenGrant => exact execAnchorTokenGrant h
  | anchorHoldExpiry => exact execAnchorHoldExpiry h
  | rollback => exact execRollback h
  | preemption => exact execPreemption h
  | resumeUnit => exact execResumeUnit h
  | qboundStallLimit => exact execQboundStallLimit h
  | unitPlace => exact execUnitPlace h
  | unitAdmit => exact execUnitAdmit h
  | unitStart => exact execUnitStart h
  | unitAge => exact execUnitAge h
  | unitCancelStop => exact execUnitCancelStop h
  | borrowRequest => exact execBorrowRequest h
  | borrowReply => exact execBorrowReply h
  | combinerAdd => exact execCombinerAdd h
  | combinerFlushPeriod => exact execCombinerFlushPeriod h
  | flushRequest => exact execFlushRequest h
  | returnArrive => exact execReturnArrive h
  | messageArrive => exact execMessageArrive h
  | messageTimeout => exact execMessageTimeout h
  | channelTakeRecord => exact execChannelTakeRecord h
  | channelShadowStart => exact execChannelShadowStart h
  | ringReserve => exact execRingReserve h
  | chunkPerform => exact execChunkPerform h
  | recordComplete => exact execRecordComplete h
  | channelFault => exact execChannelFault h
  | putGetRemoteFault => exact execPutGetRemoteFault h
  | getComplete => exact execGetComplete h
  | sixOpStart => exact execSixOpStart h
  | sixPush => exact execSixPush h
  | sixFault => exact execSixFault h
  | queueLoadFill => exact execQueueLoadFill h
  | stashFill => exact execStashFill h
  | stashWriteback => exact execStashWriteback h
  | barrierArrival => exact execBarrierArrival h
  | ptsTick => exact execPtsTick h
  | regionFtTimeout => exact execRegionFtTimeout h
  | artUpdateEffect => exact execArtUpdateEffect h
  | translationWalk => exact execTranslationWalk h
  | xlinvAck => exact execXlinvAck h
  | trailPacketDeliver => exact execTrailPacketDeliver h
  | flowWindowBoundary => exact execFlowWindowBoundary h
  | flowPromoteProbe => exact execFlowPromoteProbe h
  | glopenComplete => exact execGlopenComplete h
  | guylineSlotSend => exact execGuylineSlotSend h
  | guylineFlitLand => exact execGuylineFlitLand h
  | guylineAckArrive => exact execGuylineAckArrive h
  | guylineLeaseExpire => exact execGuylineLeaseExpire h
  | guylineFinalCount => exact execGuylineFinalCount h
  | guylineFinalTimeout => exact execGuylineFinalTimeout h
  | podBarrierCombine => exact execPodBarrierCombine h
  | podBarrierResult => exact execPodBarrierResult h
  | barTimeout => exact execBarTimeout h
  | linkTraining => exact execLinkTraining h
  | flitReceive => exact execFlitReceive h
  | replayRequest => exact execReplayRequest h
  | linkRetrain => exact execLinkRetrain h
  | retrainEnd => exact execRetrainEnd h
  | lightLoss => exact execLightLoss h
  | restripeComplete => exact execRestripeComplete h
  | reconcile => exact execReconcile h
  | reconcileTimeout => exact execReconcileTimeout h
  | laserWakeRequest => exact execLaserWakeRequest h
  | scrub => exact execScrub h
  | controlInterval => exact execControlInterval h
  | currentLimitEngage => exact execCurrentLimitEngage h
  | currentLimitLevel2 => exact execCurrentLimitLevel2 h
  | thermalCrit => exact execThermalCrit h
  | logicStep => exact execLogicStep h
  | sramUpstep => exact execSramUpstep h
  | stepwaitExpire => exact execStepwaitExpire h
  | evacRowMove => exact execEvacRowMove h
  | stepSettle => exact execStepSettle h
  | drainComplete => exact execDrainComplete h
  | eventRecordArrive => exact execEventRecordArrive h
  | boot => exact execBoot h
  | hostHello => exact execHostHello h
  | hostGoodbye => exact execHostGoodbye h
  | sessionTimeout => exact execSessionTimeout h
  | hostLoad => exact execHostLoad h
  | hostStart => exact execHostStart h
  | hostLaunch => exact execHostLaunch h
  | hostJobCreate => exact execHostJobCreate h
  | hostJobAdd => exact execHostJobAdd h
  | hostJobRelease => exact execHostJobRelease h
  | hostJobCancel => exact execHostJobCancel h
  | hostAcctrd => exact execHostAcctrd h
  | hostPart => exact execHostPart h
  | hostPodmap => exact execHostPodmap h
  | hostCap => exact execHostCap h
  | hostMode => exact execHostMode h
  | hostEvents => exact execHostEvents h
  | hostCounters => exact execHostCounters h
  | hostAttest => exact execHostAttest h
  | hostSafeckpt => exact execHostSafeckpt h
  | ckptBlockAck => exact execCkptBlockAck h
  | hostCkptstat => exact execHostCkptstat h
  | hostReset => exact execHostReset h
  | rocev2BulkData => exact execRocev2BulkData h
  | freedRowsZeroed => exact execFreedRowsZeroed h

theorem bundleTrap {k addr mask} : (s.bundleTrap k addr mask).Canonical := ite (withCore (takeTrap h)) (takeTrap h)

theorem stallOn {want ph} : (s.stallOn want ph).Canonical := addDue (withCore h)

theorem trySlot {y} : (s.trySlot y).Keeps := by
  unfold State.trySlot
  split
  · trivial
  · split
    · exact After.fault
    · exact After.refused
    · have h1 := of_next ‹_› (exec (withCore h))
      split
      · exact h1
      · exact h1
      · trivial
      · split
        · exact h1
        · split
          · exact h1
          · trivial

omit h in
theorem trySlots {r ys} (hr : r.Keeps) : (trySlots r ys).Keeps := by
  induction ys generalizing r with
  | nil => exact hr
  | cons y ys ih =>
    unfold Machine.trySlots
    split
    · exact hr
    · have hy := trySlot hr.st (y := y)
      split
      · next he =>
        rw [he] at hy
        exact ih ⟨hy, hy, hr.stop⟩
      · exact ih ⟨hr.st, hr.before, hr.stop⟩
      · exact ih ⟨hr.st, hr.before, hr.stop⟩
      · next he =>
        rw [he] at hy
        exact ⟨hy, hr.before, hr.stop⟩
      · next he =>
        rw [he] at hy
        exact ⟨hr.st, hr.before, fun _ e => by cases e; exact hy⟩

theorem tryBundle {ys} : (s.tryBundle ys).Keeps := by
  have hr := trySlots (r := { st := s, before := s }) (ys := (ys.filter fun y => waitForm y.ins) ++ ys.filter fun y => !waitForm y.ins)
    ⟨h, h, fun _ e => by cases e⟩
  exact ⟨hr.st, hr.before, hr.stop⟩

theorem settleBundle {r ys} (hr : r.Keeps) : (s.settleBundle r ys).Canonical := by
  unfold State.settleBundle
  dsimp only
  split
  · exact bundleTrap h
  · split
    · exact bundleTrap h
    · refine ite (bundleTrap h) ?_
      split
      · exact bundleTrap h
      · exact ite hr.st (ite (withCore (remapAll hr.st)) (addDue (withCore (remapAll hr.st))))

theorem issueSlots : After s.issueSlots := by
  unfold State.issueSlots
  dsimp only
  have hr := tryBundle h (ys := s.core.slots)
  split
  · exact hr.stop _ ‹_›
  · split
    · exact .next (stallOn h)
    · exact .ite (.next (cancelNow h)) (.ite (.next (stallOn h)) (.next (settleBundle h hr)))

theorem retryBundle : After s.retryBundle := .ite (.next (preemptStalled h)) (issueSlots h)

theorem checkBundle : After s.checkBundle := by
  unfold State.checkBundle
  refine .ite (.next (bundleTrap h)) ?_
  refine .ite (.next (bundleTrap h)) ?_
  refine .ite (.next (bundleTrap h)) ?_
  refine .ite (.next (bundleTrap h)) ?_
  refine .ite ?_ (issueSlots (withCore h))
  split
  · exact issueSlots (withCore (of_made ‹_› (confirm h)))
  · exact .next (stallOn h)
  · exact .next (of_replayed ‹_› (confirm h))

theorem arithTrap {f fs} : (s.arithTrap f fs).Canonical := takeTrap h

theorem argTrap {u k va} : (s.argTrap u k va).Canonical := takeTrap (modUnit h)

theorem badFetch {pa} : (s.badFetch pa).Canonical := ite (cancelNow h) (eccAt h)

theorem beginBundle : After s.beginBundle := by
  unfold State.beginBundle
  split
  · exact .fault
  · split
    · exact .next (badFetch h)
    · dsimp only
      split
      · exact .next (argTrap (withCore h))
      · refine .ite (.next (bundleTrap (withCore h))) ?_
        refine .ite (.next (cancelNow (withCore h))) ?_
        refine .ite (.ite (.next (bundleTrap (withCore h))) (.next (preemptNow (withCore h)))) ?_
        refine .ite (.next (stallOn (withCore h))) ?_
        refine .ite (.next (stallOn (withCore h))) ?_
        split
        · exact .next (arithTrap (withCore h))
        · exact checkBundle (withCore (withCore h))

theorem issueBundle : After s.issueBundle := by
  unfold State.issueBundle
  split
  · exact retryBundle h
  · exact checkBundle h
  · exact beginBundle h
  · exact beginBundle h

theorem perform {a} : After (s.perform a) := by
  unfold State.perform
  split
  · exact .next (update (of_next ‹_› (exec (update h))))
  · exact .fault
  · exact .refused

theorem actBy {a} : After (s.actBy a) := by
  unfold State.actBy
  split
  · exact issueBundle (focus h)
  · split
    · exact perform (update h)
    · exact .next h
  · split
    · exact .next h
    · dsimp only
      split
      · exact perform (frameIn (updatePort h))
      · exact .next (screenFrame (frameIn (updatePort h)) ‹_›)

theorem step : After (step s) := by
  unfold Machine.step
  split
  · exact .next (update h)
  · exact actBy (update h)

end Sys2Proof.Machine.State.Canonical
end

section
set_option Elab.async false
/-! O58. -/
namespace Sys2Proof.Machine

/-- Settles O58: the lemma of `step`, which rests on one lemma for each function that it reaches. -/
theorem stepKeepsMemoryCanonical : Obligations.StepKeepsMemoryCanonical := by
  unfold Obligations.StepKeepsMemoryCanonical
  intro s t h hstep
  exact State.Canonical.step h t hstep

end Sys2Proof.Machine
end
